-- ==== Sys2Proof/Word.lean ====
section
/-! DEFINITION. The word types of the chiplet's registers, fields and bytes (R10: little-endian fields of whole bytes). -/

namespace Sys2Proof

/-- One byte. -/
abbrev Byte := BitVec 8
/-- A 16-bit field: an FA, a tenant, a status code. -/
abbrev W16 := BitVec 16
/-- A 32-bit register of config space, or a local scratchpad address. -/
abbrev W32 := BitVec 32
/-- A 64-bit scalar register, a gate value, the turn counter. -/
abbrev W64 := BitVec 64

/-- A sparse table: the entries that differ from a default the reader names.  Keys are small numbers
(a node, a gate, a register). -/
abbrev Tab (α : Type) := List (Nat × α)

/-- An accumulator tile: 1,024 elements of 32 bits, row-major; elements past the list's end are zero. -/
abbrev Tile := List W32

end Sys2Proof
end

