-- ==== Sys2Proof/Syntax.lean ====
section
/-! DEFINITION. The commands of the block: one constructor of `Instr` per row of spec/opcode_table.json, with the
operands the row's rule gives it.  A row that is an event (a timer, a pin, an arriving frame) carries what the
outside world brings with it. -/

namespace Sys2Proof

/-- The transport of a config-space access (R97, R581). -/
inductive Transport where
  | sideband | jtag | steward | logic
deriving DecidableEq, Repr

/-- One mailbox request as it reaches the steward: the header of R103 and the argument bytes 16 to 127. -/
structure Request where
  ep     : Fin 6
  urgent : Bool
  srcFa  : W16
  seq    : W16
  tenant : W16
  flags  : W16
  argLen : W16
  resv   : BitVec 48
  args   : List Byte
deriving DecidableEq, Repr

/-- The straps as the pins hold them at the rising edge of CHIP_RST_N (R38). -/
structure Straps where
  slotId      : BitVec 5
  chainMaster : Bool
  recovery    : Bool
  shapeHint   : BitVec 2
deriving DecidableEq, Repr

/-- The predicate field of a slot (R198): bit 47 INVERT, bits 46..44 the register. -/
structure Pred where
  inv : Bool
  reg : BitVec 3
deriving DecidableEq, Repr

/-- Which of the two scalar slots (or address slots) an operation stands in. -/
inductive Side where
  | zero | one
deriving DecidableEq, Repr

/-- S-slot format R (R227). -/
structure FmtR where
  rd  : BitVec 5
  ra  : BitVec 5
  rb  : BitVec 5
  sat : Bool
  w   : BitVec 2
  sgn : Bool
deriving DecidableEq, Repr

/-- S-slot format I (R227). -/
structure FmtI where
  rd  : BitVec 5
  ra  : BitVec 5
  sat : Bool
  imm : BitVec 25
deriving DecidableEq, Repr

/-- S-slot format C (R227). -/
structure FmtC where
  pd   : BitVec 3
  cond : BitVec 3
  ra   : BitVec 5
  rb   : BitVec 5
  w    : BitVec 2
  sgn  : Bool
deriving DecidableEq, Repr

/-- S-slot format CI (R227). -/
structure FmtCI where
  pd   : BitVec 3
  cond : BitVec 3
  ra   : BitVec 5
  imm  : BitVec 25
deriving DecidableEq, Repr

/-- S-slot format L (R227). -/
structure FmtL where
  r   : BitVec 5
  a   : BitVec 4
  off : BitVec 27
deriving DecidableEq, Repr

/-- S-slot format B (R227). -/
structure FmtB where
  target : BitVec 14
  likely : Bool
  link   : BitVec 5
deriving DecidableEq, Repr

/-- S-slot format Q (R227), the summary branch. -/
structure FmtQ where
  target : BitVec 14
  likely : Bool
  q      : BitVec 2
  cond   : BitVec 3
  rb     : BitVec 5
  typ    : Bool
deriving DecidableEq, Repr

/-- M-slot format MS (R235). -/
structure FmtMS where
  td  : BitVec 2
  aA  : BitVec 4
  aB  : BitVec 4
  fmt : BitVec 4
  kc  : BitVec 5
  acc : Bool
  sat : Bool
  src : BitVec 2
deriving DecidableEq, Repr

/-- M-slot format MB (R235). -/
structure FmtMB where
  td   : BitVec 2
  aA   : BitVec 4
  aB   : BitVec 4
  aSA  : BitVec 4
  aSB  : BitVec 4
  kc   : BitVec 5
  fmt  : BitVec 3
  bs   : BitVec 3
  sfmt : Bool
  dirA : Bool
  dirB : Bool
  acc  : Bool
  sat  : Bool
deriving DecidableEq, Repr

/-- M-slot format MT (R235). -/
structure FmtMT where
  ts  : BitVec 2
  a   : BitVec 4
  out : BitVec 3
  sat : Bool
  rnd : BitVec 2
deriving DecidableEq, Repr

/-- V-slot stream operation fields (R240). -/
structure FmtV where
  dd     : BitVec 4
  d1     : BitVec 4
  d2     : BitVec 4
  d3     : BitVec 4
  nsrc   : BitVec 2
  region : BitVec 4
  off    : BitVec 4
  len    : BitVec 5
deriving DecidableEq, Repr

/-- D-slot gate operation fields (R242). -/
structure FmtG where
  sd      : BitVec 5
  sv      : BitVec 5
  gate    : BitVec 7
  rem     : Bool
  sf      : BitVec 5
  release : Bool
  acquire : Bool
deriving DecidableEq, Repr

/-- The network header of a packet (R377). -/
structure NetHdr where
  dst    : W16
  src    : W16
  tenant : W16
  typ    : Byte
  nData  : Byte
  hops   : Byte
  flags  : Byte
deriving DecidableEq, Repr

/-- A packet: its network header, the header frame's own content (body bytes 16 to 255) and its data frames
(256-byte granules). -/
structure Packet where
  hdr     : NetHdr
  content : List Byte
  data    : List (List Byte)
deriving DecidableEq, Repr

/-- The content of a transfer packet's header frame (R431) with the network fields that admission reads. -/
structure XferHdr where
  dst      : W16
  src      : W16
  tenant   : W16
  combined : Bool
  ga       : W64
  xfer     : W16
  chan     : Byte
  granules : Byte
  index    : W16
  addType  : Byte
  level    : Byte
  tag      : W16
  first    : W32
  count    : W32
deriving DecidableEq, Repr

/-- The identity frame that ends training (R386): of the initial credits, byte `v` is virtual channel `v`'s, of class 0 for control
and escape, and bytes 4 and 5 are class 1's of control and of escape (R379, R411; the layout is the model's, log 66). -/
structure Identity where
  part     : W16
  stepping : Byte
  dieId    : W64
  slotId   : BitVec 5
  fa       : W16
  port     : Byte
  shape    : Byte
  session  : W32
  expSeq   : BitVec 10
  credits  : BitVec 48
deriving DecidableEq, Repr

/-- A discovery (R404): originator, number, mode, scope and the shape it carries. -/
structure Disc where
  orig   : W16
  num    : W16
  mode   : Byte
  scope  : Byte
  shape  : Byte
  layout : Byte
  twist  : W16
deriving DecidableEq, Repr

/-- A grandmaster nomination (R153, R154): its mode, the commit's turn timestamp, who nominated whom, the period. -/
structure Nomination where
  mode   : Byte
  ts     : W64
  nomFa  : W16
  gmFa   : W16
  period : W32
deriving DecidableEq, Repr

/-- The body of a TIME_REQ or TIME_RSP (R466). -/
structure TimeMsg where
  locked   : Bool
  holdover : Bool
  defined  : Bool
  gmFa     : W16
  hops     : Byte
  t1       : W64
  t2       : W64
  t3       : W64
  defTs    : W64
  nomFa    : W16
  period   : W32
deriving DecidableEq, Repr

/-- One member of a gang (R156). -/
structure GangMember where
  fa    : W16
  basin : Byte
deriving DecidableEq, Repr

/-- A leat frame (R524): kind is the row's; `ok` says that the check passed and the kind is not reserved. -/
structure LeatFrame where
  addr : Byte
  tag  : W16
  body : List Byte
  ok   : Bool
deriving DecidableEq, Repr

/-- The pair of leat wires a frame arrives on. -/
inductive LeatPair where
  | di | dO
deriving DecidableEq, Repr

/-- The boundary-scan cells (R51): one for each sideband pin, bit 0 CHIP_RST_N, 1 COOLANT_OK, 2 THERM_ALERT_N, 3 to 7 SLOT_ID,
8 CHAIN_MASTER, 9 RECOVERY, 10 and 11 SHAPE_HINT, 12 LEAT_DI, 13 LEAT_SI, 14 LEAT_DO, 15 LEAT_SO; and one for each of the four
transmit and the four receive lanes of C0 to C11, bit 4 p + l lane l of C p.  No cell belongs to D0 to D7 or to the D0 sideband
(the order of the cells is the model's, log 82). -/
structure Cells where
  pins : BitVec 16
  tx   : BitVec 48
  rx   : BitVec 48
deriving DecidableEq, Repr

/-- Who made the read that met a parity error (R339, R346): a core of a basin, or another reader. -/
inductive Reader where
  | core (n : Fin 64)
  | steward | inMemory | dma | window | debug
deriving DecidableEq, Repr

/-- The cause of a hardware fault of a core (R562). -/
inductive HwCause where
  | stateParity | operandLink | engineCheck
deriving DecidableEq, Repr

/-- The cause of a steward fault (R570). -/
inductive StewardCause where
  | dataSram | exception | keepSram | loader
deriving DecidableEq, Repr

/-- The cause a port's PHY reports (R383). -/
inductive PhyCause where
  | mainband | fecOrAlignment
deriving DecidableEq, Repr

/-- What one estimator period measured (R487, R515): per-core activity counts (counters 0 to 19, one list per node),
chiplet-wide counts of counters 20 to 47, and the shares of the SRAM and flume dynamic counts by energy account. -/
structure Activity where
  core  : List (List Nat)
  dither : Nat
  chip  : List Nat
  sramBy : List (List Nat)
  flumeBy : List (List Nat)
deriving DecidableEq, Repr

/-- The commands of the block, one constructor per row of the operation and event table. -/
inductive Instr where
  -- mailbox commands (R126 to R189): served by the steward
  | nop (r : Request) | echo (r : Request) | status (r : Request)
  | identRead (r : Request) | gradeMap (r : Request) | optableRead (r : Request) | fuseSummary (r : Request)
  | settingsGet (r : Request) | settingsSet (r : Request) | settingsCommit (r : Request)
  | ledgerRead (r : Request) | ledgerMark (r : Request)
  | fabricDiscover (r : Request) | fabricAddrSet (r : Request) | fabricShapeSet (r : Request)
  | routeLoad (r : Request) | routeRead (r : Request) | linkState (r : Request) | linkRetrain (r : Request)
  | timeMaster (r : Request) | timeStatus (r : Request) | gangForm (r : Request) | gangDissolve (r : Request)
  | basinCreate (r : Request) | basinResize (r : Request) | basinDestroy (r : Request) | basinSeize (r : Request)
  | basinRelease (r : Request) | basinQuery (r : Request) | basinMode (r : Request)
  | progLoad (r : Request) | progStart (r : Request) | progStop (r : Request) | progState (r : Request)
  | coreReset (r : Request) | segPower (r : Request) | segFill (r : Request)
  | windowOpen (r : Request) | windowClose (r : Request) | windowList (r : Request) | dmaPost (r : Request)
  | gateInit (r : Request) | gateRead (r : Request) | gateClean (r : Request)
  | powerCap (r : Request) | powerPriority (r : Request) | powerOpPrefer (r : Request) | powerPace (r : Request)
  | powerRamp (r : Request) | thermLimits (r : Request) | throttleRead (r : Request) | energyRead (r : Request)
  | estimStatus (r : Request) | estimDither (r : Request)
  | sweepConfig (r : Request) | sweepResult (r : Request)
  | fwBegin (r : Request) | fwBlock (r : Request) | fwVerify (r : Request) | fwHandover (r : Request)
  | fwConfirm (byImage : Bool) (r : Request) | fwAbort (byImage : Bool) (r : Request) | fwStatus (r : Request)
  | debugHalt (r : Request) | debugPeek (r : Request) | debugPoke (r : Request)
  -- service (R107, R113, R114).  `commit` says whether service reaches the command's commit before it is preempted
  | requestServiceStart (commit : Bool) | urgentServiceStart | preemptedCommandResume
  -- config-space writes and reads (R97 to R124, R579 to R600)
  | mbxEpnDoorbell (ep : Fin 6) (via : Transport) (v : W32) | mbxEpnRspAck (ep : Fin 6) (via : Transport) (v : W32)
  | mbxEpnUrgDoorbell (ep : Fin 6) (via : Transport) (v : W32) | mbxEpnUrgStatus (ep : Fin 6) (via : Transport) (v : W32)
  | mbxEpnStatus (ep : Fin 6) (via : Transport) (v : W32)
  | ledgerDrained (via : Transport) (v : W32) | ledgerStatus (via : Transport) (v : W32)
  | aonLatch (via : Transport) (v : W32)
  | lnkTestStart (port : Fin 20) (via : Transport) (rate : Bool) | lnkTestStop (port : Fin 20) (via : Transport)
  | lnkPnTestRefusedClear (port : Fin 20) (via : Transport) (v : W32)
  | stgWdogKick (via : Transport) (v : W32) | trnCountLo (via : Transport)
  | dbgSlcnCounterRead (via : Transport) (slice : Fin 64) (which : Fin 5) | dbgJtag (via : Transport) (v : W32)
  | registerWrite (via : Transport) (off : BitVec 24) (v : W32)
  -- JTAG (R49 to R52, R602): `drive` is what is shifted into the boundary cells, `seen` what the pins and lanes show
  | cfgAccessUpdateDr (dr : W64) | bypass | idcode | samplePreload (drive seen : Cells)
  | extest (drive seen : Cells) | extestPulse (drive seen : Cells) | extestTrain (drive seen : Cells) | cfgAccess
  -- mailbox packets (R102, R110)
  | mailboxRequest (ep : Fin 6) (srcFa : W16) (slot : List Byte) | mailboxResponse (srcFa : W16) (slot : List Byte)
  -- pins, rails and resets
  | chipRstNAssert (lowNs : Nat) | chipRstNRelease (straps : Straps) | coldReset | vddAonPowerLoss
  | railFault (rail : Fin 6) | refclkLoss | coolantLoss | coolantRestored | thermalTrip (point : Fin 72)
  | stewardWatchdogExpiry | stewardFault (cause : StewardCause) (pcLow : W32)
  -- stages and firmware update
  | stage0Complete (romOk stewardOk transportOk : Bool) (temps : List Int) (trips : BitVec 72) | bootConfirmTimeout | fwVerifyComplete
  | stage2MarkDown | stage2Complete | scratchpadTestComplete (failing : List Nat)
  | coreSelfTestComplete (failing pathBad : BitVec 64)
  | handoverPauseBegin | exchangeComplete | startChecksPass | selfConfirm | confirmWindowEnd
  -- headgate
  | vddAck (num : Byte) (mv : W16) | vddAckTimeout | corePllLocked
  | railReport (sample core sram flume link : W16) | railStaleTimeout | ditherSlot
  | estimatorPeriod (act : Activity) | rampShaperInterval (forecast quiet : List Nat)
  | thermalConversion (temps : List Int) | opLoop (demanded withheld : Nat) | paceWindow (executed : List Nat)
  | droopDetect (below : BitVec 16) | droopClear | headgateStall (missed : W32)
  -- faults and memory events
  | hardwareFault (n : Fin 64) (cause : HwCause) (slot : Byte) | parityDetection (addr : W32) (reader : Reader)
  | flumeFault (node : Fin 64) (plane : BitVec 3)
  | segWakeGroup | inMemoryOpComplete (slice : Fin 64) | zeroingComplete (basin : Fin 32) | segFillComplete
  | progLoadComplete (basin : Fin 32)
  -- discovery, time, gangs
  | discoveryQuietTimer | discoveryForget
  | discoveryFlood (port : Fin 20) (sender : W16) (senderPort : Byte) (d : Disc)
  | discoveryReply (port : Fin 20) (d : Disc) (fa : W16) (refused : Bool) (down : Byte) (dieId : W64)
  | discoveryWithdrawal (port : Fin 20) (d : Disc) (fa : W16)
  | timeNomination (n : Nomination) | timeMasterLocked | linkRetrainComplete (port : Fin 20) (us : W32)
  | gangJoin (master : W16) (gang : Byte) (kind : Byte) (tenant : W16) (basin : Fin 32) (width height mode : Byte)
  | gangJoinReply (gang : Byte) (member : Byte) (accept : Bool)
  | gangCommit (master : W16) (gang : Byte) | gangAbort (master : W16) (gang : Byte)
  | gangCommitAck (gang : Byte) (member : Byte) | gangReplyDeadline (gang : Byte)
  | gangTentativeExpiry (master : W16) (gang : Byte) | gangLeave (master : W16) (gang : Byte)
  | gangLeaveAck (gang : Byte) (member : Byte) | gangLeaveDeadline (gang : Byte)
  | gangBeat (master : W16) (gang : Byte) (answer : Option Byte) | gangLost (master : W16) (gang : Byte) (lost : W16) | gangHalt (master : W16) (gang : Byte) (lost : W16)
  | gangBarrierRelease (master : W16) (gate : Fin 128) (edge : W64)
  | turnEdge | timeExchangeTimer | timeReq (port : Fin 20) (m : TimeMsg)
  | timeRsp (port : Fin 20) (m : TimeMsg) (t4 : W64) | holdoverExpiry | grandmasterFallback (lowest : W16)
  -- link layer
  -- a frame as it comes: its 264 bytes, whether the FEC decoder gave every codeword, and the RS symbols that it corrected (R376, R391)
  | frameReceive (port : Fin 20) (raw : List Byte) (fec : Bool) (fixed : Nat) | replay (port : Fin 20) (seq : BitVec 10)
  | replayResendTimer (port : Fin 20) | ackTimer (port : Fin 20) | linkSilence (port : Fin 20)
  | linkPhyError (port : Fin 20) (cause : PhyCause) | trainingStepComplete (port : Fin 20) (lanesRepaired : W64)
  | identityExchange (port : Fin 20) (i : Identity) | trainingAttemptFail (port : Fin 20)
  | partnerTrainingDetected (port : Fin 20) | stopFrame (port : Fin 20) (cause : Byte)
  | packetHeaderArrival (port : Fin 20) (p : Packet) | combineRecordTimeout (record : Nat)
  -- windows and remote DMA
  | revocation (src : W16) (action : Byte) (basin : Byte) (number : W32) (windows : W64)
  | writePacket (h : XferHdr) (data : List (List Byte)) | addPacket (h : XferHdr) (data : List (List Byte))
  | readRequest (h : XferHdr) | readData (h : XferHdr) (data : List (List Byte))
  | addWriteArrival (h : XferHdr) (granule : Nat) (data : List Byte) | reductionTimeout (entry : Nat)
  | creditReq (src : W16) (window : Byte) (kind : Byte) (outstanding : W16) (xfer : W16) (chan : Byte)
  | creditGrant (src : W16) (window : Byte) (n : Byte) (xfer : W16) (chan : Byte)
  | packetDone (src : W16) (window : Byte) (outcome : Byte) (xfer : W16) (chan : Byte) (index : W16) (grant : Byte)
  | creditRelease (src : W16) (window : Byte) (n : Byte) (xfer : W16) (chan : Byte)
  | full (src : W16) (window : Byte) (xfer : W16) (chan : Byte) | fullRetryTimer (chan : Fin 32)
  | creditReclaim (window : Fin 64) (fa : W16) (chan : Byte) | lossLimit (chan : Fin 32)
  -- remote gates and locks
  | remoteGateOperation (src tenant : W16) (op : Byte) (gate : Byte) (sv : W64) (core : Byte) (life : W16)
      (session tag : W32)
  | gateResult (src : W16) (tag : W32) (word : W64)
  | holdProbeTimer | holdProbe (src : W16) (gate core : Byte) (life : W16) (session : W32)
  | holdAnswer (src : W16) (gate : Byte) (alive : Bool)
  | waitProbeTimer | waitProbe (src : W16) (tag : W32) (gate : Byte) | waitAnswer (src : W16) (tag : W32) (waiting : Bool)
  | waitSilenceTimeout (tag : W32) | withdraw (src : W16) (tag : W32) (gate : Byte)
  | poolFull (src : W16) (tag : W32) (gate : Byte) | poolFullRetry (tag : W32)
  | leaseExpiry (gate : Fin 128) | reachabilityLimit (gate : Fin 128)
  -- seizure
  | seizureQuiesced | flumeFenceDone | fabricFenceDone | seizureCommit | windowCloseDrained (window : Fin 64)
  -- the work core's own events
  | bundleIssue (n : Fin 64) | bundleSplitResume (n : Fin 64) | ifetchMissFill (n : Fin 64) (parityOk : Bool)
  | scoreboardRetire (n : Fin 64) (entry : Nat) | stripStagingComplete (n : Fin 64) | stripEnd (n : Fin 64)
  | vectorOpComplete (n : Fin 64) | gateResultWrite (n : Fin 64) (tag : W32)
  -- S slots
  | add (n : Fin 64) (sl : Side) (p : Pred) (f : FmtR) | sub (n : Fin 64) (sl : Side) (p : Pred) (f : FmtR)
  | mul (n : Fin 64) (sl : Side) (p : Pred) (f : FmtR) | mulh (n : Fin 64) (sl : Side) (p : Pred) (f : FmtR)
  | div (n : Fin 64) (sl : Side) (p : Pred) (f : FmtR) | rem (n : Fin 64) (sl : Side) (p : Pred) (f : FmtR)
  | neg (n : Fin 64) (sl : Side) (p : Pred) (f : FmtR) | min (n : Fin 64) (sl : Side) (p : Pred) (f : FmtR)
  | max (n : Fin 64) (sl : Side) (p : Pred) (f : FmtR) | and (n : Fin 64) (sl : Side) (p : Pred) (f : FmtR)
  | or (n : Fin 64) (sl : Side) (p : Pred) (f : FmtR) | xor (n : Fin 64) (sl : Side) (p : Pred) (f : FmtR)
  | shl (n : Fin 64) (sl : Side) (p : Pred) (f : FmtR) | shr (n : Fin 64) (sl : Side) (p : Pred) (f : FmtR)
  | sar (n : Fin 64) (sl : Side) (p : Pred) (f : FmtR) | rol (n : Fin 64) (sl : Side) (p : Pred) (f : FmtR)
  | ror (n : Fin 64) (sl : Side) (p : Pred) (f : FmtR) | popc (n : Fin 64) (sl : Side) (p : Pred) (f : FmtR)
  | clz (n : Fin 64) (sl : Side) (p : Pred) (f : FmtR) | ext (n : Fin 64) (sl : Side) (p : Pred) (f : FmtR)
  | ins (n : Fin 64) (sl : Side) (p : Pred) (f : FmtR)
  | addi (n : Fin 64) (sl : Side) (p : Pred) (f : FmtI) | li (n : Fin 64) (sl : Side) (p : Pred) (f : FmtI)
  | lic (n : Fin 64) (sl : Side) (p : Pred) (f : FmtI)
  | cmp (n : Fin 64) (sl : Side) (p : Pred) (f : FmtC) | cmpi (n : Fin 64) (sl : Side) (p : Pred) (f : FmtCI)
  | chk (n : Fin 64) (sl : Side) (p : Pred) (f : FmtC)
  | plog (n : Fin 64) (sl : Side) (p : Pred) (pd pa pb : BitVec 3) (fn : BitVec 2) (inv : Bool)
  | sel (n : Fin 64) (sl : Side) (p : Pred) (rd ra rb : BitVec 5) (ps : BitVec 3)
  | fadd (n : Fin 64) (sl : Side) (p : Pred) (f : FmtR) | fsub (n : Fin 64) (sl : Side) (p : Pred) (f : FmtR)
  | fmul (n : Fin 64) (sl : Side) (p : Pred) (f : FmtR) | fma (n : Fin 64) (sl : Side) (p : Pred) (f : FmtR)
  | fmin (n : Fin 64) (sl : Side) (p : Pred) (f : FmtR) | fmax (n : Fin 64) (sl : Side) (p : Pred) (f : FmtR)
  | frsq (n : Fin 64) (sl : Side) (p : Pred) (f : FmtR) | fcmp (n : Fin 64) (sl : Side) (p : Pred) (f : FmtC)
  | cvt (n : Fin 64) (sl : Side) (p : Pred) (rd ra : BitVec 5) (kind : BitVec 3) (rnd : BitVec 2)
  | ld (n : Fin 64) (sl : Side) (p : Pred) (f : FmtL) | st (n : Fin 64) (sl : Side) (p : Pred) (f : FmtL)
  | mova (n : Fin 64) (sl : Side) (p : Pred) (ad : BitVec 4) (ra : BitVec 5)
  | rdq (n : Fin 64) (sl : Side) (p : Pred) (rd : BitVec 5) (q : BitVec 2)
  | dset (n : Fin 64) (sl : Side) (p : Pred) (d : BitVec 4) (half : Bool) (ra : BitVec 5)
  | whoami (n : Fin 64) (sl : Side) (p : Pred) (f : FmtR) | rdturn (n : Fin 64) (sl : Side) (p : Pred) (f : FmtR)
  | br (n : Fin 64) (sl : Side) (p : Pred) (f : FmtB) | bl (n : Fin 64) (sl : Side) (p : Pred) (f : FmtB)
  | jr (n : Fin 64) (sl : Side) (p : Pred) (ra : BitVec 5) (likely : Bool)
  | brq (n : Fin 64) (sl : Side) (p : Pred) (f : FmtQ)
  -- A slots
  | ali (n : Fin 64) (sl : Side) (p : Pred) (ad : BitVec 4) (imm : W32)
  | aaddi (n : Fin 64) (sl : Side) (p : Pred) (ad aa : BitVec 4) (imm : BitVec 28)
  | aadd (n : Fin 64) (sl : Side) (p : Pred) (ad aa : BitVec 4) (rb : BitVec 5) (sh : BitVec 3)
  | acirc (n : Fin 64) (sl : Side) (p : Pred) (ad ab : BitVec 4) (lg : BitVec 5) (stride : BitVec 23)
  | abnd (n : Fin 64) (sl : Side) (p : Pred) (pd : BitVec 3) (aa al : BitVec 4) (len : BitVec 25)
  | aand (n : Fin 64) (sl : Side) (p : Pred) (ad aa : BitVec 4) (mask : BitVec 28)
  | ards (n : Fin 64) (sl : Side) (p : Pred) (rd : BitVec 5) (aa : BitVec 4)
  -- M slot
  | mmul (n : Fin 64) (p : Pred) (f : FmtMS) | mmulp (n : Fin 64) (p : Pred) (f : FmtMS)
  | mmul3 (n : Fin 64) (p : Pred) (f : FmtMS) | mmulbs (n : Fin 64) (p : Pred) (f : FmtMB)
  | mst (n : Fin 64) (p : Pred) (f : FmtMT) | mstp (n : Fin 64) (p : Pred) (f : FmtMT)
  | mfin (n : Fin 64) (p : Pred) (ts : BitVec 2) | mlat (n : Fin 64) (p : Pred) (f : FmtMS)
  -- V slot
  | vbath (n : Fin 64) (p : Pred) (f : FmtV) | vtpop (n : Fin 64) (p : Pred) (f : FmtV)
  | vred (n : Fin 64) (p : Pred) (qd : BitVec 2) (ds : BitVec 4) (kind : BitVec 3) (typ : Bool)
  | vtclr (n : Fin 64) (p : Pred) (t : BitVec 2) | vtld (n : Fin 64) (p : Pred) (t : BitVec 2) (a : BitVec 4)
  | vcfill (n : Fin 64) (p : Pred) (region a : BitVec 4)
  -- D slot
  | gadd (n : Fin 64) (p : Pred) (f : FmtG) | gwait (n : Fin 64) (p : Pred) (f : FmtG)
  | glock (n : Fin 64) (p : Pred) (f : FmtG) | gtry (n : Fin 64) (p : Pred) (f : FmtG)
  | gunlock (n : Fin 64) (p : Pred) (f : FmtG) | gclean (n : Fin 64) (p : Pred) (f : FmtG)
  | gbar (n : Fin 64) (p : Pred) (f : FmtG) | gsig (n : Fin 64) (p : Pred) (f : FmtG)
  | gevw (n : Fin 64) (p : Pred) (f : FmtG) | gclr (n : Fin 64) (p : Pred) (f : FmtG)
  | grd (n : Fin 64) (p : Pred) (f : FmtG)
  | dfill (n : Fin 64) (p : Pred) (a : BitVec 4) (sv sl : BitVec 5)
  | dcopy (n : Fin 64) (p : Pred) (ad as : BitVec 4) (sl : BitVec 5)
  | dpost (n : Fin 64) (p : Pred) (a : BitVec 4) (g sl : BitVec 5) (ch : BitVec 2) (dir : Bool) (gate : BitVec 7)
  -- H slot
  | loop (n : Fin 64) (p : Pred) (level : Bool) (sr : BitVec 5) (endB : BitVec 14)
  | loopi (n : Fin 64) (p : Pred) (level : Bool) (count : BitVec 7) (endB : BitVec 14)
  | hint (n : Fin 64) (p : Pred) (level : BitVec 2) (lead : Byte) (dur : BitVec 12)
  | phase (n : Fin 64) (p : Pred) (ph : BitVec 2) | pref (n : Fin 64) (p : Pred) (line : BitVec 10)
  | edge (n : Fin 64) (p : Pred) | endOp (n : Fin 64) (p : Pred)
  -- leat frames and timers
  | idle (on : LeatPair) (f : LeatFrame) | turn (on : LeatPair) (f : LeatFrame) | turned (on : LeatPair) (f : LeatFrame)
  | sweepHead (on : LeatPair) (f : LeatFrame) | record (on : LeatPair) (f : LeatFrame)
  | sweepEnd (on : LeatPair) (f : LeatFrame) | image (on : LeatPair) (f : LeatFrame)
  | blockCheck (on : LeatPair) (f : LeatFrame)
  | requestFirstHalf (on : LeatPair) (urgent : Bool) (f : LeatFrame)
  | requestSecondHalf (on : LeatPair) (urgent : Bool) (f : LeatFrame)
  | responseFrame (on : LeatPair) (urgent second : Bool) (f : LeatFrame)
  | leatSearchTimeout | masterIdleTimer | masteryTakeover | masterDrivePermitted | endOfLineTimeout
  | sweepPeriod | sweepStall | sweepCutTimeout | heldRecordTimer
  -- further events
  | refclkRestored | fullFirmwareService | tapReset | tripComparatorSelfCheck (point : Fin 72)
  | operandCacheRefilled (n : Fin 64) | aonDomainFailure
deriving DecidableEq, Repr

end Sys2Proof
end

