-- ==== Sys2Proof/Config.lean ====
section
/-! DEFINITION. The values that the spec leaves open: opaque constants, so that no proof can know one of them. -/

namespace Sys2Proof.Config

/-- What byte `a` of an undefined range reads as, for the `g`-th time that bytes became undefined (R334, R337). -/
opaque freeByte (g a : Nat) : BitVec 8
/-- What the operand cache of node `n` holds at byte `o` before any fill (R240, R304). -/
opaque cacheByte (n o : Nat) : BitVec 8
/-- What word `w` of ring position `pos` reads as before any entry has been written there (R123, R591). -/
opaque unwritten (pos w : Nat) : BitVec 32
/-- The errors that the `k`-th look at the lane tests finds on lane `l` of port `q`: what the lanes did is outside the chiplet
(R392, R595). -/
opaque laneErrors (k q l : Nat) : BitVec 32
/-- A free number: the `k`-th value that the spec leaves open in one run. -/
opaque freeNat (k : Nat) : Nat

/-- Herelavi's image-signing public key, which the boot ROM holds (R542). -/
opaque signingKey : Nat × Nat

/-- The energy in joules of one event of activity counter `i`, fused at test (R487). -/
opaque weight (i : Nat) : Rat
/-- The leakage in watts of rail `r` at a voltage in mV and the mean temperature of the rail's points in °C, fused at test (R488). -/
opaque leakage (r mv : Nat) (temp : Rat) : Rat
/-- The current in mA of a core whose array is full, in the format of a code of R236 at an operating point; the spec gives no
figure (R503). -/
opaque arrayCurrent (fmt op : Nat) : Nat

end Sys2Proof.Config
end

