-- ==== Sys2Proof/Machine/Tab.lean ====
section
/-! DEFINITION. Reading and writing a sparse table: a list of (key, value) pairs kept in rising order of the keys,
read with a default. -/

namespace Sys2Proof.Machine

/-- The entry of key `k`, or `d` where the table has none. -/
def tget {α : Type} (d : α) : Tab α → Nat → α
  | [], _ => d
  | (j, v) :: r, k => if j = k then v else tget d r k

/-- The table with the entry of key `k` set to `v`; keys stay in rising order. -/
def tput {α : Type} : Tab α → Nat → α → Tab α
  | [], k, v => [(k, v)]
  | (j, w) :: r, k, v =>
    if k < j then (k, v) :: (j, w) :: r
    else if k = j then (k, v) :: r
    else (j, w) :: tput r k v

/-- The table without its entry of key `k`. -/
def tdel {α : Type} (t : Tab α) (k : Nat) : Tab α := t.filter (fun e => e.1 != k)

/-- The entry of key `k` changed by `f`. -/
def tmod {α : Type} (d : α) (t : Tab α) (k : Nat) (f : α → α) : Tab α := tput t k (f (tget d t k))

/-- Entry `k` of a list with `v` in its place. -/
def lset {α : Type} (l : List α) (k : Nat) (v : α) : List α := l.set k v

/-- The numbers `lo`, `lo + 1`, … below `lo + n`. -/
def numbers (lo n : Nat) : List Nat := (List.range n).map (· + lo)

/-- The positions of the set bits of `m`, rising, among the low `w`. -/
def bitsOf (w m : Nat) : List Nat := (List.range w).filter (fun i => m.testBit i)

/-- The number whose set bits are the listed positions. -/
def maskOf (l : List Nat) : Nat := l.foldl (fun m i => m ||| 2 ^ i) 0

end Sys2Proof.Machine
end

