-- ==== Sys2Proof/Machine/Bytes.lean ====
section
/-! DEFINITION. Byte order and bit fields (R10: every multi-byte field is little-endian; R249: element packing). -/

namespace Sys2Proof.Machine

/-- The number that bytes spell, the first byte least significant (R10). -/
def leNat : List Byte → Nat
  | [] => 0
  | b :: r => b.toNat + 256 * leNat r

/-- `n` bytes of `v`, least significant first (R10). -/
def leBytes : Nat → Nat → List Byte
  | 0, _ => []
  | n + 1, v => BitVec.ofNat 8 v :: leBytes n (v / 256)

/-- Bits `hi` to `lo` of `v`. -/
def bits (v hi lo : Nat) : Nat := (v / 2 ^ lo) % 2 ^ (hi + 1 - lo)

/-- Bit `i` of `v`. -/
def bit (v i : Nat) : Bool := v.testBit i

/-- `w`-bit two's complement value of the low `w` bits of `v`. -/
def signed (w v : Nat) : Int :=
  let x := v % 2 ^ w
  if w = 0 then 0 else if x < 2 ^ (w - 1) then (x : Int) else (x : Int) - 2 ^ w

/-- The low `w` bits of an integer. -/
def low (w : Nat) (x : Int) : Nat := (x % (2 ^ w : Int)).toNat

/-- `n` bytes of a byte list from offset `o`; bytes past its end read as zero. -/
def slice (l : List Byte) (o n : Nat) : List Byte :=
  let p := (l.drop o).take n
  p ++ List.replicate (n - p.length) 0

/-- The unsigned field of `n` bytes at offset `o` (R10). -/
def fieldAt (l : List Byte) (o n : Nat) : Nat := leNat (slice l o n)

/-- Bytes `o` to `o + n - 1` are all zero. -/
def zeroAt (l : List Byte) (o n : Nat) : Bool := (slice l o n).all (· == 0)

/-- A bit list as a number, element 0 least significant. -/
def ofBits : List Bool → Nat
  | [] => 0
  | b :: r => b.toNat + 2 * ofBits r

/-- A natural number bounded above, as a saturating counter of `w` bits keeps it. -/
def satTo (w v : Nat) : Nat := if v < 2 ^ w then v else 2 ^ w - 1

/-- A byte list cut or padded with zeros to `n` bytes. -/
def padTo (n : Nat) (l : List Byte) : List Byte := l.take n ++ List.replicate (n - l.length) 0

/-- The bytes of a list cut into pieces of `n`, at most `k` of them. -/
def chunks (n : Nat) : Nat → List Byte → List (List Byte)
  | 0, _ => []
  | _ + 1, [] => []
  | k + 1, l => l.take n :: chunks n k (l.drop n)

/-- One byte from a number. -/
def byte (v : Nat) : Byte := BitVec.ofNat 8 v

end Sys2Proof.Machine
end

