-- ==== Sys2Proof/Machine/Flags.lean ====
section
/-! DEFINITION. The conditions that a flagged stream records (R259, R311) and the integer operations with the
conditions that they raise (R264 to R267).  Scalar slots use the same functions and drop the conditions (R226). -/

namespace Sys2Proof.Machine

/-- A set of conditions in the order of the flag word (R311): INV, DZ, OVF, SAT, UNF, INX. -/
abbrev Conds := BitVec 6

def cINV : Conds := 0b000001
def cDZ : Conds := 0b000010
def cOVF : Conds := 0b000100
def cSAT : Conds := 0b001000
def cUNF : Conds := 0b010000
def cINX : Conds := 0b100000

/-- The low `w` bits of `v` read as signed or unsigned (R228). -/
def operand (w : Nat) (sgn : Bool) (v : Nat) : Int :=
  if sgn then signed w v else ((v % 2 ^ w : Nat) : Int)

/-- The least and the greatest value of width `w` (R264). -/
def intMin (w : Nat) (sgn : Bool) : Int := if sgn then -(2 ^ (w - 1) : Int) else 0
def intMax (w : Nat) (sgn : Bool) : Int := if sgn then 2 ^ (w - 1) - 1 else 2 ^ w - 1

/-- An exact integer narrowed to `w` bits: wrapped with OVF, or saturated with SAT (R265, R266). -/
def narrow (w : Nat) (sgn sat : Bool) (x : Int) : Nat × Conds :=
  if intMin w sgn ≤ x ∧ x ≤ intMax w sgn then (low w x, 0)
  else if sat then (low w (if x > intMax w sgn then intMax w sgn else intMin w sgn), cSAT)
  else (low w x, cOVF)

def intAdd (w : Nat) (sgn sat : Bool) (a b : Nat) : Nat × Conds :=
  narrow w sgn sat (operand w sgn a + operand w sgn b)
def intSub (w : Nat) (sgn sat : Bool) (a b : Nat) : Nat × Conds :=
  narrow w sgn sat (operand w sgn a - operand w sgn b)
def intMul (w : Nat) (sgn sat : Bool) (a b : Nat) : Nat × Conds :=
  narrow w sgn sat (operand w sgn a * operand w sgn b)
def intNeg (w : Nat) (sgn sat : Bool) (a : Nat) : Nat × Conds :=
  narrow w sgn sat (-operand w sgn a)

/-- The high `w` bits of the `2w`-bit product (R229); it never overflows (R265). -/
def intMulh (w : Nat) (sgn : Bool) (a b : Nat) : Nat × Conds :=
  (low w ((operand w sgn a * operand w sgn b) / (2 ^ w : Int)), 0)

/-- Quotient rounded toward zero, with the results of a zero divisor (R265, R266). -/
def intDiv (w : Nat) (sgn sat : Bool) (a b : Nat) : Nat × Conds :=
  let x := operand w sgn a
  let y := operand w sgn b
  if y = 0 then
    (if sgn && sat then low w (if x < 0 then intMin w sgn else intMax w sgn) else 2 ^ w - 1, cDZ)
  else narrow w sgn sat (x.tdiv y)

/-- Remainder with the sign of the dividend (R265, R266). -/
def intRem (w : Nat) (sgn : Bool) (a b : Nat) : Nat × Conds :=
  let x := operand w sgn a
  let y := operand w sgn b
  if y = 0 then (low w x, cDZ) else (low w (x.tmod y), 0)

def intLesser (w : Nat) (sgn : Bool) (a b : Nat) : Nat × Conds :=
  (low w (min (operand w sgn a) (operand w sgn b)), 0)
def intGreater (w : Nat) (sgn : Bool) (a b : Nat) : Nat × Conds :=
  (low w (max (operand w sgn a) (operand w sgn b)), 0)
def intAnd (w : Nat) (a b : Nat) : Nat × Conds := ((a &&& b) % 2 ^ w, 0)
def intOr (w : Nat) (a b : Nat) : Nat × Conds := ((a ||| b) % 2 ^ w, 0)
def intXor (w : Nat) (a b : Nat) : Nat × Conds := ((a ^^^ b) % 2 ^ w, 0)

/-- Left shift by the low byte of `b`: the exact product by a power of two, narrowed (R267). -/
def intShl (w : Nat) (sgn sat : Bool) (a b : Nat) : Nat × Conds :=
  narrow w sgn sat (operand w sgn a * (2 ^ (b % 256) : Int))
/-- Logical right shift (R267). -/
def intShr (w : Nat) (a b : Nat) : Nat × Conds := ((a % 2 ^ w) / 2 ^ (b % 256), 0)
/-- Arithmetic right shift (R267). -/
def intSar (w : Nat) (a b : Nat) : Nat × Conds := (low w (signed w a / (2 ^ (b % 256) : Int)), 0)
/-- Rotation left by the amount modulo `w` (R267). -/
def intRol (w : Nat) (a b : Nat) : Nat × Conds :=
  let n := (b % 256) % w
  let x := a % 2 ^ w
  ((x * 2 ^ n + x / 2 ^ (w - n)) % 2 ^ w, 0)
/-- Rotation right by the amount modulo `w` (R267). -/
def intRor (w : Nat) (a b : Nat) : Nat × Conds :=
  let n := (b % 256) % w
  let x := a % 2 ^ w
  ((x / 2 ^ n + x * 2 ^ (w - n)) % 2 ^ w, 0)

/-- Count of set bits among the low `w` (R229). -/
def popCount (w v : Nat) : Nat := ((List.range w).filter (fun i => v.testBit i)).length
/-- Leading zeros within `w` bits; `w` for zero (R229). -/
def leadZeros (w v : Nat) : Nat :=
  let x := v % 2 ^ w
  if x = 0 then w else w - 1 - Nat.log2 x

/-- A field of `len` bits at `lsb` of a 64-bit value, ending at bit 63 at the latest (R229). -/
def fieldLen (lsb len : Nat) : Nat := min (if len = 0 then 64 else len) (64 - lsb)

/-- The condition codes on integers (R228). -/
def intCond (cond w a b : Nat) : Bool :=
  match cond with
  | 0 => a % 2 ^ w == b % 2 ^ w
  | 1 => a % 2 ^ w != b % 2 ^ w
  | 2 => signed w a < signed w b
  | 3 => signed w b ≤ signed w a
  | 4 => a % 2 ^ w < b % 2 ^ w
  | 5 => b % 2 ^ w ≤ a % 2 ^ w
  | 6 => signed w a ≤ signed w b
  | _ => signed w b < signed w a

/-- A `w`-bit result extended to `v` bits by SGN (R228, R308). -/
def extend (v w : Nat) (sgn : Bool) (x : Nat) : Nat :=
  if sgn then low v (signed w x) else x % 2 ^ w

/-- The operation that chk names meets a flag condition (R230). -/
def chkCond (op w : Nat) (sgn : Bool) (a b : Nat) : Bool :=
  (match op with
   | 0 => (intAdd w sgn false a b).2
   | 1 => (intSub w sgn false a b).2
   | 2 => (intMul w sgn false a b).2
   | 3 => (intDiv w sgn false a b).2
   | 4 => (intNeg w sgn false a).2
   | _ => (intShl w sgn false a b).2) != 0

end Sys2Proof.Machine
end

