-- ==== Sys2Proof/Machine/Float.lean ====
section
/-! DEFINITION. The floating-point formats (R250 to R253), rounding (R254, R255), finite mode (R256), NaN and the
invalid operations (R257, R258), conversions (R260 to R262) and compensated pairs (R268 to R270).  A pattern is a
natural number; an operation answers a pattern and the conditions of R259. -/

namespace Sys2Proof.Machine

/-- The floating-point formats of R250. -/
inductive FFmt where
  | fp32 | bf16 | fp16 | e5m2 | e4m3 | fp4
deriving DecidableEq, Repr

def FFmt.width : FFmt → Nat
  | .fp32 => 32 | .bf16 => 16 | .fp16 => 16 | .e5m2 => 8 | .e4m3 => 8 | .fp4 => 4
def FFmt.frac : FFmt → Nat
  | .fp32 => 23 | .bf16 => 7 | .fp16 => 10 | .e5m2 => 2 | .e4m3 => 3 | .fp4 => 1
def FFmt.bias : FFmt → Nat
  | .fp32 => 127 | .bf16 => 127 | .fp16 => 15 | .e5m2 => 15 | .e4m3 => 7 | .fp4 => 1
/-- The pattern of the largest finite value (R250). -/
def FFmt.maxPat : FFmt → Nat
  | .fp32 => 0x7F7FFFFF | .bf16 => 0x7F7F | .fp16 => 0x7BFF | .e5m2 => 0x7B | .e4m3 => 0x7E | .fp4 => 0x7
/-- The format has an infinity (R250). -/
def FFmt.hasInf : FFmt → Bool
  | .e4m3 | .fp4 => false
  | _ => true
/-- The canonical NaN (R257); FP4 has none, and a NaN becomes 0x0 there (R260). -/
def FFmt.nanPat : FFmt → Nat
  | .fp32 => 0x7FC00000 | .bf16 => 0x7FC0 | .fp16 => 0x7E00 | .e5m2 => 0x7E | .e4m3 => 0x7F | .fp4 => 0

/-- What a pattern stands for: a NaN (its sign, and whether it is quiet), an infinity, or the number
(-1)^neg × m × 2^e. -/
inductive FVal where
  | nan (neg quiet : Bool)
  | inf (neg : Bool)
  | fin (neg : Bool) (m : Nat) (e : Int)
deriving DecidableEq, Repr

/-- The magnitude m × 2^e of a pattern without its sign bit (R250). -/
def FFmt.mag (f : FFmt) (b : Nat) : Nat × Int :=
  let ef := b / 2 ^ f.frac
  let fr := b % 2 ^ f.frac
  if ef = 0 then (fr, 1 - (f.bias : Int) - f.frac)
  else (fr + 2 ^ f.frac, (ef : Int) - f.bias - f.frac)

/-- The value of a pattern (R250, R251). -/
def FFmt.decode (f : FFmt) (v : Nat) : FVal :=
  let neg := v.testBit (f.width - 1)
  let b := v % 2 ^ (f.width - 1)
  match f with
  | .fp4 => let m := f.mag b; .fin neg m.1 m.2
  | .e4m3 => if b = 0x7F then .nan neg true else let m := f.mag b; .fin neg m.1 m.2
  | _ =>
    let infPat := 2 ^ (f.width - 1) - 2 ^ f.frac
    if b = infPat then .inf neg
    else if infPat < b then .nan neg (b.testBit (f.frac - 1))
    else let m := f.mag b; .fin neg m.1 m.2

/-- A pattern with its sign. -/
def FFmt.withSign (f : FFmt) (neg : Bool) (b : Nat) : Nat := if neg then b + 2 ^ (f.width - 1) else b

/-- Infinity of a sign, or the largest finite value with SAT in a format that has none (R255, R256). -/
def FFmt.infinity (f : FFmt) (neg : Bool) : Nat × Conds :=
  if f.hasInf then (f.withSign neg (2 ^ (f.width - 1) - 2 ^ f.frac), 0)
  else (f.withSign neg f.maxPat, cSAT ||| cINX)

/-- m × 2^e rounded to a multiple of 2^q in one of the modes of R254; and whether it was inexact. -/
def roundAt (mode : Nat) (neg : Bool) (m : Nat) (e q : Int) : Nat × Bool :=
  if q ≤ e then (m * 2 ^ (e - q).toNat, false)
  else
    let d := 2 ^ (q - e).toNat
    let n := m / d
    let r := m % d
    let up := match mode with
      | 0 => d < 2 * r || (2 * r == d && n % 2 == 1)
      | 1 => false
      | 2 => neg && r != 0
      | _ => !neg && r != 0
    (if up then n + 1 else n, r != 0)

/-- m × 2^e > n × 2^q. -/
def dyadicGt (m : Nat) (e : Int) (n : Nat) (q : Int) : Bool :=
  n * 2 ^ (q - e).toNat < m * 2 ^ (e - q).toNat

/-- The exact value (-1)^neg × m × 2^e rounded once into a format (R253 to R255, R259). -/
def FFmt.round (f : FFmt) (mode : Nat) (finite neg : Bool) (m : Nat) (e : Int) : Nat × Conds :=
  if m = 0 then (f.withSign neg 0, 0)
  else
    let top : Int := e + Nat.log2 m
    let emin : Int := 1 - (f.bias : Int)
    let q0 := top - f.frac
    let n0 := roundAt mode neg m e q0
    let mx := f.mag f.maxPat
    if dyadicGt n0.1 q0 mx.1 mx.2 then
      if !f.hasInf || finite then (f.withSign neg f.maxPat, cSAT ||| cINX)
      else if mode = 1 || (mode = 2 && !neg) || (mode = 3 && neg) then (f.withSign neg f.maxPat, cOVF ||| cINX)
      else ((f.infinity neg).1, cOVF ||| cINX)
    else
      let q := max top emin - f.frac
      let n := roundAt mode neg m e q
      let tiny := dyadicGt 1 emin n0.1 q0
      let pat := (q - (emin - f.frac)).toNat * 2 ^ f.frac + n.1
      (f.withSign neg pat, if n.2 then (if tiny then cINX ||| cUNF else cINX) else 0)

/-- The result of an operation with a NaN operand: the canonical NaN, with INV for a signalling one (R257, R258). -/
def FFmt.nanOf (f : FFmt) (l : List FVal) : Option (Nat × Conds) :=
  if l.any (fun v => match v with | .nan _ _ => true | _ => false) then
    some (f.nanPat, if l.any (fun v => match v with | .nan _ false => true | _ => false) then cINV else 0)
  else none

def FVal.neg : FVal → FVal
  | .nan n q => .nan (!n) q
  | .inf n => .inf (!n)
  | .fin n m e => .fin (!n) m e

/-- The sum of two values that are not NaN, rounded once; an exact zero sum of opposite signs is +0, or -0 when
rounding down (R254). -/
def FFmt.sum (f : FFmt) (mode : Nat) (finite : Bool) (a b : FVal) : Nat × Conds :=
  match a, b with
  | .inf x, .inf y => if x = y then f.infinity x else (f.nanPat, cINV)
  | .inf x, _ => f.infinity x
  | _, .inf y => f.infinity y
  | .fin x m e, .fin y n g =>
    let q := min e g
    let v : Int := (if x then -1 else 1) * ((m * 2 ^ (e - q).toNat : Nat) : Int)
      + (if y then -1 else 1) * ((n * 2 ^ (g - q).toNat : Nat) : Int)
    if v = 0 then (f.withSign (if x = y then x else mode == 2) 0, 0)
    else f.round mode finite (v < 0) v.natAbs q
  | _, _ => (f.nanPat, 0)

def FFmt.addV (f : FFmt) (mode : Nat) (finite : Bool) (a b : FVal) : Nat × Conds :=
  match f.nanOf [a, b] with
  | some r => r
  | none => f.sum mode finite a b

/-- The exact product of two values that are not NaN; none for 0 × ∞ (R258). -/
def FVal.prod : FVal → FVal → Option FVal
  | .inf x, .inf y => some (.inf (x != y))
  | .inf x, .fin y m _ => if m = 0 then none else some (.inf (x != y))
  | .fin x m _, .inf y => if m = 0 then none else some (.inf (x != y))
  | .fin x m e, .fin y n g => some (.fin (x != y) (m * n) (e + g))
  | _, _ => none

/-- A value rounded into a format. -/
def FFmt.ofVal (f : FFmt) (mode : Nat) (finite : Bool) : FVal → Nat × Conds
  | .nan _ q => (f.nanPat, if q then 0 else cINV)
  | .inf n => f.infinity n
  | .fin n m e => f.round mode finite n m e

def FFmt.mulV (f : FFmt) (mode : Nat) (finite : Bool) (a b : FVal) : Nat × Conds :=
  match f.nanOf [a, b] with
  | some r => r
  | none =>
    match a.prod b with
    | none => (f.nanPat, cINV)
    | some p => f.ofVal mode finite p

/-- a × b + c with one rounding; 0 × ∞ is invalid whatever the addend (R258). -/
def FFmt.fmaV (f : FFmt) (mode : Nat) (finite : Bool) (a b c : FVal) : Nat × Conds :=
  match f.nanOf [a, b] with
  | some r =>
    (r.1, match c with | .nan _ false => cINV | _ => r.2)
  | none =>
    match a.prod b with
    | none => (f.nanPat, cINV)
    | some p => f.addV mode finite p c

/-- A number with one more bit that says whether anything was cut off. -/
def sticky (m : Nat) (e : Int) (cut : Bool) : Nat × Int := if cut then (2 * m + 1, e - 1) else (m, e)

/-- The infinity that a division or a reciprocal root of zero delivers, or its replacement (R256, R259). -/
def FFmt.zeroDivide (f : FFmt) (finite neg : Bool) : Nat × Conds :=
  if finite || !f.hasInf then (f.withSign neg f.maxPat, cDZ ||| cSAT ||| cINX) else ((f.infinity neg).1, cDZ)

def FFmt.divV (f : FFmt) (mode : Nat) (finite : Bool) (a b : FVal) : Nat × Conds :=
  match f.nanOf [a, b] with
  | some r => r
  | none =>
    match a, b with
    | .inf _, .inf _ => (f.nanPat, cINV)
    | .inf x, .fin y _ _ => f.infinity (x != y)
    | .fin x _ _, .inf y => (f.withSign (x != y) 0, 0)
    | .fin x m e, .fin y n g =>
      if n = 0 then (if m = 0 then (f.nanPat, cINV) else f.zeroDivide finite (x != y))
      else
        let k := f.frac + 5 + Nat.log2 n
        let p := sticky (m * 2 ^ k / n) (e - g - k) ((m * 2 ^ k) % n != 0)
        f.round mode finite (x != y) p.1 p.2
    | _, _ => (f.nanPat, 0)

/-- The greatest r below 2^k with r² ≤ n, bit by bit. -/
def rootBits : Nat → Nat → Nat → Nat
  | 0, _, r => r
  | k + 1, n, r => if (r + 2 ^ k) * (r + 2 ^ k) ≤ n then rootBits k n (r + 2 ^ k) else rootBits k n r

/-- The integer square root. -/
def isqrt (n : Nat) : Nat := rootBits (Nat.log2 n / 2 + 1) n 0

def FFmt.sqrtV (f : FFmt) (mode : Nat) (finite : Bool) (a : FVal) : Nat × Conds :=
  match f.nanOf [a] with
  | some r => r
  | none =>
    match a with
    | .inf n => if n then (f.nanPat, cINV) else f.infinity false
    | .fin n m e =>
      if m = 0 then (f.withSign n 0, 0)
      else if n then (f.nanPat, cINV)
      else
        let m' := if e % 2 = 0 then m else 2 * m
        let e' := if e % 2 = 0 then e else e - 1
        let k := f.frac + 5
        let b := m' * 2 ^ (2 * k)
        let r := isqrt b
        let p := sticky r (e' / 2 - k) (r * r != b)
        f.round mode finite false p.1 p.2
    | _ => (f.nanPat, 0)

/-- 1 / √a, rounded once from its exact value (R254), which also meets the bound of 1 ulp of R229 and R308 (DEDUCED, log 14). -/
def FFmt.rsqrtV (f : FFmt) (mode : Nat) (finite : Bool) (a : FVal) : Nat × Conds :=
  match f.nanOf [a] with
  | some r => r
  | none =>
    match a with
    | .inf n => if n then (f.nanPat, cINV) else (0, 0)
    | .fin n m e =>
      if m = 0 then f.zeroDivide finite n
      else if n then (f.nanPat, cINV)
      else
        let m' := if e % 2 = 0 then m else 2 * m
        let e' := if e % 2 = 0 then e else e - 1
        let k := f.frac + 6 + Nat.log2 m'
        let b := 2 ^ (2 * k)
        let r := isqrt (b / m')
        let exact := m' * (r * r) == b
        let p := sticky r (-(e' / 2) - k) (!exact)
        f.round mode finite false p.1 p.2
    | _ => (f.nanPat, 0)

/-- Order of two values that are not NaN: the exact difference's sign. -/
def FVal.lt : FVal → FVal → Bool
  | .inf x, .inf y => x && !y
  | .inf x, _ => x
  | _, .inf y => !y
  | .fin x m e, .fin y n g =>
    let q := min e g
    let a : Int := (if x then -1 else 1) * ((m * 2 ^ (e - q).toNat : Nat) : Int)
    let b : Int := (if y then -1 else 1) * ((n * 2 ^ (g - q).toNat : Nat) : Int)
    a < b
  | _, _ => false

def FVal.isNan : FVal → Bool
  | .nan _ _ => true
  | _ => false
def FVal.signalling : FVal → Bool
  | .nan _ false => true
  | _ => false
def FVal.negative : FVal → Bool
  | .nan n _ => n
  | .inf n => n
  | .fin n _ _ => n

/-- IEEE 754-2019 minimum and maximum: NaN whenever an operand is NaN, -0 below +0 (R258). -/
def FFmt.extremum (f : FFmt) (wantMax : Bool) (a b : Nat) : Nat × Conds :=
  let x := f.decode a
  let y := f.decode b
  match f.nanOf [x, y] with
  | some r => r
  | none =>
    let aLess := x.lt y || (!(y.lt x) && x.negative && !y.negative)
    (if aLess != wantMax then a % 2 ^ f.width else b % 2 ^ f.width, 0)

/-- A float compare: UNORD and ORD, and every ordered condition false when an operand is NaN (R228, R258). -/
def FFmt.cond (f : FFmt) (cond a b : Nat) : Bool × Conds :=
  let x := f.decode a
  let y := f.decode b
  let inv : Conds := if x.signalling || y.signalling then cINV else 0
  if x.isNan || y.isNan then (cond == 4, inv)
  else
    (match cond with
     | 0 => !(x.lt y) && !(y.lt x)
     | 1 => x.lt y || y.lt x
     | 2 => x.lt y
     | 3 => !(x.lt y)
     | 4 => false
     | 5 => true
     | 6 => !(y.lt x)
     | _ => y.lt x, inv)

/-- A conversion between floating-point formats (R256, R257, R260). -/
def fcvt (src dst : FFmt) (mode : Nat) (finite : Bool) (v : Nat) : Nat × Conds :=
  match src.decode v with
  | .nan n q =>
    if dst = .fp4 then (0, cINV) else (dst.withSign n dst.nanPat, if q then 0 else cINV)
  | .inf n => dst.infinity n
  | .fin n m e => dst.round mode finite n m e

/-- A floating-point value to a signed integer of `w` bits (R261). -/
def fToInt (src : FFmt) (w mode : Nat) (v : Nat) : Nat × Conds :=
  match src.decode v with
  | .nan _ _ => (0, cINV)
  | .inf n => (low w (if n then intMin w true else intMax w true), cINV)
  | .fin n m e =>
    let r := roundAt mode n m e 0
    let x : Int := if n then -(r.1 : Int) else r.1
    if x > intMax w true then (low w (intMax w true), cINV)
    else if x < intMin w true then (low w (intMin w true), cINV)
    else (low w x, if r.2 then cINX else 0)

/-- A signed integer of `w` bits to a floating-point format (R262). -/
def fOfInt (dst : FFmt) (w mode : Nat) (v : Nat) : Nat × Conds :=
  let x := signed w v
  dst.round mode false (x < 0) x.natAbs 0

def fAdd (f : FFmt) (mode : Nat) (finite : Bool) (a b : Nat) : Nat × Conds :=
  f.addV mode finite (f.decode a) (f.decode b)
def fSub (f : FFmt) (mode : Nat) (finite : Bool) (a b : Nat) : Nat × Conds :=
  f.addV mode finite (f.decode a) (f.decode b).neg
def fMul (f : FFmt) (mode : Nat) (finite : Bool) (a b : Nat) : Nat × Conds :=
  f.mulV mode finite (f.decode a) (f.decode b)
def fFma (f : FFmt) (mode : Nat) (finite : Bool) (a b c : Nat) : Nat × Conds :=
  f.fmaV mode finite (f.decode a) (f.decode b) (f.decode c)
def fDiv (f : FFmt) (mode : Nat) (finite : Bool) (a b : Nat) : Nat × Conds :=
  f.divV mode finite (f.decode a) (f.decode b)
def fSqrt (f : FFmt) (mode : Nat) (finite : Bool) (a : Nat) : Nat × Conds := f.sqrtV mode finite (f.decode a)
def fRsqrt (f : FFmt) (mode : Nat) (finite : Bool) (a : Nat) : Nat × Conds :=
  f.rsqrtV mode finite (f.decode a)

/-- The value is infinite or NaN. -/
def FVal.special : FVal → Bool
  | .fin _ _ _ => false
  | _ => true

/-- The binary32 sum of `a` and an exact value with its error term, as R270 and the pair-accumulate pseudocode form it:
the rounded sum `s`, saturated under FIN, and the error `e`, which is +0 where `s` overflows in finite mode or is not
finite. -/
def twoSum (finite : Bool) (a : Nat) (b : FVal) : Nat × Nat × Conds :=
  let f := FFmt.fp32
  let s := f.addV 0 finite (f.decode a) b
  if (f.decode s.1).special || s.2 &&& cSAT != 0 then (s.1, 0, s.2)
  else
    let v := fSub f 0 finite s.1 a
    let w := fSub f 0 finite s.1 v.1
    let x := fSub f 0 finite a w.1
    let y := f.addV 0 finite b (f.decode v.1).neg
    let e := fAdd f 0 finite x.1 y.1
    (s.1, e.1, s.2 ||| v.2 ||| w.2 ||| x.2 ||| y.2 ||| e.2)

/-- Compensated-pair addition, the one algorithm of R270. -/
def padd (finite : Bool) (p q : Nat × Nat) : (Nat × Nat) × Conds :=
  let f := FFmt.fp32
  let t := twoSum finite p.1 (f.decode q.1)
  if (f.decode t.1).special || t.2.2 &&& cSAT != 0 then ((t.1, 0), t.2.2)
  else
    let g := fAdd f 0 finite p.2 q.2
    let e := fAdd f 0 finite t.2.1 g.1
    ((t.1, e.1), t.2.2 ||| g.2 ||| e.2)

/-- A pair as one binary32 value, round(hi + lo) (R268). -/
def pairValue (p : Nat × Nat) : Nat × Conds := fAdd .fp32 0 false p.1 p.2

end Sys2Proof.Machine
end

