-- ==== Sys2Proof/Machine/BathMath.lean ====
section
/-! DEFINITION. Bath programs (R306 to R310), widening and narrowing of stream elements (R303), and the reductions of
vred (R313, R314), as functions of values alone. -/

namespace Sys2Proof.Machine

/-- The fields of a bath instruction (R307). -/
structure BathIns where
  op : Nat
  xd : Nat
  xa : Nat
  xb : Nat
  xc : Nat
  wf : Nat
  sgn : Bool
  sat : Bool
  rnd : Nat
  imm : Bool
  cond : Nat
  imm32 : Nat
deriving DecidableEq, Repr

/-- A bath instruction from its 64 bits (R307). -/
def BathIns.decode (w : Nat) : BathIns :=
  { op := bits w 63 58, xd := bits w 57 54, xa := bits w 53 50, xb := bits w 49 46, xc := bits w 45 42,
    wf := bits w 41 40, sgn := bit w 39, sat := bit w 38, rnd := bits w 37 36, imm := bit w 35,
    cond := bits w 34 32, imm32 := bits w 31 0 }

/-- Which fields an operation uses; a field that it does not use must be zero (R307). -/
structure BathUse where
  xa : Bool := false
  xb : Bool := false
  xc : Bool := false
  wf : Bool := false
  sgn : Bool := false
  sat : Bool := false
  rnd : Bool := false
  imm : Bool := false
  cond : Bool := false
  off : Bool := false

/-- The fields of an operation by its opcode; none for an unlisted one (R307, R308). -/
def bathUse : Nat → Option BathUse
  | 0x00 => some { xa := true, imm := true }
  | 0x01 | 0x02 | 0x03 | 0x0B | 0x10 =>
    some { xa := true, xb := true, wf := true, sgn := true, sat := true, imm := true }
  | 0x04 | 0x06 | 0x07 | 0x08 | 0x09 | 0x0A | 0x0C | 0x0D | 0x0E | 0x0F | 0x11 =>
    some { xa := true, xb := true, wf := true, sgn := true, imm := true }
  | 0x05 => some { xa := true, wf := true, sgn := true, sat := true }
  | 0x12 => some { xa := true, xb := true, wf := true, cond := true, imm := true }
  | 0x13 => some { xa := true, xb := true, xc := true, imm := true }
  | 0x14 => some {}
  | 0x15 => some { off := true }
  | 0x18 | 0x19 | 0x1A | 0x1E =>
    some { xa := true, xb := true, wf := true, sat := true, rnd := true, imm := true }
  | 0x1B => some { xa := true, xb := true, xc := true, wf := true, sat := true, rnd := true, imm := true }
  | 0x1C | 0x1D => some { xa := true, xb := true, wf := true, imm := true }
  | 0x1F | 0x20 => some { xa := true, wf := true, sat := true, rnd := true }
  | 0x21 => some { xa := true, xb := true, wf := true, cond := true, imm := true }
  | 0x22 => some { xa := true, xc := true, sat := true, rnd := true }
  | 0x23 => some { xa := true, xb := true, sat := true }
  | _ => none

/-- The instruction is listed and keeps the rules of its fields (R307 to R309). -/
def BathIns.valid (b : BathIns) : Bool :=
  match bathUse b.op with
  | none => false
  | some u =>
    let xaUsed := u.xa && !(b.op == 0 && b.imm)
    let xbUsed := u.xb && !b.imm
    (xaUsed || b.xa == 0) && (xbUsed || b.xb == 0) && (u.xc || b.xc == 0) && (u.wf || b.wf == 0)
    && (u.sgn || !b.sgn) && (u.sat || !b.sat) && (u.rnd || b.rnd == 0) && (u.imm || !b.imm)
    && (u.cond || b.cond == 0) && (b.imm || u.off || b.imm32 == 0)
    && !(u.wf && b.wf == 3)
    && (b.op != 0x22 || b.xc ≤ 11)
    && (b.op != 0x23 || (b.xd % 2 == 0 && b.xa % 2 == 0 && b.xb % 2 == 0))
    && (b.op != 0x15 || (b.imm32 % 4 == 0 && b.imm32 < 4096))

/-- The weight of an instruction; one that R310 rejects has weight 1 (R308, R310). -/
def BathIns.weight (b : BathIns) : Nat :=
  if !b.valid then 1
  else match b.op with
    | 0x10 | 0x11 => 16
    | 0x1E | 0x1F => 8
    | 0x20 => 4
    | 0x23 => 2
    | _ => 1

/-- The integer width that WF codes (R307). -/
def bathWidth : Nat → Nat
  | 0 => 8 | 1 => 16 | _ => 32
/-- The float format that WF codes (R307). -/
def bathFloat : Nat → FFmt
  | 0 => .fp32 | 1 => .bf16 | _ => .fp16

/-- The conversions of a bath's cvt (R309). -/
def bathCvt (kind rnd : Nat) (fin : Bool) (a : Nat) : Nat × Conds :=
  match kind with
  | 0 => fOfInt .fp32 32 rnd a
  | 1 => fToInt .fp32 32 rnd a
  | 2 => fcvt .fp32 .bf16 rnd fin a
  | 3 => fcvt .bf16 .fp32 rnd fin (a % 2 ^ 16)
  | 4 => fcvt .fp32 .fp16 rnd fin a
  | 5 => fcvt .fp16 .fp32 rnd fin (a % 2 ^ 16)
  | 6 => fcvt .fp32 .e4m3 rnd fin a
  | 7 => fcvt .fp32 .e5m2 rnd fin a
  | 8 => fcvt .fp32 .fp4 rnd fin a
  | 9 => fcvt .e4m3 .fp32 rnd fin (a % 2 ^ 8)
  | 10 => fcvt .e5m2 .fp32 rnd fin (a % 2 ^ 8)
  | _ => fcvt .fp4 .fp32 rnd fin (a % 2 ^ 4)

/-- A lane's registers x0 to x15. -/
abbrev Lane := List Nat

def Lane.get (r : Lane) (i : Nat) : Nat := r.getD i 0

/-- The integer operations of a bath at width WF (R308). -/
def bathInt (op w : Nat) (sgn sat : Bool) (a b : Nat) : Nat × Conds :=
  match op with
  | 0x01 => intAdd w sgn sat a b
  | 0x02 => intSub w sgn sat a b
  | 0x03 => intMul w sgn sat a b
  | 0x04 => intMulh w sgn a b
  | 0x05 => intNeg w sgn sat a
  | 0x06 => intLesser w sgn a b
  | 0x07 => intGreater w sgn a b
  | 0x08 => intAnd w a b
  | 0x09 => intOr w a b
  | 0x0A => intXor w a b
  | 0x0B => intShl w sgn sat a b
  | 0x0C => intShr w a b
  | 0x0D => intSar w a b
  | 0x0E => intRol w a b
  | 0x0F => intRor w a b
  | 0x10 => intDiv w sgn sat a b
  | _ => intRem w sgn a b

/-- The floating-point operations of a bath in format WF (R308). -/
def bathFlt (op : Nat) (f : FFmt) (rnd : Nat) (fin : Bool) (a b c : Nat) : Nat × Conds :=
  match op with
  | 0x18 => fAdd f rnd fin a b
  | 0x19 => fSub f rnd fin a b
  | 0x1A => fMul f rnd fin a b
  | 0x1B => fFma f rnd fin a b c
  | 0x1C => f.extremum false a b
  | 0x1D => f.extremum true a b
  | 0x1E => fDiv f rnd fin a b
  | 0x1F => fSqrt f rnd fin a
  | _ => fRsqrt f rnd fin a

/-- One bath instruction on one lane: element index `i`, constants read by `kld` (R306 to R310). -/
def bathIns (kld : Nat → Nat) (i : Nat) (r : Lane) (b : BathIns) : Lane × Conds :=
  let a := r.get b.xa
  let v := if b.imm then b.imm32 else r.get b.xb
  let c := r.get b.xc
  let w := bathWidth b.wf
  let f := bathFloat b.wf
  let m := 2 ^ f.width
  let ones := 2 ^ 32 - 1
  if !b.valid then (r.set b.xd 0, cINV)
  else if b.op = 0x00 then (r.set b.xd (if b.imm then b.imm32 else a), 0)
  else if b.op ≤ 0x11 then
    let x := bathInt b.op w b.sgn b.sat a v
    (r.set b.xd (extend 32 w b.sgn x.1), x.2)
  else if b.op = 0x12 then (r.set b.xd (if intCond b.cond w a v then ones else 0), 0)
  else if b.op = 0x13 then (r.set b.xd (if c ≠ 0 then a else v), 0)
  else if b.op = 0x14 then (r.set b.xd (i % 2 ^ 32), 0)
  else if b.op = 0x15 then (r.set b.xd (kld b.imm32), 0)
  else if b.op = 0x21 then
    let x := f.cond b.cond (a % m) (v % m)
    (r.set b.xd (if x.1 then ones else 0), x.2)
  else if b.op = 0x22 then
    let x := bathCvt b.xc b.rnd b.sat a
    (r.set b.xd x.1, x.2)
  else if b.op = 0x23 then
    let x := padd b.sat (a, r.get (b.xa + 1)) (r.get b.xb, r.get (b.xb + 1))
    ((r.set b.xd x.1.1).set (b.xd + 1) x.1.2, x.2)
  else
    let x := bathFlt b.op f b.rnd b.sat (a % m) (v % m) (c % m)
    (r.set b.xd x.1, x.2)

/-- A whole bath on one lane (R306). -/
def bathRun (kld : Nat → Nat) (i : Nat) : List BathIns → Lane → Lane × Conds
  | [], r => (r, 0)
  | b :: l, r =>
    let x := bathIns kld i r b
    let y := bathRun kld i l x.1
    (y.1, x.2 ||| y.2)

/-- Element types of a stream (R300). -/
inductive EType where
  | int8 | int16 | int32 | fp32 | bf16 | fp16 | e4m3 | e5m2 | int4 | fp4 | pair
deriving DecidableEq, Repr

def EType.ofCode : Nat → Option EType
  | 1 => some .int8 | 2 => some .int16 | 3 => some .int32 | 4 => some .fp32 | 5 => some .bf16 | 6 => some .fp16
  | 7 => some .e4m3 | 8 => some .e5m2 | 9 => some .int4 | 10 => some .fp4 | 11 => some .pair
  | _ => none

/-- Bits of one element in memory. -/
def EType.bits : EType → Nat
  | .int8 | .e4m3 | .e5m2 => 8
  | .int16 | .bf16 | .fp16 => 16
  | .int32 | .fp32 => 32
  | .int4 | .fp4 => 4
  | .pair => 64

/-- The alignment of BASE in bytes (R298). -/
def EType.align (t : EType) : Nat := if t.bits < 8 then 1 else t.bits / 8

/-- A memory element widened into the lane: the even register and, for a PAIR, the odd one (R303). -/
def EType.widen (t : EType) (v : Nat) : Nat × Nat :=
  match t with
  | .int4 | .int8 | .int16 => (low 32 (signed t.bits v), 0)
  | .int32 | .fp32 | .bf16 | .fp16 => (v, 0)
  | .e4m3 => ((fcvt .e4m3 .fp32 0 false v).1, 0)
  | .e5m2 => ((fcvt .e5m2 .fp32 0 false v).1, 0)
  | .fp4 => ((fcvt .fp4 .fp32 0 false v).1, 0)
  | .pair => (v % 2 ^ 32, v / 2 ^ 32)

/-- Lane values narrowed into a memory element, with the conditions of the store conversion (R303). -/
def EType.narrowTo (t : EType) (sat : Bool) (x14 x15 : Nat) : Nat × Conds :=
  match t with
  | .int4 | .int8 | .int16 => narrow t.bits true sat (signed 32 x14)
  | .int32 | .fp32 => (x14, 0)
  | .bf16 | .fp16 => (x14 % 2 ^ 16, 0)
  | .e4m3 => fcvt .fp32 .e4m3 0 sat x14
  | .e5m2 => fcvt .fp32 .e5m2 0 sat x14
  | .fp4 => fcvt .fp32 .fp4 0 sat x14
  | .pair => (x14 + 2 ^ 32 * x15, 0)

/-- Neighbours combined once: one level of the lane tree (R314). -/
def treeLevel {α : Type} (g : α → α → α) : List α → List α
  | a :: b :: r => g a b :: treeLevel g r
  | l => l

/-- Six levels of the lane tree (R314). -/
def laneTree {α : Type} (g : α → α → α) (d : α) (l : List α) : α :=
  ((List.range 6).foldl (fun l _ => treeLevel g l) l).headD d

/-- A sum over 64 lanes in the order of R314. -/
def laneSum {α : Type} (g : α → α → α) (z : α) (e : List α) : α :=
  laneTree g z ((List.range 64).map (fun l =>
    (List.range ((e.length + 63 - l) / 64)).foldl (fun s k => g s (e.getD (l + 64 * k) z)) z))

/-- The combination of two lanes of which one may hold no element (R314). -/
def laneOpt {α : Type} (g : α → α → α) : Option α → Option α → Option α
  | some a, some b => some (g a b)
  | some a, none => some a
  | none, b => b

/-- An extreme over 64 lanes, combining the lanes that hold an element in the tree of R314. -/
def laneExt {α : Type} (g : α → α → α) (e : List α) : Option α :=
  laneTree (laneOpt g) none ((List.range 64).map (fun l =>
    (List.range ((e.length + 63 - l) / 64)).foldl (fun s k => laneOpt g s (e[l + 64 * k]?)) none))

/-- An element of a TYPE 1 reduction: BF16 and FP16 converted exactly to binary32, a PAIR as its first value (R313). -/
def reduceFloat (t : EType) (v : Nat × Nat) : Nat × Conds :=
  match t with
  | .bf16 => fcvt .bf16 .fp32 0 false (v.1 % 2 ^ 16)
  | .fp16 => fcvt .fp16 .fp32 0 false (v.1 % 2 ^ 16)
  | _ => (v.1, 0)

/-- The value of a reduction and the conditions of its steps (R313, R314); kind 5 is not one of these. -/
def reduceValue (kind : Nat) (float : Bool) (t : EType) (e : List (Nat × Nat)) : W64 × Conds :=
  let f := FFmt.fp32
  if float then
    let es := e.map (reduceFloat t)
    match kind with
    | 2 =>
      if t = .pair then
        let r := laneSum (fun (a b : (Nat × Nat) × Conds) => let x := padd false a.1 b.1; (x.1, a.2 ||| b.2 ||| x.2))
          ((0, 0), 0) (e.map (fun p => (p, 0)))
        let v := pairValue r.1
        (BitVec.ofNat 64 v.1, r.2 ||| v.2)
      else
        let r := laneSum (fun (a b : Nat × Conds) => let x := fAdd f 0 false a.1 b.1; (x.1, a.2 ||| b.2 ||| x.2))
          (0, 0) es
        (BitVec.ofNat 64 r.1, r.2)
    | _ =>
      let r := laneExt (fun (a b : Nat × Conds) => let x := f.extremum (kind == 0) a.1 b.1; (x.1, a.2 ||| b.2 ||| x.2))
        (es.map (fun v => let x := f.extremum (kind == 0) v.1 v.1; (x.1, v.2 ||| x.2)))
      match r with
      | some v => (BitVec.ofNat 64 v.1, v.2)
      | none => (0, 0)
  else
    let es := e.map Prod.fst
    match kind with
    | 0 => (BitVec.ofInt 64 ((laneExt max (es.map (signed 32))).getD 0), 0)
    | 1 => (BitVec.ofInt 64 ((laneExt min (es.map (signed 32))).getD 0), 0)
    | 2 => (BitVec.ofInt 64 ((es.map (signed 32)).foldl (· + ·) 0), 0)
    | 3 => (BitVec.ofNat 64 (es.filter (· != 0)).length, 0)
    | _ => (if es.any (· != 0) then 1 else 0, 0)

end Sys2Proof.Machine
end

