-- ==== Sys2Proof/Machine/Crypto.lean ====
section
/-! DEFINITION. The checks and ciphers that firmware delivery uses: CRC-32C, SHA-384 (FIPS 180-4), AES-256 (FIPS 197)
with CTR mode and key unwrap (SP 800-38F), and ECDSA P-384 verification (FIPS 186) (R78, R173, R376, R542 to R544). -/

namespace Sys2Proof.Machine

/-! ### CRC-32C -/

/-- One bit of a reflected CRC. -/
def crcBit (poly : Nat) (c : Nat) : Nat := if c % 2 = 1 then (c / 2) ^^^ poly else c / 2

def crcSteps (poly : Nat) : Nat → Nat → Nat
  | 0, c => c
  | n + 1, c => crcSteps poly n (crcBit poly c)

/-- CRC-32C of a byte list: reflected 0x1EDC6F41, all ones in, all ones out. -/
def crc32c (l : List Byte) : Nat :=
  (l.foldl (fun c b => crcSteps 0x82F63B78 8 (c ^^^ b.toNat)) 0xFFFFFFFF) ^^^ 0xFFFFFFFF

/-! ### Big-endian numbers -/

/-- The number that bytes spell, the first byte most significant. -/
def beNat (l : List Byte) : Nat := leNat l.reverse
/-- `n` bytes of a number, most significant first. -/
def beBytes (n v : Nat) : List Byte := (leBytes n v).reverse

/-! ### SHA-384 -/

/-- The first primes. -/
def shaPrimes : List Nat := (List.range 410).filter (fun n => 1 < n && (List.range 21).all (fun d => d < 2 || n ≤ d || n % d != 0))

/-- The largest number whose `k`-th power is at most `v`, found from bit `i - 1` down. -/
def rootDigits (k v : Nat) : Nat → Nat → Nat
  | 0, r => r
  | i + 1, r => if (r + 2 ^ i) ^ k ≤ v then rootDigits k v i (r + 2 ^ i) else rootDigits k v i r

/-- The first 64 bits of the fractional part of a root of a prime. -/
def rootFraction (k p : Nat) : W64 := BitVec.ofNat 64 (rootDigits k (p * 2 ^ (64 * k)) 72 0)

def shaK : List W64 := shaPrimes.map (rootFraction 3)
def sha384Start : List W64 := ((shaPrimes.drop 8).take 8).map (rootFraction 2)

/-- A message with its padding (FIPS 180-4). -/
def shaPad (l : List Byte) : List Byte :=
  l ++ [0x80] ++ List.replicate ((239 - l.length % 128) % 128) 0 ++ beBytes 16 (8 * l.length)

def shaSmall (x : W64) (a b c : Nat) : W64 := x.rotateRight a ^^^ x.rotateRight b ^^^ (x >>> c)
def shaBig (x : W64) (a b c : Nat) : W64 := x.rotateRight a ^^^ x.rotateRight b ^^^ x.rotateRight c

/-- The message schedule, newest word first. -/
def shaSchedule : Nat → List W64 → List W64
  | 0, w => w
  | n + 1, w =>
    shaSchedule n ((shaSmall (w.getD 1 0) 19 61 6 + w.getD 6 0 + shaSmall (w.getD 14 0) 1 8 7 + w.getD 15 0) :: w)

def shaRound (h : List W64) (kw : W64 × W64) : List W64 :=
  let g := fun (i : Nat) => h.getD i 0
  let t1 := g 7 + shaBig (g 4) 14 18 41 + ((g 4 &&& g 5) ^^^ (~~~(g 4) &&& g 6)) + kw.1 + kw.2
  let t2 := shaBig (g 0) 28 34 39 + ((g 0 &&& g 1) ^^^ (g 0 &&& g 2) ^^^ (g 1 &&& g 2))
  [t1 + t2, g 0, g 1, g 2, g 3 + t1, g 4, g 5, g 6]

def shaBlock (h : List W64) (b : List Byte) : List W64 :=
  let m := (List.range 16).map (fun i => BitVec.ofNat 64 (beNat (slice b (8 * i) 8)))
  let w := (shaSchedule 64 m.reverse).reverse
  List.zipWith (· + ·) h ((shaK.zip w).foldl shaRound h)

/-- SHA-384 of a byte list: 48 bytes. -/
def sha384 (l : List Byte) : List Byte :=
  let p := shaPad l
  (((chunks 128 (p.length / 128) p).foldl shaBlock sha384Start).take 6).flatMap (fun w => beBytes 8 w.toNat)

/-! ### AES-256 -/

/-- Multiplication by x in GF(2⁸). -/
def xtime (a : Nat) : Nat := if a < 128 then 2 * a else (2 * a % 256) ^^^ 0x1B

def gfSteps : Nat → Nat → Nat → Nat → Nat
  | 0, _, _, r => r
  | n + 1, a, b, r => gfSteps n (xtime a) (b / 2) (if b % 2 = 1 then r ^^^ a else r)

/-- Multiplication in GF(2⁸). -/
def gfMul (a b : Nat) : Nat := gfSteps 8 a b 0

/-- The inverse in GF(2⁸), 0 of 0: the power 254. -/
def gfInv (a : Nat) : Nat :=
  let a2 := gfMul a a
  let a4 := gfMul a2 a2
  let a8 := gfMul a4 a4
  let a16 := gfMul a8 a8
  let a32 := gfMul a16 a16
  let a64 := gfMul a32 a32
  let a128 := gfMul a64 a64
  gfMul a2 (gfMul a4 (gfMul a8 (gfMul a16 (gfMul a32 (gfMul a64 a128)))))

def rot8 (a k : Nat) : Nat := (a * 2 ^ k + a / 2 ^ (8 - k)) % 256

def sboxOf (a : Nat) : Nat :=
  let b := gfInv a
  b ^^^ rot8 b 1 ^^^ rot8 b 2 ^^^ rot8 b 3 ^^^ rot8 b 4 ^^^ 0x63

def sbox : List Nat := (List.range 256).map sboxOf
def invSbox : List Nat := (List.range 256).map (fun v => sbox.findIdx (· == v))

def subByte (a : Nat) : Nat := sbox.getD a 0
def xorList (a b : List Nat) : List Nat := List.zipWith (· ^^^ ·) a b

/-- Words of the key schedule, newest first. -/
def keySteps : Nat → Nat → Nat → List (List Nat) → List (List Nat)
  | 0, _, _, w => w
  | n + 1, i, rc, w =>
    let t := w.getD 0 []
    let u :=
      if i % 8 = 0 then xorList (((t.drop 1) ++ t.take 1).map subByte) [rc, 0, 0, 0]
      else if i % 8 = 4 then t.map subByte
      else t
    keySteps n (i + 1) (if i % 8 = 0 then xtime rc else rc) (xorList (w.getD 7 []) u :: w)

/-- The fifteen round keys of 16 bytes. -/
def roundKeys (key : List Byte) : List (List Nat) :=
  let k := key.map (·.toNat)
  let w0 := (List.range 8).map (fun i => (k.drop (4 * i)).take 4)
  let w := (keySteps 52 8 1 w0.reverse).reverse
  (List.range 15).map (fun r => ((w.drop (4 * r)).take 4).flatten)

def at16 (s : List Nat) (i : Nat) : Nat := s.getD (i % 16) 0

def mixWith (m : List Nat) (s : List Nat) : List Nat :=
  (List.range 16).map (fun i =>
    let c := i / 4 * 4
    let r := i % 4
    gfMul (m.getD 0 0) (at16 s (c + r)) ^^^ gfMul (m.getD 1 0) (at16 s (c + (r + 1) % 4))
      ^^^ gfMul (m.getD 2 0) (at16 s (c + (r + 2) % 4)) ^^^ gfMul (m.getD 3 0) (at16 s (c + (r + 3) % 4)))

def shiftRows (s : List Nat) : List Nat := (List.range 16).map (fun i => at16 s (i + 4 * (i % 4)))
def invShiftRows (s : List Nat) : List Nat := (List.range 16).map (fun i => at16 s (i + 16 - 4 * (i % 4)))

/-- AES-256 encryption of a 16-byte block. -/
def aesEncrypt (ks : List (List Nat)) (b : List Byte) : List Byte :=
  let s0 := xorList (b.map (·.toNat)) (ks.getD 0 [])
  let s := (List.range 13).foldl (fun s r =>
    xorList (mixWith [2, 3, 1, 1] (shiftRows (s.map subByte))) (ks.getD (r + 1) [])) s0
  (xorList (shiftRows (s.map subByte)) (ks.getD 14 [])).map byte

/-- AES-256 decryption of a 16-byte block. -/
def aesDecrypt (ks : List (List Nat)) (b : List Byte) : List Byte :=
  let sub := fun (s : List Nat) => (invShiftRows s).map (fun a => invSbox.getD a 0)
  let s0 := xorList (b.map (·.toNat)) (ks.getD 14 [])
  let s := (List.range 13).foldl (fun s r =>
    mixWith [14, 11, 13, 9] (xorList (sub s) (ks.getD (13 - r) []))) s0
  (xorList (sub s) (ks.getD 0 [])).map byte

def xorBytes (a b : List Byte) : List Byte := List.zipWith (· ^^^ ·) a b

/-- CTR mode with the counter block of R543: the nonce, then the number of the 16-byte unit. -/
def aesCtr (key nonce : List Byte) (first : Nat) (data : List Byte) : List Byte :=
  let ks := roundKeys key
  (chunks 16 ((data.length + 15) / 16) data).zipIdx.flatMap (fun e =>
    xorBytes e.1 (aesEncrypt ks (nonce ++ beBytes 8 (first + e.2))))

/-- The steps of a key unwrap, from step `t` of `n` down. -/
def unwrapSteps (ks : List (List Nat)) (n : Nat) : Nat → List Byte → List (List Byte) → List Byte × List (List Byte)
  | 0, a, r => (a, r)
  | t + 1, a, r =>
    let i := t % n
    let b := aesDecrypt ks (xorBytes a (beBytes 8 (t + 1)) ++ r.getD i [])
    unwrapSteps ks n t (b.take 8) (r.set i (b.drop 8))

/-- AES key unwrap (KW): the plaintext, or none where the integrity check fails. -/
def aesUnwrap (kek wrapped : List Byte) : Option (List Byte) :=
  let n := wrapped.length / 8 - 1
  let r := chunks 8 n (wrapped.drop 8)
  let x := unwrapSteps (roundKeys kek) n (6 * n) (wrapped.take 8) r
  if x.1 = List.replicate 8 0xA6 then some x.2.flatten else none

/-! ### ECDSA P-384 -/

def p384 : Nat := 2 ^ 384 - 2 ^ 128 - 2 ^ 96 + 2 ^ 32 - 1
def n384 : Nat := 0xFFFFFFFFFFFFFFFFFFFFFFFFFFFFFFFFFFFFFFFFFFFFFFFFC7634D81F4372DDF581A0DB248B0A77AECEC196ACCC52973
def g384 : Nat × Nat :=
  (0xAA87CA22BE8B05378EB1C71EF320AD746E1D3B628BA79B9859F741E082542A385502F25DBF55296C3A545E3872760AB7,
   0x3617DE4A96262C6F5D9E98BF9292DC29F8F41DBD289A147CE9DA3113B5F0B8C00A60B1CE1D7E819D7A431D7C90EA0E5F)

/-- `b ^ e mod m`, over the low `k` bits of `e`. -/
def powMod (m : Nat) : Nat → Nat → Nat → Nat → Nat
  | 0, _, _, r => r
  | k + 1, b, e, r => powMod m k (b * b % m) (e / 2) (if e % 2 = 1 then r * b % m else r)

/-- The inverse modulo a prime. -/
def invMod (m a : Nat) : Nat := powMod m 384 (a % m) (m - 2) 1

/-- Addition of points of P-384; none is the point at infinity. -/
def ecAdd (a b : Option (Nat × Nat)) : Option (Nat × Nat) :=
  match a, b with
  | none, q => q
  | p, none => p
  | some (x1, y1), some (x2, y2) =>
    let p := p384
    if x1 = x2 ∧ (y1 + y2) % p = 0 then none
    else
      let l := if x1 = x2 then (3 * x1 * x1 + (p - 3)) * invMod p (2 * y1) % p
               else (y2 + p - y1) * invMod p (x2 + p - x1) % p
      let x3 := (l * l + 2 * p - x1 - x2) % p
      some (x3, (l * (x1 + p - x3) + p - y1) % p)

/-- Multiple of a point, over the low `n` bits of `k`. -/
def ecMul : Nat → Nat → Option (Nat × Nat) → Option (Nat × Nat) → Option (Nat × Nat)
  | 0, _, _, r => r
  | n + 1, k, q, r => ecMul n (k / 2) (ecAdd q q) (if k % 2 = 1 then ecAdd r q else r)

/-- An ECDSA P-384 signature, r then s, over a hash, under a public key (R542). -/
def ecdsaVerify (key : Nat × Nat) (hash signature : List Byte) : Bool :=
  let r := beNat (slice signature 0 48)
  let s := beNat (slice signature 48 48)
  if r = 0 ∨ s = 0 ∨ n384 ≤ r ∨ n384 ≤ s then false
  else
    let w := invMod n384 s
    let u1 := beNat hash * w % n384
    let u2 := r * w % n384
    match ecAdd (ecMul 384 u1 (some g384) none) (ecMul 384 u2 (some key) none) with
    | some q => q.1 % n384 == r
    | none => false

end Sys2Proof.Machine
end

