-- ==== Sys2Proof/Machine/TypesDie.lean ====
section
/-! DEFINITION. The pieces of state on the die: work cores, basins, segments, gates, windows and DMA channels, as
plain data. -/

namespace Sys2Proof.Machine

/-- A rectangle of nodes. -/
structure Rect where
  x0 : Nat := 0
  y0 : Nat := 0
  w : Nat := 0
  h : Nat := 0
deriving DecidableEq, Repr

/-- The condition of a core as PROG.STATE reports it (R175). -/
inductive CoreRun where
  | idle | running | stopped | halted | faulted
deriving DecidableEq, Repr

/-- One level of loop state (R193, R205). -/
structure LoopReg where
  count : W32 := 0
  start : BitVec 14 := 0
  stop : BitVec 14 := 0
deriving DecidableEq, Repr

/-- A token of the finished-tile queue (R286); `bound` says that a vtpop has bound it (R312). -/
structure Token where
  tile : BitVec 2
  isInt : Bool
  pair : Bool
  seq : Byte
  bound : Bool := false
deriving DecidableEq, Repr

/-- What still keeps a scoreboard entry in flight (R212). -/
inductive EntryUse where
  /-- nothing: its last byte has moved, and it retires at the next SCOREBOARD_RETIRE -/
  | done
  /-- a strip's read: its panels were staged, so it retires in the core cycle in which the strip issues (R278) -/
  | instant
  /-- a vector operation, by its number -/
  | vector (id : Nat)
  /-- an in-memory operation, by its number -/
  | memory (id : Nat)
  /-- a cluster DMA channel -/
  | dma (chan : Nat)
deriving DecidableEq, Repr

/-- One scoreboard entry: a range in whole granules, first byte and byte past the last (R210). -/
structure SbEntry where
  lo : Nat
  hi : Nat
  write : Bool
  use : EntryUse
deriving DecidableEq, Repr

/-- A vector operation as the engine holds it (R240, R241). -/
inductive VKind where
  | bath (f : FmtV)
  | pop (f : FmtV) (tile : BitVec 2) (pair : Bool) (seq : Byte)
  | red (qd : BitVec 2) (ds : BitVec 4) (kind : BitVec 3) (float : Bool)
  | clear (t : BitVec 2)
  | load (t : BitVec 2) (addr : W32)
  | fill (region : BitVec 4) (addr : W32)
deriving DecidableEq, Repr

/-- A held vector operation, its number, and the groups that an earlier stop completed (R319). -/
structure VOp where
  id : Nat
  kind : VKind
  group : Nat := 0
deriving DecidableEq, Repr

/-- A strip in execution: the tiles that it writes at its end (R237, R280). -/
structure StripRun where
  out : List (Nat × Tile)
  isInt : Bool
  pair : Bool
deriving DecidableEq, Repr

/-- A staging set: the strip that it serves and its panels once staging is complete (R276). -/
structure Staged where
  pc : BitVec 14
  slot : BitVec 48
  panels : Option (List (List Byte))
deriving DecidableEq, Repr

/-- A gate operation of a core whose result has not been written (R449), with the identity it was issued under (R455) and the
time of its issue (R454); `due` is the turn edge before which a gang barrier's result is not written (R463), `returned` that a
fabric fence took its packet back (R417). -/
structure GateOp where
  tag : W32
  sd : BitVec 5
  op : Byte
  gate : BitVec 7
  fa : W16
  remote : Bool
  sv : W64
  acquire : Bool
  core : Byte := 0
  life : W16 := 0
  tenant : W16 := 0
  result : Option W64 := none
  due : Option W64 := none
  since : Nat := 0
  poolFull : Bool := false
  returned : Bool := false
deriving DecidableEq, Repr

/-- Register values captured when a bundle first issues (R199); `pend` lists the s registers that then awaited a
result and are read when it has been written. -/
structure Snap where
  s : Tab W64 := []
  a : Tab W32 := []
  p : Byte := 1
  d : Tab (BitVec 128) := []
  pend : List Nat := []
deriving DecidableEq, Repr

/-- A bundle at the head of issue, split or waiting: which slots have issued and with what operands (R202). -/
structure HeldBundle where
  raw : BitVec 384
  issued : Byte := 0
  snap : Snap
  branch : Option (BitVec 14) := none
deriving DecidableEq, Repr

/-- The fault record of a core (R563). -/
structure FaultRec where
  cause : Byte
  slot : Byte
  flags : Byte
  pc : BitVec 14
  addr : W32
  turn : W32
deriving DecidableEq, Repr

/-- The forecast of the last hint, and its age in twentieths of a core cycle (R246, R247, R503). -/
structure Hint where
  level : BitVec 2
  lead : Byte
  dur : BitVec 12
  age : Nat := 0
deriving DecidableEq, Repr

/-- The six stall counters and the split counter of a core (R217). -/
structure Stalls where
  register : W32 := 0
  range : W32 := 0
  entries : W32 := 0
  fetch : W32 := 0
  gate : W32 := 0
  matrix : W32 := 0
  splits : W32 := 0
deriving DecidableEq, Repr

/-- One work core (R193), with what its engines hold. -/
structure Core where
  run : CoreRun := .idle
  s : Tab W64 := []
  a : Tab W32 := []
  p : Byte := 1
  d : Tab (BitVec 128) := []
  t : Tab Tile := []
  q : Tab W64 := []
  qPend : BitVec 4 := 0
  pc : BitVec 14 := 0
  lc0 : LoopReg := {}
  lc1 : LoopReg := {}
  tokens : List Token := []
  tileInt : BitVec 4 := 0
  tilePair : BitVec 4 := 0
  mfins : Byte := 0
  csrc : Tab W32 := []
  cache : Tab (List Byte) := []
  phase : BitVec 2 := 0
  sb : List SbEntry := []
  held : Option HeldBundle := none
  gops : List GateOp := []
  v : List VOp := []
  vNext : Nat := 0
  strip : Option StripRun := none
  lastFmt : Option Nat := none
  staged : List Staged := []
  ibuf : List Nat := []
  miss : Option Nat := none
  fetching : List Nat := []
  edge : Bool := false
  stalls : Stalls := {}
  fault : Option FaultRec := none
  hint : Option Hint := none
  refill : Bool := false
  stepping : Bool := false
deriving DecidableEq, Repr

/-- The condition of a node (R86, R133). -/
inductive NodeState where
  | good | fusedOff | failedTest | faulted
deriving DecidableEq, Repr

/-- A program image staged in cluster stores (R173, R207): clusters by mask, lines that fail parity by number. -/
structure Image where
  lattice : Bool
  bytes : List Byte
  entry : BitVec 14
  clusters : Byte
deriving DecidableEq, Repr

/-- Where a request came from, for its background entry and its late response (R108, R120). -/
structure Origin where
  ep : Byte
  urgent : Bool
  srcFa : W16
  tenant : W16
  seq : W16
  cmd : W16
deriving DecidableEq, Repr

/-- A PROG.LOAD in progress (R173). -/
structure LoadJob where
  src : Nat
  len : Nat
  entry : BitVec 14
  check : W32
  lattice : Bool
  clusters : Byte
  flags : Byte
  extra : Byte
  origin : Origin
deriving DecidableEq, Repr

inductive GateKind where
  | counter | lock | barrier | event
deriving DecidableEq, Repr

/-- A lock's holder (R447, R455); `session` is the partner session of a remote holder's chiplet. -/
structure Holder where
  fa : W16
  core : Byte
  life : W16
  session : W32
  epoch : W32
  since : W64
deriving DecidableEq, Repr

/-- The dead owner of an ORPHANED lock (R459). -/
structure DeadOwner where
  fa : W16
  core : Byte
  epoch : W32
deriving DecidableEq, Repr

/-- An operation that waits at a gate (R450, R451). -/
structure Waiter where
  fa : W16
  core : Byte
  life : W16
  session : W32
  tag : W32
  op : Byte
  sv : W64
  tenant : W16 := 0
deriving DecidableEq, Repr

/-- One gate (R446). -/
structure Gate where
  kind : GateKind := .counter
  value : W64 := 0
  basin : Option Nat := none
  lease : Option W32 := none
  reach : W32 := 30000
  epoch : W32 := 0
  holder : Option Holder := none
  dead : Option DeadOwner := none
  waiters : List Waiter := []
deriving DecidableEq, Repr

/-- A step of a basin (R340 to R342, R344). -/
structure Step where
  canRerun : Bool
  arg : W64
  gates : List (Nat × Gate)
  external : Bool := false
  rerun : Bool := false
  cores : List Nat
deriving DecidableEq, Repr

/-- One core of a seized basin (R456, R481): its position, its condition at the stop, and, from the commit on, what the
chiplet keeps of it beside the record: the operands that a split captured, its gate operations, and the like. -/
structure Saved where
  pos : Nat
  cond : CoreRun
  core : Core := {}
deriving DecidableEq, Repr

inductive BasinState where
  | free | active | seized
deriving DecidableEq, Repr

/-- One basin (R163, R168, R472). -/
structure Basin where
  state : BasinState := .free
  lattice : Bool := false
  master : Nat := 0
  tenant : W16 := 0
  rect : Rect := {}
  former : Rect := {}
  save : Option Nat := none
  powerWeight : Byte := 1
  linkWeights : List Byte := []
  image : Option Image := none
  load : Option LoadJob := none
  prefer : Tab Byte := []
  preferNow : Tab Byte := []
  step : Option Step := none
  arg : W64 := 0
  saved : List Saved := []
  savedVoid : Bool := false
  rerunMark : Bool := false
  revoked : List W16 := []
deriving DecidableEq, Repr

inductive SegPower where
  | on | off | waking
deriving DecidableEq, Repr

/-- One segment of the scratchpad (R334, R337, R348).  An owner of 32 or more stands for the basin with that number less 32 that
has been destroyed: its segments are being zeroed and stay owned until then (R166). -/
structure Segment where
  power : SegPower := .on
  filled : Bool := false
  retired : Bool := false
  busy : Bool := false
  owner : Option Nat := none
  hits : List (Nat × Nat) := []
deriving DecidableEq, Repr

/-- A range of bytes whose contents the spec leaves undefined; `gen` tells one occasion from another. -/
structure URange where
  lo : Nat
  hi : Nat
  gen : Nat
deriving DecidableEq, Repr

/-- The scratchpad: listed bytes, undefined ranges, and the two parity bits of its words (R322, R338).  The parity bits are held
as what they differ by from the parity of the word's contents: `flips` lists the words whose stored bits differ, with bit 0 for
the even and bit 1 for the odd bit positions. -/
structure Memory where
  cells : List (Nat × Byte) := []
  undef : List URange := []
  flips : Tab (BitVec 2) := []
deriving DecidableEq, Repr

/-- A read that detected a parity error, until the steward acts on it: the first failing word, the basin of the core whose
access it was, and the code of another reader (R339, R344). -/
structure Found where
  word : Nat
  basin : Option Nat
  code : Byte
deriving DecidableEq, Repr

/-- What a part in a slice's queue does (R332, R333): a dfill's or a dcopy's part, by the number of its operation, or the fill of
a whole segment for SEG.FILL, or with 0 for a zeroing. -/
inductive MemWork where
  | fill (op : Nat) (value : W64)
  | copy (op : Nat) (src : Nat)
  | seg (value : W64)
deriving DecidableEq, Repr

/-- A part of an in-memory operation in a slice's queue (R332): what it writes. -/
structure MemPart where
  dst : Nat
  len : Nat
  work : MemWork
deriving DecidableEq, Repr

/-- An in-memory operation of a core: its parts still to do (R212, R332). -/
structure MemOp where
  id : Nat
  node : Nat
  dst : Nat
  src : Nat
  len : Nat
  left : Nat
deriving DecidableEq, Repr

/-- Segments being woken for one SEG.POWER (R336). -/
structure WakeJob where
  waiting : List Nat
  waking : List Nat
  changed : Nat
deriving DecidableEq, Repr

/-- Segments being zeroed for a resize or a destruction (R165, R166). -/
structure ZeroJob where
  basin : Nat
  destroyed : Bool
  segs : List Nat
  detail : List Byte
  origin : Origin
deriving DecidableEq, Repr

/-- Segments being filled by SEG.FILL (R178). -/
structure FillJob where
  value : W64
  segs : List Nat
  detail : List Byte
  origin : Origin
deriving DecidableEq, Repr

inductive WinState where
  | closed | opened | revoked
deriving DecidableEq, Repr

/-- An entry of a window's source set (R179, R426). -/
structure WinSource where
  tenant : W16
  fa : W16
  mask : W16
deriving DecidableEq, Repr

/-- A channel that asks for a window's credits, the credits it holds, and how many of them belong to packets that have come and
are not complete (R432, R433). -/
structure Grant where
  fa : W16
  chan : Byte
  xfer : W16
  held : Nat
  wanted : Nat
  used : Nat := 0
deriving DecidableEq, Repr

/-- One window (R423). -/
structure Window where
  state : WinState := .closed
  basin : Nat := 0
  rights : Byte := 0
  size : Nat := 0
  base : Nat := 0
  credits : Nat := 0
  sources : List WinSource := []
  raw : List Byte := []
  queue : List Grant := []
  ended : List (W16 × Byte × Byte) := []
deriving DecidableEq, Repr

/-- A packet of a transfer: not yet sent, sent, its read data written, its PACKET_DONE in, or with its outcome (R431,
R435, R443). -/
inductive PktState where
  | todo | sent | dataIn | doneOk | ok | failed (cause : Byte)
deriving DecidableEq, Repr

/-- A transfer of a cluster DMA channel (R428 to R431); `first` are the packets that a release puts before the others (R443).
`buffer` keeps the data of the packets that have been read and have no outcome yet, and `held` are those of them that still take
one of the two places of the channel's buffer (R428, R443). -/
structure Transfer where
  node : Option Nat
  basin : Nat
  tenant : W16
  kind : Byte
  toRemote : Bool
  laddr : Nat
  ga : W64
  len : Nat
  gate : Option (W16 × BitVec 7)
  tag : W16
  rank : W32
  count : W32
  xfer : W16
  pkts : List PktState
  first : List Nat := []
  buffer : List (Nat × List Byte) := []
  held : List Nat := []
  credits : Nat := 0
  asked : Bool := false
  full : Bool := false
  suspended : Bool := false
  cause : Byte := 0
  origin : Option Origin := none
  detail : List Byte := []
deriving DecidableEq, Repr

/-- One cluster DMA channel: its transfer, its transfer number and DBG_DMAn_CAUSE (R428, R435). -/
structure Channel where
  xfer : Option Transfer := none
  number : W16 := 0
  cause : Byte := 0
  causeXfer : W16 := 0
deriving DecidableEq, Repr

/-- A contribution held by a reduction: the ranks from `lo` to below `hi`, and its elements (R360, R361). -/
structure Contribution where
  lo : Nat
  hi : Nat
  elems : List (Nat × Nat)
deriving DecidableEq, Repr

/-- One entry of a slice's reduction unit (R359, R362). -/
structure RedEntry where
  granule : Nat
  window : Nat
  tag : W16
  typ : Nat
  count : Nat
  parts : List Contribution
deriving DecidableEq, Repr

/-- An admitted add packet: the granules whose reductions have not ended, those of them whose add write an entry holds, and
whether a reduction was aborted (R363, R434). -/
structure AddPkt where
  hdr : XferHdr
  left : List Nat
  given : List Nat := []
  aborted : Bool := false
deriving DecidableEq, Repr

/-- An add write on its way to a reduction unit: a granule of an add packet (R359). -/
structure AddWrite where
  hdr : XferHdr
  granule : Nat
  data : List Byte
deriving DecidableEq, Repr

/-- A seizure in progress (R170, R480): how far it has come. -/
structure Seizure where
  basin : Nat
  recipient : Option Nat
  start : Bool
  urgent : Bool
  phase : Nat
  locks : Nat
  flags : Byte
  origin : Origin
deriving DecidableEq, Repr

end Sys2Proof.Machine
end

