-- ==== Sys2Proof/Machine/TypesChip.lean ====
section
/-! DEFINITION. The pieces of state around the die: the ledger, the mailbox, time, and what leaves the chiplet. -/

namespace Sys2Proof.Machine

/-- One ledger entry (R120). -/
structure LedgerEntry where
  turn : W64 := 0
  seq : W32 := 0
  srcFa : W16 := 0
  ep : Byte := 0
  flags : Byte := 0
  cmd : W16 := 0
  tenant : W16 := 0
  result : W16 := 0
  reqSeq : W16 := 0
  detail : List Byte := []
deriving DecidableEq, Repr

/-- The ledger and its registers (R120 to R124). -/
structure Ledger where
  entries : Tab LedgerEntry := []
  head : W32 := 0
  drained : W32 := 0xFFFFFFFF
  loss : Bool := false
  nearFull : Bool := false
  lost : W32 := 0
  winSel : BitVec 2 := 0
deriving DecidableEq, Repr

/-- One mailbox endpoint: its rings, urgent slots and registers (R97 to R99, R111). -/
structure Endpoint where
  req : Tab (List Byte) := []
  rsp : Tab (List Byte) := []
  src : Tab W16 := []
  prod : BitVec 6 := 0
  cons : BitVec 6 := 0
  comp : BitVec 6 := 0
  ack : BitVec 6 := 0
  urgReq : List Byte := []
  urgRsp : List Byte := []
  urgSrc : W16 := 0
  busy : Bool := false
  done : Bool := false
  overrun : Bool := false
  foreign : Bool := false
  ringFault : Bool := false
deriving DecidableEq, Repr

/-- A request in service; `waiting` says that its commit stands and only its response is to come. -/
structure InService where
  req : Request
  cmd : W16
  passed : Bool := false
  waiting : Bool := false
  result : List Byte := []
  ledger : Option W32 := none
deriving DecidableEq, Repr

/-- The steward's service: round robin, the commands in service, the urgent doorbells in order of arrival, whether the
resident loader serves alone, whether nobody serves, whether firmware does not come back (R107, R113 to R116, R570), and
the times of watchdog expiries and of the last restart of the watchdog (R60, R61, R597). -/
structure Service where
  last : Nat := 5
  normal : Option InService := none
  urgent : Option InService := none
  urgentQ : List Nat := []
  paused : Bool := false
  muted : Bool := false
  noReturn : Bool := false
  expiries : List Nat := []
  kick : Nat := 0
deriving DecidableEq, Repr

/-- Where a gang stands on this chiplet (R156 to R160). -/
inductive GangPhase where
  | forming | tentative | committed | active | leaving | halted
deriving DecidableEq, Repr

/-- A gang as this chiplet knows it (R156 to R160, R419 to R422): one record for each of its basins that is a member; only the
master's own names the members.  `beats` holds when the last beat of the master (0) or the last answer of a member came. -/
structure Gang where
  num : Byte
  master : W16
  kind : Byte
  tenant : W16
  basin : Nat
  members : List GangMember := []
  phase : GangPhase
  replied : List Nat := []
  acked : List Nat := []
  suspended : Bool := false
  beats : List (Nat × Nat) := []
  origin : Option Origin := none
deriving DecidableEq, Repr

/-- The messages of a gang between master and members (R156 to R160, R420 to R422). -/
inductive GangMsg where
  | join (kind : Byte) (tenant : W16) (basin : Byte) (width height mode : Byte)
  | reply (basin : Byte) (accept : Bool)
  | commit | abort
  | ack (basin : Byte)
  | leave
  | leaveAck (basin : Byte)
  | beat
  | beatAnswer (basin : Byte)
  | halt (lost : W16)
  | release (gate : Byte) (edge : W64)
deriving DecidableEq, Repr

/-- What leaves the chiplet. -/
inductive Sent where
  /-- a hub-sideband message: its code and bytes (R374) -/
  | sideband (code : Byte) (body : List Byte)
  /-- a packet that this chiplet originates: its header, content from byte 16, and data frames (R377) -/
  | packet (p : Packet)
  /-- a sequenced frame on a port: its 264 bytes (R376) -/
  | frame (port : Nat) (raw : List Byte)
  /-- a link control frame that acknowledges and returns credits, those of the six places of R379 and R411 (R381) -/
  | ack (port : Nat) (next : BitVec 10) (credits : List Nat)
  /-- a link control frame that names the SEQ to replay from (R382) -/
  | replay (port : Nat) (seq : BitVec 10)
  /-- a STOP frame with its cause (R394) -/
  | stop (port : Nat) (cause : Byte)
  /-- the identity frame of training (R386) -/
  | identity (port : Nat) (i : Identity)
  /-- a TIME_REQ or a TIME_RSP (R466) -/
  | time (port : Nat) (response : Bool) (m : TimeMsg)
  /-- a grandmaster nomination, flooded (R153) -/
  | nomination (n : Nomination)
  /-- a message between the chiplets of a gang -/
  | gang (dst : W16) (master : W16) (num : Byte) (m : GangMsg)
  /-- a leat frame on a pair of wires (R524) -/
  | leat (pair : LeatPair) (kind : Byte) (f : LeatFrame)
  /-- what TDO shifts out of the data register that a JTAG instruction selects: its length and the bits (R49) -/
  | tdo (len : Nat) (v : Nat)
  /-- what the boundary cells put on the sideband pins and the copper lanes under a boundary-scan instruction (R49, R52) -/
  | scan (code : Byte) (c : Cells)
  /-- the value that a config-space read returns to its transport (R582) -/
  | readData (via : Transport) (off : Nat) (v : W32)
deriving DecidableEq, Repr

end Sys2Proof.Machine
end

