-- ==== Sys2Proof/Machine/TypesSys.lean ====
section
/-! DEFINITION. The pieces of state of the always-on domain, the fuses, the stages, the settings store and the steward's
service. -/

namespace Sys2Proof.Machine

/-- What is fused at test (R130 to R132, R13, R514, R542). -/
structure Fuses where
  fusedOff : W64 := 0
  grade : Byte := 0x40
  estimSet : Byte := 1
  dieId : W64 := 1
  romVersion : W16 := 1
  points : List (Nat × Nat) :=
    [(600, 800), (617, 889), (633, 978), (650, 1067), (667, 1156), (683, 1244), (700, 1333), (717, 1422), (733, 1511),
     (750, 1600), (775, 1650), (800, 1700), (825, 1750), (850, 1800), (875, 1850), (900, 1900)]
  keyProgrammed : Bool := true
  uniqueKey : List Byte := List.replicate 32 0
  rootX : Nat := 0
  rootY : Nat := 0
deriving DecidableEq, Repr

/-- One flag for each stop that is latched (R587). -/
structure Stops where
  coolant : Bool := false
  rail : Bool := false
  refclk : Bool := false
  trip : Bool := false
deriving DecidableEq, Repr

/-- The always-on domain (R27, R35, R42 to R45, R62, R76, R587, R588): the stops in force, the latch records, what holds
THERM_ALERT_N, what the monitors see, and the counts that a warm reset keeps; `refclkSince` is when the reference came
back, `entry` the cause of a warm reset whose entry is still to be appended. -/
structure Aon where
  warm : Bool := false
  cause : Nat := 0
  warmCount : Nat := 0
  failed : Nat := 0
  stop : Stops := {}
  latch : Stops := {}
  alert : Stops := {}
  railNum : Nat := 0
  tripPoint : Byte := 0
  coolantLevel : Bool := false
  coolantGood : Bool := false
  rails : BitVec 6 := 0x10
  refclkOk : Bool := true
  refclkSince : Nat := 0
  entry : Option Byte := none
deriving DecidableEq, Repr

/-- The stages (R72 to R95). -/
structure Boot where
  stage : Byte := 0
  preparing : Bool := false
  rstLow : Bool := true
  dead : Bool := false
  pins : Straps := ⟨0, false, false, 0⟩
  passed : Bool := false
  hold : Bool := false
  floor : W16 := 0
  mapSet : Bool := false
  shortfall : Bool := false
  tested : Bool := false
  marked : Bool := false
  recovery : Nat := 0
  ended : Bool := false
deriving DecidableEq, Repr

/-- What an image's header says of it (R541). -/
structure ImageInfo where
  version : W16 := 0
  schema : W16 := 0
  size : Nat := 0
  iface : W16 := 0
deriving DecidableEq, Repr

/-- How far a delivery has come (R77, R187, R547). -/
inductive DeliveryPhase where
  | receiving | verifying | verified
deriving DecidableEq, Repr

/-- A delivery of an image: its endpoint, what FW.BEGIN said, the unwrapped key, the fragments of blocks not yet whole, the
check values that came by BLOCK_CHECK, and the blocks present (R77, R78, R539, R544, R545). -/
structure Delivery where
  ep : Nat
  size : Nat
  blocks : Nat
  version : W16
  key : List Byte
  frags : Tab (List Byte) := []
  checks : Tab W32 := []
  present : List Nat := []
  phase : DeliveryPhase := .receiving
  origin : Option Origin := none
deriving DecidableEq, Repr

/-- The phases of a handover (R549 to R556): accepted, exchanging, the new image runs, it awaits confirmation, and the
fall-back decided and exchanging. -/
inductive HandPhase where
  | accepted | exchanging | started | awaiting | falling | restoring
deriving DecidableEq, Repr

/-- A handover in progress (R548 to R557): `back` is the outcome and source of its fall-back, `passed`
says that the new image has passed its start checks, `start` is when it started. -/
structure Handover where
  phase : HandPhase := .accepted
  window : Nat
  old : ImageInfo
  new : ImageInfo
  back : Byte × Byte := (0, 0)
  passed : Bool := false
  start : Nat := 0
  origin : Origin
deriving DecidableEq, Repr

/-- Firmware: the running and the alternate region, block by block, the image that runs, whether it still has to confirm at
boot, the delivery and the handover, and the device events that wait for the end of a pause (R62, R78, R545, R551). -/
structure Firmware where
  running : Tab (List Byte) := []
  alternate : Tab (List Byte) := []
  image : Option ImageInfo := none
  booting : Bool := false
  delivery : Option Delivery := none
  hand : Option Handover := none
  waiting : List LedgerEntry := []
  reruns : List Nat := []
deriving DecidableEq, Repr

/-- One bank of the settings store (R134). -/
structure Bank where
  schema : W16
  commit : W32
  good : Bool
  crc : W32 := 0
  values : List (W16 × List Byte)
deriving DecidableEq, Repr

/-- The settings store and the pending set (R134 to R138). -/
structure Settings where
  banks : List Bank := []
  current : List (W16 × List Byte) := []
  pending : List (W16 × List Byte) := []
  defaulted : Bool := false
deriving DecidableEq, Repr

/-- A change of operating point in progress (R25, R56, R497): the point it goes to, and what has happened of it. -/
structure OpChange where
  target : Nat
  raise : Bool
  acked : Bool := false
  pllLocked : Bool := false
  requested : Bool := false
deriving DecidableEq, Repr

/-- A temperature point: its limits, its last reading, what tells a stuck point, and the conversions for which it has been at or
above its throttle limit (R505, R506, R508, R510). -/
structure TempPoint where
  alert : Int := 95
  throttle : Int := 105
  trip : Int := 112
  temp : Int := 0
  failed : Bool := false
  still : Nat := 0
  beside : List Int := []
  hot : Nat := 0
deriving DecidableEq, Repr

/-- A throttle reason: active or not, the µs of activity, and the count of its rises (R514). -/
structure Reason where
  active : Bool := false
  us : W32 := 0
  count : W32 := 0
deriving DecidableEq, Repr

/-- A running dither: its slot, its PRBS7 state, whether the slot is high, and its form (R493). -/
structure Dither where
  slot : Nat := 0
  prbs : BitVec 7
  high : Bool
  spill : Bool
deriving DecidableEq, Repr

/-- One report as the calibration keeps it: the mean dynamic part before its gain, the mean leakage, and the measured
power of each rail; the mean of the chiplet's estimate; and the age in µs (R489, R490). -/
structure Report where
  dyn : List Rat
  leak : List Rat
  measured : List Rat
  estimate : Rat
  age : Nat := 0
deriving DecidableEq, Repr

/-- One estimator period: dynamic part before the gain, leakage and estimate of each rail (R488). -/
structure Period where
  dyn : List Rat
  leak : List Rat
  est : List Rat
deriving DecidableEq, Repr

/-- The headgate (R486 to R520). -/
structure Head where
  op : Nat := 9
  ackMv : Nat := 750
  reqNum : Byte := 0
  change : Option OpChange := none
  holdoff : Nat := 0
  cap : Nat := 450
  order : Nat := 0
  ramp : Nat := 20
  pace : Option Nat := none
  ditherOn : Bool := true
  thermCeil : Nat := 15
  capCeil : Nat := 15
  capHist : List (Nat × Nat) := []
  gain : List Rat := [1, 1, 1, 1]
  offset : List Rat := [0, 0, 0, 0]
  periods : List Period := []
  budgets : List (Rat × Rat) := []
  reports : List Report := []
  fitAge : Nat := 0
  fitted : Bool := false
  reportAge : Nat := 0
  under : Bool := false
  stale : Bool := true
  lastRails : Rat := 0
  idle : Rat := 0
  matrixW : Rat := 0
  spillW : Rat := 0
  share : Rat := 1
  dither : Option Dither := none
  ditherAge : Nat := 30000
  points : Tab TempPoint := []
  thermal : Tab Nat := []
  hot : Nat := 0
  cool : Nat := 0
  alerting : Bool := false
  floor : Nat := 0
  rampHold : W64 := 0
  rampTurn : Nat := 0
  paceBudget : Tab Int := []
  below : BitVec 16 := 0
  droop : Bool := false
  sample : W16 := 0
  stalled : Bool := false
  stalls : List Nat := []
  reasons : Tab Reason := []
  energy : Tab Rat := []
deriving DecidableEq, Repr

/-! ### Link ports (R151, R376 to R395, R594) -/

/-- The fields of a link frame (R376). -/
structure Frame where
  seq : BitVec 10 := 0
  ack : BitVec 10 := 0
  vc : BitVec 2 := 0
  kind : BitVec 3 := 0
  cvc : BitVec 2 := 0
  ccnt : BitVec 5 := 0
  body : List Byte := []
deriving DecidableEq, Repr

/-- A packet on its way out, whole or as far as it has come: the virtual channel that it leaves on, the packet as it came with its
arrival port and the place that each of its frames takes in that port's receive buffer, the route flags that it leaves with, and
the frames that have left (R379, R409 to R415); `abort` says that an abort frame ends it (R376, R393, R417). -/
structure OutPacket where
  vc : Nat
  pkt : Packet
  arrival : Option Nat := none
  place : Option Nat := none
  flags : Byte := 0
  sent : Nat := 0
  whole : Bool := true
  abort : Bool := false
deriving DecidableEq, Repr

/-- Whose frame it is, if it is of a packet that a cluster DMA channel or a gate operation of this chiplet originated: the channel,
the transfer and the packet index, and whether the frame is the packet's last; or the operation's tag (R417, R428). -/
structure FrameOf where
  chan : Option Nat := none
  xfer : W16 := 0
  index : Nat := 0
  last : Bool := false
  tag : Option W32 := none
deriving DecidableEq, Repr

/-- A frame as the sender keeps it for replay, with the credits that it returned (R381, R382). -/
structure SentFrame where
  seq : BitVec 10
  vc : Nat
  pool : Nat
  kind : BitVec 3
  body : List Byte
  cvc : BitVec 2 := 0
  ccnt : BitVec 5 := 0
  by_ : FrameOf := {}
deriving DecidableEq, Repr

/-- What becomes of a packet that is coming in frame by frame: it is discarded, goes on, or is for this chiplet: a write from
address `at_` on with the granules written so far, which a revocation ends; an add packet; read data, as long as all have been
written (R377, R410, R425, R442, R444). -/
inductive RxState where
  | drop
  | forward
  | write (h : XferHdr) (at_ n : Nat) (live : Bool)
  | add (h : XferHdr)
  | data (h : XferHdr) (n : Nat) (all : Bool)
deriving DecidableEq, Repr

/-- A packet partly received on a virtual channel, and the place that its frames take (R377, R379). -/
structure Rx where
  place : Nat
  st : RxState
deriving DecidableEq, Repr

/-- A link port: what LINK.STATE reports, the link layer, training, and the lane test.  `reset` says that a link reset is in
progress, `removed` that the port lost its link and no routes have been installed since (R67, R413), `heard` counts the sequenced
frames since the last acknowledgement, and `spaced` the frames of other channels since the last control frame, up to 3 (R380,
R381).  Credits are kept per place: the four virtual channels, class 0 of control and escape among them, then class 1 of control
and of escape (R379, R411). -/
structure Port where
  state : Byte := 0
  since : Nat := 0
  resume : Bool := false
  reset : Bool := false
  sessionKept : Bool := false
  removed : Bool := false
  refusal : Nat := 0
  stopCause : Byte := 0
  partnerPort : Byte := 0xFF
  partnerFa : W16 := 0xFFFF
  session : Option W32 := none
  corr : W32 := 0
  uncorr : W32 := 0
  retry : W32 := 0
  retrains : W16 := 0
  lanes : W64 := 0
  step : Nat := 0
  txSeq : BitVec 10 := 0
  replay : List SentFrame := []
  rxExp : BitVec 10 := 0
  naks : Nat := 0
  nakTimes : List Nat := []
  ackDue : Bool := false
  heard : Nat := 0
  credits : List Nat := [0, 0, 0, 0, 0, 0]
  owed : List Nat := [0, 0, 0, 0, 0, 0]
  incoming : Tab Rx := []
  queue : List OutPacket := []
  spaced : Nat := 3
  deficit : Tab Nat := []
  retrain : List Origin := []
  testRun : Bool := false
  testRate : Bool := false
  testRefused : Bool := false
  testErr : Option Nat := none
deriving DecidableEq, Repr

/-! ### The fabric: discovery, combining, gangs (R144 to R148, R404 to R407, R416) -/

/-- The two route tables (R407). -/
structure Routes where
  dest : Tab W64 := []
  port : Tab W64 := []
deriving DecidableEq, Repr

/-- The shape, its layout and its twist mask (R142). -/
structure Shape where
  shape : Byte := 0
  layout : Byte := 0
  twist : W16 := 0
deriving DecidableEq, Repr

/-- The discovery that this chiplet serves: its parent port, the routes before it, the withdrawals seen, and the time until
which it is being applied (R148, R150, R404, R406). -/
structure CurrentDisc where
  d : Disc
  parent : Option Nat
  before : Routes
  seen : List W16 := []
  busyTo : Nat := 0
deriving DecidableEq, Repr

/-- The outcome of the last discovery that this chiplet originated (R144, R148). -/
structure DiscOutcome where
  num : W16 := 0
  status : W16 := 0
  replies : List (W16 × W64) := []
  reached : Nat := 0
  dups : Nat := 0
  refused : Nat := 0
  down : Nat := 0
  shape : Byte := 0
  layout : Byte := 0
  origin : Option Origin := none
deriving DecidableEq, Repr

/-- A record of two add packets that this chiplet replaced by one (R416): their sources, and the packet's name. -/
structure CombineRecord where
  num : Nat
  window : Nat
  fst : XferHdr
  snd : XferHdr
deriving DecidableEq, Repr

/-! ### Time (R153 to R155, R466 to R471) -/

/-- What a partner's frames said of its time (R466, R468). -/
structure PartnerTime where
  locked : Bool := false
  holdover : Bool := false
  gmFa : W16 := 0xFFFF
  hops : Byte := 0
deriving DecidableEq, Repr

/-! ### The leat chain (R521 to R538) -/

inductive LeatState where
  | search | forward | reverse
deriving DecidableEq, Repr

/-- A frame of a train: its kind and the frame. -/
structure TrainFrame where
  kind : Byte
  f : LeatFrame
deriving DecidableEq, Repr

/-- Where the master stands in its procedure (R537): a pass in a direction, or waiting for a returned train. -/
inductive SweepPhase where
  | idle | pass | turning | back
deriving DecidableEq, Repr

/-- The record of a slot as the master keeps it: sequence, reach, and the 64 bytes (R185, R537). -/
structure SlotRecord where
  seq : W32
  reach : Byte
  bytes : List Byte
deriving DecidableEq, Repr

/-- The leat chain on this chiplet: its state, the master's, its records and held records, and the half of a request that
has come (R521 to R540). -/
structure Leat where
  state : LeatState := .search
  half : Option (Bool × LeatFrame) := none
  discards : Nat := 0
  events : Nat := 0
  set : W32 := 0x1F
  period : Nat := 0
  own : Option TrainFrame := none
  held : List TrainFrame := []
  dropped : Bool := false
  lastSeq : W32 := 0
  heldPeriods : Nat := 0
  headPeriod : Nat := 0
  headSet : W32 := 0
  train : List TrainFrame := []
  inTrain : Bool := false
  turned : Bool := false
  master : Bool := false
  seq : W32 := 0
  phase : SweepPhase := .idle
  second : Bool := false
  headBack : Bool := false
  waitSweep : Bool := false
  got : List Nat := []
  table : Tab SlotRecord := []
  drive : Bool := false
deriving DecidableEq, Repr

/-! ### JTAG (R49 to R52, R599, R602) -/

/-- The test access port: its instruction, the CFG_ACCESS register as Capture-DR finds it, the one-bit bypass register, the
identity register, what the boundary cells drive and what they captured, and the refused instruction. -/
structure Tap where
  ir : Byte := 0x01
  dr : W64 := 0
  bypass : Bool := false
  id : W32 := 0
  drive : Cells := ⟨0, 0, 0⟩
  seen : Cells := ⟨0, 0, 0⟩
  refused : Bool := false
  last : Byte := 0
deriving DecidableEq, Repr

end Sys2Proof.Machine
end

