-- ==== Sys2Proof/Machine/State.lean ====
section
/-! DEFINITION. The state of the chiplet: everything that the spec gives it, as plain data, and the queue of commands
that wait. -/

namespace Sys2Proof.Machine

/-- Why a step stops (safe: the model makes no claim past it). -/
inductive Fault where
  /-- a low pulse of CHIP_RST_N of 200 ns to 1 µs: R36 says that its outcome is not defined.  Raised by
  CHIP_RST_N_ASSERT; safe. -/
  | undefinedResetPulse
deriving DecidableEq, Repr

/-- Why a command has no meaning here. -/
inductive Refusal where
  /-- an arm of the dispatch that has no meaning yet; safe -/
  | notModelled (mnemonic : String)
deriving DecidableEq, Repr

/-- The nodes, basins and cores. -/
structure Die where
  nodes : Tab NodeState := []
  logical : Tab Nat := []
  lives : Tab W16 := []
  basins : Tab Basin := []
  cores : Tab Core := []
  badLines : List (Nat × Nat × Nat) := []
  flumeFaults : List Nat := []
deriving DecidableEq, Repr

/-- The scratchpad, its segments and the work in its slices: the queues of four of the in-memory engines, the segments that wait
for a place in one, the operations of cores, and the detections on which the chiplet has still to act. -/
structure Store where
  mem : Memory := {}
  segs : Tab Segment := []
  wake : Option WakeJob := none
  zero : List ZeroJob := []
  fills : List FillJob := []
  queues : Tab (List MemPart) := []
  waiting : Tab (List MemPart) := []
  ops : List MemOp := []
  nextOp : Nat := 0
  gen : Nat := 0
  found : List Found := []
deriving DecidableEq, Repr

/-- A gate operation whose core was reset or withdrew it while the operation was under way (R454, R457). -/
structure LateOp where
  tag : W32
  op : Byte
  gate : BitVec 7
  fa : W16
  core : Byte
  life : W16
  tenant : W16
deriving DecidableEq, Repr

/-- The gate unit (R446 to R451). -/
structure GateUnit where
  gates : Tab Gate := []
  tag : W32 := 0
  late : List LateOp := []
deriving DecidableEq, Repr

/-- Windows, channels, reduction units and revocation numbers; `reads` are the read requests whose data have not fully left, with
the outcome that they will have (R434, R440). -/
structure Dma where
  windows : Tab Window := []
  chans : Tab Channel := []
  reds : List RedEntry := []
  adds : List AddPkt := []
  redWait : List AddWrite := []
  reads : List (XferHdr × Byte) := []
  revNo : W32 := 0
  lastRev : Tab W32 := []
deriving DecidableEq, Repr

/-- The turn counter and its discipline (R153 to R155, R465 to R471); `fellBack` says that the defined grandmaster has not
been reachable, `ticks` counts the turn ticks since the rising edge of CHIP_RST_N (R72, R120), `elapsed` is the time of the always-on domain in ns,
`latches` the high halves that the transports have latched (R584). -/
structure TimeState where
  count : W64 := 0
  ticks : W64 := 0
  locked : Bool := false
  holdover : Bool := false
  definition : Option Nomination := none
  gmFa : W16 := 0xFFFF
  hops : Byte := 0
  parent : Option Nat := none
  period : W32 := 1000000
  nextPeriod : Option W32 := none
  offset : Int := 0
  lastExchange : Nat := 0
  near : Nat := 0
  partners : Tab PartnerTime := []
  nominated : Option (Nomination × Origin) := none
  fellBack : Bool := false
  elapsed : Nat := 0
  latches : Tab W32 := []
deriving DecidableEq, Repr

/-- Addressing and routing (R141 to R150, R396 to R407): the FA, the proposed and the fixed shape, the active and the shadow
tables with their generation, the discoveries, combining records and gangs, the reduction and bulk packets that no port has taken
yet, in order of arrival (R410, R414), and the partner session. -/
structure Fabric where
  fa : W16 := 0xFFFF
  proposed : Option Shape := none
  shape : Shape := {}
  fixed : Bool := false
  active : Routes := {}
  shadow : Routes := {}
  generation : W16 := 0
  current : Option CurrentDisc := none
  last : DiscOutcome := {}
  duplicate : Bool := false
  records : List CombineRecord := []
  nextRecord : Nat := 0
  waiting : List OutPacket := []
  gangs : List Gang := []
  session : W32 := 0
deriving DecidableEq, Repr

/-- The whole chiplet. -/
structure State where
  fuses : Fuses := {}
  aon : Aon := {}
  boot : Boot := {}
  settings : Settings := {}
  eps : Tab Endpoint := []
  svc : Service := {}
  head : Head := {}
  links : Tab Port := []
  leat : Leat := {}
  tap : Tap := {}
  fw : Firmware := {}
  fabric : Fabric := {}
  time : TimeState := {}
  ledger : Ledger := {}
  die : Die := {}
  store : Store := {}
  gateUnit : GateUnit := {}
  dma : Dma := {}
  seize : Option Seizure := none
  sent : List Sent := []
  free : Nat := 0
  pending : List Instr := []
deriving DecidableEq, Repr

/-- The machine after a cold reset, with CHIP_RST_N still low: everything cleared, the scratchpad undefined, nothing commanded
yet (R28, R60, R62, R337).  What the spec gives no value for is in the log. -/
def State.reset : State := { store := { mem := { undef := [⟨0, 0x20000000, 0⟩] }, gen := 1 } }

/-- What a meaning answers. -/
abbrev Res := Host.Outcome State Fault Refusal

end Sys2Proof.Machine
end

