-- ==== Sys2Proof/Machine/Mem.lean ====
section
/-! DEFINITION. The scratchpad as bytes: reading, writing, and making a range undefined (R249, R322, R334, R337).  The
list of cells is kept in one canonical form: addresses strictly rising, and no entry equal to what an unlisted byte
reads as, which is zero. -/

namespace Sys2Proof.Machine

/-- What a byte that no cell lists reads as (DESIGN CHOICE, log 2). -/
def Memory.blank : Byte := 0

/-- The bytes of the scratchpad (R322). -/
def Memory.size : Nat := 0x20000000

/-- The cell list is in canonical form: addresses strictly rising, no entry blank. -/
def cellsWf : List (Nat × Byte) → Bool
  | [] => true
  | [c] => c.2 != Memory.blank
  | c :: d :: r => c.2 != Memory.blank && c.1 < d.1 && cellsWf (d :: r)

/-- The canonical form of a memory. -/
def Memory.wf (m : Memory) : Bool := cellsWf m.cells

/-- The byte that the cells give address `a`. -/
def cellAt : List (Nat × Byte) → Nat → Byte
  | [], _ => Memory.blank
  | c :: r, a => if c.1 = a then c.2 else cellAt r a

/-- The undefined range that holds `a`, if any. -/
def Memory.undefAt (m : Memory) (a : Nat) : Option URange := m.undef.find? (fun u => u.lo ≤ a && a < u.hi)

/-- One byte: a free value in an undefined range, else the cell's. -/
def Memory.byteAt (m : Memory) (a : Nat) : Byte :=
  match m.undefAt a with
  | some u => Config.freeByte u.gen a
  | none => cellAt m.cells a

/-- `n` bytes from `a` on. -/
def Memory.read (m : Memory) (a n : Nat) : List Byte := (numbers a n).map m.byteAt

/-- The cells of a run of bytes from `a` on, blanks left out. -/
def cellsOf : Nat → List Byte → List (Nat × Byte)
  | _, [] => []
  | a, b :: r => if b = Memory.blank then cellsOf (a + 1) r else (a, b) :: cellsOf (a + 1) r

/-- A range taken out of one undefined range. -/
def URange.minus (lo hi : Nat) (u : URange) : List URange :=
  if u.hi ≤ lo || hi ≤ u.lo then [u]
  else (if u.lo < lo then [{ u with hi := lo }] else []) ++ (if hi < u.hi then [{ u with lo := hi }] else [])

/-- Replace the bytes from `a` on by a run whose cells are given, of length `n`. -/
def Memory.replace (m : Memory) (a n : Nat) (new : List (Nat × Byte)) : Memory :=
  { cells := m.cells.filter (fun c => c.1 < a) ++ new ++ m.cells.filter (fun c => a + n ≤ c.1)
    undef := m.undef.flatMap (URange.minus a (a + n))
    flips := m.flips.filter (fun e => e.1 + 4 ≤ a || a + n ≤ e.1) }

/-- Write bytes from `a` on; a word that the write touches has good parity again (R329, R338). -/
def Memory.write (m : Memory) (a : Nat) (bs : List Byte) : Memory := m.replace a bs.length (cellsOf a bs)

/-- Write `n` zero bytes from `a` on. -/
def Memory.zero (m : Memory) (a n : Nat) : Memory := m.replace a n []

/-- Make the `n` bytes from `a` on undefined, as occasion `gen`. -/
def Memory.forget (m : Memory) (a n gen : Nat) : Memory :=
  let m' := m.replace a n []
  { m' with undef := ⟨a, a + n, gen⟩ :: m'.undef }

/-- A 64-bit pattern repeated over `n` bytes (R333). -/
def patternBytes (v : W64) (n : Nat) : List Byte :=
  (List.range n).map (fun i => BitVec.ofNat 8 (v.toNat / 2 ^ (8 * (i % 8))))

/-- The bytes from `a` on filled with a 64-bit pattern. -/
def Memory.fill (m : Memory) (a n : Nat) (v : W64) : Memory := if v = 0 then m.zero a n else m.write a (patternBytes v n)

/-! ### Banks (R325) -/

/-- The bank of its slice in which the granule at address `a` lies. -/
def bankOf (a : Nat) : Nat := (a / 0x100 % 32) ^^^ (a / 0x2000 % 32)

/-- Its row in that bank. -/
def rowOf (a : Nat) : Nat := a / 0x2000 % 1024

/-- The number of a word in its granule. -/
def wordOf (a : Nat) : Nat := a / 4 % 64

/-! ### Parity (R338, R339) -/

/-- The parity of a word's even bit positions (bit 0) and of its odd ones (bit 1). -/
def wordParity (v : Nat) : BitVec 2 :=
  let odd := fun (o : Nat) => ((List.range 16).filter (fun i => v.testBit (2 * i + o))).length % 2
  BitVec.ofNat 2 (odd 0 + 2 * odd 1)

/-- The 32-bit word at `w`. -/
def Memory.word (m : Memory) (w : Nat) : Nat := leNat (m.read w 4)

/-- The two parity bits that the word at `w` carries. -/
def Memory.parityBits (m : Memory) (w : Nat) : BitVec 2 := wordParity (m.word w) ^^^ tget 0 m.flips w

/-- A read of the word at `w` detects an error: its parity bits are not those of its contents. -/
def Memory.fails (m : Memory) (w : Nat) : Bool := m.parityBits w != wordParity (m.word w)

/-- The first word that fails its parity among those that satisfy `p`. -/
def Memory.firstFailing (m : Memory) (p : Nat → Bool) : Option Nat :=
  ((m.flips.map (fun e => e.1)).filter (fun w => p w && m.fails w)).foldl (fun r w => some (min w (r.getD w))) none

/-- The first word of a range that fails its parity. -/
def firstBad (m : Memory) (a n : Nat) : Option Nat := m.firstFailing (fun w => a < w + 4 && w < a + n)

end Sys2Proof.Machine
end

