-- ==== Sys2Proof/Machine/Ops.lean ====
section
/-! DEFINITION. Named operations over the state: cores, basins, segments, gates, and the ledger. -/

namespace Sys2Proof.Machine

/-! ### Nodes, clusters, rectangles (R14, R163, R218) -/

def nodeX (n : Nat) : Nat := n % 8
def nodeY (n : Nat) : Nat := n / 8
/-- The cluster of a node: eight clusters of 2 × 4 nodes (R485's example, R14). -/
def clusterOf (n : Nat) : Nat := nodeX n / 2 + 4 * (nodeY n / 4)

def Rect.has (r : Rect) (n : Nat) : Bool :=
  r.x0 ≤ nodeX n && nodeX n < r.x0 + r.w && r.y0 ≤ nodeY n && nodeY n < r.y0 + r.h
/-- The nodes of a rectangle, in the order of their position index (R218). -/
def Rect.nodes (r : Rect) : List Nat :=
  (List.range r.h).flatMap (fun j => (List.range r.w).map (fun i => 8 * (r.y0 + j) + (r.x0 + i)))
def Rect.position (r : Rect) (n : Nat) : Nat := (nodeY n - r.y0) * r.w + (nodeX n - r.x0)
def Rect.bytes (r : Rect) : List Byte := [byte r.x0, byte r.y0, byte r.w, byte r.h]
def Rect.overlaps (a b : Rect) : Bool := a.nodes.any b.has
/-- The clusters that a rectangle touches. -/
def Rect.clusters (r : Rect) : List Nat := (List.range 8).filter (fun c => r.nodes.any (fun n => clusterOf n == c))
/-- The smallest rectangle that holds both. -/
def Rect.union (a b : Rect) : Rect :=
  let x0 := min a.x0 b.x0
  let y0 := min a.y0 b.y0
  ⟨x0, y0, max (a.x0 + a.w) (b.x0 + b.w) - x0, max (a.y0 + a.h) (b.y0 + b.h) - y0⟩

/-! ### Access to the parts of the state -/

namespace State

def fa (s : State) : W16 := s.fabric.fa
def core (s : State) (n : Nat) : Core := tget {} s.die.cores n
def setCore (s : State) (n : Nat) (c : Core) : State := { s with die := { s.die with cores := tput s.die.cores n c } }
def modCore (s : State) (n : Nat) (f : Core → Core) : State := s.setCore n (f (s.core n))
def node (s : State) (n : Nat) : NodeState := tget .good s.die.nodes n
def setNode (s : State) (n : Nat) (v : NodeState) : State :=
  { s with die := { s.die with nodes := tput s.die.nodes n v } }
/-- The logical core number of a node (R85). -/
def logical (s : State) (n : Nat) : Nat := tget 0xFF s.die.logical n
def life (s : State) (l : Nat) : W16 := tget 0 s.die.lives l
def basin (s : State) (b : Nat) : Basin := tget {} s.die.basins b
def setBasin (s : State) (b : Nat) (v : Basin) : State :=
  { s with die := { s.die with basins := tput s.die.basins b v } }
def modBasin (s : State) (b : Nat) (f : Basin → Basin) : State := s.setBasin b (f (s.basin b))
def seg (s : State) (k : Nat) : Segment := tget {} s.store.segs k
def setSeg (s : State) (k : Nat) (v : Segment) : State :=
  { s with store := { s.store with segs := tput s.store.segs k v } }
def modSeg (s : State) (k : Nat) (f : Segment → Segment) : State := s.setSeg k (f (s.seg k))
def gate (s : State) (g : Nat) : Gate := tget {} s.gateUnit.gates g
def setGate (s : State) (g : Nat) (v : Gate) : State :=
  { s with gateUnit := { s.gateUnit with gates := tput s.gateUnit.gates g v } }
def window (s : State) (w : Nat) : Window := tget {} s.dma.windows w
def setWindow (s : State) (w : Nat) (v : Window) : State :=
  { s with dma := { s.dma with windows := tput s.dma.windows w v } }
def chan (s : State) (c : Nat) : Channel := tget {} s.dma.chans c
def setChan (s : State) (c : Nat) (v : Channel) : State :=
  { s with dma := { s.dma with chans := tput s.dma.chans c v } }
def mem (s : State) : Memory := s.store.mem
def setMem (s : State) (m : Memory) : State := { s with store := { s.store with mem := m } }
def setLedger (s : State) (l : Ledger) : State := { s with ledger := l }
def ep (s : State) (e : Nat) : Endpoint := tget {} s.eps e
def setEp (s : State) (e : Nat) (v : Endpoint) : State := { s with eps := tput s.eps e v }
def modEp (s : State) (e : Nat) (f : Endpoint → Endpoint) : State := s.setEp e (f (s.ep e))
def setFabric (s : State) (f : Fabric) : State := { s with fabric := f }

/-- Something leaves the chiplet. -/
def emit (s : State) (m : Sent) : State := { s with sent := s.sent ++ [m] }

/-- A value that the spec leaves open: the next free number, and the state with the counter advanced. -/
def fresh (s : State) : Nat × State := (Config.freeNat s.free, { s with free := s.free + 1 })

/-- Write bytes to the scratchpad. -/
def write (s : State) (a : Nat) (bs : List Byte) : State := s.setMem (s.mem.write a bs)

/-- Make `n` bytes from `a` on undefined. -/
def forget (s : State) (a n : Nat) : State :=
  { s with store := { s.store with mem := s.store.mem.forget a n s.store.gen, gen := s.store.gen + 1 } }

/-- A read of the words that satisfy `p`: one that fails its parity is a detection, one per access (R339). -/
def note (s : State) (basin : Option Nat) (code : Byte) (p : Nat → Bool) : State :=
  match s.mem.firstFailing p with
  | some w => { s with store := { s.store with found := s.store.found ++ [⟨w, basin, code⟩] } }
  | none => s

/-- A read of `n` bytes from `a` on. -/
def noteRead (s : State) (basin : Option Nat) (code : Byte) (a n : Nat) : State := s.note basin code (fun w => a < w + 4 && w < a + n)

/-- A write of bytes from `a` on whose first and last word may be covered in part: the read of the merge is checked (R329). -/
def noteMerge (s : State) (basin : Option Nat) (code : Byte) (a n : Nat) : State :=
  s.note basin code (fun w => a < w + 4 && w < a + n && !(a ≤ w && w + 4 ≤ a + n))

end State

/-- The basin whose cores hold node `n` (R472); a seized basin holds none. -/
def basinOf (s : State) (n : Nat) : Option Nat :=
  (List.range 32).find? (fun b => (s.basin b).state == .active && (s.basin b).rect.has n)

/-- The basin whose core an access of node `n` is: the one that holds it, or the seized one that held it (R347, R472). -/
def homeOf (s : State) (n : Nat) : Option Nat :=
  match basinOf s n with
  | some b => some b
  | none => (List.range 32).find? (fun b => (s.basin b).state == .seized && (s.basin b).former.has n)

/-- A read by an operation of the core on node `n` (R339). -/
def State.noteCore (s : State) (n a len : Nat) : State := s.noteRead (homeOf s n) 0 a len

/-- A node whose core serves: good, and no fault in service (R86). -/
def goodNode (s : State) (n : Nat) : Bool := s.node n == .good

/-- The cores of a basin that its rectangle holds, leaving out the nodes that are not good (R566). -/
def basinCores (s : State) (b : Nat) : List Nat := (s.basin b).rect.nodes.filter (goodNode s)

/-- The nodes of the lattice that node `n` belongs to: its basin's cores in lattice mode, else `n` alone (R288). -/
def issueGroup (s : State) (n : Nat) : List Nat :=
  match basinOf s n with
  | some b => if (s.basin b).lattice then basinCores s b else [n]
  | none => [n]

/-- Identity word in the layout of s2 (R218). -/
def identity (s : State) (n : Nat) : W64 :=
  let b := (basinOf s n).getD 0xFF
  let r := (s.basin b).rect
  BitVec.ofNat 64 (n + 2 ^ 8 * (s.logical n % 256) + 2 ^ 16 * r.position n + 2 ^ 24 * b + 2 ^ 32 * r.w + 2 ^ 40 * r.h
    + 2 ^ 48 * s.fa.toNat)

/-- An operating point: VDD_CORE in mV and the core clock in MHz; three are the same on every die, the rest are fused (R131). -/
def opPoint (s : State) (op : Nat) : Nat × Nat :=
  match op with
  | 0 => (600, 800) | 9 => (750, 1600) | 15 => (900, 1900)
  | _ => s.fuses.points.getD op (0, 0)

/-- A stop other than CHIP_RST_N is latched (R511, R513). -/
def stopped (s : State) : Bool := s.aon.stop.coolant || s.aon.stop.rail || s.aon.stop.refclk || s.aon.stop.trip

/-- The headgate withholds matrix issue on this core (R216, R486): by a droop, a stall of the headgate, the ramp, the
thermal or the cap limiter with no allowance left, pace mode, or a dither that withholds (R493, R498, R501, R504, R508,
R519, R571). -/
def withheld (s : State) (n : Nat) : Bool :=
  let h := s.head
  h.droop || h.stalled || bit h.rampHold.toNat n
  || (n :: numbers 64 8).any (fun k => tget 16 h.thermal k == 0)
  || (h.pace.isSome && tget 1 h.paceBudget n ≤ 0) || h.share ≤ 0
  || h.dither.any (fun d => !d.spill && !d.high)

/-! ### THERM_ALERT_N (R45, R52) -/

/-- A cause of R45 holds THERM_ALERT_N. -/
def alertCause (s : State) : Bool :=
  s.aon.alert.coolant || s.aon.alert.rail || s.aon.alert.refclk || s.aon.alert.trip || s.head.alerting

/-- The codes of EXTEST, EXTEST_PULSE and EXTEST_TRAIN (R49). -/
def boundaryCodes : List Byte := [0x03, 0x09, 0x0A]

/-- The chiplet asserts THERM_ALERT_N: a cause of R45 is present, or else a boundary-scan instruction is in force and the pin's
cell drives it low (R52). -/
def thermAlert (s : State) : Bool := alertCause s || (boundaryCodes.contains s.tap.ir && !s.tap.drive.pins.getLsbD 2)

/-! ### The ledger (R120 to R124) -/

/-- The undrained entries: those after LEDGER_DRAINED and before LEDGER_HEAD (R124). -/
def Ledger.undrained (l : Ledger) : Nat := (l.head - 1 - l.drained).toNat

/-- Number of undrained entries that sets NEAR_FULL (R124). -/
def nearFullAt : Nat := 3584

/-- Append an entry: it takes the next sequence number, and what the ring loses is counted (R122, R124, R591). -/
def Ledger.append (l : Ledger) (e : LedgerEntry) : Ledger × Bool :=
  let losing := 4096 ≤ l.undrained
  let e' := { e with seq := l.head, flags := if losing then e.flags ||| 0x20 else e.flags }
  let n := l.undrained + 1
  let near := nearFullAt ≤ n
  ({ l with entries := tput l.entries (l.head.toNat % 4096) e', head := l.head + 1
            lost := if losing && l.lost != 0xFFFFFFFF then l.lost + 1 else l.lost
            loss := l.loss || losing, nearFull := l.nearFull || near },
   near && !l.nearFull)

/-- The hub sideband of D0 is up (R374, R586). -/
def sidebandUp (s : State) : Bool := !s.boot.rstLow && !s.boot.dead

/-- The turn timestamp of a commit: the turn counter, or, while it is not locked, the turn ticks since the rising edge of
CHIP_RST_N, which no load of the counter changes (R72, R120, R122; DEDUCED, log 86). -/
def stamp (s : State) : W64 := if s.time.locked then s.time.count else s.time.ticks

/-- Append to the ledger and send the one notice of R124. -/
def append (s : State) (e : LedgerEntry) : State :=
  let r := s.ledger.append { e with turn := stamp s
                                    flags := if s.time.locked then e.flags else e.flags ||| 0x10 }
  let s' := s.setLedger r.1
  if r.2 && sidebandUp s then s'.emit (.sideband 0x02 (leBytes 4 r.1.head.toNat ++ leBytes 2 r.1.undrained)) else s'

/-- The pause of a handover (R549 to R551): from its begin until the exchange is complete, at a fall-back as well. -/
def inPause (s : State) : Bool := s.fw.hand.any (fun h => h.phase == .exchanging || h.phase == .restoring)

/-- Append an entry that firmware records: in a pause it waits for its end (R551). -/
def appendLater (s : State) (e : LedgerEntry) : State :=
  if inPause s then { s with fw := { s.fw with waiting := s.fw.waiting ++ [e] } } else append s e

/-- The entries that waited through a pause, in their order (R551). -/
def flushWaiting (s : State) : State :=
  s.fw.waiting.foldl append { s with fw := { s.fw with waiting := [] } }

/-- The ledger entry of a device event with its 8-byte detail (R572). -/
def eventEntry (s : State) (code : W16) (detail : List Byte) : LedgerEntry :=
  { srcFa := s.fa, ep := 0x08, flags := 0x04, cmd := code, detail := padTo 8 detail }

/-- Device events are counted for the sweep record (R536). -/
def countEvent (s : State) : State := { s with leat := { s.leat with events := s.leat.events + 1 } }

/-- A device event in the ledger (R551, R572). -/
def event (s : State) (code : W16) (detail : List Byte) : State :=
  appendLater (countEvent s) (eventEntry s code detail)

/-- A device event that no pause delays: those of stops and warm resets, which end it. -/
def eventNow (s : State) (code : W16) (detail : List Byte) : State :=
  append (countEvent s) (eventEntry s code detail)

/-- Append the background entry of a command (R108, R120). -/
def background (s : State) (o : Origin) (result : W16) (detail : List Byte) : State :=
  appendLater s { srcFa := o.srcFa, ep := o.ep, flags := (if o.urgent then 0x01 else 0) ||| 0x02, cmd := o.cmd
                  tenant := o.tenant, result := result, reqSeq := o.seq, detail := padTo 8 detail }

/-! ### Status codes (R105) -/

def stOk : W16 := 0
def stAccepted : W16 := 1
def stBusy : W16 := 2
def stBadArg : W16 := 3
def stNoResource : W16 := 4
def stStage : W16 := 5
def stHandover : W16 := 6
def stUnreachable : W16 := 7
def stUnsupported : W16 := 8
def stConflict : W16 := 9
def stOrphaned : W16 := 10

/-! ### Turn edges (R471) -/

/-- The next value after `c` that is a multiple of `p`. -/
def nextMultiple (c p : Nat) : Nat := if p = 0 then c + 1 else (c / p + 1) * p

/-- The first turn edge at least 20 µs after now (R420). -/
def edgeIn20 (s : State) : W64 := BitVec.ofNat 64 (nextMultiple (s.time.count.toNat + 19999) s.time.period.toNat)

/-! ### Segments (R322, R334) -/

def segOf (a : Nat) : Nat := a / 0x100000
def sliceOf (a : Nat) : Nat := a / 0x800000
/-- The segments that a range of bytes touches. -/
def segsOf (lo hi : Nat) : List Nat := if hi ≤ lo then [] else numbers (segOf lo) (segOf (hi - 1) + 1 - segOf lo)
/-- The number of segments that a basin owns, and their list (R163). -/
def ownedSegs (s : State) (b : Nat) : List Nat := (List.range 512).filter (fun k => (s.seg k).owner == some b)

end Sys2Proof.Machine
end

