-- ==== Sys2Proof/Machine/Route.lean ====
section
/-! DEFINITION. Fabric addresses, shapes and coordinates, the route tables that a discovery computes, the ports that a packet may
take, and its route flags (R396 to R403, R407 to R411, R413). -/

namespace Sys2Proof.Machine

/-! ### Fabric addresses (R396, R399, R401) -/

def faPod (fa : W16) : Nat := bits fa.toNat 15 11
def faRack (fa : W16) : Nat := bits fa.toNat 10 8
def faPackage (fa : W16) : Nat := bits fa.toNat 7 5
def faSlot (fa : W16) : Nat := bits fa.toNat 4 0
def faOf (pod r p slot : Nat) : W16 := BitVec.ofNat 16 (2 ^ 11 * pod + 2 ^ 8 * (r % 8) + 2 ^ 5 * (p % 8) + slot)

/-- The index of a destination FA in route table 0, and the FA of an index (R407). -/
def destIndex (fa : W16) : Nat := 128 * faRack fa + 16 * faPackage fa + faSlot fa % 16
def faOfIndex (pod i : Nat) : W16 := faOf pod (i / 128) (i / 16 % 8) (i % 16)

/-- The Gray order of packages along an axis. -/
def grayIndex (v : Nat) : Nat := match v with | 0 => 0 | 1 => 1 | 3 => 2 | _ => 3
/-- A coordinate within a package, mirrored in odd blocks. -/
def mirrored (v b : Nat) : Nat := if b % 2 = 0 then v else 3 - v

/-- Sizes of the axes of a torus layout. -/
def torusSize (layout : Nat) : List Nat :=
  match layout with
  | 0 => [4, 4, 8] | 1 => [4, 4, 64] | 2 => [8, 8, 16] | 3 => [16, 8, 8] | _ => [8, 4, 32]

/-- The coordinates of a chiplet in a torus layout (R399). -/
def torusAt (layout : Nat) (fa : W16) : List Nat :=
  let r := faRack fa
  let p := faPackage fa
  let b : Nat × Nat × Nat := match layout with
    | 0 => (0, 0, p)
    | 1 => (0, 0, 8 * r + p)
    | 2 => (p % 2, p / 2 % 2, 2 * r + p / 4)
    | 3 => (grayIndex (p % 4), p / 4, r)
    | _ => (p % 2, 0, 4 * r + grayIndex (p / 2))
  [4 * b.1 + mirrored (faSlot fa % 4) b.1, 4 * b.2.1 + mirrored (faSlot fa / 4 % 4) b.2.1, b.2.2]

/-- The node number of a chiplet in the cube, and the dimensions of a layout (R401). -/
def cubeAt (fa : W16) : Nat :=
  let g := fun (v : Nat) => v ^^^ (v / 2)
  128 * faRack fa + 16 * faPackage fa + 4 * g (faSlot fa / 4 % 4) + g (faSlot fa % 4)
def cubeDims (layout : Nat) : Nat := match layout with | 0 => 4 | 1 => 7 | _ => 10

/-- The two chiplets lie in one shape. -/
def sameShape (h : Shape) (a b : W16) : Bool :=
  faPod a == faPod b && faSlot a < 16 && faSlot b < 16
  && (if h.shape = 1 then h.layout != 0 || faRack a == faRack b
      else (h.layout == 2 || faRack a == faRack b) && (h.layout != 0 || faPackage a == faPackage b))

/-- Steps from coordinate `x` to `y` on a ring, in the plus direction. -/
def ringDelta (size x y : Nat) : Nat := (y + size - x) % size

def bitCount (x : Nat) : Nat := (bitsOf 10 x).length

/-- The distance of two chiplets with every shape link up (R408). -/
def geo (h : Shape) (a b : W16) : Nat :=
  if h.shape = 1 then
    let l := h.layout.toNat
    (List.zipWith (fun size (e : Nat × Nat) => let d := ringDelta size e.1 e.2; min d (size - d)) (torusSize l)
      (List.zip (torusAt l a) (torusAt l b))).sum
  else
    let x := cubeAt a ^^^ cubeAt b
    min (bitCount x) (1 + bitCount (x ^^^ h.twist.toNat))

/-! ### What a port is for (R398, R400 to R403, R407) -/

/-- The role of a port as table 1 holds it. -/
structure PortRole where
  role : Nat
  axis : Nat := 0
  plus : Bool := false
  dateline : Bool := false
deriving DecidableEq, Repr

/-- The torus hop from `a` to `b`, if they are neighbours on a ring. -/
def torusHop (layout : Nat) (a b : W16) : Option PortRole :=
  let d := List.zipWith (fun size (e : Nat × Nat) => (ringDelta size e.1 e.2, size, e.1)) (torusSize layout)
    (List.zip (torusAt layout a) (torusAt layout b))
  match (d.zipIdx.filter (fun e => e.1.1 != 0)) with
  | [e] =>
    let size := e.1.2.1
    if e.1.1 = 1 then some ⟨1, e.2, true, e.1.2.2 + 1 == size⟩
    else if e.1.1 + 1 = size then some ⟨1, e.2, false, e.1.2.2 == 0⟩
    else none
  | _ => none

/-- The port that carries the torus hop `h` from `a` to `b`. -/
def torusPort (layout : Nat) (a b : W16) (h : PortRole) (q : Nat) : Bool :=
  if faRack a = faRack b ∧ faPackage a = faPackage b then q < 8
  else if layout ≤ 1 then q == (if h.plus then 8 else 9)
  else if faRack a = faRack b then 10 ≤ q && q ≤ 12 && (faPackage a ^^^ faPackage b) == 2 ^ (q - 10)
  else h.axis == 2 && q == (if h.plus then 13 else 14)

/-- The ports of a cube dimension. -/
def cubePort (fa : W16) (d q : Nat) : Bool :=
  let sx := faSlot fa % 4
  let sy := faSlot fa / 4 % 4
  let pair := fun (k : Nat) => q == k || q == k + 4
  if d < 2 then pair (if sx % 2 = d % 2 then 0 else 1)
  else if d < 4 then pair (if sy % 2 = d % 2 then 2 else 3)
  else if d < 7 then q == 10 + (d - 4)
  else q == 13 + (d - 7)

/-- The role of port `q` of chiplet `a` toward partner `b`. -/
def roleOf (h : Shape) (a b : W16) (q : Nat) : PortRole :=
  let none' : PortRole := ⟨0, 0, false, false⟩
  let express : PortRole := ⟨2, 0, false, false⟩
  if !sameShape h a b then none'
  else if h.shape = 1 then
    if 16 ≤ q then express
    else match torusHop h.layout.toNat a b with
      | some r => if torusPort h.layout.toNat a b r q then r else none'
      | none => none'
  else
    let x := cubeAt a ^^^ cubeAt b
    if 17 ≤ q ∨ (q = 16 ∧ h.twist = 0) then express
    else if q = 16 then (if x = h.twist.toNat then ⟨3, 0, false, false⟩ else none')
    else match bitsOf 10 x with
      | [d] => if d < cubeDims h.layout.toNat && cubePort a d q then ⟨1, d, false, false⟩ else none'
      | _ => none'

/-- The chiplet that the wiring joins to port `q` of `a` (R398, R400 to R402). -/
def wiredTo (h : Shape) (a : W16) (q : Nat) : Option W16 :=
  let r := faRack a
  let p := faPackage a
  let sx := faSlot a % 4
  let sy := faSlot a / 4 % 4
  let at_ := fun r p sx sy => some (faOf (faPod a) r p (4 * (sy % 4) + sx % 4))
  let layout1 := h.shape == 1 && h.layout == 1
  let search := fun (f : W16 → Bool) => ((List.range 1024).map (faOfIndex (faPod a))).find? f
  match q with
  | 0 => at_ r p (sx + 1) sy | 4 => at_ r p (sx + 1) sy | 1 => at_ r p (sx + 3) sy | 5 => at_ r p (sx + 3) sy
  | 2 => at_ r p sx (sy + 1) | 6 => at_ r p sx (sy + 1) | 3 => at_ r p sx (sy + 3) | 7 => at_ r p sx (sy + 3)
  | 8 => at_ (if layout1 && p == 7 then r + 1 else r) (p + 1) sx sy
  | 9 => at_ (if layout1 && p == 0 then r + 7 else r) (p + 7) sx sy
  | 10 => at_ r (p ^^^ 1) sx sy | 11 => at_ r (p ^^^ 2) sx sy | 12 => at_ r (p ^^^ 4) sx sy
  | _ =>
    if h.shape = 1 then
      if (q = 13 ∨ q = 14) ∧ 2 ≤ h.layout.toNat then
        search (fun b => (torusHop h.layout.toNat a b).any (fun k => torusPort h.layout.toNat a b k q))
      else none
    else if q ≤ 15 then at_ (r ^^^ 2 ^ (q - 13)) p sx sy
    else if q = 16 ∧ h.twist ≠ 0 then search (fun b => cubeAt b == cubeAt a ^^^ h.twist.toNat)
    else none

/-- The ports of the shape at chiplet `a`: those whose wiring gives them a shape hop or the twist. -/
def shapePorts (h : Shape) (a : W16) : List Nat :=
  (List.range 20).filter (fun q => match wiredTo h a q with
    | some b => let r := (roleOf h a b q).role; r == 1 || r == 3
    | none => false)

/-! ### The tables of a discovery (R407, R408) -/

def State.port (s : State) (q : Nat) : Port := tget {} s.links q
def State.setPort (s : State) (q : Nat) (p : Port) : State := { s with links := tput s.links q p }
def State.modPort (s : State) (q : Nat) (f : Port → Port) : State := s.setPort q (f (s.port q))
/-- State codes of R151. -/
def lnDown : Byte := 0
def lnTraining : Byte := 1
def lnBase : Byte := 2
def lnUp : Byte := 3
def lnStopped : Byte := 4
def lnMarked : Byte := 5
def lnDisabled : Byte := 6
def portUp (s : State) (q : Nat) : Bool := (s.port q).state == lnUp

/-- The word of a port in table 1. -/
def portWord (k : PortRole) (partner : W16) : W64 :=
  BitVec.ofNat 64 (k.role + 4 * k.axis + 64 * k.plus.toNat + 128 * k.dateline.toNat + 2 ^ 16 * partner.toNat)
def wordRole (w : W64) : PortRole := ⟨bits w.toNat 1 0, bits w.toNat 5 2, bit w.toNat 6, bit w.toNat 7⟩

/-- The ports that are UP with their partners and roles. -/
def upPorts (s : State) (h : Shape) (me : W16) : List (Nat × W16 × PortRole) :=
  ((List.range 20).filter (portUp s)).map (fun q =>
    let f := (s.port q).partnerFa
    (q, f, if f = 0xFFFF then ⟨0, 0, false, false⟩ else roleOf h me f q))

/-- The port of the escape path to `b`: dimension order over the shape hops. -/
def escapePort (h : Shape) (me b : W16) (l : List (Nat × W16 × PortRole)) : Nat :=
  let want : Nat × Option Bool :=
    if h.shape = 1 then
      let d := List.zipWith (fun size (e : Nat × Nat) => (ringDelta size e.1 e.2, size)) (torusSize h.layout.toNat)
        (List.zip (torusAt h.layout.toNat me) (torusAt h.layout.toNat b))
      match d.zipIdx.find? (fun e => e.1.1 != 0) with
      | some e => (e.2, some (e.1.1 ≤ e.1.2 - e.1.1))
      | none => (0, none)
    else
      match bitsOf 10 (cubeAt me ^^^ cubeAt b) with
      | d :: _ => (d, some false)
      | [] => (0, none)
  match l.find? (fun e => e.2.2.role == 1 && !(4 ≤ e.1 && e.1 ≤ 7) && e.2.2.axis == want.1 && some e.2.2.plus == want.2) with
  | some e => e.1
  | none => 0x1F

/-- The word of destination `b` in table 0. -/
def destWord (h : Shape) (me b : W16) (l : List (Nat × W16 × PortRole)) : W64 :=
  if b = me then BitVec.ofNat 64 (2 ^ 20 * 0x1F + 2 ^ 25 + 2 ^ 26)
  else if !sameShape h me b then BitVec.ofNat 64 (2 ^ 20 * 0x1F)
  else
    let costs := (l.filter (fun e => e.2.2.role != 0)).map (fun e => (e.1, 1 + geo h e.2.1 b))
    let dist := costs.foldl (fun m e => min m e.2) 255
    let valid := !costs.isEmpty && dist ≤ 32
    BitVec.ofNat 64 (maskOf ((costs.filter (fun e => e.2 == dist)).map (fun e => e.1)) + 2 ^ 20 * escapePort h me b l
      + (if valid then 2 ^ 25 else 0) + 2 ^ 32 * dist)

/-- The tables that a discovery computes for a chiplet with an FA; a port that is not UP is unused, with no partner. -/
def computeRoutes (s : State) (h : Shape) (me : W16) : Routes :=
  let l := upPorts s h me
  { dest := (List.range 1024).map (fun i => (i, destWord h me (faOfIndex (faPod me) i) l))
    port := (List.range 20).map (fun q => (q, match l.find? (fun e => e.1 == q) with
      | some e => portWord e.2.2 e.2.1
      | none => portWord ⟨0, 0, false, false⟩ 0xFFFF)) }

/-! ### The choice of a port (R409 to R411, R413) -/

def State.destEntry (s : State) (fa : W16) : W64 := tget 0 s.fabric.active.dest (destIndex fa)
def entryValid (w : W64) : Bool := bit w.toNat 25
def entryEsc (w : W64) : Nat := bits w.toNat 24 20
def entryMin (w : W64) : List Nat := bitsOf 20 w.toNat
def State.portRole (s : State) (q : Nat) : PortRole := wordRole (tget 0 s.fabric.active.port q)

/-- The virtual channel of a packet type: 0 control, 1 reduction, 2 bulk. -/
def vcOfType (t : Byte) : Nat := if t = 6 then 1 else if t = 5 ∨ t = 7 ∨ t = 8 then 2 else 0

/-- The port serves in the choice of routes: it is UP, and has not lost its link since the routes were installed (R413). -/
def usable (s : State) (q : Nat) : Bool := portUp s q && !(s.port q).removed

/-- Neither escape nor control packets leave on an express port (R403). -/
def escapeUsable (s : State) (q : Nat) : Bool := usable s q && (s.portRole q).role != 2

/-- The port of a control or escape packet: ESC_PORT, for which packets wait through a link reset, or what stands in for one that is
lost: the other port of its D pair, or the lowest port of MIN_PORTS (R384, R393, R403, R410, R413). -/
def escChoice (s : State) (w : W64) : Option Nat :=
  let q := entryEsc w
  let waits := (s.port q).resume && !(s.port q).removed && (s.portRole q).role != 2
  if 20 ≤ q then none
  else if escapeUsable s q || waits then some q
  else
    let pair := if q < 8 ∧ escapeUsable s (q ^^^ 4) then some (q ^^^ 4) else none
    pair.orElse (fun _ => (entryMin w).find? (escapeUsable s))

/-- The route flags of a packet as it leaves on port `q` (R409, R411); in the cube CLASS is never set. -/
def leaveFlags (s : State) (arrival : Option Nat) (p : Packet) (q vc : Nat) : Byte :=
  let k := s.portRole q
  let axisOf := fun a => (s.portRole a).axis
  let kept := bit p.hdr.flags.toNat 1 && vc != 1 && vc != 2 && (arrival.any (fun a => axisOf a == k.axis))
    && (vc != 3 || bit p.hdr.flags.toNat 0)
  let cls := (vc == 0 || vc == 3) && (kept || k.dateline)
  byte ((if vc = 3 then 1 else 0) + (if cls then 2 else 0) + (if bit p.hdr.flags.toNat 2 then 4 else 0))

/-- The FA names a chiplet of this chiplet's pod with a valid route (R397), or this chiplet. -/
def reachable (s : State) (fa : W16) : Bool :=
  fa == s.fa ||
  (fa != 0xFFFF && s.fa != 0xFFFF && faPod fa == faPod s.fa && !bit fa.toNat 4 && entryValid (s.destEntry fa))

end Sys2Proof.Machine
end

