-- ==== Sys2Proof/Machine/Ports.lean ====
section
/-! DEFINITION. The output ports: frames, places and credits, share classes, the start of packets, the replay buffer, the credits
of windows that leave with it, and what this chiplet originates (R376 to R382, R397, R409 to R415, R425, R428, R432 to R434). -/

namespace Sys2Proof.Machine

/-! ### Frames (R376, R377) -/

/-- The network header (R377). -/
def netHeader (h : NetHdr) : List Byte :=
  leBytes 2 h.dst.toNat ++ leBytes 2 h.src.toNat ++ leBytes 2 h.tenant.toNat ++ [h.typ, h.nData, h.hops, h.flags, 0, 0, 0, 0, 0, 0]

/-- The packet that the body of a header frame begins (R377). -/
def headerOf (b : List Byte) : Packet :=
  let w16 := fun o => BitVec.ofNat 16 (fieldAt b o 2)
  { hdr := { dst := w16 0, src := w16 2, tenant := w16 4, typ := byte (fieldAt b 6 1), nData := byte (fieldAt b 7 1)
             hops := byte (fieldAt b 8 1), flags := byte (fieldAt b 9 1) }
    content := slice b 16 240, data := [] }

/-- The link header (R376). -/
def linkHeader (f : Frame) : Nat :=
  f.seq.toNat + 2 ^ 10 * f.ack.toNat + 2 ^ 20 * f.vc.toNat + 2 ^ 22 * f.kind.toNat + 2 ^ 25 * f.cvc.toNat + 2 ^ 27 * f.ccnt.toNat

/-- The 264 bytes of a frame (R376). -/
def frameBytes (f : Frame) : List Byte :=
  let b := leBytes 4 (linkHeader f) ++ padTo 256 f.body
  b ++ leBytes 4 (crc32c b)

/-- A frame as it was received; none where its CRC-32C over bytes 0 to 259 fails (R376, R382). -/
def parseFrame (l : List Byte) : Option Frame :=
  if l.length = 264 ∧ fieldAt l 260 4 = crc32c (l.take 260) then
    let h := fieldAt l 0 4
    some { seq := BitVec.ofNat 10 (bits h 9 0), ack := BitVec.ofNat 10 (bits h 19 10), vc := BitVec.ofNat 2 (bits h 21 20)
           kind := BitVec.ofNat 3 (bits h 24 22), cvc := BitVec.ofNat 2 (bits h 26 25), ccnt := BitVec.ofNat 5 (bits h 31 27)
           body := slice l 4 256 }
  else none

/-- Saturating counters of a port (R391). -/
def up16 (v : W16) : W16 := if v = 0xFFFF then v else v + 1
def up32' (v : W32) : W32 := if v = 0xFFFFFFFF then v else v + 1

/-! ### Places in a receive buffer, and their credits (R379, R411) -/

/-- The place that a frame takes: its virtual channel, or class 1 of control (4) or of escape (5). -/
def poolOf (vc : Nat) (cls : Bool) : Nat := if cls && vc == 0 then 4 else if cls && vc == 3 then 5 else vc
/-- Frames that a place holds: two classes of 8 for control, two of 48 for escape. -/
def poolSize (k : Nat) : Nat := if k = 0 ∨ k = 4 then 8 else if k = 3 ∨ k = 5 then 48 else 192
/-- The virtual channel of a place. -/
def poolVc (k : Nat) : Nat := if k = 4 then 0 else if k = 5 then 3 else k
/-- The places of a buffer. -/
def pools : List Nat := List.range 6

/-- Credits that a port holds for a place of its partner. -/
def creditOf (p : Port) (k : Nat) : Nat := p.credits.getD k 0
/-- The place that the next frame of a packet takes at the partner. -/
def OutPacket.pool (o : OutPacket) : Nat := poolOf o.vc (bit o.flags.toNat 1)
/-- `n` frames have left a place of the port's receive buffer, whose credits go back (R379). -/
def Port.owe (p : Port) (k n : Nat) : Port := { p with owed := p.owed.set k (p.owed.getD k 0 + n) }
/-- `n` frames of a packet have left the receive buffer of the port that it came by. -/
def oweFor (s : State) (o : OutPacket) (n : Nat) : State :=
  match o.arrival, o.place with
  | some a, some k => s.modPort a (fun p => p.owe k n)
  | _, _ => s
/-- The frames of a packet that stand in the receive buffer. -/
def OutPacket.kept (o : OutPacket) : Nat := if o.abort then 0 else 1 + o.pkt.data.length - o.sent

/-! ### Packets on their way out (R376, R379 to R381) -/

/-- The packet has begun to leave. -/
def OutPacket.begun (o : OutPacket) : Bool := o.sent != 0
/-- A frame of it can be sent: it has come, or is the abort frame. -/
def OutPacket.ready (o : OutPacket) : Bool := o.abort || o.sent ≤ o.pkt.data.length
/-- The next frame is its last. -/
def OutPacket.atLast (o : OutPacket) : Bool := o.abort || (o.whole && o.sent == o.pkt.data.length)

/-- The kind and the body of the next frame (R376). -/
def OutPacket.frame (o : OutPacket) : BitVec 3 × List Byte :=
  if o.abort then (5, List.replicate 256 0)
  else if o.sent = 0 then
    (if o.atLast then 2 else 1, padTo 256 (netHeader { o.pkt.hdr with flags := o.flags } ++ o.pkt.content))
  else (if o.atLast then 4 else 3, padTo 256 (o.pkt.data.getD (o.sent - 1) []))

/-- Whose frame the next one is. -/
def OutPacket.origin (s : State) (o : OutPacket) : FrameOf :=
  let c := o.pkt.content
  if o.arrival.isSome || o.pkt.hdr.src != s.fa then {}
  else if (o.pkt.hdr.typ == 5 || o.pkt.hdr.typ == 6 || o.pkt.hdr.typ == 7) && fieldAt c 10 1 < 32 then
    { chan := some (fieldAt c 10 1), xfer := BitVec.ofNat 16 (fieldAt c 8 2), index := fieldAt c 12 2, last := o.atLast && !o.abort }
  else if o.pkt.hdr.typ = 3 then { tag := some (BitVec.ofNat 32 (fieldAt c 20 4)) }
  else {}

/-- A frame of the packet can leave on port `p`. -/
def sendable (p : Port) (o : OutPacket) : Bool := o.ready && 0 < creditOf p o.pool

/-- The packet of channel `vc` whose frame can leave next; the frames of one packet are not interleaved with others of its
channel (R377). -/
def pick (p : Port) (vc : Nat) : Option OutPacket :=
  match p.queue.find? (fun o => o.vc == vc && o.begun) with
  | some o => if sendable p o then some o else none
  | none => p.queue.find? (fun o => o.vc == vc && sendable p o)

/-! ### Share classes and the start of a packet (R410, R414, R418) -/

/-- The share class of a packet: its tenant's if a basin on this chiplet carries it, else transit.  A seized basin carries
nothing, until its release (R418). -/
def classOf (s : State) (p : Packet) : Option W16 :=
  if p.hdr.tenant != 0 && s.die.basins.any (fun e => e.2.state == .active && e.2.tenant == p.hdr.tenant) then some p.hdr.tenant else none

/-- The weight of a share class at port `q`: the largest link weight of a basin with that tenant, 64 for transit. -/
def classWeight (s : State) (q : Nat) (c : Option W16) : Nat :=
  match c with
  | none => 64
  | some t => (s.die.basins.filter (fun e => e.2.state == .active && e.2.tenant == t)).foldl
      (fun m e => max m (e.2.linkWeights.getD q 1).toNat) 1

/-- The key of a class in a port's deficits. -/
def classKey (c : Option W16) : Nat := match c with | some t => t.toNat | none => 0

/-- Frames of a packet. -/
def OutPacket.size (o : OutPacket) : Nat := o.pkt.hdr.nData.toNat + 1

/-- Deficit round robin over whole packets (R414): the first class whose deficit covers its first packet sends; where none
does, a round gives each class its weight. -/
def drrPick (s : State) (q : Nat) (l : List OutPacket) : Nat → Tab Nat → Option (OutPacket × Tab Nat)
  | 0, _ => none
  | n + 1, d =>
    let key := fun (o : OutPacket) => classKey (classOf s o.pkt)
    match l.find? (fun o => o.size ≤ tget 0 d (key o)) with
    | some o => some (o, tput d (key o) (tget 0 d (key o) - o.size))
    | none => drrPick s q l n (l.foldl (fun t o => tput t (key o) (tget 0 t (key o) + classWeight s q (classOf s o.pkt))) d)

/-- The first waiting packet of each class: within a class packets go in order of arrival. -/
def firstOfClass (s : State) (l : List OutPacket) : List OutPacket :=
  l.foldl (fun r o => if r.any (fun k => classOf s k.pkt == classOf s o.pkt) then r else r ++ [o]) []

/-- The packets that wait and whose minimal paths use port `q`. -/
def candidates (s : State) (q : Nat) : List OutPacket :=
  s.fabric.waiting.filter (fun o => (entryMin (s.destEntry o.pkt.hdr.dst)).contains q)

/-- Port `q` can begin packet `o` now: it serves, holds a credit, carries no other packet of that channel, and the packet's share
allows it; the deficits with it (R377, R410, R414). -/
def startAt (s : State) (q : Nat) (o : OutPacket) : Option (Tab Nat) :=
  let p := s.port q
  let can := fun (x : OutPacket) => 0 < creditOf p x.vc && p.queue.all (fun y => y.vc != x.vc)
  if !usable s q || 512 ≤ p.replay.length || !can o then none
  else
    let heads := firstOfClass s (candidates s q)
    match drrPick s q (heads.filter can) 200 (p.deficit.filter (fun e => heads.any (fun x => classKey (classOf s x.pkt) == e.1))) with
    | some r => if r.1 = o then some r.2 else none
    | none => none

/-- A packet leaves on port `q` and channel `vc`. -/
def bindTo (s : State) (o : OutPacket) (q vc : Nat) : State :=
  s.modPort q (fun p => { p with queue := p.queue ++ [{ o with vc := vc, flags := leaveFlags s o.arrival o.pkt q vc }] })

/-- The port with the most credits for channel `vc`, the lowest number winning a tie. -/
def mostCredits (s : State) (vc : Nat) (l : List (Nat × Tab Nat)) : Option (Nat × Tab Nat) :=
  l.foldl (fun (m : Option (Nat × Tab Nat)) e =>
    match m with
    | none => some e
    | some k => if creditOf (s.port k.1) vc < creditOf (s.port e.1) vc then some e else some k) none

/-- A waiting packet is offered: to the ports of MIN_PORTS that can begin it, the one with the most credits taking it, or else to
the escape channel of ESC_PORT if it holds a credit (R410). -/
def offer (s : State) (o : OutPacket) : Option State :=
  let w := s.destEntry o.pkt.hdr.dst
  let rest := { s with fabric := { s.fabric with waiting := s.fabric.waiting.erase o } }
  match mostCredits s o.vc ((entryMin w).filterMap (fun q => (startAt s q o).map (fun d => (q, d)))) with
  | some e => some (bindTo (rest.modPort e.1 (fun p => { p with deficit := e.2 })) o e.1 o.vc)
  | none =>
    let q := entryEsc w
    let k := poolOf 3 (bit (leaveFlags s o.arrival o.pkt q 3).toNat 1)
    if q < 20 && escapeUsable s q && 0 < creditOf (s.port q) k then some (bindTo rest o q 3) else none

/-- The first waiting packet that can begin does. -/
def startOne (s : State) : Option State := s.fabric.waiting.findSome? (offer s)

/-- The packet of another channel than control whose frame can leave next: escape, then the shares (R380). -/
def nextOther (p : Port) : Option OutPacket := ((pick p 3).orElse (fun _ => pick p 1)).orElse (fun _ => pick p 2)

/-- Frames of other channels than control wait to leave on port `q`. -/
def othersWait (s : State) (q : Nat) : Bool :=
  (nextOther (s.port q)).isSome || s.fabric.waiting.any (fun o => (startAt s q o).isSome)

/-- The packet whose frame leaves next on port `q` (R380): control, as long as it takes no more than one frame in four while
others wait, escape, then the shares. -/
def nextOut (s : State) (q : Nat) : Option OutPacket :=
  let p := s.port q
  match pick p 0 with
  | some c => if p.spaced < 3 && othersWait s q then nextOther p else some c
  | none => nextOther p

/-- The credits that a frame can return: those of one virtual channel, class 0, at most 31 (R376, R411). -/
def returned (p : Port) : BitVec 2 × BitVec 5 × List Nat :=
  match (List.range 4).find? (fun v => p.owed.getD v 0 != 0) with
  | some v => let n := min 31 (p.owed.getD v 0); (BitVec.ofNat 2 v, BitVec.ofNat 5 n, p.owed.set v (p.owed.getD v 0 - n))
  | none => (0, 0, p.owed)

/-! ### Causes (R439) -/

def dcNoWindow : Byte := 0x01
def dcRevoked : Byte := 0x02
def dcSource : Byte := 0x03
def dcRights : Byte := 0x04
def dcRange : Byte := 0x05
def dcSegOff : Byte := 0x06
def dcParity : Byte := 0x07
def dcAborted : Byte := 0x08
def dcExpired : Byte := 0x09
def dcArg : Byte := 0x0A
def dcUnreachable : Byte := 0x0B
def dcLost : Byte := 0x0C

/-! ### What this chiplet originates (R377, R378, R397, R410) -/

/-- Packets that no port could take (R378, R413). -/
def discarded (s : State) (reason : Byte) (arrival : Byte) (h : NetHdr) (n : Nat) : State :=
  event s 0xE032 ([reason, arrival] ++ leBytes 2 h.src.toNat ++ leBytes 2 h.dst.toNat ++ leBytes 2 n)

/-- A packet takes its way: a control or escape packet goes to the port that its entry names, any other waits until it is offered
a port; `none` where no port can take it (R409, R410, R413). -/
def place (s : State) (o : OutPacket) : Option State :=
  let w := s.destEntry o.pkt.hdr.dst
  let vc := vcOfType o.pkt.hdr.typ
  if !entryValid w then none
  else if vc = 0 then (escChoice s w).map (fun q => bindTo s o q 0)
  else if bit o.pkt.hdr.flags.toNat 0 then (escChoice s w).map (fun q => bindTo s o q 3)
  else some { s with fabric := { s.fabric with waiting := s.fabric.waiting ++ [{ o with vc := vc }] } }

/-- A packet that this chiplet originates: none leaves without an FA or for a chiplet out of reach; one for this chiplet
itself takes no port. -/
def State.post (s : State) (p : Packet) : State :=
  if s.fa = 0xFFFF ∨ !reachable s p.hdr.dst then s
  else
    let s1 := s.emit (.packet p)
    if p.hdr.dst = s.fa then s1
    else (place s1 { vc := 0, pkt := p }).getD (discarded s1 5 0xFF p.hdr 1)

/-- A packet of one header frame for another chiplet; from this chiplet's own FA (R377, R474). -/
def packet (s : State) (dst tenant : W16) (typ : Byte) (content : List Byte) : Packet :=
  { hdr := { dst := dst, src := s.fa, tenant := tenant, typ := typ, nData := 0, hops := 0, flags := 0 }
    content := content, data := [] }

/-- A control message (packet type 0): its code at byte 16 and what follows (R377). -/
def postControl (s : State) (dst : W16) (code : Byte) (body : List Byte) : State := s.post (packet s dst 0 0 (code :: body))

/-! ### The fields of transfer packets (R427, R431) -/

def gaWindow (ga : W64) : Nat := bits ga.toNat 47 42
def gaOffset (ga : W64) : Nat := bits ga.toNat 41 0
def gaFa (ga : W64) : W16 := BitVec.ofNat 16 (bits ga.toNat 63 48)

/-- The transfer header of a packet (R431). -/
def xferHdr (p : Packet) : XferHdr :=
  let c := p.content
  { dst := p.hdr.dst, src := p.hdr.src, tenant := p.hdr.tenant, combined := bit p.hdr.flags.toNat 2
    ga := BitVec.ofNat 64 (fieldAt c 0 8), xfer := BitVec.ofNat 16 (fieldAt c 8 2), chan := byte (fieldAt c 10 1)
    granules := byte (fieldAt c 11 1), index := BitVec.ofNat 16 (fieldAt c 12 2), addType := byte (fieldAt c 14 1)
    level := byte (fieldAt c 15 1), tag := BitVec.ofNat 16 (fieldAt c 16 2), first := BitVec.ofNat 32 (fieldAt c 20 4)
    count := BitVec.ofNat 32 (fieldAt c 24 4) }

/-- PACKET_DONE for a packet of a transfer (R433). -/
def postDone (s : State) (fa : W16) (window : Byte) (outcome : Byte) (xfer : W16) (chan : Byte) (index : W16) (grant : Byte) :
    State :=
  postControl s fa 0x22 ([window, outcome] ++ leBytes 2 xfer.toNat ++ [chan] ++ leBytes 2 index.toNat ++ [grant])

/-- The chiplet whose channel a discarded packet serves is told so: its outcome is UNREACHABLE (R439; DESIGN CHOICE, log 93). -/
def tellUnreachable (s : State) (p : Packet) : State :=
  let x := xferHdr p
  let tell := fun (fa : W16) => if fa = s.fa then s else postDone s fa (byte (gaWindow x.ga)) dcUnreachable x.xfer x.chan x.index 0
  if p.hdr.typ = 5 ∨ p.hdr.typ = 6 ∨ p.hdr.typ = 7 then tell p.hdr.src
  else if p.hdr.typ = 8 then tell p.hdr.dst
  else s

/-- A packet that came by port `q` is discarded (R378, R413, R439). -/
def discardTell (s : State) (reason : Byte) (q : Nat) (p : Packet) : State :=
  tellUnreachable (discarded s reason (byte q) p.hdr 1) p

/-! ### The credits of a window (R432 to R434) -/

/-- Credits that no channel holds. -/
def Window.freeCredits (w : Window) : Nat := w.credits - (w.queue.map (fun g => g.held)).sum

/-- Hand out one free credit to the next channel of the round robin that may take one; it moves to the end. -/
def Window.grantOne (w : Window) : Window × Option Grant :=
  if w.freeCredits = 0 then (w, none)
  else
    match w.queue.find? (fun g => 0 < g.wanted && g.held < 4) with
    | none => (w, none)
    | some g =>
      let g' := { g with held := g.held + 1, wanted := g.wanted - 1 }
      ({ w with queue := w.queue.filter (· != g) ++ [g']
                ended := w.ended.filter (fun e => !(e.1 == g.fa && e.2.1 == g.chan)) }, some g')

/-- Hand out the free credits one at a time. -/
def Window.grantAll : Nat → Window → List Grant → Window × List Grant
  | 0, w, l => (w, l)
  | n + 1, w, l =>
    match w.grantOne with
    | (w', some g) => Window.grantAll n w' (l ++ [g])
    | (w', none) => (w', l)

/-- One CREDIT_GRANT for each channel that was given credits, with their number. -/
def sendGrants (s : State) (k : Nat) (l : List Grant) : State :=
  let who := (l.map (fun g => (g.fa, g.chan, g.xfer))).eraseDups
  who.foldl (fun t x =>
    let n := (l.filter (fun g => (g.fa, g.chan, g.xfer) == x)).length
    postControl t x.1 0x21 ([byte k, byte n] ++ leBytes 2 x.2.2.toNat ++ [x.2.1])) s

/-- Grant what window `k` has free. -/
def regrant (s : State) (k : Nat) : State :=
  let w := s.window k
  let r := Window.grantAll w.credits w []
  sendGrants (s.setWindow k r.1) k r.2

/-- The entry of a channel in a window's queue. -/
def Window.entry (w : Window) (fa : W16) (chan : Byte) : Option Grant := w.queue.find? (fun g => g.fa == fa && g.chan == chan)

/-- A change of one channel's entry; one that holds and wants nothing leaves the queue. -/
def Window.modEntry (w : Window) (fa : W16) (chan : Byte) (f : Grant → Grant) : Window :=
  let l := w.queue.map (fun g => if g.fa = fa ∧ g.chan = chan then f g else g)
  { w with queue := l.filter (fun g => g.held != 0 || g.wanted != 0) }

/-- The credit of a packet that has come is in use until the packet is complete. -/
def useCredit (s : State) (h : XferHdr) : State :=
  s.setWindow (gaWindow h.ga) ((s.window (gaWindow h.ga)).modEntry h.src h.chan (fun g => { g with used := g.used + 1 }))

/-- A credit of a channel is free again; `inUse` says that it was in use. -/
def Grant.freed (g : Grant) (inUse : Bool) : Grant :=
  if inUse then (if g.used = 0 then g else { g with held := g.held - 1, used := g.used - 1 })
  else if g.used < g.held then { g with held := g.held - 1 } else g

/-- The window of a packet when its credit is free again. -/
def freeCredit (s : State) (h : XferHdr) (inUse : Bool) : Window :=
  (s.window (gaWindow h.ga)).modEntry h.src h.chan (·.freed inUse)

/-- A credit comes back with the outcome of its packet; PACKET_DONE carries the grant of a channel that is next in the
round robin again (R433, R434). -/
def finishPacket (s : State) (h : XferHdr) (outcome : Byte) (inUse : Bool) : State :=
  let k := gaWindow h.ga
  match (freeCredit s h inUse).grantOne with
  | (w', some g) =>
    if g.fa = h.src ∧ g.chan = h.chan then
      regrant (postDone (s.setWindow k w') h.src (byte k) outcome h.xfer h.chan h.index 1) k
    else sendGrants (postDone (s.setWindow k w') h.src (byte k) outcome h.xfer h.chan h.index 0) k [g]
  | (w', none) => postDone (s.setWindow k w') h.src (byte k) outcome h.xfer h.chan h.index 0

/-- The read request that a read-data packet of this chiplet answers. -/
def readOf (s : State) (p : Packet) : Option (XferHdr × Byte) :=
  if p.hdr.typ ≠ 8 ∨ p.hdr.src ≠ s.fa then none
  else
    let x := xferHdr p
    s.dma.reads.find? (fun e => e.1.src == p.hdr.dst && e.1.xfer == x.xfer && e.1.chan == x.chan && e.1.index == x.index)

/-- The last frame of its read data has been sent: the request is answered (R434). -/
def readSent (s : State) (p : Packet) : State :=
  match readOf s p with
  | some e => finishPacket { s with dma := { s.dma with reads := s.dma.reads.erase e } } e.1 e.2 true
  | none => s

/-- A packet whose credit was in use ends without an outcome, cut off by a link that is lost: the credit is free, and its originator
learns of the loss by its own limit (R393, R433, R437; DESIGN CHOICE, log 94). -/
def loseUse (s : State) (h : XferHdr) : State := regrant (s.setWindow (gaWindow h.ga) (freeCredit s h true)) (gaWindow h.ga)

/-! ### Sending (R379 to R381) -/

/-- One frame of packet `o` leaves: it takes a SEQ and a credit, is kept for replay, and carries ACK and credits. -/
def sendFrame (s : State) (q : Nat) (o : OutPacket) : State :=
  let p := s.port q
  let fr := o.frame
  let back := returned p
  let rest := if o.atLast then p.queue.erase o else p.queue.map (fun x => if x = o then { o with sent := o.sent + 1 } else x)
  let p1 := { p with
    queue := rest, txSeq := p.txSeq + 1, credits := p.credits.set o.pool (creditOf p o.pool - 1)
    replay := p.replay ++ [{ seq := p.txSeq, vc := o.vc, pool := o.pool, kind := fr.1, body := fr.2, cvc := back.1, ccnt := back.2.1
                             by_ := o.origin s }]
    owed := back.2.2, ackDue := false, heard := 0
    spaced := if o.vc = 0 then (if othersWait s q then 0 else p.spaced) else min 3 (p.spaced + 1) }
  let s1 := (s.setPort q p1).emit (.frame q (frameBytes
    { seq := p.txSeq, ack := p.rxExp, vc := BitVec.ofNat 2 o.vc, kind := fr.1, cvc := back.1, ccnt := back.2.1, body := fr.2 }))
  let s2 := if o.abort then s1 else oweFor s1 o 1
  if o.atLast && !o.abort then readSent s2 o.pkt else s2

/-- The first port that may send a frame sends it (R379, R381). -/
def sendOne (s : State) : Option State :=
  (List.range 20).findSome? (fun q =>
    if portUp s q && (s.port q).replay.length < 512 && !(s.port q).queue.isEmpty then (nextOut s q).map (sendFrame s q) else none)

/-- What can be sent is sent, and what can begin begins. -/
def flushN : Nat → State → State
  | 0, s => s
  | n + 1, s =>
    match sendOne s with
    | some t => flushN n t
    | none => match startOne s with
      | some t => flushN n t
      | none => s

/-- Every frame takes a credit, of which the twenty ports hold fewer than 10,000, and every packet begins once. -/
def flush (s : State) : State := flushN (10000 + s.fabric.waiting.length) s

/-- A packet leaves this chiplet as far as credits allow. -/
def State.send (s : State) (p : Packet) : State := flush (s.post p)

/-- A control message leaves. -/
def control (s : State) (dst : W16) (code : Byte) (body : List Byte) : State := flush (postControl s dst code body)

end Sys2Proof.Machine
end

