-- ==== Sys2Proof/Machine/GateOps.lean ====
section
/-! DEFINITION. The gate unit: operations on the four kinds of gate, waiters, orphaned locks and their repair, and what
becomes of a core's outstanding operations (R242 to R244, R446 to R464). -/

namespace Sys2Proof.Machine

/-! ### Result words (R242) -/

def gsOk : Nat := 0
def gsAcquiredOrphaned : Nat := 1
def gsBusy : Nat := 2
def gsNotOwner : Nat := 3
def gsWrongKind : Nat := 4
def gsGangLost : Nat := 5
def gsUnreachable : Nat := 6
def gsStale : Nat := 7

/-- The word of an operation that could not reach its gate. -/
def unreachableWord : W64 := 0xFFFFFFFFFFFFFFF6
/-- A status word with the names of a holder or dead owner. -/
def statusWord (st : Nat) (fa : W16) (core : Byte) (epoch : W32) : W64 :=
  BitVec.ofNat 64 (st + 2 ^ 8 * fa.toNat + 2 ^ 24 * core.toNat + 2 ^ 32 * epoch.toNat)
def plainStatus (st : Nat) : W64 := BitVec.ofNat 64 st
/-- A status word that names a lock's holder, or no one. -/
def holderWord (st : Nat) (g : Gate) : W64 :=
  match g.holder with
  | some h => statusWord st h.fa h.core h.epoch
  | none => plainStatus st
/-- The word of an operation that fails with `st`: bit 63 for gadd and gwait, a status word for the others (R242). -/
def failWord (op : Nat) (st : Nat) : W64 :=
  if op ≤ 1 then BitVec.ofNat 64 (2 ^ 63 + st) else plainStatus st

/-! ### Gate values (R446) -/

def gateKindCode : GateKind → Nat
  | .counter => 0 | .lock => 1 | .barrier => 2 | .event => 3
def gateKindOf : Nat → GateKind
  | 0 => .counter | 1 => .lock | 2 => .barrier | _ => .event

def barrierParties (v : W64) : Nat := bits v.toNat 23 0
def barrierArrived (v : W64) : Nat := bits v.toNat 47 24
def barrierGen (v : W64) : Nat := bits v.toNat 63 48
def barrierValue (parties arrived gen : Nat) : W64 :=
  BitVec.ofNat 64 (parties % 2 ^ 24 + 2 ^ 24 * (arrived % 2 ^ 24) + 2 ^ 48 * (gen % 2 ^ 16))

/-! ### Delivering results -/

/-- The node that holds logical core `l`. -/
def nodeOfLogical (s : State) (l : Nat) : Option Nat := (List.range 64).find? (fun n => s.logical n == l)

/-- A result reaches a core's outstanding operation (R456). -/
def Core.deliver (c : Core) (tag : W32) (w : W64) (due : Option W64) : Core :=
  { c with gops := c.gops.map (fun o => if o.tag = tag then { o with result := some w, due := due } else o) }

/-- A result for a core of this chiplet, or for the saved state of a seized one; it is written at its turn edge, if it has one
(R456, R463). -/
def deliverHere (s : State) (tag : W32) (word : W64) (due : Option W64) : State :=
  { s with die := { s.die with
      cores := s.die.cores.map (fun e => (e.1, e.2.deliver tag word due))
      basins := s.die.basins.map (fun e => (e.1, { e.2 with
        saved := e.2.saved.map (fun v => { v with core := v.core.deliver tag word due }) })) } }

/-- The result of a waiter: to a core of this chiplet, to the saved state of a seized core, or by a packet with the
operation's tenant (R456, R474). -/
def deliver (s : State) (w : Waiter) (word : W64) : State :=
  if w.fa = s.fa then deliverHere s w.tag word none
  else s.send (packet s w.fa w.tenant 4 (leBytes 4 w.tag.toNat ++ leBytes 8 word.toNat))

/-! ### Locks -/

/-- The holder of a lock is this requester: the same FA, logical core and life number (R455). -/
def heldBy (g : Gate) (w : Waiter) : Bool :=
  match g.holder with
  | some h => h.fa == w.fa && h.core == w.core && h.life == w.life
  | none => false

/-- Grant a lock that is not held: a new epoch, and the dead owner's name while the lock is ORPHANED (glock). -/
def grantLock (turn : W64) (g : Gate) (w : Waiter) : Gate × W64 :=
  let e := g.epoch + 1
  let g' := { g with epoch := e, holder := some ⟨w.fa, w.core, w.life, w.session, e, turn⟩ }
  match g.dead with
  | some d => (g', statusWord gsAcquiredOrphaned d.fa d.core d.epoch)
  | none => (g', statusWord gsOk w.fa w.core e)

/-- Grant a free lock to its first waiter, if there is one (R450, R459). -/
def grantNext (s : State) (g : Nat) : State :=
  let k := s.gate g
  match k.holder, k.waiters with
  | none, w :: r =>
    let x := grantLock s.time.count { k with waiters := r } w
    deliver (s.setGate g x.1) w x.2
  | _, _ => s

/-- A lock becomes ORPHANED: the hold is cleared, its holder is the dead owner, and the first waiter acquires it
(R459). -/
def orphan (s : State) (g : Nat) : State :=
  let k := s.gate g
  match k.holder with
  | none => s
  | some h => grantNext (s.setGate g { k with holder := none, dead := some ⟨h.fa, h.core, h.epoch⟩ }) g

/-- The gates whose lock a predicate on the holder names. -/
def locksHeld (s : State) (p : Holder → Bool) : List Nat :=
  (List.range 128).filter (fun g =>
    (s.gate g).kind == .lock && (match (s.gate g).holder with | some h => p h | none => false))

/-- Orphan every lock whose holder satisfies `p`; the number orphaned with it. -/
def orphanAll (s : State) (p : Holder → Bool) : State × Nat :=
  let l := locksHeld s p
  (l.foldl orphan s, l.length)

/-! ### Waiters -/

/-- Wake the waiters that satisfy `p`, in order of arrival, each with its word; the others stay. -/
def wake (s : State) (g : Nat) (p : Waiter → Bool) (word : Waiter → W64) : State :=
  let k := s.gate g
  let go := k.waiters.filter p
  let s' := s.setGate g { k with waiters := k.waiters.filter (fun w => !p w) }
  go.foldl (fun t w => deliver t w (word w)) s'

/-- Wake the counter waiters whose threshold is met. -/
def wakeCounter (s : State) (g : Nat) : State :=
  let v := (s.gate g).value
  wake s g (fun w => bits w.sv.toNat 62 0 ≤ v.toNat) (fun _ => v)

/-- Release a barrier: arrived to 0, one generation on, every waiter OK (R462). -/
def releaseBarrier (s : State) (g : Nat) : State :=
  let k := s.gate g
  let v := barrierValue (barrierParties k.value) 0 (barrierGen k.value + 1)
  wake (s.setGate g { k with value := v }) g (fun _ => true) (fun _ => plainStatus gsOk)

/-! ### Operations -/

/-- Whether a gate serves this requester: a core of its basin, or one that carries the basin's tenant (R448). -/
def gateServes (s : State) (g : Nat) (own : Option Nat) (tenant : W16) : Bool :=
  match (s.gate g).basin with
  | none => true
  | some b => own == some b || (s.basin b).tenant == tenant

/-- The gang whose barrier a gate is. -/
def barrierGang (s : State) (g : Nat) : Option Gang :=
  s.fabric.gangs.find? (fun k => k.phase == .active && k.master == s.fa && (s.gate g).basin == some k.basin)

def setGang (s : State) (k k' : Gang) : State :=
  { s with fabric := { s.fabric with gangs := s.fabric.gangs.map (fun x => if x = k then k' else x) } }

/-- A barrier as its release leaves it: nobody has arrived, one generation on (R462). -/
def releasedGate (k : Gate) : Gate := { k with value := barrierValue (barrierParties k.value) 0 (barrierGen k.value + 1), waiters := [] }

/-- A gang barrier that every party has reached is released with a release edge: the waiters of this chiplet have their results
at it, and the release is sent to every other waiter's chiplet at once; a suspended gang releases nothing (R420, R462, R463). -/
def dueBarrier (s : State) (g : Nat) : State :=
  match barrierGang s g with
  | some k =>
    if k.suspended || barrierArrived (s.gate g).value < barrierParties (s.gate g).value then s
    else
      let e := edgeIn20 s
      let l := (s.gate g).waiters
      let fas := ((l.filter (fun w => w.fa != s.fa)).map (fun w => w.fa)).eraseDups
      let s1 := fas.foldl (fun t f => t.emit (.gang f k.master k.num (.release (byte g) e))) (s.setGate g (releasedGate (s.gate g)))
      (l.filter (fun w => w.fa == s.fa)).foldl (fun t w => deliverHere t w.tag (plainStatus gsOk) (some e)) s1
  | none => s

/-- A barrier whose last party has arrived: released at once, or at the edge that a gang barrier waits for (R420, R462). -/
def arriveBarrier (s : State) (g : Nat) (w : Waiter) : State × Option W64 :=
  let k := s.gate g
  let n := barrierArrived k.value + 1
  let v := barrierValue (barrierParties k.value) n (barrierGen k.value)
  if barrierParties k.value ≤ n ∧ (barrierGang s g).isNone then
    (releaseBarrier (s.setGate g { k with value := v }) g, some (plainStatus gsOk))
  else (dueBarrier (s.setGate g { k with value := v, waiters := k.waiters ++ [w] }) g, none)

/-- The state of a lock as grd reports it (R242, R461). -/
def lockRead (g : Gate) : W64 :=
  match g.holder, g.dead with
  | _, some d => statusWord gsAcquiredOrphaned d.fa d.core d.epoch
  | some h, none => statusWord gsOk h.fa h.core h.epoch
  | none, none => plainStatus gsOk

/-- An operation of R243 takes effect at its gate: the state after it, and its result word unless it waits. -/
def gateEffect (s : State) (g : Nat) (op : Nat) (w : Waiter) : State × Option W64 :=
  let k := s.gate g
  match op, k.kind with
  | 0x00, .counter =>
    let v : W64 := BitVec.ofNat 64 ((k.value.toNat + w.sv.toNat) % 2 ^ 63)
    (wakeCounter (s.setGate g { k with value := v }) g, some k.value)
  | 0x01, .counter =>
    if bits w.sv.toNat 62 0 ≤ k.value.toNat then (s, some k.value)
    else (s.setGate g { k with waiters := k.waiters ++ [w] }, none)
  | 0x02, .lock =>
    if k.holder.isSome then (s.setGate g { k with waiters := k.waiters ++ [w] }, none)
    else let x := grantLock s.time.count k w; (s.setGate g x.1, some x.2)
  | 0x03, .lock =>
    if k.holder.isSome then (s, some (holderWord gsBusy k))
    else let x := grantLock s.time.count k w; (s.setGate g x.1, some x.2)
  | 0x04, .lock =>
    if heldBy k w then (grantNext (s.setGate g { k with holder := none }) g, some (plainStatus gsOk))
    else (s, some (holderWord gsNotOwner k))
  | 0x05, .lock =>
    if heldBy k w then
      match k.dead with
      | some d =>
        if d.epoch = BitVec.ofNat 32 w.sv.toNat then
          (s.setGate g { k with dead := none }, some (holderWord gsOk k))
        else (s, some (holderWord gsStale k))
      | none => (s, some (holderWord gsStale k))
    else (s, some (holderWord gsNotOwner k))
  | 0x06, .barrier => arriveBarrier s g w
  | 0x07, .event =>
    (wake (s.setGate g { k with value := 1 }) g (fun _ => true) (fun _ => plainStatus gsOk), some (plainStatus gsOk))
  | 0x08, .event =>
    if k.value = 0 then (s.setGate g { k with waiters := k.waiters ++ [w] }, none) else (s, some (plainStatus gsOk))
  | 0x09, .event => (s.setGate g { k with value := 0 }, some (plainStatus gsOk))
  | 0x0A, .lock => (s, some (lockRead k))
  | 0x0A, _ => (s, some k.value)
  | _, _ => (s, some (failWord op gsWrongKind))

/-- A step of basin `b` that runs gets its external-effects mark (R342). -/
def markExternal (s : State) (b : Nat) : State :=
  s.modBasin b (fun v => { v with step := v.step.map (fun k => { k with external := true }) })

/-- A requester other than a core of its basin operates on gate `g` (R342). -/
def touchGate (s : State) (g : Nat) (who : Option Nat) : State :=
  match (s.gate g).basin with
  | some b => if who = some b then s else markExternal s b
  | none => s

/-- An operation of a requester at a gate of this chiplet: the isolation check of R448, then the effect. -/
def gateOperate (s : State) (g : Nat) (op : Nat) (w : Waiter) (own : Option Nat) (tenant : W16) :
    State × Option W64 :=
  if gateServes s g own tenant then gateEffect (touchGate s g own) g op w
  else (s, some unreachableWord)

/-! ### Lost holders and outstanding operations (R455 to R458) -/

/-- The identity of a core of this chiplet. -/
def localWaiter (s : State) (n : Nat) (tag : W32) (op : Byte) (sv : W64) : Waiter :=
  { fa := s.fa, core := byte (s.logical n), life := s.life (s.logical n), session := 0, tag := tag, op := op, sv := sv }

/-- A core's life ends: its locks on this chiplet become ORPHANED and its life number rises (R455, R458); the number
of locks with it. -/
def endLife (s : State) (n : Nat) : State × Nat :=
  let l := s.logical n
  let v := s.life l
  let s' := { s with die := { s.die with lives := tput s.die.lives l (v + 1) } }
  orphanAll s' (fun h => h.fa == s.fa && h.core.toNat == l && h.life == v)

/-- A waiter of this chiplet leaves its gate; a barrier arrival is taken back if asked (R456, R457). -/
def removeWaiter (s : State) (g : Nat) (fa : W16) (tag : W32) (takeBack : Bool) : State :=
  let k := s.gate g
  let had := k.waiters.any (fun w => w.fa == fa && w.tag == tag)
  let v := if takeBack && had && k.kind == .barrier then
      barrierValue (barrierParties k.value) (barrierArrived k.value - 1) (barrierGen k.value) else k.value
  s.setGate g { k with waiters := k.waiters.filter (fun w => !(w.fa == fa && w.tag == tag)), value := v }

/-- What the chiplet keeps of an operation whose grant may still come (R454). -/
def GateOp.late (o : GateOp) : LateOp := ⟨o.tag, o.op, o.gate, o.fa, o.core, o.life, o.tenant⟩

/-- Withdraw an outstanding operation: from its gate here, or by WITHDRAW to the gate's chiplet (R456, R457). -/
def withdrawOp (s : State) (o : GateOp) (takeBack : Bool) : State :=
  if o.remote then
    let s' := control s o.fa 0x44 (leBytes 4 o.tag.toNat ++ [byte o.gate.toNat])
    { s' with gateUnit := { s'.gateUnit with late := o.late :: s'.gateUnit.late } }
  else removeWaiter s o.gate.toNat s.fa o.tag takeBack

/-- A register of a core is written; s0 discards it (R194). -/
def Core.setS (c : Core) (r : Nat) (v : W64) : Core := if r = 0 then c else { c with s := tput c.s r v }

/-- A core stops and keeps its state: a glock not yet granted is withdrawn and returns BUSY at once; every other
operation stays registered (R456). -/
def stopGates (s : State) (n : Nat) : State :=
  let go := (s.core n).gops.filter (fun o => o.op == 0x02 && o.result.isNone)
  let s' := go.foldl (fun t o => withdrawOp t o false) s
  s'.modCore n (fun c =>
    go.foldl (fun c o => { c.setS o.sd.toNat (plainStatus gsBusy) with
      gops := (c.setS o.sd.toNat (plainStatus gsBusy)).gops.filter (fun x => x.tag != o.tag) }) c)

/-- A core is reset: every operation whose result has not come is withdrawn, barrier arrivals are taken back, and the
results are discarded (R457). -/
def resetGates (s : State) (n : Nat) : State :=
  let go := (s.core n).gops.filter (fun o => o.result.isNone)
  let s' := go.foldl (fun t o => withdrawOp t o true) s
  s'.modCore n (fun c => { c with gops := [] })

end Sys2Proof.Machine
end

