-- ==== Sys2Proof/Machine/Operands.lean ====
section
/-! DEFINITION. Operand forms of the slots (R194, R198, R199, R223, R227, R234, R245, R298 to R302): registers, widths,
predicates, addresses, stream descriptors and their walks. -/

namespace Sys2Proof.Machine

/-- A register by name (R201). -/
inductive Reg where
  | s (n : Nat) | a (n : Nat) | p (n : Nat) | d (n : Nat) | t (n : Nat) | q (n : Nat)
deriving DecidableEq, Repr

/-! ### Reading captured registers (R194, R199) -/

def Snap.getS (v : Snap) (r : Nat) : W64 := if r = 0 then 0 else tget 0 v.s r
def Snap.getA (v : Snap) (r : Nat) : W32 := tget 0 v.a r
def Snap.getP (v : Snap) (r : Nat) : Bool := r == 0 || v.p.toNat.testBit r
def Snap.getD (v : Snap) (r : Nat) : BitVec 128 := tget 0 v.d r

/-- The predicate of a slot (R198, R200). -/
def Snap.pred (v : Snap) (p : Pred) : Bool := v.getP p.reg.toNat != p.inv

/-- The reserved predicate field: p0 inverted (R198). -/
def predBad (p : Pred) : Bool := p.inv && p.reg == 0

/-! ### Writing registers (R194) -/

def Core.getS (c : Core) (r : Nat) : W64 := if r = 0 then 0 else tget 0 c.s r
def Core.setA (c : Core) (r : Nat) (v : W32) : Core := { c with a := tput c.a r v }
def Core.setP (c : Core) (r : Nat) (v : Bool) : Core :=
  if r = 0 then c
  else { c with p := if v then c.p ||| BitVec.ofNat 8 (2 ^ r) else c.p &&& ~~~(BitVec.ofNat 8 (2 ^ r)) }
def Core.setD (c : Core) (r : Nat) (v : BitVec 128) : Core := { c with d := tput c.d r v }
def Core.setQ (c : Core) (r : Nat) (v : W64) : Core := { c with q := tput c.q r v }
def Core.getQ (c : Core) (r : Nat) : W64 := tget 0 c.q r
def Core.tile (c : Core) (t : Nat) : Tile := tget [] c.t t
def Core.setTile (c : Core) (t : Nat) (v : Tile) : Core := { c with t := tput c.t t v }

/-- The registers that a bundle sees: their values as it first issues, and which await a result (R199). -/
def Core.capture (c : Core) : Snap :=
  { s := c.s, a := c.a, p := c.p, d := c.d, pend := c.gops.map (fun o => o.sd.toNat) }

/-- A scalar source: the captured value, or the register itself where it awaited a result at the capture (R199). -/
def readS (v : Snap) (c : Core) (r : Nat) : W64 := if v.pend.contains r then c.getS r else v.getS r

/-! ### Widths and immediates (R227, R228) -/

/-- The integer width that W codes. -/
def widthOf (w : BitVec 2) : Nat := 8 * 2 ^ w.toNat

/-- The address of a narrow access: the address register plus eight times the signed offset, modulo 2^32 (R229). -/
def narrowAddr (v : Snap) (f : FmtL) : W32 := v.getA f.a.toNat + BitVec.ofInt 32 (8 * signed 27 f.off.toNat)

/-! ### Stream descriptors (R298 to R301) -/

def dBase (d : BitVec 128) : Nat := bits d.toNat 31 0
def dCount0 (d : BitVec 128) : Nat := bits d.toNat 41 32 + 1
def dCount1 (d : BitVec 128) : Nat := bits d.toNat 51 42 + 1
def dStride0 (d : BitVec 128) : Int := signed 8 (bits d.toNat 59 52)
def dType (d : BitVec 128) : Nat := bits d.toNat 63 60
def dStride1 (d : BitVec 128) : Int := signed 11 (bits d.toNat 74 64)
def dFlagged (d : BitVec 128) : Bool := bit d.toNat 75
def dSatst (d : BitVec 128) : Bool := bit d.toNat 76
def dFlags (d : BitVec 128) : Conds := BitVec.ofNat 6 (bits d.toNat 82 77)
def dHeld (d : BitVec 128) : Nat := bits d.toNat 84 83
def dGroup (d : BitVec 128) : Nat := bits d.toNat 98 85
def dClass (d : BitVec 128) : Nat := bits d.toNat 100 99
def dOperands (d : BitVec 128) : Nat := bits d.toNat 127 101

/-- Bits `hi` to `lo` of a descriptor replaced. -/
def dSet (d : BitVec 128) (hi lo v : Nat) : BitVec 128 :=
  let m := 2 ^ (hi + 1 - lo)
  BitVec.ofNat 128 (d.toNat - bits d.toNat hi lo * 2 ^ lo + (v % m) * 2 ^ lo)

/-- Elements of a stream (R301). -/
def dCount (d : BitVec 128) : Nat := dCount0 d * dCount1 d

/-- The element type that TYPE codes, INT8 where it is reserved (the reserved codes are rejected at issue, R300). -/
def dElem (d : BitVec 128) : EType := (EType.ofCode (dType d)).getD .int8

/-- Where element i lies, in bits from address 0 (R301). -/
def elemBitAddr (d : BitVec 128) (i : Nat) : Int :=
  let r := i / dCount0 d
  let c := i % dCount0 d
  8 * (dBase d : Int) + (c : Int) * dStride0 d * (dElem d).bits + (r : Int) * dStride1 d * 512

/-- The bounding interval of a walk in bytes: its first byte and the byte past its last (R302). -/
def walkBounds (d : BitVec 128) : Int × Int :=
  let b : Int := 8 * dBase d
  let x : Int := ((dCount0 d : Int) - 1) * dStride0 d * (dElem d).bits
  let y : Int := ((dCount1 d : Int) - 1) * dStride1 d * 512
  let lo := b + min 0 x + min 0 y
  let hi := b + max 0 x + max 0 y + (dElem d).bits
  (lo / 8, (hi + 7) / 8)

/-- A bounding interval rounded outward to granules (R210, R302). -/
def granules (lo hi : Int) : Int × Int := (lo / 256 * 256, (hi + 255) / 256 * 256)

/-- BASE breaks the alignment of its element type (R298). -/
def baseMisaligned (d : BitVec 128) : Bool := dBase d % (dElem d).align != 0

/-- One element of a stream as memory holds it; a 4-bit element takes its half of the byte (R249, R301). -/
def loadElem (m : Memory) (d : BitVec 128) (i : Nat) : Nat :=
  let p := elemBitAddr d i
  let a := (p / 8).toNat
  let w := (dElem d).bits
  if w = 4 then
    let b := (m.byteAt a).toNat
    if p % 8 = 0 then b % 16 else b / 16
  else leNat (m.read a (w / 8))

/-- One element of a stream written; a 4-bit element keeps the other half of its byte (R302). -/
def storeElemAt (m : Memory) (d : BitVec 128) (i v : Nat) : Memory :=
  let p := elemBitAddr d i
  let a := (p / 8).toNat
  let w := (dElem d).bits
  if w = 4 then
    let b := (m.byteAt a).toNat
    m.write a [BitVec.ofNat 8 (if p % 8 = 0 then b / 16 * 16 + v % 16 else b % 16 + 16 * (v % 16))]
  else m.write a (leBytes (w / 8) v)

end Sys2Proof.Machine
end

