-- ==== Sys2Proof/Machine/Settings.lean ====
section
/-! DEFINITION. The settings store (R83, R134 to R138, R554, R559): keys, the selection of a bank, the values in force, and
the record of retired segments. -/

namespace Sys2Proof.Machine

/-! ### Keys (R135, R136) -/

/-- A key of schema 0x000C: its size, its range, its default, and whether SETTINGS.SET writes it. -/
structure SettingKey where
  key : W16
  size : Nat
  lo : Nat
  hi : Nat
  dflt : Nat
  writable : Bool := true
deriving DecidableEq, Repr

def settingKeys : List SettingKey :=
  [⟨0x0001, 4, 100, 30000, 2000, true⟩, ⟨0x0010, 2, 100, 450, 450, true⟩, ⟨0x0011, 1, 0, 5, 0, true⟩,
   ⟨0x0012, 1, 1, 50, 20, true⟩, ⟨0x0013, 1, 0, 1, 1, true⟩, ⟨0x0014, 1, 60, 105, 95, true⟩,
   ⟨0x0100, 64, 0, 0, 0, false⟩]

def settingKey (k : W16) : Option SettingKey := settingKeys.find? (fun e => e.key == k)
def SettingKey.default (k : SettingKey) : List Byte := leBytes k.size k.dflt

/-- The value of a key in a set, or its default. -/
def settingIn (l : List (W16 × List Byte)) (k : SettingKey) : List Byte :=
  match l.find? (fun e => e.1 == k.key) with
  | some e => e.2
  | none => k.default

def setSetting (l : List (W16 × List Byte)) (k : W16) (v : List Byte) : List (W16 × List Byte) :=
  l.filter (fun e => e.1 != k) ++ [(k, v)]

/-- The number that a key holds in the set in force. -/
def settingValue (s : State) (k : W16) : Nat :=
  match settingKey k with
  | some e => leNat (settingIn s.settings.current e)
  | none => 0

/-- A pending value of a key, or the committed one (R136). -/
def pendingIn (s : State) (k : SettingKey) : List Byte :=
  match s.settings.pending.find? (fun e => e.1 == k.key) with
  | some e => e.2
  | none => settingIn s.settings.current k

/-! ### Banks (R134, R137, R138, R559) -/

/-- The schema of the firmware that runs; fw 4.2 has 0x000C. -/
def ownSchema (s : State) : W16 := match s.fw.image with | some i => i.schema | none => 0x000C

/-- Commit number `a` is the later one (R138). -/
def laterCommit (a b : W32) : Bool := (a - b) != 0 && (a - b).toNat < 2 ^ 31

/-- The latest of a list of banks. -/
def latestBank : List Bank → Option Bank
  | [] => none
  | b :: r => match latestBank r with
    | some c => some (if laterCommit c.commit b.commit then c else b)
    | none => some b

/-- The committed bank. -/
def committedBank (s : State) : Option Bank :=
  latestBank (s.settings.banks.filter (fun b => b.good && b.schema == ownSchema s))

/-- Its CRC-32C: the layout of a bank's contents is not given, so the value is free. -/
def freeCrc (s : State) : W32 := BitVec.ofNat 32 (Config.freeNat s.free)

def setSettings (s : State) (v : Settings) : State := { s with settings := v }

/-- A new bank of the own schema, in place of the old one; two banks exist. -/
def writeBank (s : State) (values : List (W16 × List Byte)) (commit : W32) : State :=
  let b : Bank := { schema := ownSchema s, commit := commit, good := true, crc := freeCrc s, values := values }
  let others := s.settings.banks.filter (fun o => o.schema != ownSchema s)
  { s with settings := { s.settings with banks := b :: others.take 1, current := values }, free := s.free + 1 }

/-- The commit number of the next bank. -/
def nextCommit (s : State) : W32 := match committedBank s with | some b => b.commit + 1 | none => 1

def retiredKey : W16 := 0x0100
/-- The RETIRED_SEGMENTS value of a set. -/
def retiredIn (l : List (W16 × List Byte)) : List Byte :=
  match l.find? (fun e => e.1 == retiredKey) with
  | some e => e.2
  | none => List.replicate 64 0

/-- The segments that the set in force records as retired. -/
def recordedRetired (s : State) : List Nat := bitsOf 512 (leNat (retiredIn s.settings.current))

def addRetired (k : Nat) (l : List (W16 × List Byte)) : List (W16 × List Byte) :=
  setSetting l retiredKey (leBytes 64 (leNat (retiredIn l) ||| 2 ^ k))

/-- A new retirement is recorded in each good bank, with a new CRC-32C, or in a first bank (R83, R348, R559). -/
def recordRetired (s : State) (k : Nat) : State :=
  if s.settings.banks.all (fun b => !b.good) then writeBank s (addRetired k s.settings.current) (nextCommit s)
  else
    let banks := s.settings.banks.map (fun b => if b.good then { b with values := addRetired k b.values, crc := freeCrc s } else b)
    { s with settings := { s.settings with banks := banks, current := addRetired k s.settings.current }, free := s.free + 1 }

/-! ### Selection (R138) -/

/-- Keys that a translation carries: those of the own schema. -/
def translated (l : List (W16 × List Byte)) : List (W16 × List Byte) := settingKeys.map (fun k => (k.key, settingIn l k))

/-- Firmware that starts selects its settings. -/
def selectSettings (s : State) : State :=
  let own := ownSchema s
  let good := s.settings.banks.filter (fun b => b.good)
  let st := { s.settings with pending := [], defaulted := false }
  match latestBank (good.filter (fun b => b.schema == own)) with
  | some b => setSettings s { st with banks := s.settings.banks.filter (fun o => o.schema != own || o == b), current := b.values }
  | none =>
    match latestBank (good.filter (fun b => b.schema.toNat < own.toNat)) with
    | some b =>
      let s1 := setSettings s { st with banks := [b] }
      writeBank s1 (translated b.values) (b.commit + 1)
    | none =>
      let newest := good.foldl (fun m b => max m b.schema.toNat) 0
      let kept := match good.find? (fun b => b.values.any (fun e => e.1 == retiredKey)) with
        | some b => [(retiredKey, retiredIn b.values)]
        | none => []
      event (setSettings s { st with current := kept, defaulted := true }) 0xE002 (leBytes 2 newest ++ leBytes 2 own.toNat)

/-- The values that apply at stage 2 entry (R135, R184). -/
def applySettings (s : State) : State :=
  let v := fun k => settingValue s k
  { s with head := { s.head with
      cap := v 0x0010, order := v 0x0011, ramp := v 0x0012, ditherOn := v 0x0013 != 0
      points := (List.range 72).map (fun i => (i, { tget {} s.head.points i with alert := (v 0x0014 : Int) })) } }

/-- Banks of another schema are discarded (R138, R554).  Where none is left and firmware runs on defaults with retired
segments carried over, a first bank of the own schema keeps that key, since only a cold reset clears it (R136; DESIGN CHOICE of
the moment, log 58). -/
def discardBanks (s : State) : State :=
  let s1 := setSettings s { s.settings with banks := s.settings.banks.filter (fun b => b.schema == ownSchema s) }
  if (committedBank s1).isNone && s1.settings.current.any (fun e => e.1 == retiredKey) then
    writeBank s1 s1.settings.current (nextCommit s1)
  else s1

end Sys2Proof.Machine
end

