-- ==== Sys2Proof/Machine/Reduce.lean ====
section
/-! DEFINITION. The reduction units (R359 to R364), the parity counts of segments and their retirement (R346, R348,
R349), and what happens as a segment loses power (R334, R335). -/

namespace Sys2Proof.Machine

/-! ### The value of a reduction (R359, R360) -/

/-- The add of two values of an add type; the first is of lower rank. -/
def redAdd (typ : Nat) (a b : Nat × Nat) : Nat × Nat :=
  match typ with
  | 3 => ((a.1 + b.1) % 2 ^ 32, 0)
  | 4 => (padd false a b).1
  | _ => ((fAdd .fp32 0 false a.1 b.1).1, 0)

/-- Bytes of an element of the stored granule. -/
def redStoredBytes (typ : Nat) : Nat := match typ with | 2 => 2 | 4 => 8 | _ => 4

/-- The final add into a stored element. -/
def redFinal (typ : Nat) (stored : Nat) (t : Nat × Nat) : Nat :=
  match typ with
  | 2 => (FFmt.bf16.addV 0 false (FFmt.bf16.decode stored) (FFmt.fp32.decode t.1)).1
  | 3 => (stored + t.1) % 2 ^ 32
  | 4 => let r := (padd false (stored % 2 ^ 32, stored / 2 ^ 32) t).1; r.1 + 2 ^ 32 * r.2
  | _ => (fAdd .fp32 0 false stored t.1).1

/-- The elements of an add write; a BF16 one travels as two frames of binary32 (R431). -/
def redElems (typ : Nat) (data : List Byte) : List (Nat × Nat) :=
  match typ with
  | 2 => (List.range 128).map (fun i => (fieldAt data (4 * i) 4, 0))
  | 4 => (List.range 32).map (fun i => (fieldAt data (8 * i) 4, fieldAt data (8 * i + 4) 4))
  | _ => (List.range 64).map (fun i => (fieldAt data (4 * i) 4, 0))

/-- The value of the tree node that covers the ranks `lo` to below `min (lo + 2^L) n` (R360). -/
def treeValue (typ n : Nat) (parts : List Contribution) : Nat → Nat → List (Nat × Nat)
  | 0, lo =>
    match parts.find? (fun c => c.lo == lo && c.hi == Nat.min (lo + 1) n) with
    | some c => c.elems
    | none => []
  | l + 1, lo =>
    match parts.find? (fun c => c.lo == lo && c.hi == Nat.min (lo + 2 ^ (l + 1)) n) with
    | some c => c.elems
    | none =>
      if lo + 2 ^ l < n then
        List.zipWith (redAdd typ) (treeValue typ n parts l lo) (treeValue typ n parts l (lo + 2 ^ l))
      else treeValue typ n parts l lo

/-- The granule after the final add. -/
def redGranule (typ : Nat) (stored : List Byte) (t : List (Nat × Nat)) : List Byte :=
  let w := redStoredBytes typ
  (List.range (256 / w)).flatMap (fun i => leBytes w (redFinal typ (fieldAt stored (w * i) w) (t.getD i (0, 0))))

/-! ### Outcomes of packets (R433, R434) -/

/-- PACKET_DONE for a packet of a transfer leaves. -/
def packetDone (s : State) (fa : W16) (window : Byte) (outcome : Byte) (xfer : W16) (chan : Byte) (index : W16)
    (grant : Byte) : State := flush (postDone s fa window outcome xfer chan index grant)

/-- The ranks that an add packet's header names (R361). -/
def hdrRanks (h : XferHdr) : Nat × Nat := (h.first.toNat, min (h.first.toNat + 2 ^ h.level.toNat) h.count.toNat)

/-- The packet's header is of this reduction. -/
def sameReduction (e : RedEntry) (h : XferHdr) : Bool :=
  e.window == gaWindow h.ga && e.tag == h.tag && e.typ == h.addType.toNat && e.count == h.count.toNat

/-- One granule of an add packet has ended; the packet completes with its last one (R434). -/
def AddPkt.ended (p : AddPkt) (granule : Nat) (aborted : Bool) : AddPkt :=
  { p with left := p.left.filter (· != granule), given := p.given.filter (· != granule), aborted := p.aborted || aborted }

/-- The packets that contributed to a reduction learn that it has ended; those with no granule left are answered. -/
def ackAdds (s : State) (granule : Nat) (joined : AddPkt → Bool) (aborted : Bool) : State :=
  let l := s.dma.adds.map (fun p => if joined p then p.ended granule aborted else p)
  let s1 := { s with dma := { s.dma with adds := l.filter (fun p => !p.left.isEmpty) } }
  (l.filter (fun p => p.left.isEmpty)).foldl (fun t p =>
    packetDone t p.hdr.src (byte (gaWindow p.hdr.ga)) (if p.aborted then 0x08 else 0x00) p.hdr.xfer p.hdr.chan p.hdr.index 0)
    s1

/-- A packet is a contributor of an entry: the entry holds its add write (R363). -/
def joinedEntry (e : RedEntry) (p : AddPkt) : Bool := p.given.contains e.granule && sameReduction e p.hdr

/-- The ranks of header `h` lie within those of `k`. -/
def coveredBy (h k : XferHdr) : Bool := (hdrRanks k).1 ≤ (hdrRanks h).1 && (hdrRanks h).2 ≤ (hdrRanks k).2

/-- The two headers are of one reduction and name no rank in common. -/
def apart (h k : XferHdr) : Bool := (hdrRanks h).2 ≤ (hdrRanks k).1 || (hdrRanks k).2 ≤ (hdrRanks h).1

/-- The admitted packets whose add writes to granule `a` come as one of header `h`: the packet that `h` names, or, of a partial
sum that routers have made, the packets whose ranks it covers, each rank once, in order of admission (R360, R361; DESIGN CHOICE,
log 91). -/
def broughtBy (s : State) (a : Nat) (h : XferHdr) : List XferHdr :=
  let l := (s.dma.adds.filter (fun p => p.left.contains a && !p.given.contains a)).map (fun p => p.hdr)
  if l.contains h then [h]
  else
    let same := fun (k : XferHdr) => gaWindow k.ga == gaWindow h.ga && k.tag == h.tag && k.addType == h.addType && k.count == h.count
    (l.filter (fun k => same k && coveredBy k h)).foldl (fun r k => if r.all (apart k) then r ++ [k] else r) []

/-- Their add writes have come to an entry of granule `a`. -/
def giveAdds (s : State) (a : Nat) (l : List XferHdr) : State :=
  { s with dma := { s.dma with adds := s.dma.adds.map (fun p =>
      if l.contains p.hdr && p.left.contains a then { p with given := p.given ++ [a] } else p) } }

/-- An entry leaves its unit. -/
def dropEntry (s : State) (e : RedEntry) : State := { s with dma := { s.dma with reds := s.dma.reds.erase e } }

/-- Abort of a reduction: the granule is unchanged and every contributor is refused; `cause` 1 timeout, 2 tree and
3 parity are recorded (R364, R572). -/
def abortEntry (s : State) (e : RedEntry) (cause : Option Byte) : State :=
  let s1 := ackAdds (dropEntry s e) e.granule (joinedEntry e) true
  match cause with
  | some c =>
    event s1 0xE014 ([byte (sliceOf e.granule), c, byte e.window, 0] ++ leBytes 4 e.granule)
  | none => s1

/-! ### Reduction units (R362, R363) -/

/-- The code that marks a detection of a reduction's read: its own event tells of it (R346, R364). -/
def readerReduction : Byte := 0xFF

/-- An entry that holds all its ranks is added into its granule, unless the read meets a detection (R363, R364). -/
def finishEntry (s : State) (e : RedEntry) : State :=
  match firstBad s.mem e.granule 256 with
  | some _ => abortEntry (s.noteRead none readerReduction e.granule 256) e (some 3)
  | none =>
    let t := treeValue e.typ e.count e.parts (Nat.log2 e.count + 1) 0
    let s1 := s.write e.granule (redGranule e.typ (s.mem.read e.granule 256) t)
    ackAdds (dropEntry s1 e) e.granule (joinedEntry e) false

/-- The granule address of an add write. -/
def addAddress (s : State) (w : AddWrite) : Nat := (s.window (gaWindow w.hdr.ga)).base + gaOffset w.hdr.ga + 256 * w.granule

/-- An add write is accepted into an entry (R361, R362); `none` where its unit has no entry free. -/
def acceptAdd (s : State) (w : AddWrite) : Option State :=
  let a := addAddress s w
  let h := w.hdr
  let r := hdrRanks h
  let c : Contribution := ⟨r.1, r.2, redElems h.addType.toNat w.data⟩
  let shaped := r.1 % 2 ^ h.level.toNat == 0 && r.1 < h.count.toNat
  let found := s.dma.reds.find? (fun e => e.granule == a && sameReduction e h)
  let who := broughtBy s a h
  let s0 := giveAdds s a who
  if (s.window (gaWindow h.ga)).state ≠ .opened ∨ (s.seg (segOf a)).power ≠ .on then
    some (ackAdds s0 a (fun p => who.contains p.hdr && p.given.contains a) true)
  else
    match found with
    | none =>
      if 64 ≤ (s.dma.reds.filter (fun e => sliceOf e.granule == sliceOf a)).length then none
      else
        let e : RedEntry := ⟨a, gaWindow h.ga, h.tag, h.addType.toNat, h.count.toNat, [c]⟩
        let s1 := { s0 with dma := { s0.dma with reds := s.dma.reds ++ [e] } }
        if !shaped then some (abortEntry s1 e (some 2))
        else if e.count ≤ r.2 - r.1 then some (finishEntry s1 e) else some s1
    | some e =>
      let e' := { e with parts := e.parts ++ [c] }
      let s1 := { s0 with dma := { s0.dma with reds := s.dma.reds.map (fun x => if x = e then e' else x) } }
      if !shaped || e.parts.any (fun p => p.lo < c.hi && c.lo < p.hi) then some (abortEntry s1 e' (some 2))
      else if e.count ≤ (e'.parts.map (fun p => p.hi - p.lo)).sum then some (finishEntry s1 e') else some s1

/-- The first add write that waits and can be accepted is accepted. -/
def retryOne (s : State) (l : List AddWrite) : Option State :=
  l.findSome? (fun w => acceptAdd { s with dma := { s.dma with redWait := s.dma.redWait.erase w } } w)

def retryLoop : Nat → State → State
  | 0, s => s
  | n + 1, s => match retryOne s s.dma.redWait with
    | some t => retryLoop n t
    | none => s

/-- The add writes that wait are tried again, in order of arrival, until none of them can be accepted (R362). -/
def retryAdds (s : State) : State := retryLoop s.dma.redWait.length s

/-- Abort every reduction that satisfies `p`, with no entry in the ledger; what waited for an entry goes on (R362, R364). -/
def abortReds (s : State) (p : RedEntry → Bool) : State :=
  retryAdds ((s.dma.reds.filter p).foldl (fun t e => abortEntry t e none) s)

/-! ### Segments that lose power, and retirement (R334, R335, R348, R349) -/

/-- Some core has an access in flight that has passed its check and touches segment `k`, or a write through a window that was
admitted is coming in (R212, R335, R425). -/
def accessed (s : State) (k : Nat) : Bool :=
  (List.range 64).any (fun n => (s.core n).sb.any (fun e => (segsOf e.lo e.hi).contains k))
  || (List.range 20).any (fun q => (s.port q).incoming.any (fun e => match e.2.st with
      | .write h at_ _ live => live && (segsOf at_ (at_ + 256 * h.granules.toNat)).contains k
      | _ => false))

/-- A segment is powered off: later checks find it OFF, its FILLED mark and its contents are lost, and reductions into it are
aborted.  While accesses that have passed their check are in flight its contents stay for them (R335): no other access reaches
them, and they are lost as the segment wakes. -/
def segOff (s : State) (k : Nat) : State :=
  let s1 := s.modSeg k (fun g => { g with power := .off, filled := false })
  abortReds (if accessed s k then s1 else s1.forget (0x100000 * k) 0x100000) (fun e => segOf e.granule == k)

/-- A segment is retired, and powered off at once if no basin owns it. -/
def retireSeg (s : State) (k : Nat) : State :=
  let o := (s.seg k).owner
  let s1 := event (recordRetired (s.modSeg k (fun g => { g with retired := true })) k) 0xE013 (leBytes 2 k ++ [byte (match o with | some b => b % 32 | none => 0xFF)])
  if o.isNone then segOff s1 k else abortReds s1 (fun e => segOf e.granule == k)

/-- The AON time that three counted detections fit in: 3,600 s (R348). -/
def hitWindow : Nat := 3600000000000

/-- A word that has been found to fail its parity fails it until it is written: in which bits it differs from what was written,
its parity bits among them, is open, so its contents and the difference are free values (R338, R345; DESIGN CHOICE, log 81). -/
def upset (s : State) (w : Nat) : State :=
  if s.mem.fails w then s
  else
    let x := s.fresh
    let s1 := x.2.forget w 4
    s1.setMem { s1.mem with flips := tput s1.mem.flips w (BitVec.ofNat 2 (1 + x.1 % 3)) }

/-- A detection at word `w` counts, and the third within the hour retires the segment (R337, R348). -/
def countHit (s : State) (w : Nat) : State :=
  let k := segOf w
  let g := s.seg k
  let again := g.hits.head?.any (fun h => h.1 == w) && s.mem.fails w
  let s0 := upset s w
  if !g.filled || again then s0
  else
    let now := s.time.elapsed
    let l := (w, now) :: g.hits.filter (fun h => now < h.2 + hitWindow)
    let s1 := s0.modSeg k (fun g => { g with hits := l })
    if 3 ≤ l.length ∧ !g.retired then retireSeg s1 k else s1

end Sys2Proof.Machine
end

