-- ==== Sys2Proof/Machine/Channels.lean ====
section
/-! DEFINITION. The cluster DMA channels: the packets of a transfer, its completion with the gate increment, and its cancellation
(R428 to R431, R435, R436, R439, R441). -/

namespace Sys2Proof.Machine

/-! ### Packets of a transfer (R431) -/

/-- The transfer adds into its destination (R429). -/
def Transfer.isAdd (t : Transfer) : Bool := t.kind != 0
/-- Destination bytes that one packet covers. -/
def Transfer.unit (t : Transfer) : Nat := if t.kind = 2 then 0x4000 else 0x8000
def Transfer.packets (t : Transfer) : Nat := (t.len + t.unit - 1) / t.unit
def Transfer.bytesOf (t : Transfer) (k : Nat) : Nat := min t.unit (t.len - t.unit * k)

/-- BF16 elements widened exactly to binary32 (R431). -/
def widenBf16 : List Byte → List Byte
  | a :: b :: r => 0 :: 0 :: a :: b :: widenBf16 r
  | _ => []

/-- The data of packet `k` as the channel reads them into its buffer (R428, R431). -/
def readPacket (m : Memory) (t : Transfer) (k : Nat) : List Byte :=
  let d := m.read (t.laddr + t.unit * k) (t.bytesOf k)
  if t.kind = 2 then widenBf16 d else d

/-- Data frames that a packet's header counts. -/
def Transfer.frames (t : Transfer) (k : Nat) : Nat := t.bytesOf k / 256 * (if t.kind = 2 then 2 else 1)

/-- The content of the header frame of packet `k` from byte 16 (R431). -/
def xferContent (t : Transfer) (chan k : Nat) : List Byte :=
  leBytes 8 (t.ga.toNat + t.unit * k) ++ leBytes 2 t.xfer.toNat ++ [byte chan, byte (t.frames k)] ++ leBytes 2 k
    ++ (if t.isAdd then [t.kind, 0] ++ leBytes 2 t.tag.toNat ++ [0, 0] ++ leBytes 4 t.rank.toNat ++ leBytes 4 t.count.toNat
        else List.replicate 14 0)

/-- Packet `k` as it leaves: type 5 write, 6 add, 7 read request (R377). -/
def xferPacket (s : State) (t : Transfer) (chan k : Nat) : Packet :=
  let d := (t.buffer.find? (fun e => e.1 == k)).elim [] (fun e => e.2)
  let frames := if t.toRemote then chunks 256 (t.frames k) d else []
  { hdr := { dst := gaFa t.ga, src := s.fa, tenant := t.tenant
             typ := if !t.toRemote then 7 else if t.isAdd then 6 else 5
             nData := byte frames.length, hops := 0, flags := 0 }
    content := xferContent t chan k, data := frames }

/-! ### Completion (R245, R428, R435, R436) -/

/-- The posting core's scoreboard entry of channel `c` may retire (R212). -/
def retireDma (s : State) (c : Nat) (node : Option Nat) : State :=
  match node with
  | some n => s.modCore n (fun k => { k with sb := k.sb.map (fun (e : SbEntry) =>
      if e.use == EntryUse.dma c then { e with use := .done } else e) })
  | none => s

/-- An addition to a counter gate on behalf of a basin's channel; a gate on another chiplet is reached by a remote gate
operation (R430, R435, R448). -/
def gateIncrement (s : State) (fa : W16) (g : BitVec 7) (basin : Nat) (tenant : W16) (byCommand : Bool) (v : W64) :
    State :=
  let w : Waiter := { fa := s.fa, core := 0, life := 0, session := s.fabric.session, tag := 0, op := 0, sv := v }
  if fa = s.fa then (gateOperate s g.toNat 0 w (if byCommand then none else some basin) tenant).1
  else if !reachable s fa then s
  else
    let tag := s.gateUnit.tag + 1
    let s1 := { s with gateUnit := { s.gateUnit with tag := tag } }
    s1.send (packet s1 fa tenant 3 ([0, byte g.toNat, 0, 0] ++ leBytes 8 v.toNat ++ [0, 0, 0, 0]
      ++ leBytes 4 s.fabric.session.toNat ++ leBytes 4 tag.toNat))

/-- The background status of a DMA.POST (R436). -/
def dmaStatus (cause : Byte) : W16 :=
  if cause = 0 then stOk else if cause = dcUnreachable ∨ cause = dcLost then stUnreachable else stConflict

/-- CREDIT_RELEASE for the credits that a transfer holds (R433). -/
def releaseCredits (s : State) (c : Nat) (t : Transfer) : State :=
  if t.credits = 0 then s
  else control s (gaFa t.ga) 0x23 ([byte (gaWindow t.ga), byte t.credits] ++ leBytes 2 t.xfer.toNat ++ [byte c])

/-- A transfer ends with `cause` (0 success): its credits return, the gate is incremented, the cause of a failure is
kept, and a DMA.POST gets its background entry (R435, R436). -/
def endTransfer (s : State) (c : Nat) (t : Transfer) (cause : Byte) : State :=
  let s1 := releaseCredits s c t
  let k := s1.chan c
  let k1 : Channel := { k with xfer := none }
  let s2 := s1.setChan c (if cause = 0 then k1 else { k1 with cause := cause, causeXfer := t.xfer })
  let s3 := retireDma s2 c t.node
  let v : W64 := if cause = 0 then 0x1 else 0x100000001
  let s4 := match t.gate with
    | some g => gateIncrement s3 g.1 g.2 t.basin t.tenant t.origin.isSome v
    | none => s3
  match t.origin with
  | some o => background s4 o (dmaStatus cause) t.detail
  | none => s4

/-- No outcome has come yet for a packet that was sent. -/
def PktState.outstanding : PktState → Bool
  | .sent | .dataIn => true
  | _ => false

/-- The transfer ends if every packet has succeeded, or one has failed and none is outstanding (R435); what comes while it
is suspended is kept until the release (R443). -/
def settle (s : State) (c : Nat) : State :=
  match (s.chan c).xfer with
  | none => s
  | some t =>
    if t.suspended then s
    else if t.cause != 0 then (if t.pkts.any PktState.outstanding then s else endTransfer s c t t.cause)
    else if t.pkts.all (fun p => p == .ok) then endTransfer s c t 0 else s

def setXfer (s : State) (c : Nat) (t : Transfer) : State := s.setChan c { s.chan c with xfer := some t }

/-! ### Cancellation (R63, R441) -/

/-- A reset cancels a basin's transfers, or those that one core posted: credits return and no gate is incremented; a
DMA.POST ends with ST_CONFLICT in the background (R63, R441). -/
def cancelChannels (s : State) (p : Transfer → Bool) : State :=
  (List.range 32).foldl (fun t c =>
    match (t.chan c).xfer with
    | some x =>
      if p x then
        let t1 := (releaseCredits t c x).setChan c { t.chan c with xfer := none }
        match x.origin with
        | some o => background t1 o stConflict x.detail
        | none => t1
      else t
    | none => t) s

end Sys2Proof.Machine
end

