-- ==== Sys2Proof/Machine/Parity.lean ====
section
/-! DEFINITION. The start and the reset of cores, the reset of a basin, steps, and what a parity detection does (R60, R63, R64,
R66, R207, R217, R218, R339 to R349, R441, R455 to R458). -/

namespace Sys2Proof.Machine

/-! ### Start (R207, R217, R218) -/

/-- What the core keeps that is not its state: operand-cache contents and the number of its next vector operation. -/
def blankCore (c : Core) : Core := { ({} : Core) with cache := c.cache, vNext := c.vNext }

/-- The entry point of a basin's image. -/
def entryOf (s : State) (b : Nat) : BitVec 14 := match (s.basin b).image with | some i => i.entry | none => 0

/-- A core starts at the entry point of its basin's image (R218); gate operations that an earlier run left are treated as
at a reset (DEDUCED, log 42). -/
def startCore (s : State) (b n : Nat) (arg : W64) : State :=
  let s1 := resetGates s n
  (s1.modCore n (fun c => { blankCore c with run := .running, pc := entryOf s b, s := [(1, arg), (2, identity s n)] })).modBasin
    b (fun v => { v with preferNow := v.prefer })

/-! ### Reset (R60, R62, R63, R66, R455, R457) -/

/-- A core's architectural state and scoreboard are cleared; its operations are withdrawn, its life ends, and the transfers
that it posted are cancelled (R62, R63, R441, R455, R457); a suspended transfer belongs to a seized basin, whoever has the node
now (R443). -/
def resetCore (s : State) (n : Nat) : State :=
  let s1 := resetGates s n
  let s2 := s1.modCore n (fun c => { blankCore c with stalls := c.stalls })
  cancelChannels (endLife s2 n).1 (fun t => t.node == some n && !t.suspended)

/-- RESET in the ledger: its kind, its cause, and the object (R66, R572). -/
def resetEvent (s : State) (kind cause : Nat) (what : Nat) : State :=
  event s 0xE001 [byte kind, byte cause, byte what, 0]

/-- A node that has a core: not fused off, and good at the self-test (R85, R86). -/
def hasCore (s : State) (n : Nat) : Bool := s.node n == .good || s.node n == .faulted

/-- A basin reset: every core of the rectangle idle without state, the basin's transfers cancelled, its step over; its
segments and windows are kept (R60, R62, R63, R66, R340). -/
def basinReset (s : State) (b : Nat) (cause : Nat) : State :=
  let l := if (s.basin b).state = .active then (s.basin b).rect.nodes.filter (hasCore s) else []
  let s1 := l.foldl resetCore s
  let s2 := cancelChannels s1 (fun t => t.basin == b)
  resetEvent (s2.modBasin b (fun v => { v with step := none, rerunMark := false })) 3 cause b

/-! ### Steps (R340 to R342) -/

/-- The gates assigned to a basin. -/
def gatesOf (s : State) (b : Nat) : List Nat := (List.range 128).filter (fun g => (s.gate g).basin == some b)

/-- A step begins: `all` says that the start named every core with a zero mask while every core was idle (R340, R341). -/
def beginStep (s : State) (b : Nat) (arg : W64) (cores : List Nat) (all : Bool) : State :=
  s.modBasin b (fun v => { v with
    arg := arg
    step := some { canRerun := all, arg := arg, gates := if all then (gatesOf s b).map (fun g => (g, s.gate g)) else []
                   cores := cores } })

/-- A gate as the step recorded it: no waiters, its epoch counting on, and a lease that starts again (R344). -/
def restoreGate (s : State) (g : Nat) (k : Gate) : State :=
  s.setGate g { k with waiters := [], epoch := (s.gate g).epoch, holder := k.holder.map (fun h => { h with since := s.time.count }) }

/-- The cores of basin `b` stop for a re-run, and their state is not saved (R344, R457). -/
def stopStep (s : State) (b : Nat) : State :=
  (basinCores s b).foldl (fun t n => (resetGates t n).modCore n (fun c => { blankCore c with stalls := c.stalls })) s

/-- The gates of basin `b` are restored, and every core starts at the entry point with the recorded argument (R344). -/
def restartStep (s : State) (b : Nat) (k : Step) : State :=
  let l := basinCores s b
  let s1 := (k.gates.filter (fun e => (s.gate e.1).basin == some b)).foldl (fun t e => restoreGate t e.1 e.2) s
  let s2 := l.foldl (fun t n => startCore t b n k.arg) s1
  s2.modBasin b (fun v => { v with step := some { k with rerun := true, cores := l } })

/-- The step of basin `b` is run again; in a pause the loader stops its cores, and the rest waits for the new image (R344, R551). -/
def rerunStep (s : State) (b : Nat) (k : Step) : State :=
  let s1 := stopStep s b
  if inPause s then { s1 with fw := { s1.fw with reruns := s1.fw.reruns ++ [b] } } else restartStep s1 b k

/-! ### Parity detections (R339, R344 to R349) -/

/-- Basin `b` is being seized (R68). -/
def seizing (s : State) (b : Nat) : Bool := s.seize.any (fun z => z.basin == b)

/-- PARITY_RERUN or PARITY_ESCALATE in the ledger (R572). -/
def parityEvent (s : State) (code : W16) (w : Nat) (b : Nat) (more : Byte) : State :=
  event s code (leBytes 2 (segOf w) ++ leBytes 4 (w % 0x100000) ++ [byte b, more])

/-- A detection in a retired segment that a basin owns escalates, whoever read (R349). -/
def retiredOwner (s : State) (w : Nat) : Option Nat := if (s.seg (segOf w)).retired then (s.seg (segOf w)).owner.filter (· < 32) else none

/-- An escalation: a basin reset, or the saved state void while the basin is being seized or is seized (R345, R347). -/
def escalate (s : State) (w b : Nat) (reason : Byte) : State :=
  if seizing s b || (s.basin b).state == .seized then
    parityEvent (s.modBasin b (fun v => { v with savedVoid := true })) 0xE011 w b 5
  else basinReset (parityEvent s 0xE011 w b reason) b 3

/-- A detection by an access of a core of basin `b` in its step (R344, R345, R347). -/
def stepDetection (s : State) (w b : Nat) (k : Step) : State :=
  if !k.canRerun then escalate s w b 1
  else if k.external then escalate s w b 2
  else if k.rerun then escalate s w b 3
  else if seizing s b || (s.basin b).state == .seized then
    parityEvent (s.modBasin b (fun v => { v with rerunMark := true })) 0xE010 w b 0
  else rerunStep (parityEvent s 0xE010 w b 0) b k

/-- What an image does once a pause ends: the entries that waited are appended, and the re-runs that the loader began go on, but for
a basin whose step has ended; one that was seized meanwhile is run again at its release (R347, R551). -/
def resumeReruns (s : State) : State :=
  s.fw.reruns.foldl (fun t b =>
    match (t.basin b).step with
    | none => t
    | some k =>
      if seizing t b || (t.basin b).state == .seized then t.modBasin b (fun v => { v with rerunMark := true })
      else restartStep t b k) (flushWaiting { s with fw := { s.fw with reruns := [] } })

/-- A detection at word `w`: `basin` is that of the reading core, `reader` the code of another reader; outside a step it is
recorded, a core's with code 0; one of a reduction has its own record (R344 to R349; DESIGN CHOICE, log 43). -/
def detect (s : State) (w : Nat) (b : Option Nat) (code : Byte) : State :=
  let s1 :=
    if code = readerReduction then (match retiredOwner s w with | some o => escalate s w o 4 | none => s)
    else match retiredOwner s w, b with
    | some o, _ => escalate s w o 4
    | none, some b =>
      match (s.basin b).step with
      | some k => stepDetection s w b k
      | none => event s 0xE012 (leBytes 2 (segOf w) ++ leBytes 4 (w % 0x100000) ++ [0])
    | none, none => event s 0xE012 (leBytes 2 (segOf w) ++ leBytes 4 (w % 0x100000) ++ [code])
  countHit s1 w

/-- The chiplet acts on what the reads of a row have detected, once the row has had its effect (R344; DESIGN CHOICE, log 81). -/
def settleReads (s : State) : State :=
  s.store.found.foldl (fun t f => detect t f.word f.basin f.code) { s with store := { s.store with found := [] } }

/-- PARITY_DETECTION (R339). -/
def execParityDetection (addr : W32) (reader : Reader) (s : State) : Res :=
  let w := addr.toNat / 4 * 4
  .next (match reader with
    | .core n => detect s w (homeOf s n) 0
    | .steward => detect s w none 1
    | .inMemory => detect s w none 2
    | .dma => detect s w none 3
    | .window => detect s w none 4
    | .debug => detect s w none 5)

end Sys2Proof.Machine
end

