-- ==== Sys2Proof/Machine/Issue.lean ====
section
/-! DEFINITION. The issue of a bundle (R199 to R206, R210 to R215, R288, R289): what an operation declares, the checks
before any slot issues, the holds that split a bundle, and the end of a bundle. -/

namespace Sys2Proof.Machine

/-- What holds issue, in the order of the stall counters (R202, R217). -/
inductive Stall where
  | register | range | entries | fetch | gate | matrix
deriving DecidableEq, Repr

/-- A range that an operation declares (R210): bytes, whether it writes, the alignment asked and the address that a
misalignment reports. -/
structure RangeReq where
  lo : Int
  hi : Int
  write : Bool
  align : Nat := 1
  at_ : Int
deriving DecidableEq, Repr

/-- Where an operation finds itself: its node, its slot in slot order, the captured registers, the bundle's index, and
its place in a lattice. -/
structure Ctx where
  node : Nat
  slot : Nat
  snap : Snap
  pc : BitVec 14
  lattice : Bool
  master : Bool

/-- On which cores of a lattice an operation runs (R289): on each by its own predicate, on each by the master's, or on
the master alone. -/
inductive Scope where
  | each | led | master
deriving DecidableEq, Repr

/-- One slot operation: what it declares and what it does.  An operation of a slot row and the same operation in a
fetched bundle are one value of this type. -/
structure Op where
  /-- a reserved encoding (R12, R223, R225, R604) -/
  bad : Ctx → State → Bool := fun _ _ => false
  /-- the registers that it names as destinations (R201) -/
  dests : List Reg := []
  /-- the scalar registers that it reads -/
  srcs : List Nat := []
  /-- the scalar registers that its checks need before any slot issues -/
  checkSrcs : List Nat := []
  /-- the summary register that it reads (R195) -/
  qsrc : Option Nat := none
  /-- a length that breaks R245, with the address that the record names -/
  badLength : Ctx → State → Option W32 := fun _ _ => none
  /-- the ranges that it declares (R210) -/
  ranges : Ctx → State → List RangeReq := fun _ _ => []
  /-- what keeps its entries in flight (R212) -/
  use : Ctx → State → EntryUse := fun _ _ => .done
  /-- it touches the scratchpad, so ACQUIRE orders it (R214) -/
  touches : Bool := false
  /-- what else holds its issue (R202) -/
  hold : Ctx → State → Option Stall := fun _ _ => none
  /-- the memory operands that it stages before it issues: address and length (R276) -/
  stage : Ctx → State → List (Nat × Nat) := fun _ _ => []
  /-- the address registers of a strip (R277) -/
  aregs : List Nat := []
  scope : Scope := .each
  /-- its effect at issue -/
  eff : Ctx → State → State

/-- A slot of a bundle: its place in slot order, its predicate and its operation. -/
structure Item where
  slot : Nat
  pred : Pred
  op : Op

/-! ### Fault causes (R562) -/

def fcNoImage : Byte := 0x01
def fcBadEncoding : Byte := 0x02
def fcDualWrite : Byte := 0x03
def fcSegForeign : Byte := 0x04
def fcSegOff : Byte := 0x05
def fcMisaligned : Byte := 0x06
def fcStateParity : Byte := 0x11
def fcOperandLink : Byte := 0x12
def fcEngineCheck : Byte := 0x13
def fcStoreParity : Byte := 0x14

/-- A bundle's fault on one core: the cause, the slot and the address of the record (R562, R563). -/
structure BundleFault where
  cause : Byte
  slot : Nat
  addr : W32
deriving DecidableEq, Repr

/-! ### Checks before any slot issues (R201, R215, R562) -/

/-- Some register that two slots name as their destination: the later of the first such two slots (R201, R562). -/
def dualWrite : List Item → Option Nat
  | [] => none
  | i :: r =>
    match r.find? (fun j => j.op.dests.any (fun d => i.op.dests.contains d)) with
    | some j => some j.slot
    | none => dualWrite r

/-- The first failing check of one range, in the order of R215; the segments are those of the basin of node `n`. -/
def rangeFault (s : State) (n : Nat) (r : RangeReq) : Option (Byte × W32) :=
  if r.hi ≤ r.lo then none
  else
    let lo := r.lo.toNat
    let hi := r.hi.toNat
    if r.lo < 0 ∨ Memory.size < r.hi then some (fcSegForeign, BitVec.ofInt 32 r.at_)
    else
      match (segsOf lo hi).find? (fun k => (s.seg k).owner != basinOf s n || (s.seg k).owner.isNone) with
      | some k => some (fcSegForeign, BitVec.ofNat 32 (max lo (0x100000 * k)))
      | none =>
        match (segsOf lo hi).find? (fun k => (s.seg k).power != .on) with
        | some k => some (fcSegOff, BitVec.ofNat 32 (max lo (0x100000 * k)))
        | none => if r.at_ % r.align = 0 then none else some (fcMisaligned, BitVec.ofInt 32 r.at_)

/-- The first failing address check of one slot: a length that breaks R245, and else over all its ranges the checks in
the order of R215 (R562). -/
def addressFault (s : State) (x : Ctx) (op : Op) : Option (Byte × W32) :=
  match op.badLength x s with
  | some a => some (fcMisaligned, a)
  | none =>
    let fs := (op.ranges x s).filterMap (rangeFault s x.node)
    [fcSegForeign, fcSegOff, fcMisaligned].findSome? (fun k => fs.find? (fun f => f.1 == k))

/-- The context of a slot on a node. -/
def ctxOf (s : State) (m n slot : Nat) (v : Snap) (pc : BitVec 14) : Ctx :=
  { node := n, slot := slot, snap := v, pc := pc, master := n == m
    lattice := (match basinOf s n with | some b => (s.basin b).lattice | none => false) }

/-- The captured registers of a core in this bundle. -/
def capturedOf (s : State) (n : Nat) : Snap :=
  match (s.core n).held with
  | some h => h.snap
  | none => (s.core n).capture

/-- The cores on which a slot acts (R200, R289). -/
def actors (s : State) (m : Nat) (ns : List Nat) (i : Item) : List Nat :=
  match i.op.scope with
  | .each => ns.filter (fun n => (capturedOf s n).pred i.pred)
  | .led => if (capturedOf s m).pred i.pred then ns else []
  | .master => if (capturedOf s m).pred i.pred then [m] else []

/-- The fault that the checks of R201 find on node `n`, in the order of R562. -/
def checkNode (s : State) (m : Nat) (ns : List Nat) (pc : BitVec 14) (n : Nat) (l : List Item) : Option BundleFault :=
  let ctx := fun (i : Item) => ctxOf s m n i.slot (capturedOf s n) pc
  match l.find? (fun i => predBad i.pred || i.op.bad (ctx i) s) with
  | some i => some ⟨fcBadEncoding, i.slot, 0⟩
  | none =>
    match dualWrite l with
    | some k => some ⟨fcDualWrite, k, 0⟩
    | none =>
      l.findSome? (fun i =>
        if (actors s m ns i).contains n then
          (addressFault s (ctx i) i.op).map (fun f => ⟨f.1, i.slot, f.2⟩)
        else none)

/-! ### Stops on a fault (R203, R295, R562 to R564) -/

/-- The step of node `n`'s basin ends (R340). -/
def endStepOf (s : State) (n : Nat) : State :=
  match basinOf s n with
  | some b => s.modBasin b (fun v => { v with step := none, rerunMark := false })
  | none => s

/-- Good cores now (R567). -/
def goodCount (s : State) : Nat := ((List.range 64).filter (goodNode s)).length

/-- A core stops on a fault with its record; its glocks are withdrawn, its locks become ORPHANED, the step of its basin
ends, and CORE_FAULT is appended (R203, R340, R456, R458, R563, R573). -/
def faultCore (s : State) (n : Nat) (f : BundleFault) (flags : Byte) (pc : BitVec 14) : State :=
  let r : FaultRec := ⟨f.cause, byte f.slot, flags, pc, f.addr, BitVec.ofNat 32 s.time.count.toNat⟩
  let b := (basinOf s n).getD 0xFF
  let s1 := s.modCore n (fun c => { c with run := .faulted, fault := some r, held := none, staged := [], miss := none,
                                           edge := false })
  let s2 := (endLife (stopGates s1 n) n).1
  event (endStepOf s2 n) 0xE003
    [f.cause, byte n, byte b, byte f.slot, byte pc.toNat, byte (pc.toNat / 256), byte (s.logical n), 0]

/-- A core of a lattice stops with its state held, because another core faulted (R295). -/
def holdCore (s : State) (n : Nat) : State :=
  stopGates (s.modCore n (fun c => { c with run := .stopped, held := none, staged := [], miss := none, edge := false })) n

/-- A bundle faults: each core that finds a fault stops on it, and every other core of a lattice stops with its state
held (R203, R295). -/
def faultBundle (s : State) (ns : List Nat) (pc : BitVec 14) (fs : List (Nat × BundleFault)) : State :=
  ns.foldl (fun t n =>
    match fs.find? (fun e => e.1 == n) with
    | some e => faultCore t n e.2 0x02 pc
    | none => holdCore t n) s

/-! ### Holds (R199, R202, R211, R214) -/

def countStall (k : Stall) (c : Core) : Core :=
  let up := fun (v : W32) => if v = 0xFFFFFFFF then v else v + 1
  let t := c.stalls
  { c with stalls :=
      match k with
      | .register => { t with register := up t.register }
      | .range => { t with range := up t.range }
      | .entries => { t with entries := up t.entries }
      | .fetch => { t with fetch := up t.fetch }
      | .gate => { t with gate := up t.gate }
      | .matrix => { t with matrix := up t.matrix } }

def countSplit (c : Core) : Core :=
  { c with stalls := { c.stalls with
      splits := if c.stalls.splits = 0xFFFFFFFF then c.stalls.splits else c.stalls.splits + 1 } }

/-- A scalar register still awaits the result of a gate operation that issued before this bundle. -/
def awaits (v : Snap) (c : Core) (r : Nat) : Bool :=
  r != 0 && v.pend.contains r && c.gops.any (fun o => o.sd.toNat == r)

/-- A destination that awaits an older result (R199). -/
def destAwaits (v : Snap) (c : Core) (d : Reg) : Bool :=
  match d with
  | .s r => awaits v c r
  | .q r => bit c.qPend.toNat r
  | _ => false

/-- A range as a scoreboard entry, rounded outward to granules (R210). -/
def RangeReq.entry (r : RangeReq) (u : EntryUse) : SbEntry :=
  let g := granules r.lo r.hi
  ⟨g.1.toNat, g.2.toNat, r.write, u⟩

/-- Two ranges conflict: their granules overlap and one of them is a write (R211). -/
def conflicts (a b : SbEntry) : Bool := a.lo < b.hi && b.lo < a.hi && (a.write || b.write)

/-- What holds a slot on one core (R202): a register, a summary, a gate's ordering, a range, entries, and what the
operation adds. -/
def slotHold (s : State) (x : Ctx) (op : Op) : Option Stall :=
  let c := s.core x.node
  let es := (op.ranges x s).map (fun r => r.entry .done)
  if op.srcs.any (awaits x.snap c) || op.dests.any (destAwaits x.snap c) then some .register
  else if (match op.qsrc with | some q => bit c.qPend.toNat q | none => false) then some .register
  else if op.touches && c.gops.any (fun o => o.acquire) then some .gate
  else if es.any (fun e => c.sb.any (conflicts e)) then some .range
  else if 32 < c.sb.length + es.length then some .entries
  else op.hold x s

/-! ### Issuing slots -/

/-- One slot issues on one core: its entries are taken and its effect happens. -/
def issueSlot (s : State) (x : Ctx) (op : Op) : State :=
  let u := op.use x s
  let es := (op.ranges x s).map (fun r => r.entry u)
  op.eff x (s.modCore x.node (fun c => { c with sb := c.sb ++ es }))

/-- The slots of a bundle issue in slot order up to the first that some core holds (R202, R288): the state, the slots
issued, and the hold. -/
def issueSlots (m : Nat) (ns : List Nat) (pc : BitVec 14) : List Item → State → Byte →
    State × Byte × Option (Nat × Stall)
  | [], s, k => (s, k, none)
  | i :: r, s, k =>
    let ctx := fun n => ctxOf s m n i.slot (capturedOf s n) pc
    let act := actors s m ns i
    match act.findSome? (fun n => (slotHold s (ctx n) i.op).map (fun h => (n, h))) with
    | some h => (s, k, some h)
    | none =>
      issueSlots m ns pc r (act.foldl (fun t n => issueSlot t (ctxOf t m n i.slot (capturedOf t n) pc) i.op) s)
        (k ||| BitVec.ofNat 8 (2 ^ (i.slot - 1)))

/-! ### The end of a bundle (R204 to R206) -/

/-- Where a loop level sends the program counter after bundle `pc`: the level afterwards, and the start if it goes
back (R205). -/
def loopEnd (l : LoopReg) (pc : BitVec 14) : LoopReg × Option (BitVec 14) :=
  if l.count = 0 ∨ l.stop ≠ pc then (l, none)
  else if l.count = 1 then ({ l with count := 0 }, none)
  else ({ l with count := l.count - 1 }, some l.start)

/-- The core after its bundle has issued in full: a taken branch wins and changes no count; else lc1, and lc0 only when
lc1 falls through (R204 to R206). -/
def nextBundle (c : Core) (branch : Option (BitVec 14)) : Core :=
  match branch with
  | some t => { c with pc := t }
  | none =>
    let x := loopEnd c.lc1 c.pc
    match x.2 with
    | some t => { c with lc1 := x.1, pc := t }
    | none =>
      let y := loopEnd c.lc0 c.pc
      { c with lc1 := x.1, lc0 := y.1, pc := y.2.getD (c.pc + 1) }

/-- The entries of a strip retire in the core cycle of its issue (R278). -/
def retireStrip (c : Core) : Core := { c with sb := c.sb.filter (fun e => e.use != .instant) }

/-- The bundle has issued in full: the captured operands are dropped and the program counter moves on.  Of what the cores of the
group have staged, only the strip of the bundle that is next at the head is kept (R276, R277; the group's program counter is
that of its master, R288); a single step (R189) halts, which discards it (R280). -/
def finishBundle (s : State) (m : Nat) (ns : List Nat) : State :=
  let pc := (s.core m).pc
  let b := (s.core m).held.bind (fun h => h.branch)
  let s1 := ns.foldl (fun t n => t.modCore n (fun c => { retireStrip c with held := none })) s
  if (s1.core m).run = .running then
    let s2 := s1.modCore m (fun c => nextBundle c b)
    let next := (s2.core m).pc
    if (s2.core m).stepping then
      ns.foldl (fun t n => stopGates (t.modCore n (fun c => { c with run := .halted, stepping := false, staged := [] })) n) s2
    else ns.foldl (fun t n => t.modCore n (fun c => { c with staged := c.staged.filter (fun g => g.pc != pc && g.pc == next) })) s2
  else ns.foldl (fun t n => t.modCore n (fun c => { c with staged := [] })) s1

/-- The parts of a bundle issue as far as nothing holds them; a hold leaves a split (R202, R220). -/
def issueParts (s : State) (m : Nat) (ns : List Nat) (pc : BitVec 14) (l : List Item) (done : Byte) : State :=
  match issueSlots m ns pc (l.filter (fun i => !bit done.toNat (i.slot - 1))) s done with
  | (t, _, none) => settleReads (finishBundle t m ns)
  | (t, k, some (n, h)) =>
    let t1 := t.modCore n (countStall h)
    let t2 := if k ≠ done then t1.modCore m countSplit else t1
    settleReads (ns.foldl (fun t n => t.modCore n (fun c =>
      { retireStrip c with held := c.held.map (fun h => { h with issued := k }) })) t2)

/-- A core leads an instruction stream: no stop is latched (R511), it runs, and in a lattice it is the master (R288). -/
def leads (s : State) (n : Nat) : Bool :=
  !stopped s && (s.core n).run == .running
  && (match basinOf s n with | some b => !(s.basin b).lattice || (s.basin b).master == n | none => false)

/-- A core may issue: it leads a stream, and is not held at an edge, a fetch or a refill. -/
def mayIssue (s : State) (n : Nat) : Bool :=
  let c := s.core n
  leads s n && !c.edge && c.miss.isNone && !c.refill

/-- A stream that may not issue: the wait of an edge counts as a gate-ordering stall, a missing line as a fetch miss (R217,
R246). -/
def countWait (s : State) (n : Nat) : State :=
  let c := s.core n
  if !leads s n || c.held.isSome then s
  else if c.edge then s.modCore n (countStall .gate)
  else if c.miss.isSome then s.modCore n (countStall .fetch)
  else s

/-- SERIAL: every scoreboard entry has retired and every register write is complete (R197). -/
def quiet (c : Core) : Bool :=
  c.sb.isEmpty && c.gops.isEmpty && c.qPend == 0 && c.strip.isNone && c.v.isEmpty

/-- A slot row: the bundle at the head of issue holds this operation alone.  It is checked as R201 checks a bundle; it
issues if nothing holds it, and otherwise only the stall is counted. -/
def issueOne (n slot : Nat) (p : Pred) (op : Op) (s : State) : State :=
  if !mayIssue s n || (s.core n).held.isSome then countWait s n
  else
    let ns := issueGroup s n
    let pc := (s.core n).pc
    let l := [Item.mk slot p op]
    if op.checkSrcs.any (awaits (s.core n).capture (s.core n)) then s.modCore n (countStall .register)
    else
      match ns.filterMap (fun k => (checkNode s n ns pc k l).map (fun f => (k, f))) with
      | [] =>
        let s1 := ns.foldl (fun t k => t.modCore k (fun c => { c with held := some { raw := 0, snap := c.capture } })) s
        match issueSlots n ns pc l s1 0 with
        | (t, _, none) => settleReads (finishBundle t n ns)
        | (_, _, some (k, h)) => s.modCore k (countStall h)
      | fs => faultBundle s ns pc fs

/-- A register write of a core, seen by the next bundle (R199). -/
def writeCore (x : Ctx) (f : Core → Core) (s : State) : State := s.modCore x.node f

end Sys2Proof.Machine
end

