-- ==== Sys2Proof/Machine/SlotA.lean ====
section
/-! DEFINITION. The operations of A0 and A1 (R234) and the meanings of their rows. -/

namespace Sys2Proof.Machine

/-- The place of an address slot in slot order (R196). -/
def sideA : Side → Nat
  | .zero => 3 | .one => 4

def putA (x : Ctx) (r : BitVec 4) (v : W32) (s : State) : State := writeCore x (fun c => c.setA r.toNat v) s

def opAli (ad : BitVec 4) (imm : W32) : Op where
  dests := [.a ad.toNat]
  eff := fun x s => putA x ad imm s

def opAaddi (ad aa : BitVec 4) (imm : BitVec 28) : Op where
  dests := [.a ad.toNat]
  eff := fun x s => putA x ad (x.snap.getA aa.toNat + BitVec.ofInt 32 (signed 28 imm.toNat)) s

def opAadd (ad aa : BitVec 4) (rb : BitVec 5) (sh : BitVec 3) : Op where
  dests := [.a ad.toNat]
  srcs := [rb.toNat]
  eff := fun x s =>
    let v := BitVec.ofNat 32 (readS x.snap (s.core x.node) rb.toNat).toNat
    putA x ad (x.snap.getA aa.toNat + (v <<< sh.toNat)) s

/-- acirc: a step round a ring of 2^lg bytes; a log2 of size outside 8 to 29 is reserved (R234). -/
def opAcirc (ad ab : BitVec 4) (lg : BitVec 5) (stride : BitVec 23) : Op where
  bad := fun _ _ => lg.toNat < 8 || 29 < lg.toNat
  dests := [.a ad.toNat]
  eff := fun x s =>
    let base := x.snap.getA ab.toNat
    let off := x.snap.getA ad.toNat - base + BitVec.ofInt 32 (signed 23 stride.toNat)
    putA x ad (base + BitVec.ofNat 32 (off.toNat % 2 ^ lg.toNat)) s

/-- abnd compares the exact sum, without wrapping (R234). -/
def opAbnd (pd : BitVec 3) (aa al : BitVec 4) (len : BitVec 25) : Op where
  dests := [.p pd.toNat]
  eff := fun x s =>
    writeCore x (fun c => c.setP pd.toNat ((x.snap.getA aa.toNat).toNat + len.toNat ≤ (x.snap.getA al.toNat).toNat)) s

def opAand (ad aa : BitVec 4) (mask : BitVec 28) : Op where
  dests := [.a ad.toNat]
  eff := fun x s => putA x ad (x.snap.getA aa.toNat &&& (0xF0000000#32 ||| mask.setWidth 32)) s

def opArds (rd : BitVec 5) (aa : BitVec 4) : Op where
  dests := [.s rd.toNat]
  eff := fun x s => writeCore x (fun c => c.setS rd.toNat ((x.snap.getA aa.toNat).setWidth 64)) s

def execAli (n : Fin 64) (sl : Side) (p : Pred) (ad : BitVec 4) (imm : W32) (s : State) : Res :=
  .next (issueOne n (sideA sl) p (opAli ad imm) s)
def execAaddi (n : Fin 64) (sl : Side) (p : Pred) (ad aa : BitVec 4) (imm : BitVec 28) (s : State) : Res :=
  .next (issueOne n (sideA sl) p (opAaddi ad aa imm) s)
def execAadd (n : Fin 64) (sl : Side) (p : Pred) (ad aa : BitVec 4) (rb : BitVec 5) (sh : BitVec 3) (s : State) : Res :=
  .next (issueOne n (sideA sl) p (opAadd ad aa rb sh) s)
def execAcirc (n : Fin 64) (sl : Side) (p : Pred) (ad ab : BitVec 4) (lg : BitVec 5) (stride : BitVec 23) (s : State) :
    Res :=
  .next (issueOne n (sideA sl) p (opAcirc ad ab lg stride) s)
def execAbnd (n : Fin 64) (sl : Side) (p : Pred) (pd : BitVec 3) (aa al : BitVec 4) (len : BitVec 25) (s : State) : Res :=
  .next (issueOne n (sideA sl) p (opAbnd pd aa al len) s)
def execAand (n : Fin 64) (sl : Side) (p : Pred) (ad aa : BitVec 4) (mask : BitVec 28) (s : State) : Res :=
  .next (issueOne n (sideA sl) p (opAand ad aa mask) s)
def execArds (n : Fin 64) (sl : Side) (p : Pred) (rd : BitVec 5) (aa : BitVec 4) (s : State) : Res :=
  .next (issueOne n (sideA sl) p (opArds rd aa) s)

end Sys2Proof.Machine
end

