-- ==== Sys2Proof/Machine/MatrixMath.lean ====
section
/-! DEFINITION. What a matrix strip computes (R235 to R239, R249, R271 to R274, R282 to R285) and how a tile is
stored (R263, R269), as functions of bytes and tiles alone. -/

namespace Sys2Proof.Machine

/-- Element (i, j) of a tile. -/
def tileAt (t : Tile) (i j : Nat) : Nat := (t.getD (32 * i + j) 0).toNat

/-- The strip formats of R236. -/
inductive MFmt where
  | int8 | e4m3 | e5m2 | int4 | fp4 | bf16 | fp16 | fp32
deriving DecidableEq, Repr

/-- The format of a code (R236); code 0x8 and above are reserved. -/
def MFmt.ofCode : Nat → Option MFmt
  | 0 => some .int8 | 1 => some .e4m3 | 2 => some .e5m2 | 3 => some .int4
  | 4 => some .fp4 | 5 => some .bf16 | 6 => some .fp16 | 7 => some .fp32
  | _ => none

/-- Bits of one element. -/
def MFmt.bits : MFmt → Nat
  | .int8 | .e4m3 | .e5m2 => 8
  | .int4 | .fp4 => 4
  | .bf16 | .fp16 => 16
  | .fp32 => 32

/-- The accumulator is INT32 (R236). -/
def MFmt.isInt : MFmt → Bool
  | .int8 | .int4 => true
  | _ => false

/-- The largest K (R236). -/
def MFmt.maxK : MFmt → Nat
  | .int8 | .e4m3 | .e5m2 => 256
  | .int4 | .fp4 => 512
  | .bf16 | .fp16 => 128
  | .fp32 => 32

/-- Core cycles of a strip of K k-steps (R236). -/
def MFmt.cycles (f : MFmt) (k : Nat) : Nat :=
  match f with
  | .int8 | .e4m3 | .e5m2 => k
  | .int4 | .fp4 => k / 2
  | .bf16 | .fp16 => 2 * k
  | .fp32 => 6 * k

def MFmt.ffmt : MFmt → FFmt
  | .e4m3 => .e4m3 | .e5m2 => .e5m2 | .fp4 => .fp4 | .bf16 => .bf16 | .fp16 => .fp16
  | _ => .fp32

/-- Bytes of a panel of K vectors of 32 elements (R249). -/
def MFmt.panelBytes (f : MFmt) (k : Nat) : Nat := 4 * k * f.bits

/-- Element `n` of packed elements of `w` bits; two 4-bit elements share a byte, the even one low (R249). -/
def elemAt (w : Nat) (l : List Byte) (n : Nat) : Nat :=
  if w = 4 then
    let b := (l.getD (n / 2) 0).toNat
    if n % 2 = 0 then b % 16 else b / 16
  else fieldAt l (n * (w / 8)) (w / 8)

/-- The exact value of a matrix element (R248, R250). -/
def MFmt.value (f : MFmt) (v : Nat) : FVal :=
  if f.isInt then let x := signed f.bits v; .fin (x < 0) x.natAbs 0 else f.ffmt.decode v

/-- The values of row or column `r` of a panel, in ascending k. -/
def MFmt.line (f : MFmt) (k r : Nat) (l : List Byte) : List FVal :=
  (List.range k).map (fun i => f.value (elemAt f.bits l (32 * i + r)))

/-- One accumulation step of mmul or mlat: the exact product added once (R237, R265). -/
def mulStep (f : MFmt) (sat : Bool) (acc : Nat) (a b : FVal) : Nat :=
  if f.isInt then
    match a.prod b with
    | some (.fin n m _) => (narrow 32 true sat (signed 32 acc + (if n then -(m : Int) else m))).1
    | _ => acc
  else (FFmt.fp32.fmaV 0 sat a b (FFmt.fp32.decode acc)).1

/-- One element of a strip: its products added one at a time in ascending k (R237). -/
def stripElem (f : MFmt) (sat : Bool) (start : Nat) (row col : List FVal) : Nat :=
  (row.zip col).foldl (fun acc p => mulStep f sat acc p.1 p.2) start

/-- A tile from a function of its element's row and column. -/
def buildTile (g : Nat → Nat → Nat) : Tile :=
  (List.range 32).flatMap (fun i => (List.range 32).map (fun j => BitVec.ofNat 32 (g i j)))

/-- td := (ACC ? td : 0) + A × B (R237). -/
def strip (f : MFmt) (k : Nat) (acc sat : Bool) (td : Tile) (pa pb : List Byte) : Tile :=
  let rows := (List.range 32).map (fun r => f.line k r pa)
  let cols := (List.range 32).map (fun c => f.line k c pb)
  buildTile (fun i j => stripElem f sat (if acc then tileAt td i j else 0) (rows.getD i []) (cols.getD j []))

/-- One step of pair accumulation: the running sum and its error term (pseudocode of R239). -/
def pairStep (fin : Bool) (p : Nat × Nat) (a b : FVal) : Nat × Nat :=
  match FFmt.fp32.nanOf [a, b] with
  | some _ => (FFmt.fp32.nanPat, (fAdd .fp32 0 fin p.2 0).1)
  | none =>
    match a.prod b with
    | none => (FFmt.fp32.nanPat, (fAdd .fp32 0 fin p.2 0).1)
    | some x =>
      let t := twoSum fin p.1 x
      if (FFmt.fp32.decode t.1).special || t.2.2 &&& cSAT != 0 then (t.1, (fAdd .fp32 0 fin p.2 0).1)
      else (t.1, (fAdd .fp32 0 fin p.2 t.2.1).1)

/-- Pair-accumulate strip into td (sum) and td + 1 (error) (R238, R284). -/
def pairStrip (f : MFmt) (k : Nat) (acc fin : Bool) (sum err : Tile) (pa pb : List Byte) : Tile × Tile :=
  let rows := (List.range 32).map (fun r => f.line k r pa)
  let cols := (List.range 32).map (fun c => f.line k c pb)
  let cell := fun i j =>
    ((rows.getD i []).zip (cols.getD j [])).foldl (fun p x => pairStep fin p x.1 x.2)
      (if acc then (tileAt sum i j, tileAt err i j) else (0, 0))
  (buildTile (fun i j => (cell i j).1), buildTile (fun i j => (cell i j).2))

/-- The three partial products of split-operand FP32, small ones first (pseudocode of R239, R285). -/
def splitStep (fin : Bool) (acc : Nat) (a b : Nat) : Nat :=
  let bf := FFmt.bf16
  let f := FFmt.fp32
  let ah := (fcvt f bf 0 false a).1
  let bh := (fcvt f bf 0 false b).1
  let al := if (f.decode a).special then 0 else (bf.addV 0 false (f.decode a) (bf.decode ah).neg).1
  let bl := if (f.decode b).special then 0 else (bf.addV 0 false (f.decode b) (bf.decode bh).neg).1
  let s1 := (f.fmaV 0 fin (bf.decode al) (bf.decode bh) (f.decode acc)).1
  let s2 := (f.fmaV 0 fin (bf.decode ah) (bf.decode bl) (f.decode s1)).1
  (f.fmaV 0 fin (bf.decode ah) (bf.decode bh) (f.decode s2)).1

/-- Split-operand FP32 strip (R238, R285). -/
def splitStrip (k : Nat) (acc fin : Bool) (td : Tile) (pa pb : List Byte) : Tile :=
  buildTile (fun i j =>
    (List.range k).foldl
      (fun s n => splitStep fin s (elemAt 32 pa (32 * n + i)) (elemAt 32 pb (32 * n + j)))
      (if acc then tileAt td i j else 0))

/-- The value of a scale byte: E8M0 or FP8 E4M3 (R252). -/
def scaleValue (e4m3 : Bool) (v : Nat) : FVal :=
  if e4m3 then FFmt.e4m3.decode v else if v = 0xFF then .nan false true else .fin false 1 ((v : Int) - 127)

/-- The block size that mmulbs codes (R235); codes 6 and 7 are reserved. -/
def blockSize (c : Nat) : Nat := 8 * 2 ^ c

/-- Where the scale of (k, r) lies in its panel (R272); `along` is the direction bit. -/
def scaleIndex (along : Bool) (bs kk k r : Nat) : Nat :=
  if !along then (if bs ≤ kk then 32 * (k / bs) + r else r)
  else if bs < 32 then (32 / bs) * k + r / bs else k

/-- Bytes of a scale panel (R272). -/
def scalePanel (along : Bool) (bs kk : Nat) : Nat :=
  if !along then (if bs ≤ kk then 32 * kk / bs else 32)
  else if bs < 32 then 32 * kk / bs else kk

/-- K and the block size fit (R273). -/
def scaleFits (along : Bool) (bs kk : Nat) : Bool := along || kk % bs == 0 || bs % kk == 0

/-- One block-scaled product a × sa × b × sb, rounded once, and its addition (R274). -/
def scaledStep (fin : Bool) (acc : Nat) (a sa b sb : FVal) : Nat :=
  let f := FFmt.fp32
  let p :=
    match f.nanOf [a, sa, b, sb] with
    | some r => r.1
    | none =>
      match (a.prod sa).bind (fun x => (x.prod b).bind (fun y => y.prod sb)) with
      | none => f.nanPat
      | some x => (f.ofVal 0 fin x).1
  (f.addV 0 fin (f.decode acc) (f.decode p)).1

/-- Block-scaled strip (R238, R271 to R274). -/
def scaledStrip (f : MFmt) (k : Nat) (acc fin e4m3 dirA dirB : Bool) (bs : Nat) (td : Tile)
    (pa pb sa sb : List Byte) : Tile :=
  let rows := (List.range 32).map (fun r => f.line k r pa)
  let cols := (List.range 32).map (fun c => f.line k c pb)
  let scale := fun (dir : Bool) (p : List Byte) (n r : Nat) =>
    scaleValue e4m3 (p.getD (scaleIndex dir bs k n r) 0).toNat
  buildTile (fun i j =>
    (((rows.getD i []).zip (cols.getD j [])).zip (List.range k)).foldl
      (fun s x => scaledStep fin s x.1.1 (scale dirA sa x.2 i) x.1.2 (scale dirB sb x.2 j))
      (if acc then tileAt td i j else 0))

/-- Bytes of one element of an mst output (R235). -/
def outBytes : Nat → Nat
  | 0 => 4 | 1 => 2 | 2 => 2 | _ => 1

/-- One element of a tile as mst stores it (R263). -/
def storeElem (out rnd : Nat) (sat : Bool) (v : Nat) : Nat :=
  match out with
  | 0 => v
  | 1 => (fcvt .fp32 .bf16 rnd sat v).1
  | 2 => (fcvt .fp32 .fp16 rnd sat v).1
  | 3 => (fcvt .fp32 .e4m3 rnd sat v).1
  | 4 => (fcvt .fp32 .e5m2 rnd sat v).1
  | _ => (narrow 8 true sat (signed 32 v)).1

/-- The bytes that mst writes: the tile converted, in row-major order (R238, R263). -/
def tileBytes (out rnd : Nat) (sat : Bool) (t : Tile) : List Byte :=
  (List.range 1024).flatMap (fun n => leBytes (outBytes out) (storeElem out rnd sat (t.getD n 0).toNat))

/-- The bytes that mstp writes: pairs hi, lo in row-major order (R269). -/
def pairBytes (hi lo : Tile) : List Byte :=
  (List.range 1024).flatMap (fun n => leBytes 4 (hi.getD n 0).toNat ++ leBytes 4 (lo.getD n 0).toNat)

/-- A tile from 4 KiB, row-major (R240, vtld). -/
def tileOfBytes (l : List Byte) : Tile := (List.range 1024).map (fun n => BitVec.ofNat 32 (fieldAt l (4 * n) 4))

end Sys2Proof.Machine
end

