-- ==== Sys2Proof/Machine/SlotM.lean ====
section
/-! DEFINITION. The operations of the M slot (R235 to R239, R276 to R296), the end of a strip, and the meanings of
their rows. -/

namespace Sys2Proof.Machine

/-- The place of the M slot in slot order (R196). -/
def slotM : Nat := 5

/-- A byte of the operand cache; what it holds before any fill is open (R240, R304). -/
def cacheByteAt (c : Core) (n o : Nat) : Byte :=
  let o' := o % 65536
  match c.cache.find? (fun e => e.1 == o' / 4096) with
  | some e => e.2.getD (o' % 4096) 0
  | none => Config.cacheByte n o'

/-- Bytes of the operand cache; offsets are taken modulo 65,536 (R235). -/
def cacheRead (c : Core) (n o len : Nat) : List Byte := (List.range len).map (fun i => cacheByteAt c n (o + i))

/-- The regions that a run of cache bytes touches. -/
def cacheRegions (o len : Nat) : List Nat := ((List.range (len / 4096 + 2)).map (fun i => (o % 65536 / 4096 + i) % 16)).filter
  (fun r => (List.range (len / 256 + 1)).any (fun k => (o + min (256 * k) (len - 1)) % 65536 / 4096 == r))

/-- The bundle at issue is a slot row's own, so its operands are read as it issues. -/
def direct (c : Core) : Bool := match c.held with | some h => h.raw == 0 | none => true

/-- The staged panels of the strip at bundle `pc`, once they are complete (R276). -/
def stagedPanels (c : Core) (pc : BitVec 14) : Option (List (List Byte)) :=
  (c.staged.find? (fun g => g.pc == pc && g.panels.isSome)).bind (fun g => g.panels)

/-- A wide range: whole granules from a 256-byte aligned address (R215, R326). -/
def wideRange (a : W32) (len : Nat) (write : Bool) : RangeReq :=
  { lo := a.toNat, hi := a.toNat + (len + 255) / 256 * 256, write := write, align := 256, at_ := a.toNat }

/-- One operand of a strip: from the operand cache, or from memory at an address (R235). -/
structure Operand where
  cached : Bool
  addr : W32
  len : Nat

/-- The bytes of operand `i` of a list of operands on node `n`: cache operands are read at issue, memory operands from
the staging set, or at issue for a slot row. -/
def operandBytes (s : State) (n : Nat) (pc : BitVec 14) (os : List Operand) (i : Nat) : List Byte :=
  let c := s.core n
  match os[i]? with
  | none => []
  | some o =>
    if o.cached then cacheRead c n o.addr.toNat o.len
    else if direct c then s.mem.read o.addr.toNat o.len
    else
      let k := ((os.take i).filter (fun q => !q.cached)).length
      ((stagedPanels c pc).getD []).getD k []

def operandRanges (os : List Operand) : List RangeReq :=
  (os.filter (fun o => !o.cached)).map (fun o => wideRange o.addr o.len false)
def operandStage (os : List Operand) : List (Nat × Nat) :=
  (os.filter (fun o => !o.cached)).map (fun o => (o.addr.toNat, o.len))

/-- A vector operation that clears or loads tile `t` is held (R241). -/
def vTouchesTile (c : Core) (t : Nat) : Bool :=
  c.v.any (fun o => match o.kind with | .clear k => k.toNat == t | .load k _ => k.toNat == t | _ => false)

/-- A vcfill of one of these regions is issued and incomplete (R304). -/
def fillPending (c : Core) (rs : List Nat) : Bool :=
  c.v.any (fun o => match o.kind with | .fill r _ => rs.contains r.toNat | _ => false)

/-- What holds a strip: its tiles' tokens, vector operations on its tiles, a fill of a region that it reads, staging,
the array, and the headgate (R216, R239, R241, R276, R304). -/
def stripHold (s : State) (n : Nat) (pc : BitVec 14) (tiles : List Nat) (os : List Operand) : Option Stall :=
  let c := s.core n
  let regions := (os.filter (fun o => o.cached)).flatMap (fun o => cacheRegions o.addr.toNat o.len)
  if c.strip.isSome || tiles.any (fun t => c.tokens.any (fun k => k.tile.toNat == t) || vTouchesTile c t)
      || fillPending c regions
      || (!direct c && os.any (fun o => !o.cached) && (stagedPanels c pc).isNone) then some .register
  else if withheld s n then some .matrix
  else none

/-- The reads of the operands of a slot row's strip; those of a fetched bundle's strip were made as it was staged (R276, R339). -/
def noteOperands (s : State) (n : Nat) (os : List Operand) : State :=
  if direct (s.core n) then (operandStage os).foldl (fun t e => t.noteCore n e.1 e.2) s else s

/-- A strip begins: its tiles take their new contents at its end, and the headgate knows its format (R237, R280, R503). -/
def beginStrip (x : Ctx) (fmt : Nat) (out : List (Nat × Tile)) (isInt pair : Bool) (s : State) : State :=
  writeCore x (fun c => { c with strip := some ⟨out, isInt, pair⟩, lastFmt := some fmt }) s

/-- K of a strip (R235). -/
def stripK (kc : BitVec 5) : Nat := 16 * (kc.toNat + 1)

/-- The operands of an MS strip (R235). -/
def msOperands (x : Ctx) (f : FmtMS) (m : MFmt) : List Operand :=
  let len := m.panelBytes (stripK f.kc)
  [⟨f.src.toNat.testBit 0, x.snap.getA f.aA.toNat, len⟩, ⟨f.src.toNat.testBit 1, x.snap.getA f.aB.toNat, len⟩]

/-- The format of an MS strip whose code is one of `codes` and whose K is within its bound (R236, R239). -/
def msFormat (f : FmtMS) (codes : List Nat) : Option MFmt :=
  match MFmt.ofCode f.fmt.toNat with
  | some m => if codes.contains f.fmt.toNat && stripK f.kc ≤ m.maxK then some m else none
  | none => none

/-- A strip of one core (R237 to R239): reserved in a lattice. -/
def opStrip (f : FmtMS) (codes : List Nat) (evenTd : Bool)
    (run : MFmt → Ctx → State → List Byte → List Byte → List (Nat × Tile) × Bool) : Op where
  bad := fun x _ => x.lattice || (msFormat f codes).isNone || (evenTd && f.td.toNat % 2 == 1)
  dests := if evenTd then [.t f.td.toNat, .t (f.td.toNat + 1)] else [.t f.td.toNat]
  ranges := fun x _ => match msFormat f codes with | some m => operandRanges (msOperands x f m) | none => []
  stage := fun x _ => match msFormat f codes with | some m => operandStage (msOperands x f m) | none => []
  use := fun _ _ => .instant
  aregs := [f.aA.toNat, f.aB.toNat]
  touches := f.src != 3
  hold := fun x s =>
    match msFormat f codes with
    | some m =>
      stripHold s x.node x.pc (if evenTd then [f.td.toNat, f.td.toNat + 1] else [f.td.toNat]) (msOperands x f m)
    | none => none
  eff := fun x s =>
    match msFormat f codes with
    | some m =>
      let os := msOperands x f m
      let r := run m x s (operandBytes s x.node x.pc os 0) (operandBytes s x.node x.pc os 1)
      beginStrip x f.fmt.toNat r.1 m.isInt r.2 (noteOperands s x.node os)
    | none => s

def opMmul (f : FmtMS) : Op :=
  opStrip f [0, 1, 2, 3, 4, 5, 6] false (fun m x s pa pb =>
    ([(f.td.toNat, strip m (stripK f.kc) f.acc f.sat ((s.core x.node).tile f.td.toNat) pa pb)], false))

def opMmulp (f : FmtMS) : Op :=
  opStrip f [1, 2, 4, 5, 6] true (fun m x s pa pb =>
    let c := s.core x.node
    let r := pairStrip m (stripK f.kc) f.acc f.sat (c.tile f.td.toNat) (c.tile (f.td.toNat + 1)) pa pb
    ([(f.td.toNat, r.1), (f.td.toNat + 1, r.2)], true))

def opMmul3 (f : FmtMS) : Op :=
  opStrip f [7] false (fun _ x s pa pb =>
    ([(f.td.toNat, splitStrip (stripK f.kc) f.acc f.sat ((s.core x.node).tile f.td.toNat) pa pb)], false))

/-- The operands of mmulbs: A, B, A scales, B scales (R235, R272). -/
def mbOperands (x : Ctx) (f : FmtMB) (m : MFmt) : List Operand :=
  let k := stripK f.kc
  let bs := blockSize f.bs.toNat
  let up := fun n => (n + 255) / 256 * 256
  [⟨false, x.snap.getA f.aA.toNat, m.panelBytes k⟩, ⟨false, x.snap.getA f.aB.toNat, m.panelBytes k⟩,
   ⟨false, x.snap.getA f.aSA.toNat, up (scalePanel f.dirA bs k)⟩,
   ⟨false, x.snap.getA f.aSB.toNat, up (scalePanel f.dirB bs k)⟩]

/-- The format of mmulbs: codes 0 to 4, block sizes 0 to 5, K within its bound and fitting the blocks (R235, R273). -/
def mbFormat (f : FmtMB) : Option MFmt :=
  let k := stripK f.kc
  let bs := blockSize f.bs.toNat
  match MFmt.ofCode f.fmt.toNat with
  | some m =>
    if f.fmt.toNat ≤ 4 && f.bs.toNat ≤ 5 && k ≤ m.maxK && scaleFits f.dirA bs k && scaleFits f.dirB bs k then some m
    else none
  | none => none

def opMmulbs (f : FmtMB) : Op where
  bad := fun x _ => x.lattice || (mbFormat f).isNone
  dests := [.t f.td.toNat]
  ranges := fun x _ => match mbFormat f with | some m => operandRanges (mbOperands x f m) | none => []
  stage := fun x _ => match mbFormat f with | some m => operandStage (mbOperands x f m) | none => []
  use := fun _ _ => .instant
  aregs := [f.aA.toNat, f.aB.toNat, f.aSA.toNat, f.aSB.toNat]
  touches := true
  hold := fun x s =>
    match mbFormat f with
    | some m => stripHold s x.node x.pc [f.td.toNat] (mbOperands x f m)
    | none => none
  eff := fun x s =>
    match mbFormat f with
    | some m =>
      let b := operandBytes s x.node x.pc (mbOperands x f m)
      beginStrip x f.fmt.toNat [(f.td.toNat, scaledStrip m (stripK f.kc) f.acc f.sat f.sfmt f.dirA f.dirB (blockSize f.bs.toNat)
        ((s.core x.node).tile f.td.toNat) (b 0) (b 1) (b 2) (b 3))] false false (noteOperands s x.node (mbOperands x f m))
    | none => s

/-- The rectangle of the basin of a node. -/
def rectOf (s : State) (n : Nat) : Rect := match basinOf s n with | some b => (s.basin b).rect | none => {}

/-- The operands that one core of a lattice reads: A on the west column, B on the north row (R290). -/
def latOperands (s : State) (x : Ctx) (f : FmtMS) (m : MFmt) : List Operand :=
  let r := rectOf s x.node
  let os := msOperands x f m
  (if nodeX x.node = r.x0 then os.take 1 else []) ++ (if nodeY x.node = r.y0 then os.drop 1 else [])

/-- The panel that a core of a lattice receives: A from the west core of its row, B from the north core of its column
(R290). -/
def latPanel (s : State) (x : Ctx) (f : FmtMS) (m : MFmt) (wantB : Bool) : List Byte :=
  let r := rectOf s x.node
  let src := if wantB then 8 * r.y0 + nodeX x.node else 8 * nodeY x.node + r.x0
  let y : Ctx := { x with node := src, snap := capturedOf s src }
  let os := latOperands s y f m
  operandBytes s src x.pc os (if wantB && nodeX src == r.x0 then 1 else 0)

def opMlat (f : FmtMS) : Op where
  bad := fun x _ => !x.lattice || (msFormat f [0, 1, 2, 3, 4, 5, 6]).isNone
  dests := [.t f.td.toNat]
  scope := .led
  ranges := fun x s =>
    match msFormat f [0, 1, 2, 3, 4, 5, 6] with | some m => operandRanges (latOperands s x f m) | none => []
  stage := fun x s =>
    match msFormat f [0, 1, 2, 3, 4, 5, 6] with | some m => operandStage (latOperands s x f m) | none => []
  use := fun _ _ => .instant
  aregs := [f.aA.toNat, f.aB.toNat]
  touches := f.src != 3
  hold := fun x s =>
    match msFormat f [0, 1, 2, 3, 4, 5, 6] with
    | some m => stripHold s x.node x.pc [f.td.toNat] (latOperands s x f m)
    | none => none
  eff := fun x s =>
    match msFormat f [0, 1, 2, 3, 4, 5, 6] with
    | some m =>
      beginStrip x f.fmt.toNat [(f.td.toNat, strip m (stripK f.kc) f.acc f.sat ((s.core x.node).tile f.td.toNat)
        (latPanel s x f m false) (latPanel s x f m true))] m.isInt false (noteOperands s x.node (latOperands s x f m))
    | none => s

/-- A tile that a strip in execution writes, or that a vector operation clears or loads, is not ready (R241, R283). -/
def tileBusy (c : Core) (t : Nat) : Bool :=
  (match c.strip with | some r => r.out.any (fun e => e.1 == t) | none => false) || vTouchesTile c t

def opMst (f : FmtMT) : Op where
  bad := fun _ _ => 5 < f.out.toNat
  ranges := fun x _ => [wideRange (x.snap.getA f.a.toNat) (1024 * outBytes f.out.toNat) true]
  touches := true
  hold := fun x s =>
    let c := s.core x.node
    if c.strip.isSome || tileBusy c f.ts.toNat then some .register
    else if withheld s x.node then some .matrix else none
  eff := fun x s =>
    s.write (x.snap.getA f.a.toNat).toNat (tileBytes f.out.toNat f.rnd.toNat f.sat ((s.core x.node).tile f.ts.toNat))

def opMstp (f : FmtMT) : Op where
  bad := fun _ _ => f.out != 0 || f.ts.toNat % 2 == 1 || f.sat
  ranges := fun x _ => [wideRange (x.snap.getA f.a.toNat) 8192 true]
  touches := true
  hold := fun x s =>
    let c := s.core x.node
    if c.strip.isSome || tileBusy c f.ts.toNat || tileBusy c (f.ts.toNat + 1) then some .register
    else if withheld s x.node then some .matrix else none
  eff := fun x s =>
    let c := s.core x.node
    s.write (x.snap.getA f.a.toNat).toNat (pairBytes (c.tile f.ts.toNat) (c.tile (f.ts.toNat + 1)))

/-- mfin pushes a token with the Type and Pair bits that the core keeps for the tile, and counts itself (R286, R287); like
every operation of the slot it waits while a strip occupies the unit (R224). -/
def opMfin (ts : BitVec 2) : Op where
  hold := fun x s =>
    let c := s.core x.node
    if c.strip.isSome || tileBusy c ts.toNat || 8 ≤ c.tokens.length then some .register
    else if withheld s x.node then some .matrix else none
  eff := fun x s =>
    writeCore x (fun c => { c with
      tokens := c.tokens ++ [⟨ts, bit c.tileInt.toNat ts.toNat, bit c.tilePair.toNat ts.toNat, c.mfins, false⟩]
      mfins := c.mfins + 1 }) s

/-- A bit of a small set, set or cleared. -/
def putBit {w : Nat} (v : BitVec w) (i : Nat) (b : Bool) : BitVec w :=
  if b then v ||| BitVec.ofNat w (2 ^ i) else v &&& ~~~(BitVec.ofNat w (2 ^ i))

/-- A strip ends: its tiles hold the sums, and take their next token's Type and Pair bits (R237, R280, R286). -/
def endStrip (c : Core) : Core :=
  match c.strip with
  | none => c
  | some r =>
    let c1 := r.out.foldl (fun c e => { c.setTile e.1 e.2 with
      tileInt := putBit c.tileInt e.1 r.isInt, tilePair := putBit c.tilePair e.1 (r.pair && e.1 % 2 == 0) }) c
    { c1 with strip := none }

def execMmul (n : Fin 64) (p : Pred) (f : FmtMS) (s : State) : Res := .next (issueOne n slotM p (opMmul f) s)
def execMmulp (n : Fin 64) (p : Pred) (f : FmtMS) (s : State) : Res := .next (issueOne n slotM p (opMmulp f) s)
def execMmul3 (n : Fin 64) (p : Pred) (f : FmtMS) (s : State) : Res := .next (issueOne n slotM p (opMmul3 f) s)
def execMmulbs (n : Fin 64) (p : Pred) (f : FmtMB) (s : State) : Res := .next (issueOne n slotM p (opMmulbs f) s)
def execMst (n : Fin 64) (p : Pred) (f : FmtMT) (s : State) : Res := .next (issueOne n slotM p (opMst f) s)
def execMstp (n : Fin 64) (p : Pred) (f : FmtMT) (s : State) : Res := .next (issueOne n slotM p (opMstp f) s)
def execMfin (n : Fin 64) (p : Pred) (ts : BitVec 2) (s : State) : Res := .next (issueOne n slotM p (opMfin ts) s)
def execMlat (n : Fin 64) (p : Pred) (f : FmtMS) (s : State) : Res := .next (issueOne n slotM p (opMlat f) s)

end Sys2Proof.Machine
end

