-- ==== Sys2Proof/Machine/Transfers.lean ====
section
/-! DEFINITION. How a cluster DMA channel runs its transfer: the origin's checks, the buffer, sending against credits, what arrives
for it, suspension and resumption, and the fabric fence (R417, R427 to R437, R442, R443, R445). -/

namespace Sys2Proof.Machine

/-! ### Sending (R428, R431, R432) -/

/-- The packets that have still to be sent, in order: those that a release puts first, then the rest (R431, R443). -/
def Transfer.todo (t : Transfer) : List Nat :=
  let l := (List.range t.pkts.length).filter (fun k => t.pkts.getD k .ok == .todo)
  t.first.filter l.contains ++ l.filter (fun k => !t.first.contains k)

/-- The packets that enter the buffer next: it holds two (R428). -/
def toLoad (t : Transfer) : List Nat :=
  if t.toRemote then (t.todo.filter (fun k => !t.held.contains k)).take (2 - t.held.length) else []

/-- Packets are read into the buffer, once each: a dpost's as an access of its core, a DMA.POST's as the DMA's (R339, R428). -/
def loadBuffer (s : State) (t : Transfer) : State × Transfer :=
  let l := toLoad t
  let new := l.filter (fun k => !t.buffer.any (fun e => e.1 == k))
  (new.foldl (fun u k => u.noteRead (if t.node.isSome then some t.basin else none) (if t.node.isSome then 0 else 3)
      (t.laddr + t.unit * k) (t.bytesOf k)) s,
   { t with buffer := t.buffer ++ new.map (fun k => (k, readPacket s.mem t k)), held := t.held ++ l })

/-- The channel sends what it may: add packets at once, others against its credits, and what goes out from its buffer (R428, R431,
R432). -/
def pump : Nat → State → Nat → State
  | 0, s, _ => s
  | n + 1, s, c =>
    match (s.chan c).xfer with
    | none => s
    | some t0 =>
      if t0.suspended || t0.cause != 0 then s
      else
        let x := loadBuffer s t0
        let u := x.1
        let t := x.2
        match t.todo.head? with
        | none => setXfer u c t
        | some k =>
          if (t.isAdd || 0 < t.credits) && (!t.toRemote || t.held.contains k) then
            let t1 := { t with pkts := t.pkts.set k .sent, credits := t.credits - (if t.isAdd then 0 else 1) }
            pump n (setXfer (u.send (xferPacket u t c k)) c t1) c
          else setXfer u c t

/-- Every packet has been read into the buffer, so the local read is over (R212, R428). -/
def loadedAll (t : Transfer) : Bool :=
  (List.range t.pkts.length).all (fun k => t.pkts.getD k .ok != .todo || t.buffer.any (fun e => e.1 == k))

/-- Send, and let the local read entry retire once the last byte has entered the buffer. -/
def run (s : State) (c : Nat) : State :=
  let n := match (s.chan c).xfer with | some t => t.pkts.length + 1 | none => 0
  let s1 := pump n s c
  match (s1.chan c).xfer with
  | some t => if t.toRemote && loadedAll t then retireDma s1 c t.node else s1
  | none => s1

/-- The first link has acknowledged the last frame of a packet, which leaves the buffer; the next one enters it (R381, R428). -/
def leaveBuffer (s : State) (c : Nat) (xfer : W16) (k : Nat) : State :=
  match (s.chan c).xfer with
  | some t => if t.xfer = xfer then settleReads (run (setXfer s c { t with held := t.held.erase k }) c) else s
  | none => s

/-- CREDIT_REQ: the packets that await credits (R432, R433). -/
def requestCredits (s : State) (c : Nat) (t : Transfer) : State :=
  let n := (t.pkts.filter (fun p => p == .todo)).length
  control (setXfer s c { t with asked := true, full := false }) (gaFa t.ga) 0x20
    ([byte (gaWindow t.ga), if t.toRemote then 0 else 1] ++ leBytes 2 n ++ leBytes 2 t.xfer.toNat ++ [byte c])

/-- The origin's checks, in the order UNREACHABLE and ARG of R427, then ARG of R429 (DEDUCED, log 20). -/
def originCause (s : State) (t : Transfer) (badWord : Bool) : Byte :=
  if !reachable s (gaFa t.ga) then dcUnreachable
  else if gaOffset t.ga % 256 ≠ 0 ∨ 2 ^ 42 < gaOffset t.ga + t.len then dcArg
  else if badWord then dcArg
  else 0

/-- A channel starts a transfer (R427 to R432). -/
def startTransfer (s : State) (c : Nat) (t0 : Transfer) (badWord : Bool) : State :=
  let k := s.chan c
  let t1 := { t0 with xfer := k.number + 1 }
  let t := { t1 with pkts := List.replicate t1.packets .todo }
  let s1 := s.setChan c { k with number := k.number + 1, xfer := some t }
  let cause := originCause s t badWord
  if cause ≠ 0 then endTransfer s1 c t cause
  else if t.len = 0 then endTransfer s1 c t 0
  else if t.isAdd then run s1 c
  else run (requestCredits s1 c t) c

/-! ### What arrives for a transfer (R432, R435, R437, R445) -/

/-- The running transfer of channel `c` that a message from `src` names. -/
def namedXfer (s : State) (src : W16) (window : Nat) (chan : Nat) (xfer : W16) : Option Transfer :=
  match (s.chan chan).xfer with
  | some t => if t.xfer = xfer ∧ gaFa t.ga = src ∧ gaWindow t.ga = window then some t else none
  | none => none

/-- CREDIT_GRANT: the channel sends; a transfer that may send nothing returns the credits (R432, R435, R442). -/
def execCreditGrant (src : W16) (window n : Byte) (xfer : W16) (chan : Byte) (s : State) : Res :=
  .next (match namedXfer s src window.toNat chan.toNat xfer with
    | none => s
    | some t =>
      if t.suspended || t.cause != 0 then
        releaseCredits (setXfer s chan.toNat { t with asked := false }) chan.toNat { t with credits := n.toNat }
      else settleReads (run (setXfer s chan.toNat { t with credits := t.credits + n.toNat, asked := false, full := false }) chan.toNat))

/-- The running transfer of channel `c` whose packet an outcome names: it comes from the window's chiplet, for an add packet from a
chiplet that has combined it, or from one that discarded it on the way (R416, R435, R439). -/
def answeredXfer (s : State) (src : W16) (window outcome : Byte) (chan : Nat) (xfer : W16) : Option Transfer :=
  match (s.chan chan).xfer with
  | some t =>
    if t.xfer = xfer ∧ gaWindow t.ga = window.toNat ∧ (gaFa t.ga = src ∨ t.isAdd ∨ outcome = dcUnreachable) then some t else none
  | none => none

/-- A packet's outcome (R435); a read packet that is OK still waits for its data, and one that is to be requested again, its data
having been discarded, is not done by the answer to the first request (R443). -/
def outcomeOf (t : Transfer) (p : PktState) (outcome : Byte) : PktState :=
  if outcome ≠ 0 then .failed outcome
  else if t.toRemote then .ok
  else match p with
    | .dataIn => .ok
    | .ok => .ok
    | .todo => .todo
    | _ => .doneOk

/-- A failure of a transfer: the first cause is kept, its credits return, and no further packet is sent (R435). -/
def failXfer (s : State) (c : Nat) (t : Transfer) (cause : Byte) : State :=
  let s1 := releaseCredits s c t
  settle (setXfer s1 c { t with cause := if t.cause = 0 then cause else t.cause, credits := 0 }) c

/-- The channel number that combined packets of this chiplet carry (DESIGN CHOICE, log 60). -/
def combinedChan : Byte := 0xFF

/-- A combined packet has its outcome: both sources get it, and the record is free (R416). -/
def finishRecord (s : State) (k : CombineRecord) (outcome : Byte) : State :=
  let s1 := { s with fabric := { s.fabric with records := s.fabric.records.filter (fun r => r != k) } }
  let tell := fun (t : State) (h : XferHdr) => packetDone t h.src (byte k.window) outcome h.xfer h.chan h.index 0
  tell (tell s1 k.fst) k.snd

/-- PACKET_DONE (R416, R435); while the transfer is suspended the outcome is kept (R443). -/
def execPacketDone (src : W16) (window outcome : Byte) (xfer : W16) (chan : Byte) (index : W16) (grant : Byte) (s : State) :
    Res :=
  let c := chan.toNat
  .next (match answeredXfer s src window outcome c xfer with
    | none =>
      match s.fabric.records.find? (fun k => chan == combinedChan && k.num == xfer.toNat && k.window == window.toNat) with
      | some k => finishRecord s k outcome
      | none => s
    | some t =>
      let k := index.toNat
      let t1 := { t with pkts := t.pkts.set k (outcomeOf t (t.pkts.getD k .ok) outcome)
                         buffer := t.buffer.filter (fun e => e.1 != k), held := t.held.erase k, credits := t.credits + grant.toNat }
      if outcome ≠ 0 ∨ t.cause ≠ 0 then failXfer (setXfer s c t1) c t1 outcome
      else if t.suspended then releaseCredits (setXfer s c { t1 with credits := 0 }) c t1
      else settleReads (settle (run (setXfer s c t1) c) c))

/-- The transfer that takes read data: one that reads, and is not suspended, whose data are discarded (R435, R442). -/
def readingXfer (s : State) (h : XferHdr) : Option Transfer :=
  match namedXfer s h.src (gaWindow h.ga) h.chan.toNat h.xfer with
  | some t => if t.suspended || t.toRemote || t.packets ≤ h.index.toNat then none else some t
  | none => none

/-- The last granule of a read packet has been written locally (R435). -/
def readIn (s : State) (h : XferHdr) : State :=
  match readingXfer s h with
  | none => s
  | some t =>
    let c := h.chan.toNat
    let k := h.index.toNat
    let p := match t.pkts.getD k .ok with
      | .sent => PktState.dataIn
      | .doneOk => .ok
      | q => q
    let t1 := { t with pkts := t.pkts.set k p }
    let s1 := if t1.pkts.all (fun q => q == .dataIn || q == .ok) then retireDma s c t.node else s
    settle (setXfer s1 c t1) c

/-- READ_DATA: the data of a read packet are written to the local range (R435); those of a suspended transfer are
discarded (R442). -/
def execReadData (h : XferHdr) (data : List (List Byte)) (s : State) : Res :=
  .next (match readingXfer s h with
    | none => s
    | some t => readIn (s.write (t.laddr + t.unit * h.index.toNat) (padTo (t.bytesOf h.index.toNat) (data.flatMap (padTo 256)))) h)

/-- FULL: the channel repeats its request 10 µs later (R432). -/
def execFull (src : W16) (window : Byte) (xfer : W16) (chan : Byte) (s : State) : Res :=
  .next (match namedXfer s src window.toNat chan.toNat xfer with
    | none => s
    | some t => setXfer s chan.toNat { t with asked := false, full := true })

/-- FULL_RETRY_TIMER: the request is repeated while the transfer is running (R432). -/
def execFullRetryTimer (chan : Fin 32) (s : State) : Res :=
  .next (match (s.chan chan).xfer with
    | none => s
    | some t => if t.full && !t.suspended && t.cause == 0 then requestCredits s chan t else s)

/-- LOSS_LIMIT: the oldest packet without its PACKET_DONE, or else the unanswered request, fails with LOST; the limit
does not run while the transfer is suspended (R437, R443). -/
def execLossLimit (chan : Fin 32) (s : State) : Res :=
  .next (match (s.chan chan).xfer with
    | none => s
    | some t =>
      if t.suspended then s
      else
        match (List.range t.pkts.length).find? (fun k => (t.pkts.getD k .ok).outstanding) with
        | some k => let t1 := { t with pkts := t.pkts.set k (.failed dcLost) }; failXfer s chan t1 dcLost
        | none => if t.asked then failXfer s chan t dcLost else s)

/-- REVOCATION: stale numbers are ignored; action 0 only appends an entry; a write or read toward a named window fails, and
add transfers learn of it only through their reductions (R418, R435, R445). -/
def execRevocation (src : W16) (action basin : Byte) (number : W32) (windows : W64) (s : State) : Res :=
  let last := s.dma.lastRev.find? (fun e => e.1 == src.toNat)
  if last.any (fun e => number.toNat ≤ e.2.toNat) then .next s
  else
    let s1 := { s with dma := { s.dma with lastRev := tput s.dma.lastRev src.toNat number } }
    let cause := if action = 1 then dcRevoked else dcNoWindow
    let s2 := if action = 0 then s1 else (List.range 32).foldl (fun t c =>
      match (t.chan c).xfer with
      | some x => if gaFa x.ga = src ∧ bit windows.toNat (gaWindow x.ga) ∧ !x.isAdd then failXfer t c x cause else t
      | none => t) s1
    .next (event s2 0xE042 ([action, basin] ++ leBytes 2 src.toNat ++ leBytes 4 number.toNat))

/-! ### Suspension, resumption, cancellation (R441 to R443) -/

/-- The channels that run a transfer of basin `b`. -/
def channelsOf (s : State) (b : Nat) : List Nat :=
  (List.range 32).filter (fun c => (s.chan c).xfer.any (fun t => t.basin == b))

/-- A seized basin's transfer stops and returns its credits (R442). -/
def suspendChannels (s : State) (b : Nat) : State :=
  (channelsOf s b).foldl (fun t c =>
    match (t.chan c).xfer with
    | some x => setXfer (releaseCredits t c x) c { x with suspended := true, credits := 0 }
    | none => t) s

/-- The packets that a released transfer sends first: those in its buffer, then the write packets without their PACKET_DONE
(R443). -/
def Transfer.heldFirst (t : Transfer) : List Nat :=
  let at_ := fun (p : PktState) => (List.range t.pkts.length).filter (fun k => t.pkts.getD k .ok == p)
  if t.toRemote then (at_ .todo).filter (fun k => t.buffer.any (fun e => e.1 == k)) ++ at_ .sent else []

/-- A released basin's transfer asks for credits again, with every packet that must be sent or asked for again; one that has
failed only waits for the outcomes of what it sent (R435, R443).  Its posting core is where the release puts it (R172). -/
def resumeChannels (s : State) (b : Nat) (move : Nat → Nat) : State :=
  (channelsOf s b).foldl (fun t c =>
    match (t.chan c).xfer with
    | some x0 =>
      let x : Transfer := { x0 with node := x0.node.map move }
      let again := fun (p : PktState) => match p with
        | .sent => if x.isAdd then PktState.sent else .todo
        | .doneOk => .todo
        | q => q
      let x1 := if x.cause = 0 then { x with suspended := false, first := x.heldFirst, pkts := x.pkts.map again }
                else { x with suspended := false }
      let t1 := setXfer t c x1
      if x1.cause != 0 || x1.isAdd then settle (run t1 c) c
      else if x1.pkts.any (fun p => p == .todo) then requestCredits t1 c x1 else settle t1 c
    | none => t) s

/-! ### The fabric fence (R417) -/

/-- The gate operations of basin `b`'s cores that wait for a result. -/
def opsOf (s : State) (b : Nat) : List W32 := (s.basin b).rect.nodes.flatMap (fun n => (s.core n).gops.map (fun o => o.tag))

/-- The frame is of a packet that the channels `l` or the gate operations `g` originated. -/
def FrameOf.isFor (l : List Nat) (g : List W32) (f : FrameOf) : Bool := f.chan.any l.contains || f.tag.any g.contains

/-- A packet that did not leave returns to its transfer, or to its core's gate operation (R172, R417, R442). -/
def returnPacket (b : Nat) (s : State) (o : OutPacket) : State :=
  let f := o.origin s
  match f.chan with
  | some c =>
    match (s.chan c).xfer with
    | some t => if t.xfer = f.xfer then setXfer s c { t with pkts := t.pkts.set f.index .todo } else s
    | none => s
  | none => (s.basin b).rect.nodes.foldl (fun t n => t.modCore n (fun k => { k with gops := k.gops.map (fun g =>
      if some g.tag = f.tag then { g with returned := true } else g) })) s

/-- The fence takes the packets of basin `b` from every output queue; one that has begun ends with an abort frame (R417). -/
def fencePackets (s : State) (b : Nat) : State :=
  let l := channelsOf s b
  let g := opsOf s b
  let mine := fun (o : OutPacket) => !o.abort && (o.origin s).isFor l g
  let go := s.fabric.waiting.filter mine ++ (List.range 20).flatMap (fun q => (s.port q).queue.filter mine)
  let s1 := { s with fabric := { s.fabric with waiting := s.fabric.waiting.filter (fun o => !mine o) } }
  let s2 := (List.range 20).foldl (fun t q => t.modPort q (fun p => { p with queue := p.queue.filterMap (fun o =>
    if !mine o then some o else if o.begun then some { o with abort := true } else none) })) s1
  flush (go.foldl (returnPacket b) s2)

/-- Every frame that the requesters of basin `b` put on a link has been acknowledged, and no abort frame is still to be sent
(R417). -/
def fabricQuiet (s : State) (b : Nat) : Bool :=
  let l := channelsOf s b
  let g := opsOf s b
  (List.range 20).all (fun q =>
    (s.port q).replay.all (fun f => !f.by_.isFor l g) && (s.port q).queue.all (fun o => !(o.origin s).isFor l g))

end Sys2Proof.Machine
end

