-- ==== Sys2Proof/Machine/SlotD.lean ====
section
/-! DEFINITION. The operations of the D slot (R242 to R245, R332, R333, R448 to R454), the in-memory engines, and the
meanings of their rows. -/

namespace Sys2Proof.Machine

/-- The place of the D slot in slot order (R196). -/
def slotD : Nat := 7

/-- A scalar as a D operation reads it. -/
def srcD (x : Ctx) (s : State) (r : BitVec 5) : W64 := readS x.snap (s.core x.node) r.toNat

/-- The tenant of a core's basin. -/
def tenantOf (s : State) (n : Nat) : W16 := match basinOf s n with | some b => (s.basin b).tenant | none => 0

/-- The step of a core's basin has external effects from here on (R342). -/
def markOwn (s : State) (n : Nat) : State := match basinOf s n with | some b => markExternal s b | none => s

/-- The next operation tag. -/
def nextTag (s : State) : State × W32 :=
  let t := s.gateUnit.tag + 1
  ({ s with gateUnit := { s.gateUnit with tag := t } }, t)

/-- The packet of a remote gate operation (R453). -/
def gatePacket (s : State) (fa tenant : W16) (op : Byte) (g : BitVec 7) (sv : W64) (core : Byte) (life : W16) (tag : W32) :
    Packet :=
  packet s fa tenant 3 ([op, byte g.toNat, 0, 0] ++ leBytes 8 sv.toNat ++ [core, 0] ++ leBytes 2 life.toNat
    ++ leBytes 4 s.fabric.session.toNat ++ leBytes 4 tag.toNat)

/-- A gate operation of a core reaches its gate, here or on another chiplet (R242, R448, R453, R454). -/
def issueGate (f : FmtG) (op : Byte) (x : Ctx) (s : State) : State :=
  let n := x.node
  let sv := srcD x s f.sv
  let fa : W16 := if f.rem then BitVec.ofNat 16 (srcD x s f.sf).toNat else s.fa
  let s0 := if f.rem then markOwn s n else s
  let (s1, tag) := nextTag s0
  let remote := fa != s.fa
  let o : GateOp := { tag := tag, sd := f.sd, op := op, gate := f.gate, fa := fa, remote := remote, sv := sv
                      acquire := f.acquire
                      core := byte (s.logical n), life := s.life (s.logical n), tenant := tenantOf s n, since := s.time.elapsed }
  if remote && !reachable s fa then
    writeCore x (fun c => { c with gops := c.gops ++ [{ o with result := some unreachableWord }] }) s1
  else if remote then
    (writeCore x (fun c => { c with gops := c.gops ++ [o] }) s1).send
      (gatePacket s1 fa (tenantOf s n) op f.gate sv (byte (s.logical n)) (s.life (s.logical n)) tag)
  else
    let own := basinOf s n
    let foreign := (s.gate f.gate.toNat).basin.isNone || (s.gate f.gate.toNat).basin != own
    let s2 := if foreign then markOwn s1 n else s1
    let r := gateOperate (writeCore x (fun c => { c with gops := c.gops ++ [o] }) s2) f.gate.toNat op.toNat
      (localWaiter s n tag op sv) own (tenantOf s n)
    match r.2 with
    | some w => r.1.modCore n (fun c => c.deliver tag w none)
    | none => r.1

/-- A gate operation: at most four outstanding (R449), and with RELEASE no write entry in flight (R214). -/
def opGate (op : Byte) (f : FmtG) : Op where
  bad := fun _ _ => !f.rem && f.sf != 0
  dests := [.s f.sd.toNat]
  srcs := if f.rem then [f.sv.toNat, f.sf.toNat] else [f.sv.toNat]
  scope := .master
  hold := fun x s =>
    let c := s.core x.node
    if 4 ≤ c.gops.length || (f.release && c.sb.any (fun e => e.write)) then some .gate else none
  eff := issueGate f op

/-! ### In-memory operations (R245, R332, R333) -/

/-- A length that breaks R245. -/
def lengthBad (len : Nat) : Bool := len % 256 != 0 || 0x4000000 < len

/-- A range split by slice (R332): the first byte and length of each part. -/
def sliceParts (a len : Nat) : List (Nat × Nat) :=
  if len = 0 then []
  else (numbers (sliceOf a) (sliceOf (a + len - 1) + 1 - sliceOf a)).map (fun k =>
    let lo := max a (0x800000 * k)
    (lo, min (a + len) (0x800000 * (k + 1)) - lo))

def sliceQueue (s : State) (k : Nat) : List MemPart := tget [] s.store.queues k
def setSliceQueue (s : State) (k : Nat) (l : List MemPart) : State :=
  { s with store := { s.store with queues := tput s.store.queues k l } }

/-- Some slice that a range touches has a full queue of four (R332). -/
def queueFull (s : State) (a len : Nat) : Bool := (sliceParts a len).any (fun p => 4 ≤ (sliceQueue s (sliceOf p.1)).length)

/-- A part takes its place in its slice's queue. -/
def enterQueue (s : State) (k : Nat) (p : MemPart) : State := setSliceQueue s k (sliceQueue s k ++ [p])

/-- An in-memory operation of a core enters the queues of its slices: of the destination for a fill, of the source for a copy. -/
def startMemOp (s : State) (n dst src len : Nat) (parts : List (Nat × MemPart)) : State :=
  let s1 := parts.foldl (fun t p => enterQueue t p.1 p.2) s
  { s1 with store := { s1.store with
      ops := s1.store.ops ++ [⟨s.store.nextOp, n, dst, src, len, parts.length⟩], nextOp := s.store.nextOp + 1 } }

/-- The fill of a whole segment enters its slice's queue, or waits for a place in it (R332; DESIGN CHOICE, log 89). -/
def queueSegment (v : W64) (s : State) (k : Nat) : State :=
  let q := sliceOf (0x100000 * k)
  let p : MemPart := { dst := 0x100000 * k, len := 0x100000, work := .seg v }
  if (sliceQueue s q).length < 4 then enterQueue s q p
  else { s with store := { s.store with waiting := tput s.store.waiting q (tget [] s.store.waiting q ++ [p]) } }

/-- Segment `k` is still to be filled or zeroed by its slice's engine. -/
def segmentQueued (s : State) (k : Nat) : Bool :=
  let q := sliceOf (0x100000 * k)
  (sliceQueue s q ++ tget [] s.store.waiting q).any (fun p => p.dst == 0x100000 * k && (match p.work with | .seg _ => true | _ => false))

def opDfill (a : BitVec 4) (sv sl : BitVec 5) : Op where
  srcs := [sv.toNat, sl.toNat]
  checkSrcs := [sl.toNat]
  badLength := fun x s =>
    if lengthBad (srcD x s sl).toNat then some (x.snap.getA a.toNat) else none
  ranges := fun x s =>
    let n := (srcD x s sl).toNat
    if n = 0 then [] else [wideRange (x.snap.getA a.toNat) n true]
  use := fun _ s => .memory s.store.nextOp
  touches := true
  scope := .master
  hold := fun x s =>
    if queueFull s (x.snap.getA a.toNat).toNat (srcD x s sl).toNat then some .entries else none
  eff := fun x s =>
    let d := (x.snap.getA a.toNat).toNat
    let n := (srcD x s sl).toNat
    if n = 0 then s
    else startMemOp s x.node d d n ((sliceParts d n).map (fun p =>
      (sliceOf p.1, { dst := p.1, len := p.2, work := .fill s.store.nextOp (srcD x s sv) })))

def opDcopy (ad as : BitVec 4) (sl : BitVec 5) : Op where
  srcs := [sl.toNat]
  checkSrcs := [sl.toNat]
  badLength := fun x s =>
    if lengthBad (srcD x s sl).toNat then some (x.snap.getA ad.toNat) else none
  ranges := fun x s =>
    let n := (srcD x s sl).toNat
    if n = 0 then [] else [wideRange (x.snap.getA as.toNat) n false, wideRange (x.snap.getA ad.toNat) n true]
  use := fun _ s => .memory s.store.nextOp
  touches := true
  scope := .master
  hold := fun x s =>
    if queueFull s (x.snap.getA as.toNat).toNat (srcD x s sl).toNat then some .entries else none
  eff := fun x s =>
    let d := (x.snap.getA ad.toNat).toNat
    let a := (x.snap.getA as.toNat).toNat
    let n := (srcD x s sl).toNat
    if n = 0 then s
    else startMemOp s x.node d a n ((sliceParts a n).map (fun p =>
      (sliceOf p.1, { dst := d + (p.1 - a), len := p.2, work := .copy s.store.nextOp p.1 })))

/-- The segments that lie wholly in a range (R337). -/
def wholeSegs (a len : Nat) : List Nat :=
  (segsOf a (a + len)).filter (fun k => a ≤ 0x100000 * k && 0x100000 * (k + 1) ≤ a + len)

/-- Two runs of bytes overlap. -/
def overlap (a n b m : Nat) : Bool := a < b + m && b < a + n

/-- A part of operation `op` that writes into segment `k` is still queued. -/
def partQueued (s : State) (op k : Nat) : Bool :=
  s.store.queues.any (fun e => e.2.any (fun p =>
    (match p.work with | .fill o _ => o == op | .copy o _ => o == op | .seg _ => false) && overlap p.dst p.len (0x100000 * k) 0x100000))

/-- A part of a core's operation has been written: a segment that lies whole in the operation's range and has no other part
outstanding is FILLED, and with the last part the operation's entries may retire (R212, R332, R337). -/
def endPart (s : State) (op : Nat) (p : MemPart) : State :=
  match s.store.ops.find? (fun o => o.id == op) with
  | none => s
  | some o =>
    let full := (wholeSegs o.dst o.len).filter (fun k => overlap p.dst p.len (0x100000 * k) 0x100000 && !partQueued s op k)
    let s1 := full.foldl (fun t k => t.modSeg k (fun g => { g with filled := g.power == .on })) s
    if 1 < o.left then
      { s1 with store := { s1.store with ops := s1.store.ops.map (fun q => if q.id = o.id then { q with left := q.left - 1 } else q) } }
    else
      let s2 := { s1 with store := { s1.store with ops := s1.store.ops.filter (fun q => q.id != o.id) } }
      s2.modCore o.node (fun c => { c with sb := c.sb.map (fun (e : SbEntry) =>
        if e.use == EntryUse.memory o.id then { e with use := .done } else e) })

/-- The core on whose behalf an in-memory operation runs. -/
def opCore (s : State) (op : Nat) : Nat := match s.store.ops.find? (fun o => o.id == op) with | some o => o.node | none => 64

/-- A slice's engine has served a part: a fill has been written; a copy has read its source, which is an access of the core that
issued it, and written its destination; a segment filled for the steward is FILLED while it is ON (R332, R333, R337, R339). -/
def finishPart (s : State) (p : MemPart) : State :=
  match p.work with
  | .fill op v => endPart (s.setMem (s.mem.fill p.dst p.len v)) op p
  | .copy op src => endPart ((s.noteCore (opCore s op) src p.len).write p.dst (s.mem.read src p.len)) op p
  | .seg v =>
    let k := segOf p.dst
    if (s.seg k).power = .on then (s.setMem (s.mem.fill p.dst p.len v)).modSeg k (fun g => { g with filled := true }) else s

/-- A slice's queue loses its first part, and a segment that waits takes the place (R332). -/
def nextPart (s : State) (k : Nat) : State :=
  let s1 := setSliceQueue s k (sliceQueue s k).tail
  match tget [] s.store.waiting k with
  | [] => s1
  | p :: r => enterQueue { s1 with store := { s1.store with waiting := tput s1.store.waiting k r } } k p

/-- IN_MEMORY_OP_COMPLETE: the part that a slice's engine serves has been written (R332). -/
def execInMemoryOpComplete (slice : Fin 64) (s : State) : Res :=
  .next (match sliceQueue s slice with
    | [] => s
    | p :: _ => settleReads (finishPart (nextPart s slice) p))

/-! ### dpost (R245, R429) -/

/-- The transfer word breaks R429, or asks for an add from remote to local. -/
def wordBad (w : W64) (toLocal : Bool) : Bool :=
  4 < bits w.toNat 7 0 || bits w.toNat 15 8 != 0
  || (bits w.toNat 7 0 != 0 && (toLocal || bits w.toNat 63 48 < bits w.toNat 47 32))

/-- The channel that a dpost names (R181, R245). -/
def postChannel (x : Ctx) (ch : BitVec 2) : Nat := 4 * clusterOf x.node + ch.toNat

def opDpost (a : BitVec 4) (g sl : BitVec 5) (ch : BitVec 2) (dir : Bool) (gate : BitVec 7) : Op where
  bad := fun _ _ => g == 31
  srcs := [g.toNat, g.toNat + 1, sl.toNat]
  checkSrcs := [sl.toNat]
  badLength := fun x s =>
    if lengthBad (srcD x s sl).toNat then some (x.snap.getA a.toNat) else none
  ranges := fun x s =>
    let n := (srcD x s sl).toNat
    if n = 0 then [] else [wideRange (x.snap.getA a.toNat) n dir]
  use := fun x _ => .dma (postChannel x ch)
  touches := true
  scope := .master
  hold := fun x s =>
    if (srcD x s sl).toNat ≠ 0 ∧ (s.chan (postChannel x ch)).xfer.isSome then some .entries else none
  eff := fun x s =>
    let n := (srcD x s sl).toNat
    let w := srcD x s (g + 1)
    let b := (basinOf s x.node).getD 0
    let s1 := if dir then s else markExternal s b
    if n = 0 then gateIncrement s1 s1.fa gate b (tenantOf s1 x.node) false 1
    else
      startTransfer s1 (postChannel x ch)
        { node := some x.node, basin := b, tenant := tenantOf s1 x.node, kind := byte (bits w.toNat 7 0), toRemote := !dir
          laddr := (x.snap.getA a.toNat).toNat, ga := srcD x s g, len := n, gate := some (s1.fa, gate)
          tag := BitVec.ofNat 16 (bits w.toNat 31 16), rank := BitVec.ofNat 32 (bits w.toNat 47 32)
          count := BitVec.ofNat 32 (bits w.toNat 63 48 + 1), xfer := 0, pkts := [] }
        (wordBad w dir)

def execGadd (n : Fin 64) (p : Pred) (f : FmtG) (s : State) : Res := .next (issueOne n slotD p (opGate 0x00 f) s)
def execGwait (n : Fin 64) (p : Pred) (f : FmtG) (s : State) : Res := .next (issueOne n slotD p (opGate 0x01 f) s)
def execGlock (n : Fin 64) (p : Pred) (f : FmtG) (s : State) : Res := .next (issueOne n slotD p (opGate 0x02 f) s)
def execGtry (n : Fin 64) (p : Pred) (f : FmtG) (s : State) : Res := .next (issueOne n slotD p (opGate 0x03 f) s)
def execGunlock (n : Fin 64) (p : Pred) (f : FmtG) (s : State) : Res := .next (issueOne n slotD p (opGate 0x04 f) s)
def execGclean (n : Fin 64) (p : Pred) (f : FmtG) (s : State) : Res := .next (issueOne n slotD p (opGate 0x05 f) s)
def execGbar (n : Fin 64) (p : Pred) (f : FmtG) (s : State) : Res := .next (issueOne n slotD p (opGate 0x06 f) s)
def execGsig (n : Fin 64) (p : Pred) (f : FmtG) (s : State) : Res := .next (issueOne n slotD p (opGate 0x07 f) s)
def execGevw (n : Fin 64) (p : Pred) (f : FmtG) (s : State) : Res := .next (issueOne n slotD p (opGate 0x08 f) s)
def execGclr (n : Fin 64) (p : Pred) (f : FmtG) (s : State) : Res := .next (issueOne n slotD p (opGate 0x09 f) s)
def execGrd (n : Fin 64) (p : Pred) (f : FmtG) (s : State) : Res := .next (issueOne n slotD p (opGate 0x0A f) s)
def execDfill (n : Fin 64) (p : Pred) (a : BitVec 4) (sv sl : BitVec 5) (s : State) : Res :=
  .next (issueOne n slotD p (opDfill a sv sl) s)
def execDcopy (n : Fin 64) (p : Pred) (ad as : BitVec 4) (sl : BitVec 5) (s : State) : Res :=
  .next (issueOne n slotD p (opDcopy ad as sl) s)
def execDpost (n : Fin 64) (p : Pred) (a : BitVec 4) (g sl : BitVec 5) (ch : BitVec 2) (dir : Bool) (gate : BitVec 7)
    (s : State) : Res :=
  .next (issueOne n slotD p (opDpost a g sl ch dir gate) s)

end Sys2Proof.Machine
end

