-- ==== Sys2Proof/Machine/Point.lean ====
section
/-! DEFINITION. The throttle reasons of the headgate and its choice of the operating point (R25, R26, R131, R495 to R497,
R514). -/

namespace Sys2Proof.Machine

def setHead (s : State) (h : Head) : State := { s with head := h }
def modHead (s : State) (f : Head → Head) : State := setHead s (f s.head)

/-! ### Throttle reasons (R514) -/

def trCap : Nat := 0
def trPace : Nat := 1
def trThermal : Nat := 2
def trDroop : Nat := 3
def trRampRise : Nat := 4
def trVddAck : Nat := 5
def trRailStale : Nat := 6
def trDither : Nat := 7
def trCapUnmet : Nat := 8
def trTrip : Nat := 9
def trCoolant : Nat := 10
def trRailClock : Nat := 11

def up32 (v : W32) (n : Nat) : W32 := if v.toNat + n < 2 ^ 32 then BitVec.ofNat 32 (v.toNat + n) else 0xFFFFFFFF

/-- A reason becomes active or ends; each rise counts (R514). -/
def setReason (h : Head) (k : Nat) (on : Bool) : Head :=
  let r := tget {} h.reasons k
  { h with reasons := tput h.reasons k { r with active := on, count := if on && !r.active then up32 r.count 1 else r.count } }

/-- The active reasons accumulate `us` µs. -/
def tickReasons (h : Head) (us : Nat) : Head :=
  { h with reasons := h.reasons.map (fun e => (e.1, if e.2.active then { e.2 with us := up32 e.2.us us } else e.2)) }

/-! ### The operating point (R25, R26, R131, R495 to R497) -/

/-- Voltage in mV of an operating point (R131). -/
def pointMv (s : State) (op : Nat) : Nat := (opPoint s op).1

/-- The preference of a core's basin for its current phase (R193, R495). -/
def corePreference (s : State) (n : Nat) : Option Nat :=
  (basinOf s n).bind (fun b =>
    ((s.basin b).preferNow.find? (fun e => e.1 == (s.core n).phase.toNat)).map (fun e => e.2.toNat))

/-- The requested point (R495). -/
def requestedPoint (s : State) : Nat :=
  match s.head.pace with
  | some p => p
  | none =>
    let l := (List.range 64).filterMap (fun n => if (s.core n).run = .running then corePreference s n else none)
    l.foldl (fun m v => max (m.getD 0) v) (none : Option Nat) |>.getD 9

/-- The point to use (R495). -/
def chosenPoint (s : State) : Nat := min (requestedPoint s) (min s.head.thermCeil s.head.capCeil)

/-- VDD_REQ for a point (R374, R497). -/
def sendVddReq (s : State) (op : Nat) : State :=
  let n := s.head.reqNum + 1
  (modHead s (fun h => { h with reqNum := n, change := h.change.map (fun c => { c with requested := true }) })).emit
    (.sideband 0x03 ([n] ++ leBytes 2 (pointMv s op)))

/-- The reasons that depend on the requested point (R496, R508). -/
def pointReasons (s : State) : State :=
  let q := requestedPoint s
  modHead s (fun h =>
    let a := setReason h trCap (h.capCeil < q || h.share < 1)
    setReason a trThermal (h.thermCeil < q || h.thermal.any (fun e => e.2 < 16)))

/-- The loops of the headgate act: from stage 2 entry, in stages 2 and 3 (R75, R486). -/
def loops (s : State) : Bool := 2 ≤ s.boot.stage && s.boot.stage ≤ 3

/-- The point is evaluated: one change at a time, and no raise for 1 ms after a withdrawal (R495, R497). -/
def evalPoint (s0 : State) : State :=
  let s := pointReasons s0
  if !loops s || s.head.change.isSome || stopped s then s
  else
    let p := chosenPoint s
    if s.head.op < p then
      if s.head.holdoff ≠ 0 then s
      else sendVddReq (modHead s (fun h => { h with change := some ⟨p, true, false, false, false⟩ })) p
    else if p < s.head.op then modHead s (fun h => { h with change := some ⟨p, false, false, false, false⟩ })
    else s

end Sys2Proof.Machine
end

