-- ==== Sys2Proof/Machine/SlotH.lean ====
section
/-! DEFINITION. The operations of the H slot (R246, R247) and the meanings of their rows. -/

namespace Sys2Proof.Machine

/-- The place of the H slot in slot order (R196). -/
def slotH : Nat := 8

/-- A loop level takes a count, the next bundle as its start, and an end; a count of 0 continues after the end at once
(R205, R246). -/
def setLoop (x : Ctx) (level : Bool) (count : W32) (stop : BitVec 14) (s : State) : State :=
  let l : LoopReg := ⟨count, x.pc + 1, stop⟩
  writeCore x (fun c =>
    let c1 := if level then { c with lc1 := l } else { c with lc0 := l }
    if count = 0 then
      { c1 with held := c1.held.map (fun h => if h.branch.isNone then { h with branch := some (stop + 1) } else h) }
    else c1) s

/-- An end bundle below the bundle after the loop operation is reserved (R246). -/
def loopBad (x : Ctx) (stop : BitVec 14) : Bool := stop.toNat < x.pc.toNat + 1

def opLoop (level : Bool) (sr : BitVec 5) (stop : BitVec 14) : Op where
  bad := fun x _ => loopBad x stop
  srcs := [sr.toNat]
  scope := .master
  eff := fun x s => setLoop x level (BitVec.ofNat 32 (readS x.snap (s.core x.node) sr.toNat).toNat) stop s

def opLoopi (level : Bool) (count : BitVec 7) (stop : BitVec 14) : Op where
  bad := fun x _ => loopBad x stop
  scope := .master
  eff := fun x s => setLoop x level (count.setWidth 32) stop s

/-- A hint records its forecast for the headgate, in a lattice on every core; it never changes a result (R247, R289). -/
def opHint (level : BitVec 2) (lead : Byte) (dur : BitVec 12) : Op where
  scope := .led
  eff := fun x s => writeCore x (fun c => { c with hint := some { level := level, lead := lead, dur := dur } }) s

/-- A phase change of a core, in a lattice of every core, puts the preferences of its basin into force, and the headgate
evaluates the operating point (R184, R246, R289, R495). -/
def opPhase (ph : BitVec 2) : Op where
  scope := .led
  eff := fun x s =>
    let s1 := writeCore x (fun c => { c with phase := ph }) s
    match basinOf s x.node with
    | some b => evalPoint (s1.modBasin b (fun v => { v with preferNow := v.prefer }))
    | none => evalPoint s1

/-- The bytes of the image that a core runs. -/
def imageOf (s : State) (n : Nat) : Option Image := (basinOf s n).bind (fun b => (s.basin b).image)

/-- pref starts the fetch of a line; a line beyond the image is ignored (R208, R246). -/
def opPref (line : BitVec 10) : Op where
  scope := .master
  eff := fun x s =>
    match imageOf s x.node with
    | some i =>
      if 768 * line.toNat < i.bytes.length then
        writeCore x (fun c => if c.ibuf.contains line.toNat || c.fetching.contains line.toNat then c
                              else { c with fetching := c.fetching ++ [line.toNat] }) s
      else s
    | none => s

/-- edge holds the next bundle until the next turn edge (R246, R471). -/
def opEdge : Op where
  scope := .master
  eff := fun x s => writeCore x (fun c => { c with edge := true }) s

/-- A core that executes end is idle without state: its life ends, and its locks become ORPHANED (R246, R455, R458). -/
def idleCore (s : State) (n : Nat) : State :=
  let s1 := s.modCore n (fun c => { ({} : Core) with cache := c.cache, ibuf := c.ibuf, stalls := c.stalls,
                                                      vNext := c.vNext })
  (endLife s1 n).1

/-- A core leaves its basin's step; the step ends with its last core (R340). -/
def leaveStep (s : State) (b n : Nat) : State :=
  s.modBasin b (fun v => { v with step := v.step.bind (fun k =>
    let r := k.cores.filter (· != n)
    if r.isEmpty then none else some { k with cores := r }) })

/-- end stops the core, in a lattice every core, idle without state, once the condition of SERIAL holds on each (R246,
R289). -/
def opEnd : Op where
  scope := .led
  hold := fun x s => if quiet (s.core x.node) then none else some .register
  eff := fun x s =>
    let s1 := idleCore s x.node
    match basinOf s x.node with
    | some b => leaveStep s1 b x.node
    | none => s1

def execLoop (n : Fin 64) (p : Pred) (level : Bool) (sr : BitVec 5) (endB : BitVec 14) (s : State) : Res :=
  .next (issueOne n slotH p (opLoop level sr endB) s)
def execLoopi (n : Fin 64) (p : Pred) (level : Bool) (count : BitVec 7) (endB : BitVec 14) (s : State) : Res :=
  .next (issueOne n slotH p (opLoopi level count endB) s)
def execHint (n : Fin 64) (p : Pred) (level : BitVec 2) (lead : Byte) (dur : BitVec 12) (s : State) : Res :=
  .next (issueOne n slotH p (opHint level lead dur) s)
def execPhase (n : Fin 64) (p : Pred) (ph : BitVec 2) (s : State) : Res := .next (issueOne n slotH p (opPhase ph) s)
def execPref (n : Fin 64) (p : Pred) (line : BitVec 10) (s : State) : Res := .next (issueOne n slotH p (opPref line) s)
def execEdge (n : Fin 64) (p : Pred) (s : State) : Res := .next (issueOne n slotH p opEdge s)
def execEndOp (n : Fin 64) (p : Pred) (s : State) : Res := .next (issueOne n slotH p opEnd s)

end Sys2Proof.Machine
end

