-- ==== Sys2Proof/Machine/SlotS.lean ====
section
/-! DEFINITION. The operations of S0 and S1 (R227 to R233, R248 to R267): what each declares and does, and the meaning
of its row. -/

namespace Sys2Proof.Machine

/-- The place of a scalar slot in slot order (R196). -/
def sideS : Side → Nat
  | .zero => 1 | .one => 2

/-- A scalar result, written for the next bundle (R199). -/
def putS (x : Ctx) (r : BitVec 5) (v : Nat) (s : State) : State :=
  writeCore x (fun c => c.setS r.toNat (BitVec.ofNat 64 v)) s
def putP (x : Ctx) (r : BitVec 3) (v : Bool) (s : State) : State := writeCore x (fun c => c.setP r.toNat v) s

/-- A scalar source as a number. -/
def srcS (x : Ctx) (s : State) (r : BitVec 5) : Nat := (readS x.snap (s.core x.node) r.toNat).toNat

/-- A format-R integer operation: sources at width W, the result extended to 64 bits by SGN (R228); `hasSat` says that
the SAT bit exists (R225). -/
def opInt (f : FmtR) (hasSat : Bool) (g : Nat → Bool → Bool → Nat → Nat → Nat × Conds) (rbZero : Bool := false) : Op where
  bad := fun _ _ => (!hasSat && f.sat) || (rbZero && f.rb != 0)
  dests := [.s f.rd.toNat]
  srcs := [f.ra.toNat, f.rb.toNat]
  eff := fun x s =>
    putS x f.rd (extend 64 (widthOf f.w) f.sgn (g (widthOf f.w) f.sgn f.sat (srcS x s f.ra) (srcS x s f.rb)).1) s

def opAdd (f : FmtR) : Op := opInt f true intAdd
def opSub (f : FmtR) : Op := opInt f true intSub
def opMul (f : FmtR) : Op := opInt f true intMul
def opMulh (f : FmtR) : Op := opInt f false (fun w g _ => intMulh w g)
def opDiv (f : FmtR) : Op := opInt f true intDiv
def opRem (f : FmtR) : Op := opInt f false (fun w g _ => intRem w g)
def opNeg (f : FmtR) : Op := opInt f true (fun w g t a _ => intNeg w g t a) true
def opMin (f : FmtR) : Op := opInt f false (fun w g _ => intLesser w g)
def opMax (f : FmtR) : Op := opInt f false (fun w g _ => intGreater w g)
def opAnd (f : FmtR) : Op := opInt f false (fun w _ _ => intAnd w)
def opOr (f : FmtR) : Op := opInt f false (fun w _ _ => intOr w)
def opXor (f : FmtR) : Op := opInt f false (fun w _ _ => intXor w)
def opShl (f : FmtR) : Op := opInt f true intShl
def opShr (f : FmtR) : Op := opInt f false (fun w _ _ => intShr w)
def opSar (f : FmtR) : Op := opInt f false (fun w _ _ => intSar w)
def opRol (f : FmtR) : Op := opInt f false (fun w _ _ => intRol w)
def opRor (f : FmtR) : Op := opInt f false (fun w _ _ => intRor w)
def opPopc (f : FmtR) : Op := opInt f false (fun w _ _ a _ => (popCount w a, 0)) true
def opClz (f : FmtR) : Op := opInt f false (fun w _ _ a _ => (leadZeros w a, 0))

/-- ext: a field of ra, extended by SGN; it ends at bit 63 at the latest (R229). -/
def opExt (f : FmtR) : Op where
  bad := fun _ _ => f.sat || f.w != 3
  dests := [.s f.rd.toNat]
  srcs := [f.ra.toNat, f.rb.toNat]
  eff := fun x s =>
    let b := srcS x s f.rb
    let lsb := bits b 5 0
    let len := fieldLen lsb (bits b 13 8)
    putS x f.rd (extend 64 len f.sgn (srcS x s f.ra / 2 ^ lsb)) s

/-- ins: rd with that field replaced by the low bits of ra (R229). -/
def opIns (f : FmtR) : Op where
  bad := fun _ _ => f.sat || f.w != 3
  dests := [.s f.rd.toNat]
  srcs := [f.ra.toNat, f.rb.toNat, f.rd.toNat]
  eff := fun x s =>
    let b := srcS x s f.rb
    let lsb := bits b 5 0
    let len := fieldLen lsb (bits b 13 8)
    let d := srcS x s f.rd
    putS x f.rd (d - bits d (lsb + len - 1) lsb * 2 ^ lsb + srcS x s f.ra % 2 ^ len * 2 ^ lsb) s

def opAddi (f : FmtI) : Op where
  dests := [.s f.rd.toNat]
  srcs := [f.ra.toNat]
  eff := fun x s => putS x f.rd (intAdd 64 true f.sat (srcS x s f.ra) (low 64 (signed 25 f.imm.toNat))).1 s

def opLi (f : FmtI) : Op where
  bad := fun _ _ => f.sat || f.ra != 0
  dests := [.s f.rd.toNat]
  eff := fun x s => putS x f.rd (low 64 (signed 25 f.imm.toNat)) s

def opLic (f : FmtI) : Op where
  bad := fun _ _ => f.sat
  dests := [.s f.rd.toNat]
  srcs := [f.ra.toNat]
  eff := fun x s => putS x f.rd (srcS x s f.ra * 2 ^ 25 % 2 ^ 64 + f.imm.toNat) s

def opCmp (f : FmtC) : Op where
  bad := fun _ _ => f.sgn
  dests := [.p f.pd.toNat]
  srcs := [f.ra.toNat, f.rb.toNat]
  eff := fun x s => putP x f.pd (intCond f.cond.toNat (widthOf f.w) (srcS x s f.ra) (srcS x s f.rb)) s

def opCmpi (f : FmtCI) : Op where
  dests := [.p f.pd.toNat]
  srcs := [f.ra.toNat]
  eff := fun x s => putP x f.pd (intCond f.cond.toNat 64 (srcS x s f.ra) (low 64 (signed 25 f.imm.toNat))) s

def opChk (f : FmtC) : Op where
  bad := fun _ _ => 5 < f.cond.toNat
  dests := [.p f.pd.toNat]
  srcs := [f.ra.toNat, f.rb.toNat]
  eff := fun x s => putP x f.pd (chkCond f.cond.toNat (widthOf f.w) f.sgn (srcS x s f.ra) (srcS x s f.rb)) s

def opPlog (pd pa pb : BitVec 3) (fn : BitVec 2) (inv : Bool) : Op where
  dests := [.p pd.toNat]
  eff := fun x s =>
    let a := x.snap.getP pa.toNat
    let b := x.snap.getP pb.toNat
    let r := match fn.toNat with
      | 0 => a && b
      | 1 => a || b
      | 2 => a != b
      | _ => a && !b
    putP x pd (r != inv) s

def opSel (rd ra rb : BitVec 5) (ps : BitVec 3) : Op where
  dests := [.s rd.toNat]
  srcs := [ra.toNat, rb.toNat]
  eff := fun x s => putS x rd (if x.snap.getP ps.toNat then srcS x s ra else srcS x s rb) s

/-- A floating-point operation of format R: binary32 sources, a binary32 result with bits [63:32] zero (R228). -/
def opFlt (f : FmtR) (hasFin : Bool) (g : Bool → Nat → Nat → Nat → Nat × Conds) (readsRd : Bool := false)
    (rbZero : Bool := false) : Op where
  bad := fun _ _ => f.w != 2 || f.sgn || (!hasFin && f.sat) || (rbZero && f.rb != 0)
  dests := [.s f.rd.toNat]
  srcs := if readsRd then [f.ra.toNat, f.rb.toNat, f.rd.toNat] else [f.ra.toNat, f.rb.toNat]
  eff := fun x s =>
    putS x f.rd (g f.sat (srcS x s f.ra % 2 ^ 32) (srcS x s f.rb % 2 ^ 32) (srcS x s f.rd % 2 ^ 32)).1 s

def opFadd (f : FmtR) : Op := opFlt f true (fun n a b _ => fAdd .fp32 0 n a b)
def opFsub (f : FmtR) : Op := opFlt f true (fun n a b _ => fSub .fp32 0 n a b)
def opFmul (f : FmtR) : Op := opFlt f true (fun n a b _ => fMul .fp32 0 n a b)
def opFma (f : FmtR) : Op := opFlt f true (fun n a b d => fFma .fp32 0 n a b d) true
def opFmin (f : FmtR) : Op := opFlt f false (fun _ a b _ => FFmt.fp32.extremum false a b)
def opFmax (f : FmtR) : Op := opFlt f false (fun _ a b _ => FFmt.fp32.extremum true a b)
def opFrsq (f : FmtR) : Op := opFlt f true (fun n a _ _ => fRsqrt .fp32 0 n a) false true

def opFcmp (f : FmtC) : Op where
  bad := fun _ _ => f.w != 2 || f.sgn
  dests := [.p f.pd.toNat]
  srcs := [f.ra.toNat, f.rb.toNat]
  eff := fun x s =>
    putP x f.pd (FFmt.fp32.cond f.cond.toNat (srcS x s f.ra % 2 ^ 32) (srcS x s f.rb % 2 ^ 32)).1 s

/-- The conversions of cvt (R231, R260 to R262). -/
def cvtValue (kind rnd v : Nat) : Nat :=
  match kind with
  | 0 => (fOfInt .fp32 64 rnd v).1
  | 1 => (fToInt .fp32 64 rnd (v % 2 ^ 32)).1
  | 2 => extend 64 32 true (fToInt .fp32 32 rnd (v % 2 ^ 32)).1
  | 3 => (fOfInt .fp32 32 rnd v).1
  | 4 => (fcvt .fp32 .bf16 rnd false (v % 2 ^ 32)).1
  | 5 => (fcvt .bf16 .fp32 rnd false (v % 2 ^ 16)).1
  | 6 => (fcvt .fp32 .fp16 rnd false (v % 2 ^ 32)).1
  | _ => (fcvt .fp16 .fp32 rnd false (v % 2 ^ 16)).1

def opCvt (rd ra : BitVec 5) (kind : BitVec 3) (rnd : BitVec 2) : Op where
  dests := [.s rd.toNat]
  srcs := [ra.toNat]
  eff := fun x s => putS x rd (cvtValue kind.toNat rnd.toNat (srcS x s ra)) s

/-- The range of a narrow access: 8 bytes, 8-byte aligned (R210, R215). -/
def narrowRange (x : Ctx) (f : FmtL) (write : Bool) : RangeReq :=
  let a : Int := (narrowAddr x.snap f).toNat
  { lo := a, hi := a + 8, write := write, align := 8, at_ := a }

def opLd (f : FmtL) : Op where
  dests := [.s f.r.toNat]
  ranges := fun x _ => [narrowRange x f false]
  touches := true
  eff := fun x s =>
    let a := (narrowAddr x.snap f).toNat
    putS x f.r (leNat (s.mem.read a 8)) (s.noteCore x.node a 8)

def opSt (f : FmtL) : Op where
  srcs := [f.r.toNat]
  ranges := fun x _ => [narrowRange x f true]
  touches := true
  eff := fun x s => s.write (narrowAddr x.snap f).toNat (leBytes 8 (srcS x s f.r))

def opMova (ad : BitVec 4) (ra : BitVec 5) : Op where
  dests := [.a ad.toNat]
  srcs := [ra.toNat]
  eff := fun x s => writeCore x (fun c => c.setA ad.toNat (BitVec.ofNat 32 (srcS x s ra))) s

def opRdq (rd : BitVec 5) (q : BitVec 2) : Op where
  bad := fun _ _ => q == 3
  dests := [.s rd.toNat]
  qsrc := some q.toNat
  eff := fun x s => putS x rd ((s.core x.node).getQ q.toNat).toNat s

/-- The descriptors that a held vector operation uses, its anchor first (R232, R240). -/
def vUses : VKind → List Nat
  | .bath f => f.dd.toNat :: [f.d1.toNat, f.d2.toNat, f.d3.toNat].take f.nsrc.toNat
  | .pop f _ _ _ => f.dd.toNat :: [f.d1.toNat, f.d2.toNat, f.d3.toNat].take f.nsrc.toNat
  | .red _ ds _ _ => [ds.toNat]
  | _ => []

/-- dset: half 0 takes all of ra; half 1 takes STRIDE1, FLAGGED and SATST and clears the engine's fields (R231, R299). -/
def dsetValue (d : BitVec 128) (half : Bool) (v : W64) : BitVec 128 :=
  if half then BitVec.ofNat 128 (bits d.toNat 63 0 + bits v.toNat 12 0 * 2 ^ 64)
  else BitVec.ofNat 128 (bits d.toNat 127 64 * 2 ^ 64 + v.toNat)

def opDset (d : BitVec 4) (half : Bool) (ra : BitVec 5) : Op where
  dests := [.d d.toNat]
  srcs := [ra.toNat]
  hold := fun x s => if (s.core x.node).v.any (fun o => (vUses o.kind).contains d.toNat) then some .register else none
  eff := fun x s =>
    writeCore x (fun c => c.setD d.toNat (dsetValue (tget 0 c.d d.toNat) half (BitVec.ofNat 64 (srcS x s ra)))) s

def opWhoami (f : FmtR) : Op where
  bad := fun _ _ => f.sat || f.ra != 0 || f.rb != 0
  dests := [.s f.rd.toNat]
  eff := fun x s => putS x f.rd (identity s x.node).toNat s

def opRdturn (f : FmtR) : Op where
  bad := fun _ _ => f.sat || f.ra != 0 || f.rb != 0
  dests := [.s f.rd.toNat]
  eff := fun x s => putS x f.rd s.time.count.toNat s

/-- The branch that takes effect once the bundle has issued in full; in a lattice the master's alone (R204, R289). -/
def branchTo (x : Ctx) (t : BitVec 14) (s : State) : State :=
  if x.master then writeCore x (fun c => { c with held := c.held.map (fun h => { h with branch := some t }) }) s else s

/-- Branches are served in S0 only (R229). -/
def notS0 (x : Ctx) : Bool := x.slot != 1

def opBr (f : FmtB) : Op where
  bad := fun x _ => notS0 x || f.link != 0
  scope := .led
  eff := fun x s => branchTo x f.target s

def opBl (f : FmtB) : Op where
  bad := fun x _ => notS0 x
  dests := [.s f.link.toNat]
  scope := .led
  eff := fun x s => branchTo x f.target (putS x f.link (x.pc + 1).toNat s)

def opJr (ra : BitVec 5) (_likely : Bool) : Op where
  bad := fun x _ => notS0 x
  srcs := [ra.toNat]
  scope := .led
  eff := fun x s => branchTo x (BitVec.ofNat 14 (srcS x s ra)) s

/-- The condition of a summary branch (pseudocode of R232). -/
def brqTaken (typ : Bool) (cond : Nat) (q v : W64) : Bool :=
  if typ then (FFmt.fp32.cond cond (q.toNat % 2 ^ 32) (v.toNat % 2 ^ 32)).1 else intCond cond 64 q.toNat v.toNat

def opBrq (f : FmtQ) : Op where
  bad := fun x _ => notS0 x || f.q == 3
  srcs := [f.rb.toNat]
  qsrc := some f.q.toNat
  scope := .led
  eff := fun x s =>
    let c := s.core x.node
    if brqTaken f.typ f.cond.toNat (c.getQ f.q.toNat) (readS x.snap c f.rb.toNat) then branchTo x f.target s else s

/-! ### The meanings of the rows: a bundle that holds this operation alone -/

def execAdd (n : Fin 64) (sl : Side) (p : Pred) (f : FmtR) (s : State) : Res :=
  .next (issueOne n (sideS sl) p (opAdd f) s)
def execSub (n : Fin 64) (sl : Side) (p : Pred) (f : FmtR) (s : State) : Res :=
  .next (issueOne n (sideS sl) p (opSub f) s)
def execMul (n : Fin 64) (sl : Side) (p : Pred) (f : FmtR) (s : State) : Res :=
  .next (issueOne n (sideS sl) p (opMul f) s)
def execMulh (n : Fin 64) (sl : Side) (p : Pred) (f : FmtR) (s : State) : Res :=
  .next (issueOne n (sideS sl) p (opMulh f) s)
def execDiv (n : Fin 64) (sl : Side) (p : Pred) (f : FmtR) (s : State) : Res :=
  .next (issueOne n (sideS sl) p (opDiv f) s)
def execRem (n : Fin 64) (sl : Side) (p : Pred) (f : FmtR) (s : State) : Res :=
  .next (issueOne n (sideS sl) p (opRem f) s)
def execNeg (n : Fin 64) (sl : Side) (p : Pred) (f : FmtR) (s : State) : Res :=
  .next (issueOne n (sideS sl) p (opNeg f) s)
def execMin (n : Fin 64) (sl : Side) (p : Pred) (f : FmtR) (s : State) : Res :=
  .next (issueOne n (sideS sl) p (opMin f) s)
def execMax (n : Fin 64) (sl : Side) (p : Pred) (f : FmtR) (s : State) : Res :=
  .next (issueOne n (sideS sl) p (opMax f) s)
def execAnd (n : Fin 64) (sl : Side) (p : Pred) (f : FmtR) (s : State) : Res :=
  .next (issueOne n (sideS sl) p (opAnd f) s)
def execOr (n : Fin 64) (sl : Side) (p : Pred) (f : FmtR) (s : State) : Res :=
  .next (issueOne n (sideS sl) p (opOr f) s)
def execXor (n : Fin 64) (sl : Side) (p : Pred) (f : FmtR) (s : State) : Res :=
  .next (issueOne n (sideS sl) p (opXor f) s)
def execShl (n : Fin 64) (sl : Side) (p : Pred) (f : FmtR) (s : State) : Res :=
  .next (issueOne n (sideS sl) p (opShl f) s)
def execShr (n : Fin 64) (sl : Side) (p : Pred) (f : FmtR) (s : State) : Res :=
  .next (issueOne n (sideS sl) p (opShr f) s)
def execSar (n : Fin 64) (sl : Side) (p : Pred) (f : FmtR) (s : State) : Res :=
  .next (issueOne n (sideS sl) p (opSar f) s)
def execRol (n : Fin 64) (sl : Side) (p : Pred) (f : FmtR) (s : State) : Res :=
  .next (issueOne n (sideS sl) p (opRol f) s)
def execRor (n : Fin 64) (sl : Side) (p : Pred) (f : FmtR) (s : State) : Res :=
  .next (issueOne n (sideS sl) p (opRor f) s)
def execPopc (n : Fin 64) (sl : Side) (p : Pred) (f : FmtR) (s : State) : Res :=
  .next (issueOne n (sideS sl) p (opPopc f) s)
def execClz (n : Fin 64) (sl : Side) (p : Pred) (f : FmtR) (s : State) : Res :=
  .next (issueOne n (sideS sl) p (opClz f) s)
def execExt (n : Fin 64) (sl : Side) (p : Pred) (f : FmtR) (s : State) : Res :=
  .next (issueOne n (sideS sl) p (opExt f) s)
def execIns (n : Fin 64) (sl : Side) (p : Pred) (f : FmtR) (s : State) : Res :=
  .next (issueOne n (sideS sl) p (opIns f) s)
def execFadd (n : Fin 64) (sl : Side) (p : Pred) (f : FmtR) (s : State) : Res :=
  .next (issueOne n (sideS sl) p (opFadd f) s)
def execFsub (n : Fin 64) (sl : Side) (p : Pred) (f : FmtR) (s : State) : Res :=
  .next (issueOne n (sideS sl) p (opFsub f) s)
def execFmul (n : Fin 64) (sl : Side) (p : Pred) (f : FmtR) (s : State) : Res :=
  .next (issueOne n (sideS sl) p (opFmul f) s)
def execFma (n : Fin 64) (sl : Side) (p : Pred) (f : FmtR) (s : State) : Res :=
  .next (issueOne n (sideS sl) p (opFma f) s)
def execFmin (n : Fin 64) (sl : Side) (p : Pred) (f : FmtR) (s : State) : Res :=
  .next (issueOne n (sideS sl) p (opFmin f) s)
def execFmax (n : Fin 64) (sl : Side) (p : Pred) (f : FmtR) (s : State) : Res :=
  .next (issueOne n (sideS sl) p (opFmax f) s)
def execFrsq (n : Fin 64) (sl : Side) (p : Pred) (f : FmtR) (s : State) : Res :=
  .next (issueOne n (sideS sl) p (opFrsq f) s)
def execWhoami (n : Fin 64) (sl : Side) (p : Pred) (f : FmtR) (s : State) : Res :=
  .next (issueOne n (sideS sl) p (opWhoami f) s)
def execRdturn (n : Fin 64) (sl : Side) (p : Pred) (f : FmtR) (s : State) : Res :=
  .next (issueOne n (sideS sl) p (opRdturn f) s)
def execAddi (n : Fin 64) (sl : Side) (p : Pred) (f : FmtI) (s : State) : Res :=
  .next (issueOne n (sideS sl) p (opAddi f) s)
def execLi (n : Fin 64) (sl : Side) (p : Pred) (f : FmtI) (s : State) : Res :=
  .next (issueOne n (sideS sl) p (opLi f) s)
def execLic (n : Fin 64) (sl : Side) (p : Pred) (f : FmtI) (s : State) : Res :=
  .next (issueOne n (sideS sl) p (opLic f) s)
def execCmp (n : Fin 64) (sl : Side) (p : Pred) (f : FmtC) (s : State) : Res :=
  .next (issueOne n (sideS sl) p (opCmp f) s)
def execChk (n : Fin 64) (sl : Side) (p : Pred) (f : FmtC) (s : State) : Res :=
  .next (issueOne n (sideS sl) p (opChk f) s)
def execFcmp (n : Fin 64) (sl : Side) (p : Pred) (f : FmtC) (s : State) : Res :=
  .next (issueOne n (sideS sl) p (opFcmp f) s)
def execCmpi (n : Fin 64) (sl : Side) (p : Pred) (f : FmtCI) (s : State) : Res :=
  .next (issueOne n (sideS sl) p (opCmpi f) s)
def execLd (n : Fin 64) (sl : Side) (p : Pred) (f : FmtL) (s : State) : Res :=
  .next (issueOne n (sideS sl) p (opLd f) s)
def execSt (n : Fin 64) (sl : Side) (p : Pred) (f : FmtL) (s : State) : Res :=
  .next (issueOne n (sideS sl) p (opSt f) s)
def execBr (n : Fin 64) (sl : Side) (p : Pred) (f : FmtB) (s : State) : Res :=
  .next (issueOne n (sideS sl) p (opBr f) s)
def execBl (n : Fin 64) (sl : Side) (p : Pred) (f : FmtB) (s : State) : Res :=
  .next (issueOne n (sideS sl) p (opBl f) s)
def execBrq (n : Fin 64) (sl : Side) (p : Pred) (f : FmtQ) (s : State) : Res :=
  .next (issueOne n (sideS sl) p (opBrq f) s)
def execPlog (n : Fin 64) (sl : Side) (p : Pred) (pd pa pb : BitVec 3) (fn : BitVec 2) (inv : Bool) (s : State) : Res :=
  .next (issueOne n (sideS sl) p (opPlog pd pa pb fn inv) s)
def execSel (n : Fin 64) (sl : Side) (p : Pred) (rd ra rb : BitVec 5) (ps : BitVec 3) (s : State) : Res :=
  .next (issueOne n (sideS sl) p (opSel rd ra rb ps) s)
def execCvt (n : Fin 64) (sl : Side) (p : Pred) (rd ra : BitVec 5) (kind : BitVec 3) (rnd : BitVec 2) (s : State) : Res :=
  .next (issueOne n (sideS sl) p (opCvt rd ra kind rnd) s)
def execMova (n : Fin 64) (sl : Side) (p : Pred) (ad : BitVec 4) (ra : BitVec 5) (s : State) : Res :=
  .next (issueOne n (sideS sl) p (opMova ad ra) s)
def execRdq (n : Fin 64) (sl : Side) (p : Pred) (rd : BitVec 5) (q : BitVec 2) (s : State) : Res :=
  .next (issueOne n (sideS sl) p (opRdq rd q) s)
def execDset (n : Fin 64) (sl : Side) (p : Pred) (d : BitVec 4) (half : Bool) (ra : BitVec 5) (s : State) : Res :=
  .next (issueOne n (sideS sl) p (opDset d half ra) s)
def execJr (n : Fin 64) (sl : Side) (p : Pred) (ra : BitVec 5) (likely : Bool) (s : State) : Res :=
  .next (issueOne n (sideS sl) p (opJr ra likely) s)

end Sys2Proof.Machine
end

