-- ==== Sys2Proof/Machine/SlotV.lean ====
section
/-! DEFINITION. The operations of the V slot (R240, R241, R297 to R321), the completion of a vector operation, and the
meanings of their rows. -/

namespace Sys2Proof.Machine

/-- The place of the V slot in slot order (R196). -/
def slotV : Nat := 6

/-- The source descriptors of a stream operation (R240). -/
def vSources (f : FmtV) : List Nat := [f.d1.toNat, f.d2.toNat, f.d3.toNat].take f.nsrc.toNat

/-- A descriptor with a reserved TYPE (R300). -/
def typeBad (v : Snap) (d : Nat) : Bool := (EType.ofCode (dType (v.getD d))).isNone

/-- The range that a stream declares: the bounding interval of its walk in whole granules; a misalignment reports BASE
(R298, R302). -/
def streamRange (v : Snap) (d : Nat) (write : Bool) : RangeReq :=
  let x := v.getD d
  let b := walkBounds x
  let g := granules b.1 b.2
  { lo := g.1, hi := g.2, write := write, align := (dElem x).align, at_ := dBase x }

/-- The anchors of the operations that the engine holds (R318). -/
def vAnchor : VKind → Option Nat
  | .bath f => some f.dd.toNat
  | .pop f _ _ _ => some f.dd.toNat
  | .red _ ds _ _ => some ds.toNat
  | _ => none

/-- The engine has no place, or holds an operation with this anchor (R241, R318). -/
def vHold (c : Core) (anchor : Option Nat) : Option Stall :=
  if 2 ≤ c.v.length || (anchor.isSome && c.v.any (fun o => vAnchor o.kind == anchor)) then some .register else none

/-- HELD, GROUP, CLASS and OPERANDS of an anchor at issue (R318). -/
def holdAnchor (c : Core) (d cls operands : Nat) : Core :=
  let x := tget 0 c.d d
  c.setD d (dSet (dSet (dSet (dSet x 84 83 (if c.v.isEmpty then 1 else 2)) 98 85 0) 100 99 cls) 127 101 operands)

/-- Bits [31:5] of the V slot of a stream operation (R240, R318). -/
def vOperands (f : FmtV) : Nat :=
  f.d1.toNat * 2 ^ 23 + f.d2.toNat * 2 ^ 19 + f.d3.toNat * 2 ^ 15 + f.nsrc.toNat * 2 ^ 13 + f.region.toNat * 2 ^ 9
    + f.off.toNat * 2 ^ 5 + f.len.toNat

/-- A vector operation takes its place in the engine (R241). -/
def enqueueV (c : Core) (k : VKind) : Core := { c with v := c.v ++ [{ id := c.vNext, kind := k }], vNext := c.vNext + 1 }

def vUse (x : Ctx) (s : State) : EntryUse := .vector (s.core x.node).vNext

def opVbath (f : FmtV) : Op where
  bad := fun x _ => f.nsrc == 0 || (f.dd.toNat :: vSources f).any (typeBad x.snap)
  dests := [.d f.dd.toNat]
  ranges := fun x _ => (vSources f).map (fun d => streamRange x.snap d false) ++ [streamRange x.snap f.dd.toNat true]
  use := vUse
  touches := true
  hold := fun x s => vHold (s.core x.node) (some f.dd.toNat)
  eff := fun x s => writeCore x (fun c => enqueueV (holdAnchor c f.dd.toNat 0 (vOperands f)) (.bath f)) s

/-- The oldest token that no vtpop has bound (R312). -/
def freeToken (c : Core) : Option Token := c.tokens.find? (fun t => !t.bound)

/-- Bind that token. -/
def bindToken : List Token → List Token
  | [] => []
  | t :: r => if t.bound then t :: bindToken r else { t with bound := true } :: r

def opVtpop (f : FmtV) : Op where
  bad := fun x _ => f.nsrc == 3 || (f.dd.toNat :: vSources f).any (typeBad x.snap)
  dests := [.d f.dd.toNat]
  ranges := fun x _ => (vSources f).map (fun d => streamRange x.snap d false) ++ [streamRange x.snap f.dd.toNat true]
  use := vUse
  touches := true
  hold := fun x s =>
    if (freeToken (s.core x.node)).isNone then some .register else vHold (s.core x.node) (some f.dd.toNat)
  eff := fun x s =>
    writeCore x (fun c =>
      match freeToken c with
      | some t =>
        enqueueV { holdAnchor c f.dd.toNat 1 (vOperands f) with tokens := bindToken c.tokens } (.pop f t.tile t.pair t.seq)
      | none => c) s

def opVred (qd : BitVec 2) (ds : BitVec 4) (kind : BitVec 3) (typ : Bool) : Op where
  bad := fun x _ => qd == 3 || 5 < kind.toNat || (typ && 3 ≤ kind.toNat) || typeBad x.snap ds.toNat
  dests := [.q qd.toNat, .d ds.toNat]
  badLength := fun x _ =>
    let d := x.snap.getD ds.toNat
    if kind = 5 ∧ baseMisaligned d then some (BitVec.ofNat 32 (dBase d)) else none
  ranges := fun x _ => if kind = 5 then [] else [streamRange x.snap ds.toNat false]
  use := vUse
  touches := kind != 5
  hold := fun x s => vHold (s.core x.node) (some ds.toNat)
  eff := fun x s =>
    writeCore x (fun c =>
      enqueueV { holdAnchor c ds.toNat 2 (qd.toNat * 2 ^ 4 + kind.toNat * 2 + typ.toNat) with
        qPend := putBit c.qPend qd.toNat true } (.red qd ds kind typ)) s

/-- vtclr and vtld wait for a strip on their tile (R241). -/
def tileHold (c : Core) (t : Nat) : Option Stall :=
  if (match c.strip with | some r => r.out.any (fun e => e.1 == t) | none => false) then some .register
  else vHold c none

def opVtclr (t : BitVec 2) : Op where
  dests := [.t t.toNat]
  hold := fun x s => tileHold (s.core x.node) t.toNat
  eff := fun x s => writeCore x (fun c => enqueueV c (.clear t)) s

def opVtld (t : BitVec 2) (a : BitVec 4) : Op where
  dests := [.t t.toNat]
  ranges := fun x _ => [wideRange (x.snap.getA a.toNat) 4096 false]
  use := vUse
  touches := true
  hold := fun x s => tileHold (s.core x.node) t.toNat
  eff := fun x s => writeCore x (fun c => enqueueV c (.load t (x.snap.getA a.toNat))) s

def opVcfill (region a : BitVec 4) : Op where
  ranges := fun x _ => [wideRange (x.snap.getA a.toNat) 4096 false]
  use := vUse
  touches := true
  hold := fun x s => vHold (s.core x.node) none
  eff := fun x s => writeCore x (fun c => enqueueV c (.fill region (x.snap.getA a.toNat))) s

/-! ### Completion of a vector operation (R305 to R321) -/

/-- The bath of a stream operation, read from its region as the operation starts (R241, R307). -/
def bathOf (c : Core) (n : Nat) (f : FmtV) : List BathIns :=
  (List.range (f.len.toNat + 1)).map (fun k =>
    BathIns.decode (leNat (cacheRead c n (4096 * f.region.toNat + 256 * f.off.toNat + 8 * k) 8)))

/-- The 4-byte word that kld reads (R308). -/
def kldWord (c : Core) (n : Nat) (f : FmtV) (o : Nat) : Nat := leNat (cacheRead c n (4096 * f.region.toNat + o) 4)

/-- A lane loaded for element `i`: source k into x(2k−2), and a PAIR's second value into x(2k−1) (R306). -/
def loadLane (first : Option (Nat × Nat)) (m : Memory) (ds : List (BitVec 128)) (i : Nat) : Lane :=
  let es := ds.map (fun d => (dElem d).widen (loadElem m d (i % dCount d)))
  let all := (match first with | some p => [p] | none => []) ++ es
  (List.range 16).map (fun k =>
    match all[k / 2]? with
    | some p => if k % 2 = 0 then p.1 else p.2
    | none => 0)

/-- Elements `i`, `i + 1`, … of a stream operation: memory after them and the conditions that they raised (R306, R311). -/
def bathElems (tile : Option (Nat → Nat × Nat)) (kld : Nat → Nat) (prog : List BathIns) (dd : BitVec 128)
    (ds : List (BitVec 128)) : Nat → Nat → Memory → Conds → Memory × Conds
  | 0, _, m, k => (m, k)
  | n + 1, i, m, k =>
    let r := bathRun kld i prog (loadLane (tile.map (fun g => g i)) m ds i)
    let v := (dElem dd).narrowTo (dSatst dd) (r.1.get 14) (r.1.get 15)
    bathElems tile kld prog dd ds n (i + 1) (storeElemAt m dd i v.1) (k ||| r.2 ||| v.2)

/-- Conditions ORed into the FLAGS of a flagged anchor (R311). -/
def addFlags (d : BitVec 128) (k : Conds) : BitVec 128 :=
  if dFlagged d then dSet d 82 77 (dFlags d ||| k).toNat else d

/-- The first operation of the engine has completed: its entries may retire, its anchor holds nothing, and the other
anchor becomes the first (R212, R318). -/
def releaseV (c : Core) (o : VOp) : Core :=
  let c1 := { c with v := c.v.tail
                     sb := c.sb.map (fun (e : SbEntry) => if e.use == EntryUse.vector o.id then { e with use := .done } else e) }
  let c2 := match vAnchor o.kind with
    | some d => c1.setD d (dSet (tget 0 c1.d d) 84 83 0)
    | none => c1
  match c2.v.head? with
  | some p => (match vAnchor p.kind with | some d => c2.setD d (dSet (tget 0 c2.d d) 84 83 1) | none => c2)
  | none => c2

/-- The element of a vtpop's tile source (R312). -/
def tileSource (c : Core) (t : BitVec 2) (pair : Bool) (i : Nat) : Nat × Nat :=
  let j := i % 1024
  (((c.tile t.toNat).getD j 0).toNat, if pair then ((c.tile (t.toNat + 1)).getD j 0).toNat else 0)

/-- Byte `b` belongs to one of the elements `l` of a stream. -/
def streamHas (d : BitVec 128) (l : List Nat) (b : Nat) : Bool :=
  l.any (fun i =>
    let p := elemBitAddr d i
    p / 8 ≤ b && (b : Int) < (p + (dElem d).bits + 7) / 8)

/-- The elements `l` of a stream cover byte `b` whole: 4-bit elements by their two halves. -/
def streamFills (d : BitVec 128) (l : List Nat) (b : Nat) : Bool :=
  if (dElem d).bits = 4 then [8 * (b : Int), 8 * b + 4].all (fun q => l.any (fun i => elemBitAddr d i == q))
  else streamHas d l b

/-- The reads of a stream operation on its elements from `first` to below `last`: one access for each source, and the merges of
the words that the destination covers in part (R329, R339). -/
def noteStreams (s : State) (n : Nat) (dd : BitVec 128) (ds : List (BitVec 128)) (first last : Nat) : State :=
  let l := numbers first (last - first)
  let s1 := ds.foldl (fun t d => t.note (homeOf s n) 0 (fun w => (numbers w 4).any (streamHas d (l.map (· % dCount d))))) s
  s1.note (homeOf s n) 0 (fun w => (numbers w 4).any (streamHas dd l) && !(numbers w 4).all (streamFills dd l))

/-- A stream operation from its first group on, up to element `last`: its destination written and its flags kept. -/
def streamTo (s : State) (n : Nat) (o : VOp) (f : FmtV) (tile : Option (Nat → Nat × Nat)) (last : Nat) : State :=
  let c := s.core n
  let dd := tget 0 c.d f.dd.toNat
  let ds := (vSources f).map (fun d => tget 0 c.d d)
  let first := 64 * o.group
  let r := bathElems tile (kldWord c n f) (bathOf c n f) dd ds (last - first) first s.mem 0
  ((noteStreams s n dd ds first last).setMem r.1).modCore n (fun c => c.setD f.dd.toNat (addFlags (tget 0 c.d f.dd.toNat) r.2))

/-- What a stream operation does when it runs to its end. -/
def runStream (s : State) (n : Nat) (o : VOp) (f : FmtV) (tile : Option (Nat → Nat × Nat)) : State :=
  streamTo s n o f tile (dCount (tget 0 (s.core n).d f.dd.toNat))

/-- How many groups a stream in flight has completed when its core stops: a free number from those that an earlier stop
completed to one less than all, since the group that is being computed is abandoned (R319; DESIGN CHOICE, log 53). -/
def groupsDone (s : State) (o : VOp) (count : Nat) : Nat :=
  o.group + s.fresh.1 % max 1 ((count + 63) / 64 - o.group)

/-- A stop meets a stream in flight: the groups before the abandoned one are written, and GROUP records them (R220, R319). -/
def stopStream (s : State) (n : Nat) (o : VOp) (f : FmtV) (tile : Option (Nat → Nat × Nat)) : State :=
  let k := groupsDone s o (dCount (tget 0 (s.core n).d f.dd.toNat))
  (streamTo s.fresh.2 n o f tile (64 * k)).modCore n (fun c =>
    c.setD f.dd.toNat (dSet (tget 0 c.d f.dd.toNat) 98 85 k))

/-- The elements of a reduction's stream, widened (R313). -/
def reduceElems (m : Memory) (d : BitVec 128) : List (Nat × Nat) :=
  (List.range (dCount d)).map (fun i => (dElem d).widen (loadElem m d i))

/-- A reduction's result in its summary register, with the pending mark cleared (R195, R313). -/
def finishRed (s : State) (n : Nat) (qd : BitVec 2) (ds : BitVec 4) (kind : BitVec 3) (float : Bool) : State :=
  let d := tget 0 (s.core n).d ds.toNat
  if kind = 5 then
    s.modCore n (fun c => { (c.setQ qd.toNat ((dFlags d).setWidth 64)).setD ds.toNat (dSet d 82 77 0) with
      qPend := putBit c.qPend qd.toNat false })
  else
    let r := reduceValue kind.toNat float (dElem d) (reduceElems s.mem d)
    (s.note (homeOf s n) 0 (fun w => (numbers w 4).any (streamHas d (List.range (dCount d))))).modCore n (fun c => { (c.setQ qd.toNat r.1).setD ds.toNat (addFlags d r.2) with
      qPend := putBit c.qPend qd.toNat false })

/-- The token of a completed vtpop leaves the queue (R312). -/
def dropToken (t : BitVec 2) (seq : Byte) : List Token → List Token
  | [] => []
  | k :: r => if k.bound && k.tile == t && k.seq == seq then r else k :: dropToken t seq r

/-- The first operation that the engine holds completes (R316). -/
def completeV (s : State) (n : Nat) : State :=
  match (s.core n).v with
  | [] => s
  | o :: _ =>
    let s1 :=
      match o.kind with
      | .bath f => runStream s n o f none
      | .pop f t pair seq =>
        (runStream s n o f (some (tileSource (s.core n) t pair))).modCore n (fun c =>
          { c with tokens := dropToken t seq c.tokens })
      | .red qd ds kind float => finishRed s n qd ds kind float
      | .clear t =>
        s.modCore n (fun c => { c.setTile t.toNat [] with
          tileInt := putBit c.tileInt t.toNat false, tilePair := putBit c.tilePair t.toNat false })
      | .load t a =>
        (s.noteCore n a.toNat 4096).modCore n (fun c => { c.setTile t.toNat (tileOfBytes (s.mem.read a.toNat 4096)) with
          tileInt := putBit c.tileInt t.toNat false, tilePair := putBit c.tilePair t.toNat false })
      | .fill r a =>
        (s.noteCore n a.toNat 4096).modCore n (fun c => { c with
          cache := tput c.cache r.toNat (s.mem.read a.toNat 4096), csrc := tput c.csrc r.toNat a })
    s1.modCore n (fun c => releaseV c o)

def execVbath (n : Fin 64) (p : Pred) (f : FmtV) (s : State) : Res := .next (issueOne n slotV p (opVbath f) s)
def execVtpop (n : Fin 64) (p : Pred) (f : FmtV) (s : State) : Res := .next (issueOne n slotV p (opVtpop f) s)
def execVred (n : Fin 64) (p : Pred) (qd : BitVec 2) (ds : BitVec 4) (kind : BitVec 3) (typ : Bool) (s : State) : Res :=
  .next (issueOne n slotV p (opVred qd ds kind typ) s)
def execVtclr (n : Fin 64) (p : Pred) (t : BitVec 2) (s : State) : Res := .next (issueOne n slotV p (opVtclr t) s)
def execVtld (n : Fin 64) (p : Pred) (t : BitVec 2) (a : BitVec 4) (s : State) : Res :=
  .next (issueOne n slotV p (opVtld t a) s)
def execVcfill (n : Fin 64) (p : Pred) (region a : BitVec 4) (s : State) : Res :=
  .next (issueOne n slotV p (opVcfill region a) s)

end Sys2Proof.Machine
end

