-- ==== Sys2Proof/Machine/BundleDecode.lean ====
section
/-! DEFINITION. The 384-bit bundle: its header, its slots, and the operation that each slot's bits spell (R196 to R198,
R223, R225, R227 to R246, R604). -/

namespace Sys2Proof.Machine

/-- Bits `hi` to `lo` of a slot as a field of `w` bits. -/
def fld (w v hi lo : Nat) : BitVec w := BitVec.ofNat w (bits v hi lo)

/-- An operation if the reserved bits below `n` are zero (R604). -/
def ifZero {α : Type} (v n : Nat) (a : α) : Option α := if bits v (n - 1) 0 = 0 ∨ n = 0 then some a else none

/-! ### Formats of the S slots (R227, R231) -/

def fmtR (v : Nat) : FmtR := ⟨fld 5 v 35 31, fld 5 v 30 26, fld 5 v 25 21, bit v 20, fld 2 v 19 18, bit v 17⟩
def fmtI (v : Nat) : FmtI := ⟨fld 5 v 35 31, fld 5 v 30 26, bit v 25, fld 25 v 24 0⟩
def fmtC (v : Nat) : FmtC := ⟨fld 3 v 35 33, fld 3 v 32 30, fld 5 v 29 25, fld 5 v 24 20, fld 2 v 19 18, bit v 17⟩
def fmtCI (v : Nat) : FmtCI := ⟨fld 3 v 35 33, fld 3 v 32 30, fld 5 v 29 25, fld 25 v 24 0⟩
def fmtL (v : Nat) : FmtL := ⟨fld 5 v 35 31, fld 4 v 30 27, fld 27 v 26 0⟩
def fmtB (v : Nat) : FmtB := ⟨fld 14 v 35 22, bit v 21, fld 5 v 20 16⟩
def fmtQ (v : Nat) : FmtQ := ⟨fld 14 v 35 22, bit v 21, fld 2 v 20 19, fld 3 v 18 16, fld 5 v 15 11, bit v 10⟩

/-- The format-R operations with integer results (R229). -/
def decodeInt (code : Nat) (f : FmtR) : Option Op :=
  match code with
  | 0x00 => some (opAdd f) | 0x01 => some (opSub f) | 0x02 => some (opMul f) | 0x03 => some (opMulh f)
  | 0x04 => some (opDiv f) | 0x05 => some (opRem f) | 0x06 => some (opNeg f) | 0x07 => some (opMin f)
  | 0x08 => some (opMax f) | 0x09 => some (opAnd f) | 0x0A => some (opOr f) | 0x0B => some (opXor f)
  | 0x0C => some (opShl f) | 0x0D => some (opShr f) | 0x0E => some (opSar f) | 0x0F => some (opRol f)
  | 0x10 => some (opRor f) | 0x11 => some (opPopc f) | 0x12 => some (opClz f) | 0x13 => some (opExt f)
  | 0x14 => some (opIns f)
  | _ => none

/-- The format-R operations with binary32 results, whoami and rdturn (R229). -/
def decodeFlt (code : Nat) (f : FmtR) : Option Op :=
  match code with
  | 0x20 => some (opFadd f) | 0x21 => some (opFsub f) | 0x22 => some (opFmul f) | 0x23 => some (opFma f)
  | 0x24 => some (opFmin f) | 0x25 => some (opFmax f) | 0x26 => some (opFrsq f)
  | 0x35 => some (opWhoami f) | 0x36 => some (opRdturn f)
  | _ => none

/-- An operation of S0 or S1; none for a reserved encoding (R229). -/
def decodeS (code v : Nat) : Option Op :=
  match code with
  | 0x18 => some (opAddi (fmtI v))
  | 0x19 => some (opLi (fmtI v))
  | 0x1A => some (opLic (fmtI v))
  | 0x1B => ifZero v 17 (opCmp (fmtC v))
  | 0x1C => some (opCmpi (fmtCI v))
  | 0x1D => ifZero v 17 (opChk (fmtC v))
  | 0x1E => ifZero v 24 (opPlog (fld 3 v 35 33) (fld 3 v 32 30) (fld 3 v 29 27) (fld 2 v 26 25) (bit v 24))
  | 0x1F => ifZero v 18 (opSel (fld 5 v 35 31) (fld 5 v 30 26) (fld 5 v 25 21) (fld 3 v 20 18))
  | 0x27 => ifZero v 17 (opFcmp (fmtC v))
  | 0x28 => ifZero v 21 (opCvt (fld 5 v 35 31) (fld 5 v 30 26) (fld 3 v 25 23) (fld 2 v 22 21))
  | 0x30 => some (opLd (fmtL v))
  | 0x31 => some (opSt (fmtL v))
  | 0x32 => ifZero v 27 (opMova (fld 4 v 35 32) (fld 5 v 31 27))
  | 0x33 => ifZero v 29 (opRdq (fld 5 v 35 31) (fld 2 v 30 29))
  | 0x34 => ifZero v 26 (opDset (fld 4 v 35 32) (bit v 31) (fld 5 v 30 26))
  | 0x38 => ifZero v 16 (opBr (fmtB v))
  | 0x39 => ifZero v 16 (opBl (fmtB v))
  | 0x3A => ifZero v 30 (opJr (fld 5 v 35 31) (bit v 30))
  | 0x3B => ifZero v 10 (opBrq (fmtQ v))
  | _ => if bits v 16 0 = 0 then (decodeInt code (fmtR v)).orElse (fun _ => decodeFlt code (fmtR v)) else none

/-- An operation of A0 or A1 (R234). -/
def decodeA (code v : Nat) : Option Op :=
  match code with
  | 0x00 => some (opAli (fld 4 v 35 32) (fld 32 v 31 0))
  | 0x01 => some (opAaddi (fld 4 v 35 32) (fld 4 v 31 28) (fld 28 v 27 0))
  | 0x02 => ifZero v 20 (opAadd (fld 4 v 35 32) (fld 4 v 31 28) (fld 5 v 27 23) (fld 3 v 22 20))
  | 0x03 => some (opAcirc (fld 4 v 35 32) (fld 4 v 31 28) (fld 5 v 27 23) (fld 23 v 22 0))
  | 0x04 => some (opAbnd (fld 3 v 35 33) (fld 4 v 32 29) (fld 4 v 28 25) (fld 25 v 24 0))
  | 0x05 => some (opAand (fld 4 v 35 32) (fld 4 v 31 28) (fld 28 v 27 0))
  | 0x06 => ifZero v 27 (opArds (fld 5 v 35 31) (fld 4 v 30 27))
  | _ => none

/-! ### Formats of the M slot (R235) -/

def fmtMS (v : Nat) : FmtMS :=
  ⟨fld 2 v 35 34, fld 4 v 33 30, fld 4 v 29 26, fld 4 v 25 22, fld 5 v 21 17, bit v 16, bit v 15, fld 2 v 14 13⟩
def fmtMB (v : Nat) : FmtMB :=
  ⟨fld 2 v 35 34, fld 4 v 33 30, fld 4 v 29 26, fld 4 v 25 22, fld 4 v 21 18, fld 5 v 17 13, fld 3 v 12 10, fld 3 v 9 7,
   bit v 6, bit v 5, bit v 4, bit v 3, bit v 2⟩
/-- The output field has four bits, of which 0 to 5 are outputs. -/
def fmtMT (v : Nat) : Option FmtMT :=
  if bit v 29 then none else some ⟨fld 2 v 35 34, fld 4 v 33 30, fld 3 v 28 26, bit v 25, fld 2 v 24 23⟩

/-- An operation of the M slot (R238). -/
def decodeM (code v : Nat) : Option Op :=
  match code with
  | 0x00 => ifZero v 13 (opMmul (fmtMS v))
  | 0x01 => ifZero v 13 (opMmulp (fmtMS v))
  | 0x02 => ifZero v 13 (opMmul3 (fmtMS v))
  | 0x03 => ifZero v 2 (opMmulbs (fmtMB v))
  | 0x04 => (fmtMT v).bind (fun f => ifZero v 23 (opMst f))
  | 0x05 => (fmtMT v).bind (fun f => ifZero v 23 (opMstp f))
  | 0x06 => ifZero v 34 (opMfin (fld 2 v 35 34))
  | 0x07 => ifZero v 13 (opMlat (fmtMS v))
  | _ => none

/-- The fields of a stream operation (R240). -/
def fmtV (v : Nat) : FmtV :=
  ⟨fld 4 v 35 32, fld 4 v 31 28, fld 4 v 27 24, fld 4 v 23 20, fld 2 v 19 18, fld 4 v 17 14, fld 4 v 13 10, fld 5 v 9 5⟩

/-- An operation of the V slot (R240). -/
def decodeV (code v : Nat) : Option Op :=
  match code with
  | 0x00 => ifZero v 5 (opVbath (fmtV v))
  | 0x01 => ifZero v 5 (opVtpop (fmtV v))
  | 0x02 => ifZero v 26 (opVred (fld 2 v 35 34) (fld 4 v 33 30) (fld 3 v 29 27) (bit v 26))
  | 0x03 => ifZero v 34 (opVtclr (fld 2 v 35 34))
  | 0x04 => ifZero v 30 (opVtld (fld 2 v 35 34) (fld 4 v 33 30))
  | 0x05 => ifZero v 28 (opVcfill (fld 4 v 35 32) (fld 4 v 31 28))
  | _ => none

/-- The fields of a gate operation (R242). -/
def fmtG (v : Nat) : FmtG :=
  ⟨fld 5 v 35 31, fld 5 v 30 26, fld 7 v 25 19, bit v 18, fld 5 v 17 13, bit v 12, bit v 11⟩

/-- An operation of the D slot (R243, R245). -/
def decodeD (code v : Nat) : Option Op :=
  match code with
  | 0x10 => ifZero v 22 (opDfill (fld 4 v 35 32) (fld 5 v 31 27) (fld 5 v 26 22))
  | 0x11 => ifZero v 23 (opDcopy (fld 4 v 35 32) (fld 4 v 31 28) (fld 5 v 27 23))
  | 0x12 =>
    ifZero v 12 (opDpost (fld 4 v 35 32) (fld 5 v 31 27) (fld 5 v 26 22) (fld 2 v 21 20) (bit v 19) (fld 7 v 18 12))
  | _ => if code ≤ 0x0A then ifZero v 11 (opGate (byte code) (fmtG v)) else none

/-- An operation of the H slot, from its 32-bit field (R246). -/
def decodeH (v : Nat) : Option Op :=
  match bits v 27 22 with
  | 0x00 => if bits v 15 14 = 0 then some (opLoop (bit v 21) (fld 5 v 20 16) (fld 14 v 13 0)) else none
  | 0x01 => some (opLoopi (bit v 21) (fld 7 v 20 14) (fld 14 v 13 0))
  | 0x02 => some (opHint (fld 2 v 21 20) (fld 8 v 19 12) (fld 12 v 11 0))
  | 0x03 => if bits v 21 2 = 0 then some (opPhase (fld 2 v 1 0)) else none
  | 0x04 => if bits v 21 10 = 0 then some (opPref (fld 10 v 9 0)) else none
  | 0x05 => if bits v 21 0 = 0 then some opEdge else none
  | 0x06 => if bits v 21 0 = 0 then some opEnd else none
  | _ => none

/-! ### The bundle -/

/-- The slot of an encoding that is reserved. -/
def opReserved : Op where
  bad := fun _ _ => true
  eff := fun _ s => s

/-- The bits of slot `k`, 1 to 7 (R196). -/
def slotBits (raw : BitVec 384) (k : Nat) : Nat := bits raw.toNat (48 * k - 1) (48 * (k - 1))

/-- The operation of slot `k` (R196, R198). -/
def decodeSlot (raw : BitVec 384) (k : Nat) : Item :=
  let v := slotBits raw k
  let h := bits raw.toNat 367 336
  let code := bits v 43 36
  let op := match k with
    | 1 | 2 => decodeS code v
    | 3 | 4 => decodeA code v
    | 5 => decodeM code v
    | 6 => decodeV code v
    | 7 => decodeD code v
    | _ => decodeH h
  { slot := k, op := op.getD opReserved
    pred := if k = 8 then ⟨bit h 31, fld 3 h 30 28⟩ else ⟨bit v 47, fld 3 v 46 44⟩ }

/-- VALID: the slots that are not empty (R197). -/
def validSlots (raw : BitVec 384) : List Nat := (List.range 8).filterMap (fun i => if bit raw.toNat (376 + i) then some (i + 1) else none)

/-- The slots of a bundle that are not empty, in slot order. -/
def decodeBundle (raw : BitVec 384) : List Item := (validSlots raw).map (decodeSlot raw)

/-- FORMAT is 0b01 and the reserved header bits are zero (R197). -/
def headerOk (raw : BitVec 384) : Bool := bits raw.toNat 375 374 == 1 && bits raw.toNat 372 368 == 0

/-- SERIAL (R197). -/
def serial (raw : BitVec 384) : Bool := bit raw.toNat 373

end Sys2Proof.Machine
end

