-- ==== Sys2Proof/Machine/Bundle.lean ====
section
/-! DEFINITION. What a work core does with its bundles: fetch, issue, resumption of a split, and the events that end
operations (R197, R199 to R209, R212, R220, R276, R277, R288, R456, R565). -/

namespace Sys2Proof.Machine

/-! ### Fetch (R207 to R209) -/

/-- Bundles of an image. -/
def Image.bundles (i : Image) : Nat := i.bytes.length / 48

/-- Bundle `pc` of an image (R196, R10). -/
def Image.bundle (i : Image) (pc : Nat) : BitVec 384 := BitVec.ofNat 384 (leNat (slice i.bytes (48 * pc) 48))

/-- The image that node `n`'s cluster store holds for its basin (R209). -/
def storeImage (s : State) (n : Nat) : Option Image :=
  (imageOf s n).bind (fun i => if i.clusters.toNat.testBit (clusterOf n) then some i else none)

/-- A line of the cluster store that fails its parity until a PROG.LOAD rewrites the image (R565). -/
def badLine (s : State) (n line : Nat) : Bool :=
  s.die.badLines.contains (clusterOf n, (basinOf s n).getD 0, line)

/-- The line ahead is fetched once the line being issued has fewer than 8 bundles left (R208). -/
def fetchAhead (i : Image) (pc : Nat) (c : Core) : Core :=
  let l := pc / 16 + 1
  if 8 < pc % 16 ∧ 768 * l < i.bytes.length ∧ !c.ibuf.contains l ∧ !c.fetching.contains l then
    { c with fetching := c.fetching ++ [l] }
  else c

/-- IFETCH_MISS_FILL: the line that the core waits for, or else the first line being fetched, arrives; one that fails
its parity in the store faults the core (R208, R565). -/
def execIfetchMissFill (n : Fin 64) (parityOk : Bool) (s : State) : Res :=
  let c := s.core n
  .next (match c.miss.orElse (fun _ => c.fetching.head?) with
    | none => s
    | some l =>
      if parityOk && !badLine s n l then
        s.modCore n (fun c => { c with
          miss := if c.miss = some l then none else c.miss, fetching := c.fetching.filter (· != l)
          ibuf := ((l :: c.ibuf.filter (· != l)).take 168) })
      else
        let s1 := { s with die := { s.die with
          badLines := (clusterOf n, (basinOf s n).getD 0, l) :: s.die.badLines } }
        faultBundle (s1.modCore n (fun c => { c with fetching := [] })) (issueGroup s n) c.pc
          [((n : Nat), ⟨fcStoreParity, 0, 0⟩)])

/-! ### Issue -/

/-- Every operand register that a check of R201 needs holds its value. -/
def checksReady (c : Core) (l : List Item) : Bool :=
  let v := c.capture
  l.all (fun i => !v.pred i.pred || !i.op.checkSrcs.any (awaits v c))

/-- The first issue of bundle `raw` on a group whose checks can be made: it faults, or its parts issue (R199 to R203). -/
def issueBundle (s : State) (m : Nat) (ns : List Nat) (raw : BitVec 384) : State :=
  let pc := (s.core m).pc
  let l := decodeBundle raw
  match ns.filterMap (fun k => (checkNode s m ns pc k l).map (fun f => (k, f))) with
  | [] => issueParts (ns.foldl (fun t k => t.modCore k (fun c => { c with held := some { raw := raw, snap := c.capture } })) s)
      m ns pc l 0
  | fs => faultBundle s ns pc fs

/-- BUNDLE_ISSUE: the bundle at the program counter is fetched, checked and issued (R197, R199 to R209). -/
def execBundleIssue (n : Fin 64) (s : State) : Res :=
  let c := s.core n
  .next (
    if !mayIssue s n || c.held.isSome then countWait s n
    else
      let ns := issueGroup s n
      match storeImage s n with
      | none => faultBundle s ns c.pc [((n : Nat), ⟨fcNoImage, 0, 0⟩)]
      | some i =>
        if i.bundles ≤ c.pc.toNat then faultBundle s ns c.pc [((n : Nat), ⟨fcNoImage, 0, 0⟩)]
        else if !c.ibuf.contains (c.pc.toNat / 16) then
          s.modCore n (fun c => countStall .fetch { c with miss := some (c.pc.toNat / 16) })
        else
          let raw := i.bundle c.pc.toNat
          let s1 := s.modCore n (fetchAhead i c.pc.toNat)
          if !headerOk raw then faultBundle s1 ns c.pc [((n : Nat), ⟨fcBadEncoding, 0, 0⟩)]
          else if serial raw && !ns.all (fun k => quiet (s1.core k)) then s1.modCore n (countStall .register)
          else if !ns.all (fun k => checksReady (s1.core k) (decodeBundle raw)) then s1.modCore n (countStall .register)
          else issueBundle s1 n ns raw)

/-- BUNDLE_SPLIT_RESUME: the held part of a split issues, up to the next slot that something holds (R202); a core that was
resumed in a cluster without its basin's image faults instead (R209). -/
def execBundleSplitResume (n : Fin 64) (s : State) : Res :=
  let c := s.core n
  .next (match c.held with
    | some h =>
      if mayIssue s n then
        match storeImage s n with
        | some _ => issueParts s n (issueGroup s n) c.pc (decodeBundle h.raw) h.issued
        | none => faultBundle s (issueGroup s n) c.pc [((n : Nat), ⟨fcNoImage, 0, 0⟩)]
      else s
    | none => s)

/-! ### The ends of operations -/

/-- SCOREBOARD_RETIRE: an entry whose last byte has moved retires (R212). -/
def execScoreboardRetire (n : Fin 64) (entry : Nat) (s : State) : Res :=
  .next (match (s.core n).sb[entry]? with
    | some e => if e.use = .done then s.modCore n (fun c => { c with sb := c.sb.eraseIdx entry }) else s
    | none => s)

/-- The M slot of a bundle that stages operands on core `n` of the group of master `m`, if its predicate is true: the
operands. -/
def stagesOf (s : State) (m n : Nat) (pc : BitVec 14) (raw : BitVec 384) (v : Snap) (vm : Snap) : List (Nat × Nat) :=
  if !(validSlots raw).contains slotM then []
  else
    let i := decodeSlot raw slotM
    let lead := match i.op.scope with | .each => v | _ => vm
    if !lead.pred i.pred then []
    else i.op.stage (ctxOf s m n slotM v pc) s

/-- Staging is complete for bundle `pc` on each core of a group (R276). -/
def stageBundle (s : State) (m : Nat) (ns : List Nat) (pc : BitVec 14) (raw : BitVec 384) : State :=
  ns.foldl (fun t n =>
    let l := stagesOf t m n pc raw (capturedOf t n) (capturedOf t m)
    let c := t.core n
    if l.isEmpty ∨ 2 ≤ c.staged.length ∨ c.staged.any (fun g => g.pc == pc) then t
    else
      (l.foldl (fun u e => u.noteCore n e.1 e.2) t).modCore n (fun c => { c with
        staged := c.staged ++ [⟨pc, BitVec.ofNat 48 (slotBits raw slotM), some (l.map (fun e => t.mem.read e.1 e.2))⟩] })) s

/-- The ranges of strip `i` conflict on some core with an entry in flight or with a range of one of `before`, which are slots of the
head bundle (R211, R277). -/
def stagingConflict (s : State) (m : Nat) (ns : List Nat) (pc : BitVec 14) (i : Item) (before : List Item) : Bool :=
  let head := (s.core m).pc
  ns.any (fun n =>
    let at_ := fun (j : Item) (k : BitVec 14) =>
      (j.op.ranges (ctxOf s m n j.slot (capturedOf s n) k) s).map (fun r => r.entry .done)
    let hs := (before.filter (fun j => (actors s m ns j).contains n)).flatMap (fun j => at_ j head)
    (at_ i pc).any (fun e => (s.core n).sb.any (conflicts e) || hs.any (conflicts e)))

/-- The registers and ranges by which the head bundle, or what is in flight, keeps the next bundle's strip from being
staged (R277). -/
def stagingBlocked (s : State) (m : Nat) (ns : List Nat) (head : List Item) (raw : BitVec 384) : Bool :=
  let i := decodeSlot raw slotM
  (head.flatMap (fun j => j.op.dests)).any (fun d => match d with
    | .a r => i.op.aregs.contains r
    | .p r => r == i.pred.reg.toNat && r != 0
    | _ => false)
  || stagingConflict s m ns ((s.core m).pc + 1) i head

/-- STRIP_STAGING_COMPLETE: the staging set of the strip in the head bundle, or else in the bundle after it, holds its
panels (R276, R277). -/
def execStripStagingComplete (n : Fin 64) (s : State) : Res :=
  let c := s.core n
  .next (
    if c.run != .running then s
    else
      match storeImage s n with
      | none => s
      | some i =>
        let ns := issueGroup s n
        let head := match c.held with | some h => h.raw | none => i.bundle c.pc.toNat
        let issued := match c.held with | some h => h.issued.toNat | none => 0
        let issuedM := bit issued (slotM - 1)
        let before := (decodeBundle head).filter (fun j => decide (j.slot < slotM) && !bit issued (j.slot - 1))
        let mine := stagesOf s n n c.pc head (capturedOf s n) (capturedOf s n)
        let want := ns.any (fun k => !(stagesOf s n k c.pc head (capturedOf s k) (capturedOf s n)).isEmpty)
        if (want || !mine.isEmpty) && !issuedM && !c.staged.any (fun g => g.pc == c.pc) then
          if stagingConflict s n ns c.pc (decodeSlot head slotM) before then s else settleReads (stageBundle s n ns c.pc head)
        else if c.pc.toNat + 1 < i.bundles then
          let next := i.bundle (c.pc.toNat + 1)
          if (validSlots next).contains slotM && !stagingBlocked s n ns (decodeBundle head) next then
            settleReads (stageBundle s n ns (c.pc + 1) next)
          else s
        else s)

/-- STRIP_END: the strip in execution ends and its tiles hold the sums (R237, R280); in a lattice on every core. -/
def execStripEnd (n : Fin 64) (s : State) : Res :=
  .next ((issueGroup s n).foldl (fun t k => t.modCore k endStrip) s)

/-- A register that awaited its value when the operands were captured has it now: the captured operands take that value, and
keep it whatever a later part of the bundle writes (R199). -/
def Snap.resolve (v : Snap) (r : Nat) (w : W64) : Snap :=
  if v.pend.contains r then { v with s := tput v.s r w, pend := v.pend.filter (· != r) } else v

/-- GATE_RESULT_WRITE: a result that has come is written to its register, and to the captured operands of a held bundle that
awaits it (R199, R243, R456), that of a gang barrier not before its release edge (R420, R463); one that reaches no core that
holds its state waits. -/
def execGateResultWrite (n : Fin 64) (tag : W32) (s : State) : Res :=
  .next (s.modCore n (fun c =>
    match c.gops.find? (fun o => o.tag == tag) with
    | some o =>
      match (if o.due.all (fun e => e.toNat ≤ s.time.count.toNat) then o.result else none) with
      | some w => { c.setS o.sd.toNat w with gops := (c.setS o.sd.toNat w).gops.filter (fun q => q.tag != tag)
                                             held := c.held.map (fun h => { h with snap := h.snap.resolve o.sd.toNat w }) }
      | none => c
    | none => c))

end Sys2Proof.Machine
end

