-- ==== Sys2Proof/Machine/Service.lean ====
section
/-! DEFINITION. How the steward serves a command (R87 to R89, R91, R100 to R116, R121, R191, R513): the checks in their
order, the commit with its ledger entry, and the response. -/

namespace Sys2Proof

/-- The argument field of `n` bytes at slot offset `o` (R103). -/
def Request.arg (r : Request) (o n : Nat) : Nat := Machine.fieldAt r.args (o - 16) n
/-- `n` argument bytes at slot offset `o` (R103). -/
def Request.argBytes (r : Request) (o n : Nat) : List Byte := Machine.slice r.args (o - 16) n
/-- The first `n` argument bytes as the command reads them: those past the argument length read as zero (R103). -/
def Request.given (r : Request) (n : Nat) : List Byte := Machine.padTo n (r.args.take r.argLen.toNat)
/-- CHECK_ONLY (R103). -/
def Request.checkOnly (r : Request) : Bool := Machine.bit r.flags.toNat 0

end Sys2Proof

namespace Sys2Proof.Machine

/-! ### Requests and their arguments (R103) -/


/-- What a command's checks and its service come to. -/
structure Reply where
  /-- the status that its checks give; ST_OK or ST_ACCEPTED passes -/
  status : W16 := 0
  /-- result data from offset 16 -/
  result : List Byte := []
  /-- the detail of the entry that its commit appends -/
  detail : Option (List Byte) := none
  /-- the response is written later, by another event -/
  late : Bool := false
  /-- the entry carries the mark flag (R125) -/
  mark : Bool := false
  /-- the commit -/
  commit : Origin → State → State := fun _ s => s

/-- A refusal with no effect. -/
def Reply.no (st : W16) : Reply := { status := st }
/-- A result with no effect. -/
def Reply.data (l : List Byte) : Reply := { result := l }

/-- A command of the steward. -/
structure Cmd where
  code : W16
  /-- the first stage that serves it (R87) -/
  stage : Nat
  /-- it is served in ROM recovery -/
  recovery : Bool := false
  /-- the urgent lane serves it (R112) -/
  urgent : Bool := false
  /-- it is served after a stop (R513) -/
  afterStop : Bool := false
  /-- the argument fields: offset in the slot and size -/
  layout : Request → List (Nat × Nat) := fun _ => []
  /-- its argument is any sequence of bytes -/
  anyArgs : Bool := false
  /-- its checks, result and commit -/
  body : Request → State → Reply

/-- The header and the arguments are well formed (R103). -/
def wellFormed (c : Cmd) (r : Request) : Bool :=
  r.argLen.toNat ≤ 112 && r.resv == 0 && r.flags.toNat / 2 == 0
  && (c.anyArgs ||
      ((c.layout r).all (fun f => f.1 + f.2 ≤ 16 + r.argLen.toNat)
       && (List.range r.argLen.toNat).all (fun i =>
            (c.layout r).any (fun f => f.1 ≤ 16 + i && 16 + i < f.1 + f.2) || r.args.getD i 0 == 0)))

/-! ### Availability (R87 to R89, R91, R93) -/

/-- SLOT_ID was sampled outside 0 to 15 (R39). -/
def slotInvalid (s : State) : Bool := 16 ≤ s.boot.pins.slotId.toNat

/-- The command is available in the current stage (R39, R87, R91). -/
def inStage (s : State) (c : Cmd) : Bool :=
  if s.boot.stage = 0xF then c.code == 0x0100
  else if slotInvalid s then c.code == 0x0100 || c.code == 0x0002
  else if s.boot.stage = 0x8 then c.recovery
  else c.stage ≤ s.boot.stage.toNat

/-- VDD_SRAM and VDD_FLUME are within tolerance (R33, R513). -/
def stewardPowered (s : State) : Bool := bit s.aon.rails.toNat 1 && bit s.aon.rails.toNat 2

/-- The transport of an endpoint serves (R33, R39, R87, R91, R96). -/
def transportUp (s : State) (e : Nat) : Bool :=
  if s.boot.rstLow || s.boot.dead || !stewardPowered s then false
  else if e = 0 ∨ e = 4 then true
  else if e = 5 then s.boot.stage != 0xF && !slotInvalid s
  else 2 ≤ s.boot.stage.toNat && s.boot.stage.toNat ≤ 3

/-- The checks before the command's own, in the order of R103, R88, R112, R89 and R513; R569 ends service as a stop
does. -/
def generalStatus (c : Cmd) (r : Request) (s : State) : Option W16 :=
  if !wellFormed c r then some stBadArg
  else if !inStage s c then some stStage
  else if r.urgent && !c.urgent then some stUnsupported
  else if s.boot.preparing && c.stage == 3 then some stBusy
  else if (stopped s || s.boot.ended) && !c.afterStop then some stConflict
  else none

/-- The reply to a request; a stage refusal tells the stage required and the current one (R88), which below the floor
is 0xF (R91). -/
def replyTo (c : Cmd) (r : Request) (s : State) : Reply :=
  match generalStatus c r s with
  | some st =>
    if st = stStage then { status := st, result := [byte (if s.boot.stage = 0xF then 0xF else c.stage), s.boot.stage] }
    else Reply.no st
  | none => c.body r s

/-- The checks have passed. -/
def passes (st : W16) : Bool := st == stOk || st == stAccepted

/-! ### Responses (R104, R109 to R111, R374) -/

/-- The response slot (R104). -/
def responseSlot (cmd : W16) (r : Request) (st : W16) (result : List Byte) (seq : Option W32) : List Byte :=
  padTo 128 (leBytes 2 cmd.toNat ++ leBytes 2 r.seq.toNat ++ leBytes 2 r.tenant.toNat ++ leBytes 2 st.toNat
    ++ leBytes 2 result.length ++ leBytes 4 (seq.getD 0xFFFFFFFF).toNat ++ [if seq.isSome then 1 else 0, 0] ++ result)

/-- A response leaves on EP1–EP3 as a packet, unless its sender cannot be reached (R102, R110). -/
def sendPeer (s : State) (dst : W16) (slot : List Byte) : State := if reachable s dst then s.send (packet s dst 0 2 slot) else s

/-- The pair that this chiplet drives on the leat chain (R48, R522, R528). -/
def drivenPair (s : State) : Option LeatPair :=
  if s.boot.rstLow || s.boot.dead || (s.leat.master && !s.leat.drive) then none
  else match s.leat.state with
    | .forward => some .dO
    | .reverse => some .di
    | .search => none

/-- A leat frame leaves on the driven pair; without one it is lost (R532). -/
def leatSend (s : State) (kind addr : Byte) (tag : W16) (body : List Byte) : State :=
  match drivenPair s with
  | some p => s.emit (.leat p kind { addr := addr, tag := tag, body := padTo 64 body, ok := true })
  | none => s

/-- The chiplet's own slot on the chain. -/
def ownSlot (s : State) : Byte := byte s.boot.pins.slotId.toNat

/-- A response leaves on the leat chain in two halves, with the tag of its request's pair (R524, R531). -/
def sendLeat (s : State) (urgent : Bool) (tag : W16) (slot : List Byte) : State :=
  let k : Nat := if urgent then 0x36 else 0x32
  leatSend (leatSend s (byte k) (ownSlot s) tag (slot.take 64)) (byte (k + 1)) (ownSlot s) tag (slot.drop 64)

/-- The response is written, the completion advances, and the notice goes out (R104, R109, R111).  On EP1 to EP4 the transport
logic empties the ring for the sender: it sends the response, advances RSP_ACK past it and clears DONE in the same step (DESIGN
CHOICE, log 84: the spec does not say when). -/
def respond (s : State) (cmd : W16) (r : Request) (st : W16) (result : List Byte) (seq : Option W32) : State :=
  let e : Nat := r.ep
  let slot := responseSlot cmd r st result seq
  let p := s.ep e
  if r.urgent then
    let s1 := s.setEp e { p with urgRsp := slot, busy := false, done := e == 0 || e == 5 }
    if e = 0 then s1.emit (.sideband 0x01 [0, 1, byte p.comp.toNat])
    else if e = 4 then sendLeat s1 true r.srcFa slot
    else if e = 5 then s1 else sendPeer s1 r.srcFa slot
  else
    let p1 := { p with rsp := tput p.rsp (p.comp.toNat % 32) slot, comp := p.comp + 1 }
    if e = 0 then (s.setEp e p1).emit (.sideband 0x01 [0, 0, byte p1.comp.toNat])
    else if e = 5 then s.setEp e p1
    else
      let s1 := s.setEp e { p1 with ack := p1.comp }
      if e = 4 then sendLeat s1 false r.srcFa slot else sendPeer s1 r.srcFa slot

/-! ### Service (R106, R108, R113, R114, R121) -/

/-- Where a request came from (R118, R120): the sender's FA on EP1–EP3, else this chiplet's. -/
def originOf (s : State) (c : Cmd) (r : Request) : Origin :=
  { ep := byte r.ep, urgent := r.urgent, srcFa := if 1 ≤ (r.ep : Nat) ∧ (r.ep : Nat) ≤ 3 then r.srcFa else s.fa
    tenant := r.tenant, seq := r.seq, cmd := c.code }

/-- The commit of a command and its ledger entry, one step (R65, R121): the state, and the entry's sequence number. -/
def commitStep (s : State) (c : Cmd) (r : Request) (a : Reply) : State × Option W32 :=
  let o := originOf s c r
  match a.detail with
  | none => (a.commit o s, none)
  | some d =>
    let seq := s.ledger.head
    let e : LedgerEntry := { srcFa := o.srcFa, ep := o.ep, flags := (if r.urgent then 0x01 else 0) ||| (if a.mark then 0x08 else 0)
                             cmd := c.code, tenant := r.tenant, result := a.status, reqSeq := r.seq, detail := padTo 8 d }
    (a.commit o (append s e), some seq)

/-- A response that comes later is kept in service (WINDOW.CLOSE, SEG.POWER, BASIN.SEIZE). -/
def keepWaiting (s : State) (c : Cmd) (r : Request) (a : Reply) (seq : Option W32) : State :=
  let k : InService := { req := r, cmd := c.code, passed := true, waiting := true, result := a.result, ledger := seq }
  { s with svc := if r.urgent then { s.svc with urgent := some k } else { s.svc with normal := some k } }

/-- Serve a request to its end: its checks, its commit, and its response; a CHECK_ONLY request that passes completes with ST_OK
and no result data, also where the command only reads (DESIGN CHOICE, log 85: R103 gives the status alone); `force` overrides a failing status after a
preemption (R114). -/
def serveWith (c : Cmd) (r : Request) (s : State) (force : Option W16) : State :=
  let a := replyTo c r s
  if !passes a.status then respond s c.code r (force.getD a.status) (if force.isSome then [] else a.result) none
  else if r.checkOnly then respond s c.code r stOk [] none
  else
    let x := commitStep s c r a
    if a.late then keepWaiting x.1 c r a x.2
    else respond x.1 c.code r a.status a.result x.2

def serve (c : Cmd) (r : Request) (s : State) : State := serveWith c r s none

/-- A command whose response was to come is answered: ST_OK, or the status given. -/
def finishLate (s : State) (urgent : Bool) (st : W16) (result : Option (List Byte)) : State :=
  match (if urgent then s.svc.urgent else s.svc.normal) with
  | some k =>
    let s1 := { s with svc := if urgent then { s.svc with urgent := none } else { s.svc with normal := none } }
    respond s1 k.cmd k.req st (result.getD k.result) k.ledger
  | none => s

/-- The ledger entry of a command that waits for its response (R120, R121): the state, and its sequence number kept with
the command. -/
def lateEntry (s : State) (urgent : Bool) (o : Origin) (detail : List Byte) : State :=
  let seq := s.ledger.head
  let s1 := append s { srcFa := o.srcFa, ep := o.ep, flags := if o.urgent then 0x01 else 0, cmd := o.cmd, tenant := o.tenant
                       reqSeq := o.seq, detail := padTo 8 detail }
  let f := fun (k : Option InService) => k.map (fun k => { k with ledger := some seq })
  { s1 with svc := if urgent then { s1.svc with urgent := f s1.svc.urgent } else { s1.svc with normal := f s1.svc.normal } }

/-- A seizure that has not committed ends with ST_CONFLICT and no entry (R484, R578). -/
def abortSeizure (s : State) : State :=
  match s.seize with
  | some z =>
    finishLate ({ s with seize := none }.modBasin z.basin (fun v => { v with saved := [], savedVoid := false, rerunMark := false })) z.urgent stConflict (some [])
  | none => s

/-! ### Requests in their rings (R98 to R102, R107) -/

def Endpoint.reqCount (p : Endpoint) : Nat := (p.prod - p.cons).toNat
def Endpoint.rspCount (p : Endpoint) : Nat := (p.comp - p.ack).toNat

/-- A request as its slot holds it (R103). -/
def requestSlot (cmd : W16) (r : Request) : List Byte :=
  padTo 128 (leBytes 2 cmd.toNat ++ leBytes 2 r.seq.toNat ++ leBytes 2 r.tenant.toNat ++ leBytes 2 r.flags.toNat
    ++ leBytes 2 r.argLen.toNat ++ leBytes 6 r.resv.toNat ++ padTo 112 r.args)

/-- The request that a slot holds. -/
def parseSlot (ep : Fin 6) (urgent : Bool) (srcFa : W16) (l : List Byte) : W16 × Request :=
  (BitVec.ofNat 16 (fieldAt l 0 2),
   { ep := ep, urgent := urgent, srcFa := srcFa, seq := BitVec.ofNat 16 (fieldAt l 2 2)
     tenant := BitVec.ofNat 16 (fieldAt l 4 2), flags := BitVec.ofNat 16 (fieldAt l 6 2)
     argLen := BitVec.ofNat 16 (fieldAt l 8 2), resv := BitVec.ofNat 48 (fieldAt l 10 6), args := slice l 16 112 })

/-- A request enters its ring; a full ring answers ST_BUSY at once where the transport logic fills it (R102, R531), and
otherwise the doorbell is a ring fault (R99). -/
def enqueue (s : State) (r : Request) (slot : List Byte) : State :=
  let e : Nat := r.ep
  let p := s.ep e
  if 32 ≤ p.reqCount then
    if e = 0 ∨ e = 5 then s.setEp e { p with ringFault := true }
    else
      let full := responseSlot (BitVec.ofNat 16 (fieldAt slot 0 2)) r stBusy [] none
      if e = 4 then sendLeat s false r.srcFa full else sendPeer s r.srcFa full
  else
    let k := p.prod.toNat % 32
    s.setEp e { p with req := tput p.req k slot, src := tput p.src k r.srcFa, prod := p.prod + 1 }

/-- The endpoints in the order of round robin after `last` (R107). -/
def roundRobin (last : Nat) : List (Fin 6) := (List.range 6).map (fun i => Fin.ofNat 6 (last + 1 + i))

/-- An endpoint with a pending request and a free response slot (R101, R107). -/
def ready (s : State) (e : Fin 6) : Bool :=
  let p := s.ep e
  transportUp s e && p.reqCount != 0 && p.rspCount < 32

/-- The steward is free for a normal request: nothing is in service, no urgent request waits, and firmware serves (R113,
R116). -/
def normalFree (s : State) : Bool :=
  s.svc.normal.isNone && s.svc.urgent.isNone && !s.svc.urgentQ.any (transportUp s) && !s.svc.paused && !inPause s

/-- The steward begins a normal request that arrives on endpoint `e` at once: its ring is empty, a response slot is free (R101),
the steward is free, and no endpoint that round robin puts before `e` has a request to serve (R107). -/
def canBegin (s : State) (e : Fin 6) : Bool :=
  let p := s.ep e
  p.reqCount == 0 && p.rspCount < 32 && normalFree s && ((roundRobin s.svc.last).takeWhile (· != e)).all (fun f => !ready s f)

/-- The state as a request that arrives is taken into service at once: its slot is filled and given back, the two request
indices have passed it, and round robin goes on from its endpoint (R98, R100, R102, R107). -/
def takeAtOnce (c : Cmd) (r : Request) (s : State) : State :=
  let p := s.ep r.ep
  let k := p.prod.toNat % 32
  { s.setEp r.ep { p with req := tput p.req k (requestSlot c.code r), src := tput p.src k r.srcFa, prod := p.prod + 1, cons := p.cons + 1 } with
    svc := { s.svc with last := r.ep } }

/-- A request's sender can be served on its endpoint: on EP1 to EP3 once a route to it exists (R96; DEDUCED, log 83: the rule is
applied as the request arrives). -/
def routed (s : State) (e : Nat) (src : W16) : Bool := e == 0 || 3 < e || reachable s src

/-- An urgent request is served at once: no other urgent command is in service or ahead of it, and no seizure is under way
on a normal ring (R113, R115). -/
def urgentFree (s : State) : Bool := s.svc.urgent.isNone && s.svc.urgentQ.isEmpty && s.seize.isNone && !s.svc.muted

/-- A command row: its request arrives on its endpoint and is served when the steward can begin it; otherwise it waits
in its ring, or in its urgent slot (R106, R107, R111, R116). -/
def serveRow (c : Cmd) (r : Request) (s : State) : State :=
  let e : Nat := r.ep
  if !transportUp s e || !routed s e r.srcFa then s
  else if r.urgent then
    let p := s.ep e
    if p.busy || p.done then s.setEp e { p with overrun := true }
    else
      let s1 := s.setEp e { p with busy := true, urgReq := requestSlot c.code r, urgSrc := r.srcFa }
      if urgentFree s then serve c r s1
      else { s1 with svc := { s1.svc with urgentQ := s1.svc.urgentQ ++ [e] } }
  else if canBegin s r.ep then serve c r (takeAtOnce c r s)
  else enqueue s r (requestSlot c.code r)

end Sys2Proof.Machine
end

