-- ==== Sys2Proof/Machine/Resets.lean ====
section
/-! DEFINITION. How a core starts, stops, resumes and is reset, the reset of a basin, and what a parity detection does
(R60, R63, R64, R66, R207, R218, R220, R280, R319, R320, R339 to R349, R455 to R458, R564 to R569). -/

namespace Sys2Proof.Machine

/-! ### The vector engine at a stop and at a resume (R319, R320) -/

/-- An operation that a stop lets run to its end (R319). -/
def runsOut : VKind → Bool
  | .clear _ => true
  | .load _ _ => true
  | .fill _ _ => true
  | .red _ _ k _ => k == 5
  | .bath _ => false
  | .pop _ _ _ _ => false

/-- The operation that the engine computes is abandoned at a group (R319). -/
def abandonV (s : State) (n : Nat) : State :=
  match (s.core n).v with
  | [] => s
  | o :: _ =>
    match o.kind with
    | .bath f => stopStream s n o f none
    | .pop f t pair _ => stopStream s n o f (some (tileSource (s.core n) t pair))
    | _ => s

/-- A stop: the stream in flight completes the groups before the one that it abandons, the waiting operations that run out
complete, and the streams stay in their anchors, with no entry, no binding and no pending mark (R220, R319). -/
def quietV (s : State) (n : Nat) : State :=
  let l := (s.core n).v
  let s0 := abandonV s n
  let s1 := (l.filter (fun o => runsOut o.kind)).foldl (fun t o => completeV (t.modCore n (fun c => { c with v := [o] })) n) s0
  s1.modCore n (fun c => { c with
    v := [], tokens := c.tokens.map (fun t => { t with bound := false })
    sb := c.sb.filter (fun e => match e.use with | .vector _ => false | _ => true)
    qPend := l.foldl (fun q o => match o.kind with | .red qd _ _ _ => putBit q qd.toNat false | _ => q) c.qPend
    d := (l.filter (fun o => !runsOut o.kind)).zipIdx.foldl (fun d e =>
      match vAnchor e.1.kind with
      | some k => tput d k (dSet (tget 0 d k) 84 83 (e.2 + 1))
      | none => d) c.d })

/-- The stream operation that an anchor holds, as its CLASS and OPERANDS spell it (R318). -/
def heldKind (c : Core) (d : Nat) : Option VKind :=
  let x := (tget 0 c.d d).toNat
  let w := bits x 127 101
  let f : FmtV := { dd := BitVec.ofNat 4 d, d1 := BitVec.ofNat 4 (bits w 26 23), d2 := BitVec.ofNat 4 (bits w 22 19)
                    d3 := BitVec.ofNat 4 (bits w 18 15), nsrc := BitVec.ofNat 2 (bits w 14 13)
                    region := BitVec.ofNat 4 (bits w 12 9), off := BitVec.ofNat 4 (bits w 8 5), len := BitVec.ofNat 5 (bits w 4 0) }
  match bits x 100 99 with
  | 0 => some (.bath f)
  | 1 => (freeToken c).map (fun t => .pop f t.tile t.pair t.seq)
  | 2 => some (.red (BitVec.ofNat 2 (bits w 5 4)) (BitVec.ofNat 4 d) (BitVec.ofNat 3 (bits w 3 1)) (bit w 0))
  | _ => none

/-- The ranges of a stream operation that restarts (R320): of its sources for reading, of its anchor for writing. -/
def heldRanges (c : Core) (k : VKind) : List RangeReq :=
  let v := c.capture
  match k with
  | .bath f => (vSources f).map (fun d => streamRange v d false) ++ [streamRange v f.dd.toNat true]
  | .pop f _ _ _ => (vSources f).map (fun d => streamRange v d false) ++ [streamRange v f.dd.toNat true]
  | .red _ ds k _ => if k = 5 then [] else [streamRange v ds.toNat false]
  | _ => []

/-- A restarted operation takes its place: its token is bound again, a summary is pending again, and its ranges are
declared again; one whose encoding is reserved is dropped (R320; DEDUCED, log 44). -/
def restartV (c : Core) (d : Nat) : Core :=
  let drop := c.setD d (dSet (tget 0 c.d d) 84 83 0)
  match heldKind c d with
  | none => drop
  | some k =>
    let bad := match k with
      | .bath f => f.nsrc == 0 || (f.dd.toNat :: vSources f).any (typeBad c.capture)
      | .pop f _ _ _ => f.nsrc == 3 || (f.dd.toNat :: vSources f).any (typeBad c.capture)
      | .red qd ds k t => qd == 3 || 5 < k.toNat || (t && 3 ≤ k.toNat) || typeBad c.capture ds.toNat
      | _ => true
    if bad then drop
    else
      let es := (heldRanges c k).map (fun r => r.entry (.vector c.vNext))
      { c with
        v := c.v ++ [{ id := c.vNext, kind := k, group := bits (tget 0 c.d d).toNat 98 85 }], vNext := c.vNext + 1
        sb := c.sb ++ es
        tokens := match k with | .pop _ _ _ _ => bindToken c.tokens | _ => c.tokens
        qPend := match k with | .red qd _ _ _ => putBit c.qPend qd.toNat true | _ => c.qPend }

/-- The engine restarts the operation held first, then the other (R320). -/
def resumeV (c : Core) : Core :=
  if !c.v.isEmpty then c
  else
    let held := fun (h : Nat) => (List.range 16).filter (fun d => bits (tget 0 c.d d).toNat 84 83 == h)
    (held 1 ++ held 2).foldl restartV c

/-! ### Stop and resume (R207, R220, R280, R456) -/

/-- A core stops at the end of its strip with its state held: what is staged is discarded, the engine falls quiet, and
its gate operations go as R456 says. -/
def stopCore (s : State) (n : Nat) (as : CoreRun) : State :=
  let s1 := quietV (s.modCore n endStrip) n
  stopGates (s1.modCore n (fun c => { c with run := as, staged := [], miss := none, fetching := [], stepping := false })) n

/-- A core with held state runs on: its instruction buffer is empty, and its fault record is gone; its engine restarts at once
unless operand-cache regions have still to be refilled (R207, R320, R563). -/
def resumeCore (s : State) (n : Nat) (step : Bool) : State :=
  s.modCore n (fun c => { (if c.refill then c else resumeV c) with run := .running, ibuf := [], fault := none, stepping := step })

/-- OPERAND_CACHE_REFILLED: the core's regions hold their sources' contents again, and a core that runs restarts its engine and
goes on issuing (R222, R320). -/
def execOperandCacheRefilled (n : Fin 64) (s : State) : Res :=
  let full := fun (c : Core) => { c with
    refill := false, cache := c.csrc.foldl (fun t e => tput t e.1 (s.mem.read e.2.toNat 4096)) c.cache }
  .next (if (s.core n).refill then
      settleReads (((s.core n).csrc.foldl (fun t e => t.noteCore n e.2.toNat 4096) s).modCore n (fun c =>
        if c.run = .running then resumeV (full c) else full c))
    else s)

/-- VECTOR_OP_COMPLETE: the first operation that the engine holds completes, also on a core that a fault stopped (R316, R321);
the engine of a core that a single step halted falls quiet (R319). -/
def execVectorOpComplete (n : Fin 64) (s : State) : Res :=
  .next (match (s.core n).run with
    | .halted => settleReads (quietV s n)
    | _ => settleReads (completeV s n))

/-! ### Faults of the hardware (R564, R567 to R569, R578) -/

/-- The code of a hardware cause (R562). -/
def hwCode : HwCause → Byte
  | .stateParity => 0x11
  | .operandLink => 0x12
  | .engineCheck => 0x13

/-- A node faults in service: GRADE.MAP shows it, and the count of good cores may fall short (R564, R567, R572). -/
def nodeFault (s : State) (n : Nat) (cause : Byte) : State :=
  let s1 := s.setNode n .faulted
  let g := goodCount s1
  let s2 := { s1 with boot := { s1.boot with shortfall := s1.boot.shortfall || decide (g < s1.fuses.grade.toNat) } }
  event s2 0xE004 [byte n, byte (s.logical n), cause, byte g, s.fuses.grade]

/-- The operation that met the detection writes nothing further: a strip of the M slot or the first operation of the V slot
is dropped (R564). -/
def dropFaulting (c : Core) (slot : Byte) : Core :=
  if slot = 5 then { c with strip := none }
  else if slot = 6 then (match c.v with | o :: _ => releaseV c o | [] => c)
  else c

/-- HARDWARE_FAULT: the core stops, in a lattice every core, and its node is faulted in service; a seized core's record is
not valid (R295, R564, R573, R578). -/
def execHardwareFault (n : Fin 64) (cause : HwCause) (slot : Byte) (s : State) : Res :=
  let c := s.core n
  .next (
    if c.run = .idle ∨ c.run = .faulted then s
    else
      let b := (basinOf s n).getD 0xFF
      let pos := (s.basin b).rect.position n
      let ns := issueGroup s n
      let s0 := s.modCore n (fun c => dropFaulting c slot)
      let s1 := if seizing s b then
          s0.modBasin b (fun v => { v with saved := v.saved.filter (fun e => e.pos != pos) }) else s0
      let s2 := faultCore s1 n ⟨hwCode cause, slot.toNat, 0⟩ 0x01 c.pc
      let s3 := nodeFault s2 n (hwCode cause)
      ns.foldl (fun t k => if k ≠ (n : Nat) ∧ (t.core k).run = .running then holdCore t k else t) s3)

/-- The AON time within which three flume faults end service: 3,600 s (R569). -/
def flumeHour : Nat := 3600000000000

end Sys2Proof.Machine
end

