-- ==== Sys2Proof/Machine/Windows.lean ====
section
/-! DEFINITION. Windows: admission, credits, the packets of transfers at the window, and what ends a window (R423 to
R426, R432 to R434, R440, R444, R445). -/

namespace Sys2Proof.Machine

/-! ### Credits (R432, R433) -/

/-- CREDIT_REQ: queued, granted or answered FULL; a window that is not open answers as check 1 of R425 does (DEDUCED,
log 21). -/
def execCreditReq (src : W16) (window kind : Byte) (outstanding : W16) (xfer : W16) (chan : Byte) (s : State) : Res :=
  let k := window.toNat
  let w := s.window k
  let _ := kind
  .next (match w.state with
    | .closed => packetDone s src window dcNoWindow xfer chan 0 0
    | .revoked => packetDone s src window dcRevoked xfer chan 0 0
    | .opened =>
      let waits := (w.entry src chan).any (fun g => g.wanted != 0)
      if !waits ∧ 64 ≤ (w.queue.filter (fun g => g.wanted != 0)).length then
        control s src 0x24 ([window, 0] ++ leBytes 2 xfer.toNat ++ [chan])
      else match w.entry src chan with
      | some _ => flush (regrant (s.setWindow k (w.modEntry src chan (fun g => { g with wanted := outstanding.toNat, xfer := xfer }))) k)
      | none =>
        if outstanding = 0 then s
        else flush (regrant (s.setWindow k { w with queue := w.queue ++ [{ fa := src, chan := chan, xfer := xfer, held := 0, wanted := outstanding.toNat }] }) k))

/-- CREDIT_RELEASE: the credits return, those of packets that have come excepted, and the channel wants no more (R433, R441,
R442). -/
def execCreditRelease (src : W16) (window n : Byte) (xfer : W16) (chan : Byte) (s : State) : Res :=
  let k := window.toNat
  let _ := xfer
  .next (flush (regrant (s.setWindow k ((s.window k).modEntry src chan (fun g =>
    { g with held := g.held - min n.toNat (g.held - g.used), wanted := 0 }))) k))

/-- CREDIT_RECLAIM: a credit whose packet has not arrived 50 ms after its grant (R433). -/
def execCreditReclaim (window : Fin 64) (fa : W16) (chan : Byte) (s : State) : Res :=
  let w := s.window window
  .next (if (w.entry fa chan).any (fun g => g.used < g.held) then
      let w1 := w.modEntry fa chan (·.freed false)
      flush (regrant (s.setWindow window { w1 with ended := (fa, chan, dcExpired) :: w1.ended }) window)
    else s)

/-! ### Admission (R425, R426) -/

/-- A source entry admits a packet (R426). -/
def sourceMatches (h : XferHdr) (e : WinSource) : Bool :=
  (e.tenant == 0xFFFF || e.tenant == h.tenant)
  && (if h.combined then e.mask == 0 else (h.src ^^^ e.fa) &&& e.mask == 0)

/-- Bytes of the window that a packet covers. -/
def hdrBytes (h : XferHdr) : Nat := 256 * (if h.addType = 2 then h.granules.toNat / 2 else h.granules.toNat)

/-- The right that a packet needs: bit 0 read, 1 write, 2 atomic add; and whether it needs a credit. -/
inductive Access where
  | read | write | add
deriving DecidableEq, Repr

def Access.right : Access → Nat
  | .read => 0 | .write => 1 | .add => 2

/-- The first check of R425 that fails. -/
def admission (s : State) (h : XferHdr) (acc : Access) : Option Byte :=
  let w := s.window (gaWindow h.ga)
  let off := gaOffset h.ga
  let n := hdrBytes h
  match w.state with
  | .closed => some dcNoWindow
  | .revoked => some dcRevoked
  | .opened =>
    if !w.sources.any (sourceMatches h) then some dcSource
    else if !bit w.rights.toNat acc.right then some dcRights
    else if 2 ^ w.size < off + n ∨ off % 256 ≠ 0 then some dcRange
    else if (segsOf (w.base + off) (w.base + off + n)).any (fun k => (s.seg k).power != .on) then some dcSegOff
    else if acc = .add ∨ (w.entry h.src h.chan).any (fun g => g.used < g.held) then none
    else
      match w.ended.find? (fun e => e.1 == h.src && e.2.1 == h.chan) with
      | some e => some e.2.2
      | none => some dcExpired

/-- A refused packet is answered with its cause; a credit that it held returns, which an add packet does not need (R425, R433). -/
def refusePacket (s : State) (h : XferHdr) (acc : Access) (cause : Byte) : State :=
  match acc with
  | .add => postDone s h.src (byte (gaWindow h.ga)) cause h.xfer h.chan h.index 0
  | _ => finishPacket s h cause false

def windowAddress (s : State) (h : XferHdr) : Nat := (s.window (gaWindow h.ga)).base + gaOffset h.ga

/-- WRITE_PACKET: a packet has come whole; the granules of an admitted one are written (R425, R434). -/
def execWritePacket (h : XferHdr) (data : List (List Byte)) (s : State) : Res :=
  .next (flush (match admission s h .write with
    | some c => refusePacket s h .write c
    | none => finishPacket (s.write (windowAddress s h) (padTo (hdrBytes h) (data.flatMap (padTo 256)))) h 0 false))

/-- The read data that answer a request: one packet (R431). -/
def readData (s : State) (h : XferHdr) : Packet :=
  let frames := chunks 256 h.granules.toNat (s.mem.read (windowAddress s h) (hdrBytes h))
  { hdr := { dst := h.src, src := s.fa, tenant := h.tenant, typ := 8, nData := byte frames.length, hops := 0, flags := 0 }
    content := leBytes 8 h.ga.toNat ++ leBytes 2 h.xfer.toNat ++ [h.chan, h.granules] ++ leBytes 2 h.index.toNat ++ List.replicate 14 0
    data := frames }

/-- The granules of an admitted read request go back as one packet; a parity detection is counted and fails the packet.  The
request is answered once the last frame has been sent; data for this chiplet itself take no port (R434, R440). -/
def serveRead (s : State) (h : XferHdr) : State :=
  let bad := firstBad s.mem (windowAddress s h) (hdrBytes h)
  let outcome := if bad.isSome then dcParity else 0
  let s1 := s.post (readData s h)
  let s2 := match bad with
    | some w => detect s1 w none 4
    | none => s1
  if h.src = s.fa ∨ !reachable s h.src then finishPacket s2 h outcome false
  else useCredit { s2 with dma := { s2.dma with reads := s2.dma.reads ++ [(h, outcome)] } } h

/-- READ_REQUEST (R425, R434, R440). -/
def execReadRequest (h : XferHdr) (s : State) : Res :=
  .next (flush (match admission s h .read with
    | some c => refusePacket s h .read c
    | none => serveRead s h))

/-- The granules of an admitted add packet leave for the reduction units of their slices as add writes, which routers may combine
on the way (R360); each arrives by ADD_WRITE_ARRIVAL. -/
def admitAdd (s : State) (h : XferHdr) : State :=
  let l := (List.range (hdrBytes h / 256)).map (fun i => windowAddress s h + 256 * i)
  { s with dma := { s.dma with adds := s.dma.adds ++ [{ hdr := h, left := l }] } }

/-- ADD_PACKET: the packet completes when every reduction that it joined has ended (R425, R434). -/
def execAddPacket (h : XferHdr) (data : List (List Byte)) (s : State) : Res :=
  let _ := data
  .next (match admission s h .add with
    | some c => flush (refusePacket s h .add c)
    | none => admitAdd s h)

/-! ### The rows of the reduction units (R362, R364) -/

/-- ADD_WRITE_ARRIVAL (R362). -/
def execAddWriteArrival (h : XferHdr) (granule : Nat) (data : List Byte) (s : State) : Res :=
  let w : AddWrite := ⟨h, granule, data⟩
  .next (match acceptAdd s w with
    | some t => settleReads (retryAdds t)
    | none => { s with dma := { s.dma with redWait := s.dma.redWait ++ [w] } })

/-- REDUCTION_TIMEOUT: an entry incomplete 1 ms after its allocation (R364). -/
def execReductionTimeout (entry : Nat) (s : State) : Res :=
  .next (match s.dma.reds[entry]? with
    | some e => retryAdds (abortEntry s e (some 1))
    | none => s)

/-! ### The end of a window (R180, R418, R424, R444, R445) -/

/-- A revocation packet to `fa` naming windows by bit mask (R418, R445). -/
def sendRevocation (s : State) (fa : W16) (action : Nat) (b : Nat) (mask : Nat) : State :=
  let n := s.dma.revNo + 1
  let s1 := { s with dma := { s.dma with revNo := n } }
  s1.send (packet s1 fa 0 10 ([byte action, byte b] ++ leBytes 2 (s.basin b).tenant.toNat ++ leBytes 4 n.toNat
    ++ leBytes 8 mask))

/-- The FAs that hold a grant of window `k` or wait in its queue. -/
def windowFas (s : State) (k : Nat) : List W16 := ((s.window k).queue.map (fun g => g.fa)).eraseDups

/-- Data frames of write packets into window `k` that come from now on are discarded (R444). -/
def Rx.revoke (k : Nat) (x : Rx) : Rx :=
  match x.st with
  | .write h at_ n live => { x with st := .write h at_ n (live && gaWindow h.ga != k) }
  | _ => x

/-- A seizure revokes window `k`: the write packets that are coming in are cut, and the read requests not yet answered in full
fail (R444). -/
def revokePackets (s : State) (k : Nat) : State :=
  let s1 := (List.range 20).foldl (fun t q => t.modPort q (fun p => { p with incoming := p.incoming.map (fun e => (e.1, e.2.revoke k)) })) s
  let l := s1.dma.reads.filter (fun e => gaWindow e.1.ga == k)
  let s2 := { s1 with dma := { s1.dma with reads := s1.dma.reads.filter (fun e => gaWindow e.1.ga != k) } }
  l.foldl (fun t e => postDone t e.1.src (byte k) dcRevoked e.1.xfer e.1.chan e.1.index 0) s2

/-- Window `k` stops serving: its incomplete reductions are aborted, its grants end with `cause`, and each channel in its
queue is answered with it.  Packets that were admitted complete, unless a seizure revokes the window (R180, R444). -/
def stopWindow (s : State) (k : Nat) (st : WinState) (cause : Byte) : State :=
  let w := s.window k
  let s1 := s.setWindow k { w with
    state := st, queue := [], ended := (w.queue.filter (fun g => g.held != 0)).map (fun g => (g.fa, g.chan, cause)) ++ w.ended }
  let s2 := abortReds (if st = .revoked then revokePackets s1 k else s1) (fun e => e.window == k)
  flush ((w.queue.filter (fun g => g.wanted != 0)).foldl (fun t g => postDone t g.fa (byte k) cause g.xfer g.chan 0 0) s2)

/-- Accesses within credits of window `k` are in flight: a write packet is coming in, or read data have not fully left (R180). -/
def windowBusy (s : State) (k : Nat) : Bool :=
  s.dma.reads.any (fun e => gaWindow e.1.ga == k)
  || (List.range 20).any (fun q => (s.port q).incoming.any (fun e => match e.2.st with
      | .write h _ _ live => live && gaWindow h.ga == k
      | _ => false))

/-- The windows `ks` of basin `b` stop, and each FA concerned is sent one revocation packet: `action` 1 revoked by a
seizure, 2 closed, 3 destroyed (R418, R445); the FAs with it. -/
def stopWindows (s : State) (b : Nat) (ks : List Nat) (action : Nat) : State × List W16 :=
  let fas := (ks.flatMap (windowFas s)).eraseDups
  let s1 := ks.foldl (fun t k =>
    if action = 1 then stopWindow t k .revoked dcRevoked else stopWindow t k .closed dcNoWindow) s
  let s2 := fas.foldl (fun t fa =>
    sendRevocation t fa action b (maskOf (ks.filter (fun k => (windowFas s k).contains fa)))) s1
  (s2, fas)

/-- The windows of basin `b` in a state that satisfies `p`. -/
def windowsOf (s : State) (b : Nat) (p : WinState → Bool) : List Nat :=
  (List.range 64).filter (fun k => (s.window k).basin == b && p (s.window k).state)

end Sys2Proof.Machine
end

