-- ==== Sys2Proof/Machine/CmdBasin.lean ====
section
/-! DEFINITION. The basin commands but for seizure and release: create, resize, destroy, query and mode (R162 to R168,
R190, R191, R294, R424, R473, R476, R477), and the end of a zeroing. -/

namespace Sys2Proof.Machine

/-! ### Shared checks -/

/-- A rectangle as its four bytes at a slot offset (R162). -/
def rectArg (r : Request) (o : Nat) : Rect := ⟨r.arg o 1, r.arg (o + 1) 1, r.arg (o + 2) 1, r.arg (o + 3) 1⟩

/-- Width and height 1–8, within the mesh (R163). -/
def rectOk (r : Rect) : Bool := 1 ≤ r.w && r.w ≤ 8 && 1 ≤ r.h && r.h ≤ 8 && r.x0 + r.w ≤ 8 && r.y0 + r.h ≤ 8

/-- The segments of a 64-byte mask at a slot offset (R162). -/
def segMask (r : Request) (o : Nat) : List Nat := let m := r.arg o 64; (List.range 512).filter (fun k => m.testBit k)

/-- A basin that exists. -/
def exists_ (s : State) (b : Nat) : Bool := (s.basin b).state != .free
/-- A basin that is active and not being seized (R68). -/
def settled (s : State) (b : Nat) : Bool := (s.basin b).state == .active && !seizing s b

/-- The rectangle overlaps that of another basin; a seized basin holds none. -/
def overlapsOther (s : State) (b : Nat) (r : Rect) : Bool :=
  (List.range 32).any (fun k => k != b && (s.basin k).state == .active && (s.basin k).rect.overlaps r)

/-- A segment that is being zeroed (R164 to R166). -/
def zeroing (s : State) (k : Nat) : Bool := s.store.zero.any (fun j => j.segs.contains k)

/-- Background work holds a segment: it is being zeroed or filled, or it wakes (R191). -/
def heldByWork (s : State) (k : Nat) : Bool := zeroing s k || (s.seg k).busy || (s.seg k).power == .waking

/-- A segment that a basin owns and does not give up. -/
def keptBy (s : State) (k : Nat) : Option Nat := if zeroing s k then none else (s.seg k).owner

/-- The save segment is none, or the first of two consecutive segments of the set (R163, R164). -/
def saveOk (save : Nat) (segs : List Nat) : Bool := save == 0xFFFF || (segs.contains save && segs.contains (save + 1))

def saveOption (save : Nat) : Option Nat := if save = 0xFFFF then none else some save

/-- Every node of a rectangle is good. -/
def allGood (s : State) (r : Rect) : Bool := r.nodes.all (goodNode s)

def setOwner (s : State) (ks : List Nat) (o : Option Nat) : State :=
  ks.foldl (fun t k => t.modSeg k (fun g => { g with owner := o })) s

/-- The gang that a basin belongs to on this chiplet (R156). -/
def gangOf (s : State) (b : Nat) : Option Gang := s.fabric.gangs.find? (fun g => g.basin == b)

def basinDetail (b : Nat) (lattice : Bool) (r : Rect) (n : Nat) : List Byte :=
  [byte b, if lattice then 1 else 0] ++ r.bytes ++ leBytes 2 n

/-- A core is idle without state. -/
def isIdle (s : State) (n : Nat) : Bool := (s.core n).run == .idle

/-! ### BASIN.CREATE (R163, R164, R476) -/

def createLayout : List (Nat × Nat) := [(16, 1), (17, 1), (18, 2), (20, 4), (24, 2), (26, 1), (28, 20), (48, 64)]

def createBody (r : Request) (s : State) : Reply :=
  let b := r.arg 16 1
  let rect := rectArg r 20
  let weights := r.argBytes 28 20
  let save := r.arg 24 2
  let segs := segMask r 48
  let lattice := r.arg 17 1 == 1
  if 31 < b ∨ 1 < r.arg 17 1 ∨ r.arg 18 2 = 0 ∨ !rectOk rect ∨ r.arg 26 1 = 0 ∨ weights.contains 0 then Reply.no stBadArg
  else if exists_ s b ∨ overlapsOther s b rect ∨ segs.any (fun k => (keptBy s k).isSome || (s.seg k).retired)
      ∨ !saveOk save segs ∨ (lattice ∧ !allGood s rect) then Reply.no stConflict
  else if segs.any (heldByWork s) then Reply.no stBusy
  else
    { detail := some (basinDetail b lattice rect segs.length)
      commit := fun _ s =>
        let v : Basin := { state := .active, lattice := lattice, master := 8 * rect.y0 + rect.x0
                           tenant := BitVec.ofNat 16 (r.arg 18 2), rect := rect, save := saveOption save
                           powerWeight := byte (r.arg 26 1), linkWeights := weights }
        modBudget (setOwner (s.setBasin b v) segs (some b)) b }
where
  /-- The basin's energy total starts at zero (R476). -/
  modBudget (s : State) (b : Nat) : State := { s with head := { s.head with energy := tput s.head.energy b 0 } }

def cmdBasinCreate : Cmd := { code := 0x1000, stage := 3, layout := fun _ => createLayout, body := createBody }
def execBasinCreate (r : Request) (s : State) : Res := .next (serveRow cmdBasinCreate r s)

/-! ### Zeroing (R165, R166, R337, R349) -/

/-- The owner of the segments of a destroyed basin until they are zeroed (R166): no basin that takes its number anew. -/
def destroyedOwner (b : Nat) : Nat := 32 + b

/-- Segments leave: retired ones are powered off and not zeroed; the others are zeroed in the background (R165, R166,
R349). -/
def giveUp (s : State) (b : Nat) (destroyed : Bool) (ks : List Nat) (detail : List Byte) (o : Origin) : State :=
  let gone := ks.filter (fun k => (s.seg k).retired)
  let rest := ks.filter (fun k => !(s.seg k).retired)
  let s1 := gone.foldl segOff (setOwner s gone none)
  let s2 := if destroyed then setOwner s1 rest (some (destroyedOwner b)) else s1
  let s3 := rest.foldl (fun t k =>
    let u := t.modSeg k (fun g => { g with busy := true })
    if (s.seg k).power = .on then queueSegment 0 u k else u) s2
  { s3 with store := { s3.store with zero := s3.store.zero ++ [⟨b, destroyed, rest, detail, o⟩] } }

/-- A segment has been zeroed by its slice's engine, and is unowned; one that was retired meanwhile is powered off (R349). -/
def zeroSeg (s : State) (k : Nat) : State :=
  let s1 := s.modSeg k (fun g => { g with owner := none, busy := false })
  if (s.seg k).retired then segOff s1 k else s1

/-- ZEROING_COMPLETE: the oldest zeroing for the basin number whose segments the engines have all written ends, with its
background entry (R165, R166, R332). -/
def execZeroingComplete (basin : Fin 32) (s : State) : Res :=
  .next (match s.store.zero.find? (fun j => j.basin == (basin : Nat) && !j.segs.any (segmentQueued s)) with
    | none => s
    | some j =>
      let s1 := j.segs.foldl zeroSeg { s with store := { s.store with zero := s.store.zero.erase j } }
      background s1 j.origin stOk j.detail)

/-! ### BASIN.RESIZE (R163, R165, R424) -/

/-- The windows of a basin whose range a segment of the list lies under. -/
def windowsOver (s : State) (b : Nat) (ks : List Nat) : List Nat :=
  (windowsOf s b (· != .closed)).filter (fun w =>
    let v := s.window w
    (segsOf v.base (v.base + 2 ^ v.size)).any ks.contains)

/-- What a resize asks for. -/
structure Resize where
  rect : Rect
  segs : List Nat
  save : Nat
  weights : Option (Byte × List Byte)

def resizeOf (r : Request) (s : State) (b : Nat) : Resize :=
  let v := s.basin b
  let f := r.arg 17 1
  { rect := if bit f 0 then rectArg r 20 else v.rect
    segs := if bit f 1 then segMask r 48 else (List.range 512).filter (fun k => keptBy s k == some b)
    save := if bit f 2 then r.arg 24 2 else v.save.getD 0xFFFF
    weights := if bit f 3 then some (byte (r.arg 26 1), r.argBytes 28 20) else none }

/-- The commit of a resize. -/
def applyResize (b : Nat) (z : Resize) (join leave : List Nat) (detail : List Byte) (o : Origin) (s : State) : State :=
  let s1 := (stopWindows s b (windowsOver s b leave) 2).1
  let s2 := setOwner s1 join (some b)
  let s3 := s2.modBasin b (fun v => { v with
    rect := z.rect, save := saveOption z.save
    powerWeight := match z.weights with | some w => w.1 | none => v.powerWeight
    linkWeights := match z.weights with | some w => w.2 | none => v.linkWeights
    master := if z.rect.has v.master then v.master else 8 * z.rect.y0 + z.rect.x0 })
  if leave.isEmpty then s3 else giveUp s3 b false leave detail o

def resizeBody (r : Request) (s : State) : Reply :=
  let b := r.arg 16 1
  let f := r.arg 17 1
  let v := s.basin b
  let z := resizeOf r s b
  let owned := (List.range 512).filter (fun k => keptBy s k == some b)
  let join := z.segs.filter (fun k => !owned.contains k)
  let leave := owned.filter (fun k => !z.segs.contains k)
  let left := v.rect.nodes.filter (fun n => !z.rect.has n)
  if 31 < b ∨ 15 < f ∨ (bit f 0 ∧ !rectOk z.rect)
      ∨ (bit f 3 ∧ (r.arg 26 1 = 0 ∨ (r.argBytes 28 20).contains 0)) then Reply.no stBadArg
  else if !settled s b ∨ overlapsOther s b z.rect ∨ !left.all (isIdle s)
      ∨ (v.lattice ∧ (!v.rect.nodes.all (isIdle s) ∨ !allGood s z.rect)) ∨ !saveOk z.save z.segs
      ∨ join.any (fun k => (keptBy s k).isSome || (s.seg k).retired) then Reply.no stConflict
  else if v.load.isSome ∨ (join ++ leave).any (heldByWork s) then Reply.no stBusy
  else
    let d := basinDetail b v.lattice z.rect z.segs.length
    { status := if leave.isEmpty then stOk else stAccepted, detail := some d
      commit := fun o s => applyResize b z join leave d o s }

def cmdBasinResize : Cmd :=
  { code := 0x1001, stage := 3, body := resizeBody
    layout := fun _ => [(16, 1), (17, 1), (20, 4), (24, 2), (26, 1), (28, 20), (48, 64)] }
def execBasinResize (r : Request) (s : State) : Res := .next (serveRow cmdBasinResize r s)

/-! ### BASIN.DESTROY (R166, R477) -/

/-- Locks held by the cores of a basin. -/
def basinLocks (s : State) (b : Nat) : Nat :=
  if (s.basin b).state = .active then
    let ls := ((s.basin b).rect.nodes.filter (hasCore s)).map (s.logical)
    (locksHeld s (fun h => h.fa == s.fa && ls.contains h.core.toNat && h.life == s.life h.core.toNat)).length
  else 0

/-- The saved gate operations of a seized basin are dropped as a reset drops them (R457, R477). -/
def dropSaved (s : State) (b : Nat) : State :=
  ((s.basin b).saved.flatMap (fun e => e.core.gops.filter (fun o => o.result.isNone))).foldl
    (fun t o => withdrawOp t o true) s

/-- Revocation packets with action 3 go to the FAs that received the seizure's (R477). -/
def destroyRevoked (s : State) (b : Nat) : State :=
  let ws := windowsOf s b (· == .revoked)
  let s1 := (s.basin b).revoked.foldl (fun t fa => sendRevocation t fa 3 b (maskOf ws)) s
  ws.foldl (fun t w => t.setWindow w { t.window w with state := .closed }) s1

/-- The commit of a destruction (R166, R477). -/
def destroyBasin (b : Nat) (detail : List Byte) (o : Origin) (s : State) : State :=
  let v := s.basin b
  let segs := (List.range 512).filter (fun k => keptBy s k == some b)
  let s1 := if v.state = .active then basinReset s b 1
            else cancelChannels (dropSaved s b) (fun t => t.basin == b)
  let s2 := destroyRevoked (stopWindows s1 b (windowsOf s1 b (· == .opened)) 3).1 b
  let s3 := (gatesOf s2 b).foldl (fun t g => t.setGate g { t.gate g with basin := none }) s2
  let s4 := { s3 with die := { s3.die with badLines := s3.die.badLines.filter (fun e => e.2.1 != b) } }
  giveUp (s4.setBasin b {}) b true segs detail o

/-- BASIN.DESTROY; a load into the basin, and a segment of it that is being zeroed or filled or wakes, end without a further
command, and are met with ST_BUSY (R166, R191). -/
def destroyBody (r : Request) (s : State) : Reply :=
  let b := r.arg 16 1
  if 31 < b then Reply.no stBadArg
  else if !exists_ s b ∨ seizing s b ∨ (gangOf s b).isSome then Reply.no stConflict
  else if (s.basin b).load.isSome ∨ (ownedSegs s b).any (heldByWork s) then Reply.no stBusy
  else
    let segs := (List.range 512).filter (fun k => keptBy s k == some b)
    let d := [byte b, byte (basinLocks s b)] ++ leBytes 2 segs.length ++ [byte (windowsOf s b (· != .closed)).length]
    { status := stAccepted, detail := some d, commit := fun o s => destroyBasin b d o s }

def cmdBasinDestroy : Cmd := { code := 0x1002, stage := 3, layout := fun _ => [(16, 1)], body := destroyBody }
def execBasinDestroy (r : Request) (s : State) : Res := .next (serveRow cmdBasinDestroy r s)

/-! ### BASIN.QUERY (R168) -/

/-- The result of BASIN.QUERY.  DESIGN CHOICE (log 88): of a free basin, and of one that is being zeroed, the fields after the
state read as those of a basin with nothing: mode, tenant, rectangles and masks 0, save segment, gang number and gang master all
ones, and the segments still owned. -/
def queryResult (s : State) (b : Nat) : List Byte :=
  let v := s.basin b
  let ws := if v.state = .free then [] else windowsOf s b (· != .closed)
  let g := gangOf s b
  let st : Nat := match v.state with
    | .active => 1
    | .seized => 2
    | .free => if s.store.zero.any (fun j => j.destroyed && j.basin == b) then 3 else 0
  let running := if v.state = .active then (v.rect.nodes.filter (fun n => (s.core n).run == .running)).length else 0
  [byte st, if v.lattice then 1 else 0] ++ leBytes 2 v.tenant.toNat
    ++ (if v.state = .active then v.rect else {}).bytes ++ (if v.state = .seized then v.former else {}).bytes
    ++ leBytes 2 (v.save.getD 0xFFFF)
    ++ leBytes 2 (ownedSegs s (if st = 3 then destroyedOwner b else b)).length
    ++ [match g with | some k => k.num | none => 0xFF, byte running]
    ++ leBytes 2 (match g with | some k => k.master.toNat | none => 0xFFFF)
    ++ leBytes 8 (maskOf ws) ++ leBytes 16 (if v.state = .free then 0 else maskOf (gatesOf s b))

def cmdBasinQuery : Cmd :=
  { code := 0x1005, stage := 3, layout := fun _ => [(16, 1)]
    body := fun r s => if 31 < r.arg 16 1 then Reply.no stBadArg else Reply.data (queryResult s (r.arg 16 1)) }
def execBasinQuery (r : Request) (s : State) : Res := .next (serveRow cmdBasinQuery r s)

/-! ### BASIN.MODE (R167, R293, R294) -/

/-- BASIN.MODE.  DESIGN CHOICE (log 88): where several reasons hold, the first of seized, node not good and core not idle is
reported, and for a seized basin the offending node reads 0xFF. -/
def modeBody (r : Request) (s : State) : Reply :=
  let b := r.arg 16 1
  let v := s.basin b
  let rect := if v.state = .seized then v.former else v.rect
  let m := r.arg 18 1
  let lattice := r.arg 17 1 == 1
  let master := if m = 0xFF then 8 * rect.y0 + rect.x0 else m
  let refuse := fun (reason node : Nat) => ({ status := stConflict, result := [byte reason, byte node] } : Reply)
  if 31 < b ∨ 1 < r.arg 17 1 then Reply.no stBadArg
  else if v.state = .free then Reply.no stConflict
  else if m ≠ 0xFF ∧ !(m < 64 && rect.has m) then Reply.no stBadArg
  else if !settled s b then refuse 3 0xFF
  else
    match (if lattice then rect.nodes.find? (fun n => !goodNode s n) else none) with
    | some n => refuse 1 n
    | none =>
      match rect.nodes.find? (fun n => !isIdle s n) with
      | some n => refuse 2 n
      | none =>
        if v.load.isSome then Reply.no stBusy
        else if lattice == v.lattice && (!lattice || master == v.master) then {}
        else
          { detail := some [byte b, if lattice then 1 else 0, byte master]
            commit := fun _ s => s.modBasin b (fun v => { v with lattice := lattice, master := master }) }

def cmdBasinMode : Cmd := { code := 0x1006, stage := 3, layout := fun _ => [(16, 1), (17, 1), (18, 1)], body := modeBody }
def execBasinMode (r : Request) (s : State) : Res := .next (serveRow cmdBasinMode r s)

end Sys2Proof.Machine
end

