-- ==== Sys2Proof/Machine/CmdGate.lean ====
section
/-! DEFINITION. The gate commands (R182, R446, R447, R461). -/

namespace Sys2Proof.Machine

def gateStateCode (g : Gate) : Byte :=
  match g.kind with
  | .lock => if g.dead.isSome then 2 else if g.holder.isSome then 1 else 0
  | .barrier => if 0 < barrierArrived g.value then 3 else 0
  | _ => 0

/-- Turn ticks that remain of a lock's lease: the whole lease while nobody holds it, none without a lease. -/
def leaseLeft (now : W64) (g : Gate) : Nat :=
  match g.kind, g.lease, g.holder with
  | .lock, some l, some h => l.toNat - (now - h.since).toNat
  | .lock, some l, none => l.toNat
  | _, _, _ => 0

/-- The owner fields: the dead owner of an ORPHANED lock, else the holder. -/
def gateOwner (g : Gate) : W16 × Byte × W32 :=
  match g.dead, g.holder with
  | some d, _ => (d.fa, d.core, d.epoch)
  | none, some h => (h.fa, h.core, h.epoch)
  | none, none => (0xFFFF, 0, g.epoch)

/-- The 24-byte result of GATE.READ. -/
def gateResult24 (s : State) (k : Nat) : List Byte :=
  let g := s.gate k
  let o := gateOwner g
  [byte (gateKindCode g.kind), gateStateCode g, byte (g.basin.getD 0xFF), byte (min 255 g.waiters.length)]
    ++ leBytes 8 g.value.toNat ++ leBytes 2 o.1.toNat ++ [o.2.1, 0] ++ leBytes 4 o.2.2.toNat
    ++ leBytes 4 (leaseLeft s.time.count g)

/-- Detail of GATE.INIT and GATE.CLEAN (R162). -/
def gateDetail (k kind basin : Nat) (epoch : W32) : List Byte := [byte k, byte kind, byte basin, 0] ++ leBytes 4 epoch.toNat

/-- The initial value fits the kind (R447). -/
def initOk (kind : Nat) (v : W64) : Bool :=
  match kind with
  | 0 => v.toNat < 2 ^ 63
  | 1 => v == 0
  | 2 => barrierParties v != 0 && barrierArrived v == 0
  | _ => v.toNat ≤ 1

/-- What a GATE.INIT does: waiters of a counter or an event whose kind changes end with WRONG_KIND, and those whose condition
the new value meets wake (R447). -/
def initGate (r : Request) (s0 : State) : State :=
  let k := r.arg 16 1
  let kind := gateKindOf (r.arg 17 1)
  let v : W64 := BitVec.ofNat 64 (r.arg 20 8)
  let basin := if r.arg 18 1 = 0xFF then none else some (r.arg 18 1)
  let s1 := touchGate s0 k none
  let s2 := if (s1.gate k).kind = kind then s1
            else wake s1 k (fun _ => true) (fun w => failWord w.op.toNat gsWrongKind)
  let g := s2.gate k
  let s3 := s2.setGate k { g with
    kind := kind, value := v, basin := basin, holder := none, dead := none
    lease := if r.arg 19 1 = 1 then some (BitVec.ofNat 32 (r.arg 28 4)) else none
    reach := if r.arg 32 4 = 0 then 30000 else BitVec.ofNat 32 (r.arg 32 4) }
  let s4 := touchGate s3 k none
  match kind with
  | .counter => wakeCounter s4 k
  | .event => if v = 0 then s4 else wake s4 k (fun _ => true) (fun _ => plainStatus gsOk)
  | _ => s4

def gateInitBody (r : Request) (s : State) : Reply :=
  let k := r.arg 16 1
  let kind := r.arg 17 1
  let b := r.arg 18 1
  let f := r.arg 19 1
  let lease := r.arg 28 4
  let reach := r.arg 32 4
  let g := s.gate k
  if 127 < k ∨ 3 < kind ∨ (31 < b ∧ b ≠ 0xFF) ∨ 1 < f ∨ !initOk kind (BitVec.ofNat 64 (r.arg 20 8)) ∨ (f = 1 ∧ lease < 1000)
      ∨ (reach ≠ 0 ∧ reach < 100) then Reply.no stBadArg
  else if g.dead.isSome then { status := stOrphaned, result := gateResult24 s k }
  else if g.holder.isSome ∨ (g.kind = .barrier ∧ !g.waiters.isEmpty) ∨ (b ≠ 0xFF ∧ !exists_ s b) then Reply.no stConflict
  else { detail := some (gateDetail k kind b g.epoch), commit := fun _ s => initGate r s }

def cmdGateInit : Cmd :=
  { code := 0x1300, stage := 3, body := gateInitBody
    layout := fun _ => [(16, 1), (17, 1), (18, 1), (19, 1), (20, 8), (28, 4), (32, 4)] }
def execGateInit (r : Request) (s : State) : Res := .next (serveRow cmdGateInit r s)

def cmdGateRead : Cmd :=
  { code := 0x1301, stage := 3, layout := fun _ => [(16, 1)]
    body := fun r s =>
      let k := r.arg 16 1
      if 127 < k then Reply.no stBadArg
      else { status := if (s.gate k).dead.isSome then stOrphaned else stOk, result := gateResult24 s k } }
def execGateRead (r : Request) (s : State) : Res := .next (serveRow cmdGateRead r s)

/-- GATE.CLEAN: the lock becomes free, and its first waiter acquires it (R182, R450, R461). -/
def cleanGate (k : Nat) (s : State) : State :=
  let s1 := touchGate s k none
  grantNext (s1.setGate k { s1.gate k with dead := none, holder := none }) k

def cmdGateClean : Cmd :=
  { code := 0x1302, stage := 3, layout := fun _ => [(16, 1), (20, 4)]
    body := fun r s =>
      let k := r.arg 16 1
      let g := s.gate k
      if 127 < k then Reply.no stBadArg
      else
        match g.dead with
        | none => Reply.no stConflict
        | some d =>
          if d.epoch.toNat ≠ r.arg 20 4 then Reply.no stConflict
          else { detail := some (gateDetail k (gateKindCode g.kind) (g.basin.getD 0xFF) d.epoch)
                 commit := fun _ s => cleanGate k s } }
def execGateClean (r : Request) (s : State) : Res := .next (serveRow cmdGateClean r s)

end Sys2Proof.Machine
end

