-- ==== Sys2Proof/Machine/CmdGeneral.lean ====
section
/-! DEFINITION. The general, identity, settings and ledger commands (R128 to R140). -/

namespace Sys2Proof.Machine

/-! ### NOP, ECHO, STATUS (R129) -/

def cmdNop : Cmd := { code := 0x0000, stage := 0, recovery := true, urgent := true, afterStop := true, body := fun _ _ => {} }
def execNop (r : Request) (s : State) : Res := .next (serveRow cmdNop r s)

def cmdEcho : Cmd :=
  { code := 0x0001, stage := 0, recovery := true, anyArgs := true, body := fun r _ => Reply.data (r.argBytes 16 r.argLen.toNat) }
def execEcho (r : Request) (s : State) : Res := .next (serveRow cmdEcho r s)

/-- A strap fault of any strap (R39 to R41). -/
def strapFaults (p : Straps) : List Bool := [16 ≤ p.slotId.toNat, p.chainMaster && p.slotId != 0, p.shapeHint == 3]

/-- Bits of a register or a flags field, bit 0 first. -/
def flagsOf (l : List Bool) : Nat := ofBits l

def statusFlags (s : State) : Nat :=
  flagsOf [s.boot.shortfall, s.aon.latch.coolant, s.aon.latch.rail, s.aon.latch.refclk, s.aon.latch.trip,
    (strapFaults s.boot.pins).any id, s.settings.defaulted, s.fw.hand.isSome, s.ledger.nearFull, s.ledger.loss,
    s.time.locked, s.fabric.duplicate]

/-- A gang membership is in force once it is active, until it has ended. -/
def Gang.inForce (g : Gang) : Bool := g.phase == .active || g.phase == .leaving || g.phase == .halted

/-- The good cores of the grade map; none before it is set (R89, R129). -/
def mappedCores (s : State) : Nat := if s.boot.mapSet then goodCount s else 0

/-- The 24-byte result of STATUS. -/
def statusResult (s : State) : List Byte :=
  [s.boot.stage, byte s.aon.failed] ++ leBytes 2 s.fa.toNat ++ leBytes 4 (statusFlags s)
    ++ [byte s.head.op, byte (mappedCores s),
        byte ((List.range 32).filter (fun b => (s.basin b).state != .free)).length,
        byte (s.fabric.gangs.filter Gang.inForce).length,
        byte ((List.range 64).filter (fun w => (s.window w).state == .opened)).length,
        byte s.settings.pending.length, 0, 0]
    ++ leBytes 8 s.time.count.toNat

def cmdStatus : Cmd :=
  { code := 0x0002, stage := 0, recovery := true, urgent := true, afterStop := true, body := fun _ s => Reply.data (statusResult s) }
def execStatus (r : Request) (s : State) : Res := .next (serveRow cmdStatus r s)

/-! ### Identity (R130 to R133) -/

def partNumber : Nat := 0xAB41
def stepping : Byte := 0x42
def idCode : Nat := 0x2AB4199B

/-- The version and the settings schema of the firmware that runs; zero from the boot ROM, in ROM recovery
as well (R2, R3, R130). -/
def runningImage (s : State) : Option ImageInfo := if s.boot.stage = 0x8 then none else s.fw.image
def imageVersion (s : State) : Nat := match runningImage s with | some i => i.version.toNat | none => 0
def imageSchema (s : State) : Nat := match runningImage s with | some i => i.schema.toNat | none => 0

/-- The 28-byte result of IDENT.READ. -/
def identResult (s : State) : List Byte :=
  leBytes 2 partNumber ++ [stepping, s.fuses.grade] ++ leBytes 2 (imageVersion s) ++ leBytes 2 s.fuses.romVersion.toNat
    ++ leBytes 2 (imageSchema s) ++ leBytes 2 s.fa.toNat ++ [byte s.boot.pins.slotId.toNat, s.boot.stage]
    ++ leBytes 2 s.boot.floor.toNat ++ leBytes 8 s.fuses.dieId.toNat ++ leBytes 4 idCode

def cmdIdentRead : Cmd :=
  { code := 0x0100, stage := 0, recovery := true, afterStop := true, body := fun _ s => Reply.data (identResult s) }
def execIdentRead (r : Request) (s : State) : Res := .next (serveRow cmdIdentRead r s)

def nodeStateCode : NodeState → Nat
  | .good => 0
  | .fusedOff => 1
  | .failedTest => 2
  | .faulted => 3

/-- The byte of a node in GRADE.MAP. -/
def gradeByte (s : State) (n : Nat) : Byte :=
  let v := s.node n
  byte (64 * nodeStateCode v + (if v = .good ∨ v = .faulted then s.logical n % 64 else 0))

def retiredSegs (s : State) : List Nat := (List.range 512).filter (fun k => (s.seg k).retired)

def gradeResult (s : State) (part : Nat) : List Byte :=
  let n := leBytes 2 (retiredSegs s).length
  if part = 0 then (List.range 64).map (gradeByte s) ++ [byte (mappedCores s), s.fuses.grade] ++ n
  else leBytes 64 (maskOf (retiredSegs s)) ++ n

def cmdGradeMap : Cmd :=
  { code := 0x0101, stage := 3, layout := fun _ => [(16, 1)]
    body := fun r s => if 1 < r.arg 16 1 then Reply.no stBadArg else Reply.data (gradeResult s (r.arg 16 1)) }
def execGradeMap (r : Request) (s : State) : Res := .next (serveRow cmdGradeMap r s)

/-- The operating-point table as OPTABLE.READ and its check take it. -/
def opTableBytes (s : State) : List Byte :=
  (List.range 16).flatMap (fun i => let p := opPoint s i; leBytes 2 p.1 ++ leBytes 2 p.2)

def cmdOptableRead : Cmd := { code := 0x0102, stage := 0, recovery := true, body := fun _ s => Reply.data (opTableBytes s) }
def execOptableRead (r : Request) (s : State) : Res := .next (serveRow cmdOptableRead r s)

def fuseResult (s : State) : List Byte :=
  leBytes 8 s.fuses.fusedOff.toNat ++ [s.fuses.grade, s.fuses.estimSet, 0, 0] ++ leBytes 4 (crc32c (opTableBytes s))
    ++ leBytes 8 s.fuses.dieId.toNat ++ [byte (flagsOf [s.fuses.keyProgrammed, true])]

def cmdFuseSummary : Cmd := { code := 0x0103, stage := 0, recovery := true, body := fun _ s => Reply.data (fuseResult s) }
def execFuseSummary (r : Request) (s : State) : Res := .next (serveRow cmdFuseSummary r s)

/-! ### Settings (R135 to R137, R558) -/

def settingsGetBody (r : Request) (s : State) : Reply :=
  match settingKey (BitVec.ofNat 16 (r.arg 16 2)) with
  | none => Reply.no stBadArg
  | some k =>
    let v := settingIn s.settings.current k
    let p := pendingIn s k
    let c := r.arg 18 1
    if 2 < c then Reply.no stBadArg
    else Reply.data (leBytes 2 k.key.toNat ++ [byte k.size, if p = v then 0 else 1]
      ++ (if c = 0 then v else if c = 1 then p else k.default))

def cmdSettingsGet : Cmd := { code := 0x0200, stage := 2, layout := fun _ => [(16, 2), (18, 1)], body := settingsGetBody }
def execSettingsGet (r : Request) (s : State) : Res := .next (serveRow cmdSettingsGet r s)

def settingsSetBody (r : Request) (s : State) : Reply :=
  let _ := s
  match settingKey (BitVec.ofNat 16 (r.arg 16 2)) with
  | none => Reply.no stBadArg
  | some k =>
    let v := r.argBytes 20 k.size
    if !k.writable || r.arg 18 1 != k.size || leNat v < k.lo || k.hi < leNat v then Reply.no stBadArg
    else
      { detail := some (leBytes 2 k.key.toNat ++ [byte k.size, 0] ++ leBytes 4 (crc32c v))
        commit := fun _ t => setSettings t { t.settings with pending := setSetting t.settings.pending k.key v } }

def cmdSettingsSet : Cmd :=
  { code := 0x0201, stage := 2, layout := fun r => [(16, 2), (18, 1), (20, r.arg 18 1)], body := settingsSetBody }
def execSettingsSet (r : Request) (s : State) : Res := .next (serveRow cmdSettingsSet r s)

/-- The sequence number of the latest SETTINGS.SET entry that the ledger holds. -/
def lastSet (s : State) : Option W32 :=
  (s.ledger.entries.filter (fun e => e.2.cmd == 0x0201 && !bit e.2.flags.toNat 2)).foldl (fun m e =>
    match m with
    | none => some e.2.seq
    | some q => if (s.ledger.head - e.2.seq).toNat < (s.ledger.head - q).toNat then some e.2.seq else m) none

/-- The default of every writable key. -/
def writableDefaults : List (W16 × List Byte) := (settingKeys.filter (fun k => k.writable)).map (fun k => (k.key, k.default))

/-- The committed set with the pending values in place. -/
def mergedSettings (s : State) : List (W16 × List Byte) :=
  s.settings.pending.foldl (fun l e => setSetting l e.1 e.2) s.settings.current

/-- SETTINGS.COMMIT (R136, R137).  DESIGN CHOICE (log 58): with Check = 1 and no SETTINGS.SET entry in the ledger, no sequence
number matches, and the command completes with ST_CONFLICT. -/
def settingsCommitBody (r : Request) (s : State) : Reply :=
  let a := r.arg 20 1
  let crc := if a = 0 then freeCrc s else match committedBank s with | some b => b.crc | none => freeCrc s
  if 2 < a ∨ 1 < r.arg 21 1 then Reply.no stBadArg
  else if s.fw.hand.isSome then Reply.no stConflict
  else if r.arg 21 1 = 1 ∧ lastSet s ≠ some (BitVec.ofNat 32 (r.arg 16 4)) then Reply.no stConflict
  else if a < 2 ∧ s.settings.pending.isEmpty then {}
  else
    { detail := some ([byte a, 0] ++ leBytes 2 (ownSchema s).toNat ++ leBytes 4 crc.toNat)
      commit := fun _ t =>
        if a = 0 then
          let u := writeBank t (mergedSettings t) (nextCommit t)
          setSettings u { u.settings with pending := [] }
        else if a = 1 then setSettings t { t.settings with pending := [] }
        else setSettings t { t.settings with pending := writableDefaults } }

def cmdSettingsCommit : Cmd :=
  { code := 0x0202, stage := 2, layout := fun _ => [(16, 4), (20, 1), (21, 1)], body := settingsCommitBody }
def execSettingsCommit (r : Request) (s : State) : Res := .next (serveRow cmdSettingsCommit r s)

/-! ### The ledger (R120, R125, R139, R140) -/

/-- The 32 bytes of an entry (R120). -/
def LedgerEntry.bytes (e : LedgerEntry) : List Byte :=
  leBytes 8 e.turn.toNat ++ leBytes 4 e.seq.toNat ++ leBytes 2 e.srcFa.toNat ++ [e.ep, e.flags] ++ leBytes 2 e.cmd.toNat
    ++ leBytes 2 e.tenant.toNat ++ leBytes 2 e.result.toNat ++ leBytes 2 e.reqSeq.toNat ++ padTo 8 e.detail

/-- The entry with sequence number `q`, if the ring still holds it. -/
def Ledger.held (l : Ledger) (q : W32) : Option LedgerEntry :=
  (l.entries.find? (fun e => e.2.seq == q)).map (fun e => e.2)

/-- The oldest entry that the ring holds: the one farthest behind the head. -/
def Ledger.oldest (l : Ledger) : Option W32 :=
  l.entries.foldl (fun m e =>
    match m with
    | none => some e.2.seq
    | some q => if (l.head - q).toNat < (l.head - e.2.seq).toNat then some e.2.seq else m) none

/-- The entries that a read returns, and whether its start is not held (R139). -/
def Ledger.read (l : Ledger) (start : W32) (n : Nat) : List LedgerEntry × Bool :=
  let d := (l.head - start).toNat
  let upTo := fun (q : W32) => (List.range (min n (l.head - q).toNat)).filterMap (fun i => l.held (q + BitVec.ofNat 32 i))
  if d = 0 ∨ 2 ^ 31 ≤ d then ([], false)
  else if (l.held start).isSome then (upTo start, false)
  else match l.oldest with
    | some q => (upTo q, true)
    | none => ([], true)

def ledgerReadBody (r : Request) (s : State) : Reply :=
  let n := r.arg 20 1
  if n = 0 ∨ 3 < n then Reply.no stBadArg
  else
    let x := s.ledger.read (BitVec.ofNat 32 (r.arg 16 4)) n
    Reply.data ([byte x.1.length, if x.2 then 1 else 0, 0, 0] ++ leBytes 4 s.ledger.head.toNat ++ x.1.flatMap LedgerEntry.bytes)

def cmdLedgerRead : Cmd :=
  { code := 0x0300, stage := 0, recovery := true, afterStop := true, layout := fun _ => [(16, 4), (20, 1)], body := ledgerReadBody }
def execLedgerRead (r : Request) (s : State) : Res := .next (serveRow cmdLedgerRead r s)

def cmdLedgerMark : Cmd :=
  { code := 0x0301, stage := 2, layout := fun _ => [(16, 8)], body := fun r _ => { detail := some (r.argBytes 16 8), mark := true } }
def execLedgerMark (r : Request) (s : State) : Res := .next (serveRow cmdLedgerMark r s)

end Sys2Proof.Machine
end

