-- ==== Sys2Proof/Machine/CmdMem.lean ====
section
/-! DEFINITION. The memory and window commands and DMA.POST, with the events that end a wake, a fill and a closing window
(R177 to R181, R191, R334 to R337, R423, R424, R430, R436). -/

namespace Sys2Proof.Machine

/-! ### Segments -/

/-- Detail of SEG.POWER and SEG.FILL: the action, the segments affected, the check of the mask (R162). -/
def segDetail (r : Request) (action n : Nat) : List Byte :=
  [byte action, 0] ++ leBytes 2 n ++ leBytes 4 (crc32c (r.argBytes 24 64))

/-- A save segment of a seized basin: the first or the second of its pair (R163, R177). -/
def savesSeized (s : State) (k : Nat) : Bool :=
  (List.range 32).any (fun b => (s.basin b).state == .seized
    && (match (s.basin b).save with | some f => f == k || f + 1 == k | none => false))

/-- The local range of a transfer or of an in-memory operation touches segment `k` (R335). -/
def inUse (s : State) (k : Nat) : Bool :=
  (List.range 32).any (fun c => (s.chan c).xfer.any (fun t => (segsOf t.laddr (t.laddr + t.len)).contains k))
  || s.store.ops.any (fun o => (segsOf o.dst (o.dst + o.len)).contains k || (segsOf o.src (o.src + o.len)).contains k)

/-- The next group of at most 64 segments begins to wake: powered, with undefined contents (R334, R336). -/
def wakeGroup (s : State) (j : WakeJob) : State :=
  let now := j.waiting.take 64
  let s1 := now.foldl (fun t k =>
    (t.modSeg k (fun g => { g with power := .waking, filled := false })).forget (0x100000 * k) 0x100000) s
  { s1 with store := { s1.store with wake := some { j with waiting := j.waiting.drop 64, waking := now } } }

def segPowerLayout : List (Nat × Nat) := [(16, 1), (24, 64)]

def segPowerBody (r : Request) (s : State) : Reply :=
  let a := r.arg 16 1
  let l := (segMask r 24).filter (fun k => !(s.seg k).retired)
  if 1 < a then Reply.no stBadArg
  else if a = 0 ∧ l.any (savesSeized s) then Reply.no stConflict
  else if l.any (fun k => (s.seg k).busy || (s.seg k).power == .waking || (a == 0 && inUse s k)) then Reply.no stBusy
  else
    let go := l.filter (fun k => if a = 0 then (s.seg k).power != .off else (s.seg k).power == .off)
    { result := leBytes 2 go.length
      detail := if go.isEmpty then none else some (segDetail r a go.length)
      late := a == 1 && !go.isEmpty
      commit := fun _ s =>
        if a = 0 then go.foldl segOff s
        else if go.isEmpty then s
        else wakeGroup s { waiting := go, waking := [], changed := go.length } }

def cmdSegPower : Cmd := { code := 0x1200, stage := 3, layout := fun _ => segPowerLayout, body := segPowerBody }
def execSegPower (r : Request) (s : State) : Res := .next (serveRow cmdSegPower r s)

/-- SEG_WAKE_GROUP: 2 µs after a group began to wake its segments are ON, and the next group begins; with the last one the
command is answered (R334, R336). -/
def execSegWakeGroup (s : State) : Res :=
  .next (match s.store.wake with
    | none => s
    | some j =>
      let s1 := j.waking.foldl (fun t k => t.modSeg k (fun g => { g with power := .on })) s
      if j.waiting.isEmpty then
        finishLate { s1 with store := { s1.store with wake := none } } false stOk (some (leBytes 2 j.changed))
      else wakeGroup s1 j)

def segFillBody (r : Request) (s : State) : Reply :=
  let l := segMask r 24
  let v : W64 := BitVec.ofNat 64 (r.arg 16 8)
  let d := segDetail r 0 l.length
  if l.any (fun k => (s.seg k).power == .off || (s.seg k).retired || savesSeized s k) then Reply.no stConflict
  else if l.any (fun k => (s.seg k).power == .waking || (s.seg k).busy) then Reply.no stBusy
  else
    { status := stAccepted, detail := some d
      commit := fun o s =>
        let s1 := l.foldl (fun t k =>
          queueSegment v ((t.modSeg k (fun g => { g with busy := true })).forget (0x100000 * k) 0x100000) k) s
        { s1 with store := { s1.store with fills := s1.store.fills ++ [⟨v, l, d, o⟩] } } }

def cmdSegFill : Cmd := { code := 0x1201, stage := 3, layout := fun _ => [(16, 8), (24, 64)], body := segFillBody }
def execSegFill (r : Request) (s : State) : Res := .next (serveRow cmdSegFill r s)

/-- SEG_FILL_COMPLETE: the oldest fill whose segments the engines have all written ends with its background entry (R178, R332). -/
def execSegFillComplete (s : State) : Res :=
  .next (match s.store.fills.find? (fun j => !j.segs.any (segmentQueued s)) with
    | none => s
    | some j =>
      let s1 := j.segs.foldl (fun t k => t.modSeg k (fun g => { g with busy := false }))
        { s with store := { s.store with fills := s.store.fills.erase j } }
      background s1 j.origin stOk j.detail)

/-! ### Windows -/

def windowDetail (k : Nat) (w : Window) : List Byte :=
  [byte k, byte w.basin, w.rights, byte w.size] ++ leBytes 4 w.base

def sourceOf (r : Request) (i : Nat) : WinSource :=
  ⟨BitVec.ofNat 16 (r.arg (32 + 8 * i) 2), BitVec.ofNat 16 (r.arg (34 + 8 * i) 2), BitVec.ofNat 16 (r.arg (36 + 8 * i) 2)⟩

/-- The window that a WINDOW.OPEN asks for (R179). -/
def windowOf (r : Request) : Window :=
  { state := .opened, basin := r.arg 17 1, rights := byte (r.arg 18 1), size := r.arg 19 1, base := r.arg 20 4
    credits := r.arg 24 1, sources := (List.range (r.arg 25 1)).map (sourceOf r), raw := r.given 80 }

def openBody (r : Request) (s : State) : Reply :=
  let k := r.arg 16 1
  let w := windowOf r
  let n := r.arg 25 1
  if 63 < k ∨ 31 < w.basin ∨ 7 < r.arg 18 1 ∨ w.size < 16 ∨ 29 < w.size ∨ w.base % 2 ^ w.size ≠ 0
      ∨ Memory.size < w.base + 2 ^ w.size ∨ w.credits < 1 ∨ 32 < w.credits ∨ n < 1 ∨ 8 < n then Reply.no stBadArg
  else if (s.window k).state ≠ .closed ∨ !settled s w.basin
      ∨ (segsOf w.base (w.base + 2 ^ w.size)).any (fun g => keptBy s g != some w.basin) then Reply.no stConflict
  else
    { detail := some (windowDetail k w)
      commit := fun _ s => s.setWindow k { w with ended := (s.window k).ended } }

def cmdWindowOpen : Cmd :=
  { code := 0x1202, stage := 3, body := openBody
    layout := fun r => [(16, 1), (17, 1), (18, 1), (19, 1), (20, 4), (24, 1), (25, 1)]
      ++ (List.range (min 12 (r.arg 25 1))).map (fun i => (32 + 8 * i, 6)) }
def execWindowOpen (r : Request) (s : State) : Res := .next (serveRow cmdWindowOpen r s)

def closeBody (r : Request) (s : State) : Reply :=
  let k := r.arg 16 1
  let w := s.window k
  if 63 < k then Reply.no stBadArg
  else if w.state = .closed then Reply.no stConflict
  else
    { detail := some (windowDetail k w), late := true
      commit := fun _ s => (stopWindows s w.basin [k] 2).1 }

def cmdWindowClose : Cmd := { code := 0x1203, stage := 3, layout := fun _ => [(16, 1)], body := closeBody }
def execWindowClose (r : Request) (s : State) : Res := .next (serveRow cmdWindowClose r s)

/-- WINDOW_CLOSE_DRAINED: the accesses in flight have completed, and the WINDOW.CLOSE of this window is answered (R180). -/
def execWindowCloseDrained (window : Fin 64) (s : State) : Res :=
  .next (match s.svc.normal with
    | some k =>
      if k.waiting && k.cmd == cmdWindowClose.code && k.req.arg 16 1 == (window : Nat) && !windowBusy s window then finishLate s false stOk none else s
    | none => s)

def winStateCode : WinState → Byte
  | .closed => 0 | .opened => 1 | .revoked => 2

/-- The 12-byte summary of a window; of a closed one, or past window 63, its number and state 0 (R180). -/
def windowSummary (s : State) (k : Nat) : List Byte :=
  let w := s.window k
  if 63 < k ∨ w.state = .closed then byte k :: List.replicate 11 0
  else windowDetail k w ++ [winStateCode w.state, byte w.credits, byte w.sources.length, 0]

/-- The arguments that opened a window, with its state in slot byte 26 (R180). -/
def windowRaw (s : State) (k : Nat) : List Byte :=
  let w := s.window k
  if w.state = .closed then byte k :: List.replicate 79 0 else lset (padTo 80 w.raw) 10 (winStateCode w.state)

def cmdWindowList : Cmd :=
  { code := 0x1204, stage := 3, layout := fun _ => [(16, 1), (17, 1)]
    body := fun r s =>
      let k := r.arg 16 1
      if 63 < k ∨ 1 < r.arg 17 1 then Reply.no stBadArg
      else Reply.data (if r.arg 17 1 = 0 then (numbers k 8).flatMap (windowSummary s) else windowRaw s k) }
def execWindowList (r : Request) (s : State) : Res := .next (serveRow cmdWindowList r s)

/-! ### DMA.POST -/

/-- The transfer that a DMA.POST asks for (R181, R430). -/
def postTransfer (r : Request) (s : State) (o : Origin) (d : List Byte) : Transfer :=
  let b := r.arg 16 1
  let gfa : W16 := BitVec.ofNat 16 (r.arg 36 2)
  { node := none, basin := b, tenant := (s.basin b).tenant, kind := 0, toRemote := r.arg 18 1 == 0, laddr := r.arg 20 4
    ga := BitVec.ofNat 64 (r.arg 24 8), len := r.arg 32 4
    gate := if gfa = 0xFFFF then none else some (gfa, BitVec.ofNat 7 (r.arg 19 1))
    tag := 0, rank := 0, count := 1, xfer := 0, pkts := [], origin := some o, detail := d }

def postBody (r : Request) (s : State) : Reply :=
  let b := r.arg 16 1
  let c := r.arg 17 1
  let a := r.arg 20 4
  let n := r.arg 32 4
  let segs := segsOf a (a + n)
  let d := [byte b, byte c, byte (r.arg 18 1), byte (r.arg 19 1)] ++ leBytes 4 n
  if 31 < b ∨ 31 < c ∨ 1 < r.arg 18 1 ∨ 127 < r.arg 19 1 ∨ a % 256 ≠ 0 ∨ n % 256 ≠ 0 ∨ 0x4000000 < n
      ∨ Memory.size ≤ a ∨ Memory.size < a + n then Reply.no stBadArg
  else if !settled s b ∨ !(s.basin b).rect.clusters.contains (c / 4)
      ∨ segs.any (fun k => (s.seg k).owner != some b || (s.seg k).power == .off) then Reply.no stConflict
  else if (s.chan c).xfer.isSome ∨ segs.any (fun k => (s.seg k).power == .waking || (s.seg k).busy) then Reply.no stBusy
  else
    { status := stAccepted, detail := some d
      commit := fun o s => settleReads (startTransfer s c (postTransfer r s o d) false) }

def cmdDmaPost : Cmd :=
  { code := 0x1205, stage := 3, body := postBody
    layout := fun _ => [(16, 1), (17, 1), (18, 1), (19, 1), (20, 4), (24, 8), (32, 4), (36, 2)] }
def execDmaPost (r : Request) (s : State) : Res := .next (serveRow cmdDmaPost r s)

end Sys2Proof.Machine
end

