-- ==== Sys2Proof/Machine/Lost.lean ====
section
/-! DEFINITION. What happens when a port loses its link, and how a packet that comes in ends before its last frame (R376, R393, R413,
R469). -/

namespace Sys2Proof.Machine

/-! ### Packets cut off (R376, R393) -/

/-- The packet is the one that is coming in on channel `vc` of port `q`. -/
def OutPacket.comesBy (o : OutPacket) (q vc : Nat) : Bool := !o.whole && o.arrival == some q && o.place.any (fun k => poolVc k == vc)

/-- A packet that is being forwarded ends before its last frame: one that has begun to leave ends with an abort frame, one that has not
goes no further; the places of its frames are free. -/
def cutForward (s : State) (q vc : Nat) : State :=
  let mine := fun (o : OutPacket) => o.comesBy q vc
  let all := s.fabric.waiting.filter mine ++ (List.range 20).flatMap (fun k => (s.port k).queue.filter mine)
  let s1 := { s with fabric := { s.fabric with waiting := s.fabric.waiting.filter (fun o => !mine o) } }
  let s2 := (List.range 20).foldl (fun t k => t.modPort k (fun p => { p with queue := p.queue.filterMap (fun o =>
    if !mine o then some o else if o.begun then some { o with abort := true, whole := true } else none) })) s1
  all.foldl (fun t o => oweFor t o o.kept) s2

/-- A packet that is coming in on channel `vc` of port `q` ends before its last frame: what has been written stays, and the rest is
discarded.  The credit of a write is free; an add packet contributes nothing (R376, R393, R425). -/
def cutIncoming (s : State) (q vc : Nat) : State :=
  match ((s.port q).incoming.find? (fun e => e.1 == vc)).map (fun e => e.2) with
  | none => s
  | some x =>
    let s1 := s.modPort q (fun p => { p with incoming := tdel p.incoming vc })
    match x.st with
    | .forward => cutForward s1 q vc
    | .write h _ _ live => if live then loseUse s1 h else s1
    | _ => s1

/-- The flume is reset: every transit packet that has begun to leave and is not wholly sent ends with an abort frame, and what still
comes of it is discarded; the number of them with it (R568). -/
def cutTransit (s : State) : State × Nat :=
  let cut := fun (o : OutPacket) => o.arrival.isSome && o.begun && !o.abort
  let all := (List.range 20).flatMap (fun k => (s.port k).queue.filter cut)
  let s1 := (List.range 20).foldl (fun t k => t.modPort k (fun p =>
    { p with queue := p.queue.map (fun o => if cut o then { o with abort := true, whole := true } else o)
             incoming := p.incoming.map (fun e => if all.any (fun o => o.comesBy k e.1) then (e.1, { e.2 with st := .drop }) else e) })) s
  (flush (all.foldl (fun t o => oweFor t o o.kept) s1), all.length)

/-! ### The loss of a link (R393, R413) -/

/-- A packet that waits for a lost port and has not begun is offered again; one on the control or the escape channel keeps
its channel (R413). -/
def offerAgain (s : State) (o : OutPacket) : Option State :=
  place s (if o.vc = 3 then { o with pkt := { o.pkt with hdr := { o.pkt.hdr with flags := o.pkt.hdr.flags ||| 0x01 } } } else o)

/-- The packets that no other port takes are counted in one entry, which names the first (R413); the places of their frames are
free. -/
def offerAll (s : State) (l : List OutPacket) : State :=
  let r := l.foldl (fun (t : State × List OutPacket) o =>
    match offerAgain t.1 o with
    | some s' => (s', t.2)
    | none => (tellUnreachable (oweFor t.1 o o.kept) o.pkt, t.2 ++ [o])) (s, [])
  match r.2 with
  | [] => r.1
  | o :: _ => discarded r.1 5 (match o.arrival with | some a => byte a | none => 0xFF) o.pkt.hdr r.2.length

/-- The read data of a request are cut off with the link: the request will not be answered (R393, R434, R437). -/
def loseRead (s : State) (p : Packet) : State :=
  match readOf s p with
  | some e => loseUse { s with dma := { s.dma with reads := s.dma.reads.erase e } } e.1
  | none => s

/-- The port's link layer as an attempt starts with it: nothing kept for replay, nothing partly received. -/
def Port.fresh (p : Port) : Port :=
  { p with txSeq := 0, replay := [], rxExp := 0, naks := 0, nakTimes := [], ackDue := false, heard := 0
           credits := [0, 0, 0, 0, 0, 0], owed := [0, 0, 0, 0, 0, 0], incoming := [], queue := [], spaced := 3, deficit := [] }

/-- A partner that no time comes from any more; without its parent a locked chiplet is in holdover (R469). -/
def forgetPartner (s : State) (q : Nat) : State :=
  let lost := s.time.parent == some q
  { s with time := { s.time with partners := tdel s.time.partners q
                                 parent := if lost then none else s.time.parent
                                 holdover := s.time.holdover || (lost && s.time.locked) } }

/-- A port enters a state without a link, having had one: packets partly received end, PORT_LOST is recorded, and what waited for the
port is offered again; the rest of a packet that had begun is lost with its places (R393, R413). -/
def loseLink (s : State) (q : Nat) (st : Byte) : State :=
  let p := s.port q
  let s1 := (List.range 4).foldl (fun t vc => cutIncoming t q vc) s
  let l := (s1.port q).queue
  let s2 := forgetPartner (s1.modPort q (fun p => { p.fresh with
    state := st, since := s.time.elapsed, step := 0, session := none, resume := false, reset := false, removed := true })) q
  let s3 := event s2 0xE030 ([byte q, st] ++ leBytes 2 p.replay.length ++ leBytes 2 p.incoming.length)
  let s4 := (l.filter (fun o => o.begun)).foldl (fun t o => loseRead (oweFor t o o.kept) o.pkt) s3
  flush (offerAll s4 (l.filter (fun o => !o.begun && !o.abort)))

/-- A port goes DOWN; from UP or TRAINING it loses its link. -/
def portDown (s : State) (q : Nat) (st : Byte) : State :=
  let p := s.port q
  if p.state = lnUp ∨ p.state = lnTraining then loseLink s q st
  else s.setPort q { p with state := st, since := s.time.elapsed }

end Sys2Proof.Machine
end

