-- ==== Sys2Proof/Machine/Head.lean ====
section
/-! DEFINITION. The headgate: throttle reasons, the operating point, the estimator, the cap, pace mode, temperature and
the stops (R22 to R27, R45, R486 to R516, R518, R519, R571). -/

namespace Sys2Proof.Machine

/-! ### Stops (R27, R35, R42, R394, R509, R511) -/

/-- Every port falls silent and loses its link: after STOP three times on each that is UP, if `stop`; with none on a VDD_LINK fault,
or on a port that trains (R394). -/
def stopPorts (s : State) (cause : Byte) (stop : Bool) : State :=
  let up := (List.range 20).filter (portUp s)
  let l := (List.range 20).filter (fun q => (s.port q).state == lnUp || (s.port q).state == lnTraining)
  let s1 := if stop then up.foldl (fun t q => (List.range 3).foldl (fun u _ => u.emit (.stop q cause)) t) s else s
  let s2 := l.foldl (fun t q => t.modPort q (fun p => { p with state := lnDown, resume := false })) s1
  l.foldl (fun t q => loseLink t q lnDown) s2

/-- A stop: issue ends everywhere, a seizure that has not committed ends, STOP and STOP_NOTICE go out, and the event is
recorded (R394, R484, R511, R572). -/
def stopLines (s : State) (cause : Byte) (item : Byte) (links drop : Bool) : State :=
  let s1 := stopPorts (abortSeizure s) cause links
  let s2 := if sidebandUp s then s1.emit (.sideband 0x05 [cause, if drop then 1 else 0]) else s1
  eventNow s2 0xE080 [cause, item]

/-- A thermal trip (R45, R509, R587). -/
def tripNow (s : State) (point : Byte) : State :=
  if s.aon.stop.trip || s.boot.dead then s
  else
    let on := fun (k : Stops) => { k with trip := true }
    let s1 := { s with aon := { s.aon with stop := on s.aon.stop, latch := on s.aon.latch, alert := on s.aon.alert, tripPoint := point } }
    stopLines (modHead s1 (fun h => setReason h trTrip true)) 5 point true false

/-! ### Changes of the operating point (R25, R26, R497) -/

/-- VDD_ACK: ignored unless its number is the outstanding request's (R374) and its voltage the requested one, since only that
lets the clock rise (R25; DEDUCED, log 87); a raise switches once the PLL has locked too, a lowering is over (R25, R497). -/
def execVddAck (num : Byte) (mv : W16) (s : State) : Res :=
  .next (match s.head.change with
    | some c =>
      if !c.requested || num != s.head.reqNum || mv.toNat != pointMv s c.target then s
      else
        let s1 := modHead s (fun h => { h with ackMv := mv.toNat })
        if c.raise && !c.pllLocked then modHead s1 (fun h => { h with change := some { c with acked := true } })
        else evalPoint (modHead s1 (fun h => { h with op := c.target, change := none }))
    | none => s)

/-- VDD_ACK_TIMEOUT: the lower point is kept, the request withdrawn, and no raise is asked for during 1 ms; a lowering that was
decided meanwhile starts (R26, R495, R497). -/
def execVddAckTimeout (s : State) : Res :=
  .next (match s.head.change with
    | some c =>
      if c.requested && !c.acked then
        evalPoint (modHead s (fun h => setReason { h with change := none, holdoff := 500 } trVddAck true))
      else s
    | none => s)

/-- CORE_PLL_LOCKED: the idle PLL has locked at the new frequency; a raise also needs its VDD_ACK, and a lowering switches
at once and then asks for the lower voltage (R25, R56, R497). -/
def execCorePllLocked (s : State) : Res :=
  .next (match s.head.change with
    | some c =>
      if c.pllLocked then s
      else if c.raise then
        if c.acked then evalPoint (modHead s (fun h => { h with op := c.target, change := none }))
        else modHead s (fun h => { h with change := some { c with pllLocked := true } })
      else sendVddReq (modHead s (fun h => { h with op := c.target, change := some { c with pllLocked := true } })) c.target
    | none => s)

/-- OP_LOOP: the cap ceiling follows the matrix issue that the cap limiter withheld in the last 1 ms and 10 ms (R496). -/
def execOpLoop (demanded withheldN : Nat) (s : State) : Res :=
  if !loops s then .next s else
  let h := s.head
  let hist := ((demanded, withheldN) :: h.capHist).take 10
  let d := (hist.map (fun e => e.1)).sum
  let w := (hist.map (fun e => e.2)).sum
  let ceil :=
    if h.pace.isSome then 15
    else if demanded < 4 * withheldN then h.capCeil - 1
    else if hist.length = 10 ∧ (20 * w < d ∨ w = 0) then min 15 (h.capCeil + 1)
    else h.capCeil
  .next (evalPoint (setHead s { h with capHist := hist, capCeil := ceil }))

/-! ### Pace mode (R518, R519) -/

/-- F and c of a pace point, in units of 10 mW (R518). -/
def paceTable (op : Nat) : Nat × Nat := if op = 0 then (4500, 170) else if op = 9 then (9000, 485) else (12000, 820)

/-- The pace duty D in percent (R518). -/
def paceDuty (s : State) (op cap : Nat) : Nat :=
  let t := paceTable op
  min 100 ((100 * cap - t.1) * 100 / (s.fuses.grade.toNat * t.2))

/-- PACE_WINDOW: each core's budget of strip cycles for the next window of 4,096 core cycles (R519). -/
def execPaceWindow (executed : List Nat) (s : State) : Res :=
  .next (match (if loops s then s.head.pace else none) with
    | none => s
    | some op =>
      let ng := s.fuses.grade.toNat
      let na := (executed.filter (· != 0)).length
      let base : Int := paceDuty s op s.head.cap * 4096 / 100
      let each : Int := if ng < na then base * ng / na else base
      modHead s (fun h =>
        let old := fun n => match h.paceBudget.find? (fun e => e.1 == n) with | some e => e.2 | none => each
        let bs := (List.range 64).map (fun n => (n, each - max 0 ((executed.getD n 0 : Int) - max 0 (old n))))
        let held := (List.range 64).any (fun n => 0 < executed.getD n 0 ∧ max 0 (old n) ≤ (executed.getD n 0 : Int) ∧ base < 4096)
        setReason { h with paceBudget := bs } trPace (held || bs.any (fun e => e.2 ≤ 0))))

/-! ### The estimator (R487 to R492, R498, R499) -/

/-- The counters of each rail (R487). -/
def railCounters : List (List Nat) :=
  [numbers 0 17 ++ [18, 19], 17 :: numbers 20 10, numbers 30 8, numbers 38 10]

/-- The count of counter `i` over the chiplet. -/
def Activity_total (a : Activity) (i : Nat) : Nat :=
  if i < 20 then (a.core.map (fun l => l.getD i 0)).sum else a.chip.getD (i - 20) 0

def sumRat (l : List Rat) : Rat := l.foldl (· + ·) 0

/-- Energy of counts in joules. -/
def energyOf (is : List Nat) (f : Nat → Nat) : Rat := sumRat (is.map (fun i => Config.weight i * (f i : Rat)))

/-- 2 µs in seconds. -/
def periodS : Rat := 2 / 1000000

/-- The square of the last acknowledged voltage over 0.75 V (R488). -/
def coreScale (h : Head) : Rat := ((h.ackMv : Rat) / 750) * ((h.ackMv : Rat) / 750)

/-- The temperature points that the leakage of a rail averages over: its class's (R488, R505). -/
def railPoints (r : Nat) : List Nat :=
  match r with
  | 0 => numbers 0 64 | 1 => [70, 71] | 2 => numbers 64 4 | _ => [68, 69]

/-- The reading of a point. -/
def pointTemp (h : Head) (k : Nat) : Int := (tget {} h.points k).temp

/-- The points of the class of point `k` (R505). -/
def classPoints (k : Nat) : List Nat :=
  if k < 64 then numbers 0 64 else if k < 68 then numbers 64 4 else if k < 70 then [68, 69] else [70, 71]

/-- The reading that the headgate uses for a point (R510). -/
def usedTemp (h : Head) (k : Nat) : Int :=
  let p := tget {} h.points k
  if p.failed then
    let l := (classPoints k).filterMap (fun j => let q := tget {} h.points j; if q.failed then none else some q.temp)
    match l with
    | [] => p.temp
    | x :: r => r.foldl max x + 5
  else p.temp

/-- Leakage of a rail: a fused function of voltage and mean temperature (R488, R510). -/
def railLeak (h : Head) (r : Nat) : Rat :=
  let l := railPoints r
  let v := match r with | 0 => h.ackMv | 1 => 800 | 2 => 750 | _ => 850
  Config.leakage r v (((l.map (usedTemp h)).sum : Rat) / (l.length : Rat))

def at4 (l : List Rat) (r : Nat) : Rat := l.getD r 0

/-- The estimate of one period (R488). -/
def estimate (h : Head) (a : Activity) : Period :=
  let dyn := (numbers 0 4).map (fun r =>
    (if r = 0 then coreScale h else 1) * energyOf (railCounters.getD r []) (Activity_total a) / periodS)
  let leak := (numbers 0 4).map (railLeak h)
  { dyn := dyn, leak := leak
    est := (numbers 0 4).map (fun r => at4 h.gain r * at4 dyn r + at4 h.offset r + at4 leak r) }

/-- VDD_AON and VDDIO: 0.7 W (R488). -/
def fixedW : Rat := 7 / 10

def maxRat (l : List Rat) : Rat := l.foldl max 0

/-- The compute limit: the cap less 0.7 W, the budgets of memory and links, and 6 % of the cap without reports (R492,
R498). -/
def computeLimit (h : Head) (p : Period) : Rat :=
  let mem := at4 p.est 1 + at4 p.est 2
  let link := at4 p.est 3
  let memFirst := h.order ≤ 3 && h.order != 1
  let linkFirst := h.order ≤ 2
  let m := if memFirst then max mem (maxRat (h.budgets.map (fun b => b.1))) else mem
  let l := if linkFirst then max link (maxRat (h.budgets.map (fun b => b.2))) else link
  (h.cap : Rat) - fixedW - m - l - (if h.stale then (h.cap : Rat) * 6 / 100 else 0)

/-- What the cap leaves the next period: no 125 consecutive estimates, with the 0.7 W of the other rails, average above it, so a
period above the cap is repaid in the periods that follow (R499; DEDUCED, log 95). -/
def windowRoom (h : Head) (ps : List Period) : Rat :=
  let l := ps.take 124
  (h.cap : Rat) * ((l.length : Rat) + 1) - sumRat (l.map (fun p => sumRat p.est + fixedW))

/-- The limit that the cap limiter holds the VDD_CORE estimate of the next period to (R498, R499). -/
def coreLimit (h : Head) (p : Period) : Rat :=
  min (computeLimit h p) (windowRoom h (p :: h.periods) - fixedW - at4 p.est 1 - at4 p.est 2 - at4 p.est 3)

/-! ### Energy accounts (R515) -/

def addEnergy (t : Tab Rat) (a : Nat) (e : Rat) : Tab Rat := tput t a (tget 0 t a + e)

/-- Charge `e` by the counts of each account; to the chiplet account where there are none. -/
def chargeBy (t : Tab Rat) (e : Rat) (counts : List Nat) : Tab Rat :=
  let n := counts.sum
  if n = 0 then addEnergy t 32 e
  else (List.range 33).foldl (fun t a => addEnergy t a (e * (counts.getD a 0 : Rat) / (n : Rat))) t

/-- The account of a node: its basin's, or the chiplet's. -/
def nodeAccount (s : State) (n : Nat) : Nat := (basinOf s n).getD 32

/-- The accounts after one period, in µJ (R515). -/
def chargePeriod (s : State) (a : Activity) (p : Period) : Tab Rat :=
  let h := s.head
  let uj := fun (w : Rat) => w * 2
  let scale := at4 h.gain 0 * coreScale h
  let is := railCounters.getD 0 []
  let ditherE := uj (scale * (Config.weight 6 * (a.dither : Rat)) / periodS)
  let t1 := (List.range 64).foldl (fun t n =>
    addEnergy t (nodeAccount s n) (uj (scale * energyOf is (fun i => (a.core.getD n []).getD i 0) / periodS))) h.energy
  let spilled := (List.range 64).filter (fun n => 0 < (a.core.getD n []).getD 6 0)
  let t2 := if spilled.isEmpty then t1 else
    addEnergy (spilled.foldl (fun t n => addEnergy t (nodeAccount s n) (-(ditherE / (spilled.length : Rat)))) t1) 32 ditherE
  let powered := (List.range 64).filter (goodNode s)
  let coreRest := uj (at4 p.est 0 - at4 h.gain 0 * at4 p.dyn 0)
  let t3 := if powered.isEmpty then addEnergy t2 32 coreRest
    else powered.foldl (fun t n => addEnergy t (nodeAccount s n) (coreRest / (powered.length : Rat))) t2
  let on := (List.range 512).filter (fun k => (s.seg k).power == .on)
  let sramRest := uj (at4 p.est 1 - at4 h.gain 1 * at4 p.dyn 1)
  let t4 := if on.isEmpty then addEnergy t3 32 sramRest
    else on.foldl (fun t k => addEnergy t (min 32 ((s.seg k).owner.getD 32)) (sramRest / (on.length : Rat))) t3
  let t5 := chargeBy t4 (uj (at4 h.gain 1 * at4 p.dyn 1))
    (a.sramBy.map (fun l => l.getD 0 0 + l.getD 1 0 + l.getD 2 0 + l.getD 4 0))
  let t6 := chargeBy t5 (uj (at4 p.est 2)) (a.flumeBy.map (fun l => l.getD 0 0))
  addEnergy t6 32 (uj (at4 p.est 3 + fixedW))

/-- Matrix cycles of a period: counters 0 to 5 and 7 (R487). -/
def matrixCounters : List Nat := [0, 1, 2, 3, 4, 5, 7]

/-- ESTIMATOR_PERIOD: the estimate, the cap limiter's allowance, the accounts and the reasons, every 2 µs (R488, R498,
R499, R514, R515). -/
def execEstimatorPeriod (a : Activity) (s : State) : Res :=
  if !loops s then .next s else
  let h := s.head
  let p := estimate h a
  let scale := at4 h.gain 0 * coreScale h
  let matrix := scale * energyOf matrixCounters (Activity_total a) / periodS
  let powered : Rat := Activity_total a 19
  let arrays : Rat := ((numbers 0 4 ++ [6]).map (Activity_total a)).sum
  let idleW := scale * (Config.weight 6 * max 0 (powered - arrays)) / periodS
  let limit := coreLimit h p
  let rest := at4 p.est 0 - matrix
  let share := if matrix ≤ 0 ∨ at4 p.est 0 ≤ limit then 1 else max 0 (min 1 ((limit - rest) / matrix))
  let unmet := (h.cap : Rat) < at4 p.est 1 + at4 p.est 2 + at4 p.est 3 + rest + fixedW
  let h1 : Head := { h with
    periods := (p :: h.periods).take 127
    budgets := ((at4 p.est 1 + at4 p.est 2, at4 p.est 3) :: h.budgets).take 5000
    reports := h.reports.map (fun q => { q with age := q.age + 2 })
    share := share, matrixW := matrix, idle := idleW, energy := chargePeriod s a p
    fitAge := h.fitAge + 2, reportAge := h.reportAge + 2, ditherAge := h.ditherAge + 2, stalled := false
    holdoff := h.holdoff - 1 }
  let h2 := tickReasons h1 2
  let h3 := setReason (setReason (setReason h2 trCapUnmet unmet) trRailStale (h.stale && share < 1)) trVddAck (1 < h.holdoff)
  .next (pointReasons (setHead s (setReason h3 trCap (share < 1))))

/-! ### Calibration (R489 to R492) -/

def meanRat (l : List Rat) : Rat := if l.isEmpty then 0 else sumRat l / (l.length : Rat)

/-- The largest and smallest of a list differ by less than 2 % of its mean (R490). -/
def tooSteady (l : List Rat) : Bool :=
  match l with
  | [] => true
  | x :: r => (r.foldl max x - r.foldl min x) * 100 < 2 * meanRat l || r.foldl max x == r.foldl min x

/-- Gain and offset of one rail by least squares over the reports; an underdetermined rail keeps its gain (R490). -/
def fitRail (reports : List Report) (gain : Rat) (r : Nat) : Rat × Rat × Bool :=
  let xs := reports.map (fun q => at4 q.dyn r)
  let ys := reports.map (fun q => at4 q.measured r - at4 q.leak r)
  let mx := meanRat xs
  let my := meanRat ys
  if tooSteady (xs.map (fun x => gain * x)) then (gain, my - gain * mx, true)
  else
    let sxy := sumRat (List.zipWith (fun x y => (x - mx) * (y - my)) xs ys)
    let sxx := sumRat (xs.map (fun x => (x - mx) * (x - mx)))
    let g := sxy / sxx
    (g, my - g * mx, false)

/-- A dither begins: PRBS7 seeded from the die identifier, 0 replaced by 1 (R493). -/
def prbsSeed (s : State) : BitVec 7 := let v := s.fuses.dieId.setWidth 7; if v = 0 then 1 else v

/-- x⁷ + x⁶ + 1. -/
def prbsNext (v : BitVec 7) : BitVec 7 := (v <<< 1) ||| BitVec.ofNat 7 ((bit v.toNat 6) ^^ (bit v.toNat 5)).toNat

/-- Spill form: the estimate lies 4 % of VDD_CORE power below the compute limit, and the arrays have that much idle time
(R493). -/
def spillForm (h : Head) : Bool :=
  match h.periods.head? with
  | some p =>
    let d := at4 p.est 0 * 4 / 100
    at4 p.est 0 + d ≤ computeLimit h p && d ≤ h.idle
  | none => false

/-- A dither's slot as it begins. -/
def ditherAt (h : Head) (slot : Nat) (v : BitVec 7) : Head :=
  let d : Dither := { slot := slot, prbs := v, high := bit v.toNat 0, spill := spillForm h }
  setReason { h with dither := some d } trDither (!d.spill && !d.high)

def startDither (s : State) (h : Head) : Head := ditherAt { h with ditherAge := 0 } 0 (prbsSeed s)

/-- DITHER_SLOT: the next of the 40 slots; a dither that was switched off ends (R493, R494). -/
def execDitherSlot (s : State) : Res :=
  if !loops s then .next s else
  .next (modHead s (fun h =>
    match h.dither with
    | none => h
    | some d =>
      if d.slot + 1 < 40 && h.ditherOn then ditherAt h (d.slot + 1) (prbsNext d.prbs)
      else setReason { h with dither := none } trDither false))

/-- RAIL_REPORT: the rail powers are compared with the mean of the 125 estimates before it, and every rail is fitted over
the reports of the last 50 ms, at most 200 (R489 to R493). -/
def execRailReport (sample core sram flume link : W16) (s : State) : Res :=
  if !loops s then .next s else
  let h := s.head
  let amps := fun (v : W16) => (v.toNat : Rat) / 10
  let measured := [amps core * (h.ackMv : Rat) / 1000, amps sram * 8 / 10, amps flume * 75 / 100, amps link * 85 / 100]
  let ps := (h.periods.drop 2).take 125
  let mean := fun (f : Period → List Rat) => (numbers 0 4).map (fun r => meanRat (ps.map (fun p => at4 (f p) r)))
  let est := mean (fun p => p.est)
  let q : Report := { dyn := mean (fun p => p.dyn), leak := mean (fun p => p.leak), measured := measured, estimate := sumRat est }
  let reports := (q :: h.reports.filter (fun q => q.age ≤ 50000)).take 200
  let fits := (numbers 0 4).map (fun r => fitRail reports (at4 h.gain r) r)
  let under := (fits.getD 0 (1, 0, true)).2.2
  let h1 : Head := { h with
    reports := reports, gain := fits.map (fun f => f.1), offset := fits.map (fun f => f.2.1), under := under
    fitted := h.fitted || !under, fitAge := if under then h.fitAge else 0, reportAge := 0, stale := false, sample := sample
    lastRails := sumRat measured }
  let h2 := setReason h1 trRailStale false
  .next (setHead s (if h2.ditherOn && under && h2.dither.isNone && 60000 ≤ h2.ditherAge then startDither s h2 else h2))

/-- RAIL_STALE_TIMEOUT: no report for 5 ms (R492). -/
def execRailStaleTimeout (s : State) : Res :=
  .next (if !loops s then s else modHead s (fun h => setReason { h with stale := true } trRailStale (h.share < 1)))

/-- The estimator is calibrated (R491, R492). -/
def calibrated (h : Head) : Bool := h.fitted && h.fitAge ≤ 1000000 && h.reportAge ≤ 5000 && !h.stale

/-- The root-mean-square error of the last reports in units of 0.1 % (R491). -/
def calibrationError (h : Head) : Nat :=
  let e := h.reports.map (fun q =>
    let m := sumRat q.measured
    if m = 0 then 0 else (q.estimate - m) / m)
  isqrt (meanRat (e.map (fun x => x * x * 1000000))).floor.toNat

/-! ### Ramp, droop, stalls (R501 to R504, R571) -/

/-- The cores with the highest forecast, as many as keep the rise within the ramp, rotated by interval (R501). -/
def holdHighest (forecast : List Nat) (turn limit : Nat) : W64 :=
  let order := (List.range 64).map (fun i => (i + turn) % 64)
  let sorted := order.mergeSort (fun a b => forecast.getD b 0 ≤ forecast.getD a 0)
  let r := sorted.foldl (fun (acc : Nat × List Nat) n =>
    if acc.1 ≤ limit then acc else (acc.1 - forecast.getD n 0, n :: acc.2)) (forecast.sum, [])
  BitVec.ofNat 64 (maskOf r.2)

/-- Quarters of a full array that a hint's level forecasts: none, one, two, all four (R247, R503; DEDUCED, log 96). -/
def hintQuarters (l : BitVec 2) : Nat := if l = 3 then 4 else l.toNat

/-- The VDD_CORE current in mA that the compute limit allows at the last acknowledged voltage (R502, R503). -/
def limitCurrent (h : Head) : Nat := (computeLimit h (h.periods.headD ⟨[], [], []⟩) * 1000000 / (h.ackMv : Rat)).floor.toNat

/-- The current that a hint aims at: the core's current without matrix work and its level's part of a full array in the format of
its last strip, FP8 E4M3 if it has none, but at most the core's share of the compute limit (R247, R503). -/
def hintTarget (s : State) (quiet : List Nat) (n : Nat) (k : Hint) : Nat :=
  min (quiet.getD n 0 + hintQuarters k.level * Config.arrayCurrent ((s.core n).lastFmt.getD 1) s.head.op / 4)
    (limitCurrent s.head / ((List.range 64).filter (goodNode s)).length)

/-- The current that the floor holds for a core: its forecast, and for a hinted core what lets it reach its target at the hint's
start, the ramp shared among the hinted cores, and the target from then on (R247, R503). -/
def coreWant (s : State) (forecast quiet : List Nat) (n : Nat) : Nat :=
  match (s.core n).hint with
  | none => forecast.getD n 0
  | some k =>
    let mhz := (opPoint s s.head.op).2
    let ahead := (1280 * k.lead.toNat - k.age + mhz - 1) / mhz
    let hinted := ((List.range 64).filter (fun n => (s.core n).hint.isSome)).length
    max (forecast.getD n 0) (hintTarget s quiet n k - ahead * (50 * s.head.ramp) / hinted)

/-- The current that spill can add: on the array of a good core that no thermal limiter touches, where no strip executes (R502). -/
def spillRoom (s : State) (forecast quiet : List Nat) : Nat :=
  (((List.range 64).filter (fun n => goodNode s n && (n :: numbers 64 8).all (fun k => tget 16 s.head.thermal k == 16))).map (fun n =>
    quiet.getD n 0 + Config.arrayCurrent 1 s.head.op - forecast.getD n 0)).sum

/-- The rise and the fall of VDD_CORE current in mA that an interval of 50 ns allows: those of POWER.RAMP; in a droop no rise and a
fall at 50 A/µs, and that fall in a stop (R501, R504, R511). -/
def rampSteps (s : State) : Nat × Nat :=
  (if s.head.droop then 0 else 50 * s.head.ramp, if s.head.droop || stopped s then 2500 else 50 * s.head.ramp)

/-- The floor after an interval whose forecast fits the rise: it follows what the cores want within the ramp, as far as spill may
fill it; in a stop spill fills it whatever it would otherwise be held to (R501 to R503, R511). -/
def nextFloor (s : State) (forecast quiet : List Nat) : Nat :=
  let f := forecast.sum
  let want := ((List.range 64).map (coreWant s forecast quiet)).sum
  let v := max (min want (s.head.floor + (rampSteps s).1)) (s.head.floor - (rampSteps s).2)
  if stopped s then max f v else max f (min v (min (f + spillRoom s forecast quiet) (limitCurrent s.head)))

/-- A hint grows older by an interval, and its forecast ends with its duration; a duration of 0 lasts until the next hint (R246,
R247). -/
def Hint.pass (k : Hint) (mhz : Nat) : Option Hint :=
  if k.dur != 0 && 20 * (64 * k.lead.toNat + 256 * k.dur.toNat) ≤ k.age + mhz then none else some { k with age := k.age + mhz }

/-- The hints of all cores grow older by an interval. -/
def passHints (s : State) : State :=
  { s with die := { s.die with cores := s.die.cores.map (fun e => (e.1, { e.2 with hint := e.2.hint.bind (fun k => k.pass (opPoint s s.head.op).2) })) } }

/-- RAMP_SHAPER_INTERVAL: the forecast VDD_CORE currents of the cores in mA for the next 50 ns, and what of them is not matrix work;
a rise beyond the ramp withholds matrix issue, and a fall beyond it, or a hint, is filled with spill, which writes no state (R501 to
R504). -/
def execRampShaperInterval (forecast quiet : List Nat) (s : State) : Res :=
  if !loops s then .next s else
  let h := s.head
  let f := forecast.sum
  let up := (rampSteps s).1
  .next (setHead (passHints s) (
    if h.floor + up < f then
      setReason { h with rampHold := holdHighest forecast h.rampTurn (h.floor + up), rampTurn := (h.rampTurn + 1) % 64
                         floor := h.floor + up } trRampRise (h.floor + 50 * h.ramp < f)
    else setReason { h with rampHold := 0, floor := nextFloor s forecast quiet } trRampRise false))

/-- DROOP_DETECT: some of the sixteen monitors read below 98 % for 10 ns (R504, R593). -/
def execDroopDetect (below : BitVec 16) (s : State) : Res :=
  .next (if below = 0 then s else modHead s (fun h => setReason { h with droop := true, below := below } trDroop true))

/-- DROOP_CLEAR: every monitor has read at least 99 % for 1 µs (R504). -/
def execDroopClear (s : State) : Res := .next (modHead s (fun h => setReason { h with droop := false, below := 0 } trDroop false))

/-- HEADGATE_STALL: matrix issue is withheld until the restarted headgate estimates again; a second stall within 1 s trips
the chiplet (R571, R572). -/
def execHeadgateStall (missed : W32) (s : State) : Res :=
  let now := s.time.elapsed
  let l := now :: s.head.stalls.filter (fun t => now < t + 1000000000)
  let s1 := modHead s (fun h => { h with stalled := true, stalls := l })
  let s2 := event s1 0xE071 ([byte l.length, 0, 0, 0] ++ leBytes 4 missed.toNat)
  .next (if 2 ≤ l.length then tripNow s2 0xFF else s2)

/-! ### Temperature (R505 to R510) -/

/-- The neighbours of a point: of a core's, those of the nodes beside it; of another, the rest of its class (DESIGN
CHOICE, log 40). -/
def pointNeighbours (k : Nat) : List Nat :=
  if k < 64 then
    (List.range 64).filter (fun j => (nodeX j = nodeX k ∧ (nodeY j + 1 = nodeY k ∨ nodeY k + 1 = nodeY j))
      ∨ (nodeY j = nodeY k ∧ (nodeX j + 1 = nodeX k ∨ nodeX k + 1 = nodeX j)))
  else (classPoints k).filter (· != k)

/-- A point after a conversion, and whether it has just failed: a reading out of range, or no change in 100 ms while its
neighbours change by 3 °C or more (R510). -/
def convertPoint (temps : List Int) (k : Nat) (p : TempPoint) : TempPoint × Bool :=
  let t := temps.getD k p.temp
  let around := (pointNeighbours k).map (fun j => temps.getD j 0)
  let same := t == p.temp && !p.beside.isEmpty
  let still := if same then p.still + 1 else 0
  let beside := if same then p.beside else around
  let moved := (List.zipWith (fun a b => decide (3 ≤ (a - b).natAbs)) around beside).any id
  let bad := t < -10 || 125 < t || (5000 ≤ still && moved)
  ({ p with temp := t, still := still, beside := beside, failed := p.failed || bad }, bad && !p.failed)

/-- THERM_ALERT_N for temperature: asserted at a limit, released when every point is 5 °C below its own (R45, R507). -/
def alertAfter (h : Head) : Bool :=
  (numbers 0 72).any (fun k => (tget {} h.points k).alert ≤ usedTemp h k)
  || (h.alerting && (numbers 0 72).any (fun k => (tget {} h.points k).alert - 5 < usedTemp h k))

/-- The thermal allowance of a point in sixteenths: cut by an eighth, restored by a sixteenth (R508). -/
def thermalStep (h : Head) (k : Nat) : Nat :=
  let a := tget 16 h.thermal k
  let t := usedTemp h k
  let lim := (tget {} h.points k).throttle
  if lim ≤ t then a - 2 else if t ≤ lim - 2 then min 16 (a + 1) else a

/-- THERMAL_CONVERSION: every point is converted; failures, the alert, the thermal limiter and the thermal ceiling follow,
every 20 µs (R505 to R510).  A point counts the conversions for which it is hot, so 251 of them span 5 ms; `hot` counts those since
some point had been hot for so long, and `cool` those of a cool run, of which 2501 span 50 ms. -/
def execThermalConversion (temps : List Int) (s : State) : Res :=
  let r := (numbers 0 72).map (fun k => (k, convertPoint temps k (tget {} s.head.points k)))
  let h1 := { s.head with points := r.map (fun e => (e.1, e.2.1)) }
  let failed := (h1.points.filter (fun e => e.2.failed)).length
  let s1 := (r.filter (fun e => e.2.2)).foldl (fun t e =>
    event t 0xE070 [byte e.1, BitVec.ofInt 8 e.2.1.temp, byte failed]) (setHead s h1)
  let h := s1.head
  let active := loops s
  let coolNow := (numbers 0 72).all (fun k => usedTemp h k ≤ (tget {} h.points k).throttle - 5)
  let points := h.points.map (fun e => (e.1, { e.2 with hot := if e.2.throttle ≤ usedTemp h e.1 then e.2.hot + 1 else 0 }))
  let held := points.any (fun e => 251 ≤ e.2.hot)
  let hot := if held then h.hot + 1 else 0
  let cool := if coolNow then h.cool + 1 else 0
  let ceil := if held && h.hot % 250 == 0 then h.thermCeil - 1 else if cool = 2501 then min 15 (h.thermCeil + 1) else h.thermCeil
  let h2 := { h with alerting := alertAfter h }
  let h3 := if active then { h2 with
      points := points, thermal := (numbers 0 72).map (fun k => (k, thermalStep h k)), thermCeil := ceil
      hot := hot, cool := if cool = 2501 then 1 else cool } else h2
  let s2 := setHead s1 h3
  .next (evalPoint (if 4 < failed then tripNow s2 0xFF else s2))

/-- TRIP_COMPARATOR_SELF_CHECK: a trip comparator has failed its continuous self-check, and the chiplet trips (R510). -/
def execTripComparatorSelfCheck (point : Fin 72) (s : State) : Res := .next (tripNow s (byte point))

/-- THERMAL_TRIP: a point has reached its trip limit (R509). -/
def execThermalTrip (point : Fin 72) (s : State) : Res := .next (tripNow s (byte point))

end Sys2Proof.Machine
end

