-- ==== Sys2Proof/Machine/CmdPower.lean ====
section
/-! DEFINITION. The power and thermal commands (R183, R184, R491, R494 to R499, R506, R509, R514 to R518). -/

namespace Sys2Proof.Machine

/-- The entry of a power command holds its argument bytes 16 to 23, zero where the argument ends before (R103, R162). -/
def powerEntry (r : Request) (f : State → State) : Reply :=
  { detail := some (r.given 8), commit := fun _ s => evalPoint (f s) }

def capBody (r : Request) (s : State) : Reply :=
  let w := r.arg 16 2
  if w < 100 ∨ 450 < w then Reply.no stBadArg
  else if s.head.pace.any (fun op => paceDuty s op w < 5) then Reply.no stConflict
  else powerEntry r (fun s => modHead s (fun h => { h with cap := w }))

def cmdPowerCap : Cmd := { code := 0x1400, stage := 2, urgent := true, layout := fun _ => [(16, 2)], body := capBody }
def execPowerCap (r : Request) (s : State) : Res := .next (serveRow cmdPowerCap r s)

def cmdPowerPriority : Cmd :=
  { code := 0x1401, stage := 2, layout := fun _ => [(16, 1)]
    body := fun r _ =>
      if 5 < r.arg 16 1 then Reply.no stBadArg
      else powerEntry r (fun s => modHead s (fun h => { h with order := r.arg 16 1 })) }
def execPowerPriority (r : Request) (s : State) : Res := .next (serveRow cmdPowerPriority r s)

def preferBody (r : Request) (s : State) : Reply :=
  let b := r.arg 16 1
  let ph := r.arg 17 1
  let op := r.arg 18 1
  if 31 < b ∨ 3 < ph ∨ (15 < op ∧ op ≠ 0xFF) then Reply.no stBadArg
  else if !exists_ s b then Reply.no stConflict
  else powerEntry r (fun s => s.modBasin b (fun v =>
    { v with prefer := if op = 0xFF then tdel v.prefer ph else tput v.prefer ph (byte op) }))

/-- A preference applies at the basin's next phase change (R184). -/
def cmdPowerOpPrefer : Cmd :=
  { code := 0x1402, stage := 3, layout := fun _ => [(16, 1), (17, 1), (18, 1)], body := preferBody }
def execPowerOpPrefer (r : Request) (s : State) : Res := .next (serveRow cmdPowerOpPrefer r s)

def paceBody (r : Request) (s : State) : Reply :=
  let on := r.arg 16 1
  let op := r.arg 17 1
  if 1 < on ∨ 15 < op ∨ (on = 1 ∧ op ≠ 0 ∧ op ≠ 9 ∧ op ≠ 15) then Reply.no stBadArg
  else if on = 1 ∧ paceDuty s op s.head.cap < 5 then Reply.no stConflict
  else powerEntry r (fun s => modHead s (fun h =>
    let h1 := { h with pace := if on = 1 then some op else none, paceBudget := [] }
    if on = 1 then { h1 with capCeil := 15 } else setReason h1 trPace false))

def cmdPowerPace : Cmd := { code := 0x1403, stage := 3, layout := fun _ => [(16, 1), (17, 1)], body := paceBody }
def execPowerPace (r : Request) (s : State) : Res := .next (serveRow cmdPowerPace r s)

def cmdPowerRamp : Cmd :=
  { code := 0x1404, stage := 2, layout := fun _ => [(16, 1)]
    body := fun r _ =>
      if r.arg 16 1 < 1 ∨ 50 < r.arg 16 1 then Reply.no stBadArg
      else powerEntry r (fun s => modHead s (fun h => { h with ramp := r.arg 16 1 })) }
def execPowerRamp (r : Request) (s : State) : Res := .next (serveRow cmdPowerRamp r s)

/-! ### Temperature limits (R183, R506, R509) -/

/-- The fused trip limit of stepping B (R506). -/
def tripFused : Nat := 115

/-- The points that a THERM.LIMITS names. -/
def limitPoints (p : Nat) : List Nat := if p = 0xFF then numbers 0 72 else [p]

/-- A point with the limits that the command gives; 0 keeps a limit. -/
def withLimits (r : Request) (p : TempPoint) : TempPoint :=
  { p with alert := if r.arg 17 1 = 0 then p.alert else r.arg 17 1
           throttle := if r.arg 18 1 = 0 then p.throttle else r.arg 18 1
           trip := if r.arg 19 1 = 0 then p.trip else r.arg 19 1 }

def limitsOrdered (p : TempPoint) : Bool := p.alert + 5 ≤ p.throttle && p.throttle + 5 ≤ p.trip

def setLimits (r : Request) (s : State) : State :=
  let l := limitPoints (r.arg 16 1)
  let s1 := modHead s (fun h =>
    { h with points := l.foldl (fun t k => tput t k (withLimits r (tget {} t k))) h.points })
  let s2 := modHead s1 (fun h => { h with alerting := alertAfter h })
  match (if r.arg 19 1 = 0 then [] else l).find? (fun k =>
    let p := tget {} s2.head.points k
    p.trip ≤ p.temp) with
  | some k => tripNow s2 (byte k)
  | none => s2

def limitsBody (r : Request) (s : State) : Reply :=
  let k := r.arg 16 1
  let a := r.arg 17 1
  let t := r.arg 18 1
  if (71 < k ∧ k ≠ 0xFF) ∨ (a ≠ 0 ∧ (a < 60 ∨ 105 < a)) ∨ (t ≠ 0 ∧ (t < 65 ∨ 110 < t)) ∨ tripFused < r.arg 19 1
      ∨ (limitPoints k).any (fun p => !limitsOrdered (withLimits r (tget {} s.head.points p))) then Reply.no stBadArg
  else powerEntry r (setLimits r)

def cmdThermLimits : Cmd :=
  { code := 0x1405, stage := 2, layout := fun _ => [(16, 1), (17, 1), (18, 1), (19, 1)], body := limitsBody }
def execThermLimits (r : Request) (s : State) : Res := .next (serveRow cmdThermLimits r s)

/-! ### Readings (R183, R491, R514, R516) -/

/-- THROTTLE.READ: the codes run from 0 to 11 (R514). -/
def throttleBody (r : Request) (s : State) : Reply :=
  let f := r.arg 16 1
  let n := r.arg 17 1
  if n < 1 ∨ 12 < f + n then Reply.no stBadArg
  else Reply.data (leBytes 8 s.time.count.toNat ++ (numbers f n).flatMap (fun k =>
    let q := tget {} s.head.reasons k
    leBytes 4 q.us.toNat ++ leBytes 4 q.count.toNat))

def cmdThrottleRead : Cmd :=
  { code := 0x1406, stage := 2, afterStop := true, layout := fun _ => [(16, 1), (17, 1)], body := throttleBody }
def execThrottleRead (r : Request) (s : State) : Res := .next (serveRow cmdThrottleRead r s)

/-- A total in µJ, modulo 2^64; a basin number in no use reads 0 (R516). -/
def energyTotal (s : State) (a : Nat) : Nat :=
  if a < 32 ∧ !exists_ s a then 0 else (tget (0 : Rat) s.head.energy a).floor.toNat % 2 ^ 64

def energyBody (r : Request) (s : State) : Reply :=
  let f := r.arg 16 1
  let n := r.arg 17 1
  if n < 1 ∨ 12 < n ∨ 33 < f + n then Reply.no stBadArg
  else Reply.data (leBytes 8 s.time.count.toNat ++ (numbers f n).flatMap (fun a => leBytes 8 (energyTotal s a)))

def cmdEnergyRead : Cmd :=
  { code := 0x1407, stage := 3, afterStop := true, layout := fun _ => [(16, 1), (17, 1)], body := energyBody }
def execEnergyRead (r : Request) (s : State) : Res := .next (serveRow cmdEnergyRead r s)

/-- Watts in units of 0.1 W, two bytes. -/
def tenths (w : Rat) : List Byte := leBytes 2 (min 0xFFFF (w * 10).floor.toNat)

def estimResult (h : Head) : List Byte :=
  let est := match h.periods.head? with | some p => sumRat p.est + fixedW | none => fixedW
  let flags := (if calibrated h then 1 else 0) + (if h.under then 2 else 0) + (if h.dither.isSome then 4 else 0)
    + (if h.ditherOn then 8 else 0)
  tenths est ++ tenths h.lastRails ++ leBytes 2 (min 0xFFFF (calibrationError h)) ++ [byte flags, 0]
    ++ leBytes 4 (if h.fitted then satTo 32 h.fitAge else 0xFFFFFFFF)

def cmdEstimStatus : Cmd := { code := 0x1408, stage := 2, body := fun _ s => Reply.data (estimResult s.head) }
def execEstimStatus (r : Request) (s : State) : Res := .next (serveRow cmdEstimStatus r s)

/-- ESTIM.DITHER: 0 ends a running dither with its slot, 2 starts one at once and leaves dither enabled (R494). -/
def cmdEstimDither : Cmd :=
  { code := 0x1409, stage := 3, layout := fun _ => [(16, 1)]
    body := fun r _ =>
      let m := r.arg 16 1
      if 2 < m then Reply.no stBadArg
      else powerEntry r (fun (s : State) =>
        let h : Head := { s.head with ditherOn := m != 0 }
        setHead s (if m = 2 ∧ h.dither.isNone then startDither s h else h)) }
def execEstimDither (r : Request) (s : State) : Res := .next (serveRow cmdEstimDither r s)

end Sys2Proof.Machine
end

