-- ==== Sys2Proof/Machine/CmdProg.lean ====
section
/-! DEFINITION. The program commands and DEBUG.HALT: load, start, stop, state, core reset, and the end of a load (R173 to
R176, R189, R207 to R209, R293, R295, R340, R565, R566). -/

namespace Sys2Proof.Machine

/-! ### PROG.LOAD (R173, R207, R565) -/

/-- Bytes of a cluster instruction store (R173). -/
def storeBytes : Nat := 0x80000

/-- Bytes that the images of other basins, and loads into them, take in cluster `c`. -/
def storeUsed (s : State) (b c : Nat) : Nat :=
  (((List.range 32).filter (· != b)).map (fun k =>
    let v := s.basin k
    (match v.image with | some i => if bit i.clusters.toNat c then i.bytes.length else 0 | none => 0)
      + (match v.load with | some j => if bit j.clusters.toNat c then j.len else 0 | none => 0))).sum

/-- The clusters that a load stages into: those of its mask and those that the rectangle touches. -/
def loadClusters (s : State) (b : Nat) (mask : Nat) : Nat :=
  let v := s.basin b
  mask ||| (if v.state = .active then maskOf v.rect.clusters else 0)

/-- The instruction buffers of a basin's cores are invalidated (R207). -/
def flushBuffers (s : State) (b : Nat) : State :=
  if (s.basin b).state = .active then
    (s.basin b).rect.nodes.foldl (fun t n => t.modCore n (fun c => { c with ibuf := [], fetching := [], miss := none })) s
  else s

def loadBody (r : Request) (s : State) : Reply :=
  let b := r.arg 16 1
  let f := r.arg 17 1
  let src := r.arg 20 4
  let len := r.arg 24 4
  let entry := r.arg 28 4
  let v := s.basin b
  let cl := loadClusters s b (r.arg 18 1)
  let segs := segsOf src (src + len)
  if 31 < b ∨ 1 < f ∨ src % 256 ≠ 0 ∨ len % 48 ≠ 0 ∨ storeBytes < len ∨ entry % 48 ≠ 0 ∨ len ≤ entry
      ∨ Memory.size < src + len then Reply.no stBadArg
  else if v.state = .free ∨ seizing s b
      ∨ segs.any (fun k => (s.seg k).owner != some b || (s.seg k).power == .off)
      ∨ (v.state = .active ∧ !v.rect.nodes.all (isIdle s)) then Reply.no stConflict
  else if (List.range 8).any (fun c => bit cl c && storeBytes < storeUsed s b c + len) then Reply.no stNoResource
  else if v.load.isSome ∨ segs.any (fun k => (s.seg k).power == .waking || (s.seg k).busy) then Reply.no stBusy
  else
    { status := stAccepted, detail := some ([byte b, byte f, byte (r.arg 18 1), 0] ++ leBytes 4 (r.arg 32 4))
      commit := fun o s =>
        flushBuffers (s.modBasin b (fun v => { v with
          image := none
          load := some { src := src, len := len, entry := BitVec.ofNat 14 (entry / 48), check := BitVec.ofNat 32 (r.arg 32 4)
                         lattice := bit f 0, clusters := byte cl, flags := byte f, extra := byte (r.arg 18 1), origin := o } })) b }

def cmdProgLoad : Cmd :=
  { code := 0x1100, stage := 3, body := loadBody
    layout := fun _ => [(16, 1), (17, 1), (18, 1), (20, 4), (24, 4), (28, 4), (32, 4)] }
def execProgLoad (r : Request) (s : State) : Res := .next (serveRow cmdProgLoad r s)

/-- The end of a load: the image is in the stores if its CRC-32C agrees; a word that fails its parity is the steward's
detection (R173, R346, R565). -/
def finishLoad (s : State) (b : Nat) (j : LoadJob) : State :=
  let d := [byte b, j.flags, j.extra, 0] ++ leBytes 4 j.check.toNat
  let data := s.mem.read j.src j.len
  let s0 := match firstBad s.mem j.src j.len with | some w => detect s w none 1 | none => s
  let s1 := s0.modBasin b (fun v => { v with load := none })
  if crc32c data = j.check.toNat then
    let s2 := s1.modBasin b (fun v => { v with image := some ⟨j.lattice, data, j.entry, j.clusters⟩ })
    let s3 := { s2 with die := { s2.die with badLines := s2.die.badLines.filter (fun e => e.2.1 != b) } }
    background (flushBuffers s3 b) j.origin stOk d
  else background s1 j.origin stBadArg d

/-- PROG_LOAD_COMPLETE (R173). -/
def execProgLoadComplete (basin : Fin 32) (s : State) : Res :=
  .next (match (s.basin basin).load with
    | some j => finishLoad s basin j
    | none => s)

/-! ### PROG.START (R174, R209, R218, R295, R340, R566) -/

/-- The nodes that a core mask selects: every good core for zero, else the named nodes if each is a good node of the
rectangle (R174, R566). -/
def selectCores (s : State) (b mask : Nat) : Option (List Nat) :=
  if mask = 0 then some (basinCores s b)
  else
    let l := bitsOf 64 mask
    if l.all (fun n => (s.basin b).rect.has n && goodNode s n) then some l else none

/-- The node byte of a program command's entry. -/
def nodeByte (mask : Nat) (l : List Nat) : Byte := if mask ≠ 0 ∧ l.length = 1 then byte (l.getD 0 0) else 0xFF

/-- A core holds the state that a resume continues from (R174; DEDUCED, log 51). -/
def holdsState (c : Core) : Bool := c.run == .stopped || c.run == .halted

/-- Start the cores `l` at the entry point, as a new step (R218, R340, R341). -/
def startCores (b : Nat) (l : List Nat) (arg : W64) (all : Bool) (s : State) : State :=
  l.foldl (fun t n => startCore t b n arg) (beginStep s b arg l all)

def startBody (r : Request) (s : State) : Reply :=
  let b := r.arg 16 1
  let f := r.arg 17 1
  let mask := r.arg 24 8
  let v := s.basin b
  let l := (selectCores s b mask).getD []
  let resume := bit f 0
  if 31 < b ∨ 1 < f then Reply.no stBadArg
  else if !settled s b ∨ (v.lattice ∧ (mask ≠ 0 ∨ !allGood s v.rect)) ∨ (selectCores s b mask).isNone
      ∨ (if resume then l.any (fun n => !holdsState (s.core n)) else l.any (fun n => (s.core n).run == .running))
      ∨ v.image.any (fun i => i.lattice != v.lattice) then Reply.no stConflict
  else if v.load.isSome then Reply.no stBusy
  else
    let all := mask == 0 && (v.rect.nodes.filter (hasCore s)).all (isIdle s)
    { detail := some [byte b, byte f, nodeByte mask l, byte l.length]
      commit := fun _ s =>
        if resume then l.foldl (fun t n => resumeCore t n false) s
        else startCores b l (BitVec.ofNat 64 (r.arg 32 8)) all s }

def cmdProgStart : Cmd :=
  { code := 0x1101, stage := 3, layout := fun _ => [(16, 1), (17, 1), (24, 8), (32, 8)], body := startBody }
def execProgStart (r : Request) (s : State) : Res := .next (serveRow cmdProgStart r s)

/-! ### PROG.STOP (R174) -/

/-- PROG.STOP.  DESIGN CHOICE (log 88): a mask that is not zero where R174 requires zero is ST_BAD_ARG with RESET, whose flag
and mask are both arguments, and ST_CONFLICT in lattice mode, which is the basin's state. -/
def stopBody (r : Request) (s : State) : Reply :=
  let b := r.arg 16 1
  let f := r.arg 17 1
  let mask := r.arg 24 8
  let v := s.basin b
  let l := (selectCores s b mask).getD []
  let run := l.filter (fun n => (s.core n).run == .running)
  if 31 < b ∨ 1 < f ∨ (bit f 0 ∧ mask ≠ 0) then Reply.no stBadArg
  else if !settled s b ∨ (v.lattice ∧ mask ≠ 0) ∨ (selectCores s b mask).isNone then Reply.no stConflict
  else if bit f 0 then
    { detail := some [byte b, byte f, 0xFF, byte (v.rect.nodes.filter (hasCore s)).length]
      commit := fun _ s => basinReset s b 2 }
  else
    { detail := some [byte b, byte f, nodeByte mask l, byte run.length]
      commit := fun _ s => settleReads (run.foldl (fun t n => stopCore t n .stopped) s) }

def cmdProgStop : Cmd :=
  { code := 0x1102, stage := 3, urgent := true, layout := fun _ => [(16, 1), (17, 1), (24, 8)], body := stopBody }
def execProgStop (r : Request) (s : State) : Res := .next (serveRow cmdProgStop r s)

/-! ### PROG.STATE (R175) -/

/-- The code of a node for PROG.STATE. -/
def runCode (s : State) (b n : Nat) : Byte :=
  if (s.basin b).state = .active ∧ (s.basin b).rect.has n ∧ hasCore s n then
    match (s.core n).run with
    | .idle => 1 | .running => 2 | .stopped => 3 | .halted => 4 | .faulted => 5
  else 0

def cmdProgState : Cmd :=
  { code := 0x1103, stage := 3, layout := fun _ => [(16, 1)]
    body := fun r s =>
      if 31 < r.arg 16 1 then Reply.no stBadArg
      else Reply.data ((List.range 64).map (runCode s (r.arg 16 1))) }
def execProgState (r : Request) (s : State) : Res := .next (serveRow cmdProgState r s)

/-! ### CORE.RESET (R176, R66, R68) -/

/-- The expected basin of a command that names a node (R176, R192). -/
def expects (s : State) (n b : Nat) : Bool := if b = 0xFF then (basinOf s n).isNone else basinOf s n == some b

/-- The cores that a CORE.RESET of node `n` covers: in a lattice every core of the rectangle, those of nodes faulted in service
among them (R60, R176). -/
def resetGroup (s : State) (n : Nat) : List Nat :=
  match basinOf s n with
  | some b => if (s.basin b).lattice then (s.basin b).rect.nodes.filter (hasCore s) else [n]
  | none => [n]

/-- The reset of a core, in a lattice of every core, and the end of its basin's step (R66, R176, R340). -/
def applyCoreReset (n : Nat) (s : State) : State :=
  let l := resetGroup s n
  let b := basinOf s n
  let s1 := l.foldl resetCore s
  let s2 := match b with | some b => s1.modBasin b (fun v => { v with step := none, rerunMark := false }) | none => s1
  resetEvent s2 4 1 n

def coreResetBody (r : Request) (s : State) : Reply :=
  let n := r.arg 16 1
  let b := r.arg 17 1
  if 63 < n ∨ (31 < b ∧ b ≠ 0xFF) then Reply.no stBadArg
  else if !expects s n b ∨ seizing s b ∨ !hasCore s n then Reply.no stConflict
  else
    { detail := some [byte b, 0, byte n, byte (resetGroup s n).length]
      commit := fun _ s => applyCoreReset n s }

def cmdCoreReset : Cmd := { code := 0x1104, stage := 3, layout := fun _ => [(16, 1), (17, 1)], body := coreResetBody }
def execCoreReset (r : Request) (s : State) : Res := .next (serveRow cmdCoreReset r s)

/-! ### DEBUG.HALT (R189) -/

/-- What an action does to a core: 0 halts a running or stopped one, 1 resumes and 2 steps a halted one. -/
def haltTarget (c : Core) (action : Nat) : Bool :=
  if action = 0 then c.run == .running || c.run == .stopped else c.run == .halted

def haltCore (action : Nat) (s : State) (n : Nat) : State :=
  if action = 0 then
    if (s.core n).run = .running then stopCore s n .halted else s.modCore n (fun c => { c with run := .halted })
  else resumeCore s n (action == 2)

def haltBody (r : Request) (s : State) : Reply :=
  let n := r.arg 16 1
  let b := r.arg 17 1
  let a := r.arg 18 1
  let l := (if n = 0xFF then basinCores s b else issueGroup s n).filter (fun k => haltTarget (s.core k) a)
  if (63 < n ∧ n ≠ 0xFF) ∨ 2 < a ∨ (31 < b ∧ b ≠ 0xFF) then Reply.no stBadArg
  else if !settled s b ∨ (n ≠ 0xFF ∧ !expects s n b) ∨ l.isEmpty then Reply.no stConflict
  else
    { detail := some [byte b, byte a, byte n, byte l.length]
      commit := fun _ s => settleReads (l.foldl (haltCore a) s) }

def cmdDebugHalt : Cmd :=
  { code := 0x1700, stage := 2, urgent := true, layout := fun _ => [(16, 1), (17, 1), (18, 1)], body := haltBody }
def execDebugHalt (r : Request) (s : State) : Res := .next (serveRow cmdDebugHalt r s)

end Sys2Proof.Machine
end

