-- ==== Sys2Proof/Machine/Time.lean ====
section
/-! DEFINITION. The turn counter: turn edges, the grandmaster, the time exchange, and the time commands (R153 to R155, R460,
R465 to R471). -/

namespace Sys2Proof.Machine

def setTime (s : State) (t : TimeState) : State := { s with time := t }
def modTime (s : State) (f : TimeState → TimeState) : State := setTime s (f s.time)

/-! ### Turn edges (R246, R471) -/

/-- Every hold of an edge operation ends, also those that a seized basin keeps. -/
def releaseEdges (s : State) : State :=
  let free := fun (c : Core) => { c with edge := false }
  { s with die := { s.die with
      cores := s.die.cores.map (fun e => (e.1, free e.2))
      basins := s.die.basins.map (fun e => (e.1, { e.2 with saved := e.2.saved.map (fun v => { v with core := free v.core }) })) } }

/-- The counter stands at `k`: an edge occurs at a multiple of the period, and a new period is adopted at its first edge. -/
def atTick (s : State) : State :=
  let k := s.time.count.toNat
  match s.time.nextPeriod with
  | some p =>
    if k % p.toNat = 0 then releaseEdges (modTime s (fun t => { t with period := p, nextPeriod := none }))
    else if k % s.time.period.toNat = 0 then releaseEdges s else s
  | none => if k % s.time.period.toNat = 0 then releaseEdges s else s

/-- One turn tick: 1 ns of the always-on domain; the counter counts unless CHIP_RST_N is low (R465). -/
def tick (s : State) : State :=
  let s1 := modTime s (fun t => { t with elapsed := t.elapsed + 1 })
  if s.boot.dead then s else if s.boot.rstLow then s1 else atTick (modTime s1 (fun t => { t with count := t.count + 1, ticks := t.ticks + 1 }))

/-- The value of the next turn edge. -/
def nextEdge (t : TimeState) : Nat :=
  let e := nextMultiple t.count.toNat t.period.toNat
  match t.nextPeriod with
  | some p => min e (nextMultiple t.count.toNat p.toNat)
  | none => e

/-- TURN_EDGE: time passes to the next turn edge (R471). -/
def execTurnEdge (s : State) : Res :=
  .next (if s.boot.rstLow || s.boot.dead then s
    else
      let k := nextEdge s.time
      atTick (modTime s (fun t => { t with
        count := BitVec.ofNat 64 k, ticks := t.ticks + BitVec.ofNat 64 (k - t.count.toNat), elapsed := t.elapsed + (k - t.count.toNat) })))

/-- A load of the counter (R468): leases run on, and a move forward across an edge releases the holds once (R460, R471). -/
def loadCount (s : State) (d : Int) : State :=
  let old := s.time.count
  let new := old + BitVec.ofInt 64 d
  let p := s.time.period.toNat
  let shift := fun (g : Gate) => { g with holder := g.holder.map (fun h => { h with since := h.since + BitVec.ofInt 64 d }) }
  let s1 := modTime { s with gateUnit := { s.gateUnit with gates := s.gateUnit.gates.map (fun e => (e.1, shift e.2)) } }
    (fun t => { t with count := new })
  if 0 < d ∧ old.toNat / p < new.toNat / p then releaseEdges s1 else s1

/-! ### The grandmaster (R153, R154, R467) -/

/-- The chiplet is the grandmaster. -/
def isGm (s : State) : Bool := s.time.gmFa == s.fa && s.fa != 0xFFFF

/-- A definition is in force: one by TIME.MASTER that a later one has not cleared. -/
def gmDefined (t : TimeState) : Bool := t.definition.any (fun n => n.mode != 2)

/-- The FAs that this chiplet can reach, its own first, with those that its partners follow. -/
def reachedFas (s : State) : List W16 :=
  (if s.fa = 0xFFFF then [] else [s.fa])
  ++ (s.fabric.active.dest.filter (fun e => entryValid e.2 && s.fa != 0xFFFF)).map (fun e => faOfIndex (faPod s.fa) e.1)
  ++ (s.time.partners.filter (fun e => portUp s e.1 && e.2.gmFa != 0xFFFF)).map (fun e => e.2.gmFa)

/-- The lowest of them, 0xFFFF if there is none. -/
def lowestFa (s : State) : W16 := (reachedFas s).foldl (fun m f => if f.toNat < m.toNat then f else m) 0xFFFF

/-- The grandmaster as the chiplet knows it; after a fall-back it stays until the one before is reachable again. -/
def chooseGm (s : State) : W16 :=
  if s.time.fellBack then s.time.gmFa
  else match s.time.definition with
    | some n => if n.mode = 2 then lowestFa s else n.gmFa
    | none => lowestFa s

/-- The fields of a time frame that tell this chiplet's state (R466). -/
def timeFrame (s : State) (t1 t2 t3 : W64) : TimeMsg :=
  { locked := s.time.locked, holdover := s.time.holdover, defined := gmDefined s.time, gmFa := s.time.gmFa, hops := s.time.hops
    t1 := t1, t2 := t2, t3 := t3
    defTs := match s.time.definition with | some n => n.ts | none => 0
    nomFa := match s.time.definition with | some n => n.nomFa | none => 0xFFFF
    period := s.time.nextPeriod.getD s.time.period }

/-- A TIME_REQ on every UP port. -/
def requestTime (s : State) : State :=
  ((List.range 20).filter (portUp s)).foldl (fun t q => t.emit (.time q false (timeFrame t t.time.count 0 0))) s

/-- The chiplet follows grandmaster `f`: its own role is locked by definition; a locked chiplet that changes to another one is
in holdover until it has a parent (R467 to R469). -/
def followGm (s : State) (f : W16) : State :=
  if f = s.time.gmFa then s
  else
    let own := f == s.fa && f != 0xFFFF
    requestTime (modTime s (fun t => { t with
      gmFa := f, parent := none, near := 0
      locked := own || t.locked, holdover := !own && t.locked, hops := if own then 0 else t.hops, offset := if own then 0 else t.offset }))

/-- What is known may name another grandmaster. -/
def refreshGm (s : State) : State := followGm s (chooseGm s)

/-- Definition `n` prevails over the one in force (R154). -/
def prevails (n : Nomination) (t : TimeState) : Bool :=
  match t.definition with
  | none => true
  | some m => m.ts.toNat < n.ts.toNat || (m.ts == n.ts && n.nomFa.toNat < m.nomFa.toNat)

/-- Detail of TIME.MASTER's entries (R128). -/
def timeDetail (s : State) (mode : Byte) (gm : W16) (period : W32) : List Byte :=
  [mode, if s.time.locked then 1 else 0] ++ leBytes 2 gm.toNat ++ leBytes 4 period.toNat

/-- The nomination of this chiplet ends with a status (R154). -/
def endNomination (s : State) (st : W16) : State :=
  match s.time.nominated with
  | some (n, o) =>
    background (modTime s (fun t => { t with nominated := none })) o st (timeDetail s n.mode (if n.mode = 2 then s.time.gmFa else n.gmFa) n.period)
  | none => s

/-- A chiplet adopts a definition: TIME_ADOPTED is recorded, and a nomination of its own that it replaces ends with
ST_CONFLICT (R153, R154, R471). -/
def adopt (s : State) (n : Nomination) : State :=
  let other := s.time.nominated.any (fun k => k.1 != n)
  let s1 := if other then endNomination s stConflict else s
  let s2 := modTime s1 (fun t => { t with
    definition := some n, fellBack := false
    nextPeriod := if n.period = 0 ∨ n.period = t.period then none else some n.period })
  let s3 := refreshGm s2
  event s3 0xE041 ([n.mode, 0] ++ leBytes 2 s3.time.gmFa.toNat ++ leBytes 4 n.period.toNat)

/-- TIME_NOMINATION: a flooded nomination is adopted if it prevails, and sent on (R153, R154). -/
def execTimeNomination (n : Nomination) (s : State) : Res :=
  .next (if prevails n s.time then (adopt s n).emit (.nomination n) else s)

/-- TIME_MASTER_LOCKED: the nominating chiplet is locked to the grandmaster that it nominated (R154). -/
def execTimeMasterLocked (s : State) : Res :=
  .next (match s.time.nominated with
    | some (n, _) => if s.time.locked && (n.mode == 2 || s.time.gmFa == n.gmFa) then endNomination s stOk else s
    | none => s)

/-- GRANDMASTER_FALLBACK: the grandmaster has not been reachable for 25 ms, and the chiplet with the lowest FA among those that
can reach one another takes the role (R467). -/
def execGrandmasterFallback (lowest : W16) (s : State) : Res :=
  .next (if isGm s then s else followGm (modTime s (fun t => { t with fellBack := true })) lowest)

/-! ### The exchange (R466, R468, R469) -/

/-- TIME_EXCHANGE_TIMER: an exchange begins on every UP port (R466). -/
def execTimeExchangeTimer (s : State) : Res := .next (requestTime s)

/-- A definition that a partner's frame carries (R466, R467). -/
def learn (s : State) (m : TimeMsg) : State :=
  let n : Nomination := { mode := if m.defined then 1 else 2, ts := m.defTs, nomFa := m.nomFa, gmFa := m.gmFa, period := m.period }
  if m.nomFa = 0xFFFF then s
  else if prevails n s.time then adopt s n else s

/-- What a frame says of the partner at port `q`; the parent stays the parent only while it is locked to the same
grandmaster; the defined grandmaster may be reachable again (R467, R468, R469). -/
def hear (s : State) (q : Nat) (m : TimeMsg) : State :=
  let s1 := modTime (learn s m) (fun t => { t with
    partners := tput t.partners q { locked := m.locked, holdover := m.holdover, gmFa := m.gmFa, hops := m.hops }
    fellBack := t.fellBack && !(m.locked &&
      (match t.definition with
       | some n => if n.mode = 2 then m.gmFa.toNat < t.gmFa.toNat else n.gmFa == m.gmFa
       | none => m.gmFa.toNat < t.gmFa.toNat)) })
  let s2 := refreshGm s1
  let bad := s2.time.parent == some q && !(m.locked && m.gmFa == s2.time.gmFa)
  if bad then modTime s2 (fun t => { t with parent := none, holdover := t.holdover || t.locked }) else s2

/-- TIME_REQ: the partner's state is taken, and TIME_RSP answers (R466). -/
def execTimeReq (port : Fin 20) (m : TimeMsg) (s : State) : Res :=
  .next (if portUp s port then
      let s1 := hear s port m
      s1.emit (.time port true (timeFrame s1 m.t1 s1.time.count s1.time.count))
    else s)

/-- The UP port that qualifies best as a parent (R468). -/
def bestParent (s : State) : Option Nat :=
  let l := s.time.partners.filter (fun e => portUp s e.1 && e.2.locked && e.2.gmFa == s.time.gmFa)
  (l.foldl (fun (m : Option (Nat × PartnerTime)) e =>
    match m with
    | none => some e
    | some b => if e.2.hops.toNat < b.2.hops.toNat then some e else m) none).map (fun e => e.1)

/-- Twice the offset in ns from the partner of an exchange (R466). -/
def twiceOffset (m : TimeMsg) (t4 : W64) : Int := (m.t2 - m.t1).toInt - (t4 - m.t3).toInt

/-- The parent's exchange disciplines the clock: an UNLOCKED chiplet loads its counter and locks after two near exchanges; a
locked one acquires again if a new parent is more than 1 µs away (R468). -/
def discipline (s : State) (q : Nat) (m : TimeMsg) (x : Int) : State :=
  let new := s.time.parent != some q
  let s1 := modTime s (fun t => { t with
    parent := some q, hops := m.hops + 1, offset := 500 * x, lastExchange := t.elapsed, holdover := false })
  let far := 2000 < x.natAbs
  if s.time.locked && !(new && far) then s1
  else if s.time.locked then modTime (loadCount s1 (x / 2)) (fun t => { t with locked := false, near := 0 })
  else if x.natAbs ≤ 4 then
    modTime s1 (fun t => { t with near := t.near + 1, locked := 2 ≤ t.near + 1 })
  else modTime (loadCount s1 (x / 2)) (fun t => { t with near := 0 })

/-- TIME_RSP: an exchange ends; only the parent's disciplines the clock, and a better parent is taken (R466, R468, R469). -/
def execTimeRsp (port : Fin 20) (m : TimeMsg) (t4 : W64) (s : State) : Res :=
  .next (if portUp s port then
      let s1 := hear s port m
      if s1.time.gmFa = s1.fa ∧ s1.fa ≠ 0xFFFF then s1
      else if bestParent s1 = some (port : Nat) then discipline s1 port m (twiceOffset m t4)
      else s1
    else s)

/-- HOLDOVER_EXPIRY: 100 ms in holdover without a parent (R469). -/
def execHoldoverExpiry (s : State) : Res :=
  .next (if s.time.holdover ∧ s.time.parent = none then modTime s (fun t => { t with locked := false, holdover := false, near := 0 }) else s)

/-! ### The commands (R153, R155) -/

/-- TIME.MASTER: the nomination carries the timestamp of its commit; one that does not prevail over the definition in force
ends at once with ST_CONFLICT (R153, R154).  Mode 0 on a chiplet without an FA is accepted and names 0xFFFF, and period 0 keeps
the period in force and withdraws one that still waits for its first edge (DESIGN CHOICE, log 39: the spec is silent on both). -/
def timeMasterBody (r : Request) (s : State) : Reply :=
  let mode := r.arg 16 1
  let f : W16 := BitVec.ofNat 16 (r.arg 18 2)
  let p := r.arg 20 4
  if 2 < mode ∨ (p ≠ 0 ∧ p < 1000) then Reply.no stBadArg
  else if mode = 1 ∧ !reachable s f then Reply.no stUnreachable
  else
    let gm : W16 := if mode = 0 then s.fa else if mode = 1 then f else 0xFFFF
    let period : W32 := if p = 0 then s.time.period else BitVec.ofNat 32 p
    let n : Nomination := { mode := byte mode, ts := stamp s, nomFa := s.fa, gmFa := gm, period := period }
    { status := stAccepted
      detail := some (timeDetail s n.mode (if mode = 2 then lowestFa s else gm) period)
      commit := fun o t =>
        let t1 := modTime (endNomination t stConflict) (fun k => { k with nominated := some (n, o) })
        (if prevails n t.time then adopt t1 n else endNomination t1 stConflict).emit (.nomination n) }

def cmdTimeMaster : Cmd := { code := 0x0500, stage := 2, layout := fun _ => [(16, 1), (18, 2), (20, 4)], body := timeMasterBody }
def execTimeMaster (r : Request) (s : State) : Res := .next (serveRow cmdTimeMaster r s)

/-- The age of the last exchange in µs, saturating; none on the grandmaster. -/
def exchangeAge (s : State) : Nat := if isGm s then 0 else satTo 32 ((s.time.elapsed - s.time.lastExchange) / 1000)

/-- The 28-byte result of TIME.STATUS (R155).  An offset outside 32 signed bits of ps shows its low 32 bits (DESIGN CHOICE, log
39: the spec gives it no other form). -/
def timeResult (s : State) : List Byte :=
  let t := s.time
  leBytes 8 t.count.toNat ++ leBytes 2 t.gmFa.toNat
    ++ [byte (ofBits [t.locked, gmDefined t, isGm s]), t.hops, match t.parent with | some q => byte q | none => 0xFF, 0, 0, 0]
    ++ leBytes 4 t.period.toNat ++ leBytes 4 (low 32 t.offset) ++ leBytes 4 (exchangeAge s)

def cmdTimeStatus : Cmd := { code := 0x0501, stage := 2, body := fun _ s => Reply.data (timeResult s) }
def execTimeStatus (r : Request) (s : State) : Res := .next (serveRow cmdTimeStatus r s)

end Sys2Proof.Machine
end

