-- ==== Sys2Proof/Machine/Discover.lean ====
section
/-! DEFINITION. Address, shape, discovery and routes (R141 to R150, R402, R404 to R408). -/

namespace Sys2Proof.Machine

def modFabric (s : State) (f : Fabric → Fabric) : State := s.setFabric (f s.fabric)

/-! ### Address and shape (R41, R141 to R143, R402) -/

/-- The shape that this chiplet proposes: that of FABRIC.SHAPE.SET, or else of SHAPE_HINT; none is shape 0. -/
def proposedShape (s : State) : Shape :=
  match s.fabric.proposed with
  | some h => h
  | none => if s.boot.pins.shapeHint = 1 then ⟨1, 0, 0⟩ else if s.boot.pins.shapeHint = 2 then ⟨2, 0, 0⟩ else {}

/-- Some basin exists. -/
def anyBasin (s : State) : Bool := (List.range 32).any (fun b => (s.basin b).state != .free)

/-- The chiplet takes an FA. -/
def takeFa (s : State) (f : W16) : State := refreshGm (modFabric s (fun k => { k with fa := f }))

def addrSetBody (r : Request) (s : State) : Reply :=
  let f : W16 := BitVec.ofNat 16 (r.arg 16 2)
  if 16 ≤ faSlot f then Reply.no stBadArg
  else if faSlot f ≠ s.boot.pins.slotId.toNat then Reply.no stConflict
  else if s.boot.stage = 3 ∧ (anyBasin s ∨ s.fabric.gangs ≠ []) then Reply.no stConflict
  else { detail := some (leBytes 2 s.fa.toNat ++ leBytes 2 f.toNat), commit := fun _ t => takeFa t f }

def cmdFabricAddrSet : Cmd := { code := 0x0401, stage := 2, layout := fun _ => [(16, 2)], body := addrSetBody }
def execFabricAddrSet (r : Request) (s : State) : Res := .next (serveRow cmdFabricAddrSet r s)

/-- Shape, layout and twist are none of the reserved encodings. -/
def shapeOk (h : Shape) : Bool :=
  if h.shape = 1 then h.layout.toNat ≤ 4 && h.twist == 0
  else h.shape == 2 && h.layout.toNat ≤ 2
    && (h.twist == 0 || (!bit h.twist.toNat 0 && h.twist.toNat < 2 ^ cubeDims h.layout.toNat && 2 ≤ (bitsOf 16 h.twist.toNat).length))

/-- FABRIC.SHAPE.SET.  DESIGN CHOICE (log 38): the old shape and layout of its entry are those that this chiplet proposed
before, not those that it adopted from another chiplet's discovery; R128 does not say which. -/
def shapeSetBody (r : Request) (s : State) : Reply :=
  let h : Shape := ⟨byte (r.arg 16 1), byte (r.arg 17 1), BitVec.ofNat 16 (r.arg 18 2)⟩
  let old := proposedShape s
  if !shapeOk h then Reply.no stBadArg
  else if s.fabric.fixed then (if h = s.fabric.shape then {} else Reply.no stConflict)
  else
    { detail := some ([old.shape, old.layout, h.shape, h.layout] ++ leBytes 2 h.twist.toNat)
      commit := fun _ t => modFabric t (fun k => { k with proposed := some h, shape := h }) }

def cmdFabricShapeSet : Cmd := { code := 0x0402, stage := 2, layout := fun _ => [(16, 1), (17, 1), (18, 2)], body := shapeSetBody }
def execFabricShapeSet (r : Request) (s : State) : Res := .next (serveRow cmdFabricShapeSet r s)

/-! ### The packets of a discovery (R377, R404) -/

def formOf (d : Disc) : Shape := ⟨d.shape, d.layout, d.twist⟩

/-- The content of a discovery packet from byte 16. -/
def discContent (sub : Byte) (d : Disc) (port : Byte) (fa : W16) (refused down : Byte) (die : W64) : List Byte :=
  [sub, d.mode, d.scope, d.shape, d.layout, port] ++ leBytes 2 d.twist.toNat ++ leBytes 2 d.orig.toNat ++ leBytes 2 d.num.toNat
    ++ leBytes 2 fa.toNat ++ [refused, down] ++ leBytes 8 die.toNat

/-- A discovery packet leaves on one port, from this chiplet; no route table is asked. -/
def sendDisc (s : State) (q : Nat) (dst : W16) (content : List Byte) : State :=
  let p := packet s dst 0 9 content
  flush (bindTo (s.emit (.packet p)) { vc := 0, pkt := p } q 0)

/-- A port is in scope of a discovery (R404); the twist port counts with a partner of the pod. -/
def inScope (s : State) (d : Disc) (q : Nat) : Bool :=
  let f := (s.port q).partnerFa
  if f ≠ 0xFFFF then
    faPod f == faPod d.orig && (d.scope == 2 || (faRack f == faRack d.orig && (d.scope == 1 || faPackage f == faPackage d.orig)))
  else if q < 8 then true
  else if q ≤ 12 then 1 ≤ d.scope.toNat
  else if q ≤ 15 then d.scope == 2
  else q == 16 && d.shape == 2 && d.twist != 0 && d.scope == 2

def floodPorts (s : State) (d : Disc) (except : Option Nat) : List Nat :=
  (List.range 20).filter (fun q => portUp s q && inScope s d q && except != some q)

def flood (s : State) (d : Disc) (except : Option Nat) : State :=
  (floodPorts s d except).foldl (fun t q => sendDisc t q 0xFFFF (discContent 0 d (byte q) 0 0 0 0)) s

/-- Ports of the shape that are not UP. -/
def shapeDown (s : State) (h : Shape) : Nat :=
  if s.fa = 0xFFFF then 0 else ((shapePorts h s.fa).filter (fun q => !portUp s q)).length

def discEvent (s : State) (d : Disc) (outcome : Byte) : State :=
  event s 0xE040 (leBytes 2 d.orig.toNat ++ leBytes 2 d.num.toNat ++ [outcome])

/-! ### Applying a discovery (R143, R146, R405, R407, R408) -/

/-- New routes end the removal of ports from every choice, and packets that wait are offered by them; one that has no route any more
is discarded (R378, R410, R413). -/
def offerByRoutes (s : State) : State :=
  let s1 := (List.range 20).foldl (fun t q => if (t.port q).removed then t.modPort q (fun p => { p with removed := false }) else t) s
  let has := fun (o : OutPacket) => entryValid (s.destEntry o.pkt.hdr.dst)
  let s2 := { s1 with fabric := { s1.fabric with waiting := s1.fabric.waiting.filter has } }
  flush ((s1.fabric.waiting.filter (fun o => !has o)).foldl (fun t o =>
    discardTell (oweFor t o o.kept) 4 (o.arrival.getD 0xFF) o.pkt) s2)

/-- Both copies of the tables are written: a new route generation. -/
def installRoutes (s : State) (k : Routes) : State :=
  offerByRoutes (refreshGm (modTime (modFabric s (fun f => { f with active := k, shadow := k, generation := f.generation + 1 }))
    (fun t => { t with fellBack := t.fellBack && t.definition.isSome })))

/-- The FA that a flood over a shape hop gives: the sender's coordinates, stepped, in the originator's pod (R405). -/
def derivedFa (d : Disc) (sender : W16) (senderPort : Nat) : Option W16 :=
  match wiredTo (formOf d) sender senderPort with
  | some f => if (roleOf (formOf d) sender f senderPort).role = 1 then some ((f &&& 0x07FF) ||| (d.orig &&& 0xF800)) else none
  | none => none

/-- One step of R146: the state after it, and whether the discovery is refused. -/
def applyDisc (s : State) (d : Disc) (sender : Option (W16 × Nat)) : State × Bool :=
  let h := (formOf d)
  let given := if d.mode = 2 ∧ s.fa = 0xFFFF then sender.bind (fun x => derivedFa d x.1 x.2) else none
  if (s.fabric.fixed && h != s.fabric.shape) || given.any (fun f => faSlot f != s.boot.pins.slotId.toNat) then
    (discEvent s d 1, true)
  else
    let s1 := modFabric s (fun f => { f with shape := h })
    let s2 := match given with | some f => takeFa s1 f | none => s1
    let s3 := if s2.fa = 0xFFFF then s2 else installRoutes s2 (computeRoutes s2 h s2.fa)
    (discEvent s3 d 0, false)

/-- The background entry of a discovery that this chiplet originated (R144, R148). -/
def endDisc (s : State) (st : W16) : State :=
  let k := s.fabric.last
  match k.origin with
  | some o =>
    background (modFabric s (fun f => { f with last := { k with status := st, origin := none } })) o st
      (leBytes 2 k.num.toNat ++ leBytes 2 k.reached ++ [byte k.dups, byte k.refused] ++ leBytes 2 k.down)
  | none => s

/-- The current discovery is given up for another; its originator ends it with ST_CONFLICT (R147). -/
def abandon (s : State) : State :=
  match s.fabric.current with
  | some c => if c.d.orig = s.fa ∧ s.fabric.last.origin.isSome then endDisc s stConflict else s
  | none => s

/-- The chiplet serves discovery `d`.  Its application takes effect here and lasts at most 200 µs (R148); how long within
that is open, so a free value says it (log 38). -/
def serveDisc (s : State) (d : Disc) (parent : Option Nat) : State :=
  modFabric { s with free := s.free + 1 } (fun f => { f with
    current := some { d := d, parent := parent, before := f.active, busyTo := s.time.elapsed + Config.freeNat s.free % 200001 } })

/-- A discovery is being applied on this chiplet (R150). -/
def applying (s : State) : Bool := s.fabric.current.any (fun c => s.time.elapsed < c.busyTo)

/-- A flood is dropped: a discovery with a lower originator, or the same one, is served (R404, R147). -/
def dropsFlood (s : State) (d : Disc) : Bool :=
  s.fabric.current.any (fun c => c.d.orig.toNat < d.orig.toNat || (c.d.orig == d.orig && c.d.num == d.num))

/-- DISCOVERY_FLOOD from the chiplet with FA `sender` (R404, R405). -/
def floodBy (port : Nat) (sender : W16) (senderPort : Byte) (d : Disc) (s : State) : State :=
  if dropsFlood s d then s
  else
    let s1 := serveDisc (abandon s) d (some port)
    let x := applyDisc s1 d (if sender = 0xFFFF then none else some (sender, senderPort.toNat))
    let s2 := sendDisc x.1 port d.orig (discContent 1 d (byte port) x.1.fa (if x.2 then 1 else 0)
      (byte (shapeDown x.1 (formOf d))) x.1.fuses.dieId)
    flood s2 d (some port)

def execDiscoveryFlood (port : Fin 20) (sender : W16) (senderPort : Byte) (d : Disc) (s : State) : Res :=
  .next (floodBy port sender senderPort d s)

/-! ### Withdrawals and replies (R404, R406) -/

/-- A table 0 entry is no longer valid, in both copies. -/
def invalidate (s : State) (f : W16) : State :=
  let off := fun (t : Tab W64) => tput t (destIndex f) (tget 0 t (destIndex f) &&& ~~~(BitVec.ofNat 64 (2 ^ 25)))
  modFabric s (fun k => { k with active := { k.active with dest := off k.active.dest }, shadow := { k.shadow with dest := off k.shadow.dest } })

/-- A withdrawal takes effect here and goes on, except to the port it came from (R404, R406). -/
def withdraw (s : State) (d : Disc) (f : W16) (except : Option Nat) : State :=
  match s.fabric.current with
  | none => s
  | some c =>
    if c.d ≠ d ∨ c.seen.contains f then s
    else
      let s1 := modFabric s (fun k => { k with current := some { c with seen := f :: c.seen } })
      let s2 :=
        if f = s.fa then discEvent (installRoutes (modFabric s1 (fun k => { k with duplicate := true })) c.before) d 2
        else discEvent (invalidate s1 f) d 3
      (floodPorts s2 d except).foldl (fun t q => sendDisc t q 0xFFFF (discContent 2 d (byte q) f 0 0 0)) s2

def withdrawalBy (port : Nat) (d : Disc) (f : W16) (s : State) : State := withdraw s d f (some port)
/-- DISCOVERY_WITHDRAWAL (R404, R406). -/
def execDiscoveryWithdrawal (port : Fin 20) (d : Disc) (fa : W16) (s : State) : Res := .next (withdrawalBy port d fa s)

/-- The originator counts a reply; a second die with one FA is withdrawn (R146, R404). -/
def countReply (s : State) (d : Disc) (f : W16) (refused : Bool) (down : Nat) (die : W64) : State :=
  let k := s.fabric.last
  let same := k.replies.filter (fun e => e.1 == f)
  let dup := f != 0xFFFF && same.any (fun e => e.2 != die)
  let k1 : DiscOutcome :=
    { k with replies := (f, die) :: k.replies, reached := k.reached + 1, down := k.down + down
             refused := k.refused + (if refused then 1 else 0)
             dups := k.dups + (if dup then (if same.length = 1 then 2 else 1) else 0) }
  let s1 := modFabric s (fun x => { x with last := k1 })
  if dup then withdraw s1 d f none else s1

/-- DISCOVERY_REPLY (R404). -/
def replyBy (port : Nat) (d : Disc) (f : W16) (refused : Bool) (down : Byte) (die : W64) (s : State) : State :=
  let _ := port
  if d.orig = s.fa ∧ s.fa ≠ 0xFFFF then
    if d.num = s.fabric.last.num ∧ s.fabric.last.origin.isSome then countReply s d f refused down.toNat die else s
  else match s.fabric.current with
    | some c =>
      match c.parent with
      | some q =>
        if c.d = d ∧ portUp s q then sendDisc s q d.orig (discContent 1 d (byte q) f (if refused then 1 else 0) down die) else s
      | none => s
    | none => s

def execDiscoveryReply (port : Fin 20) (d : Disc) (fa : W16) (refused : Bool) (down : Byte) (dieId : W64) (s : State) : Res :=
  .next (replyBy port d fa refused down dieId s)

/-- DISCOVERY_QUIET_TIMER: 5 ms without a new reply, or 100 ms after acceptance (R148). -/
def execDiscoveryQuietTimer (s : State) : Res := .next (endDisc s stOk)

/-- DISCOVERY_FORGET: 100 ms after the current discovery was set (R404). -/
def execDiscoveryForget (s : State) : Res := .next (modFabric s (fun f => { f with current := none }))

/-! ### FABRIC.DISCOVER (R144, R145, R147) -/

/-- The result of mode 0. -/
def discResult (s : State) : List Byte :=
  let k := s.fabric.last
  leBytes 2 k.num.toNat ++ leBytes 2 k.status.toNat ++ leBytes 2 k.reached ++ [byte k.dups, byte k.refused, k.shape, k.layout]
    ++ leBytes 2 k.down

/-- The originator serves its own discovery, which counts it as reached, and floods it (R404). -/
def originate (s : State) (d : Disc) (o : Origin) : State :=
  let x := applyDisc (serveDisc (abandon s) d none) d none
  let s1 := modFabric x.1 (fun f => { f with last :=
    { num := d.num, status := stAccepted, replies := [(s.fa, s.fuses.dieId)], reached := 1, refused := if x.2 then 1 else 0
      down := shapeDown x.1 (formOf d), shape := d.shape, layout := d.layout, origin := some o } })
  flood s1 d none

def discoverBody (r : Request) (s : State) : Reply :=
  let m := r.arg 16 1
  let h := proposedShape s
  let d : Disc := { orig := s.fa, num := s.fabric.last.num + 1, mode := byte m, scope := byte (r.arg 17 1), shape := h.shape
                    layout := h.layout, twist := h.twist }
  if 2 < m ∨ 2 < r.arg 17 1 then Reply.no stBadArg
  else if m = 0 then Reply.data (discResult s)
  else if s.fa = 0xFFFF ∨ h.shape = 0 then Reply.no stConflict
  else if s.fabric.last.origin.isSome then Reply.no stBusy
  else
    { status := stAccepted, result := leBytes 2 d.num.toNat
      detail := some ([d.mode, d.shape] ++ leBytes 2 d.num.toNat ++ leBytes 2 d.orig.toNat ++ [d.scope])
      commit := fun o t =>
        if t.fabric.current.any (fun c => c.d.orig.toNat < d.orig.toNat) then
          endDisc (modFabric t (fun f => { f with last := { num := d.num, shape := d.shape, layout := d.layout, origin := some o } })) stConflict
        else originate t d o }

def cmdFabricDiscover : Cmd := { code := 0x0400, stage := 2, layout := fun _ => [(16, 1), (17, 1)], body := discoverBody }
def execFabricDiscover (r : Request) (s : State) : Res := .next (serveRow cmdFabricDiscover r s)

/-! ### ROUTE.LOAD, ROUTE.READ (R149, R150, R407) -/

def tableSize (t : Nat) : Nat := if t = 0 then 1024 else 20
def Routes.table (k : Routes) (t : Nat) : Tab W64 := if t = 0 then k.dest else k.port
def Routes.setTable (k : Routes) (t : Nat) (v : Tab W64) : Routes := if t = 0 then { k with dest := v } else { k with port := v }

/-- The entry has no reserved bit set. -/
def entryOk (t v : Nat) : Bool :=
  if t = 0 then bits v 31 27 == 0 && bits v 63 40 == 0 else bits v 15 8 == 0 && bits v 63 32 == 0

/-- The entries of a ROUTE.LOAD. -/
def loadEntries (r : Request) : List Nat := (List.range (r.arg 17 1)).map (fun i => r.arg (24 + 8 * i) 8)

/-- Entries are written into the shadow copy. -/
def writeShadow (s : State) (t first : Nat) (l : List Nat) : State :=
  let new := l.zipIdx.foldl (fun k e => tput k (first + e.2) (BitVec.ofNat 64 e.1)) (s.fabric.shadow.table t)
  modFabric s (fun f => { f with shadow := f.shadow.setTable t new })

/-- The shadow copies of both tables become active. -/
def activateRoutes (s : State) : State := installRoutes s s.fabric.shadow

def routeLoadBody (r : Request) (s : State) : Reply :=
  let t := r.arg 16 1
  let n := r.arg 17 1
  let first := r.arg 18 2
  let act := r.arg 20 1 == 1
  if 1 < t ∨ 12 < n ∨ 1 < r.arg 20 1 ∨ (n = 0 ∧ !act) ∨ tableSize t < first + n ∨ (loadEntries r).any (fun v => !entryOk t v) then
    Reply.no stBadArg
  else if applying s then Reply.no stConflict
  else
    { detail := some ([byte t, byte n] ++ leBytes 2 first ++ [if act then 1 else 0, 0]
        ++ leBytes 2 (s.fabric.generation + if act then 1 else 0).toNat)
      commit := fun _ k =>
        let k1 := writeShadow k t first (loadEntries r)
        if act then activateRoutes k1 else k1 }

def cmdRouteLoad : Cmd :=
  { code := 0x0403, stage := 2, layout := fun r => [(16, 1), (17, 1), (18, 2), (20, 1), (24, 8 * r.arg 17 1)], body := routeLoadBody }
def execRouteLoad (r : Request) (s : State) : Res := .next (serveRow cmdRouteLoad r s)

def routeReadBody (r : Request) (s : State) : Reply :=
  let t := r.arg 16 1
  let n := r.arg 17 1
  let first := r.arg 18 2
  if 1 < t ∨ n = 0 ∨ 12 < n ∨ 1 < r.arg 20 1 ∨ tableSize t < first + n then Reply.no stBadArg
  else
    let k := (if r.arg 20 1 = 0 then s.fabric.active else s.fabric.shadow).table t
    Reply.data (leBytes 2 s.fabric.generation.toNat ++ List.replicate 6 0
      ++ (List.range n).flatMap (fun i => leBytes 8 (tget 0 k (first + i)).toNat))

def cmdRouteRead : Cmd := { code := 0x0404, stage := 2, layout := fun _ => [(16, 1), (17, 1), (18, 2), (20, 1)], body := routeReadBody }
def execRouteRead (r : Request) (s : State) : Res := .next (serveRow cmdRouteRead r s)

end Sys2Proof.Machine
end

