-- ==== Sys2Proof/Machine/RemoteGates.lean ====
section
/-! DEFINITION. Gates across chiplets: remote operations and their results, probes of holders and of waits, withdrawal,
the pool of waiters, leases and reachability limits (R451, R453, R454, R456 to R460, R463). -/

namespace Sys2Proof.Machine

/-! ### At the gate's chiplet -/

/-- Records of the pool that remote waiters may take (R451). -/
def remotePool : Nat := 3840

/-- The remote operations that wait at the gates of this chiplet. -/
def remoteWaiters (s : State) : Nat :=
  ((List.range 128).map (fun g => ((s.gate g).waiters.filter (fun w => w.fa != s.fa)).length)).sum

/-- The result of a remote operation goes back (R453). -/
def sendResult (s : State) (dst tenant : W16) (tag : W32) (word : W64) : State :=
  s.send (packet s dst tenant 4 (leBytes 4 tag.toNat ++ leBytes 8 word.toNat))

/-- A gate operation from another chiplet: refused while its waiter finds no record (R448, R451, R453). -/
def remoteOperate (src tenant : W16) (op gate : Byte) (sv : W64) (core : Byte) (life : W16) (session tag : W32)
    (s : State) : State :=
  let g := gate.toNat % 128
  let w : Waiter :=
    { fa := src, core := core, life := life, session := session, tag := tag, op := op, sv := sv, tenant := tenant }
  let r := gateOperate s g op.toNat w none tenant
  let arrives := op == 0x06 && (s.gate g).kind == .barrier && gateServes s g none tenant
  if remotePool ≤ remoteWaiters s ∧ (r.2.isNone ∨ arrives) then control s src 0x45 (leBytes 4 tag.toNat ++ [gate])
  else
    match r.2 with
    | some word => sendResult r.1 src tenant tag word
    | none => r.1

/-- REMOTE_GATE_OPERATION: the operation takes effect in the row in which it reaches the gate's unit (R448, R450, R451, R453; DEDUCED,
log 92). -/
def execRemoteGateOperation (src tenant : W16) (op gate : Byte) (sv : W64) (core : Byte) (life : W16) (session tag : W32)
    (s : State) : Res := .next (remoteOperate src tenant op gate sv core life session tag s)

/-- The locks that cores of other chiplets hold. -/
def remoteHeld (s : State) : List Nat := locksHeld s (fun h => h.fa != s.fa)

/-- HOLD_PROBE_TIMER: a HOLD_PROBE for every lock that a core of another chiplet holds (R460). -/
def execHoldProbeTimer (s : State) : Res :=
  .next ((remoteHeld s).foldl (fun t g =>
    match (s.gate g).holder with
    | some h => control t h.fa 0x40 ([byte g, h.core] ++ leBytes 2 h.life.toNat ++ leBytes 4 h.session.toNat)
    | none => t) s)

/-- A core of this chiplet still lives under the life number and session that a probe names (R455, R460). -/
def alive (s : State) (core : Byte) (life : W16) (session : W32) : Bool :=
  s.life core.toNat == life && s.fabric.session == session

/-- HOLD_PROBE: the holder's chiplet answers (R460). -/
def holdProbeBy (src : W16) (gate core : Byte) (life : W16) (session : W32) (s : State) : State :=
  control s src 0x41 [gate, if alive s core life session then 1 else 0]

def execHoldProbe (src : W16) (gate core : Byte) (life : W16) (session : W32) (s : State) : Res :=
  .next (holdProbeBy src gate core life session s)

/-- The holder of a lock is a core of chiplet `fa`. -/
def heldFrom (g : Gate) (fa : W16) : Bool := g.kind == .lock && g.holder.any (fun h => h.fa == fa)

/-- HOLD_ANSWER: a lock whose holder no longer lives becomes ORPHANED (R458). -/
def holdAnswerBy (src : W16) (gate : Byte) (isAlive : Bool) (s : State) : State :=
  let g := gate.toNat % 128
  if !isAlive && heldFrom (s.gate g) src then orphan s g else s

def execHoldAnswer (src : W16) (gate : Byte) (isAlive : Bool) (s : State) : Res := .next (holdAnswerBy src gate isAlive s)

/-- An operation of chiplet `src` still waits at gate `g`. -/
def waits (g : Gate) (src : W16) (tag : W32) : Bool := g.waiters.any (fun w => w.fa == src && w.tag == tag)

/-- WAIT_PROBE: the gate's chiplet answers whether the operation still waits (R454). -/
def waitProbeBy (src : W16) (tag : W32) (gate : Byte) (s : State) : State :=
  control s src 0x43 (leBytes 4 tag.toNat ++ [if waits (s.gate (gate.toNat % 128)) src tag then 1 else 0])

def execWaitProbe (src : W16) (tag : W32) (gate : Byte) (s : State) : Res := .next (waitProbeBy src tag gate s)

/-- WITHDRAW: the gate removes the waiting operation, and a barrier arrival that was not released is taken back (R456,
R457). -/
def withdrawBy (src : W16) (tag : W32) (gate : Byte) (s : State) : State := removeWaiter s (gate.toNat % 128) src tag true

def execWithdraw (src : W16) (tag : W32) (gate : Byte) (s : State) : Res := .next (withdrawBy src tag gate s)

/-- A lock is orphaned by its lease (1) or its reachability limit (2), with a device event (R459, R572). -/
def orphanByLimit (s : State) (g : Nat) (cause : Byte) : State :=
  match (s.gate g).holder with
  | some h => event (orphan s g) 0xE050 ([byte g, cause] ++ leBytes 2 h.fa.toNat ++ leBytes 4 h.epoch.toNat)
  | none => s

/-- LEASE_EXPIRY: the lease of the gate's lock has elapsed since the grant (R458). -/
def execLeaseExpiry (gate : Fin 128) (s : State) : Res :=
  let k := s.gate gate
  .next (if k.kind == .lock && k.lease.isSome then orphanByLimit s gate 1 else s)

/-- REACHABILITY_LIMIT: no HOLD_ANSWER for the gate's limit (R458). -/
def execReachabilityLimit (gate : Fin 128) (s : State) : Res :=
  let k := s.gate gate
  .next (if k.kind == .lock && k.holder.any (fun h => h.fa != s.fa) then orphanByLimit s gate 2 else s)

/-! ### At the issuer's chiplet -/

/-- The remote operations of this chiplet that have no result: of its cores, and of seized basins (R454, R456). -/
def remoteOps (s : State) : List GateOp :=
  (s.die.cores.flatMap (fun e => e.2.gops) ++ s.die.basins.flatMap (fun e => e.2.saved.flatMap (fun v => v.core.gops))).filter
    (fun o => o.remote && o.result.isNone)

/-- The outstanding remote operation of a tag. -/
def remoteOp (s : State) (tag : W32) : Option GateOp := (remoteOps s).find? (fun o => o.tag == tag)

/-- Change the outstanding operation of a tag, wherever it is kept. -/
def modOp (s : State) (tag : W32) (f : GateOp → GateOp) : State :=
  let g := fun (l : List GateOp) => l.map (fun o => if o.tag = tag then f o else o)
  { s with die := { s.die with
      cores := s.die.cores.map (fun e => (e.1, { e.2 with gops := g e.2.gops }))
      basins := s.die.basins.map (fun e => (e.1, { e.2 with saved := e.2.saved.map (fun v => { v with core := { v.core with gops := g v.core.gops } }) })) } }

/-- A lock granted to an operation that no core waits for is released on the core's behalf (R454, R457). -/
def releaseLate (s : State) (l : LateOp) (word : W64) : State :=
  let s1 := { s with gateUnit := { s.gateUnit with late := s.gateUnit.late.filter (· != l) } }
  if (l.op = 0x02 ∨ l.op = 0x03) ∧ bits word.toNat 7 0 ≤ 1 then
    let (s2, tag) := nextTag s1
    s2.send (gatePacket s2 l.fa l.tenant 0x04 l.gate 0 l.core l.life tag)
  else s1

/-- GATE_RESULT: the result of an outstanding operation, which GATE_RESULT_WRITE writes to its register, or of one that
no core waits for (R453, R454, R456, R457). -/
def gateResultBy (src : W16) (tag : W32) (word : W64) (s : State) : State :=
  match remoteOp s tag with
  | some o => if o.fa = src then modOp s tag (fun o => { o with result := some word }) else s
  | none =>
    match s.gateUnit.late.find? (fun l => l.tag == tag && l.fa == src) with
    | some l => releaseLate s l word
    | none => s

def execGateResult (src : W16) (tag : W32) (word : W64) (s : State) : Res := .next (gateResultBy src tag word s)

/-- A remote operation is probed: it has been outstanding for more than 1 ms, and it is not one that the gate's chiplet did not
apply for want of a record, or that a fence has returned (R417, R451, R454). -/
def probed (s : State) (o : GateOp) : Bool := o.since + 1000000 < s.time.elapsed && !o.poolFull && !o.returned

/-- WAIT_PROBE_TIMER: a WAIT_PROBE for each of them (R454; DEDUCED, log 41). -/
def execWaitProbeTimer (s : State) : Res :=
  .next (((remoteOps s).filter (probed s)).foldl (fun t o => control t o.fa 0x42 (leBytes 4 o.tag.toNat ++ [byte o.gate.toNat])) s)

/-- An operation completes with UNREACHABLE; a grant of it may still come (R454). -/
def failRemote (s : State) (tag : W32) : State :=
  match remoteOp s tag with
  | some o =>
    let s1 := modOp s tag (fun o => { o with result := some unreachableWord })
    { s1 with gateUnit := { s1.gateUnit with late := o.late :: s1.gateUnit.late } }
  | none => s

/-- WAIT_ANSWER: 0 completes the operation with UNREACHABLE (R454). -/
def waitAnswerBy (src : W16) (tag : W32) (waiting : Bool) (s : State) : State :=
  if !waiting && (remoteOp s tag).any (fun o => o.fa == src) then failRemote s tag else s

def execWaitAnswer (src : W16) (tag : W32) (waiting : Bool) (s : State) : Res := .next (waitAnswerBy src tag waiting s)

/-- WAIT_SILENCE_TIMEOUT: 50 ms without a WAIT_ANSWER (R454). -/
def execWaitSilenceTimeout (tag : W32) (s : State) : Res := .next (failRemote s tag)

/-- POOL_FULL: the operation was not applied, and its chiplet sends it again 10 µs later (R451). -/
def poolFullBy (src : W16) (tag : W32) (gate : Byte) (s : State) : State :=
  if (remoteOp s tag).any (fun o => o.fa == src && o.gate.toNat == gate.toNat) then
    modOp s tag (fun o => { o with poolFull := true })
  else s

def execPoolFull (src : W16) (tag : W32) (gate : Byte) (s : State) : Res := .next (poolFullBy src tag gate s)

/-- POOL_FULL_RETRY: the operation is sent again (R451). -/
def execPoolFullRetry (tag : W32) (s : State) : Res :=
  .next (match remoteOp s tag with
    | some o =>
      if o.poolFull then
        (modOp s tag (fun o => { o with poolFull := false })).send
          (gatePacket s o.fa o.tenant o.op o.gate o.sv o.core o.life tag)
      else s
    | none => s)

end Sys2Proof.Machine
end

