-- ==== Sys2Proof/Machine/Links.lean ====
section
/-! DEFINITION. The link ports: the link layer, training, resets and losses, what becomes of a packet that arrives, and the
link commands (R102, R110, R151, R152, R371, R376 to R388, R391 to R397, R409 to R416). -/

namespace Sys2Proof.Machine

/-! ### Ports -/

def isD (q : Nat) : Bool := q < 8

/-- The ports serve as link ports: from stage 2 on, and until a stop (R75, R91, R385, R394). -/
def linksLive (s : State) : Bool :=
  (s.boot.stage == 2 || s.boot.stage == 3) && !stopped s && !s.boot.rstLow && !s.boot.dead

/-- The port enters a state of R151. -/
def enter (s : State) (q : Nat) (st : Byte) : State := s.modPort q (fun p => { p with state := st, since := s.time.elapsed })

/-- An attempt begins at its first step (R385). -/
def attempt (s : State) (q : Nat) : State := (enter s q lnTraining).modPort q (fun p => { p with step := 1 })

/-- A link reset: RESET is recorded, the retrain is counted, and the port trains anew; frames and packets of a port that was
UP wait for the exchange.  One that is asked for while another of this port is in progress joins it (R60, R66, R67, R383, R384, R387,
R391). -/
def linkReset (s : State) (q : Nat) (cause : Nat) : State :=
  let wasUp := portUp s q
  let joins := (s.port q).reset
  let s1 := event s 0xE001 [5, byte cause, byte q, if joins then 5 else 0]
  if joins then s1
  else (attempt s1 q).modPort q (fun p => { p with
    retrains := up16 p.retrains, resume := p.resume || wasUp, reset := true, naks := 0, nakTimes := [] })

/-- Frames of port `q`'s receive buffer that stand in place `k`. -/
def keptFrames (s : State) (q k : Nat) : Nat :=
  ((s.fabric.waiting ++ (List.range 20).flatMap (fun r => (s.port r).queue)).map (fun o =>
    if o.arrival = some q ∧ o.place = some k then o.kept else 0)).sum

/-- Free frames of a place of the receive buffer: the credits that the identity exchange grants (R379, R384, R411). -/
def freePlaces (s : State) (q k : Nat) : Nat := poolSize k - keptFrames s q k

/-- The identity frame that this chiplet sends (R386); its layout of credits is this model's (DESIGN CHOICE, log 66). -/
def ownIdentity (s : State) (q : Nat) : Identity :=
  let p := s.port q
  { part := 0xAB41, stepping := 0x42, dieId := s.fuses.dieId, slotId := s.boot.pins.slotId, fa := s.fa, port := byte q
    shape := (proposedShape s).shape, session := s.fabric.session, expSeq := if p.resume then p.rxExp else 0
    credits := BitVec.ofNat 48 (leNat (pools.map (fun k => byte (freePlaces s q k)))) }

/-! ### Training (R385 to R387) -/

/-- The identity frame leaves.  It grants every place that is free, so no credit from before is still to be returned (R384, R386). -/
def sendIdentity (s : State) (q : Nat) : State :=
  (s.modPort q (fun p => { p with owed := [0, 0, 0, 0, 0, 0], replay := p.replay.map (fun f => { f with ccnt := 0 }) })).emit
    (.identity q (ownIdentity s q))

/-- TRAINING_STEP_COMPLETE: the next step begins; MBINIT of a D port tells the lanes that it repaired, and the fourth step is
the identity exchange (R385, R391). -/
def execTrainingStepComplete (port : Fin 20) (lanesRepaired : W64) (s : State) : Res :=
  let q : Nat := port
  let p := s.port q
  .next (
    if !linksLive s ∨ p.state ≠ lnTraining ∨ 4 ≤ p.step then s
    else
      let s1 := s.modPort q (fun p => { p with step := p.step + 1, lanes := if isD q ∧ p.step = 2 then lanesRepaired else p.lanes })
      if p.step = 3 then sendIdentity s1 q else s1)

/-- Why a partner is refused (R371): 1 wrong part, 2 a port of the other kind, 3 this chiplet itself. -/
def refusalOf (s : State) (q : Nat) (i : Identity) : Nat :=
  if i.part ≠ 0xAB41 then 1 else if isD i.port.toNat != isD q then 2 else if i.dieId = s.fuses.dieId then 3 else 0

/-- Credits that an identity frame grants for a place. -/
def grantOf (i : Identity) (k : Nat) : Nat := bits i.credits.toNat (8 * k + 7) (8 * k)

/-- Sequence number `a` comes before `b`, modulo 1,024, among the 512 that can be outstanding (R381). -/
def seqBefore (a b : BitVec 10) : Bool := a != b && (b - a).toNat ≤ 512

/-- Frames that the partner has received leave the replay buffer (R381). -/
def Port.acked (p : Port) (next : BitVec 10) : Port := { p with replay := p.replay.filter (fun f => !seqBefore f.seq next) }

/-- An acknowledgement: the frames leave the replay buffer, and packets of this chiplet's channels that have left in full leave
their buffers (R381, R428). -/
def takeAck (s : State) (q : Nat) (next : BitVec 10) : State :=
  ((s.port q).replay.filter (fun f => seqBefore f.seq next)).foldl (fun t f =>
    match f.by_.chan with
    | some c => if f.by_.last then leaveBuffer t c f.by_.xfer f.by_.index else t
    | none => t) (s.modPort q (·.acked next))

/-- The frames of the replay buffer from `seq` on leave again, in order, with the credits that they carried (R382, R384). -/
def resendFrom (s : State) (q : Nat) (seq : BitVec 10) : State :=
  let p := s.port q
  (p.replay.filter (fun f => !seqBefore f.seq seq)).foldl (fun t f =>
    t.emit (.frame q (frameBytes { seq := f.seq, ack := p.rxExp, vc := BitVec.ofNat 2 f.vc, kind := f.kind, cvc := f.cvc
                                   ccnt := f.ccnt, body := f.body }))) s

/-- The same session: no frame is lost, and the sender replays from the SEQ that the partner expects (R384). -/
def resumeLink (s : State) (q : Nat) (i : Identity) : State :=
  let s1 := s.modPort q (fun p =>
    let left := (p.acked i.expSeq).replay
    { p with credits := pools.map (fun k => grantOf i k - (left.filter (fun f => f.pool == k)).length), sessionKept := true })
  takeAck (resendFrom s1 q i.expSeq) q i.expSeq

/-- A new session: what a former one left is lost as with its link (R384, R393).  Places that have become free since the identity
frame left are still to be returned. -/
def newLink (s : State) (q : Nat) (i : Identity) : State :=
  let owed := (s.port q).owed
  let s1 := if (s.port q).resume then loseLink s q lnUp else s.modPort q (·.fresh)
  s1.modPort q (fun p => { p with credits := pools.map (grantOf i), owed := List.zipWith (· + ·) p.owed owed, sessionKept := false })

/-- IDENTITY_EXCHANGE: the partner's identity frame; the port becomes UP, or is refused (R371, R384, R386). -/
def execIdentityExchange (port : Fin 20) (i : Identity) (s : State) : Res :=
  let q : Nat := port
  let p := s.port q
  .next (
    if !linksLive s ∨ p.state ≠ lnTraining ∨ p.step ≠ 4 then s
    else
      let why := refusalOf s q i
      if why ≠ 0 then
        event (portDown (s.modPort q (fun p => { p with refusal := why })) q lnDown) 0xE031 ([byte q, byte why] ++ leBytes 2 i.fa.toNat)
      else
        let up := fun (t : State) => (enter t q lnUp).modPort q (fun p => { p with
          resume := false, reset := false, refusal := 0, partnerPort := i.port, partnerFa := i.fa, session := some i.session, step := 0 })
        flush (if p.resume && p.session == some i.session then resumeLink (up s) q i else up (newLink s q i)))

/-- TRAINING_ATTEMPT_FAIL: 20 ms without UP (R387). -/
def execTrainingAttemptFail (port : Fin 20) (s : State) : Res :=
  .next (if (s.port port).state = lnTraining then portDown s port lnDown else s)

/-- PARTNER_TRAINING_DETECTED: a port without a link starts an attempt; an UP port's is a link reset (R387, R395). -/
def execPartnerTrainingDetected (port : Fin 20) (s : State) : Res :=
  let st := (s.port port).state
  .next (
    if !linksLive s then s
    else if st = lnUp then linkReset s port 7
    else if st = lnDown ∨ st = lnMarked ∨ st = lnStopped then attempt s port
    else s)

/-! ### Causes of a link reset, STOP (R383, R394, R395) -/

/-- LINK_SILENCE: 10 µs without a frame (R383). -/
def execLinkSilence (port : Fin 20) (s : State) : Res := .next (if portUp s port then linkReset s port 6 else s)

/-- LINK_PHY_ERROR: a D port's mainband beyond repair, or a C port's FEC lock or alignment (R383). -/
def execLinkPhyError (port : Fin 20) (cause : PhyCause) (s : State) : Res :=
  let fits := match cause with | .mainband => isD port | .fecOrAlignment => !isD port
  .next (if portUp s port && fits then linkReset s port (match cause with | .mainband => 4 | .fecOrAlignment => 5) else s)

/-- An intact STOP: the port is STOPPED with its cause and loses its link (R395); a chiplet that has itself stopped records
the partner's. -/
def stopBy (q : Nat) (cause : Byte) (s : State) : State :=
  let mark := fun (t : State) => t.modPort q (fun p => { p with stopCause := cause })
  if portUp s q then loseLink (mark s) q lnStopped
  else if (s.port q).state = lnDown ∧ stopped s then enter (mark s) q lnStopped
  else s

/-- STOP_FRAME (R395). -/
def execStopFrame (port : Fin 20) (cause : Byte) (s : State) : Res := .next (stopBy port cause s)

/-! ### REPLAY (R382, R383, R391) -/

/-- A REPLAY that names the expected SEQ leaves; the 64th within 100 µs starts a link reset (R382, R383). -/
def sendReplay (s : State) (q : Nat) : State :=
  let now := s.time.elapsed
  let p := s.port q
  let times := now :: p.nakTimes.filter (fun t => now ≤ t + 100000)
  let s1 := (s.setPort q { p with naks := p.naks + 1, nakTimes := times, retry := up32' p.retry }).emit (.replay q p.rxExp)
  if 64 ≤ times.length then linkReset s1 q 3 else s1

/-- A frame is discarded; `counted` says that its CRC-32C or its codeword failed (R382, R383). -/
def discardFrame (s : State) (q : Nat) (counted : Bool) : State :=
  let s1 := if counted then s.modPort q (fun p => { p with uncorr := up32' p.uncorr }) else s
  let n := (s1.port q).naks
  if n = 0 then sendReplay s1 q
  else if !counted then s1
  else if 4 ≤ n then linkReset s1 q 2
  else sendReplay s1 q

/-- REPLAY: the sender resends from the named SEQ (R382). -/
def execReplay (port : Fin 20) (seq : BitVec 10) (s : State) : Res := .next (if portUp s port then resendFrom s port seq else s)

/-- REPLAY_RESEND_TIMER: 4 µs after the last REPLAY without the frame (R382). -/
def execReplayResendTimer (port : Fin 20) (s : State) : Res :=
  .next (if portUp s port && (s.port port).naks != 0 then sendReplay s port else s)

/-- A link control frame acknowledges and returns credits (R379, R381, R411). -/
def sendAck (s : State) (q : Nat) : State :=
  let p := s.port q
  (s.setPort q { p with ackDue := false, heard := 0, owed := [0, 0, 0, 0, 0, 0] }).emit (.ack q p.rxExp p.owed)

/-- ACK_TIMER: it leaves when there is something to acknowledge or to return (R379, R381). -/
def execAckTimer (port : Fin 20) (s : State) : Res :=
  let p := s.port port
  .next (if portUp s port && (p.ackDue || p.owed.any (· != 0)) then sendAck s port else s)

/-! ### Combining (R415, R416) -/

/-- The level of the parent node whose children are the ranges of `a` and `b`, `a` the lower (R360, R415). -/
def parentLevel (a b : XferHdr) : Option Nat :=
  let lo := (hdrRanks a).1
  let hi := (hdrRanks a).2
  let n := a.count.toNat
  ((List.range 32).find? (fun l => 2 ^ l == hi - lo)).bind (fun l =>
    if lo % 2 ^ (l + 1) = 0 ∧ hdrRanks b = (hi, min (hi + 2 ^ l) n) then some (l + 1) else none)

/-- Two add packets may combine: the same reduction, granules and frames, and the children of one node. -/
def combinable (a b : Packet) : Option Nat :=
  let x := xferHdr a
  let y := xferHdr b
  if a.hdr.typ = 6 ∧ b.hdr.typ = 6 ∧ x.ga = y.ga ∧ x.tenant = y.tenant ∧ x.addType = y.addType ∧ x.tag = y.tag ∧ x.count = y.count
      ∧ a.data.length = b.data.length then parentLevel x y else none

/-- The sum of two data frames, element by element, in the form in which add packets carry them (R359, R431). -/
def addFrames (typ : Nat) (a b : List Byte) : List Byte :=
  let k := if typ = 4 then 4 else 1
  (List.zipWith (redAdd typ) (redElems k a) (redElems k b)).flatMap (fun e =>
    if typ = 4 then leBytes 4 e.1 ++ leBytes 4 e.2 else leBytes 4 e.1)

/-- The combined packet of two: `a` covers the lower ranks; this chiplet originates it under a name of its own. -/
def combine (s : State) (a b : Packet) (level : Nat) : Packet × CombineRecord :=
  let x := xferHdr a
  let n := s.fabric.nextRecord % 65536
  ({ hdr := { dst := a.hdr.dst, src := s.fa, tenant := a.hdr.tenant, typ := 6, nData := a.hdr.nData, hops := 0, flags := 0x04 }
     content := leBytes 8 x.ga.toNat ++ leBytes 2 n ++ [combinedChan, x.granules, 0, 0, x.addType, byte level] ++ leBytes 2 x.tag.toNat
       ++ [0, 0] ++ leBytes 4 x.first.toNat ++ leBytes 4 x.count.toNat
     data := List.zipWith (addFrames x.addType.toNat) a.data b.data },
   { num := n, window := gaWindow x.ga, fst := x, snd := xferHdr b })

/-- A packet that came by a port and waits, whole, for one to leave on, and that packet `p` combines with (R415). -/
def partnerFor (s : State) (p : OutPacket) : Option (OutPacket × Packet × CombineRecord) :=
  if p.pkt.hdr.typ ≠ 6 ∨ 64 ≤ s.fabric.records.length then none
  else s.fabric.waiting.findSome? (fun o =>
    if !o.whole ∨ o.arrival.isNone ∨ o = p then none
    else match combinable o.pkt p.pkt with
      | some l => some (o, combine s o.pkt p.pkt l)
      | none => (combinable p.pkt o.pkt).map (fun l => (o, combine s p.pkt o.pkt l)))

/-- A packet that has come whole and goes on: combined with one that waits, whose place in the buffer becomes free with its own, or
as it came; `none` where no port can take it (R410, R415, R416). -/
def forwardWhole (s : State) (o : OutPacket) : Option State :=
  match partnerFor s o with
  | some (x, new, k) =>
    let s1 := oweFor (oweFor s x x.kept) o o.kept
    let s2 := { s1 with fabric := { s1.fabric with waiting := s1.fabric.waiting.erase x, records := s1.fabric.records ++ [k]
                                                   nextRecord := s1.fabric.nextRecord + 1 } }
    place (s2.emit (.packet new)) { vc := 1, pkt := new }
  | none => place s o

/-- COMBINE_RECORD_TIMEOUT: 2 ms without an outcome; both sources get a refusal (R416). -/
def execCombineRecordTimeout (record : Nat) (s : State) : Res :=
  .next (match s.fabric.records.find? (fun k => k.num == record) with
    | some k => finishRecord s k dcLost
    | none => s)

/-! ### What becomes of a packet (R377, R378, R397, R404, R409, R410, R433, R453) -/

/-- The state that a meaning gives. -/
def after (s : State) (r : Res) : State := match r with | .next t => t | _ => s

/-- A control message, by its code (R433, R453). -/
def deliverControl (src : W16) (c : List Byte) (s : State) : State :=
  let b := fun o => byte (fieldAt c o 1)
  let w16 := fun o => BitVec.ofNat 16 (fieldAt c o 2)
  let w32 := fun o => BitVec.ofNat 32 (fieldAt c o 4)
  match fieldAt c 0 1 with
  | 0x20 => after s (execCreditReq src (b 1) (b 2) (w16 3) (w16 5) (b 7) s)
  | 0x21 => after s (execCreditGrant src (b 1) (b 2) (w16 3) (b 5) s)
  | 0x22 => after s (execPacketDone src (b 1) (b 2) (w16 3) (b 5) (w16 6) (b 8) s)
  | 0x23 => after s (execCreditRelease src (b 1) (b 2) (w16 3) (b 5) s)
  | 0x24 => after s (execFull src (b 1) (w16 3) (b 5) s)
  | 0x40 => holdProbeBy src (b 1) (b 2) (w16 3) (w32 5) s
  | 0x41 => holdAnswerBy src (b 1) (b 2 == 1) s
  | 0x42 => waitProbeBy src (w32 1) (b 5) s
  | 0x43 => waitAnswerBy src (w32 1) (b 5 == 1) s
  | 0x44 => withdrawBy src (w32 1) (b 5) s
  | 0x45 => poolFullBy src (w32 1) (b 5) s
  | _ => s

/-- A discovery packet (R404). -/
def deliverDiscovery (q : Nat) (sender : W16) (c : List Byte) (s : State) : State :=
  let b := fun o => byte (fieldAt c o 1)
  let w16 := fun o => BitVec.ofNat 16 (fieldAt c o 2)
  let d : Disc := { orig := w16 8, num := w16 10, mode := b 1, scope := b 2, shape := b 3, layout := b 4, twist := w16 6 }
  match fieldAt c 0 1 with
  | 0 => floodBy q sender (b 5) d s
  | 1 => replyBy q d (w16 12) (b 14 == 1) (b 15) (BitVec.ofNat 64 (fieldAt c 16 8)) s
  | 2 => withdrawalBy q d (w16 12) s
  | _ => s

/-- A mailbox request takes a slot of a request ring; the packet does not tell which of EP1 to EP3 its sender chose, so that
is a free value (R102). -/
def deliverRequest (src : W16) (slot : List Byte) (s : State) : State :=
  let x := s.fresh
  let e : Fin 6 := ⟨1 + x.1 % 3, by omega⟩
  if transportUp s e && routed s e src then enqueue x.2 (parseSlot e false src slot).2 slot else s

/-- A packet for this chiplet, by its type (R377). -/
def deliverPacket (p : Packet) (s : State) : State :=
  let c := p.content
  let h := xferHdr p
  match p.hdr.typ.toNat with
  | 0 => deliverControl p.hdr.src c s
  | 1 => deliverRequest p.hdr.src (slice c 0 128) s
  | 3 => remoteOperate p.hdr.src p.hdr.tenant (byte (fieldAt c 0 1)) (byte (fieldAt c 1 1)) (BitVec.ofNat 64 (fieldAt c 4 8))
      (byte (fieldAt c 12 1)) (BitVec.ofNat 16 (fieldAt c 14 2)) (BitVec.ofNat 32 (fieldAt c 16 4)) (BitVec.ofNat 32 (fieldAt c 20 4)) s
  | 4 => gateResultBy p.hdr.src (BitVec.ofNat 32 (fieldAt c 0 4)) (BitVec.ofNat 64 (fieldAt c 4 8)) s
  | 5 => after s (execWritePacket h p.data s)
  | 6 => after s (execAddPacket h p.data s)
  | 7 => after s (execReadRequest h s)
  | 8 => after s (execReadData h p.data s)
  | 10 => after s (execRevocation p.hdr.src (byte (fieldAt c 0 1)) (byte (fieldAt c 1 1)) (BitVec.ofNat 32 (fieldAt c 4 4))
      (BitVec.ofNat 64 (fieldAt c 8 8)) s)
  | _ => s

/-- What becomes of a packet, as its header says: discarded for a reason, for this chiplet, or on its way (R378, R397, R404). -/
inductive Fate where
  | discard (reason : Byte)
  | here
  | onward
deriving DecidableEq, Repr

def fateOf (s : State) (h : NetHdr) : Fate :=
  if 11 ≤ h.typ.toNat then .discard 2
  else if 32 ≤ h.hops.toNat then .discard 1
  else if h.typ = 9 then .here
  else if h.src = 0xFFFF ∨ h.dst = 0xFFFF then .discard 3
  else if h.dst = s.fa then .here
  else if 32 ≤ h.hops.toNat + 1 then .discard 1
  else if !reachable s h.dst then .discard 4
  else .onward

/-- The packet as it goes on: forwarded once more (R377). -/
def hopped (p : Packet) : Packet := { p with hdr := { p.hdr with hops := p.hdr.hops + 1 } }

/-- A packet that has come by port `q` is for this chiplet (R377, R404). -/
def servePacket (q : Nat) (p : Packet) (s : State) : State :=
  if p.hdr.typ = 9 then deliverDiscovery q p.hdr.src p.content s else deliverPacket p s

/-- A packet that arrives whole on port `q`, the frame of its header in place `k` of the buffer, if it is in one: discarded,
delivered, or forwarded (R378, R397, R410, R413, R415). -/
def arrive (q : Nat) (k : Option Nat) (p : Packet) (s : State) : State :=
  let left := match k with | some k => s.modPort q (·.owe k 1) | none => s
  match fateOf s p.hdr with
  | .discard r => discardTell left r q p
  | .here => servePacket q p left
  | .onward =>
    match forwardWhole s { vc := 0, pkt := hopped p, arrival := some q, place := k } with
    | some t => t
    | none => discardTell left 5 q p

/-- PACKET_HEADER_ARRIVAL: a packet arrives whole, and is delivered, forwarded, combined or discarded (R410, R415). -/
def execPacketHeaderArrival (port : Fin 20) (p : Packet) (s : State) : Res :=
  .next (if portUp s port then flush (arrive port none p s) else s)

/-- MAILBOX_REQUEST: a request takes a slot of its ring, or is answered with ST_BUSY (R102). -/
def execMailboxRequest (ep : Fin 6) (srcFa : W16) (slot : List Byte) (s : State) : Res :=
  .next (if transportUp s ep ∧ routed s ep srcFa ∧ 1 ≤ (ep : Nat) ∧ (ep : Nat) ≤ 3 then enqueue s (parseSlot ep false srcFa slot).2 slot else s)

/-- MAILBOX_RESPONSE: a response comes back for the firmware that asked; it changes nothing on the chiplet (R102, R110). -/
def execMailboxResponse (srcFa : W16) (slot : List Byte) (s : State) : Res :=
  let _ := (srcFa, slot)
  .next s

/-! ### Frames (R376, R379, R381, R382) -/

/-- The state in which a packet of this chiplet begins to come in, its window checks done (R425, R435). -/
def openHere (q : Nat) (p : Packet) (s : State) : State × RxState :=
  let h := xferHdr p
  if p.hdr.typ = 5 then
    match admission s h .write with
    | some c => (refusePacket s h .write c, .drop)
    | none => (useCredit s h, .write h (windowAddress s h) 0 true)
  else if p.hdr.typ = 6 then
    match admission s h .add with
    | some c => (refusePacket s h .add c, .drop)
    | none => (s, .add h)
  else if p.hdr.typ = 8 then (s, .data h 0 (readingXfer s h).isSome)
  else (servePacket q p s, .drop)

/-- The header frame of a packet with data frames: what becomes of the packet is settled here; one that goes on need not have come
whole to leave (R377, R378, R410, R425). -/
def openPacket (q vc k : Nat) (p : Packet) (s : State) : State :=
  let left := s.modPort q (·.owe k 1)
  let put := fun (x : State × RxState) => x.1.modPort q (fun r => { r with incoming := tput r.incoming vc ⟨k, x.2⟩ })
  match fateOf s p.hdr with
  | .discard r => put (discardTell left r q p, .drop)
  | .here => put (openHere q p left)
  | .onward =>
    match place s { vc := 0, pkt := hopped p, arrival := some q, place := some k, whole := false } with
    | some t => put (t, .forward)
    | none => put (discardTell left 5 q p, .drop)

/-- A data frame of a packet that is being forwarded; with the last one a packet that still waits may be combined (R415). -/
def forwardData (q vc k : Nat) (body : List Byte) (last : Bool) (s : State) : State :=
  let grow := fun (o : OutPacket) => if o.comesBy q vc then { o with pkt := { o.pkt with data := o.pkt.data ++ [body] }, whole := last } else o
  match (s.fabric.waiting ++ (List.range 20).flatMap (fun r => (s.port r).queue)).find? (·.comesBy q vc) with
  | none => s.modPort q (·.owe k 1)
  | some o =>
    if last && s.fabric.waiting.contains o then
      let s1 := { s with fabric := { s.fabric with waiting := s.fabric.waiting.erase o } }
      (forwardWhole s1 (grow o)).getD s1
    else
      let s1 := { s with fabric := { s.fabric with waiting := s.fabric.waiting.map grow } }
      (List.range 20).foldl (fun t r => t.modPort r (fun p => { p with queue := p.queue.map grow })) s1

/-- A granule of read data is written to the local range, unless the transfer no longer takes it (R435, R442). -/
def readGranule (h : XferHdr) (n : Nat) (body : List Byte) (s : State) : State × Bool :=
  match readingXfer s h with
  | none => (s, false)
  | some t =>
    if t.bytesOf h.index.toNat ≤ 256 * n then (s, false)
    else (s.write (t.laddr + t.unit * h.index.toNat + 256 * n) (padTo 256 body), true)

/-- The last frame of a packet for this chiplet has come (R434, R435, R444). -/
def endHere (x : RxState) (s : State) : State :=
  match x with
  | .write h _ _ live =>
    if live then finishPacket s h 0 true else postDone s h.src (byte (gaWindow h.ga)) dcRevoked h.xfer h.chan h.index 0
  | .add h => admitAdd s h
  | .data h n all =>
    if all && (readingXfer s h).any (fun t => t.bytesOf h.index.toNat == 256 * n) then readIn s h else s
  | _ => s

/-- A data frame of a packet that is coming in; one of no packet is discarded. -/
def dataFrame (q vc : Nat) (body : List Byte) (last : Bool) (s : State) : State :=
  match ((s.port q).incoming.find? (fun e => e.1 == vc)).map (fun e => e.2) with
  | none => s.modPort q (·.owe vc 1)
  | some x =>
    let left := s.modPort q (·.owe x.place 1)
    let r : State × RxState := match x.st with
      | .forward => (forwardData q vc x.place body last s, .forward)
      | .write h a n live =>
        if live && n < h.granules.toNat then (left.write (a + 256 * n) (padTo 256 body), .write h a (n + 1) live)
        else (left, .write h a n live)
      | .data h n all =>
        let y := readGranule h n body left
        (y.1, .data h (n + 1) (all && y.2))
      | st => (left, st)
    if last then endHere r.2 (r.1.modPort q (fun p => { p with incoming := tdel p.incoming vc }))
    else r.1.modPort q (fun p => { p with incoming := tput p.incoming vc ⟨x.place, r.2⟩ })

/-- A sequenced frame enters its buffer (R376, R377, R379); a header frame on a channel whose packet has not ended ends that packet.
The 64th frame since the last acknowledgement is acknowledged at once (R381). -/
def takeFrame (s : State) (q : Nat) (f : Frame) : State :=
  let vc := f.vc.toNat
  let s1 := s.modPort q (fun p => { p with rxExp := p.rxExp + 1, naks := 0, ackDue := true, heard := p.heard + 1 })
  let p := headerOf f.body
  let k := poolOf vc (bit p.hdr.flags.toNat 1)
  let place := match ((s.port q).incoming.find? (fun e => e.1 == vc)) with | some e => e.2.place | none => vc
  let s2 :=
    if f.kind = 1 then openPacket q vc k p (cutIncoming s1 q vc)
    else if f.kind = 2 then arrive q (some k) p (cutIncoming s1 q vc)
    else if f.kind = 5 then (cutIncoming s1 q vc).modPort q (·.owe place 1)
    else dataFrame q vc f.body (f.kind = 4) s1
  if 64 ≤ (s2.port q).heard then sendAck s2 q else s2

/-- A time message as a link control frame carries it (R466). -/
def timeOf (b : List Byte) : TimeMsg :=
  let w64 := fun o => BitVec.ofNat 64 (fieldAt b o 8)
  let g := fieldAt b 1 1
  { locked := bit g 0, holdover := bit g 1, defined := bit g 2, gmFa := BitVec.ofNat 16 (fieldAt b 2 2), hops := byte (fieldAt b 4 1)
    t1 := w64 8, t2 := w64 16, t3 := w64 24, defTs := w64 32, nomFa := BitVec.ofNat 16 (fieldAt b 40 2)
    period := BitVec.ofNat 32 (fieldAt b 42 4) }

/-- A link control frame, by the code in byte 0: credits of the six places in bytes 1 to 6 (DESIGN CHOICE, log 37), or a time exchange
(R411, R466). -/
def controlFrame (s : State) (port : Fin 20) (b : List Byte) : State :=
  match fieldAt b 0 1 with
  | 0x00 => s.modPort port (fun p => { p with credits := pools.map (fun k => creditOf p k + fieldAt b (1 + k) 1) })
  | 0x30 => after s (execTimeReq port (timeOf b) s)
  | 0x31 => after s (execTimeRsp port (timeOf b) s.time.count s)
  | _ => s

/-- The symbols that the decoder of a C port has corrected; a D port has no FEC, and its counter stays 0 (R391). -/
def countFixed (s : State) (q n : Nat) : State :=
  if isD q then s else s.modPort q (fun p => { p with corr := BitVec.ofNat 32 (satTo 32 (p.corr.toNat + n)) })

/-- The acknowledgement and the credits that a frame carries (R376, R381, R411). -/
def takeHeader (s : State) (q : Nat) (f : Frame) : State :=
  (takeAck s q f.ack).modPort q (fun p => { p with credits := p.credits.set f.cvc.toNat (creditOf p f.cvc.toNat + f.ccnt.toNat) })

/-- A frame that has come intact (R376, R382). -/
def serveFrame (s : State) (port : Fin 20) (f : Frame) : State :=
  if f.kind = 7 then discardFrame s port true
  else if f.kind = 0 then controlFrame (takeHeader s port f) port f.body
  else if f.kind = 6 then stopBy port (byte (fieldAt f.body 0 1)) (takeHeader s port f)
  else if f.seq = (s.port port).rxExp then takeFrame (takeHeader s port f) port f
  else discardFrame s port false

/-- FRAME_RECEIVE: 264 bytes come, in codewords that the decoder could correct or not; the frame is discarded, or served with the
acknowledgement and the credits that it carries (R376, R379, R381, R382, R391). -/
def execFrameReceive (port : Fin 20) (raw : List Byte) (fec : Bool) (fixed : Nat) (s : State) : Res :=
  .next (
    if !portUp s port then s
    else
      let s1 := countFixed s port fixed
      flush (match parseFrame raw with
        | some f => if fec || isD port then serveFrame s1 port f else discardFrame s1 port true
        | none => discardFrame s1 port true))

/-! ### LINK.STATE, LINK.RETRAIN (R151, R152, R388) -/

def stateSummary (p : Port) : List Byte := [p.state, p.partnerPort] ++ leBytes 2 p.partnerFa.toNat

/-- µs in the current state, saturating. -/
def stateTime (s : State) (p : Port) : Nat := satTo 32 ((s.time.elapsed - p.since) / 1000)

def linkStateBody (r : Request) (s : State) : Reply :=
  let q := r.arg 16 1
  if q = 0xFF then Reply.data ((List.range 20).flatMap (fun k => stateSummary (s.port k)))
  else if 20 ≤ q then Reply.no stBadArg
  else
    let p := s.port q
    Reply.data (stateSummary p ++ leBytes 4 (stateTime s p) ++ leBytes 4 p.corr.toNat ++ leBytes 4 p.uncorr.toNat
      ++ leBytes 4 p.retry.toNat ++ leBytes 2 p.retrains.toNat ++ [0, 0])

def cmdLinkState : Cmd := { code := 0x0405, stage := 2, layout := fun _ => [(16, 1)], body := linkStateBody }
def execLinkState (r : Request) (s : State) : Res := .next (serveRow cmdLinkState r s)

/-- The background entries of the LINK.RETRAIN commands that wait for the port (R67, R152). -/
def endRetrain (s : State) (q : Nat) (us : Nat) : State :=
  let p := s.port q
  p.retrain.foldl (fun t o => background t o stOk ([byte q, p.state, 0, 0] ++ leBytes 4 us)) (s.modPort q (fun p => { p with retrain := [] }))

/-- A port is disabled: it loses its link, and a retrain in progress ends with it (R152, R388). -/
def disablePort (s : State) (q : Nat) : State := endRetrain (portDown s q lnDisabled) q 0

def linkRetrainBody (r : Request) (s : State) : Reply :=
  let q := r.arg 16 1
  let a := r.arg 17 1
  let off := (s.port q).state == lnDisabled
  if 20 ≤ q ∨ 2 < a then Reply.no stBadArg
  else if a = 0 ∧ off then Reply.no stConflict
  else if (a = 1 ∧ off) ∨ (a = 2 ∧ !off) then {}
  else
    { status := stAccepted, detail := some [byte q, byte a]
      commit := fun o t =>
        let mark := fun (u : State) => u.modPort q (fun p => { p with retrain := p.retrain ++ [o] })
        if a = 1 then endRetrain (mark (disablePort t q)) q 0 else linkReset (mark t) q 1 }

def cmdLinkRetrain : Cmd := { code := 0x0406, stage := 2, layout := fun _ => [(16, 1), (17, 1)], body := linkRetrainBody }
def execLinkRetrain (r : Request) (s : State) : Res := .next (serveRow cmdLinkRetrain r s)

/-- LINK_RETRAIN_COMPLETE: the port of a LINK.RETRAIN has reached UP, DOWN or MARKED_DOWN (R152). -/
def execLinkRetrainComplete (port : Fin 20) (us : W32) (s : State) : Res :=
  let st := (s.port port).state
  .next (if st = lnUp ∨ st = lnDown ∨ st = lnMarked then endRetrain s port us.toNat else s)

end Sys2Proof.Machine
end

