-- ==== Sys2Proof/Machine/Seize.lean ====
section
/-! DEFINITION. Seizure and release of a basin: the record of a core, BASIN.SEIZE with its events, BASIN.RELEASE, and the
flume faults that meet them (R169 to R172, R221, R222, R286, R347, R365, R417, R418, R424, R442 to R445, R455, R456, R458,
R478 to R485, R568, R569, R578). -/

namespace Sys2Proof.Machine

/-! ### The record of a core (R221, R286) -/

/-- Bytes of a record that are defined, and the bytes from one record to the next (R221). -/
def recordBytes : Nat := 0x4400
def recordStep : Nat := 0x8000

def loopBytes (l : LoopReg) : List Byte := leBytes 4 l.count.toNat ++ leBytes 2 l.start.toNat ++ leBytes 2 l.stop.toNat
def tokenBytes (t : Token) : List Byte :=
  [byte (t.tile.toNat + 4 * t.isInt.toNat + 8 * t.pair.toNat), t.seq, 0, 0]

/-- A core's state in the layout of the seizure record. -/
def coreRecord (c : Core) (valid : Bool) (node pos : Nat) : List Byte :=
  [if valid then 1 else 0, 0x01, byte node, byte pos, match c.held with | some h => h.issued | none => 0, 0, 0, 0]
    ++ leBytes 4 c.pc.toNat ++ leBytes 4 c.phase.toNat ++ loopBytes c.lc0 ++ loopBytes c.lc1
    ++ leBytes 8 (c.p ||| 1).toNat
    ++ (numbers 0 3).flatMap (fun i => leBytes 8 (c.getQ i).toNat)
    ++ (numbers 0 32).flatMap (fun i => leBytes 8 (c.getS i).toNat)
    ++ (numbers 0 16).flatMap (fun i => leBytes 4 (tget 0 c.a i).toNat)
    ++ (numbers 0 16).flatMap (fun i => leBytes 16 (tget 0 c.d i).toNat)
    ++ padTo 64 ([byte c.tokens.length, 0, 0, 0, 0, 0, 0, 0] ++ c.tokens.flatMap tokenBytes)
    ++ (numbers 0 16).flatMap (fun i => leBytes 4 (tget 0xFFFFFFFF c.csrc i).toNat)
    ++ List.replicate 0x100 0
    ++ (numbers 0 4).flatMap (fun i => padTo 0x1000 ((c.tile i).flatMap (fun v => leBytes 4 v.toNat)))

/-- A field of a record. -/
def recNat (l : List Byte) (o n : Nat) : Nat := fieldAt l o n

def recordLoop (l : List Byte) (o : Nat) : LoopReg :=
  ⟨BitVec.ofNat 32 (recNat l o 4), BitVec.ofNat 14 (recNat l (o + 4) 2), BitVec.ofNat 14 (recNat l (o + 6) 2)⟩

def recordTokens (l : List Byte) : List Token :=
  (List.range (min 8 (recNat l 0x280 1))).map (fun i =>
    let v := recNat l (0x288 + 4 * i) 4
    ⟨BitVec.ofNat 2 v, bit v 2, bit v 3, byte (v / 256), false⟩)

/-- The Type or Pair bits of the tiles after a release: those of each tile's newest token (R286). -/
def tokenBits (l : List Token) (f : Token → Bool) : BitVec 4 :=
  BitVec.ofNat 4 (maskOf ((numbers 0 4).filter (fun t => (l.reverse.find? (fun k => k.tile.toNat == t)).any f)))

/-- A core as a record spells it (R222, R286). -/
def recordCore (l : List Byte) : Core :=
  let toks := recordTokens l
  { s := (numbers 1 31).map (fun i => (i, BitVec.ofNat 64 (recNat l (0x40 + 8 * i) 8)))
    a := (numbers 0 16).map (fun i => (i, BitVec.ofNat 32 (recNat l (0x140 + 4 * i) 4)))
    p := byte (recNat l 0x20 1) ||| 1
    d := (numbers 0 16).map (fun i => (i, BitVec.ofNat 128 (recNat l (0x180 + 16 * i) 16)))
    t := (numbers 0 4).map (fun i =>
      (i, (List.range 1024).map (fun k => BitVec.ofNat 32 (recNat l (0x400 + 0x1000 * i + 4 * k) 4))))
    q := (numbers 0 3).map (fun i => (i, BitVec.ofNat 64 (recNat l (0x28 + 8 * i) 8)))
    pc := BitVec.ofNat 14 (recNat l 8 4), phase := BitVec.ofNat 2 (recNat l 12 1)
    lc0 := recordLoop l 0x10, lc1 := recordLoop l 0x18
    tokens := toks, tileInt := tokenBits toks (·.isInt), tilePair := tokenBits toks (·.pair)
    mfins := (match toks.getLast? with | some k => k.seq + 1 | none => 0)
    csrc := ((numbers 0 16).filter (fun i => recNat l (0x2C0 + 4 * i) 4 != 0xFFFFFFFF)).map (fun i =>
      (i, BitVec.ofNat 32 (recNat l (0x2C0 + 4 * i) 4))) }

/-- The local address of the record of a position. -/
def recordAddress (v : Basin) (pos : Nat) : Nat := 0x100000 * v.save.getD 0 + recordStep * pos

/-! ### BASIN.SEIZE (R169 to R171, R479 to R482) -/

/-- The two rectangles together form a rectangle. -/
def joins (a b : Rect) : Bool :=
  let u := a.union b
  !a.overlaps b && a.w * a.h + b.w * b.h == u.w * u.h

/-- The recipient qualifies (R169). -/
def recipientOk (s : State) (b k : Nat) : Bool :=
  k != b && settled s k && !(s.basin k).lattice && joins (s.basin b).rect (s.basin k).rect

/-- The seized basin qualifies (R169). -/
def seizable (s : State) (b : Nat) : Bool :=
  settled s b && (match (s.basin b).save with
    | some k => (s.seg k).power == .on && (s.seg (k + 1)).power == .on
    | none => false)

/-- A seized core comes to rest: one that runs stops, the engine of a halted one falls quiet, and what a faulted one or its
lattice still holds completes (R203, R220, R280, R319, R321). -/
def restCore (s : State) (n : Nat) : State :=
  match (s.core n).run with
  | .running => stopCore s n .stopped
  | .halted => quietV (s.modCore n endStrip) n
  | _ => (s.core n).v.foldl (fun t _ => completeV t n) (s.modCore n endStrip)

/-- The conditions of the seized cores, and their stop at the end of their strips (R170, R220, R481). -/
def beginSeizure (z : Seizure) (s : State) : State :=
  let v := s.basin z.basin
  let l := v.rect.nodes
  let conds := (l.filter (goodNode s)).map (fun n => (⟨v.rect.position n, (s.core n).run, {}⟩ : Saved))
  let s1 := l.foldl restCore s
  settleReads { s1.modBasin z.basin (fun v => { v with saved := conds }) with seize := some z }

def seizeBody (r : Request) (s : State) : Reply :=
  let b := r.arg 16 1
  let k := r.arg 17 1
  if 31 < b ∨ (31 < k ∧ k ≠ 0xFF) ∨ 1 < r.arg 18 1 then Reply.no stBadArg
  else if !seizable s b ∨ (k ≠ 0xFF ∧ !recipientOk s b k) then Reply.no stConflict
  else
    { late := true
      commit := fun o s => beginSeizure { basin := b, recipient := if k = 0xFF then none else some k, start := bit (r.arg 18 1) 0
                                          urgent := r.urgent, phase := 0, locks := 0, flags := 0, origin := o } s }

def cmdBasinSeize : Cmd :=
  { code := 0x1003, stage := 3, urgent := true, layout := fun _ => [(16, 1), (17, 1), (18, 1)], body := seizeBody }
def execBasinSeize (r : Request) (s : State) : Res := .next (serveRow cmdBasinSeize r s)

/-- The seizure goes from one phase to the next. -/
def advance (s : State) (phase : Nat) (f : Seizure → State → State) : State :=
  match s.seize with
  | some z => if z.phase = phase then f z { s with seize := some { z with phase := phase + 1 } } else s
  | none => s

/-- An entry whose writes or reads are still under way in an in-memory engine. -/
def inMemory (e : SbEntry) : Bool := match e.use with | .memory _ => true | _ => false

/-- SEIZURE_QUIESCED: every entry has retired, the channels stop and return their credits; it cannot happen while an
in-memory operation of a seized core runs (R212, R442, R480). -/
def execSeizureQuiesced (s : State) : Res :=
  .next (advance s 0 (fun z t =>
    let l := (s.basin z.basin).rect.nodes
    if l.any (fun n => (s.core n).sb.any inMemory) then s
    else suspendChannels (l.foldl (fun t n => t.modCore n (fun c => { c with sb := [] })) t) z.basin))

/-- An add packet of channel `c` has been admitted, and each of its add writes has reached the reduction unit of its slice: an
entry holds it, or it waits there for one (R365). -/
def addDelivered (s : State) (c : Nat) (t : Transfer) (k : Nat) : Bool :=
  s.dma.adds.any (fun p => p.hdr.src == s.fa && p.hdr.chan.toNat == c && p.hdr.xfer == t.xfer && p.hdr.index.toNat == k
    && p.left.all (fun a => p.given.contains a
      || s.dma.redWait.any (fun w => addAddress s w == a && (broughtBy s a w.hdr).contains p.hdr)))

/-- What channel `c` sent into the flume for this chiplet's own windows is answered, and its add writes are delivered (R359,
R365). -/
def flumeQuiet (s : State) (c : Nat) : Bool :=
  (s.chan c).xfer.all (fun t => gaFa t.ga != s.fa || (List.range t.pkts.length).all (fun k =>
    !(t.pkts.getD k .ok).outstanding || (t.isAdd && addDelivered s c t k)))

/-- FLUME_FENCE_DONE: the fence is complete only once the channels of the basin have nothing open in the flume (R365, R480). -/
def execFlumeFenceDone (s : State) : Res :=
  .next (advance s 1 (fun z t => if (channelsOf s z.basin).all (flumeQuiet s) then fencePackets t z.basin else s))

/-- FABRIC_FENCE_DONE: the fence is complete only once what the requesters put on the links has been acknowledged (R417, R480). -/
def execFabricFenceDone (s : State) : Res := .next (advance s 2 (fun z t => if fabricQuiet s z.basin then t else s))

/-- The gate operations whose packets a fence returned go out again, on behalf of the life that the core has now (R172, R417, R455). -/
def resendGates (s : State) (n : Nat) : State :=
  let l := (s.core n).gops.filter (fun o => o.returned && o.result.isNone)
  let fresh := fun (o : GateOp) => { o with returned := false, since := s.time.elapsed, core := byte (s.logical n), life := s.life (s.logical n) }
  l.foldl (fun t o => t.send (gatePacket t o.fa o.tenant o.op o.gate o.sv (fresh o).core (fresh o).life o.tag))
    (s.modCore n (fun c => { c with gops := c.gops.map (fun o => if l.contains o then fresh o else o) }))

/-- A seizure that cannot commit leaves no effect: its cores and transfers go on (R65, R114).  What a detection has marked
meanwhile happens now: the step is run again, or the basin is reset (R347; DESIGN CHOICE, log 90). -/
def undoSeizure (z : Seizure) (s : State) : State :=
  let v := s.basin z.basin
  let s1 := { s with seize := none }.modBasin z.basin (fun v => { v with saved := [], savedVoid := false, rerunMark := false })
  let s2 := v.rect.nodes.foldl (fun t n =>
    if v.saved.any (fun e => e.pos == v.rect.position n && e.cond == .running) && (t.core n).run == .stopped then
      resumeCore t n false
    else t) s1
  let s3 := resumeChannels (v.rect.nodes.foldl resendGates s2) z.basin id
  settleReads (
    if v.savedVoid then basinReset s3 z.basin 3
    else match v.rerunMark, v.step with
      | true, some k => rerunStep s3 z.basin k
      | _, _ => s3)

/-- A record is valid for a core that ran, was stopped with its state held, or was halted (R481). -/
def validCond (r : CoreRun) : Bool := r == .running || r == .stopped || r == .halted

/-- Node `n` is captured: its record is written, what stands beside it is kept, and the node is free (R221, R456, R481). -/
def captureCore (b : Nat) (s : State) (n : Nat) : State :=
  let v := s.basin b
  let p := v.rect.position n
  let c := s.core n
  let valid := v.saved.any (fun e => e.pos == p && validCond e.cond) && goodNode s n
  let s1 := s.write (recordAddress v p) (coreRecord (if valid then c else {}) valid n p)
  let s2 := s1.modBasin b (fun v => { v with saved := v.saved.map (fun e =>
    if e.pos = p then { e with core := { ({} : Core) with gops := c.gops, held := c.held, edge := c.edge, stalls := c.stalls } } else e) })
  s2.modCore n (fun c => { blankCore c with stalls := c.stalls })

/-- The lives of the seized cores end (R455, R458): the state, and the number of locks that became ORPHANED. -/
def endLives (s : State) (l : List Nat) : State × Nat :=
  l.foldl (fun a n => let r := endLife a.1 n; (r.1, a.2 + r.2)) (s, 0)

/-- The recipient's image is absent from a cluster of an added core (R170, R482). -/
def imageAbsent (s : State) (k : Nat) (n : Nat) : Bool :=
  match (s.basin k).image with
  | some i => !i.clusters.toNat.testBit (clusterOf n)
  | none => true

/-- The recipient takes the seized rectangle; with START its added cores begin, each with its last argument and as part of
its step (R170; DEDUCED, log 47). -/
def enlarge (s : State) (z : Seizure) (k : Nat) (added : List Nat) (former : Rect) : State :=
  let v := s.basin k
  let s1 := s.setBasin k { v with rect := v.rect.union former }
  if z.start then
    let l := added.filter (fun n => !imageAbsent s k n)
    let s2 := l.foldl (fun t n => startCore t k n v.arg) s1
    s2.modBasin k (fun v => { v with step := v.step.map (fun p => { p with cores := p.cores ++ l }) })
  else s1

/-- The gang whose timing follows a basin: the one that it masters.  A suspended gang releases nothing; one that runs again
releases each barrier that is full, with a new edge (R170, R420). -/
def suspendGang (s : State) (b : Nat) (on : Bool) : State :=
  let s1 := { s with fabric := { s.fabric with gangs := s.fabric.gangs.map (fun g =>
      if g.basin = b ∧ g.master = s.fa then { g with suspended := on } else g) } }
  if on then s1
  else ((List.range 128).filter (fun g => (s.gate g).kind == .barrier && (s.gate g).basin == some b && barrierParties (s.gate g).value != 0)).foldl dueBarrier s1

/-- The commit of a seizure: windows revoked, records written, locks orphaned, the entry, the recipient, the response
(R170, R171, R418, R444, R445, R480 to R482). -/
def commitSeizure (z : Seizure) (s : State) : State :=
  let v := s.basin z.basin
  let nodes := v.rect.nodes
  let rv := stopWindows s z.basin (windowsOf s z.basin (· == .opened)) 1
  let s1 := nodes.foldl (captureCore z.basin) rv.1
  let live := nodes.filter (hasCore s)
  let lk := endLives s1 live
  let master := s.fabric.gangs.any (fun g => g.basin == z.basin && g.master == s.fa && g.phase != .halted)
  let s2 := (suspendGang lk.1 z.basin true).modBasin z.basin (fun v => { v with
    state := .seized, former := v.rect, rect := {}, revoked := rv.2 })
  let added := nodes.filter (goodNode s)
  let absent := match z.recipient with | some k => added.any (imageAbsent s k) | none => false
  let flags := maskOf ((if absent then [0] else []) ++ (if v.rerunMark then [1] else []) ++ (if v.savedVoid then [2] else [])
    ++ (if master then [3] else []) ++ (if z.recipient.isNone then [4] else []))
  let s3 := lateEntry s2 z.urgent z.origin
    ([byte z.basin, match z.recipient with | some k => byte k | none => 0xFF] ++ v.rect.bytes ++ [byte lk.2, byte flags])
  let s4 := match z.recipient with | some k => enlarge s3 z k added v.rect | none => s3
  let new := match z.recipient with | some k => (s4.basin k).rect | none => {}
  finishLate { s4 with seize := none } z.urgent stOk (some ([byte flags, byte lk.2] ++ v.rect.bytes ++ new.bytes))

/-- SEIZURE_COMMIT: the commit, unless the recipient no longer qualifies (R114, R170, R190). -/
def execSeizureCommit (s : State) : Res :=
  .next (match s.seize with
    | some z =>
      if z.phase ≠ 3 then s
      else if z.recipient.all (fun k => recipientOk s z.basin k) then commitSeizure z s
      else finishLate (undoSeizure z s) z.urgent stConflict (some [])
    | none => s)

/-! ### BASIN.RELEASE (R172, R222, R347, R443, R481, R482, R485) -/

/-- The target rectangle of a release. -/
def releaseTarget (r : Request) (v : Basin) : Rect :=
  if r.arg 18 1 = 0xFF then v.former else { v.former with x0 := r.arg 18 1, y0 := r.arg 19 1 }

/-- The node at a position of a rectangle. -/
def nodeAt (r : Rect) (pos : Nat) : Nat := 8 * (r.y0 + pos / r.w) + r.x0 + pos % r.w

/-- What forbids the target (R172). -/
def targetBad (s : State) (v : Basin) (t : Rect) : Bool :=
  t.nodes.any (fun n => (basinOf s n).isSome)
  || v.saved.any (fun e => validCond e.cond && !goodNode s (nodeAt t e.pos))
  || (v.lattice && !allGood s t)

/-- A word of a record fails its parity (R347). -/
def recordBad (s : State) (v : Basin) : Option Nat :=
  (List.range (v.former.w * v.former.h)).findSome? (fun p => firstBad s.mem (recordAddress v p) recordBytes)

/-- One core returns: its registers from the record, the rest as the chiplet kept it; with START a core that ran goes on
(R222, R456, R481). -/
def restoreCore (start : Bool) (v : Basin) (t : Rect) (s : State) (e : Saved) : State :=
  let n := nodeAt t e.pos
  let l := s.mem.read (recordAddress v e.pos) recordBytes
  if !validCond e.cond || bit (recNat l 0 1) 0 == false then s
  else
    let c := recordCore l
    let c1 := { c with gops := e.core.gops, held := e.core.held, edge := e.core.edge, stalls := e.core.stalls
                       refill := !c.csrc.isEmpty, run := if e.cond = .halted then .halted else .stopped }
    let s1 := resendGates (s.setCore n c1) n
    if start ∧ e.cond = .running then resumeCore s1 n false else s1

/-- A node of the seized rectangle follows its position to the target (R172). -/
def moveNode (v : Basin) (t : Rect) (n : Nat) : Nat := if v.former.has n then nodeAt t (v.former.position n) else n
/-- The nodes of a step follow their positions. -/
def moveStep (v : Basin) (t : Rect) (k : Step) : Step := { k with cores := k.cores.map (moveNode v t) }

/-- The commit of a release. -/
def releaseBasin (b : Nat) (start : Bool) (t : Rect) (void rerun : Bool) (s : State) : State :=
  let v := s.basin b
  let ws := windowsOf s b (· == .revoked)
  let s1 := ws.foldl (fun u w => u.setWindow w { u.window w with state := .opened }) s
  let s2 := v.revoked.foldl (fun u fa => sendRevocation u fa 0 b (maskOf ws)) s1
  let s3 := suspendGang (s2.modBasin b (fun v => { v with
    state := .active, rect := t, former := {}, saved := [], savedVoid := false, rerunMark := false, revoked := []
    master := nodeAt t (v.former.position v.master), step := v.step.map (moveStep v t) })) b false
  let s4 :=
    if void then (dropOps v s3).modBasin b (fun v => { v with step := none })
    else if rerun then
      match (s3.basin b).step with
      | some k => rerunStep (dropOps v s3) b k
      | none => s3
    else v.saved.foldl (restoreCore start v t) s3
  settleReads (resumeChannels s4 b (moveNode v t))
where
  /-- The gate operations of cores that do not return are withdrawn (DEDUCED, log 48). -/
  dropOps (v : Basin) (s : State) : State :=
    (v.saved.flatMap (fun e => e.core.gops.filter (fun o => o.result.isNone))).foldl (fun t o => withdrawOp t o true) s

def releaseBody (r : Request) (s : State) : Reply :=
  let b := r.arg 16 1
  let x := r.arg 18 1
  let y := r.arg 19 1
  let v := s.basin b
  let t := releaseTarget r v
  let keep := x == 0xFF && y == 0xFF
  let start := bit (r.arg 17 1) 0
  if 31 < b ∨ 1 < r.arg 17 1 ∨ ((x == 0xFF) != (y == 0xFF)) ∨ (!keep ∧ (7 < x ∨ 7 < y))
      ∨ (!keep ∧ v.state = .seized ∧ !rectOk t) then Reply.no stBadArg
  else if v.state ≠ .seized ∨ targetBad s v t then Reply.no stConflict
  else if v.load.isSome then Reply.no stBusy
  else
    let bad := recordBad s v
    let void := v.savedVoid || bad.isSome
    let rerun := v.rerunMark && !void && v.step.isSome
    let ws := (windowsOf s b (· == .revoked)).length
    let gang := s.fabric.gangs.any (fun g => g.basin == b && g.master == s.fa && g.suspended)
    let flags := maskOf ((if start then [0] else []) ++ (if rerun then [1] else []) ++ [2] ++ (if gang then [3] else [])
      ++ (if t = v.former then [] else [4]) ++ (if void then [7] else []))
    { detail := some ([byte b, byte flags] ++ t.bytes ++ [byte ws])
      commit := fun _ s =>
        let s1 := match bad with | some w => detect s w none 1 | none => s
        releaseBasin b start t void rerun s1 }

def cmdBasinRelease : Cmd :=
  { code := 0x1004, stage := 3, layout := fun _ => [(16, 1), (17, 1), (18, 1), (19, 1)], body := releaseBody }
def execBasinRelease (r : Request) (s : State) : Res := .next (serveRow cmdBasinRelease r s)

/-! ### FLUME_FAULT (R568, R569, R578) -/

/-- FLUME_FAULT: a seizure that has not committed ends, every basin with cores is reset, and the third fault within the
hour ends service; transit packets that cross the flume are cut off (R568, R569). -/
def execFlumeFault (node : Fin 64) (plane : BitVec 3) (s : State) : Res :=
  let now := s.time.elapsed
  let l := now :: s.die.flumeFaults.filter (fun t => now ≤ t + flumeHour)
  let bs := (List.range 32).filter (fun b => (s.basin b).state == .active)
  let x := cutTransit (abortSeizure { s with die := { s.die with flumeFaults := l } })
  let s2 := event x.1 0xE020 ([byte node, byte plane.toNat, byte l.length, byte bs.length] ++ leBytes 2 x.2)
  let s3 := bs.foldl (fun t b => basinReset t b 4) s2
  .next (if 3 ≤ l.length then { s3 with boot := { s3.boot with ended := true } } else s3)

end Sys2Proof.Machine
end

