-- ==== Sys2Proof/Machine/Restart.lean ====
section
/-! DEFINITION. What a warm reset clears and keeps, the entry to stage 0, ROM recovery and the state below the floor (R45,
R60, R62, R66, R70, R71, R72, R75, R91, R93, R385, R394, R455). -/

namespace Sys2Proof.Machine

/-! ### What a warm reset clears (R62) -/

/-- The headgate after a warm reset: what the sensors read and the alert that depends on them stay (R45, R62). -/
def clearHead (h : Head) : Head :=
  { ({} : Head) with points := h.points.map (fun e => (e.1, { ({} : TempPoint) with temp := e.2.temp })), alerting := h.alerting }

/-- The leat chain as CHIP_RST_N leaves it: the frame logic starts anew, its records and its configuration are AON state
(R48, R53, R522, R538). -/
def clearLeat (l : Leat) : Leat :=
  { l with state := .search, half := none, own := none, train := [], inTrain := false, turned := false, master := false
           phase := .idle, second := false, headBack := false, waitSweep := false, got := [], drive := false }

/-- Every core's life ends (R455). -/
def nextLives (t : Tab W16) : Tab W16 := (List.range 64).map (fun l => (l, tget 0 t l + 1))

/-- The partner session after a reset: a free value other than the one before it (R386; DESIGN CHOICE, log 66). -/
def nextSession (s : State) : W32 := s.fabric.session + 1 + BitVec.ofNat 32 (s.fresh.1 % (2 ^ 32 - 1))

/-- The state that a warm reset leaves, before stage 0 is entered: everything is cleared but the ledger, the settings store,
the AON state and the straps, and the scratchpad is undefined (R62, R122, R386, R591).  Entries that waited for the end of a
pause are appended first, so that no reset goes without its entry (R66; DEDUCED, log 35).  The strap pins keep the levels that
the last rising edge of CHIP_RST_N found, so sampling them again gives the same values (R38, log 64). -/
def warmState (s' : State) (cause : Byte) (pin : Bool) : State :=
  let s := flushWaiting s'
  { ({} : State) with
    fuses := s.fuses
    aon := { s.aon with warm := true, cause := cause.toNat, warmCount := min 255 (s.aon.warmCount + 1), entry := some cause }
    boot := { ({} : Boot) with rstLow := pin, pins := s.boot.pins }
    settings := { ({} : Settings) with banks := s.settings.banks }
    head := clearHead s.head
    leat := if pin then clearLeat s.leat else s.leat
    tap := { s.tap with refused := false, last := 0 }
    fabric := { ({} : Fabric) with session := nextSession s }
    time := { ({} : TimeState) with elapsed := s.time.elapsed }
    ledger := { s.ledger with winSel := 0 }
    die := { ({} : Die) with lives := nextLives s.die.lives }
    store := { ({} : Store) with mem := ({} : Memory).forget 0 Memory.size s.store.gen, gen := s.store.gen + 1 }
    sent := s.sent
    free := s.free + 1
    pending := s.pending }

/-! ### Stops and alerts (R35, R43, R45) -/

/-- Every temperature point is below its alert limit. -/
def belowAlert (h : Head) : Bool := (numbers 0 72).all (fun k => usedTemp h k < (tget {} h.points k).alert)

/-- The reference has been within its limits for 100 µs (R35). -/
def refclkSteady (s : State) : Bool := s.aon.refclkOk && s.aon.refclkSince + 100000 ≤ s.time.elapsed

/-- The causes of THERM_ALERT_N that a warm reset releases: those whose condition holds (R45). -/
def releaseAlerts (s : State) : State :=
  { s with aon := { s.aon with alert := { coolant := s.aon.alert.coolant && !s.aon.coolantGood, rail := false, refclk := false
                                          trip := s.aon.alert.trip && !belowAlert s.head } } }

/-- The stops that stay in force through a warm reset (R27, R33, R35, R43, R45). -/
def endStops (s : State) : State :=
  { s with aon := { s.aon with stop := { coolant := false, rail := s.aon.stop.rail && s.aon.rails != 0x3F
                                         refclk := s.aon.stop.refclk && !refclkSteady s
                                         trip := s.aon.stop.trip && !belowAlert s.head } } }

/-! ### Entry to stage 0 (R38, R66, R72, R385) -/

/-- The D ports rest in BASE, the C ports are DOWN (R75, R385). -/
def restPorts (s : State) : State := (List.range 8).foldl (fun t q => t.setPort q { state := lnBase, since := s.time.elapsed }) s

/-- A lane test ends; the counts that it found, which are free, stay readable (R595; DESIGN CHOICE, log 72). -/
def Port.endTest (p : Port) (k : Nat) : Port := { p with testRun := false, testErr := if p.testRun then some k else p.testErr }

/-- A D port leaves its lane test through a link reset, which returns it to BASE; the cause of its entry is free (R391, R392, R595;
DESIGN CHOICE, log 72). -/
def leaveTest (s : State) (q : Nat) : State :=
  let x := s.fresh
  let s1 := resetEvent x.2 5 x.1 q
  s1.modPort q (fun p => { (p.endTest s.free).fresh with state := lnBase, since := s.time.elapsed, retrains := up16 p.retrains })

/-- A lane test that runs ends with its stage (R392, R595). -/
def endTests (s : State) : State := ((List.range 20).filter (fun q => (s.port q).testRun)).foldl leaveTest s

/-- A boundary-scan instruction in the TAP becomes BYPASS, and the refusal is shown (R49, R52, R599). -/
def refuseBoundary (t : Tap) (code : Byte) : Tap := { t with ir := 0xFF, bypass := false, refused := true, last := code }

/-- A boundary-scan instruction does not outlast the stages that allow it (R52). -/
def endBoundary (s : State) : State :=
  if boundaryCodes.contains s.tap.ir then { s with tap := refuseBoundary s.tap s.tap.ir } else s

/-- Stage 0 begins: stops whose condition allows it end, the entry of a warm reset is appended, the D ports rest in BASE,
and the shape is the one that the straps hint (R41, R66, R81, R385). -/
def enterStage0 (s : State) : State :=
  let s1 := endStops s
  let s2 := match s1.aon.entry with
    | some c => resetEvent { s1 with aon := { s1.aon with entry := none } } 1 c.toNat 0xFF
    | none => s1
  let s3 := restPorts s2
  { s3 with fabric := { s3.fabric with shape := proposedShape s3 } }

/-- A warm reset that the chiplet starts itself: 2 for a second watchdog expiry, 3 for a second failed confirmation (R60,
R66).  R394 asks for STOP at an assertion of CHIP_RST_N only. -/
def innerReset (s : State) (cause : Byte) : State := enterStage0 (warmState (releaseAlerts s) cause false)

/-! ### Stage events, ROM recovery, below the floor (R72, R91, R93) -/

/-- STAGE in the ledger; `entry` marks an entry to a state, not a completion (R72, R86, R91, R572). -/
def stageEvent (s : State) (code : Byte) (entry : Bool) : State :=
  event s 0xE000 ([code, byte (ofBits [entry, s.boot.shortfall]), byte (if s.boot.mapSet then goodCount s else 0), s.fuses.grade]
    ++ leBytes 2 s.boot.floor.toNat)

/-- No image runs, and no delivery is bound; the boot ROM has the steward, so nothing of a recovery or of a fault of the loader
lasts (R80, R93). -/
def dropImage (s : State) : State :=
  { s with fw := { s.fw with image := none, booting := false, delivery := none }
           svc := { s.svc with paused := false, muted := false, noReturn := false } }

/-- ROM recovery with its cause: 1 the strap, 2 two failed confirmations, 3 a bad signature (R75, R93, R597). -/
def enterRecovery (s : State) (cause : Nat) : State :=
  let s1 := endTests (dropImage s)
  stageEvent { s1 with boot := { s1.boot with stage := 0x8, recovery := cause, hold := false } } 0x8 true

/-- Below the floor: issue stops, every link port is held down, and only IDENT.READ is answered (R91). -/
def belowFloor (s : State) (element : Nat) : State :=
  let s1 := dropImage (endBoundary <| endTests { s with
    boot := { s.boot with stage := 0xF, floor := s.boot.floor ||| BitVec.ofNat 16 (2 ^ element), preparing := false, hold := false } })
  stageEvent ((List.range 20).foldl (fun t q => portDown t q lnDown) s1) 0xF true

end Sys2Proof.Machine
end

