-- ==== Sys2Proof/Machine/Firmware.lean ====
section
/-! DEFINITION. Image delivery, verification, the boot confirmation, and the live handover with its fall-back (R77 to R80,
R94, R186 to R188, R541 to R561). -/

namespace Sys2Proof.Machine

/-! ### Images (R541 to R544) -/

/-- Sizes of an image: whole blocks, 17 to 448 of them (R541). -/
def sizeOk (n : Nat) : Bool := n % 4096 == 0 && 69632 ≤ n && n ≤ 1835008

/-- The header of an image (R541). -/
def headerInfo (l : List Byte) : ImageInfo :=
  { version := BitVec.ofNat 16 (fieldAt l 8 2), schema := BitVec.ofNat 16 (fieldAt l 10 2), size := fieldAt l 12 4
    iface := BitVec.ofNat 16 (fieldAt l 20 2) }

/-- The bytes of a region. -/
def imageBytes (t : Tab (List Byte)) (blocks : Nat) : List Byte := (numbers 0 blocks).flatMap (fun b => padTo 4096 (tget [] t b))

/-- The signature over bytes 0 to S - 97 is good (R542). -/
def signatureOk (l : List Byte) : Bool :=
  ecdsaVerify Config.signingKey (sha384 (l.take (l.length - 96))) (l.drop (l.length - 96))

/-- The header checks other than the loader interface (R546). -/
def imageHeaderOk (s : State) (d : Delivery) (l : List Byte) : Bool :=
  let h := headerInfo l
  let e := fieldAt l 16 4
  fieldAt l 0 4 == 0x57464C48 && fieldAt l 4 2 == partNumber && bit (fieldAt l 6 1) 1 && h.version == d.version
  && h.size == d.size && e % 4 == 0 && 0x10000 ≤ e && e < d.size - 96 && fieldAt l 22 2 ≤ s.fuses.romVersion.toNat

/-! ### Delivery (R77, R78, R186, R539, R540, R545) -/

def setFw (s : State) (f : Firmware) : State := { s with fw := f }
def setDelivery (s : State) (d : Option Delivery) : State := { s with fw := { s.fw with delivery := d } }

/-- An image is written into the running region by the boot ROM, into the alternate region by firmware (R78, R545). -/
def byRom (s : State) : Bool := s.boot.stage == 1 || s.boot.stage == 0x8

/-- Every block is present. -/
def Delivery.whole (d : Delivery) : Bool := d.present.length == d.blocks

/-- The fragments of a block, where all 64 are present (R78). -/
def Delivery.blockData (d : Delivery) (b : Nat) : Option (List Byte) :=
  let l := (numbers (64 * b) 64).filterMap (fun k => (d.frags.find? (fun e => e.1 == k)).map (fun e => e.2))
  if l.length = 64 then some l.flatten else none

/-- A block that has arrived, its check value with it, is checked over the ciphertext; it is decrypted and written, or
discarded (R78, R539, R543). -/
def checkBlock (s : State) (d : Delivery) (b : Nat) : State :=
  match d.blockData b, d.checks.find? (fun e => e.1 == b) with
  | some data, some c =>
    let d1 := { d with frags := d.frags.filter (fun e => e.1 / 64 != b) }
    if crc32c data = c.2.toNat then
      let plain := aesCtr (d.key.take 32) (d.key.drop 32) (256 * b) data
      let s1 := setDelivery s (some { d1 with present := b :: d.present })
      if byRom s then setFw s1 { s1.fw with running := tput s1.fw.running b plain }
      else setFw s1 { s1.fw with alternate := tput s1.fw.alternate b plain }
    else setDelivery s (some d1)
  | _, _ => setDelivery s (some d)

/-- A fragment of a block that is not yet present; one that the delivery already holds is ignored (R540). -/
def takeFragment (s : State) (d : Delivery) (b f : Nat) (data : List Byte) : State :=
  if d.present.contains b then s
  else
    let k := 64 * b + f
    let held := d.frags.any (fun e => e.1 == k)
    checkBlock s (if held then d else { d with frags := tput d.frags k data }) b

/-- Check values of consecutive blocks (R539). -/
def takeChecks (s : State) (d : Delivery) (first : Nat) (vs : List W32) : State :=
  let d1 := { d with checks := vs.zipIdx.foldl (fun t e => tput t (first + e.2) e.1) d.checks }
  (numbers first vs.length).foldl (fun t b => match t.fw.delivery with
    | some d => if d.present.contains b then t else checkBlock t d b
    | none => t) (setDelivery s (some d1))

/-- A delivery is discarded; a verification of it that was still to answer ends with ST_CONFLICT and outcome 4, discarded (R108,
R186, R188; DESIGN CHOICE, log 59: the spec gives that background entry no status). -/
def discardDelivery (s : State) : State :=
  match s.fw.delivery with
  | some d =>
    let s1 := match d.origin with
      | some o => background s o stConflict ([4, 1] ++ leBytes 2 d.version.toNat ++ leBytes 2 (imageVersion s))
      | none => s
    setDelivery s1 none
  | none => s

def beginBody (r : Request) (s : State) : Reply :=
  let size := r.arg 16 4
  let blocks := r.arg 20 2
  let version : W16 := BitVec.ofNat 16 (r.arg 22 2)
  let e : Nat := r.ep
  if !sizeOk size ∨ blocks ≠ size / 4096 then Reply.no stBadArg
  else
    match aesUnwrap s.fuses.uniqueKey (r.argBytes 24 48) with
    | none => Reply.no stBadArg
    | some key =>
      if s.boot.stage = 0x8 ∧ e = 5 then Reply.no stUnsupported
      else if s.fw.hand.isSome ∨ s.fw.booting ∨ s.fw.delivery.any (fun d => d.ep != e) then Reply.no stBusy
      else
        { detail := some (leBytes 2 version.toNat ++ leBytes 2 blocks)
          commit := fun _ s => setDelivery (discardDelivery s) (some { ep := e, size := size, blocks := blocks, version := version, key := key }) }

def cmdFwBegin : Cmd :=
  { code := 0x1600, stage := 1, recovery := true, layout := fun _ => [(16, 4), (20, 2), (22, 2), (24, 48)], body := beginBody }
def execFwBegin (r : Request) (s : State) : Res := .next (serveRow cmdFwBegin r s)

def blockBody (r : Request) (s : State) : Reply :=
  let b := r.arg 16 2
  let f := r.arg 18 1
  if 448 ≤ b ∨ 64 ≤ f then Reply.no stBadArg
  else
    match s.fw.delivery with
    | none => Reply.no stConflict
    | some d =>
      if d.blocks ≤ b then Reply.no stBadArg
      else if d.ep ≠ (r.ep : Nat) ∧ d.phase ≠ .verified then Reply.no stBusy
      else if d.phase ≠ .receiving then Reply.no stConflict
      else
        { commit := fun _ s =>
            if d.present.contains b then s
            else takeFragment s { d with checks := tput d.checks b (BitVec.ofNat 32 (r.arg 20 4)) } b f (r.argBytes 24 64) }

def cmdFwBlock : Cmd :=
  { code := 0x1601, stage := 1, recovery := true, layout := fun _ => [(16, 2), (18, 1), (20, 4), (24, 64)], body := blockBody }
def execFwBlock (r : Request) (s : State) : Res := .next (serveRow cmdFwBlock r s)

/-! ### Verification (R79, R187, R542, R546) -/

/-- Detail of the update commands: outcome, source, new and old version (R162). -/
def fwDetail (outcome source : Byte) (new old : Nat) : List Byte := [outcome, source] ++ leBytes 2 new ++ leBytes 2 old

def verifyBody (r : Request) (s : State) : Reply :=
  let _ := r
  if s.fw.hand.isSome then Reply.no stBusy
  else
    match s.fw.delivery with
    | none => Reply.no stConflict
    | some d =>
      if d.phase = .verifying then Reply.no stBusy
      else if d.phase ≠ .receiving ∨ !d.whole then Reply.no stConflict
      else
        { status := stAccepted, detail := some (fwDetail 0 1 d.version.toNat (imageVersion s))
          commit := fun o s => setDelivery s (some { d with phase := .verifying, origin := some o }) }

def cmdFwVerify : Cmd := { code := 0x1602, stage := 1, recovery := true, body := verifyBody }
def execFwVerify (r : Request) (s : State) : Res := .next (serveRow cmdFwVerify r s)

/-- The steward watchdog is restarted (R61). -/
def kickWatchdog (s : State) : State := { s with svc := { s.svc with kick := s.time.elapsed } }

/-- The boot ROM starts an image, which selects its settings (R79, R138). -/
def startImage (s : State) (i : ImageInfo) : State :=
  selectSettings (setFw (kickWatchdog s) { s.fw with image := some i, booting := true, delivery := none })

/-- What verification finds: status and outcome (R546). -/
def verdict (s : State) (d : Delivery) (l : List Byte) : W16 × Byte :=
  if !signatureOk l then (stBadArg, 1)
  else if !imageHeaderOk s d l then (stBadArg, 4)
  else if !byRom s && s.fw.image.any (fun i => i.iface != (headerInfo l).iface) then (stConflict, 4)
  else (stOk, 0)

/-- FW_VERIFY_COMPLETE: the background entry; at boot a good image starts and any failure leads to ROM recovery, in stage 3
a good image is staged and a bad one discarded (R79, R94, R187, R544, R546). -/
def execFwVerifyComplete (s : State) : Res :=
  .next (match s.fw.delivery with
    | some d =>
      if d.phase ≠ .verifying then s
      else
        let l := imageBytes (if byRom s then s.fw.running else s.fw.alternate) d.blocks
        let v := verdict s d l
        let s1 := match d.origin with
          | some o => background s o v.1 (fwDetail v.2 1 d.version.toNat (imageVersion s))
          | none => s
        if byRom s then
          let s2 := setDelivery s1 none
          if stopped s then s2
          else if v.2 = 0 then startImage s2 (headerInfo l)
          else if s.boot.stage = 1 then enterRecovery s2 3
          else s2
        else if v.2 = 0 then setDelivery s1 (some { d with phase := .verified, key := [], origin := none })
        else setDelivery s1 none
    | none => s)

/-! ### The boot confirmation (R80, R94, R138) -/

/-- Stage 2 begins: the settings that apply there, and an attempt on every port (R81, R135, R385). -/
def enterStage2 (s : State) : State :=
  let s1 := applySettings (endBoundary (endTests { s with boot := { s.boot with stage := 2, recovery := 0 } }))
  (List.range 20).foldl attempt s1

/-- The entry of the image's own command (R120, R162). -/
def imageEntry (s : State) (cmd : W16) (detail : List Byte) : State :=
  append s { srcFa := s.fa, ep := 0x08, cmd := cmd, detail := padTo 8 detail }

/-- The image confirms at boot: the count is 0, banks of other schemas go, and stage 2 begins; leaving ROM recovery
completes no stage (R72, R80, R94). -/
def confirmBoot (s : State) : State :=
  match s.fw.image with
  | some i =>
    let s1 := discardBanks (setFw { s with aon := { s.aon with failed := 0 } } { s.fw with booting := false })
    let s2 := imageEntry s1 0x1604 (fwDetail 0 0 i.version.toNat 0)
    enterStage2 (if s.boot.stage = 1 then stageEvent s2 1 false else s2)
  | none => s

/-- BOOT_CONFIRM_TIMEOUT: the boot ROM discards the image; in stage 1 this counts, and the second time leads to ROM recovery
(R80, R94, R561). -/
def execBootConfirmTimeout (s : State) : Res :=
  .next (
    if !s.fw.booting then s
    else
      let s1 := dropImage s
      if s.boot.stage ≠ 1 then s1
      else
        let n := min 2 (s.aon.failed + 1)
        let s2 := { s1 with aon := { s1.aon with failed := n } }
        if n = 2 then enterRecovery s2 2 else s2)

/-! ### The handover (R548 to R559) -/

def setHand (s : State) (h : Option Handover) : State := setFw s { s.fw with hand := h }

/-- A key's committed value as a number of ms. -/
def confirmWindow (s : State) : Nat := settingValue s 0x0001

/-- Background work that only firmware carries forward (R548). -/
def firmwareWork (s : State) : Bool :=
  s.fabric.last.origin.isSome || s.fabric.gangs.any (fun g => g.origin.isSome) || s.time.nominated.isSome
  || (List.range 20).any (fun q => (s.port q).retrain != []) || s.fw.delivery.any (fun d => d.phase == .verifying)

def handoverBody (r : Request) (s : State) : Reply :=
  let w := r.arg 16 4
  if w ≠ 0 ∧ (w < 100 ∨ 30000 < w) then Reply.no stBadArg
  else if s.fw.hand.isSome then Reply.no stBusy
  else
    match s.fw.delivery, s.fw.image with
    | some d, some old =>
      if d.phase ≠ .verified ∨ !s.settings.pending.isEmpty then Reply.no stConflict
      else if firmwareWork s then Reply.no stBusy
      else
        let new := headerInfo (tget [] s.fw.alternate 0)
        { status := stAccepted, detail := some (fwDetail 0 1 new.version.toNat old.version.toNat)
          commit := fun o s => setHand (setDelivery s none)
            (some { window := if w = 0 then confirmWindow s else w, old := old, new := new, origin := o }) }
    | _, _ => Reply.no stConflict

def cmdFwHandover : Cmd := { code := 0x1603, stage := 3, layout := fun _ => [(16, 4)], body := handoverBody }
def execFwHandover (r : Request) (s : State) : Res := .next (serveRow cmdFwHandover r s)

/-- A normal command that has not committed ends with a status and no effect; a seizure that it began is undone (R65,
R116). -/
def dropNormal (s : State) (st : W16) : State :=
  match s.svc.normal with
  | none => s
  | some k =>
    if k.ledger.isSome then s
    else
      let s1 := match s.seize with | some z => if z.urgent then s else undoSeizure z s | none => s
      finishLate s1 false st (some [])

/-- HANDOVER_PAUSE_BEGIN: the pause of a handover, or of its fall-back, begins (R549, R556). -/
def execHandoverPauseBegin (s : State) : Res :=
  .next (match s.fw.hand with
    | some h =>
      if h.phase = .accepted then dropNormal (setHand s (some { h with phase := .exchanging })) stHandover
      else if h.phase = .falling then dropNormal (setHand s (some { h with phase := .restoring })) stHandover
      else s
    | none => s)

/-- Blocks 16 to the last of the longer image change places (R549). -/
def exchange (s : State) (h : Handover) : State :=
  let last := max h.old.size h.new.size / 4096
  let moved := fun (e : Nat × List Byte) => 16 ≤ e.1 && e.1 < last
  let put := fun (t u : Tab (List Byte)) => (u.filter moved).foldl (fun w e => tput w e.1 e.2) (t.filter (fun e => !moved e))
  setFw s { s.fw with running := put s.fw.running s.fw.alternate, alternate := put s.fw.alternate s.fw.running }

/-- The bank that the new image translated is retired (R559). -/
def retireTranslated (s : State) (h : Handover) : State :=
  if h.new.schema = h.old.schema then s
  else setSettings s { s.settings with banks := s.settings.banks.filter (fun b => b.schema != h.new.schema) }

/-- The handover is over with its background entry (R188, R554, R556). -/
def endHandover (s : State) (h : Handover) (outcome source : Byte) : State :=
  background (setHand s none) h.origin stOk (fwDetail outcome source h.new.version.toNat h.old.version.toNat)

/-- EXCHANGE_COMPLETE: the new image starts, selects its settings and ends the pause; at a fall-back the old image does, and
appends the entry of the handover; what waited for the end of the pause follows (R550 to R552, R556, R559). -/
def execExchangeComplete (s : State) : Res :=
  .next (match s.fw.hand with
    | some h =>
      let cleared := fun (t : State) => setSettings t { t.settings with pending := [] }
      if h.phase = .exchanging then
        let s1 := cleared (exchange s h)
        let s2 := selectSettings (setFw s1 { s1.fw with image := some h.new })
        resumeReruns (setHand (kickWatchdog s2) (some { h with phase := .started, start := s.time.elapsed }))
      else if h.phase = .restoring then
        let s1 := retireTranslated (cleared (exchange s h)) h
        let s2 := selectSettings (setFw (kickWatchdog { s1 with svc := { s1.svc with paused := false } }) { s1.fw with image := some h.old })
        endHandover (resumeReruns (setHand s2 none)) h h.back.1 h.back.2
      else s
    | none => s)

/-- START_CHECKS_PASS: the new image awaits confirmation (R553). -/
def execStartChecksPass (s : State) : Res :=
  .next (match s.fw.hand with
    | some h => if h.phase = .started then setHand s (some { h with phase := .awaiting, passed := true }) else s
    | none => s)

/-- A confirmation of the new image (R554). -/
def confirmHandover (s : State) (h : Handover) : State :=
  endHandover (discardBanks { s with aon := { s.aon with failed := 0 } }) h 0 1

/-- SELF_CONFIRM: the new image confirms itself (R553, R554). -/
def execSelfConfirm (s : State) : Res :=
  .next (match s.fw.hand with
    | some h =>
      if h.phase = .awaiting then
        confirmHandover (imageEntry s 0x1604 (fwDetail 0 0 h.new.version.toNat h.old.version.toNat)) h
      else s
    | none => s)

/-- A fall-back; one that counts raises the count, and at 2 a warm reset starts instead.  Before the exchange there is nothing
to exchange back (R555, R556, R557). -/
def fallBack (s : State) (h : Handover) (outcome source : Byte) (counts : Bool) : State :=
  let n := if counts then min 2 (s.aon.failed + 1) else s.aon.failed
  let s1 := { s with aon := { s.aon with failed := n } }
  if counts && n == 2 then innerReset s1 3
  else if h.phase = .accepted then endHandover s1 h outcome source
  else setHand s1 (some { h with phase := .falling, back := (outcome, source) })

/-- The new image runs. -/
def newRuns (h : Handover) : Bool := h.phase == .started || h.phase == .awaiting

/-- CONFIRM_WINDOW_END (R555). -/
def execConfirmWindowEnd (s : State) : Res :=
  .next (match s.fw.hand with
    | some h => if newRuns h then fallBack s h 2 0 true else s
    | none => s)

def confirmBody (r : Request) (s : State) : Reply :=
  let _ := r
  match s.fw.hand with
  | some h =>
    if h.phase = .awaiting then
      { detail := some (fwDetail 0 1 h.new.version.toNat h.old.version.toNat), commit := fun _ s => confirmHandover s h }
    else Reply.no stConflict
  | none => Reply.no stConflict

def cmdFwConfirm : Cmd := { code := 0x1604, stage := 3, body := confirmBody }

/-- FW.CONFIRM: the image's own at boot, or one from a mailbox (R80, R188). -/
def execFwConfirm (byImage : Bool) (r : Request) (s : State) : Res :=
  .next (
    if byImage then (if s.fw.booting && !stopped s && !s.svc.paused then confirmBoot s else s)
    else serveRow cmdFwConfirm r s)

def abortBody (r : Request) (s : State) : Reply :=
  let _ := r
  match s.fw.hand with
  | some h =>
    if h.phase = .awaiting then
      { detail := some (fwDetail 3 1 h.new.version.toNat h.old.version.toNat), commit := fun _ s => fallBack s h 3 1 false }
    else Reply.no stConflict
  | none =>
    match s.fw.delivery with
    | some d => { detail := some (fwDetail 4 1 d.version.toNat (imageVersion s)), commit := fun _ s => discardDelivery s }
    | none => Reply.no stConflict

def cmdFwAbort : Cmd := { code := 0x1605, stage := 1, recovery := true, body := abortBody }

/-- FW.ABORT: the new image's own, which counts a failed confirmation, or one from a mailbox (R188, R555). -/
def execFwAbort (byImage : Bool) (r : Request) (s : State) : Res :=
  .next (
    if byImage then
      match s.fw.hand with
      | some h =>
        if newRuns h then
          fallBack (imageEntry s 0x1605 (fwDetail 3 0 h.new.version.toNat h.old.version.toNat)) h 3 0 true
        else s
      | none => s
    else serveRow cmdFwAbort r s)

/-- The state that FW.STATUS reports (R188, the text before R548). -/
def fwState (s : State) : Nat :=
  match s.fw.hand with
  | some h => if h.passed then 6 else 5
  | none =>
    match s.fw.delivery with
    | none => 0
    | some d => match d.phase with
      | .receiving => if d.whole then 2 else 1
      | .verifying => 3
      | .verified => 4

/-- The endpoint to which a delivery is bound. -/
def boundEp (s : State) : Nat := match s.fw.delivery with | some d => d.ep | none => 0xFF

/-- The missing blocks of the delivery. -/
def missingBlocks (s : State) : List Nat :=
  match s.fw.delivery with
  | some d => (numbers 0 d.blocks).filter (fun b => !d.present.contains b)
  | none => []

def presentBlocks (s : State) : Nat := match s.fw.delivery with | some d => d.present.length | none => 0

def fwStatusResult (s : State) : List Byte :=
  [byte (fwState s), byte (boundEp s)] ++ leBytes 2 (match s.fw.delivery with | some d => d.blocks | none => 0)
    ++ leBytes 2 (presentBlocks s) ++ [0, 0] ++ leBytes 56 (maskOf (missingBlocks s))

def cmdFwStatus : Cmd := { code := 0x1606, stage := 1, recovery := true, body := fun _ s => Reply.data (fwStatusResult s) }
def execFwStatus (r : Request) (s : State) : Res := .next (serveRow cmdFwStatus r s)

end Sys2Proof.Machine
end

