-- ==== Sys2Proof/Machine/Gangs.lean ====
section
/-! DEFINITION. Gangs: formation and dissolution, gang barriers, beats, and the halt of a gang (R156 to R160, R419 to R422,
R463, R464). -/

namespace Sys2Proof.Machine

/-! ### Gangs of this chiplet -/

/-- The records of a gang: one for each basin of this chiplet that is a member (R156). -/
def sameGang (s : State) (master : W16) (num : Byte) : List Gang := s.fabric.gangs.filter (fun g => g.master == master && g.num == num)
/-- Act on the records of a gang that stand in a phase. -/
def onGang (s : State) (master : W16) (num : Byte) (p : GangPhase → Bool) (f : State → Gang → State) : State :=
  ((sameGang s master num).filter (fun g => p g.phase)).foldl f s
/-- The first record; on the master its own, which alone names the members. -/
def findGang (s : State) (master : W16) (num : Byte) : Option Gang := s.fabric.gangs.find? (fun g => g.master == master && g.num == num)
def addGang (s : State) (g : Gang) : State := { s with fabric := { s.fabric with gangs := s.fabric.gangs ++ [g] } }
def dropGang (s : State) (g : Gang) : State :=
  { s with fabric := { s.fabric with gangs := s.fabric.gangs.filter (fun x => x != g) } }

/-- Members other than the master, by index. -/
def otherMembers (g : Gang) : List (Nat × GangMember) := (g.members.zipIdx.map (fun e => (e.2, e.1))).drop 1

/-- A message to a member or to the master. -/
def tellMember (g : Gang) (m : GangMsg) (s : State) (e : Nat × GangMember) : State := s.emit (.gang e.2.fa g.master g.num m)
def tellAll (s : State) (g : Gang) (m : GangMsg) : State := (otherMembers g).foldl (tellMember g m) s
def tellMaster (s : State) (g : Gang) (m : GangMsg) : State := s.emit (.gang g.master g.master g.num m)

/-- Detail of the entries of GANG.FORM and GANG.DISSOLVE (R128). -/
def formDetail (g : Gang) (failing : Nat) : List Byte :=
  [g.num, g.kind, byte g.members.length, byte failing] ++ leBytes 2 g.master.toNat ++ [byte g.basin, 0]
def dissolveDetail (g : Gang) (missed : Nat) : List Byte := [g.num, 0] ++ leBytes 2 g.master.toNat ++ [byte missed]

/-- A member's own entry, as its membership becomes active and as it ends (R157, R159). -/
def memberEntry (s : State) (g : Gang) (cmd : W16) (detail : List Byte) : State :=
  appendLater s { srcFa := s.fa, ep := 0x08, cmd := cmd, tenant := g.tenant, detail := padTo 8 detail }

/-! ### GANG.FORM (R156 to R158) -/

def formMembers (r : Request) : List GangMember :=
  (List.range (r.arg 18 1)).map (fun i => ⟨BitVec.ofNat 16 (r.arg (24 + 4 * i) 2), byte (r.arg (26 + 4 * i) 1)⟩)

/-- The rectangle that a basin has or, seized, had. -/
def basinRect (v : Basin) : Rect := if v.state = .seized then v.former else v.rect

def formBody (r : Request) (s : State) : Reply :=
  let num := r.arg 16 1
  let kind := r.arg 17 1
  let n := r.arg 18 1
  let t : W16 := BitVec.ofNat 16 (r.arg 20 2)
  let l := formMembers r
  let own : GangMember := l.headD ⟨0, 0⟩
  let b := own.basin.toNat
  let g : Gang := { num := byte num, master := s.fa, kind := byte kind, tenant := t, basin := b, members := l, phase := .forming }
  if 15 < num ∨ 2 < kind ∨ n < 2 ∨ 16 < n ∨ own.fa ≠ s.fa ∨ l.eraseDups.length ≠ l.length ∨ l.any (fun m => 31 < m.basin.toNat)
      ∨ (List.range n).any (fun i => r.arg (27 + 4 * i) 1 != 0) then Reply.no stBadArg
  else if (findGang s s.fa (byte num)).isSome ∨ !exists_ s b ∨ (s.basin b).tenant ≠ t ∨ (gangOf s b).isSome
      ∨ 16 ≤ s.fabric.gangs.length then Reply.no stConflict
  else if l.any (fun m => !reachable s m.fa) then Reply.no stUnreachable
  else
    { status := stAccepted, detail := some (formDetail g 0xFF)
      commit := fun o u =>
        let v := u.basin b
        let q := basinRect v
        tellAll (addGang u { g with origin := some o }) g
          (.join g.kind g.tenant (byte b) (byte q.w) (byte q.h) (if v.lattice then 1 else 0)) }

def cmdGangForm : Cmd :=
  { code := 0x0502, stage := 3, layout := fun r => [(16, 1), (17, 1), (18, 1), (20, 2), (24, 4 * r.arg 18 1)], body := formBody }
def execGangForm (r : Request) (s : State) : Res := .next (serveRow cmdGangForm r s)

/-- The background entry of the command that a gang carries out on its master. -/
def endGangCommand (s : State) (g : Gang) (st : W16) (detail : List Byte) : State :=
  match g.origin with
  | some o => background s o st detail
  | none => s

/-- The gang ends unformed: ABORT goes to every other member (R158). -/
def abortGang (s : State) (g : Gang) (st : W16) (failing : Nat) : State :=
  endGangCommand (dropGang (tellAll s g .abort) g) g st (formDetail g failing)

/-- The gang's members are told to leave (R158, R159). -/
def leaveGang (s : State) (g : Gang) (o : Option Origin) : State :=
  tellAll (setGang s g { g with phase := .leaving, acked := [], origin := o }) g .leave

/-- GANG_JOIN at a member (R157). -/
def execGangJoin (master : W16) (gang : Byte) (kind : Byte) (tenant : W16) (basin : Fin 32) (width height mode : Byte)
    (s : State) : Res :=
  let b : Nat := basin
  let v := s.basin b
  let q := basinRect v
  let fits := kind != 2 || (q.w == width.toNat && q.h == height.toNat && v.lattice == (mode == 1))
  let ok := exists_ s b && v.tenant == tenant && (gangOf s b).isNone && s.fabric.gangs.length < 16 && fits
  let g : Gang := { num := gang, master := master, kind := kind, tenant := tenant, basin := b, phase := .tentative }
  .next (tellMaster (if ok then addGang s g else s) g (.reply (byte b) ok))

/-- GANG_JOIN_REPLY at the master: COMMIT once every member has accepted, ABORT at the first refusal (R158). -/
def execGangJoinReply (gang : Byte) (member : Byte) (accept : Bool) (s : State) : Res :=
  .next (match findGang s s.fa gang with
    | some g =>
      if g.phase ≠ .forming ∨ member = 0 ∨ g.members.length ≤ member.toNat then s
      else if !accept then abortGang s g stConflict member.toNat
      else
        let l := if g.replied.contains member.toNat then g.replied else g.replied ++ [member.toNat]
        if l.length + 1 = g.members.length then tellAll (setGang s g { g with replied := l, phase := .committed }) g .commit
        else setGang s g { g with replied := l }
    | none => s)

/-- GANG_COMMIT at a member: it becomes active, records it and acknowledges (R157, R158). -/
def execGangCommit (master : W16) (gang : Byte) (s : State) : Res :=
  .next (onGang s master gang (· == .tentative) (fun t g =>
    let g' := { g with phase := .active, beats := [(0, s.time.elapsed)] }
    tellMaster (memberEntry (setGang t g g') g' 0x0502 (formDetail g' 0xFF)) g' (.ack (byte g'.basin))))

/-- A tentative membership is dropped with no entry (R157). -/
def dropTentative (s : State) (master : W16) (gang : Byte) : State :=
  onGang s master gang (· == .tentative) dropGang

/-- GANG_ABORT at a member (R157). -/
def execGangAbort (master : W16) (gang : Byte) (s : State) : Res := .next (dropTentative s master gang)
/-- GANG_TENTATIVE_EXPIRY: 10 ms after the reply (R157). -/
def execGangTentativeExpiry (master : W16) (gang : Byte) (s : State) : Res := .next (dropTentative s master gang)

/-- GANG_COMMIT_ACK at the master: the gang is active once every member has acknowledged (R158). -/
def execGangCommitAck (gang : Byte) (member : Byte) (s : State) : Res :=
  .next (match findGang s s.fa gang with
    | some g =>
      if g.phase ≠ .committed ∨ member = 0 ∨ g.members.length ≤ member.toNat then s
      else
        let l := if g.acked.contains member.toNat then g.acked else g.acked ++ [member.toNat]
        if l.length + 1 = g.members.length then
          let g' := { g with phase := .active, acked := [], origin := none, beats := l.map (fun m => (m, s.time.elapsed)) }
          endGangCommand (setGang s g g') g stOk (formDetail g 0xFF)
        else setGang s g { g with acked := l }
    | none => s)

/-- The first member that has not answered. -/
def firstMissing (g : Gang) (l : List Nat) : Nat :=
  match (otherMembers g).find? (fun e => !l.contains e.1) with
  | some e => e.1
  | none => 0xFF

/-- GANG_REPLY_DEADLINE: 2 ms after the joins, or after COMMIT (R158). -/
def execGangReplyDeadline (gang : Byte) (s : State) : Res :=
  .next (match findGang s s.fa gang with
    | some g =>
      if g.phase = .forming then abortGang s g stUnreachable (firstMissing g g.replied)
      else if g.phase = .committed then
        leaveGang (endGangCommand s g stUnreachable (formDetail g (firstMissing g g.acked))) g none
      else s
    | none => s)

/-! ### GANG.DISSOLVE (R159, R160, R463) -/

/-- The gang barriers of a master's basin: every waiting gbar ends with GANG_LOST, and nobody has arrived (R463); the number
woken with it. -/
def loseBarriers (s : State) (b : Nat) : State × Nat :=
  let l := (List.range 128).filter (fun g => (s.gate g).kind == .barrier && (s.gate g).basin == some b)
  l.foldl (fun (t : State × Nat) g =>
    let k := t.1.gate g
    let n := k.waiters.length
    let u := t.1.setGate g { k with value := barrierValue (barrierParties k.value) 0 (barrierGen k.value) }
    (wake u g (fun _ => true) (fun w => failWord w.op.toNat gsGangLost), t.2 + n)) (s, 0)

/-- GANG.DISSOLVE.  DESIGN CHOICE (log 57): on a master whose gang is leaving already it completes with ST_BUSY, as while the
gang is being formed; R159 is silent there. -/
def dissolveBody (r : Request) (s : State) : Reply :=
  let m : W16 := BitVec.ofNat 16 (r.arg 18 2)
  if 15 < r.arg 16 1 then Reply.no stBadArg
  else match findGang s m (byte (r.arg 16 1)) with
    | none => Reply.no stConflict
    | some g =>
      if m = s.fa then
        if g.phase = .forming ∨ g.phase = .committed ∨ g.phase = .leaving then Reply.no stBusy
        else
          { status := stAccepted, detail := some (dissolveDetail g 0)
            commit := fun o t => leaveGang (if g.phase = .active then (loseBarriers t g.basin).1 else t) g (some o) }
      else if g.phase ≠ .halted then Reply.no stConflict
      else
        { status := stAccepted, detail := some (dissolveDetail g 0)
          commit := fun o t => background (onGang t m g.num (· == .halted) dropGang) o stOk (dissolveDetail g 0) }

def cmdGangDissolve : Cmd := { code := 0x0503, stage := 3, layout := fun _ => [(16, 1), (18, 2)], body := dissolveBody }
def execGangDissolve (r : Request) (s : State) : Res := .next (serveRow cmdGangDissolve r s)

/-- GANG_LEAVE at a member (R159). -/
def execGangLeave (master : W16) (gang : Byte) (s : State) : Res :=
  .next (((sameGang s master gang).filter (fun g => g.members.isEmpty)).foldl (fun t g =>
    if g.phase = .active ∨ g.phase = .halted then
      tellMaster (memberEntry (dropGang t g) g 0x0503 (dissolveDetail g 0)) g (.leaveAck (byte g.basin))
    else if g.phase = .tentative then tellMaster (dropGang t g) g (.leaveAck (byte g.basin))
    else t) s)

/-- The dissolution ends on the master with the members that were not reached (R159). -/
def endLeave (s : State) (g : Gang) (missed : Nat) : State := endGangCommand (dropGang s g) g stOk (dissolveDetail g missed)

/-- GANG_LEAVE_ACK at the master (R159). -/
def execGangLeaveAck (gang : Byte) (member : Byte) (s : State) : Res :=
  .next (match findGang s s.fa gang with
    | some g =>
      if g.phase ≠ .leaving ∨ member = 0 ∨ g.members.length ≤ member.toNat then s
      else
        let l := if g.acked.contains member.toNat then g.acked else g.acked ++ [member.toNat]
        if l.length + 1 = g.members.length then endLeave s g 0 else setGang s g { g with acked := l }
    | none => s)

/-- GANG_LEAVE_DEADLINE: 2 ms after the LEAVEs (R159). -/
def execGangLeaveDeadline (gang : Byte) (s : State) : Res :=
  .next (match findGang s s.fa gang with
    | some g => if g.phase = .leaving then endLeave s g (g.members.length - 1 - g.acked.length) else s
    | none => s)

/-! ### Barriers, beats and the halt (R420 to R422, R463, R464) -/

/-- An operation of this chiplet waits at gate `gate` of chiplet `master` for the release of a barrier. -/
def awaitsRelease (master : W16) (gate : Fin 128) (o : GateOp) : Bool :=
  o.op == 0x06 && o.remote && o.result.isNone && o.fa == master && o.gate.toNat == (gate : Nat)

/-- GANG_BARRIER_RELEASE: the release of a gang barrier of chiplet `master` comes with its edge: every gbar of this chiplet that
waits there has its result, which is written at the edge, or now if the edge has passed (R420, R463).  The master's own waiters
have theirs with the last arrival. -/
def execGangBarrierRelease (master : W16) (gate : Fin 128) (edge : W64) (s : State) : Res :=
  let l := ((s.die.cores.flatMap (fun e => e.2.gops)) ++ s.die.basins.flatMap (fun e => e.2.saved.flatMap (fun v => v.core.gops))).filter
    (awaitsRelease master gate)
  .next (l.foldl (fun t o => deliverHere t o.tag (plainStatus gsOk) (some edge)) s)

/-- GANG_BEAT: the master's timer sends a beat to every member; a beat that comes is recorded and answered; an answer that comes
to the master is recorded (R421). -/
def execGangBeat (master : W16) (gang : Byte) (answer : Option Byte) (s : State) : Res :=
  .next (match answer with
    | some m => onGang s master gang (· == .active) (fun t g =>
        if master = s.fa ∧ 0 < m.toNat ∧ m.toNat < g.members.length then
          setGang t g { g with beats := g.beats.filter (fun e => e.1 != m.toNat) ++ [(m.toNat, s.time.elapsed)] }
        else t)
    | none => onGang s master gang (· == .active) (fun t g =>
        if !g.members.isEmpty then tellAll t g .beat
        else tellMaster (setGang t g { g with beats := [(0, s.time.elapsed)] }) g (.beatAnswer (byte g.basin))))

/-- The time without a beat or an answer that makes a chiplet lost: 25 ms (R421). -/
def beatLimit : Nat := 25000000

/-- Nothing has come of party `m` for that time. -/
def silent (s : State) (g : Gang) (m : Nat) : Bool := (g.beats.filter (fun e => e.1 == m)).all (fun e => e.2 + beatLimit ≤ s.time.elapsed)

/-- An outstanding operation depends on the lost chiplet, or waits on a gang barrier of the master (R464). -/
def dependsOn (g : Gang) (lost : W16) (o : GateOp) : Bool :=
  o.result.isNone && o.remote && (o.fa == lost || (o.op == 0x06 && o.fa == g.master))

/-- The gang halts here: what depends on the lost chiplet ends with GANG_LOST, its basin's cores stop with their state held,
locks of the lost chiplet become ORPHANED, and the event is recorded (R422, R456, R463, R464). -/
def haltGang (s : State) (g : Gang) (side : Byte) (lost : W16) : State :=
  let nodes := if (s.basin g.basin).state = .active then basinCores s g.basin else []
  let ops := fun (c : Core) => (c.gops.filter (dependsOn g lost)).length
  let lose := fun (c : Core) => { c with gops := c.gops.map (fun o => if dependsOn g lost o then { o with result := some (failWord o.op.toNat gsGangLost) } else o) }
  let woken := ((nodes.map (fun n => ops (s.core n))).sum) + (((s.basin g.basin).saved.map (fun v => ops v.core)).sum)
  let s1 := nodes.foldl (fun t n => t.modCore n lose) s
  let s2 := s1.modBasin g.basin (fun v => { v with saved := v.saved.map (fun e => { e with core := lose e.core }) })
  let run := nodes.filter (fun n => (s.core n).run == .running)
  let s3 := settleReads (run.foldl (fun t n => stopCore t n .stopped) s2)
  let k := if lost = 0xFFFF then (s3, 0) else orphanAll s3 (fun h => h.fa == lost)
  let s4 := if lost = 0xFFFF then k.1 else
    (List.range 128).foldl (fun t i => t.setGate i { t.gate i with waiters := (t.gate i).waiters.filter (fun w => w.fa != lost) }) k.1
  let x := if g.master = s.fa then loseBarriers s4 g.basin else (s4, 0)
  event (setGang x.1 g { g with phase := .halted }) 0xE043
    ([g.num, side] ++ leBytes 2 g.master.toNat ++ leBytes 2 lost.toNat ++ [byte k.2, byte (woken + x.2)])

/-- GANG_LOST: 25 ms without a beat from the master, or without an answer from a member; every member basin of the gang on this
chiplet halts (R421, R422). -/
def execGangLost (master : W16) (gang : Byte) (lost : W16) (s : State) : Res :=
  .next (onGang s master gang (· == .active) (fun t g =>
    if master = s.fa then
      if (otherMembers g).any (fun e => e.2.fa == lost && silent s g e.1) then
        (otherMembers g).foldl (fun u e => if e.2.fa = lost then u else tellMember g (.halt lost) u e) (haltGang t g 1 lost)
      else t
    else if silent s g 0 then haltGang t g 0 master else t))

/-- GANG_HALT from the master (R422). -/
def execGangHalt (master : W16) (gang : Byte) (lost : W16) (s : State) : Res :=
  .next (onGang s master gang (· == .active) (fun t g => if g.members.isEmpty then haltGang t g 2 lost else t))

end Sys2Proof.Machine
end

