-- ==== Sys2Proof/Machine/Leat.lean ====
section
/-! DEFINITION. The leat chain on this chiplet: its states, frames forwarded or consumed, mastery, turning, EP4, image
delivery, and measurement sweeps with their records (R185, R521 to R540). -/

namespace Sys2Proof.Machine

def setLeat (s : State) (l : Leat) : State := { s with leat := l }
def modLeat (s : State) (f : Leat → Leat) : State := setLeat s (f s.leat)

/-- The frame logic serves (R48, R522). -/
def leatUp (s : State) : Bool := !s.boot.rstLow && !s.boot.dead

/-! ### Records (R534, R535) -/

def powerGroup (s : State) : List Byte :=
  if s.boot.stage ≠ 2 ∧ s.boot.stage ≠ 3 then List.replicate 8 0
  else (estimResult s.head).take 4 ++ leBytes 2 (maskOf ((numbers 0 12).filter (fun k => (tget {} s.head.reasons k).active)))
    ++ leBytes 2 s.head.cap

/-- The hottest point and its reading: the lowest point at the highest reading. -/
def hottest (h : Head) : Nat × Int :=
  (numbers 1 71).foldl (fun (m : Nat × Int) k => if m.2 < usedTemp h k then (k, usedTemp h k) else m) (0, usedTemp h 0)

/-- The mean of points 0 to 63, rounded to nearest. -/
def meanTemp (h : Head) : Int := ((numbers 0 64).foldl (fun m k => m + usedTemp h k) 0 + 32) / 64

def failedPoints (h : Head) : Nat := (h.points.filter (fun e => e.2.failed)).length

def thermalGroup (s : State) : List Byte :=
  if s.head.points.isEmpty then List.replicate 8 0
  else
    let t := hottest s.head
    [byte t.1, BitVec.ofInt 8 t.2, BitVec.ofInt 8 (meanTemp s.head), byte (failedPoints s.head), byte (thermAlert s).toNat, 0, 0, 0]

def linksGroup (s : State) : List Byte :=
  let n := (List.range 20).foldl (fun m q => m + (s.port q).retrains.toNat) 0
  leBytes 4 (maskOf ((List.range 20).filter (portUp s))) ++ leBytes 2 (satTo 16 n) ++ [0, 0]

def ledgerGroup (s : State) : List Byte :=
  let count := fun (f : BasinState → Bool) => byte ((List.range 32).filter (fun b => f (s.basin b).state)).length
  leBytes 4 s.ledger.head.toNat ++ leBytes 2 (min 4096 s.ledger.undrained) ++ [count (· != .free), count (· == .seized)]

/-- Cores faulted in service. -/
def faultedNodes (s : State) : Nat := ((List.range 64).filter (fun n => s.node n == .faulted)).length

def faultsGroup (s : State) : List Byte :=
  leBytes 2 (satTo 16 s.leat.events) ++ leBytes 2 (satTo 16 s.leat.discards) ++ leBytes 2 (retiredSegs s).length
    ++ [byte (faultedNodes s), 0]

/-- The 64 bytes of a record of sequence `seq`. -/
def recordBytesOf (s : State) (seq : W16) (held : Bool) : List Byte :=
  let groups := s.leat.headSet &&& s.leat.set
  let fill := fun (i : Nat) (l : List Byte) => if bit groups.toNat i then l else List.replicate 8 0
  leBytes 2 seq.toNat ++ [ownSlot s, byte held.toNat] ++ leBytes 8 s.time.count.toNat ++ leBytes 4 groups.toNat
    ++ [s.boot.stage, byte s.head.op] ++ leBytes 2 s.fa.toNat ++ leBytes 4 (statusFlags s)
    ++ fill 0 (powerGroup s) ++ fill 1 (thermalGroup s) ++ fill 2 (linksGroup s) ++ fill 3 (ledgerGroup s) ++ fill 4 (faultsGroup s)

def recordFrame (s : State) (seq : W16) (bytes : List Byte) : TrainFrame :=
  { kind := 0x11, f := { addr := ownSlot s, tag := seq, body := padTo 64 bytes, ok := true } }

/-- A record is made: the counts since the last one start anew, and it is the newest of this chiplet's slot (R185, R535). -/
def makeRecord (s : State) (seq : W32) (held : Bool) (reach : Byte) : TrainFrame × State :=
  let q : W16 := seq.setWidth 16
  let b := recordBytesOf s q held
  (recordFrame s q b,
   modLeat s (fun l => { l with events := 0, discards := 0, table := tput l.table (ownSlot s).toNat ⟨seq, reach, b⟩ }))

/-! ### Sending and forwarding (R525) -/

def sendTrain (s : State) (t : TrainFrame) : State := leatSend s t.kind t.f.addr t.f.tag t.f.body

/-- The direction in which the chiplet passes frames on, 0 forward and 1 reverse. -/
def direction (l : Leat) : Byte := if l.state = .reverse then 1 else 0

/-- The other direction. -/
def opposite : LeatState → LeatState
  | .forward => .reverse
  | .reverse => .forward
  | .search => .search

/-- SWEEP_END of a train (R534). -/
def endFrame (addr : Byte) (tag : W16) (count : Nat) (cut returned : Bool) (flagging : Byte) : TrainFrame :=
  { kind := 0x12, f := { addr := addr, tag := tag, ok := true
                         body := padTo 64 (leBytes 2 count ++ [byte cut.toNat, byte returned.toNat, flagging]) } }

/-! ### The master's sweep (R533, R534, R537) -/

/-- The master sends SWEEP_HEAD and SWEEP_END, once it drives the pair (R528, R534). -/
def launch (s : State) : State :=
  let l := s.leat
  if !l.drive then modLeat s (fun l => { l with phase := .back })
  else
    let tag : W16 := l.seq.setWidth 16
    let head := leBytes 2 l.period ++ leBytes 4 l.set.toNat ++ [ownSlot s, direction l]
    let s1 := leatSend s 0x10 (ownSlot s) tag head
    let s2 := sendTrain s1 (endFrame (ownSlot s) tag 0 false false 0xFF)
    modLeat s2 (fun l => { l with phase := .pass, headBack := false, train := [] })

/-- A sweep begins: the count rises, and the master's own record is in it (R527, R534). -/
def beginSweep (s : State) : State :=
  let s1 := modLeat s (fun l => { l with seq := l.seq + 1, headSet := l.set, second := false, got := [(ownSlot s).toNat] })
  launch (makeRecord s1 s1.leat.seq false (direction s1.leat)).2

/-- A sweep is due: it starts, waits for the one in progress, or is skipped (R533). -/
def sweepDue (s : State) : State :=
  if s.leat.phase = .idle then beginSweep s else modLeat s (fun l => { l with waitSweep := true })

/-- The slots of the train that has come in get a reach (R537). -/
def reachTrain (s : State) (reach : Byte) : State :=
  let slots := s.leat.train.map (fun t => t.f.addr.toNat)
  modLeat s (fun l => { l with
    table := l.table.map (fun e => (e.1, if slots.contains e.1 then { e.2 with reach := reach } else e.2)) })

/-- The sweep is over; one that waits starts (R533, R537). -/
def finishSweep (s : State) : State :=
  let s1 := modLeat s (fun l => { l with phase := .idle, train := [], waitSweep := false })
  if s.leat.waitSweep then beginSweep s1 else s1

/-- Every slot with no record in this sweep is unreached (R537). -/
def markUnreached (s : State) : State :=
  modLeat s (fun l => { l with table := (numbers 0 16).foldl (fun t k =>
    if l.got.contains k then t else tput t k { tget ⟨0, 2, List.replicate 64 0⟩ t k with reach := 2 }) l.table })

/-- The master turns the ring: TURN goes out, and it receives on the pair that it drove (R529). -/
def turnRing (s : State) : State :=
  let s1 := leatSend s 0x02 (ownSlot s) 0 []
  modLeat s1 (fun l => { l with state := opposite l.state, drive := false, phase := .turning, train := [] })

/-- After a returned train, or the deadline for it: the sweep goes the other way, or it is over in the direction that the
master last drove (R537). -/
def afterTurn (s : State) : State :=
  if s.leat.second then
    finishSweep (markUnreached (modLeat s (fun l => { l with state := opposite l.state, drive := false })))
  else launch (modLeat s (fun l => { l with second := true }))

/-- A train has come in with its SWEEP_END (R536, R537). -/
def trainIn (s : State) (f : LeatFrame) : State :=
  let l := s.leat
  let cut := fieldAt f.body 2 1 == 1
  let returned := fieldAt f.body 3 1 == 1
  if l.phase = .pass then
    if returned then s
    else if cut || !l.headBack || fieldAt f.body 0 2 != l.train.length then turnRing s
    else finishSweep (reachTrain s (direction l))
  else if l.phase = .turning ∧ returned then
    afterTurn (reachTrain s (if l.state = .reverse then 0 else 1))
  else s

/-- The master keeps the newest record of each slot (R537). -/
def keepRecord (s : State) (f : LeatFrame) : State :=
  let k := f.addr.toNat
  modLeat s (fun l => { l with
    train := l.train ++ [{ kind := 0x11, f := f }], got := k :: l.got
    table := tput l.table k { seq := l.seq, reach := (tget ⟨0, 2, []⟩ l.table k).reach, bytes := padTo 64 f.body } })

/-- The master yields to a hub (R527). -/
def yieldMastery (s : State) : State :=
  modLeat s (fun l => { l with master := false, state := .search, drive := false, phase := .idle, waitSweep := false, train := []
                               inTrain := false, own := none, turned := false })

/-- What the master does with a frame, each of which it consumes (R525, R527). -/
def masterTakes (s : State) (kind : Byte) (f : LeatFrame) : State :=
  match kind.toNat with
  | 0x01 => if 16 ≤ f.addr.toNat ∧ f.addr.toNat ≤ 19 then yieldMastery s else s
  | 0x10 => if s.leat.phase = .pass then modLeat s (fun l => { l with headBack := true, train := [] }) else modLeat s (fun l => { l with train := [] })
  | 0x11 => keepRecord s f
  | 0x12 => trainIn s f
  | _ => s

/-! ### Receiving (R522, R523, R525) -/

/-- The state that a frame on a pair finds the chiplet in; none where it does not receive on that pair. -/
def receivingState (l : Leat) (on : LeatPair) : Option LeatState :=
  match l.state, on with
  | .search, .di => some .forward
  | .search, .dO => some .reverse
  | .forward, .di => some .forward
  | .reverse, .dO => some .reverse
  | _, _ => none

/-- A frame comes in: one that is not intact is discarded and counted; an intact one takes the chiplet out of SEARCH, ends its
wait at the end of the line, and is consumed by a master, else handled (R523, R525, R530).  A first half that waits is
discarded unless `halves` says that this is the second (R531). -/
def receive (s : State) (on : LeatPair) (kind : Byte) (f : LeatFrame) (halves : Bool) (handle : State → State) : State :=
  if !leatUp s then s
  else
    match receivingState s.leat on with
    | none => s
    | some st =>
      let s1 := if halves then s else modLeat s (fun l => { l with half := none })
      if !f.ok then modLeat s1 (fun l => { l with discards := l.discards + 1, half := none })
      else
        let s2 := modLeat s1 (fun l => { l with state := st, turned := false })
        if s2.leat.master then masterTakes s2 kind f else handle s2

/-- The frame goes on. -/
def forward (kind : Byte) (f : LeatFrame) (s : State) : State := sendTrain s { kind := kind, f := f }

/-! ### IDLE, TURN, TURNED (R526, R527, R529, R530) -/

/-- IDLE: forwarded; a master yields to one that names a hub slot. -/
def execIdle (on : LeatPair) (f : LeatFrame) (s : State) : Res := .next (receive s on 0x01 f false (forward 0x01 f))

/-- TURN: the die forwards it, releases its pair, drives the pair on which TURN came, and sends TURNED there (R529). -/
def execTurn (on : LeatPair) (f : LeatFrame) (s : State) : Res :=
  .next (receive s on 0x02 f false (fun s =>
    let s1 := modLeat (forward 0x02 f s) (fun l => { l with state := opposite l.state, turned := true })
    leatSend s1 0x03 (ownSlot s) 0 []))

/-- TURNED: consumed (R525, R529). -/
def execTurned (on : LeatPair) (f : LeatFrame) (s : State) : Res := .next (receive s on 0x03 f false id)

/-! ### Trains (R530, R534, R536) -/

/-- SWEEP_HEAD: the chiplet makes its record and forwards the frame; the head of a returned train, which names the other
direction, is only forwarded (R530, R534; DEDUCED, log 61). -/
def execSweepHead (on : LeatPair) (f : LeatFrame) (s : State) : Res :=
  .next (receive s on 0x10 f false (fun s =>
    let dir := byte (fieldAt f.body 7 1)
    if dir ≠ direction s.leat then forward 0x10 f s
    else
      let seq : W32 := f.tag.setWidth 32
      let s1 := modLeat s (fun l => { l with headPeriod := fieldAt f.body 0 2, headSet := BitVec.ofNat 32 (fieldAt f.body 2 4)
                                             lastSeq := seq, heldPeriods := 0 })
      let r := makeRecord s1 seq false dir
      forward 0x10 f (modLeat r.2 (fun l => { l with own := some r.1, inTrain := true, train := [{ kind := 0x10, f := f }] }))))

/-- RECORD: stored by a master; else forwarded, and part of the train that the chiplet sends (R534). -/
def execRecord (on : LeatPair) (f : LeatFrame) (s : State) : Res :=
  .next (receive s on 0x11 f false (fun s =>
    forward 0x11 f (if s.leat.inTrain then modLeat s (fun l => { l with train := l.train ++ [{ kind := 0x11, f := f }] }) else s)))

/-- The records that the chiplet adds to a train: those held, oldest first, then its new one; the first tells of records
dropped before it (R534, R538). -/
def addedRecords (l : Leat) : List TrainFrame :=
  let all := l.held ++ l.own.toList
  match all, l.dropped with
  | t :: r, true =>
    let b := t.f.body.set 3 (t.f.body.getD 3 0 ||| 0x02)
    { t with f := { t.f with body := b } } :: r
  | _, _ => all

/-- The chiplet completes its part of a train with the SWEEP_END given; it keeps a copy (R534). -/
def completeTrain (s : State) (e : Nat → TrainFrame) : State :=
  let add := addedRecords s.leat
  let fin := e add.length
  let s1 := sendTrain (add.foldl sendTrain s) fin
  modLeat s1 (fun l => { l with train := l.train ++ add ++ [fin], inTrain := false, own := none, held := [], dropped := false })

/-- The train that has come so far holds this many records. -/
def recordsIn (l : Leat) : Nat := (l.train.filter (fun t => t.kind == 0x11)).length

/-- SWEEP_END: the chiplet sends its records and then the frame with its count raised; the end of a returned train is only
forwarded (R530, R534). -/
def execSweepEnd (on : LeatPair) (f : LeatFrame) (s : State) : Res :=
  .next (receive s on 0x12 f false (fun s =>
    if !s.leat.inTrain || fieldAt f.body 3 1 == 1 then forward 0x12 f s
    else completeTrain s (fun n =>
      { kind := 0x12, f := { f with body := leBytes 2 (fieldAt f.body 0 2 + n) ++ slice f.body 2 62 } })))

/-- SWEEP_CUT_TIMEOUT: 20 µs without a frame before SWEEP_END, and the die completes the train as cut (R536). -/
def execSweepCutTimeout (s : State) : Res :=
  .next (
    if !leatUp s || s.leat.master || !s.leat.inTrain then s
    else completeTrain s (fun n =>
      endFrame (ownSlot s) (s.leat.lastSeq.setWidth 16) (recordsIn s.leat + n) true false (ownSlot s)))

/-- The copy of the last train as the end of the line sends it, or a SWEEP_END alone (R530). -/
def returnedTrain (s : State) : List TrainFrame :=
  match s.leat.train.getLast? with
  | some e =>
    if e.kind = 0x12 then
      s.leat.train.dropLast ++ [{ e with f := { e.f with body := slice e.f.body 0 3 ++ [1, ownSlot s] ++ slice e.f.body 5 59 } }]
    else [endFrame (ownSlot s) (s.leat.lastSeq.setWidth 16) 0 false true (ownSlot s)]
  | none => [endFrame (ownSlot s) (s.leat.lastSeq.setWidth 16) 0 false true (ownSlot s)]

/-- END_OF_LINE_TIMEOUT: a die that has just turned and hears nothing sends its copy back (R530). -/
def execEndOfLineTimeout (s : State) : Res :=
  .next (
    if !leatUp s || s.leat.master || !s.leat.turned then s
    else modLeat ((returnedTrain s).foldl sendTrain s) (fun l => { l with turned := false, inTrain := false, own := none }))

/-! ### Images (R525, R539, R540) -/

/-- A frame that carries part of an image, for a delivery that is bound to EP4: consumed if it names this chiplet, copied and forwarded if
it names every die; any other is only forwarded.  A delivery that is being verified takes nothing more (R525, R539). -/
def imageFrame (kind : Byte) (f : LeatFrame) (take : Delivery → State → State) (s : State) : State :=
  match s.fw.delivery with
  | some d =>
    let taken := fun (s : State) => if d.phase = .receiving then take d s else s
    if d.ep = 4 then
      if f.addr = ownSlot s then taken s
      else if f.addr = 0xFF then forward kind f (taken s)
      else forward kind f s
    else forward kind f s
  | none => forward kind f s

/-- IMAGE: 64 bytes of ciphertext of block tag / 64 (R539). -/
def execImage (on : LeatPair) (f : LeatFrame) (s : State) : Res :=
  .next (receive s on 0x20 f false (imageFrame 0x20 f (fun d s =>
    let b := f.tag.toNat / 64
    if b < d.blocks then takeFragment s d b (f.tag.toNat % 64) (padTo 64 f.body) else s)))

/-- BLOCK_CHECK: the check values of 16 consecutive blocks (R539). -/
def execBlockCheck (on : LeatPair) (f : LeatFrame) (s : State) : Res :=
  .next (receive s on 0x21 f false (imageFrame 0x21 f (fun d s =>
    takeChecks s d f.tag.toNat (((numbers 0 16).filter (fun i => f.tag.toNat + i < d.blocks)).map (fun i =>
      BitVec.ofNat 32 (fieldAt f.body (4 * i) 4))))))

/-! ### EP4 (R531, R532) -/

/-- The kind of a request half. -/
def halfKind (urgent second : Bool) : Byte := byte (0x30 + 4 * urgent.toNat + second.toNat)

/-- A request half: one for this chiplet is taken, any other forwarded. -/
def requestHalf (kind : Byte) (f : LeatFrame) (take : State → State) (s : State) : State :=
  if f.addr = ownSlot s then take s else forward kind f s

/-- REQUEST_FIRST_HALF (R531). -/
def execRequestFirstHalf (on : LeatPair) (urgent : Bool) (f : LeatFrame) (s : State) : Res :=
  .next (receive s on (halfKind urgent false) f false (requestHalf (halfKind urgent false) f (fun s =>
    modLeat s (fun l => { l with half := some (urgent, f) }))))

/-- A request that has come whole takes a slot of EP4's ring or its urgent slot (R111, R531). -/
def placeRequest (s : State) (urgent : Bool) (tag : W16) (slot : List Byte) : State :=
  if !transportUp s 4 then s
  else if !urgent then enqueue s (parseSlot 4 false tag slot).2 slot
  else
    let p := s.ep 4
    if p.busy then s.setEp 4 { p with overrun := true }
    else
      let s1 := s.setEp 4 { p with busy := true, urgReq := slot, urgSrc := tag }
      { s1 with svc := { s1.svc with urgentQ := s1.svc.urgentQ ++ [4] } }

/-- REQUEST_SECOND_HALF: with its first half right before it, the slot is placed (R531). -/
def execRequestSecondHalf (on : LeatPair) (urgent : Bool) (f : LeatFrame) (s : State) : Res :=
  .next (receive s on (halfKind urgent true) f true (fun s =>
    let h := s.leat.half
    let s1 := modLeat s (fun l => { l with half := none })
    requestHalf (halfKind urgent true) f (fun s =>
      match h with
      | some (u, g) => if u = urgent ∧ g.tag = f.tag then placeRequest s urgent f.tag (padTo 64 g.body ++ padTo 64 f.body) else s
      | none => s) s1))

/-- RESPONSE_FRAME: forwarded toward the master (R531). -/
def execResponseFrame (on : LeatPair) (urgent second : Bool) (f : LeatFrame) (s : State) : Res :=
  let k := byte (0x32 + 4 * urgent.toNat + second.toNat)
  .next (receive s on k f false (forward k f))

/-! ### Timers (R523, R526, R527, R528, R533, R537, R538) -/

/-- LEAT_SEARCH_TIMEOUT (R523). -/
def execLeatSearchTimeout (s : State) : Res :=
  .next (if s.leat.master then s else modLeat s (fun l => { l with state := .search, turned := false, half := none }))

/-- MASTER_IDLE_TIMER: 20 µs without a frame sent (R526). -/
def execMasterIdleTimer (s : State) : Res := .next (if s.leat.master then leatSend s 0x01 (ownSlot s) 0 [] else s)

/-- MASTERY_TAKEOVER: slot 0 with CHAIN_MASTER masters forward after 50 ms without a master (R40, R527). -/
def execMasteryTakeover (s : State) : Res :=
  .next (
    if !leatUp s || s.leat.master || s.boot.stage == 0 || s.boot.pins.slotId != 0 || !s.boot.pins.chainMaster then s
    else modLeat s (fun l => { l with master := true, state := .forward, drive := false, half := none, own := none, train := []
                                      inTrain := false, turned := false, phase := .idle, waitSweep := false }))

/-- MASTER_DRIVE_PERMITTED: the pair has been quiet for 120 µs, and the master drives it; a sweep that waits for it goes on.
In the last wait of the procedure the master drives nothing (R528, R537). -/
def execMasterDrivePermitted (s : State) : Res :=
  .next (
    if !leatUp s || !s.leat.master || (s.leat.phase == .turning && s.leat.second) then s
    else
      let s1 := modLeat s (fun l => { l with drive := true })
      if s1.leat.phase = .back then launch s1 else s1)

/-- SWEEP_PERIOD (R533). -/
def execSweepPeriod (s : State) : Res :=
  .next (if leatUp s && s.leat.master && s.leat.period != 0 then sweepDue s else s)

/-- SWEEP_STALL: the next step of the procedure: TURN, or, after a wait for a returned train, what follows it (R536,
R537). -/
def execSweepStall (s : State) : Res :=
  .next (
    if !leatUp s || !s.leat.master then s
    else match s.leat.phase with
      | .pass => turnRing s
      | .turning => afterTurn s
      | _ => s)

/-- HELD_RECORD_TIMER: beyond a break the chiplet makes a held record each period; of more than 8 it drops the oldest
(R538). -/
def execHeldRecordTimer (s : State) : Res :=
  .next (
    if !leatUp s || s.leat.master || s.leat.headPeriod == 0 || (s.boot.stage != 2 && s.boot.stage != 3) then s
    else
      let k := s.leat.heldPeriods + 1
      let r := makeRecord s (s.leat.lastSeq + BitVec.ofNat 32 k) true 2
      modLeat r.2 (fun l =>
        let all := l.held ++ [r.1]
        { l with heldPeriods := k, held := all.drop (all.length - 8), dropped := l.dropped || decide (8 < all.length) }))

/-! ### Commands (R185, R533) -/

def sweepConfigBody (r : Request) (s : State) : Reply :=
  let set := r.arg 16 4
  let period := r.arg 20 2
  let flags := r.arg 22 1
  if 32 ≤ set ∨ 1 < flags then Reply.no stBadArg
  else if !s.leat.master ∧ (period ≠ 0 ∨ flags ≠ 0) then Reply.no stConflict
  else
    { detail := some (leBytes 4 set ++ leBytes 2 period ++ [byte flags])
      commit := fun _ s =>
        let s1 := modLeat s (fun l => { l with set := BitVec.ofNat 32 set, period := if l.master then period else l.period })
        if flags = 1 then sweepDue s1 else s1 }

def cmdSweepConfig : Cmd := { code := 0x1500, stage := 2, layout := fun _ => [(16, 4), (20, 2), (22, 1)], body := sweepConfigBody }
def execSweepConfig (r : Request) (s : State) : Res := .next (serveRow cmdSweepConfig r s)

def sweepResultBody (r : Request) (s : State) : Reply :=
  let k := r.arg 16 1
  if 19 < k then Reply.no stBadArg
  else if !s.leat.master ∧ k ≠ (ownSlot s).toNat then Reply.no stConflict
  else
    let e := tget ⟨0, 2, []⟩ s.leat.table k
    Reply.data (leBytes 4 e.seq.toNat ++ [e.reach, 0, 0, 0] ++ padTo 64 e.bytes)

def cmdSweepResult : Cmd := { code := 0x1501, stage := 2, layout := fun _ => [(16, 1)], body := sweepResultBody }
def execSweepResult (r : Request) (s : State) : Res := .next (serveRow cmdSweepResult r s)

end Sys2Proof.Machine
end

