-- ==== Sys2Proof/Machine/Stages.lean ====
section
/-! DEFINITION. Pins, rails, clock and coolant, the resets of the whole chiplet, the stages, and the faults of the steward
(R27, R28, R35, R36 to R45, R60 to R86, R89 to R95, R569, R570). -/

namespace Sys2Proof.Machine

def modAon (s : State) (f : Aon → Aon) : State := { s with aon := f s.aon }
def modBoot (s : State) (f : Boot → Boot) : State := { s with boot := f s.boot }

/-! ### CHIP_RST_N (R36, R38, R45, R60, R62, R394) -/

/-- The assertion: STOP on every port that is UP, STOP_NOTICE, and the clearing of a warm reset. -/
def assertReset (s : State) : State :=
  let l := (List.range 20).filter (portUp s)
  let s1 := l.foldl (fun t q => (List.range 3).foldl (fun u _ => u.emit (.stop q 4)) t) s
  let s2 := s1.emit (.sideband 0x05 [4, 0])
  warmState (releaseAlerts s2) 1 true

/-- CHIP_RST_N_ASSERT: a low level of `lowNs`; below 200 ns it is ignored, from 1 µs on it is an assertion, and what lies
between has no defined outcome (R36, R67). -/
def execChipRstNAssert (lowNs : Nat) (s : State) : Res :=
  if lowNs < 200 then .next s
  else if lowNs < 1000 then .fault .undefinedResetPulse
  else .next (if s.boot.dead || s.boot.rstLow then s else assertReset s)

/-- CHIP_RST_N_RELEASE: the straps are sampled and stage 0 begins; the rails are good then (R37, R38, R72). -/
def execChipRstNRelease (straps : Straps) (s : State) : Res :=
  .next (
    if s.boot.dead || !s.boot.rstLow then s
    else
      let s1 := modAon (modBoot s (fun b => { b with rstLow := false, pins := straps })) (fun a => { a with rails := 0x3F })
      enterStage0 { s1 with leat := clearLeat s1.leat })

/-! ### Power and the AON domain (R28, R90) -/

/-- The state after a cold reset: only the fuses are kept, and the levels that the AON domain sees (R28, R62). -/
def coldState (s : State) : State :=
  { ({} : State) with
    fuses := s.fuses
    aon := { ({} : Aon) with coolantLevel := s.aon.coolantLevel, refclkOk := s.aon.refclkOk }
    fabric := { ({} : Fabric) with session := nextSession s }
    store := { ({} : Store) with mem := ({} : Memory).forget 0 Memory.size s.store.gen, gen := s.store.gen + 1 }
    sent := s.sent
    free := s.free + 1
    pending := s.pending }

/-- COLD_RESET: VDD_AON rises through the power-on threshold (R28, R60). -/
def execColdReset (s : State) : Res := .next (coldState s)

/-- VDD_AON_POWER_LOSS: the ledger and all AON state are lost, and the chiplet is silent (R28, R32). -/
def execVddAonPowerLoss (s : State) : Res := .next (modBoot (coldState s) (fun b => { b with dead := true }))

/-- AON_DOMAIN_FAILURE: the chiplet is silent (R90). -/
def execAonDomainFailure (s : State) : Res := .next (modBoot s (fun b => { b with dead := true }))

/-! ### Stops (R27, R35, R42, R43, R70, R511, R587) -/

/-- RAIL_FAULT: a rail that was good is below its tolerance; on VDD_LINK no port can announce it (R27, R394). -/
def execRailFault (rail : Fin 6) (s : State) : Res :=
  let k : Nat := rail
  .next (
    if s.boot.dead || !bit s.aon.rails.toNat k then s
    else
      let s1 := modAon s (fun a => { a with
        stop := { a.stop with rail := true }, latch := { a.latch with rail := true }, alert := { a.alert with rail := true }
        railNum := k, rails := a.rails &&& ~~~(BitVec.ofNat 6 (2 ^ k)) })
      stopLines (modHead s1 (fun h => setReason h trRailClock true)) 2 (byte k) (k != 3) false)

/-- REFCLK_LOSS (R35). -/
def execRefclkLoss (s : State) : Res :=
  .next (
    if s.boot.dead || !s.aon.refclkOk then s
    else
      let s1 := modAon s (fun a => { a with
        stop := { a.stop with refclk := true }, latch := { a.latch with refclk := true }, alert := { a.alert with refclk := true }
        refclkOk := false })
      stopLines (modHead s1 (fun h => setReason h trRailClock true)) 3 0xFF true false)

/-- REFCLK_RESTORED: the 100 µs that must precede the warm reset begin (R35). -/
def execRefclkRestored (s : State) : Res :=
  .next (if s.boot.dead || s.aon.refclkOk then s
    else modAon s (fun a => { a with refclkOk := true, refclkSince := s.time.elapsed }))

/-- COOLANT_LOSS: loss of coolant is recognised, and the drop of VDD_CORE is requested (R42, R511). -/
def execCoolantLoss (s : State) : Res :=
  let s0 := modAon s (fun a => { a with coolantLevel := false, coolantGood := false })
  .next (
    if s.boot.dead then s
    else if s.aon.stop.coolant then s0
    else
      let s1 := modAon s0 (fun a => { a with
        stop := { a.stop with coolant := true }, latch := { a.latch with coolant := true }
        alert := { a.alert with coolant := true } })
      stopLines (modHead s1 (fun h => setReason h trCoolant true)) 1 0xFF true true)

/-! ### Stage 0 (R72 to R76, R90, R91, R93) -/

/-- The chiplet leaves stage 0: for stage 1, or for ROM recovery. -/
def leaveStage0 (s : State) : State :=
  let s1 := stageEvent (modBoot (endTests s) (fun b => { b with hold := false })) 0 false
  if s1.boot.pins.recovery then enterRecovery s1 1
  else if 2 ≤ s1.aon.failed then enterRecovery s1 2
  else modBoot (endBoundary s1) (fun b => { b with stage := 1 })

/-- COOLANT_RESTORED: COOLANT_OK has been high for 1 s; a hold in stage 0 ends (R43, R76). -/
def execCoolantRestored (s : State) : Res :=
  let s1 := modAon s (fun a => { a with coolantLevel := true, coolantGood := true })
  .next (if s.boot.dead then s else if s1.boot.hold && !stopped s1 then leaveStage0 s1 else s1)

/-- The thermal path is good: every one of the 72 points reads between −10 °C and 125 °C, and every trip comparator trips on a
forced input (R74). -/
def thermalPathOk (temps : List Int) (trips : BitVec 72) : Bool :=
  (numbers 0 72).all (fun k => trips.getLsbD k && match temps[k]? with | some t => -10 ≤ t && t ≤ 125 | none => false)

/-- STAGE0_COMPLETE: the checks in their order, with the readings of the 72 points and the comparators that tripped; the first that fails is the floor fault.  With an invalid SLOT_ID, without
good coolant or while a stop is in force the chiplet stays in stage 0 (R39, R43, R73, R74, R76, R90). -/
def execStage0Complete (romOk stewardOk transportOk : Bool) (temps : List Int) (trips : BitVec 72) (s : State) : Res :=
  .next (
    if s.boot.stage ≠ 0 || s.boot.rstLow || s.boot.dead || s.boot.passed then s
    else
      let s1 := modBoot s (fun b => { b with passed := true })
      if !romOk then belowFloor s1 0
      else if !stewardOk then belowFloor s1 1
      else if !thermalPathOk temps trips then belowFloor s1 3
      else if !transportOk then belowFloor s1 2
      else if slotInvalid s1 || stopped s1 then s1
      else if !s1.aon.coolantGood then modBoot s1 (fun b => { b with hold := true })
      else leaveStage0 s1)

/-! ### Stage 2 (R82, R143) -/

/-- STAGE2_MARK_DOWN: a port that is not UP and not disabled is MARKED_DOWN; one whose link reset has not ended loses its link (R82,
R384, R387).  DESIGN CHOICE (log 67): R82 marks down
every port that is not UP, R152 holds a disabled one in DISABLED until it is enabled; a disabled port stays DISABLED here. -/
def execStage2MarkDown (s : State) : Res :=
  .next (
    if s.boot.stage ≠ 2 || s.boot.marked || stopped s then s
    else
      let mark := fun (t : State) (q : Nat) =>
        let p := t.port q
        if p.state = lnUp ∨ p.state = lnDisabled then t
        else if p.resume then loseLink t q lnMarked
        else t.setPort q { p with state := lnMarked, since := t.time.elapsed, step := 0, reset := false }
      modBoot ((List.range 20).foldl mark s) (fun b => { b with marked := true }))

/-- A port has settled: it is UP, marked down or disabled.  DESIGN CHOICE (log 67): a disabled port counts as settled before the
marking as well. -/
def portSettled (s : State) (q : Nat) : Bool :=
  let st := (s.port q).state
  st == lnUp || st == lnMarked || st == lnDisabled

/-- What completes stage 2 holds (R82). -/
def stage2Done (s : State) : Bool := (s.boot.marked || (List.range 20).all (portSettled s)) && s.fa != 0xFFFF && s.time.locked

/-- STAGE2_COMPLETE: stage 3 begins in preparation, and the shape is fixed (R72, R82, R89, R143). -/
def execStage2Complete (s : State) : Res :=
  .next (
    if s.boot.stage ≠ 2 || !stage2Done s || stopped s then s
    else
      let s1 := modBoot (stageEvent s 2 false) (fun b => { b with stage := 3, preparing := true })
      { s1 with fabric := { s1.fabric with fixed := true } })

/-! ### Stage 3 (R83 to R86, R89, R90) -/

/-- The scratchpad after the fill: zero but in the retired segments, which no basin owns and which are therefore powered off
(R349); their contents are undefined. -/
def filledStore (s : State) (retired : List Nat) : Store :=
  { s.store with
    mem := retired.foldl (fun m k => m.forget (0x100000 * k) 0x100000 s.store.gen) {}
    gen := s.store.gen + 1
    segs := (List.range 512).map (fun k => (k, { tget {} s.store.segs k with
      power := if retired.contains k then .off else .on, filled := !retired.contains k, retired := retired.contains k })) }

/-- SCRATCHPAD_TEST_COMPLETE: a segment that fails is retired and recorded; those recorded before stay retired untested; every
other segment is zero (R83, R349, R572). -/
def execScratchpadTestComplete (failing : List Nat) (s : State) : Res :=
  .next (
    if s.boot.stage ≠ 3 || !s.boot.preparing || s.boot.tested || stopped s then s
    else
      let old := recordedRetired s
      let new := (List.range 512).filter (fun k => failing.contains k && !old.contains k)
      let s1 := { s with store := filledStore s (old ++ new), boot := { s.boot with tested := true } }
      new.foldl (fun t k => event (recordRetired t k) 0xE013 (leBytes 2 k ++ [0xFF])) s1)

/-- The state of each node after the self-test (R84). -/
def testedNode (s : State) (failing : BitVec 64) (n : Nat) : NodeState :=
  if bit s.fuses.fusedOff.toNat n then .fusedOff else if bit failing.toNat n then .failedTest else .good

/-- A node serves the floor: good, with a good segment in its home slice and a good flume path between them (R90). -/
def floorNode (s : State) (pathBad : BitVec 64) (n : Nat) : Bool := goodNode s n && !pathBad.getLsbD n && (numbers (8 * n) 8).any (fun k => !(s.seg k).retired)

/-- CORE_SELF_TEST_COMPLETE, with the nodes that fail and those whose flume path to their home slice is bad: the good nodes are numbered, a shortfall is flagged, and preparation ends; without a core that
can serve the chiplet is below the floor (R84 to R86, R89, R90). -/
def execCoreSelfTestComplete (failing pathBad : BitVec 64) (s : State) : Res :=
  .next (
    if s.boot.stage ≠ 3 || !s.boot.preparing || !s.boot.tested || stopped s then s
    else
      let nodes := (List.range 64).map (fun n => (n, testedNode s failing n))
      let good := (nodes.filter (fun e => e.2 == .good)).map (fun e => e.1)
      let s1 := { s with die := { s.die with nodes := nodes, logical := good.zipIdx } }
      let s2 := modBoot s1 (fun b => { b with mapSet := true, shortfall := decide (goodCount s1 < s.fuses.grade.toNat) })
      if (List.range 64).any (floorNode s2 pathBad) then stageEvent (modBoot s2 (fun b => { b with preparing := false })) 3 false
      else belowFloor s2 4)

/-! ### The steward (R60 to R62, R65, R66, R69, R80, R555, R560, R570) -/

/-- One second in ns (R60). -/
def oneSecond : Nat := 1000000000

/-- The expiries within the last second. -/
def recentExpiries (s : State) : List Nat := s.svc.expiries.filter (fun t => s.time.elapsed < t + oneSecond)

/-- A seizure on the urgent lane that has not committed is begun again by the loader (R65, R69). -/
def restartSeizure (s : State) : State :=
  match s.seize with
  | some z => if z.urgent then { s with seize := some { z with phase := 0 } } else s
  | none => s

/-- The watchdog expires, for the cause given: a second time within 1 s a warm reset follows; else the loader recovers, the
request in service is dropped or restarted, and outside a pause a handover falls back (R60, R62, R65, R66, R80, R555). -/
def expire (s : State) (cause : Byte) : State :=
  if !(recentExpiries s).isEmpty then
    let n := if s.fw.booting && s.boot.stage == 1 then min 2 (s.aon.failed + 1) else s.aon.failed
    innerReset (modAon s (fun a => { a with failed := n })) 2
  else
    let s1 := restartSeizure (dropNormal s stBusy)
    let s2 := { s1 with svc := { s1.svc with paused := true, expiries := [s.time.elapsed], kick := s.time.elapsed }, settings := { s1.settings with pending := [] } }
    let s3 := resetEvent s2 2 cause.toNat 0xFF
    match s3.fw.hand with
    | some h => if inPause s3 || h.phase == .falling then s3 else fallBack s3 h 2 0 true
    | none => s3

/-- The watchdog runs from the start of an image on. -/
def watchdogRuns (s : State) : Bool := !s.boot.rstLow && !s.boot.dead && s.fw.image.isSome

/-- STEWARD_WATCHDOG_EXPIRY: in a pause the loader restarts the watchdog itself, so it cannot expire there (R61, R560), unless the
loader has stopped or no longer restarts it (R570); after a fault in the loader its cause is that fault's (R570). -/
def execStewardWatchdogExpiry (s : State) : Res :=
  .next (if !watchdogRuns s || (inPause s && !s.svc.noReturn) then s else expire s (if s.svc.muted then 5 else 1))

def stewardCode : StewardCause → Byte
  | .dataSram => 2
  | .exception => 3
  | .keepSram => 4
  | .loader => 5

/-- STEWARD_FAULT: treated as an expiry; after one in the keep-SRAM firmware does not come back, and one in the loader silences
every lane until the watchdog has expired twice (R570). -/
def execStewardFault (cause : StewardCause) (pcLow : W32) (s : State) : Res :=
  .next (
    if !watchdogRuns s then s
    else
      let s1 := event s 0xE060 ([stewardCode cause, 0, 0, 0] ++ leBytes 4 pcLow.toNat)
      match cause with
      | .loader => { s1 with svc := { s1.svc with paused := true, muted := true, noReturn := true } }
      | .keepSram => expire { s1 with svc := { s1.svc with noReturn := true } } 4
      | c => expire s1 (stewardCode c))

/-- FULL_FIRMWARE_SERVICE: firmware starts again and serves the normal rings (R65, R66, R138). -/
def execFullFirmwareService (s : State) : Res :=
  .next (
    if !s.svc.paused || s.svc.noReturn || s.fw.hand.any (fun h => h.phase == .falling || h.phase == .restoring) then s
    else selectSettings (kickWatchdog { s with svc := { s.svc with paused := false } }))

end Sys2Proof.Machine
end

