-- ==== Sys2Proof/Machine/Regs.lean ====
section
/-! DEFINITION. Config space: what each register reads and what a write of it does, the rows of single registers, the JTAG
instructions with the CFG_ACCESS register, and DEBUG.PEEK and DEBUG.POKE (R49 to R52, R96 to R101, R111, R123, R124, R189,
R346, R392, R579 to R602). -/

namespace Sys2Proof.Machine

def w32 (n : Nat) : W32 := BitVec.ofNat 32 n
def boolNat (b : Bool) : Nat := if b then 1 else 0

/-! ### The AON block (R587, R588) -/

/-- Bits 0 to 3 of a set of stop flags, in the order of AON_LATCH. -/
def Stops.bits (k : Stops) : Nat := ofBits [k.coolant, k.rail, k.refclk, k.trip]

def readAon (s : State) (o : Nat) : W32 :=
  let a := s.aon
  let p := s.boot.pins
  match o with
  | 0x000 => w32 idCode
  | 0x004 => w32 (s.boot.stage.toNat + 16 * boolNat s.boot.hold + 32 * boolNat s.boot.preparing)
  | 0x008 => w32 (p.slotId.toNat + 32 * boolNat p.chainMaster + 64 * boolNat p.recovery + 128 * p.shapeHint.toNat
      + 65536 * ofBits (strapFaults p))
  | 0x00C => w32 (boolNat a.warm + 16 * a.cause + 256 * a.warmCount)
  | 0x010 => w32 (s.boot.floor.toNat % 32)
  | 0x014 => w32 (a.latch.bits + 256 * a.railNum + 65536 * a.tripPoint.toNat)
  | 0x018 => w32 a.failed
  | 0x01C => w32 (boolNat a.coolantLevel + 2 * boolNat a.coolantGood)
  | 0x020 => w32 a.rails.toNat
  | 0x024 => w32 s.fuses.dieId.toNat
  | 0x028 => w32 (s.fuses.dieId.toNat / 2 ^ 32)
  | 0x02C => s.fabric.session
  | _ => 0

/-- The causes that are present now (R588). -/
def presentCauses (s : State) : Stops :=
  { coolant := !s.aon.coolantLevel, rail := s.aon.rails != 0x3F, refclk := !s.aon.refclkOk
    trip := (numbers 0 72).any (fun k => let p := tget {} s.head.points k; decide (p.trip ≤ p.temp)) }

/-- A write of AON_LATCH clears records; one whose cause is still present reads 1 again (R588). -/
def clearLatch (s : State) (v : W32) : State :=
  let c := presentCauses s
  let keep := fun (i : Nat) (old now : Bool) => old && (!bit v.toNat i || now)
  modAon s (fun a => { a with latch := { coolant := keep 0 a.latch.coolant c.coolant, rail := keep 1 a.latch.rail c.rail
                                         refclk := keep 2 a.latch.refclk c.refclk, trip := keep 3 a.latch.trip c.trip } })

/-! ### Mailbox endpoints (R97 to R101, R111, R589, R590) -/

/-- The transport that writes an endpoint's registers (R97). -/
def ownTransport (e : Nat) : Transport := if e = 0 then .sideband else if e = 5 then .jtag else .logic

/-- Four bytes of a slot replaced. -/
def patchBytes (l : List Byte) (o : Nat) (new : List Byte) : List Byte := l.take o ++ new ++ l.drop (o + new.length)

/-- A register of an endpoint's block. -/
def readEndpoint (s : State) (e o : Nat) : W32 :=
  let p := s.ep e
  match o with
  | 0x000 => w32 p.prod.toNat
  | 0x004 => w32 p.cons.toNat
  | 0x008 => w32 p.comp.toNat
  | 0x00C => w32 p.ack.toNat
  | 0x014 => w32 (ofBits [p.busy, p.done, p.overrun])
  | 0x018 => w32 (ofBits [transportUp s e, p.foreign, p.ringFault, decide (32 ≤ p.rspCount)])
  | _ =>
    if e ≠ 0 ∧ e ≠ 5 then 0
    else if 0x800 ≤ o ∧ o < 0x880 then w32 (fieldAt p.urgReq (o - 0x800) 4)
    else if 0x880 ≤ o ∧ o < 0x900 then w32 (fieldAt p.urgRsp (o - 0x880) 4)
    else 0

/-- The endpoint and the kind of ring of an aperture: true for the request ring (R97). -/
def apertureOf (o : Nat) : Option (Nat × Bool) :=
  match o / 0x1000 with
  | 0x8 => some (0, true) | 0x9 => some (0, false) | 0xA => some (5, true) | 0xB => some (5, false) | _ => none

def readMailbox (s : State) (o : Nat) : W32 :=
  match apertureOf o with
  | some (e, isReq) =>
    let k := o % 0x1000 / 128
    w32 (fieldAt (tget [] (if isReq then (s.ep e).req else (s.ep e).rsp) k) (o % 128) 4)
  | none => if o / 0x1000 < 6 then readEndpoint s (o / 0x1000) (o % 0x1000) else 0

/-- A write of an endpoint from a transport that is not its own is ignored and shown (R97). -/
def ownWrite (s : State) (e : Nat) (via : Transport) (f : Endpoint → Endpoint) : State :=
  if via = ownTransport e then s.modEp e f else s.modEp e (fun p => { p with foreign := true })

/-- MBX_EPn_DOORBELL (R98, R99). -/
def Endpoint.ring (p : Endpoint) (v : W32) : Endpoint :=
  let k : BitVec 6 := v.setWidth 6
  if (k - p.cons).toNat ≤ 32 then { p with prod := k } else { p with ringFault := true }

/-- MBX_EPn_RSP_ACK (R590). -/
def Endpoint.acknowledge (p : Endpoint) (v : W32) : Endpoint :=
  let k : BitVec 6 := v.setWidth 6
  if (p.comp - k).toNat ≤ (p.comp - p.ack).toNat then { p with ack := k } else { p with ringFault := true }

/-- MBX_EPn_URG_STATUS (R111, R589). -/
def Endpoint.clearUrgent (p : Endpoint) (v : W32) : Endpoint :=
  { p with done := p.done && !bit v.toNat 1, overrun := p.overrun && !bit v.toNat 2 }

/-- MBX_EPn_STATUS (R589). -/
def Endpoint.clearStatus (p : Endpoint) (v : W32) : Endpoint :=
  { p with foreign := p.foreign && !bit v.toNat 1, ringFault := p.ringFault && !bit v.toNat 2 }

/-- MBX_EPn_URG_DOORBELL: the urgent slot is submitted, or the doorbell overruns (R111, R115). -/
def ringUrgent (s : State) (e : Nat) (via : Transport) (v : W32) : State :=
  let p := s.ep e
  if via ≠ ownTransport e then s.setEp e { p with foreign := true }
  else if !bit v.toNat 0 then s
  else if p.busy || p.done then s.setEp e { p with overrun := true }
  else
    let s1 := s.setEp e { p with busy := true }
    { s1 with svc := { s1.svc with urgentQ := s1.svc.urgentQ ++ [e] } }

/-- A write of a slot of an aperture (R97, R589). -/
def writeSlot (p : Endpoint) (isReq : Bool) (k o : Nat) (v : W32) : Endpoint :=
  let new := fun (l : List Byte) => patchBytes (padTo 128 l) o (leBytes 4 v.toNat)
  if isReq then { p with req := tput p.req k (new (tget [] p.req k)) } else { p with rsp := tput p.rsp k (new (tget [] p.rsp k)) }

def writeUrgent (p : Endpoint) (o : Nat) (v : W32) : Endpoint :=
  let new := fun (l : List Byte) (o : Nat) => patchBytes (padTo 128 l) o (leBytes 4 v.toNat)
  if o < 0x880 then { p with urgReq := new p.urgReq (o - 0x800) } else { p with urgRsp := new p.urgRsp (o - 0x880) }

def writeEndpoint (s : State) (e o : Nat) (via : Transport) (v : W32) : State :=
  match o with
  | 0x000 => ownWrite s e via (·.ring v)
  | 0x00C => ownWrite s e via (·.acknowledge v)
  | 0x010 => ringUrgent s e via v
  | 0x014 => ownWrite s e via (·.clearUrgent v)
  | 0x018 => ownWrite s e via (·.clearStatus v)
  | _ => if (e = 0 ∨ e = 5) ∧ 0x800 ≤ o ∧ o < 0x900 then ownWrite s e via (fun p => writeUrgent p o v) else s

def writeMailbox (s : State) (o : Nat) (via : Transport) (v : W32) : State :=
  match apertureOf o with
  | some (e, isReq) => ownWrite s e via (fun p => writeSlot p isReq (o % 0x1000 / 128) (o % 128) v)
  | none => if o / 0x1000 < 6 then writeEndpoint s (o / 0x1000) (o % 0x1000) via v else s

/-! ### The ledger block (R123, R124, R591, R592) -/

def readLedger (s : State) (o : Nat) : W32 :=
  let l := s.ledger
  if 0x8000 ≤ o then
    let pos := 1024 * l.winSel.toNat + (o - 0x8000) / 32
    match l.entries.find? (fun e => e.1 == pos) with
    | some e => w32 (fieldAt e.2.bytes (o % 32) 4)
    | none => Config.unwritten pos (o % 32 / 4)
  else match o with
    | 0x000 => l.head
    | 0x004 => l.drained
    | 0x008 => w32 (boolNat l.loss + 2 * boolNat l.nearFull + 65536 * min 4096 l.undrained)
    | 0x00C => l.lost
    | 0x010 => w32 l.winSel.toNat
    | _ => 0

/-- LEDGER_DRAINED moves forward, and never past the last entry written (R124). -/
def Ledger.drain (l : Ledger) (v : W32) : Ledger :=
  let d := (v - l.drained).toNat
  if 1 ≤ d ∧ d ≤ l.undrained then
    let l1 := { l with drained := v }
    { l1 with nearFull := l.nearFull && decide (nearFullAt ≤ l1.undrained) }
  else l

/-- A write of LEDGER_DRAINED: from the D0 sideband only (R124, R592). -/
def drainLedger (s : State) (via : Transport) (v : W32) : State :=
  if via = .sideband then s.setLedger (s.ledger.drain v) else s

/-- A host agent's transport (R581, R600). -/
def hostTransport (via : Transport) : Bool := via == .sideband || via == .jtag

/-- A write of LEDGER_STATUS (R591). -/
def clearLoss (s : State) (via : Transport) (v : W32) : State :=
  if hostTransport via && bit v.toNat 0 then s.setLedger { s.ledger with loss := false } else s

def selectWindow (s : State) (via : Transport) (v : W32) : State :=
  if hostTransport via then s.setLedger { s.ledger with winSel := v.setWidth 2 } else s

/-! ### The headgate mirror (R593) -/

/-- Watts in units of 0.1 W, 16 bits. -/
def tenthsNat (w : Rat) : Nat := leNat (tenths w)

/-- The loops of the headgate have started: from stage 2 on, and below the floor where stage 3 led there (R593). -/
def headRuns (s : State) : Bool := s.boot.stage == 2 || s.boot.stage == 3 || bit s.boot.floor.toNat 4

def readHeadLoops (s : State) (o : Nat) : W32 :=
  let h := s.head
  let est := fun (r : Nat) => match h.periods.head? with | some p => at4 p.est r | none => 0
  match o with
  | 0x000 => w32 (tenthsNat (est 0 + est 1 + est 2 + est 3 + fixedW) + 65536 * tenthsNat (est 0))
  | 0x004 => w32 (tenthsNat (est 1) + 65536 * tenthsNat (est 2))
  | 0x008 => w32 (tenthsNat (est 3))
  | 0x00C => w32 (h.sample.toNat + 65536 * satTo 16 h.reportAge)
  | 0x010 => w32 (h.op + 16 * requestedPoint s + 256 * h.thermCeil + 4096 * h.capCeil + 65536 * boolNat h.change.isSome
      + 131072 * boolNat h.pace.isSome + 16777216 * (match h.pace with | some p => paceDuty s p h.cap | none => 0))
  | 0x014 => w32 (h.cap + 512 * h.order + 4096 * h.ramp)
  | 0x018 => w32 (ofBits ((numbers 0 12).map (fun k => (tget {} h.reasons k).active)))
  | 0x01C => w32 (ofBits [calibrated h, h.under, h.dither.isSome, h.ditherOn] + 256 * min 255 (calibrationError h))
  | 0x020 => w32 h.below.toNat
  | _ => 0

/-- The temperature registers follow the conversions from the end of stage 0 (R593). -/
def readHead (s : State) (o : Nat) : W32 :=
  let h := s.head
  if 0x040 ≤ o ∧ o < 0x088 then
    if s.boot.stage = 0 then 0 else w32 (leNat ((numbers (o - 0x40) 4).map (fun k => BitVec.ofInt 8 (pointTemp h k))))
  else if 0x090 ≤ o ∧ o < 0x09C then
    if s.boot.stage = 0 then 0
    else w32 (ofBits ((numbers (8 * (o - 0x90)) 32).map (fun k => decide (k < 72) && (tget {} h.points k).failed)))
  else if headRuns s then readHeadLoops s o else 0

/-! ### Link port blocks (R391, R392, R594, R595) -/

/-- LNK_Pn_TESTERR: while a test runs any count may have come about, after it its counts stay, and without one they are 0
(R392, R595; DESIGN CHOICE, log 72). -/
def laneErrors (s : State) (q l : Nat) : W32 :=
  let p := s.port q
  if p.testRun then Config.laneErrors s.free q l else match p.testErr with | some k => Config.laneErrors k q l | none => 0

def readPort (s : State) (q o : Nat) : W32 :=
  let p := s.port q
  if 0x040 ≤ o ∧ o < 0x140 then (if isD q then laneErrors s q ((o - 0x40) / 4) else 0)
  else match o with
    | 0x000 => w32 (p.state.toNat % 8 + 8 * boolNat p.sessionKept + 256 * p.refusal + 4096 * (p.stopCause.toNat % 16)
        + 65536 * p.partnerPort.toNat)
    | 0x004 => w32 p.partnerFa.toNat
    | 0x008 => p.corr
    | 0x00C => p.uncorr
    | 0x010 => p.retry
    | 0x014 => w32 p.retrains.toNat
    | 0x018 => if isD q then w32 p.lanes.toNat else 0
    | 0x01C => if isD q then w32 (p.lanes.toNat / 2 ^ 32) else 0
    | 0x020 => w32 (ofBits [p.testRun, p.testRate, p.testRun, p.testRefused])
    | 0x024 => w32 (leNat ((numbers 0 4).map (fun v => byte (min 255 ((pools.filter (fun k => poolVc k == v)).map (creditOf p)).sum))))
    | _ => 0

/-- RUN = 1: the PRBS31 test of a D port starts in stage 0 or in ROM recovery, with its counts cleared; any other is refused
(R595). -/
def startTest (s : State) (q : Nat) (via : Transport) (rate : Bool) : State :=
  if isD q && (s.boot.stage == 0 || s.boot.stage == 8) && hostTransport via then
    s.modPort q (fun p => if p.testRun then p else { p with testRun := true, testRate := rate, testErr := none })
  else s.modPort q (fun p => { p with testRefused := true })

/-- RUN = 0: a running test ends (R392, R595). -/
def stopTest (s : State) (q : Nat) (via : Transport) : State := if hostTransport via && (s.port q).testRun then leaveTest s q else s

/-- LNK_Pn_TEST[REFUSED] (R594). -/
def clearRefused (s : State) (q : Nat) (via : Transport) (v : W32) : State :=
  if hostTransport via && bit v.toNat 3 then s.modPort q (fun p => { p with testRefused := false }) else s

/-- A write of LNK_Pn_TEST as a whole: REFUSED is cleared first, so that a refusal of the same write shows. -/
def writeTest (s : State) (q : Nat) (via : Transport) (v : W32) : State :=
  let s1 := clearRefused s q via v
  if bit v.toNat 0 then startTest s1 q via (bit v.toNat 1) else stopTest s1 q via

/-! ### The turn counter block (R584, R596) -/

/-- The latch of a transport. -/
def latchKey (via : Transport) : Nat := match via with | .sideband => 0 | .jtag => 1 | .steward => 2 | .logic => 3

/-- TRN_COUNT_LO: the low half, with the high half latched for the transport (R584). -/
def latchCount (s : State) (via : Transport) : W32 × State :=
  (w32 s.time.count.toNat,
   { s with time := { s.time with latches := tput s.time.latches (latchKey via) (w32 (s.time.count.toNat / 2 ^ 32)) } })

def readTurn (s : State) (via : Transport) (o : Nat) : W32 :=
  let t := s.time
  match o with
  | 0x004 => tget 0 t.latches (latchKey via)
  | 0x008 => w32 (ofBits [t.locked, t.holdover, gmDefined t, isGm s] + 256 * t.hops.toNat
      + 65536 * (match t.parent with | some q => q | none => 0x1F))
  | 0x00C => w32 t.gmFa.toNat
  | 0x010 => t.period
  | 0x014 => w32 (low 32 t.offset)
  | 0x018 => w32 (exchangeAge s)
  | _ => 0

/-! ### The stage and recovery block (R61, R597, R598) -/

/-- A version as STG_FW shows it: commands and images have the major number in the low byte, the register in the high one
(R541, R597). -/
def versionField (v : Nat) : Nat := v % 256 * 256 + v / 256 % 256

/-- The staged or delivering version, 0 if none. -/
def stagedVersion (s : State) : Nat :=
  match s.fw.hand with
  | some h => h.new.version.toNat
  | none => match s.fw.delivery with | some d => d.version.toNat | none => 0

/-- µs until the steward watchdog expires; the loader restarts it itself while it serves (R61). -/
def watchdogLeft (s : State) : Nat :=
  if watchdogRuns s && !inPause s && !s.svc.paused then 10000 - (s.time.elapsed - s.svc.kick) / 1000 else 10000

/-- ms left in the confirm window: all of it before the new image starts, none once the fall-back is decided (R553, R597). -/
def confirmLeft (s : State) : Nat :=
  match s.fw.hand with
  | some h =>
    if newRuns h then satTo 16 (h.window - (s.time.elapsed - h.start) / 1000000)
    else if h.phase = .accepted ∨ h.phase = .exchanging then satTo 16 h.window
    else 0
  | none => 0

def readStage (s : State) (o : Nat) : W32 :=
  match o with
  | 0x004 => w32 (watchdogLeft s + 65536 * min 3 (recentExpiries s).length)
  | 0x008 => w32 (versionField (imageVersion s) + 65536 * versionField (stagedVersion s))
  | 0x00C => w32 (fwState s + 8 * boolNat s.fw.hand.isSome + 256 * boundEp s + 65536 * presentBlocks s)
  | 0x010 => w32 (confirmLeft s)
  | 0x014 => w32 (boolNat (s.boot.stage == 8) + 2 * s.boot.recovery)
  | _ => 0

/-- STG_WDOG_KICK: only the steward's write of the key restarts the watchdog (R61, R598). -/
def kickWrite (s : State) (via : Transport) (v : W32) : State := if via = .steward ∧ v = 0xA5A5 then kickWatchdog s else s

/-! ### The debug block (R331, R435, R585, R599) -/

/-- The slice counter that an offset of the debug block names: slice and counter. -/
def sliceCounter (o : Nat) : Option Nat :=
  if 0x1000 ≤ o ∧ o < 0x1800 ∧ o % 0x20 < 0x14 then some (5 * ((o - 0x1000) / 0x20) + o % 0x20 / 4) else none

/-- A conflict counter, which its read clears (R331, R585): what it has counted since follows from the cycles in which a slice's
banks were asked, which the model does not run, so each read gives a free value (DESIGN CHOICE, log 70). -/
def readConflicts (s : State) : W32 × State := (BitVec.ofNat 32 s.fresh.1, s.fresh.2)

/-- The state code of a node as its own basin reports it (R175, R599). -/
def nodeCode (s : State) (n : Nat) : Byte := match basinOf s n with | some b => runCode s b n | none => 0

def readDebug (s : State) (o : Nat) : W32 :=
  if o = 0 then w32 (boolNat s.tap.refused + 256 * s.tap.last.toNat)
  else if 0x2000 ≤ o ∧ o < 0x2080 then
    let c := s.chan ((o - 0x2000) / 4)
    w32 (c.cause.toNat + 256 * c.causeXfer.toNat)
  else if 0x3000 ≤ o ∧ o < 0x3040 then w32 (leNat ((numbers (o - 0x3000) 4).map (nodeCode s)))
  else 0

/-- DBG_JTAG (R599). -/
def clearBoundary (s : State) (via : Transport) (v : W32) : State :=
  if (hostTransport via || via == .steward) && bit v.toNat 0 then { s with tap := { s.tap with refused := false } } else s

/-! ### The whole map (R579 to R586) -/

/-- Config space can be reached (R586). -/
def reachableRegs (s : State) : Bool := sidebandUp s

/-- The word offset of an access: bits [1:0] are ignored (R580). -/
def wordOffset (off : Nat) : Nat := off % 2 ^ 24 / 4 * 4

/-- A read: its value, and the state after what it latches or clears; a reserved offset reads 0 (R579, R584, R585). -/
def readReg (s : State) (via : Transport) (off : Nat) : W32 × State :=
  let o := wordOffset off
  let r := o % 0x10000
  match o / 0x10000 with
  | 0x00 => (readAon s r, s)
  | 0x01 => (readMailbox s r, s)
  | 0x02 => (readLedger s r, s)
  | 0x03 => (readHead s r, s)
  | 0x04 =>
    if r / 0x400 < 20 then
      (readPort s (r / 0x400) (r % 0x400), if (s.port (r / 0x400)).testRun then s.fresh.2 else s)
    else (0, s)
  | 0x05 => if r = 0 then latchCount s via else (readTurn s via r, s)
  | 0x06 => (readStage s r, s)
  | 0x0F => if (sliceCounter r).isSome then readConflicts s else (readDebug s r, s)
  | _ => (0, s)

/-- A write; every write that no rule allows is ignored (R579, R581, R600). -/
def writeReg (s : State) (via : Transport) (off : Nat) (v : W32) : State :=
  let o := wordOffset off
  let r := o % 0x10000
  match o / 0x10000 with
  | 0x00 => if r = 0x014 ∧ hostTransport via then clearLatch s v else s
  | 0x01 => writeMailbox s r via v
  | 0x02 =>
    if r = 0x004 then drainLedger s via v
    else if r = 0x008 then clearLoss s via v
    else if r = 0x010 then selectWindow s via v
    else s
  | 0x04 => if r / 0x400 < 20 ∧ r % 0x400 = 0x020 then writeTest s (r / 0x400) via v else s
  | 0x06 => if r = 0 then kickWrite s via v else s
  | 0x0F => if r = 0 then clearBoundary s via v else s
  | _ => s

/-! ### The rows of single registers -/

/-- A register row has its effect only while config space can be reached. -/
def onRegs (s : State) (t : State) : Res := .next (if reachableRegs s then t else s)

def execMbxEpnDoorbell (ep : Fin 6) (via : Transport) (v : W32) (s : State) : Res := onRegs s (writeEndpoint s ep 0x000 via v)
def execMbxEpnRspAck (ep : Fin 6) (via : Transport) (v : W32) (s : State) : Res := onRegs s (writeEndpoint s ep 0x00C via v)
def execMbxEpnUrgDoorbell (ep : Fin 6) (via : Transport) (v : W32) (s : State) : Res := onRegs s (writeEndpoint s ep 0x010 via v)
def execMbxEpnUrgStatus (ep : Fin 6) (via : Transport) (v : W32) (s : State) : Res := onRegs s (writeEndpoint s ep 0x014 via v)
def execMbxEpnStatus (ep : Fin 6) (via : Transport) (v : W32) (s : State) : Res := onRegs s (writeEndpoint s ep 0x018 via v)
def execLedgerDrained (via : Transport) (v : W32) (s : State) : Res := onRegs s (drainLedger s via v)
def execLedgerStatus (via : Transport) (v : W32) (s : State) : Res := onRegs s (clearLoss s via v)
def execAonLatch (via : Transport) (v : W32) (s : State) : Res := onRegs s (if hostTransport via then clearLatch s v else s)
def execLnkTestStart (port : Fin 20) (via : Transport) (rate : Bool) (s : State) : Res := onRegs s (startTest s port via rate)
def execLnkTestStop (port : Fin 20) (via : Transport) (s : State) : Res := onRegs s (stopTest s port via)
def execLnkPnTestRefusedClear (port : Fin 20) (via : Transport) (v : W32) (s : State) : Res := onRegs s (clearRefused s port via v)
def execStgWdogKick (via : Transport) (v : W32) (s : State) : Res := onRegs s (kickWrite s via v)
def execDbgJtag (via : Transport) (v : W32) (s : State) : Res := onRegs s (clearBoundary s via v)

/-- A read row: the value leaves on its transport (R582). -/
def answerRead (x : W32 × State) (via : Transport) (off : Nat) : State := x.2.emit (.readData via off x.1)

/-- TRN_COUNT_LO (R584). -/
def execTrnCountLo (via : Transport) (s : State) : Res := onRegs s (answerRead (latchCount s via) via 0x050000)

/-- DBG_SLCN_COUNTER_READ (R585, R599). -/
def execDbgSlcnCounterRead (via : Transport) (slice : Fin 64) (which : Fin 5) (s : State) : Res :=
  onRegs s (answerRead (readConflicts s) via (0x0F1000 + 0x20 * (slice : Nat) + 4 * which))

/-- REGISTER_WRITE (R580, R581). -/
def execRegisterWrite (via : Transport) (off : BitVec 24) (v : W32) (s : State) : Res := onRegs s (writeReg s via off.toNat v)

/-! ### JTAG (R49 to R52, R582, R602) -/

/-- An instruction is loaded into the TAP, which is silent with the AON domain. -/
def loadIr (s : State) (code : Byte) : State := if s.boot.dead then s else { s with tap := { s.tap with ir := code } }

/-- The TAP takes an instruction with what its data register captures, and shifts that out (R49; DESIGN CHOICE, log 82: the row
of an instruction is its load and one scan of its data register). -/
def scanDr (s : State) (t : Tap) (len v : Nat) : State := if s.boot.dead then s else { s with tap := t }.emit (.tdo len v)

/-- The boundary-scan register as a number: the pins' cells lowest, then the transmit and the receive lanes' (log 82). -/
def cellsValue (c : Cells) : Nat := c.pins.toNat + 2 ^ 16 * c.tx.toNat + 2 ^ 64 * c.rx.toNat

/-- What the boundary cells capture: the pins and lanes as they are, THERM_ALERT_N low while the chiplet asserts it (R45, R49). -/
def captured (s : State) (seen : Cells) : Cells :=
  if thermAlert s then { seen with pins := seen.pins &&& 0xFFFB } else seen

/-- BYPASS: the one-bit register captures 0 (R49). -/
def execBypass (s : State) : Res := .next (scanDr s { s.tap with ir := 0xFF, bypass := false } 1 0)
/-- IDCODE: the identity (R49, R50). -/
def execIdcode (s : State) : Res := .next (scanDr s { s.tap with ir := 0x01, id := BitVec.ofNat 32 idCode } 32 idCode)
/-- SAMPLE/PRELOAD: pin states are captured, the cells are loaded, and nothing is driven (R49, R51). -/
def execSamplePreload (drive seen : Cells) (s : State) : Res :=
  let c := captured s seen
  .next (scanDr s { s.tap with ir := 0x02, drive := drive, seen := c } 112 (cellsValue c))
def execCfgAccess (s : State) : Res := .next (loadIr s 0x20)
/-- TAP_RESET: IDCODE is the default (R49). -/
def execTapReset (s : State) : Res := .next (loadIr s 0x01)

/-- A boundary-scan instruction runs in stage 0 and in ROM recovery only, where its cells drive the pins and lanes and capture
them, but THERM_ALERT_N stays low while a cause of R45 is present; else it runs as BYPASS and the refusal shows (R52, R599). -/
def boundary (s : State) (code : Byte) (drive seen : Cells) : State :=
  if s.boot.stage = 0 ∨ s.boot.stage = 8 then
    let s1 := { s with tap := { s.tap with ir := code, drive := drive } }
    let c := captured s1 seen
    let on := if alertCause s then { drive with pins := drive.pins &&& 0xFFFB } else drive
    if s.boot.dead then s else (scanDr s1 { s1.tap with seen := c } 112 (cellsValue c)).emit (.scan code on)
  else scanDr s (refuseBoundary s.tap code) 1 0

def execExtest (drive seen : Cells) (s : State) : Res := .next (boundary s 0x03 drive seen)
def execExtestPulse (drive seen : Cells) (s : State) : Res := .next (boundary s 0x09 drive seen)
def execExtestTrain (drive seen : Cells) (s : State) : Res := .next (boundary s 0x0A drive seen)

/-- The word that Capture-DR finds: data, offset, write flag, DONE or ERROR (R602). -/
def capturedWord (data off : Nat) (write done : Bool) : W64 :=
  BitVec.ofNat 64 (data % 2 ^ 32 + 2 ^ 32 * (off % 2 ^ 24) + 2 ^ 56 * boolNat write + 2 ^ 57 * boolNat done + 2 ^ 58 * boolNat (!done))

/-- CFG_ACCESS_UPDATE_DR: with VALID set one access is performed, unless CHIP_RST_N is low; the read data that a write or a
failed access leaves is free (R582, R602; DESIGN CHOICE, log 73). -/
def execCfgAccessUpdateDr (dr : W64) (s : State) : Res :=
  let v := dr.toNat
  let off := bits v 55 32
  let w := bit v 56
  let keep := fun (t : State) (data : Nat) (done : Bool) => { t with tap := { t.tap with dr := capturedWord data off w done } }
  .next (
    if s.boot.dead || s.tap.ir != 0x20 || !bit v 57 then s
    else if !reachableRegs s then keep s.fresh.2 s.fresh.1 false
    else if w then
      let s1 := writeReg s .jtag off (w32 v)
      keep s1.fresh.2 s1.fresh.1 true
    else
      let x := readReg s .jtag off
      keep x.2 x.1.toNat true)

/-! ### DEBUG.PEEK and DEBUG.POKE (R189, R192, R346, R600, R601) -/

/-- The bytes of core-state space of a node (R563, R601). -/
def coreSpace (s : State) (n : Nat) : List Byte :=
  let c := s.core n
  let k := c.stalls
  let pos := match basinOf s n with | some b => (s.basin b).rect.position n | none => 0
  let rec_ := match c.fault with
    | some f => [f.cause, f.slot, f.flags, 0] ++ leBytes 2 f.pc.toNat ++ [0, 0] ++ leBytes 4 f.addr.toNat ++ leBytes 4 f.turn.toNat
    | none => List.replicate 16 0
  padTo 0x4500 (coreRecord c true n pos ++ rec_ ++ [k.register, k.range, k.entries, k.fetch, k.gate, k.matrix, k.splits].flatMap
    (fun v => leBytes 4 v.toNat))

/-- The core can be reached: the node has one, in the expected basin, and it does not run (R189, R192). -/
def coreReached (s : State) (n b : Nat) : Bool :=
  expects s n b && hasCore s n && (s.core n).run != .running

/-- The scratchpad is reached only in powered segments (R189). -/
def poweredRange (s : State) (a n : Nat) : Bool := (segsOf a (a + n)).all (fun k => (s.seg k).power == .on)

def debugLength (r : Request) : Nat := r.arg 18 1
def debugAddr (r : Request) : Nat := r.arg 20 4

/-- The arguments are malformed: an unknown space, a length that no access has, a range past the space. -/
def debugBad (r : Request) (most : Nat) : Bool :=
  let sp := r.arg 16 1
  let n := debugLength r
  let e := debugAddr r + n
  decide (2 < sp) || n % 4 != 0 || n < 4 || most < n
  || (sp == 0 && decide (2 ^ 24 < debugAddr r / 4 * 4 + n)) || (sp == 1 && decide (Memory.size < e))
  || (sp == 2 && (decide (63 < r.arg 17 1) || (decide (31 < r.arg 19 1) && r.arg 19 1 != 0xFF) || decide (0x4500 < e)))

/-- Registers read one after the other as the steward (R600). -/
def readRegs (s : State) (off : Nat) : Nat → List Byte × State
  | 0 => ([], s)
  | n + 1 =>
    let x := readReg s .steward off
    let y := readRegs x.2 (off + 4) n
    (leBytes 4 x.1.toNat ++ y.1, y.2)

def peekBody (r : Request) (s : State) : Reply :=
  let a := debugAddr r
  let n := debugLength r
  if debugBad r 96 then Reply.no stBadArg
  else match r.arg 16 1 with
    | 0 => { result := [0, 0, 0, 0] ++ (readRegs s a (n / 4)).1, commit := fun _ t => (readRegs t a (n / 4)).2 }
    | 1 =>
      if !poweredRange s a n then Reply.no stConflict
      else
        match firstBad s.mem a n with
        | some w => { result := [1, 0, 0, 0] ++ s.mem.read a n, commit := fun _ t => detect t w none 5 }
        | none => Reply.data ([0, 0, 0, 0] ++ s.mem.read a n)
    | _ =>
      if !coreReached s (r.arg 17 1) (r.arg 19 1) then Reply.no stConflict
      else Reply.data ([0, 0, 0, 0] ++ slice (coreSpace s (r.arg 17 1)) a n)

def cmdDebugPeek : Cmd :=
  { code := 0x1701, stage := 2, layout := fun _ => [(16, 1), (17, 1), (18, 1), (19, 1), (20, 4)], body := peekBody }
def execDebugPeek (r : Request) (s : State) : Res := .next (serveRow cmdDebugPeek r s)

/-- A held bundle after its core's record has been written: the split goes on at its new mask; at another program counter the
bundle there is taken anew. -/
def pokedHeld (s : State) (n : Nat) (old new : Core) (mask : Byte) : Option HeldBundle :=
  match old.held with
  | some h =>
    if new.pc = old.pc ∧ mask ≠ 0 then some { h with issued := mask }
    else if new.pc = old.pc ∧ h.issued = 0 then some h
    else none
  | none =>
    if mask = 0 then none
    else match storeImage s n with
      | some i => some { raw := i.bundle new.pc.toNat, issued := mask, snap := new.capture }
      | none => none

/-- The finished-tile queue of a record. -/
def queuePart (l : List Byte) : List Byte := slice l 0x280 0x40

/-- A core with bytes of its record replaced; what the record does not hold stays (R601). -/
def pokeCore (s : State) (n a : Nat) (data : List Byte) : State :=
  let c := s.core n
  let before := coreRecord c true n 0
  let after := patchBytes before a data
  let k := recordCore after
  let same := queuePart after == queuePart before
  let c1 : Core := { c with
    s := k.s, a := k.a, p := k.p, d := k.d, t := k.t, pc := k.pc, phase := k.phase, lc0 := k.lc0, lc1 := k.lc1, csrc := k.csrc
    q := (numbers 0 3).foldl (fun q i => tput q i (tget 0 k.q i)) c.q
    tokens := if same then c.tokens else k.tokens
    tileInt := if same then c.tileInt else k.tileInt
    tilePair := if same then c.tilePair else k.tilePair
    mfins := if same then c.mfins else k.mfins }
  s.setCore n { c1 with held := pokedHeld s n c c1 (after.getD 4 0) }

/-- Detail of DEBUG.POKE (R162). -/
def pokeDetail (r : Request) : List Byte :=
  [byte (r.arg 16 1), byte (r.arg 17 1), byte (debugLength r), 0] ++ leBytes 4 (debugAddr r)

def pokeBody (r : Request) (s : State) : Reply :=
  let a := debugAddr r
  let n := debugLength r
  let data := r.argBytes 24 n
  let ok := fun (f : State → State) => ({ detail := some (pokeDetail r), commit := fun _ t => f t } : Reply)
  if debugBad r 88 then Reply.no stBadArg
  else match r.arg 16 1 with
    | 0 =>
      if a / 4 * 4 ≠ 0x0F0000 ∨ n ≠ 4 then Reply.no stConflict
      else ok (fun t => clearBoundary t .steward (w32 (leNat data)))
    | 1 => if !poweredRange s a n then Reply.no stConflict else ok (fun t => settleReads ((t.noteMerge none 5 a n).write a data))
    | _ =>
      if !coreReached s (r.arg 17 1) (r.arg 19 1) ∨ 0x4400 < a + n then Reply.no stConflict
      else ok (fun t => pokeCore t (r.arg 17 1) a data)

def cmdDebugPoke : Cmd :=
  { code := 0x1702, stage := 2, layout := fun r => [(16, 1), (17, 1), (18, 1), (19, 1), (20, 4), (24, r.arg 18 1)], body := pokeBody }
def execDebugPoke (r : Request) (s : State) : Res := .next (serveRow cmdDebugPoke r s)

end Sys2Proof.Machine
end

