-- ==== Sys2Proof/Machine/Mailbox.lean ====
section
/-! DEFINITION. The steward takes requests from the rings and from the urgent slots (R100, R101, R102, R106, R107, R111 to
R116). -/

namespace Sys2Proof.Machine

/-- The commands of the steward (R126 to R189). -/
def allCommands : List Cmd :=
  [cmdNop, cmdEcho, cmdStatus, cmdIdentRead, cmdGradeMap, cmdOptableRead, cmdFuseSummary, cmdSettingsGet,
   cmdSettingsSet, cmdSettingsCommit, cmdLedgerRead, cmdLedgerMark, cmdFabricDiscover, cmdFabricAddrSet,
   cmdFabricShapeSet, cmdRouteLoad, cmdRouteRead, cmdLinkState, cmdLinkRetrain, cmdTimeMaster, cmdTimeStatus,
   cmdGangForm, cmdGangDissolve, cmdBasinCreate, cmdBasinResize, cmdBasinDestroy, cmdBasinSeize, cmdBasinRelease,
   cmdBasinQuery, cmdBasinMode, cmdProgLoad, cmdProgStart, cmdProgStop, cmdProgState, cmdCoreReset, cmdSegPower,
   cmdSegFill, cmdWindowOpen, cmdWindowClose, cmdWindowList, cmdDmaPost, cmdGateInit, cmdGateRead, cmdGateClean,
   cmdPowerCap, cmdPowerPriority, cmdPowerOpPrefer, cmdPowerPace, cmdPowerRamp, cmdThermLimits, cmdThrottleRead,
   cmdEnergyRead, cmdEstimStatus, cmdEstimDither, cmdSweepConfig, cmdSweepResult, cmdFwBegin, cmdFwBlock,
   cmdFwVerify, cmdFwHandover, cmdFwConfirm, cmdFwAbort, cmdFwStatus, cmdDebugHalt, cmdDebugPeek, cmdDebugPoke]

def commandOf (code : W16) : Option Cmd := allCommands.find? (fun c => c.code == code)

/-- Serve a request by its code; a reserved code completes with ST_BAD_ARG (R103, R112). -/
def serveCode (code : W16) (r : Request) (s : State) : State :=
  match commandOf code with
  | some c => serve c r s
  | none => respond s code r stBadArg [] none

/-- The request at the head of a ring, and the state with its slot given back (R98, R100). -/
def takeRequest (s : State) (e : Fin 6) : (W16 × Request) × State :=
  let p := s.ep e
  let k := p.cons.toNat % 32
  (parseSlot e false (tget 0 p.src k) (tget [] p.req k),
   { s.setEp e { p with cons := p.cons + 1 } with svc := { s.svc with last := e } })

/-- A request in service that is preempted before its commit: one whose checks pass waits for its resumption; any other
completes (R114). -/
def preempt (code : W16) (r : Request) (s : State) : State :=
  match commandOf code with
  | some c =>
    if passes (replyTo c r s).status then
      { s with svc := { s.svc with normal := some { req := r, cmd := code, passed := true } } }
    else serve c r s
  | none => serveCode code r s

/-- REQUEST_SERVICE_START: the next normal request, round robin; `commit` says that service reaches its commit (R106, R107,
R113). -/
def execRequestServiceStart (commit : Bool) (s : State) : Res :=
  .next (
    if !normalFree s then s
    else match (roundRobin s.svc.last).find? (ready s) with
      | none => s
      | some e =>
        let x := takeRequest s e
        if commit then serveCode x.1.1 x.1.2 x.2 else preempt x.1.1 x.1.2 x.2)

/-- A seizure of a normal ring that has not committed is undone when an urgent request preempts it, and resumes later
(R113, R114). -/
def yieldSeizure (s : State) : State :=
  match s.seize with
  | some z =>
    if z.urgent then s
    else
      let s1 := undoSeizure z s
      { s1 with svc := { s1.svc with normal := s1.svc.normal.map (fun k => { k with waiting := false, passed := true }) } }
  | none => s

/-- What an urgent request meets in a seizure of a normal ring: another BASIN.SEIZE undoes it, one of the same basin waits for its
end (none), and every other command is served beside it, so that PROG.STOP with RESET finds the basin being seized (R68, R113,
R114, R484; DEDUCED, log 75). -/
def besideSeizure (s : State) (code : W16) (r : Request) : Option State :=
  match s.seize with
  | some z =>
    if z.urgent || code != cmdBasinSeize.code then some s
    else if r.arg 16 1 = z.basin then none else some (yieldSeizure s)
  | none => some s

/-- URGENT_SERVICE_START: the first urgent request whose transport serves, in the order of the doorbells (R111, R113, R115,
R116). -/
def execUrgentServiceStart (s : State) : Res :=
  .next (
    if s.svc.urgent.isSome || s.svc.muted then s
    else match s.svc.urgentQ.find? (transportUp s) with
      | none => s
      | some e =>
        let p := s.ep e
        let x := parseSlot (Fin.ofNat 6 e) true p.urgSrc p.urgReq
        match besideSeizure { s with svc := { s.svc with urgentQ := s.svc.urgentQ.erase e } } x.1 x.2 with
        | some s1 => serveCode x.1 x.2 s1
        | none => s)

/-- PREEMPTED_COMMAND_RESUME: once no urgent request is in service or waits, the command checks its preconditions again; if they no longer hold it completes with
ST_CONFLICT (R114). -/
def execPreemptedCommandResume (s : State) : Res :=
  .next (match s.svc.normal with
    | some k =>
      if k.waiting || s.svc.urgent.isSome || s.svc.urgentQ.any (transportUp s) || s.svc.paused || inPause s || !transportUp s k.req.ep then s
      else match commandOf k.cmd with
        | some c => serveWith c k.req { s with svc := { s.svc with normal := none } } (some stConflict)
        | none => s
    | none => s)

end Sys2Proof.Machine
end

