-- ==== Sys2Proof/Machine/Dispatch.lean ====
section
/-! DEFINITION. The dispatch: one arm for each command, one meaning for each arm. -/

namespace Sys2Proof.Machine

/-- The effect of a command on everything but the queue. -/
def exec (i : Instr) (s : State) : Host.Outcome State Fault Refusal :=
  match i with
  | .nop r => Sys2Proof.Machine.execNop r s
  | .echo r => Sys2Proof.Machine.execEcho r s
  | .status r => Sys2Proof.Machine.execStatus r s
  | .identRead r => Sys2Proof.Machine.execIdentRead r s
  | .gradeMap r => Sys2Proof.Machine.execGradeMap r s
  | .optableRead r => Sys2Proof.Machine.execOptableRead r s
  | .fuseSummary r => Sys2Proof.Machine.execFuseSummary r s
  | .settingsGet r => Sys2Proof.Machine.execSettingsGet r s
  | .settingsSet r => Sys2Proof.Machine.execSettingsSet r s
  | .settingsCommit r => Sys2Proof.Machine.execSettingsCommit r s
  | .ledgerRead r => Sys2Proof.Machine.execLedgerRead r s
  | .ledgerMark r => Sys2Proof.Machine.execLedgerMark r s
  | .fabricDiscover r => Sys2Proof.Machine.execFabricDiscover r s
  | .fabricAddrSet r => Sys2Proof.Machine.execFabricAddrSet r s
  | .fabricShapeSet r => Sys2Proof.Machine.execFabricShapeSet r s
  | .routeLoad r => Sys2Proof.Machine.execRouteLoad r s
  | .routeRead r => Sys2Proof.Machine.execRouteRead r s
  | .linkState r => Sys2Proof.Machine.execLinkState r s
  | .linkRetrain r => Sys2Proof.Machine.execLinkRetrain r s
  | .timeMaster r => Sys2Proof.Machine.execTimeMaster r s
  | .timeStatus r => Sys2Proof.Machine.execTimeStatus r s
  | .gangForm r => Sys2Proof.Machine.execGangForm r s
  | .gangDissolve r => Sys2Proof.Machine.execGangDissolve r s
  | .basinCreate r => Sys2Proof.Machine.execBasinCreate r s
  | .basinResize r => Sys2Proof.Machine.execBasinResize r s
  | .basinDestroy r => Sys2Proof.Machine.execBasinDestroy r s
  | .basinSeize r => Sys2Proof.Machine.execBasinSeize r s
  | .basinRelease r => Sys2Proof.Machine.execBasinRelease r s
  | .basinQuery r => Sys2Proof.Machine.execBasinQuery r s
  | .basinMode r => Sys2Proof.Machine.execBasinMode r s
  | .progLoad r => Sys2Proof.Machine.execProgLoad r s
  | .progStart r => Sys2Proof.Machine.execProgStart r s
  | .progStop r => Sys2Proof.Machine.execProgStop r s
  | .progState r => Sys2Proof.Machine.execProgState r s
  | .coreReset r => Sys2Proof.Machine.execCoreReset r s
  | .segPower r => Sys2Proof.Machine.execSegPower r s
  | .segFill r => Sys2Proof.Machine.execSegFill r s
  | .windowOpen r => Sys2Proof.Machine.execWindowOpen r s
  | .windowClose r => Sys2Proof.Machine.execWindowClose r s
  | .windowList r => Sys2Proof.Machine.execWindowList r s
  | .dmaPost r => Sys2Proof.Machine.execDmaPost r s
  | .gateInit r => Sys2Proof.Machine.execGateInit r s
  | .gateRead r => Sys2Proof.Machine.execGateRead r s
  | .gateClean r => Sys2Proof.Machine.execGateClean r s
  | .powerCap r => Sys2Proof.Machine.execPowerCap r s
  | .powerPriority r => Sys2Proof.Machine.execPowerPriority r s
  | .powerOpPrefer r => Sys2Proof.Machine.execPowerOpPrefer r s
  | .powerPace r => Sys2Proof.Machine.execPowerPace r s
  | .powerRamp r => Sys2Proof.Machine.execPowerRamp r s
  | .thermLimits r => Sys2Proof.Machine.execThermLimits r s
  | .throttleRead r => Sys2Proof.Machine.execThrottleRead r s
  | .energyRead r => Sys2Proof.Machine.execEnergyRead r s
  | .estimStatus r => Sys2Proof.Machine.execEstimStatus r s
  | .estimDither r => Sys2Proof.Machine.execEstimDither r s
  | .sweepConfig r => Sys2Proof.Machine.execSweepConfig r s
  | .sweepResult r => Sys2Proof.Machine.execSweepResult r s
  | .fwBegin r => Sys2Proof.Machine.execFwBegin r s
  | .fwBlock r => Sys2Proof.Machine.execFwBlock r s
  | .fwVerify r => Sys2Proof.Machine.execFwVerify r s
  | .fwHandover r => Sys2Proof.Machine.execFwHandover r s
  | .fwConfirm byImage r => Sys2Proof.Machine.execFwConfirm byImage r s
  | .fwAbort byImage r => Sys2Proof.Machine.execFwAbort byImage r s
  | .fwStatus r => Sys2Proof.Machine.execFwStatus r s
  | .debugHalt r => Sys2Proof.Machine.execDebugHalt r s
  | .debugPeek r => Sys2Proof.Machine.execDebugPeek r s
  | .debugPoke r => Sys2Proof.Machine.execDebugPoke r s
  | .requestServiceStart commit => Sys2Proof.Machine.execRequestServiceStart commit s
  | .urgentServiceStart => Sys2Proof.Machine.execUrgentServiceStart s
  | .preemptedCommandResume => Sys2Proof.Machine.execPreemptedCommandResume s
  | .mbxEpnDoorbell ep via v => Sys2Proof.Machine.execMbxEpnDoorbell ep via v s
  | .mbxEpnRspAck ep via v => Sys2Proof.Machine.execMbxEpnRspAck ep via v s
  | .mbxEpnUrgDoorbell ep via v => Sys2Proof.Machine.execMbxEpnUrgDoorbell ep via v s
  | .mbxEpnUrgStatus ep via v => Sys2Proof.Machine.execMbxEpnUrgStatus ep via v s
  | .mbxEpnStatus ep via v => Sys2Proof.Machine.execMbxEpnStatus ep via v s
  | .ledgerDrained via v => Sys2Proof.Machine.execLedgerDrained via v s
  | .ledgerStatus via v => Sys2Proof.Machine.execLedgerStatus via v s
  | .aonLatch via v => Sys2Proof.Machine.execAonLatch via v s
  | .lnkTestStart port via rate => Sys2Proof.Machine.execLnkTestStart port via rate s
  | .lnkTestStop port via => Sys2Proof.Machine.execLnkTestStop port via s
  | .lnkPnTestRefusedClear port via v => Sys2Proof.Machine.execLnkPnTestRefusedClear port via v s
  | .stgWdogKick via v => Sys2Proof.Machine.execStgWdogKick via v s
  | .trnCountLo via => Sys2Proof.Machine.execTrnCountLo via s
  | .dbgSlcnCounterRead via slice which => Sys2Proof.Machine.execDbgSlcnCounterRead via slice which s
  | .dbgJtag via v => Sys2Proof.Machine.execDbgJtag via v s
  | .registerWrite via off v => Sys2Proof.Machine.execRegisterWrite via off v s
  | .cfgAccessUpdateDr dr => Sys2Proof.Machine.execCfgAccessUpdateDr dr s
  | .bypass => Sys2Proof.Machine.execBypass s
  | .idcode => Sys2Proof.Machine.execIdcode s
  | .samplePreload drive seen => Sys2Proof.Machine.execSamplePreload drive seen s
  | .extest drive seen => Sys2Proof.Machine.execExtest drive seen s
  | .extestPulse drive seen => Sys2Proof.Machine.execExtestPulse drive seen s
  | .extestTrain drive seen => Sys2Proof.Machine.execExtestTrain drive seen s
  | .cfgAccess => Sys2Proof.Machine.execCfgAccess s
  | .mailboxRequest ep srcFa slot => Sys2Proof.Machine.execMailboxRequest ep srcFa slot s
  | .mailboxResponse srcFa slot => Sys2Proof.Machine.execMailboxResponse srcFa slot s
  | .chipRstNAssert lowNs => Sys2Proof.Machine.execChipRstNAssert lowNs s
  | .chipRstNRelease straps => Sys2Proof.Machine.execChipRstNRelease straps s
  | .coldReset => Sys2Proof.Machine.execColdReset s
  | .vddAonPowerLoss => Sys2Proof.Machine.execVddAonPowerLoss s
  | .railFault rail => Sys2Proof.Machine.execRailFault rail s
  | .refclkLoss => Sys2Proof.Machine.execRefclkLoss s
  | .coolantLoss => Sys2Proof.Machine.execCoolantLoss s
  | .coolantRestored => Sys2Proof.Machine.execCoolantRestored s
  | .thermalTrip point => Sys2Proof.Machine.execThermalTrip point s
  | .stewardWatchdogExpiry => Sys2Proof.Machine.execStewardWatchdogExpiry s
  | .stewardFault cause pcLow => Sys2Proof.Machine.execStewardFault cause pcLow s
  | .stage0Complete romOk stewardOk transportOk temps trips => Sys2Proof.Machine.execStage0Complete romOk stewardOk transportOk temps trips s
  | .bootConfirmTimeout => Sys2Proof.Machine.execBootConfirmTimeout s
  | .fwVerifyComplete => Sys2Proof.Machine.execFwVerifyComplete s
  | .stage2MarkDown => Sys2Proof.Machine.execStage2MarkDown s
  | .stage2Complete => Sys2Proof.Machine.execStage2Complete s
  | .scratchpadTestComplete failing => Sys2Proof.Machine.execScratchpadTestComplete failing s
  | .coreSelfTestComplete failing pathBad => Sys2Proof.Machine.execCoreSelfTestComplete failing pathBad s
  | .handoverPauseBegin => Sys2Proof.Machine.execHandoverPauseBegin s
  | .exchangeComplete => Sys2Proof.Machine.execExchangeComplete s
  | .startChecksPass => Sys2Proof.Machine.execStartChecksPass s
  | .selfConfirm => Sys2Proof.Machine.execSelfConfirm s
  | .confirmWindowEnd => Sys2Proof.Machine.execConfirmWindowEnd s
  | .vddAck num mv => Sys2Proof.Machine.execVddAck num mv s
  | .vddAckTimeout => Sys2Proof.Machine.execVddAckTimeout s
  | .corePllLocked => Sys2Proof.Machine.execCorePllLocked s
  | .railReport sample core sram flume link => Sys2Proof.Machine.execRailReport sample core sram flume link s
  | .railStaleTimeout => Sys2Proof.Machine.execRailStaleTimeout s
  | .ditherSlot => Sys2Proof.Machine.execDitherSlot s
  | .estimatorPeriod act => Sys2Proof.Machine.execEstimatorPeriod act s
  | .rampShaperInterval forecast quiet => Sys2Proof.Machine.execRampShaperInterval forecast quiet s
  | .thermalConversion temps => Sys2Proof.Machine.execThermalConversion temps s
  | .opLoop demanded withheld => Sys2Proof.Machine.execOpLoop demanded withheld s
  | .paceWindow executed => Sys2Proof.Machine.execPaceWindow executed s
  | .droopDetect below => Sys2Proof.Machine.execDroopDetect below s
  | .droopClear => Sys2Proof.Machine.execDroopClear s
  | .headgateStall missed => Sys2Proof.Machine.execHeadgateStall missed s
  | .hardwareFault n cause slot => Sys2Proof.Machine.execHardwareFault n cause slot s
  | .parityDetection addr reader => Sys2Proof.Machine.execParityDetection addr reader s
  | .flumeFault node plane => Sys2Proof.Machine.execFlumeFault node plane s
  | .segWakeGroup => Sys2Proof.Machine.execSegWakeGroup s
  | .inMemoryOpComplete slice => Sys2Proof.Machine.execInMemoryOpComplete slice s
  | .zeroingComplete basin => Sys2Proof.Machine.execZeroingComplete basin s
  | .segFillComplete => Sys2Proof.Machine.execSegFillComplete s
  | .progLoadComplete basin => Sys2Proof.Machine.execProgLoadComplete basin s
  | .discoveryQuietTimer => Sys2Proof.Machine.execDiscoveryQuietTimer s
  | .discoveryForget => Sys2Proof.Machine.execDiscoveryForget s
  | .discoveryFlood port sender senderPort d => Sys2Proof.Machine.execDiscoveryFlood port sender senderPort d s
  | .discoveryReply port d fa refused down dieId => Sys2Proof.Machine.execDiscoveryReply port d fa refused down dieId s
  | .discoveryWithdrawal port d fa => Sys2Proof.Machine.execDiscoveryWithdrawal port d fa s
  | .timeNomination n => Sys2Proof.Machine.execTimeNomination n s
  | .timeMasterLocked => Sys2Proof.Machine.execTimeMasterLocked s
  | .linkRetrainComplete port us => Sys2Proof.Machine.execLinkRetrainComplete port us s
  | .gangJoin master gang kind tenant basin width height mode => Sys2Proof.Machine.execGangJoin master gang kind tenant basin width height mode s
  | .gangJoinReply gang member accept => Sys2Proof.Machine.execGangJoinReply gang member accept s
  | .gangCommit master gang => Sys2Proof.Machine.execGangCommit master gang s
  | .gangAbort master gang => Sys2Proof.Machine.execGangAbort master gang s
  | .gangCommitAck gang member => Sys2Proof.Machine.execGangCommitAck gang member s
  | .gangReplyDeadline gang => Sys2Proof.Machine.execGangReplyDeadline gang s
  | .gangTentativeExpiry master gang => Sys2Proof.Machine.execGangTentativeExpiry master gang s
  | .gangLeave master gang => Sys2Proof.Machine.execGangLeave master gang s
  | .gangLeaveAck gang member => Sys2Proof.Machine.execGangLeaveAck gang member s
  | .gangLeaveDeadline gang => Sys2Proof.Machine.execGangLeaveDeadline gang s
  | .gangBeat master gang answer => Sys2Proof.Machine.execGangBeat master gang answer s
  | .gangLost master gang lost => Sys2Proof.Machine.execGangLost master gang lost s
  | .gangHalt master gang lost => Sys2Proof.Machine.execGangHalt master gang lost s
  | .gangBarrierRelease master gate edge => Sys2Proof.Machine.execGangBarrierRelease master gate edge s
  | .turnEdge => Sys2Proof.Machine.execTurnEdge s
  | .timeExchangeTimer => Sys2Proof.Machine.execTimeExchangeTimer s
  | .timeReq port m => Sys2Proof.Machine.execTimeReq port m s
  | .timeRsp port m t4 => Sys2Proof.Machine.execTimeRsp port m t4 s
  | .holdoverExpiry => Sys2Proof.Machine.execHoldoverExpiry s
  | .grandmasterFallback lowest => Sys2Proof.Machine.execGrandmasterFallback lowest s
  | .frameReceive port raw fec fixed => Sys2Proof.Machine.execFrameReceive port raw fec fixed s
  | .replay port seq => Sys2Proof.Machine.execReplay port seq s
  | .replayResendTimer port => Sys2Proof.Machine.execReplayResendTimer port s
  | .ackTimer port => Sys2Proof.Machine.execAckTimer port s
  | .linkSilence port => Sys2Proof.Machine.execLinkSilence port s
  | .linkPhyError port cause => Sys2Proof.Machine.execLinkPhyError port cause s
  | .trainingStepComplete port lanesRepaired => Sys2Proof.Machine.execTrainingStepComplete port lanesRepaired s
  | .identityExchange port i_ => Sys2Proof.Machine.execIdentityExchange port i_ s
  | .trainingAttemptFail port => Sys2Proof.Machine.execTrainingAttemptFail port s
  | .partnerTrainingDetected port => Sys2Proof.Machine.execPartnerTrainingDetected port s
  | .stopFrame port cause => Sys2Proof.Machine.execStopFrame port cause s
  | .packetHeaderArrival port p => Sys2Proof.Machine.execPacketHeaderArrival port p s
  | .combineRecordTimeout record => Sys2Proof.Machine.execCombineRecordTimeout record s
  | .revocation src action basin number windows => Sys2Proof.Machine.execRevocation src action basin number windows s
  | .writePacket h data => Sys2Proof.Machine.execWritePacket h data s
  | .addPacket h data => Sys2Proof.Machine.execAddPacket h data s
  | .readRequest h => Sys2Proof.Machine.execReadRequest h s
  | .readData h data => Sys2Proof.Machine.execReadData h data s
  | .addWriteArrival h granule data => Sys2Proof.Machine.execAddWriteArrival h granule data s
  | .reductionTimeout entry => Sys2Proof.Machine.execReductionTimeout entry s
  | .creditReq src window kind outstanding xfer chan => Sys2Proof.Machine.execCreditReq src window kind outstanding xfer chan s
  | .creditGrant src window n xfer chan => Sys2Proof.Machine.execCreditGrant src window n xfer chan s
  | .packetDone src window outcome xfer chan index grant => Sys2Proof.Machine.execPacketDone src window outcome xfer chan index grant s
  | .creditRelease src window n xfer chan => Sys2Proof.Machine.execCreditRelease src window n xfer chan s
  | .full src window xfer chan => Sys2Proof.Machine.execFull src window xfer chan s
  | .fullRetryTimer chan => Sys2Proof.Machine.execFullRetryTimer chan s
  | .creditReclaim window fa chan => Sys2Proof.Machine.execCreditReclaim window fa chan s
  | .lossLimit chan => Sys2Proof.Machine.execLossLimit chan s
  | .remoteGateOperation src tenant op gate sv core life session tag => Sys2Proof.Machine.execRemoteGateOperation src tenant op gate sv core life session tag s
  | .gateResult src tag word => Sys2Proof.Machine.execGateResult src tag word s
  | .holdProbeTimer => Sys2Proof.Machine.execHoldProbeTimer s
  | .holdProbe src gate core life session => Sys2Proof.Machine.execHoldProbe src gate core life session s
  | .holdAnswer src gate alive => Sys2Proof.Machine.execHoldAnswer src gate alive s
  | .waitProbeTimer => Sys2Proof.Machine.execWaitProbeTimer s
  | .waitProbe src tag gate => Sys2Proof.Machine.execWaitProbe src tag gate s
  | .waitAnswer src tag waiting => Sys2Proof.Machine.execWaitAnswer src tag waiting s
  | .waitSilenceTimeout tag => Sys2Proof.Machine.execWaitSilenceTimeout tag s
  | .withdraw src tag gate => Sys2Proof.Machine.execWithdraw src tag gate s
  | .poolFull src tag gate => Sys2Proof.Machine.execPoolFull src tag gate s
  | .poolFullRetry tag => Sys2Proof.Machine.execPoolFullRetry tag s
  | .leaseExpiry gate => Sys2Proof.Machine.execLeaseExpiry gate s
  | .reachabilityLimit gate => Sys2Proof.Machine.execReachabilityLimit gate s
  | .seizureQuiesced => Sys2Proof.Machine.execSeizureQuiesced s
  | .flumeFenceDone => Sys2Proof.Machine.execFlumeFenceDone s
  | .fabricFenceDone => Sys2Proof.Machine.execFabricFenceDone s
  | .seizureCommit => Sys2Proof.Machine.execSeizureCommit s
  | .windowCloseDrained window => Sys2Proof.Machine.execWindowCloseDrained window s
  | .bundleIssue n => Sys2Proof.Machine.execBundleIssue n s
  | .bundleSplitResume n => Sys2Proof.Machine.execBundleSplitResume n s
  | .ifetchMissFill n parityOk => Sys2Proof.Machine.execIfetchMissFill n parityOk s
  | .scoreboardRetire n entry => Sys2Proof.Machine.execScoreboardRetire n entry s
  | .stripStagingComplete n => Sys2Proof.Machine.execStripStagingComplete n s
  | .stripEnd n => Sys2Proof.Machine.execStripEnd n s
  | .vectorOpComplete n => Sys2Proof.Machine.execVectorOpComplete n s
  | .gateResultWrite n tag => Sys2Proof.Machine.execGateResultWrite n tag s
  | .add n sl p f => Sys2Proof.Machine.execAdd n sl p f s
  | .sub n sl p f => Sys2Proof.Machine.execSub n sl p f s
  | .mul n sl p f => Sys2Proof.Machine.execMul n sl p f s
  | .mulh n sl p f => Sys2Proof.Machine.execMulh n sl p f s
  | .div n sl p f => Sys2Proof.Machine.execDiv n sl p f s
  | .rem n sl p f => Sys2Proof.Machine.execRem n sl p f s
  | .neg n sl p f => Sys2Proof.Machine.execNeg n sl p f s
  | .min n sl p f => Sys2Proof.Machine.execMin n sl p f s
  | .max n sl p f => Sys2Proof.Machine.execMax n sl p f s
  | .and n sl p f => Sys2Proof.Machine.execAnd n sl p f s
  | .or n sl p f => Sys2Proof.Machine.execOr n sl p f s
  | .xor n sl p f => Sys2Proof.Machine.execXor n sl p f s
  | .shl n sl p f => Sys2Proof.Machine.execShl n sl p f s
  | .shr n sl p f => Sys2Proof.Machine.execShr n sl p f s
  | .sar n sl p f => Sys2Proof.Machine.execSar n sl p f s
  | .rol n sl p f => Sys2Proof.Machine.execRol n sl p f s
  | .ror n sl p f => Sys2Proof.Machine.execRor n sl p f s
  | .popc n sl p f => Sys2Proof.Machine.execPopc n sl p f s
  | .clz n sl p f => Sys2Proof.Machine.execClz n sl p f s
  | .ext n sl p f => Sys2Proof.Machine.execExt n sl p f s
  | .ins n sl p f => Sys2Proof.Machine.execIns n sl p f s
  | .addi n sl p f => Sys2Proof.Machine.execAddi n sl p f s
  | .li n sl p f => Sys2Proof.Machine.execLi n sl p f s
  | .lic n sl p f => Sys2Proof.Machine.execLic n sl p f s
  | .cmp n sl p f => Sys2Proof.Machine.execCmp n sl p f s
  | .cmpi n sl p f => Sys2Proof.Machine.execCmpi n sl p f s
  | .chk n sl p f => Sys2Proof.Machine.execChk n sl p f s
  | .plog n sl p pd pa pb fn inv => Sys2Proof.Machine.execPlog n sl p pd pa pb fn inv s
  | .sel n sl p rd ra rb ps => Sys2Proof.Machine.execSel n sl p rd ra rb ps s
  | .fadd n sl p f => Sys2Proof.Machine.execFadd n sl p f s
  | .fsub n sl p f => Sys2Proof.Machine.execFsub n sl p f s
  | .fmul n sl p f => Sys2Proof.Machine.execFmul n sl p f s
  | .fma n sl p f => Sys2Proof.Machine.execFma n sl p f s
  | .fmin n sl p f => Sys2Proof.Machine.execFmin n sl p f s
  | .fmax n sl p f => Sys2Proof.Machine.execFmax n sl p f s
  | .frsq n sl p f => Sys2Proof.Machine.execFrsq n sl p f s
  | .fcmp n sl p f => Sys2Proof.Machine.execFcmp n sl p f s
  | .cvt n sl p rd ra kind rnd => Sys2Proof.Machine.execCvt n sl p rd ra kind rnd s
  | .ld n sl p f => Sys2Proof.Machine.execLd n sl p f s
  | .st n sl p f => Sys2Proof.Machine.execSt n sl p f s
  | .mova n sl p ad ra => Sys2Proof.Machine.execMova n sl p ad ra s
  | .rdq n sl p rd q => Sys2Proof.Machine.execRdq n sl p rd q s
  | .dset n sl p d half ra => Sys2Proof.Machine.execDset n sl p d half ra s
  | .whoami n sl p f => Sys2Proof.Machine.execWhoami n sl p f s
  | .rdturn n sl p f => Sys2Proof.Machine.execRdturn n sl p f s
  | .br n sl p f => Sys2Proof.Machine.execBr n sl p f s
  | .bl n sl p f => Sys2Proof.Machine.execBl n sl p f s
  | .jr n sl p ra likely => Sys2Proof.Machine.execJr n sl p ra likely s
  | .brq n sl p f => Sys2Proof.Machine.execBrq n sl p f s
  | .ali n sl p ad imm => Sys2Proof.Machine.execAli n sl p ad imm s
  | .aaddi n sl p ad aa imm => Sys2Proof.Machine.execAaddi n sl p ad aa imm s
  | .aadd n sl p ad aa rb sh => Sys2Proof.Machine.execAadd n sl p ad aa rb sh s
  | .acirc n sl p ad ab lg stride => Sys2Proof.Machine.execAcirc n sl p ad ab lg stride s
  | .abnd n sl p pd aa al len => Sys2Proof.Machine.execAbnd n sl p pd aa al len s
  | .aand n sl p ad aa mask => Sys2Proof.Machine.execAand n sl p ad aa mask s
  | .ards n sl p rd aa => Sys2Proof.Machine.execArds n sl p rd aa s
  | .mmul n p f => Sys2Proof.Machine.execMmul n p f s
  | .mmulp n p f => Sys2Proof.Machine.execMmulp n p f s
  | .mmul3 n p f => Sys2Proof.Machine.execMmul3 n p f s
  | .mmulbs n p f => Sys2Proof.Machine.execMmulbs n p f s
  | .mst n p f => Sys2Proof.Machine.execMst n p f s
  | .mstp n p f => Sys2Proof.Machine.execMstp n p f s
  | .mfin n p ts => Sys2Proof.Machine.execMfin n p ts s
  | .mlat n p f => Sys2Proof.Machine.execMlat n p f s
  | .vbath n p f => Sys2Proof.Machine.execVbath n p f s
  | .vtpop n p f => Sys2Proof.Machine.execVtpop n p f s
  | .vred n p qd ds kind typ => Sys2Proof.Machine.execVred n p qd ds kind typ s
  | .vtclr n p t => Sys2Proof.Machine.execVtclr n p t s
  | .vtld n p t a => Sys2Proof.Machine.execVtld n p t a s
  | .vcfill n p region a => Sys2Proof.Machine.execVcfill n p region a s
  | .gadd n p f => Sys2Proof.Machine.execGadd n p f s
  | .gwait n p f => Sys2Proof.Machine.execGwait n p f s
  | .glock n p f => Sys2Proof.Machine.execGlock n p f s
  | .gtry n p f => Sys2Proof.Machine.execGtry n p f s
  | .gunlock n p f => Sys2Proof.Machine.execGunlock n p f s
  | .gclean n p f => Sys2Proof.Machine.execGclean n p f s
  | .gbar n p f => Sys2Proof.Machine.execGbar n p f s
  | .gsig n p f => Sys2Proof.Machine.execGsig n p f s
  | .gevw n p f => Sys2Proof.Machine.execGevw n p f s
  | .gclr n p f => Sys2Proof.Machine.execGclr n p f s
  | .grd n p f => Sys2Proof.Machine.execGrd n p f s
  | .dfill n p a sv sl => Sys2Proof.Machine.execDfill n p a sv sl s
  | .dcopy n p ad asrc sl => Sys2Proof.Machine.execDcopy n p ad asrc sl s
  | .dpost n p a g sl ch dir gate => Sys2Proof.Machine.execDpost n p a g sl ch dir gate s
  | .loop n p level sr endB => Sys2Proof.Machine.execLoop n p level sr endB s
  | .loopi n p level count endB => Sys2Proof.Machine.execLoopi n p level count endB s
  | .hint n p level lead dur => Sys2Proof.Machine.execHint n p level lead dur s
  | .phase n p ph => Sys2Proof.Machine.execPhase n p ph s
  | .pref n p line => Sys2Proof.Machine.execPref n p line s
  | .edge n p => Sys2Proof.Machine.execEdge n p s
  | .endOp n p => Sys2Proof.Machine.execEndOp n p s
  | .idle on_ f => Sys2Proof.Machine.execIdle on_ f s
  | .turn on_ f => Sys2Proof.Machine.execTurn on_ f s
  | .turned on_ f => Sys2Proof.Machine.execTurned on_ f s
  | .sweepHead on_ f => Sys2Proof.Machine.execSweepHead on_ f s
  | .record on_ f => Sys2Proof.Machine.execRecord on_ f s
  | .sweepEnd on_ f => Sys2Proof.Machine.execSweepEnd on_ f s
  | .image on_ f => Sys2Proof.Machine.execImage on_ f s
  | .blockCheck on_ f => Sys2Proof.Machine.execBlockCheck on_ f s
  | .requestFirstHalf on_ urgent f => Sys2Proof.Machine.execRequestFirstHalf on_ urgent f s
  | .requestSecondHalf on_ urgent f => Sys2Proof.Machine.execRequestSecondHalf on_ urgent f s
  | .responseFrame on_ urgent second f => Sys2Proof.Machine.execResponseFrame on_ urgent second f s
  | .leatSearchTimeout => Sys2Proof.Machine.execLeatSearchTimeout s
  | .masterIdleTimer => Sys2Proof.Machine.execMasterIdleTimer s
  | .masteryTakeover => Sys2Proof.Machine.execMasteryTakeover s
  | .masterDrivePermitted => Sys2Proof.Machine.execMasterDrivePermitted s
  | .endOfLineTimeout => Sys2Proof.Machine.execEndOfLineTimeout s
  | .sweepPeriod => Sys2Proof.Machine.execSweepPeriod s
  | .sweepStall => Sys2Proof.Machine.execSweepStall s
  | .sweepCutTimeout => Sys2Proof.Machine.execSweepCutTimeout s
  | .heldRecordTimer => Sys2Proof.Machine.execHeldRecordTimer s
  | .refclkRestored => Sys2Proof.Machine.execRefclkRestored s
  | .fullFirmwareService => Sys2Proof.Machine.execFullFirmwareService s
  | .tapReset => Sys2Proof.Machine.execTapReset s
  | .tripComparatorSelfCheck point => Sys2Proof.Machine.execTripComparatorSelfCheck point s
  | .operandCacheRefilled n => Sys2Proof.Machine.execOperandCacheRefilled n s
  | .aonDomainFailure => Sys2Proof.Machine.execAonDomainFailure s

end Sys2Proof.Machine
end

