-- ==== Sys2Proof/Machine/Step.lean ====
section
/-! DEFINITION. One step: the command at the front of the queue, or, with nothing commanded, one turn tick. -/

namespace Sys2Proof.Machine

/-- The state with the front of its queue taken off. -/
def State.withQueue (s : State) (l : List Instr) : State := { s with pending := l }

/-- Take the command at the front of the queue and run it on the state with the rest; on an empty queue one turn tick
passes (DESIGN CHOICE, log 1). -/
def step (s : State) : Host.Outcome State Fault Refusal :=
  match s.pending with
  | [] => .next (tick s)
  | c :: r => exec c (s.withQueue r)

/-- The state with the command that a word spells at the front of its queue; a word that spells none changes nothing. -/
def State.withFetchWord (s : State) (nbits w : Nat) : State :=
  match decodeTableWord nbits w with
  | some c => s.withQueue (c :: s.pending)
  | none => s

end Sys2Proof.Machine
end

