-- ==== Sys2Proof/WellFormed.lean ====
section
/-! DEFINITION. When a command is well formed: what an event brings from outside has the size that its rule gives it. -/

namespace Sys2Proof

/-- A request's arguments fill bytes 16 to 127 of its slot (R103). -/
def Request.wf (r : Request) : Bool := r.args.length == 112
/-- A mailbox slot has 128 bytes (R97). -/
def slotWf (l : List Byte) : Bool := l.length == 128
/-- Data frames of 256 bytes (R376, R431). -/
def framesWf (l : List (List Byte)) (n : Nat) : Bool := l.length == n && l.all (fun d => d.length == 256)
/-- A packet: its data frames as the header counts them, and what follows the network header in its header frame (R377). -/
def Packet.wf (p : Packet) : Bool := framesWf p.data p.hdr.nData.toNat && p.content.length == 240
/-- A link frame has 264 bytes (R376). -/
def frameWf (l : List Byte) : Bool := l.length == 264
/-- A leat frame carries 64 bytes (R524). -/
def LeatFrame.wf (f : LeatFrame) : Bool := f.body.length == 64
/-- The counts of a period: 20 for each of 64 nodes, 28 for the chiplet, and those of each account (R487, R515). -/
def Activity.wf (a : Activity) : Bool :=
  a.core.length == 64 && a.core.all (fun l => l.length == 20) && a.chip.length == 28 && a.sramBy.length == 33 && a.flumeBy.length == 33

/-- A command is well formed. -/
def Instr.wf : Instr → Bool
  | .nop r | .echo r | .status r | .identRead r | .gradeMap r | .optableRead r | .fuseSummary r | .settingsGet r
  | .settingsSet r | .settingsCommit r | .ledgerRead r | .ledgerMark r | .fabricDiscover r | .fabricAddrSet r
  | .fabricShapeSet r | .routeLoad r | .routeRead r | .linkState r | .linkRetrain r | .timeMaster r | .timeStatus r
  | .gangForm r | .gangDissolve r | .basinCreate r | .basinResize r | .basinDestroy r | .basinSeize r
  | .basinRelease r | .basinQuery r | .basinMode r | .progLoad r | .progStart r | .progStop r | .progState r
  | .coreReset r | .segPower r | .segFill r | .windowOpen r | .windowClose r | .windowList r | .dmaPost r
  | .gateInit r | .gateRead r | .gateClean r | .powerCap r | .powerPriority r | .powerOpPrefer r | .powerPace r
  | .powerRamp r | .thermLimits r | .throttleRead r | .energyRead r | .estimStatus r | .estimDither r | .sweepConfig r
  | .sweepResult r | .fwBegin r | .fwBlock r | .fwVerify r | .fwHandover r | .fwConfirm _ r | .fwAbort _ r
  | .fwStatus r | .debugHalt r | .debugPeek r | .debugPoke r => r.wf
  | .mailboxRequest _ _ l => slotWf l
  | .mailboxResponse _ l => slotWf l
  | .scratchpadTestComplete l => l.all (· < 512)
  | .estimatorPeriod a => a.wf
  | .rampShaperInterval l q => l.length == 64 && q.length == 64
  | .thermalConversion l => l.length == 72
  | .stage0Complete _ _ _ l _ => l.length == 72
  | .paceWindow l => l.length == 64
  | .frameReceive _ l _ _ => frameWf l
  | .packetHeaderArrival _ p => p.wf
  | .writePacket h d => framesWf d h.granules.toNat
  | .addPacket h d => framesWf d h.granules.toNat
  | .readData h d => framesWf d h.granules.toNat
  | .addWriteArrival _ _ d => d.length == 256
  | .idle _ f => f.wf
  | .turn _ f => f.wf
  | .turned _ f => f.wf
  | .sweepHead _ f => f.wf
  | .record _ f => f.wf
  | .sweepEnd _ f => f.wf
  | .image _ f => f.wf
  | .blockCheck _ f => f.wf
  | .requestFirstHalf _ _ f => f.wf
  | .requestSecondHalf _ _ f => f.wf
  | .responseFrame _ _ _ f => f.wf
  | .requestServiceStart _ | .urgentServiceStart | .preemptedCommandResume | .mbxEpnDoorbell _ _ _
  | .mbxEpnRspAck _ _ _ | .mbxEpnUrgDoorbell _ _ _ | .mbxEpnUrgStatus _ _ _ | .mbxEpnStatus _ _ _ | .ledgerDrained _ _
  | .ledgerStatus _ _ | .aonLatch _ _ | .lnkTestStart _ _ _ | .lnkTestStop _ _ | .lnkPnTestRefusedClear _ _ _
  | .stgWdogKick _ _ | .trnCountLo _ | .dbgSlcnCounterRead _ _ _ | .dbgJtag _ _ | .registerWrite _ _ _
  | .cfgAccessUpdateDr _ | .bypass | .idcode | .samplePreload _ _ | .extest _ _ | .extestPulse _ _ | .extestTrain _ _
  | .cfgAccess | .chipRstNAssert _ | .chipRstNRelease _ | .coldReset | .vddAonPowerLoss | .railFault _ | .refclkLoss
  | .coolantLoss | .coolantRestored | .thermalTrip _ | .stewardWatchdogExpiry | .stewardFault _ _
  | .bootConfirmTimeout | .fwVerifyComplete | .stage2MarkDown | .stage2Complete
  | .coreSelfTestComplete _ _ | .handoverPauseBegin | .exchangeComplete | .startChecksPass | .selfConfirm
  | .confirmWindowEnd | .vddAck _ _ | .vddAckTimeout | .corePllLocked | .railReport _ _ _ _ _ | .railStaleTimeout
  | .ditherSlot | .opLoop _ _ | .droopDetect _ | .droopClear | .headgateStall _ | .hardwareFault _ _ _
  | .parityDetection _ _ | .flumeFault _ _ | .segWakeGroup | .inMemoryOpComplete _ | .zeroingComplete _
  | .segFillComplete | .progLoadComplete _ | .discoveryQuietTimer | .discoveryForget | .discoveryFlood _ _ _ _
  | .discoveryReply _ _ _ _ _ _ | .discoveryWithdrawal _ _ _ | .timeNomination _ | .timeMasterLocked
  | .linkRetrainComplete _ _ | .gangJoin _ _ _ _ _ _ _ _ | .gangJoinReply _ _ _ | .gangCommit _ _ | .gangAbort _ _
  | .gangCommitAck _ _ | .gangReplyDeadline _ | .gangTentativeExpiry _ _ | .gangLeave _ _ | .gangLeaveAck _ _
  | .gangLeaveDeadline _ | .gangBeat _ _ _ | .gangLost _ _ _ | .gangHalt _ _ _ | .gangBarrierRelease _ _ _ | .turnEdge
  | .timeExchangeTimer | .timeReq _ _ | .timeRsp _ _ _ | .holdoverExpiry | .grandmasterFallback _ | .replay _ _
  | .replayResendTimer _ | .ackTimer _ | .linkSilence _ | .linkPhyError _ _ | .trainingStepComplete _ _
  | .identityExchange _ _ | .trainingAttemptFail _ | .partnerTrainingDetected _ | .stopFrame _ _
  | .combineRecordTimeout _ | .revocation _ _ _ _ _ | .readRequest _ | .reductionTimeout _ | .creditReq _ _ _ _ _ _
  | .creditGrant _ _ _ _ _ | .packetDone _ _ _ _ _ _ _ | .creditRelease _ _ _ _ _ | .full _ _ _ _ | .fullRetryTimer _
  | .creditReclaim _ _ _ | .lossLimit _ | .remoteGateOperation _ _ _ _ _ _ _ _ _ | .gateResult _ _ _ | .holdProbeTimer
  | .holdProbe _ _ _ _ _ | .holdAnswer _ _ _ | .waitProbeTimer | .waitProbe _ _ _ | .waitAnswer _ _ _
  | .waitSilenceTimeout _ | .withdraw _ _ _ | .poolFull _ _ _ | .poolFullRetry _ | .leaseExpiry _
  | .reachabilityLimit _ | .seizureQuiesced | .flumeFenceDone | .fabricFenceDone | .seizureCommit
  | .windowCloseDrained _ | .bundleIssue _ | .bundleSplitResume _ | .ifetchMissFill _ _ | .scoreboardRetire _ _
  | .stripStagingComplete _ | .stripEnd _ | .vectorOpComplete _ | .gateResultWrite _ _ | .add _ _ _ _ | .sub _ _ _ _
  | .mul _ _ _ _ | .mulh _ _ _ _ | .div _ _ _ _ | .rem _ _ _ _ | .neg _ _ _ _ | .min _ _ _ _ | .max _ _ _ _
  | .and _ _ _ _ | .or _ _ _ _ | .xor _ _ _ _ | .shl _ _ _ _ | .shr _ _ _ _ | .sar _ _ _ _ | .rol _ _ _ _
  | .ror _ _ _ _ | .popc _ _ _ _ | .clz _ _ _ _ | .ext _ _ _ _ | .ins _ _ _ _ | .addi _ _ _ _ | .li _ _ _ _
  | .lic _ _ _ _ | .cmp _ _ _ _ | .cmpi _ _ _ _ | .chk _ _ _ _ | .plog _ _ _ _ _ _ _ _ | .sel _ _ _ _ _ _ _
  | .fadd _ _ _ _ | .fsub _ _ _ _ | .fmul _ _ _ _ | .fma _ _ _ _ | .fmin _ _ _ _ | .fmax _ _ _ _ | .frsq _ _ _ _
  | .fcmp _ _ _ _ | .cvt _ _ _ _ _ _ _ | .ld _ _ _ _ | .st _ _ _ _ | .mova _ _ _ _ _ | .rdq _ _ _ _ _
  | .dset _ _ _ _ _ _ | .whoami _ _ _ _ | .rdturn _ _ _ _ | .br _ _ _ _ | .bl _ _ _ _ | .jr _ _ _ _ _ | .brq _ _ _ _
  | .ali _ _ _ _ _ | .aaddi _ _ _ _ _ _ | .aadd _ _ _ _ _ _ _ | .acirc _ _ _ _ _ _ _ | .abnd _ _ _ _ _ _ _
  | .aand _ _ _ _ _ _ | .ards _ _ _ _ _ | .mmul _ _ _ | .mmulp _ _ _ | .mmul3 _ _ _ | .mmulbs _ _ _ | .mst _ _ _
  | .mstp _ _ _ | .mfin _ _ _ | .mlat _ _ _ | .vbath _ _ _ | .vtpop _ _ _ | .vred _ _ _ _ _ _ | .vtclr _ _ _
  | .vtld _ _ _ _ | .vcfill _ _ _ _ | .gadd _ _ _ | .gwait _ _ _ | .glock _ _ _ | .gtry _ _ _ | .gunlock _ _ _
  | .gclean _ _ _ | .gbar _ _ _ | .gsig _ _ _ | .gevw _ _ _ | .gclr _ _ _ | .grd _ _ _ | .dfill _ _ _ _ _
  | .dcopy _ _ _ _ _ | .dpost _ _ _ _ _ _ _ _ | .loop _ _ _ _ _ | .loopi _ _ _ _ _ | .hint _ _ _ _ _ | .phase _ _ _
  | .pref _ _ _ | .edge _ _ | .endOp _ _ | .leatSearchTimeout | .masterIdleTimer | .masteryTakeover
  | .masterDrivePermitted | .endOfLineTimeout | .sweepPeriod | .sweepStall | .sweepCutTimeout | .heldRecordTimer
  | .refclkRestored | .fullFirmwareService | .tapReset | .tripComparatorSelfCheck _ | .operandCacheRefilled _
  | .aonDomainFailure => true

end Sys2Proof
end

