-- ==== Sys2Proof/Safety.lean ====
section
/-! DEFINITION. The terms in which claims are stated: completion, a core that is ready, what a command leaves alone, and the
invariants. -/

namespace Sys2Proof.Machine

/-- Command `i` at state `s` answers a next state that satisfies `p`. -/
def Completes (i : Instr) (s : State) (p : State → Prop) : Prop := ∃ t, exec i s = .next t ∧ p t

/-- The scratchpad is in its canonical form. -/
def State.memOk (s : State) : Prop := s.store.mem.wf = true

/-- A run is safe from `s` on for `n` steps: no step stops, and the scratchpad keeps its form. -/
def SafeRun : Nat → State → Prop
  | 0, s => s.memOk
  | n + 1, s => s.memOk ∧ ∃ t, step s = .next t ∧ SafeRun n t

/-- A core in cluster mode that can issue at once: it runs, nothing holds it, and nothing of earlier bundles is in flight. -/
structure Ready (s : State) (n b : Nat) : Prop where
  basin : basinOf s n = some b
  cluster : (s.basin b).lattice = false
  may : mayIssue s n = true
  held : (s.core n).held = none
  gops : (s.core n).gops = []
  entries : (s.core n).sb = []
  vector : (s.core n).v = []
  summaries : (s.core n).qPend = 0
  outer : (s.core n).lc0.count = 0
  inner : (s.core n).lc1.count = 0
  stepping : (s.core n).stepping = false
  reads : s.store.found = []

/-- The core after a bundle that leads to bundle `t`: the operands are dropped, of its staging sets only one for `t` stays, and
the program counter is `t`. -/
def Core.steppedTo (c : Core) (t : BitVec 14) : Core :=
  { c with held := none, staged := c.staged.filter (fun g => g.pc != c.pc && g.pc == t), pc := t }

/-- The core after a bundle without branch or loop: the program counter is one further. -/
def Core.stepped (c : Core) : Core := c.steppedTo (c.pc + 1)

/-- The machine with node `n`'s core changed and nothing else. -/
def OnlyCore (s t : State) (n : Nat) : Prop := ∃ c, t = s.setCore n c

/-- The registers of a core but for those in `l` (R193, R194). -/
def KeepsRegs (c d : Core) (l : List Reg) : Prop :=
  (∀ r, Reg.s r ∉ l → d.getS r = c.getS r) ∧ (∀ r, Reg.a r ∉ l → tget 0 d.a r = tget 0 c.a r)
  ∧ (∀ r, Reg.d r ∉ l → tget 0 d.d r = tget 0 c.d r) ∧ (∀ r, Reg.t r ∉ l → d.tile r = c.tile r)
  ∧ (∀ r, Reg.q r ∉ l → d.getQ r = c.getQ r)

/-- This chiplet has an FA, and that of chiplet `fa` is in its reach (R397). -/
def Reaches (s : State) (fa : W16) : Prop := s.fa ≠ 0xFFFF ∧ reachable s fa = true

/-- Between two states the chiplet originates packet `p` before anything else that leaves it. -/
def Sends (s t : State) (p : Packet) : Prop := ∃ l, t.sent = s.sent ++ Sent.packet p :: l

/-- Nothing is on its way out: no packet waits in an output queue or for a port, and no read data are still leaving. -/
structure Calm (s : State) : Prop where
  queues : ∀ q : Fin 20, (s.port q).queue = []
  waiting : s.fabric.waiting = []
  reads : s.dma.reads = []

/-- No word of the scratchpad fails its parity, and no detection is still to be acted on. -/
structure Sound (s : State) : Prop where
  flips : s.store.mem.flips = []
  found : s.store.found = []

/-! ### Slot rows -/

/-- The operation of a slot row: its node, its place in slot order, its predicate, and what it declares and does. -/
def slotRow : Instr → Option (Nat × Nat × Pred × Op)
  | .add n sl p f => some (n, sideS sl, p, opAdd f)
  | .sub n sl p f => some (n, sideS sl, p, opSub f)
  | .mul n sl p f => some (n, sideS sl, p, opMul f)
  | .mulh n sl p f => some (n, sideS sl, p, opMulh f)
  | .div n sl p f => some (n, sideS sl, p, opDiv f)
  | .rem n sl p f => some (n, sideS sl, p, opRem f)
  | .neg n sl p f => some (n, sideS sl, p, opNeg f)
  | .min n sl p f => some (n, sideS sl, p, opMin f)
  | .max n sl p f => some (n, sideS sl, p, opMax f)
  | .and n sl p f => some (n, sideS sl, p, opAnd f)
  | .or n sl p f => some (n, sideS sl, p, opOr f)
  | .xor n sl p f => some (n, sideS sl, p, opXor f)
  | .shl n sl p f => some (n, sideS sl, p, opShl f)
  | .shr n sl p f => some (n, sideS sl, p, opShr f)
  | .sar n sl p f => some (n, sideS sl, p, opSar f)
  | .rol n sl p f => some (n, sideS sl, p, opRol f)
  | .ror n sl p f => some (n, sideS sl, p, opRor f)
  | .popc n sl p f => some (n, sideS sl, p, opPopc f)
  | .clz n sl p f => some (n, sideS sl, p, opClz f)
  | .ext n sl p f => some (n, sideS sl, p, opExt f)
  | .ins n sl p f => some (n, sideS sl, p, opIns f)
  | .addi n sl p f => some (n, sideS sl, p, opAddi f)
  | .li n sl p f => some (n, sideS sl, p, opLi f)
  | .lic n sl p f => some (n, sideS sl, p, opLic f)
  | .cmp n sl p f => some (n, sideS sl, p, opCmp f)
  | .cmpi n sl p f => some (n, sideS sl, p, opCmpi f)
  | .chk n sl p f => some (n, sideS sl, p, opChk f)
  | .plog n sl p pd pa pb fn inv => some (n, sideS sl, p, opPlog pd pa pb fn inv)
  | .sel n sl p rd ra rb ps => some (n, sideS sl, p, opSel rd ra rb ps)
  | .fadd n sl p f => some (n, sideS sl, p, opFadd f)
  | .fsub n sl p f => some (n, sideS sl, p, opFsub f)
  | .fmul n sl p f => some (n, sideS sl, p, opFmul f)
  | .fma n sl p f => some (n, sideS sl, p, opFma f)
  | .fmin n sl p f => some (n, sideS sl, p, opFmin f)
  | .fmax n sl p f => some (n, sideS sl, p, opFmax f)
  | .frsq n sl p f => some (n, sideS sl, p, opFrsq f)
  | .fcmp n sl p f => some (n, sideS sl, p, opFcmp f)
  | .cvt n sl p rd ra kind rnd => some (n, sideS sl, p, opCvt rd ra kind rnd)
  | .ld n sl p f => some (n, sideS sl, p, opLd f)
  | .st n sl p f => some (n, sideS sl, p, opSt f)
  | .mova n sl p ad ra => some (n, sideS sl, p, opMova ad ra)
  | .rdq n sl p rd q => some (n, sideS sl, p, opRdq rd q)
  | .dset n sl p d half ra => some (n, sideS sl, p, opDset d half ra)
  | .whoami n sl p f => some (n, sideS sl, p, opWhoami f)
  | .rdturn n sl p f => some (n, sideS sl, p, opRdturn f)
  | .br n sl p f => some (n, sideS sl, p, opBr f)
  | .bl n sl p f => some (n, sideS sl, p, opBl f)
  | .jr n sl p ra likely => some (n, sideS sl, p, opJr ra likely)
  | .brq n sl p f => some (n, sideS sl, p, opBrq f)
  | .ali n sl p ad imm => some (n, sideA sl, p, opAli ad imm)
  | .aaddi n sl p ad aa imm => some (n, sideA sl, p, opAaddi ad aa imm)
  | .aadd n sl p ad aa rb sh => some (n, sideA sl, p, opAadd ad aa rb sh)
  | .acirc n sl p ad ab lg stride => some (n, sideA sl, p, opAcirc ad ab lg stride)
  | .abnd n sl p pd aa al len => some (n, sideA sl, p, opAbnd pd aa al len)
  | .aand n sl p ad aa mask => some (n, sideA sl, p, opAand ad aa mask)
  | .ards n sl p rd aa => some (n, sideA sl, p, opArds rd aa)
  | .mmul n p f => some (n, slotM, p, opMmul f)
  | .mmulp n p f => some (n, slotM, p, opMmulp f)
  | .mmul3 n p f => some (n, slotM, p, opMmul3 f)
  | .mmulbs n p f => some (n, slotM, p, opMmulbs f)
  | .mst n p f => some (n, slotM, p, opMst f)
  | .mstp n p f => some (n, slotM, p, opMstp f)
  | .mfin n p ts => some (n, slotM, p, opMfin ts)
  | .mlat n p f => some (n, slotM, p, opMlat f)
  | .vbath n p f => some (n, slotV, p, opVbath f)
  | .vtpop n p f => some (n, slotV, p, opVtpop f)
  | .vred n p qd ds kind typ => some (n, slotV, p, opVred qd ds kind typ)
  | .vtclr n p t => some (n, slotV, p, opVtclr t)
  | .vtld n p t a => some (n, slotV, p, opVtld t a)
  | .vcfill n p region a => some (n, slotV, p, opVcfill region a)
  | .gadd n p f => some (n, slotD, p, opGate 0x00 f)
  | .gwait n p f => some (n, slotD, p, opGate 0x01 f)
  | .glock n p f => some (n, slotD, p, opGate 0x02 f)
  | .gtry n p f => some (n, slotD, p, opGate 0x03 f)
  | .gunlock n p f => some (n, slotD, p, opGate 0x04 f)
  | .gclean n p f => some (n, slotD, p, opGate 0x05 f)
  | .gbar n p f => some (n, slotD, p, opGate 0x06 f)
  | .gsig n p f => some (n, slotD, p, opGate 0x07 f)
  | .gevw n p f => some (n, slotD, p, opGate 0x08 f)
  | .gclr n p f => some (n, slotD, p, opGate 0x09 f)
  | .grd n p f => some (n, slotD, p, opGate 0x0A f)
  | .dfill n p a sv sl => some (n, slotD, p, opDfill a sv sl)
  | .dcopy n p ad asrc sl => some (n, slotD, p, opDcopy ad asrc sl)
  | .dpost n p a g sl ch dir gate => some (n, slotD, p, opDpost a g sl ch dir gate)
  | .loop n p level sr endB => some (n, slotH, p, opLoop level sr endB)
  | .loopi n p level count endB => some (n, slotH, p, opLoopi level count endB)
  | .hint n p level lead dur => some (n, slotH, p, opHint level lead dur)
  | .phase n p ph => some (n, slotH, p, opPhase ph)
  | .pref n p line => some (n, slotH, p, opPref line)
  | .edge n p => some (n, slotH, p, opEdge)
  | .endOp n p => some (n, slotH, p, opEnd)
  | _ => none

/-- Row `i` issues on core `n` in full: the core takes `f`, and is one bundle further; nothing else changes. -/
def Steps (i : Instr) (s : State) (n : Nat) (f : Core → Core) : Prop := exec i s = .next (s.setCore n (f (s.core n)).stepped)

/-- Basin `b` owns every segment that the bytes touch, and each is ON (R215). -/
def Accessible (s : State) (b lo len : Nat) : Prop :=
  lo + len ≤ Memory.size ∧ ∀ k ∈ segsOf lo (lo + len), (s.seg k).owner = some b ∧ (s.seg k).power = .on

/-- A gate operation of core `n` on gate `g` of this chiplet has issued: the gate is `k`, no other changes, and the operation is
outstanding with the given result, which no register holds yet (R243, R449). -/
def GateIssued (s t : State) (n : Nat) (f : FmtG) (k : Gate) (result : Option W64) : Prop :=
  t.gate f.gate.toNat = k ∧ (∀ j, j ≠ f.gate.toNat → t.gate j = s.gate j) ∧ t.store = s.store
  ∧ (t.core n).s = (s.core n).s ∧ (t.core n).pc = (s.core n).pc + 1
  ∧ ∃ o : GateOp, (t.core n).gops = [o] ∧ o.sd = f.sd ∧ o.gate = f.gate ∧ o.acquire = f.acquire ∧ o.remote = false ∧ o.result = result

/-- The cores of a lattice that can issue at once under its master `n`: nothing holds any of them, and nothing is in flight. -/
structure LatticeReady (s : State) (n b : Nat) (ns : List Nat) : Prop where
  basin : basinOf s n = some b
  lattice : (s.basin b).lattice = true
  master : (s.basin b).master = n
  may : mayIssue s n = true
  cores : basinCores s b = ns
  mem : n ∈ ns
  members : ∀ k ∈ ns, basinOf s k = some b
  quiet : ∀ k ∈ ns, (s.core k).held = none ∧ (s.core k).gops = [] ∧ (s.core k).sb = [] ∧ (s.core k).v = [] ∧ (s.core k).qPend = 0
  outer : (s.core n).lc0.count = 0
  inner : (s.core n).lc1.count = 0
  stepping : (s.core n).stepping = false
  reads : s.store.found = []

/-! ### Mailbox commands -/

/-- The command of a mailbox row, and its request. -/
def mailRow : Instr → Option (Cmd × Request)
  | .nop r => some (cmdNop, r)
  | .echo r => some (cmdEcho, r)
  | .status r => some (cmdStatus, r)
  | .identRead r => some (cmdIdentRead, r)
  | .gradeMap r => some (cmdGradeMap, r)
  | .optableRead r => some (cmdOptableRead, r)
  | .fuseSummary r => some (cmdFuseSummary, r)
  | .settingsGet r => some (cmdSettingsGet, r)
  | .settingsSet r => some (cmdSettingsSet, r)
  | .settingsCommit r => some (cmdSettingsCommit, r)
  | .ledgerRead r => some (cmdLedgerRead, r)
  | .ledgerMark r => some (cmdLedgerMark, r)
  | .fabricDiscover r => some (cmdFabricDiscover, r)
  | .fabricAddrSet r => some (cmdFabricAddrSet, r)
  | .fabricShapeSet r => some (cmdFabricShapeSet, r)
  | .routeLoad r => some (cmdRouteLoad, r)
  | .routeRead r => some (cmdRouteRead, r)
  | .linkState r => some (cmdLinkState, r)
  | .linkRetrain r => some (cmdLinkRetrain, r)
  | .timeMaster r => some (cmdTimeMaster, r)
  | .timeStatus r => some (cmdTimeStatus, r)
  | .gangForm r => some (cmdGangForm, r)
  | .gangDissolve r => some (cmdGangDissolve, r)
  | .basinCreate r => some (cmdBasinCreate, r)
  | .basinResize r => some (cmdBasinResize, r)
  | .basinDestroy r => some (cmdBasinDestroy, r)
  | .basinSeize r => some (cmdBasinSeize, r)
  | .basinRelease r => some (cmdBasinRelease, r)
  | .basinQuery r => some (cmdBasinQuery, r)
  | .basinMode r => some (cmdBasinMode, r)
  | .progLoad r => some (cmdProgLoad, r)
  | .progStart r => some (cmdProgStart, r)
  | .progStop r => some (cmdProgStop, r)
  | .progState r => some (cmdProgState, r)
  | .coreReset r => some (cmdCoreReset, r)
  | .segPower r => some (cmdSegPower, r)
  | .segFill r => some (cmdSegFill, r)
  | .windowOpen r => some (cmdWindowOpen, r)
  | .windowClose r => some (cmdWindowClose, r)
  | .windowList r => some (cmdWindowList, r)
  | .dmaPost r => some (cmdDmaPost, r)
  | .gateInit r => some (cmdGateInit, r)
  | .gateRead r => some (cmdGateRead, r)
  | .gateClean r => some (cmdGateClean, r)
  | .powerCap r => some (cmdPowerCap, r)
  | .powerPriority r => some (cmdPowerPriority, r)
  | .powerOpPrefer r => some (cmdPowerOpPrefer, r)
  | .powerPace r => some (cmdPowerPace, r)
  | .powerRamp r => some (cmdPowerRamp, r)
  | .thermLimits r => some (cmdThermLimits, r)
  | .throttleRead r => some (cmdThrottleRead, r)
  | .energyRead r => some (cmdEnergyRead, r)
  | .estimStatus r => some (cmdEstimStatus, r)
  | .estimDither r => some (cmdEstimDither, r)
  | .sweepConfig r => some (cmdSweepConfig, r)
  | .sweepResult r => some (cmdSweepResult, r)
  | .fwBegin r => some (cmdFwBegin, r)
  | .fwBlock r => some (cmdFwBlock, r)
  | .fwVerify r => some (cmdFwVerify, r)
  | .fwHandover r => some (cmdFwHandover, r)
  | .fwConfirm false r => some (cmdFwConfirm, r)
  | .fwAbort false r => some (cmdFwAbort, r)
  | .fwStatus r => some (cmdFwStatus, r)
  | .debugHalt r => some (cmdDebugHalt, r)
  | .debugPeek r => some (cmdDebugPeek, r)
  | .debugPoke r => some (cmdDebugPoke, r)
  | _ => none

/-- The steward serves the request of a row at once: its transport serves, and nothing is before it (R101, R107, R113, R116). -/
def ServedAtOnce (s : State) (r : Request) : Prop :=
  transportUp s r.ep = true ∧ routed s r.ep r.srcFa = true
  ∧ (if r.urgent then (s.ep r.ep).busy = false ∧ (s.ep r.ep).done = false ∧ urgentFree s = true else canBegin s r.ep = true)

/-- The state as the service of a request begins: an urgent one stands in its slot, BUSY; a normal one has passed through its ring
and moves the round robin. -/
def serviceStart (c : Cmd) (r : Request) (s : State) : State :=
  if r.urgent then s.setEp r.ep { s.ep r.ep with busy := true, urgReq := requestSlot c.code r, urgSrc := r.srcFa }
  else takeAtOnce c r s

/-- The request passes the checks that all commands share, and is to be carried out. -/
def Admitted (c : Cmd) (r : Request) (s : State) : Prop :=
  ServedAtOnce s r ∧ generalStatus c r (serviceStart c r s) = none ∧ r.checkOnly = false

/-- The ledger entry of a command's commit (R120). -/
def commitEntry (s : State) (c : Cmd) (r : Request) (a : Reply) (d : List Byte) : LedgerEntry :=
  let o := originOf s c r
  { srcFa := o.srcFa, ep := o.ep, flags := (if r.urgent then 0x01 else 0) ||| (if a.mark then 0x08 else 0)
    cmd := c.code, tenant := r.tenant, result := a.status, reqSeq := r.seq, detail := padTo 8 d }

/-- Row `i` is answered at once with a status and a result, and does nothing else: no entry, no change. -/
def AnswersOnly (i : Instr) (c : Cmd) (r : Request) (s : State) (st : W16) (result : List Byte) : Prop :=
  exec i s = .next (respond (serviceStart c r s) c.code r st result none)

/-- Row `i` is answered from a state that satisfies `p`: what its commit leaves. -/
def AnsweredAfter (i : Instr) (c : Cmd) (r : Request) (s : State) (st : W16) (result : List Byte) (q : Option W32)
    (p : State → Prop) : Prop :=
  ∃ v, exec i s = .next (respond v c.code r st result q) ∧ p v

/-- Row `i` commits `f` together with a ledger entry of the given detail, and is answered with a status and a result (R121). -/
def CommitsWith (i : Instr) (c : Cmd) (r : Request) (s : State) (st : W16) (result detail : List Byte) (f : State → State) : Prop :=
  let u := serviceStart c r s
  exec i s = .next (respond (f (append u (commitEntry u c r { status := st } detail))) c.code r st result (some s.ledger.head))

end Sys2Proof.Machine
end

