-- ==== Sys2Proof/Certificates/Slice0/Obligations.lean ====
section
/-! DEFINITION. The statements for the provers. -/

open Sys2Proof Sys2Proof.Machine

/-! ### The queue, the reset, the whole machine -/

/-- A step takes the command at the front of the queue and answers what that command does to the state with the rest. -/
def Obligations.StepRunsTheFrontCommand : Prop :=
  ∀ (c : Instr) (r : List Instr) (s : State), step (s.withQueue (c :: r)) = exec c (s.withQueue r)

/-- With nothing commanded a step is one turn tick: 1 ns passes, and outside reset the turn counter counts (DESIGN CHOICE, log
1); a chiplet without VDD_AON stands still. -/
def Obligations.EmptyQueueIsOneTurnTick : Prop :=
  ∀ s : State, s.pending = [] →
    (s.boot.dead = true → step s = .next s)
    ∧ (s.boot.dead = false → s.boot.rstLow = true →
        step s = .next { s with time := { s.time with elapsed := s.time.elapsed + 1 } })
    ∧ (s.boot.dead = false → s.boot.rstLow = false →
        ∃ t, step s = .next t ∧ t.time.count = s.time.count + 1 ∧ t.time.elapsed = s.time.elapsed + 1
          ∧ t.store = s.store ∧ t.ledger = s.ledger ∧ t.head = s.head)

/-- No command changes the queue behind it: the queue is the sender's alone. -/
def Obligations.CommandsLeaveTheQueue : Prop :=
  ∀ (c : Instr) (s t : State), exec c s = .next t → t.pending = s.pending

/-- What was fused at test never changes, whatever is commanded: every read of the operating points, the grade and the die
identifier returns the same (R131, R132). -/
def Obligations.FusesNeverChange : Prop := ∀ s t : State, step s = .next t → t.fuses = s.fuses

/-- Every step keeps the scratchpad in its canonical form. It rests on the model's choices in log 2. -/
def Obligations.ScratchpadStaysCanonical : Prop := ∀ s t : State, s.memOk → step s = .next t → t.memOk

/-- The scratchpad has its canonical form at reset. It rests on the model's choices in log 2. -/
def Obligations.ResetScratchpadIsCanonical : Prop := State.reset.memOk

/-- After a cold reset the registers read their reset values: stage 0, no reset cause, no latch, an empty ledger whose
LEDGER_DRAINED names the entry before sequence 0, no partner on any port, no grandmaster, the turn period, no watchdog expiry,
no endpoint bound to a delivery. It rests on the model's choices in logs 5, 69. -/
def Obligations.RegistersReadTheirResetValues : Prop :=
  let r := fun (o : Nat) => (readReg State.reset .sideband o).1
  r 0x000000 = 0x2AB4199B ∧ r 0x000004 = 0 ∧ r 0x00000C = 0 ∧ r 0x000010 = 0 ∧ r 0x000014 = 0 ∧ r 0x000018 = 0
  ∧ r 0x020000 = 0 ∧ r 0x020004 = 0xFFFFFFFF ∧ r 0x020008 = 0 ∧ r 0x02000C = 0 ∧ r 0x020010 = 0
  ∧ (∀ q : Fin 20, r (0x040000 + 0x400 * (q : Nat)) = 0x00FF0000 ∧ r (0x040004 + 0x400 * (q : Nat)) = 0x0000FFFF
      ∧ r (0x040008 + 0x400 * (q : Nat)) = 0 ∧ r (0x04000C + 0x400 * (q : Nat)) = 0 ∧ r (0x040010 + 0x400 * (q : Nat)) = 0
      ∧ r (0x040014 + 0x400 * (q : Nat)) = 0 ∧ r (0x040020 + 0x400 * (q : Nat)) = 0)
  ∧ r 0x050000 = 0 ∧ r 0x050004 = 0 ∧ r 0x050008 = 0x001F0000 ∧ r 0x05000C = 0x0000FFFF ∧ r 0x050010 = 1000000
  ∧ r 0x050014 = 0 ∧ r 0x060004 = 10000 ∧ r 0x060008 = 0 ∧ r 0x06000C = 0x0000FF00 ∧ r 0x060010 = 0 ∧ r 0x060014 = 0
  ∧ r 0x0F0000 = 0

/-! ### Registers of config space (R97 to R124, R581 to R599) -/

/-- MBX_EPn_DOORBELL: a value at most 32 past the consumer becomes the producer index, any other only sets RING_FAULT, and a
write from a transport that is not the endpoint's only sets FOREIGN; nothing else changes. -/
def Obligations.DoorbellMovesTheProducer : Prop :=
  ∀ (e : Fin 6) (via : Transport) (v : W32) (s : State), reachableRegs s = true →
    (via = ownTransport e → (v.setWidth 6 - (s.ep e).cons).toNat ≤ 32 →
      exec (.mbxEpnDoorbell e via v) s = .next (s.setEp e { s.ep e with prod := v.setWidth 6 }))
    ∧ (via = ownTransport e → 32 < (v.setWidth 6 - (s.ep e).cons).toNat →
      exec (.mbxEpnDoorbell e via v) s = .next (s.setEp e { s.ep e with ringFault := true }))
    ∧ (via ≠ ownTransport e →
      exec (.mbxEpnDoorbell e via v) s = .next (s.setEp e { s.ep e with foreign := true }))

/-- MBX_EPn_RSP_ACK: the consumer moves forward or stays, and never passes COMPLETION; otherwise RING_FAULT is set and it keeps
its value. -/
def Obligations.AcknowledgementNeverPassesCompletion : Prop :=
  ∀ (e : Fin 6) (v : W32) (s : State), reachableRegs s = true →
    let p := s.ep e
    ((p.comp - v.setWidth 6).toNat ≤ (p.comp - p.ack).toNat →
      exec (.mbxEpnRspAck e (ownTransport e) v) s = .next (s.setEp e { p with ack := v.setWidth 6 }))
    ∧ ((p.comp - p.ack).toNat < (p.comp - v.setWidth 6).toNat →
      exec (.mbxEpnRspAck e (ownTransport e) v) s = .next (s.setEp e { p with ringFault := true }))

/-- MBX_EPn_URG_DOORBELL: while BUSY or DONE is set it is ignored and sets OVERRUN; otherwise it submits the urgent slot and sets
BUSY; writing 0 has no effect. -/
def Obligations.UrgentDoorbellSubmitsOrOverruns : Prop :=
  ∀ (e : Fin 6) (v : W32) (s : State), reachableRegs s = true →
    let p := s.ep e
    let own := ownTransport e
    (v.getLsbD 0 = false → exec (.mbxEpnUrgDoorbell e own v) s = .next s)
    ∧ (v.getLsbD 0 = true → (p.busy || p.done) = true →
      exec (.mbxEpnUrgDoorbell e own v) s = .next (s.setEp e { p with overrun := true }))
    ∧ (v.getLsbD 0 = true → (p.busy || p.done) = false →
      Completes (.mbxEpnUrgDoorbell e own v) s (fun t =>
        t.ep e = { p with busy := true } ∧ t.svc.urgentQ = s.svc.urgentQ ++ [(e : Nat)]
        ∧ t = { s.setEp e { p with busy := true } with svc := { s.svc with urgentQ := s.svc.urgentQ ++ [(e : Nat)] } }))

/-- The W1C fields: a 1 clears the bit, a 0 leaves it, and nothing else changes: DONE and OVERRUN, FOREIGN and RING_FAULT,
LOSS, BOUNDARY_REFUSED, and the REFUSED of a lane test. It rests on the model's choices in log 71. -/
def Obligations.WritingOneClears : Prop :=
  ∀ (e : Fin 6) (q : Fin 20) (via : Transport) (v : W32) (s : State), reachableRegs s = true → hostTransport via = true →
    let p := s.ep e
    exec (.mbxEpnUrgStatus e (ownTransport e) v) s
        = .next (s.setEp e { p with done := p.done && !v.getLsbD 1, overrun := p.overrun && !v.getLsbD 2 })
    ∧ exec (.mbxEpnStatus e (ownTransport e) v) s
        = .next (s.setEp e { p with foreign := p.foreign && !v.getLsbD 1, ringFault := p.ringFault && !v.getLsbD 2 })
    ∧ exec (.ledgerStatus via v) s = .next (s.setLedger { s.ledger with loss := s.ledger.loss && !v.getLsbD 0 })
    ∧ exec (.dbgJtag via v) s = .next { s with tap := { s.tap with refused := s.tap.refused && !v.getLsbD 0 } }
    ∧ (v.getLsbD 3 = true → exec (.lnkPnTestRefusedClear q via v) s = .next (s.setPort q { s.port q with testRefused := false }))
    ∧ (v.getLsbD 3 = false → exec (.lnkPnTestRefusedClear q via v) s = .next s)

/-- LEDGER_DRAINED moves forward and never past the last entry written; NEAR_FULL clears when fewer than 3,584 entries are left
undrained; from JTAG the write is ignored. -/
def Obligations.DrainingStaysWithinTheLedger : Prop :=
  ∀ (v : W32) (s : State), reachableRegs s = true →
    let l := s.ledger
    let d := (v - l.drained).toNat
    (1 ≤ d → d ≤ (l.head - 1 - l.drained).toNat →
      exec (.ledgerDrained .sideband v) s = .next (s.setLedger { l with
        drained := v, nearFull := l.nearFull && decide (3584 ≤ (l.head - 1 - v).toNat) }))
    ∧ (d = 0 ∨ (l.head - 1 - l.drained).toNat < d → exec (.ledgerDrained .sideband v) s = .next s)
    ∧ exec (.ledgerDrained .jtag v) s = .next s

/-- A write of AON_LATCH by a host transport clears only records: those it names whose cause is no longer present, which for the thermal
trip is that every point reads below its trip limit; stops, THERM_ALERT_N and all else stay. A write from anywhere else, or while config
space cannot be reached, changes nothing. It rests on the model's choices in log 31. -/
def Obligations.LatchWritesClearOnlyTheRecord : Prop :=
  ∀ (via : Transport) (v : W32) (s : State),
    let l := s.aon.latch
    let point := fun (k : Nat) => tget {} s.head.points k
    (reachableRegs s = true → hostTransport via = true → Completes (.aonLatch via v) s (fun t =>
      t.aon.latch.coolant = (l.coolant && (!v.getLsbD 0 || !s.aon.coolantLevel))
      ∧ t.aon.latch.rail = (l.rail && (!v.getLsbD 1 || decide (s.aon.rails ≠ 0x3F)))
      ∧ t.aon.latch.refclk = (l.refclk && (!v.getLsbD 2 || !s.aon.refclkOk))
      ∧ (t.aon.latch.trip = true ↔ l.trip = true ∧ (v.getLsbD 3 = false ∨ ∃ k < 72, (point k).trip ≤ (point k).temp))
      ∧ t = { s with aon := { s.aon with latch := t.aon.latch } }))
    ∧ (reachableRegs s = false ∨ hostTransport via = false → exec (.aonLatch via v) s = .next s)

/-- A lane test starts on a D port in stage 0 or in ROM recovery only, with its counts cleared; any other start sets REFUSED.
Ending it returns the port to BASE and leaves its counts, which are free; the scratchpad, the cores and the basins stay. It rests on the model's
choices in log 72. -/
def Obligations.LaneTestsRunOnlyBeforeService : Prop :=
  ∀ (q : Fin 20) (via : Transport) (rate : Bool) (s : State), reachableRegs s = true → hostTransport via = true →
    (q.val < 8 → (s.boot.stage = 0 ∨ s.boot.stage = 8) → (s.port q).testRun = false →
      exec (.lnkTestStart q via rate) s
        = .next (s.setPort q { s.port q with testRun := true, testRate := rate, testErr := none }))
    ∧ (8 ≤ q.val ∨ (s.boot.stage ≠ 0 ∧ s.boot.stage ≠ 8) →
      exec (.lnkTestStart q via rate) s = .next (s.setPort q { s.port q with testRefused := true }))
    ∧ ((s.port q).testRun = true →
      Completes (.lnkTestStop q via) s (fun t =>
        (t.port q).testRun = false ∧ (t.port q).state = lnBase ∧ (t.port q).testErr = some s.free
        ∧ t.store = s.store ∧ t.die = s.die))

/-- Only the steward's write of 0xA5A5 restarts the watchdog; any other write changes nothing. -/
def Obligations.OnlyTheStewardRestartsTheWatchdog : Prop :=
  ∀ (via : Transport) (v : W32) (s : State), reachableRegs s = true →
    (via = .steward → v = 0xA5A5 → exec (.stgWdogKick via v) s = .next { s with svc := { s.svc with kick := s.time.elapsed } })
    ∧ (via ≠ .steward ∨ v ≠ 0xA5A5 → exec (.stgWdogKick via v) s = .next s)

/-- TRN_COUNT_LO returns the low half and latches the high half for its transport alone; the read of a slice counter
answers one value and changes nothing else. It rests on the model's choices in logs 7, 70. -/
def Obligations.CounterReadsLatchOrClear : Prop :=
  ∀ (via : Transport) (slice : Fin 64) (k : Fin 5) (s : State), reachableRegs s = true →
    Completes (.trnCountLo via) s (fun t =>
      t.sent = s.sent ++ [.readData via 0x050000 (s.time.count.setWidth 32)]
      ∧ (readReg t via 0x050004).1 = (s.time.count >>> 32).setWidth 32
      ∧ (∀ o : Transport, o ≠ via → (readReg t o 0x050004).1 = (readReg s o 0x050004).1)
      ∧ t = { s with sent := t.sent, time := { s.time with latches := t.time.latches } })
    ∧ Completes (.dbgSlcnCounterRead via slice k) s (fun t =>
      t.sent = s.sent ++ [.readData via (0x0F1000 + 0x20 * (slice : Nat) + 4 * (k : Nat)) (BitVec.ofNat 32 s.fresh.1)]
      ∧ t = { s with sent := t.sent, free := s.free + 1 })

/-- A write reaches the register whatever bits [1:0] of its offset are; LEDGER_WIN_SEL takes its low two bits; the headgate mirror
takes no write; a word of EP0's request ring is replaced in its slot. -/
def Obligations.RegisterWritesReachWholeWords : Prop :=
  ∀ (off : BitVec 24) (v : W32) (s : State), reachableRegs s = true →
    (∀ via : Transport, exec (.registerWrite via off v) s = exec (.registerWrite via (off &&& 0xFFFFFC) v) s)
    ∧ exec (.registerWrite .sideband 0x020010 v) s = .next (s.setLedger { s.ledger with winSel := v.setWidth 2 })
    ∧ (∀ via : Transport, off.toNat / 0x10000 = 3 → exec (.registerWrite via off v) s = .next s)
    ∧ (∀ (k : Fin 32) (w : Fin 32), Completes (.registerWrite .sideband (BitVec.ofNat 24 (0x018000 + 128 * (k : Nat) + 4 * (w : Nat))) v) s
        (fun t => t = s.setEp 0 (t.ep 0) ∧ fieldAt (tget [] (t.ep 0).req k) (4 * (w : Nat)) 4 = v.toNat
          ∧ ∀ j : Nat, j ≠ k → tget [] (t.ep 0).req j = tget [] (s.ep 0).req j))

/-! ### JTAG (R49 to R52, R602) -/

/-- Each instruction loads its code: BYPASS shifts out the one bit 0, IDCODE the identity 0x2AB4199B, SAMPLE/PRELOAD loads the
boundary cells and captures what the pins and lanes show.  The boundary-scan instructions run only in stage 0 and in ROM recovery,
where the cells drive and capture, with THERM_ALERT_N low as long as a cause of R45 is present and else as its cell says;
elsewhere they select BYPASS and show the refusal with their code.  Nothing else changes. It rests on the model's choices in logs
76, 82. -/
def Obligations.JtagInstructionsSelect : Prop :=
  ∀ (d p : Cells) (s : State), s.boot.dead = false →
    let load := fun (c : Byte) => Host.Outcome.next { s with tap := { s.tap with ir := c } }
    let seen := fun (c : Cells) => c.tx = p.tx ∧ c.rx = p.rx ∧ ∀ i : Fin 16, i ≠ 2 → c.pins.getLsbD i = p.pins.getLsbD i
    let runs := fun (i : Instr) (code : Byte) => Completes i s (fun t =>
      t.tap = { s.tap with ir := code, drive := d, seen := t.tap.seen } ∧ seen t.tap.seen
      ∧ (thermAlert t = (alertCause s || !d.pins.getLsbD 2)) ∧ t.tap.seen.pins.getLsbD 2 = (p.pins.getLsbD 2 && !thermAlert t)
      ∧ t = { s with tap := t.tap, sent := t.sent }
      ∧ ∃ c, t.sent = s.sent ++ [.tdo 112 (cellsValue t.tap.seen), .scan code c] ∧ c.tx = d.tx
          ∧ c.pins.getLsbD 2 = (d.pins.getLsbD 2 && !alertCause s))
    let refuses := fun (i : Instr) (code : Byte) => exec i s
      = .next { s with tap := { s.tap with ir := 0xFF, bypass := false, refused := true, last := code }, sent := s.sent ++ [.tdo 1 0] }
    exec .bypass s = .next { s with tap := { s.tap with ir := 0xFF, bypass := false }, sent := s.sent ++ [.tdo 1 0] }
    ∧ exec .idcode s
        = .next { s with tap := { s.tap with ir := 0x01, id := 0x2AB4199B }, sent := s.sent ++ [.tdo 32 0x2AB4199B] }
    ∧ Completes (.samplePreload d p) s (fun t =>
        t.tap = { s.tap with ir := 0x02, drive := d, seen := t.tap.seen } ∧ seen t.tap.seen ∧ t = { s with tap := t.tap, sent := t.sent }
        ∧ t.sent = s.sent ++ [.tdo 112 (cellsValue t.tap.seen)])
    ∧ exec .cfgAccess s = load 0x20 ∧ exec .tapReset s = load 0x01
    ∧ (s.boot.stage = 0 ∨ s.boot.stage = 8 →
        runs (.extest d p) 0x03 ∧ runs (.extestPulse d p) 0x09 ∧ runs (.extestTrain d p) 0x0A)
    ∧ (s.boot.stage ≠ 0 → s.boot.stage ≠ 8 →
        refuses (.extest d p) 0x03 ∧ refuses (.extestPulse d p) 0x09 ∧ refuses (.extestTrain d p) 0x0A)

/-- Update-DR of CFG_ACCESS: without VALID nothing happens; with it a read captures the register's value, its offset and DONE;
a write is the write that REGISTER_WRITE makes from JTAG and captures DONE; with CHIP_RST_N low nothing is performed and ERROR
is captured. It rests on the model's choices in log 73. -/
def Obligations.CfgAccessPerformsOneAccess : Prop :=
  ∀ (dr : W64) (s : State), s.boot.dead = false → s.tap.ir = 0x20 →
    let off := (dr >>> 32).setWidth 24
    (dr.getLsbD 57 = false → exec (.cfgAccessUpdateDr dr) s = .next s)
    ∧ (dr.getLsbD 57 = true → s.boot.rstLow = false → dr.getLsbD 56 = false →
        Completes (.cfgAccessUpdateDr dr) s (fun t =>
          t.tap.dr.setWidth 32 = (readReg s .jtag off.toNat).1 ∧ (t.tap.dr >>> 32).setWidth 24 = off
          ∧ t.tap.dr.getLsbD 57 = true ∧ t.tap.dr.getLsbD 58 = false
          ∧ t = { (readReg s .jtag off.toNat).2 with tap := { s.tap with dr := t.tap.dr } }))
    ∧ (dr.getLsbD 57 = true → s.boot.rstLow = false → dr.getLsbD 56 = true →
        Completes (.cfgAccessUpdateDr dr) s (fun t =>
          (t.tap.dr >>> 32).setWidth 24 = off ∧ t.tap.dr.getLsbD 56 = true ∧ t.tap.dr.getLsbD 57 = true
          ∧ ∃ u, exec (.registerWrite .jtag off (dr.setWidth 32)) s = .next u
            ∧ t = { u with tap := { u.tap with dr := t.tap.dr }, free := u.free + 1 }))
    ∧ (dr.getLsbD 57 = true → s.boot.rstLow = true →
        Completes (.cfgAccessUpdateDr dr) s (fun t =>
          t.tap.dr.getLsbD 57 = false ∧ t.tap.dr.getLsbD 58 = true
          ∧ t = { s with tap := { s.tap with dr := t.tap.dr }, free := s.free + 1 }))

/-! ### Mailbox commands (R100 to R116, R121, R126 to R192) -/

/-- Every mailbox command whose request is served at once and passes its checks commits, with its ledger entry at LEDGER_HEAD
where it has one, and is answered; WINDOW.CLOSE, SEG.POWER and BASIN.SEIZE may commit now and be answered later. It rests on
the model's choices in logs 10, 29. -/
def Obligations.MailboxCommandsCommitAndAnswer : Prop :=
  ∀ (i : Instr) (c : Cmd) (r : Request) (s : State), mailRow i = some (c, r) → ServedAtOnce s r →
    let u := serviceStart c r s
    let a := replyTo c r u
    let o := originOf u c r
    passes a.status = true → r.checkOnly = false →
      (a.late = false → a.detail = none → exec i s = .next (respond (a.commit o u) c.code r a.status a.result none))
      ∧ (∀ d, a.late = false → a.detail = some d →
          exec i s = .next (respond (a.commit o (append u (commitEntry u c r a d))) c.code r a.status a.result (some u.ledger.head)))
      ∧ (a.late = true → a.detail = none → exec i s = .next (keepWaiting (a.commit o u) c r a none))
      ∧ (∀ d, a.late = true → a.detail = some d →
          exec i s = .next (keepWaiting (a.commit o (append u (commitEntry u c r a d))) c r a (some u.ledger.head)))

/-- A command whose checks fail, and one that only asks for its checks, has no effect but its answer: no entry, no commit. It
rests on the model's choices in logs 10, 85. -/
def Obligations.RefusedAndCheckOnlyCommandsDoNothing : Prop :=
  ∀ (i : Instr) (c : Cmd) (r : Request) (s : State), mailRow i = some (c, r) → ServedAtOnce s r →
    let u := serviceStart c r s
    let a := replyTo c r u
    (passes a.status = false → exec i s = .next (respond u c.code r a.status a.result none))
    ∧ (passes a.status = true → r.checkOnly = true → exec i s = .next (respond u c.code r stOk [] none))

/-- The order of the checks: a malformed request is ST_BAD_ARG in every stage; then the stage decides, and a refusal by it tells
the stage required and the current one; then the urgent lane; then the preparation of stage 3; then a stop; and the command's own
checks come last. -/
def Obligations.ChecksRunInTheirOrder : Prop :=
  ∀ (c : Cmd) (r : Request) (s : State),
    let a := replyTo c r s
    let st := (stopped s || s.boot.ended) && !c.afterStop
    (wellFormed c r = false → a.status = stBadArg ∧ a.result = [])
    ∧ (wellFormed c r = true → inStage s c = false →
        a.status = stStage ∧ a.result = [byte (if s.boot.stage = 0xF then 0xF else c.stage), s.boot.stage])
    ∧ (wellFormed c r = true → inStage s c = true → r.urgent = true → c.urgent = false → a.status = stUnsupported)
    ∧ (wellFormed c r = true → inStage s c = true → (r.urgent = false ∨ c.urgent = true) →
        (s.boot.preparing = true → c.stage = 3 → a.status = stBusy)
        ∧ ((s.boot.preparing = false ∨ c.stage ≠ 3) → st = true → a.status = stConflict)
        ∧ ((s.boot.preparing = false ∨ c.stage ≠ 3) → st = false → a = c.body r s))

/-- The response stands in its slot: the fields at their offsets, the sequence number of the entry or 0xFFFFFFFF; on a normal
ring in the slot of COMPLETION, which moves by one, with the notice of EP0; on the urgent lane in its own slot, BUSY clear and DONE
set on EP0 and EP5.  Nothing but the endpoint and what leaves the chiplet changes on EP0 and EP5. That DONE
is clear at once elsewhere is the model's choice in log 84. -/
def Obligations.ResponsesStandInTheirSlots : Prop :=
  ∀ (s : State) (cmd : W16) (r : Request) (st : W16) (result : List Byte) (q : Option W32), result.length ≤ 112 →
    let l := responseSlot cmd r st result q
    let t := respond s cmd r st result q
    let p := s.ep r.ep
    l.length = 128 ∧ fieldAt l 0 2 = cmd.toNat ∧ fieldAt l 2 2 = r.seq.toNat ∧ fieldAt l 4 2 = r.tenant.toNat
    ∧ fieldAt l 6 2 = st.toNat ∧ fieldAt l 8 2 = result.length ∧ fieldAt l 10 4 = (q.getD 0xFFFFFFFF).toNat
    ∧ fieldAt l 14 1 = (if q.isSome then 1 else 0) ∧ (l.drop 16).take result.length = result
    ∧ (r.urgent = false → (t.ep r.ep).comp = p.comp + 1 ∧ tget [] (t.ep r.ep).rsp (p.comp.toNat % 32) = l)
    ∧ (r.urgent = true → (t.ep r.ep).urgRsp = l ∧ (t.ep r.ep).busy = false
        ∧ (t.ep r.ep).done = decide (r.ep.val = 0 ∨ r.ep.val = 5))
    ∧ (r.ep.val = 0 → t = { s.setEp r.ep (t.ep r.ep) with
        sent := s.sent ++ [.sideband 0x01 [0, if r.urgent then 1 else 0, byte (t.ep r.ep).comp.toNat]] })
    ∧ (r.ep.val = 5 → t = s.setEp r.ep (t.ep r.ep))

/-- NOP answers ST_OK with no result; ECHO returns its argument bytes; STATUS, IDENT.READ, OPTABLE.READ and FUSE.SUMMARY
return their fields in their places; PROG.STATE returns a code for each node. None of them changes anything else. It rests on
the model's choices in log 10. -/
def Obligations.ReadingCommandsReturnTheirFields : Prop :=
  ∀ (r : Request) (s : State),
    (Admitted cmdNop r s → AnswersOnly (.nop r) cmdNop r s stOk [])
    ∧ (Admitted cmdEcho r s → r.args.length = 112 → AnswersOnly (.echo r) cmdEcho r s stOk (r.args.take r.argLen.toNat))
    ∧ (Admitted cmdStatus r s → ∃ l, AnswersOnly (.status r) cmdStatus r s stOk l ∧ l.length = 24
        ∧ fieldAt l 0 1 = s.boot.stage.toNat ∧ fieldAt l 2 2 = s.fabric.fa.toNat ∧ fieldAt l 4 4 = statusFlags s
        ∧ fieldAt l 16 8 = s.time.count.toNat)
    ∧ (Admitted cmdIdentRead r s → ∃ l, AnswersOnly (.identRead r) cmdIdentRead r s stOk l ∧ l.length = 28
        ∧ fieldAt l 0 2 = 0xAB41 ∧ fieldAt l 2 1 = 0x42 ∧ fieldAt l 3 1 = s.fuses.grade.toNat ∧ fieldAt l 10 2 = s.fabric.fa.toNat
        ∧ fieldAt l 12 1 = s.boot.pins.slotId.toNat ∧ fieldAt l 13 1 = s.boot.stage.toNat ∧ fieldAt l 14 2 = s.boot.floor.toNat
        ∧ fieldAt l 16 8 = s.fuses.dieId.toNat ∧ fieldAt l 24 4 = 0x2AB4199B)
    ∧ (Admitted cmdOptableRead r s → ∃ l, AnswersOnly (.optableRead r) cmdOptableRead r s stOk l ∧ l.length = 64
        ∧ fieldAt l 0 2 = 600 ∧ fieldAt l 2 2 = 800 ∧ fieldAt l 36 2 = 750 ∧ fieldAt l 38 2 = 1600 ∧ fieldAt l 60 2 = 900
        ∧ fieldAt l 62 2 = 1900)
    ∧ (Admitted cmdFuseSummary r s → ∃ l, AnswersOnly (.fuseSummary r) cmdFuseSummary r s stOk l ∧ l.length = 25
        ∧ fieldAt l 0 8 = s.fuses.fusedOff.toNat ∧ fieldAt l 8 1 = s.fuses.grade.toNat ∧ fieldAt l 16 8 = s.fuses.dieId.toNat)
    ∧ (Admitted cmdProgState r s → r.arg 16 1 < 32 → ∃ l, AnswersOnly (.progState r) cmdProgState r s stOk l ∧ l.length = 64
        ∧ ∀ n : Fin 64, fieldAt l n 1 = (runCode s (r.arg 16 1) n).toNat)
    ∧ (Admitted cmdGradeMap r s → r.arg 16 1 = 0 → ∃ l, AnswersOnly (.gradeMap r) cmdGradeMap r s stOk l ∧ l.length = 68
        ∧ ∀ n : Fin 64, fieldAt l n 1 = (gradeByte s n).toNat)
    ∧ (∀ k, settingKey (BitVec.ofNat 16 (r.arg 16 2)) = some k → Admitted cmdSettingsGet r s → r.arg 18 1 = 0 →
        AnswersOnly (.settingsGet r) cmdSettingsGet r s stOk (leBytes 2 k.key.toNat
          ++ [byte k.size, if pendingIn s k = settingIn s.settings.current k then 0 else 1] ++ settingIn s.settings.current k))
    ∧ (∀ e, s.ledger.held (BitVec.ofNat 32 (r.arg 16 4)) = some e → Admitted cmdLedgerRead r s → r.arg 20 1 = 1 →
        0 < (s.ledger.head - BitVec.ofNat 32 (r.arg 16 4)).toNat → (s.ledger.head - BitVec.ofNat 32 (r.arg 16 4)).toNat < 2 ^ 31 →
        AnswersOnly (.ledgerRead r) cmdLedgerRead r s stOk ([1, 0, 0, 0] ++ leBytes 4 s.ledger.head.toNat ++ e.bytes))
    ∧ (Admitted cmdRouteRead r s → r.arg 16 1 ≤ 1 → 1 ≤ r.arg 17 1 → r.arg 17 1 ≤ 12 → r.arg 20 1 = 0 →
        r.arg 18 2 + r.arg 17 1 ≤ tableSize (r.arg 16 1) → ∃ l, AnswersOnly (.routeRead r) cmdRouteRead r s stOk l
        ∧ fieldAt l 0 2 = s.fabric.generation.toNat
        ∧ ∀ i, i < r.arg 17 1 → fieldAt l (8 + 8 * i) 8 = (tget 0 (s.fabric.active.table (r.arg 16 1)) (r.arg 18 2 + i)).toNat)
    ∧ (Admitted cmdLinkState r s → r.arg 16 1 < 20 → let p := s.port (r.arg 16 1)
        ∃ l, AnswersOnly (.linkState r) cmdLinkState r s stOk l ∧ l.length = 24 ∧ fieldAt l 0 1 = p.state.toNat
        ∧ fieldAt l 1 1 = p.partnerPort.toNat ∧ fieldAt l 2 2 = p.partnerFa.toNat ∧ fieldAt l 8 4 = p.corr.toNat
        ∧ fieldAt l 12 4 = p.uncorr.toNat ∧ fieldAt l 16 4 = p.retry.toNat ∧ fieldAt l 20 2 = p.retrains.toNat)
    ∧ (Admitted cmdTimeStatus r s → ∃ l, AnswersOnly (.timeStatus r) cmdTimeStatus r s stOk l ∧ l.length = 28
        ∧ fieldAt l 0 8 = s.time.count.toNat ∧ fieldAt l 8 2 = s.time.gmFa.toNat ∧ fieldAt l 11 1 = s.time.hops.toNat
        ∧ fieldAt l 16 4 = s.time.period.toNat)
    ∧ (Admitted cmdSweepResult r s → r.arg 16 1 ≤ 19 → (s.leat.master = true ∨ r.arg 16 1 = (ownSlot s).toNat) →
        let e := tget ⟨0, 2, []⟩ s.leat.table (r.arg 16 1)
        AnswersOnly (.sweepResult r) cmdSweepResult r s stOk (leBytes 4 e.seq.toNat ++ [e.reach, 0, 0, 0] ++ padTo 64 e.bytes))
    ∧ (Admitted cmdFwStatus r s → ∃ l, AnswersOnly (.fwStatus r) cmdFwStatus r s stOk l ∧ l.length = 64
        ∧ fieldAt l 0 1 = fwState s ∧ fieldAt l 8 56 = maskOf (missingBlocks s) % 2 ^ 448)
    ∧ (Admitted cmdDebugPeek r s → r.arg 16 1 = 1 → debugBad r 96 = false → poweredRange s (debugAddr r) (debugLength r) = true →
        firstBad s.mem (debugAddr r) (debugLength r) = none →
        AnswersOnly (.debugPeek r) cmdDebugPeek r s stOk ([0, 0, 0, 0] ++ s.mem.read (debugAddr r) (debugLength r)))

/-- SETTINGS.SET puts the value into the pending set and nowhere else; SETTINGS.COMMIT with action 0 makes the pending values
the committed ones in a new bank and empties the pending set; action 1 drops them. LEDGER.MARK appends its 8 argument bytes,
flagged as a mark, and does nothing else. It rests on the model's choices in log 58. -/
def Obligations.SettingsAreStagedAndThenCommitted : Prop :=
  ∀ (r : Request) (s : State),
    (∀ k, settingKey (BitVec.ofNat 16 (r.arg 16 2)) = some k → k.writable = true → Admitted cmdSettingsSet r s →
      let v := r.argBytes 20 k.size
      r.arg 18 1 = k.size → k.lo ≤ leNat v → leNat v ≤ k.hi →
        CommitsWith (.settingsSet r) cmdSettingsSet r s stOk [] (leBytes 2 k.key.toNat ++ [byte k.size, 0] ++ leBytes 4 (crc32c v))
          (fun t => { t with settings := { t.settings with pending := setSetting s.settings.pending k.key v } }))
    ∧ (Admitted cmdSettingsCommit r s → r.arg 20 1 = 0 → r.arg 21 1 = 0 → s.fw.hand = none → s.settings.pending ≠ [] →
        AnsweredAfter (.settingsCommit r) cmdSettingsCommit r s stOk [] (some s.ledger.head) (fun t =>
          t.settings.current = mergedSettings s ∧ t.settings.pending = [] ∧ t.ledger.head = s.ledger.head + 1
          ∧ ∃ b, t.settings.banks.head? = some b ∧ b.values = mergedSettings s ∧ b.good = true ∧ b.commit = nextCommit s))
    ∧ (Admitted cmdSettingsCommit r s → r.arg 20 1 = 1 → r.arg 21 1 = 0 → s.fw.hand = none → s.settings.pending ≠ [] →
        AnsweredAfter (.settingsCommit r) cmdSettingsCommit r s stOk [] (some s.ledger.head) (fun t =>
          t.settings = { s.settings with pending := [] } ∧ t.ledger.head = s.ledger.head + 1))
    ∧ (Admitted cmdLedgerMark r s → AnsweredAfter (.ledgerMark r) cmdLedgerMark r s stOk [] (some s.ledger.head) (fun t =>
          let e := tget {} t.ledger.entries (s.ledger.head.toNat % 4096)
          t.ledger.head = s.ledger.head + 1 ∧ e.detail = padTo 8 (r.argBytes 16 8) ∧ e.flags.getLsbD 3 = true ∧ e.cmd = 0x0301
          ∧ e.seq = s.ledger.head ∧ t.settings = s.settings ∧ t.die = s.die ∧ t.store = s.store ∧ t.head = s.head))

/-- The power commands put their argument in force: the cap in W, the order in which work is given up, the ramp, pace mode at
a point whose duty is at least 5 %, a basin's preference for a phase, the limits of a temperature point. A cap or a ramp
outside its range is ST_BAD_ARG. It rests on the model's choices in log 30. -/
def Obligations.PowerCommandsSetTheirLimits : Prop :=
  ∀ (r : Request) (s : State),
    let q := some s.ledger.head
    let a := r.arg 16 1
    let kept := fun (t : State) => t.ledger.head = s.ledger.head + 1 ∧ t.store = s.store ∧ t.gateUnit = s.gateUnit ∧ t.dma = s.dma
    (Admitted cmdPowerCap r s → 100 ≤ r.arg 16 2 → r.arg 16 2 ≤ 450 → s.head.pace = none →
      AnsweredAfter (.powerCap r) cmdPowerCap r s stOk [] q (fun t => t.head.cap = r.arg 16 2 ∧ t.die = s.die ∧ kept t))
    ∧ (Admitted cmdPowerCap r s → (r.arg 16 2 < 100 ∨ 450 < r.arg 16 2) → AnswersOnly (.powerCap r) cmdPowerCap r s stBadArg [])
    ∧ (Admitted cmdPowerPriority r s → a ≤ 5 →
      AnsweredAfter (.powerPriority r) cmdPowerPriority r s stOk [] q (fun t => t.head.order = a ∧ t.die = s.die ∧ kept t))
    ∧ (Admitted cmdPowerRamp r s → 1 ≤ a → a ≤ 50 →
      AnsweredAfter (.powerRamp r) cmdPowerRamp r s stOk [] q (fun t => t.head.ramp = a ∧ t.die = s.die ∧ kept t))
    ∧ (Admitted cmdPowerRamp r s → (a = 0 ∨ 50 < a) → AnswersOnly (.powerRamp r) cmdPowerRamp r s stBadArg [])
    ∧ (Admitted cmdPowerPace r s → a = 1 → (r.arg 17 1 = 0 ∨ r.arg 17 1 = 9 ∨ r.arg 17 1 = 15) →
        5 ≤ paceDuty s (r.arg 17 1) s.head.cap →
      AnsweredAfter (.powerPace r) cmdPowerPace r s stOk [] q (fun t => t.head.pace = some (r.arg 17 1) ∧ t.die = s.die ∧ kept t))
    ∧ (Admitted cmdPowerOpPrefer r s → a ≤ 31 → r.arg 17 1 ≤ 3 → r.arg 18 1 ≤ 15 → (s.basin a).state ≠ .free →
      AnsweredAfter (.powerOpPrefer r) cmdPowerOpPrefer r s stOk [] q (fun t =>
        tget 0xFF (t.basin a).prefer (r.arg 17 1) = byte (r.arg 18 1) ∧ t.die.cores = s.die.cores ∧ kept t))
    ∧ (Admitted cmdThermLimits r s → a ≤ 71 → r.arg 17 1 = 70 → r.arg 18 1 = 80 → r.arg 19 1 = 90 → (tget {} s.head.points a).temp < 90 →
      AnsweredAfter (.thermLimits r) cmdThermLimits r s stOk [] q (fun t =>
        tget {} t.head.points a = { tget {} s.head.points a with alert := 70, throttle := 80, trip := 90 } ∧ t.die = s.die ∧ kept t))

/-- THROTTLE.READ, ENERGY.READ and ESTIM.STATUS return their totals with the turn count and change nothing; ESTIM.DITHER 0 and
1 turn the dither off and on. It rests on the model's choices in logs 30, 55. -/
def Obligations.PowerReadingsReturnTheTotals : Prop :=
  ∀ (r : Request) (s : State),
    let n := r.arg 17 1
    (Admitted cmdThrottleRead r s → 1 ≤ n → r.arg 16 1 + n ≤ 12 → ∃ l, AnswersOnly (.throttleRead r) cmdThrottleRead r s stOk l
        ∧ l.length = 8 + 8 * n ∧ fieldAt l 0 8 = s.time.count.toNat
        ∧ ∀ k : Nat, k < n → let q := tget {} s.head.reasons (r.arg 16 1 + k)
            fieldAt l (8 + 8 * k) 4 = q.us.toNat ∧ fieldAt l (12 + 8 * k) 4 = q.count.toNat)
    ∧ (Admitted cmdEnergyRead r s → 1 ≤ n → n ≤ 12 → r.arg 16 1 + n ≤ 33 → ∃ l, AnswersOnly (.energyRead r) cmdEnergyRead r s stOk l
        ∧ l.length = 8 + 8 * n ∧ fieldAt l 0 8 = s.time.count.toNat
        ∧ ∀ k : Nat, k < n → fieldAt l (8 + 8 * k) 8 = energyTotal s (r.arg 16 1 + k))
    ∧ (Admitted cmdEstimStatus r s → ∃ l, AnswersOnly (.estimStatus r) cmdEstimStatus r s stOk l ∧ l.length = 12
        ∧ fieldAt l 8 4 = (if s.head.fitted then satTo 32 s.head.fitAge else 0xFFFFFFFF))
    ∧ (Admitted cmdEstimDither r s → r.arg 16 1 ≤ 1 →
      AnsweredAfter (.estimDither r) cmdEstimDither r s stOk [] (some s.ledger.head) (fun t =>
        t.head.ditherOn = (r.arg 16 1 != 0) ∧ t.die = s.die ∧ t.store = s.store))

/-- BASIN.CREATE makes the basin of its arguments, active, with its segments owned; no other basin, segment or core changes.
BASIN.MODE sets mode and master while every node is idle, and nothing else. It rests on the model's choices in log 46. -/
def Obligations.BasinsAreCreatedAndChangeMode : Prop :=
  ∀ (r : Request) (s : State),
    let b := r.arg 16 1
    let rect := rectArg r 20
    let segs := segMask r 48
    (Admitted cmdBasinCreate r s → b ≤ 31 → r.arg 17 1 ≤ 1 → r.arg 18 2 ≠ 0 → rectOk rect = true → r.arg 26 1 ≠ 0 →
        (r.argBytes 28 20).contains 0 = false → (s.basin b).state = .free → overlapsOther s b rect = false →
        (∀ k ∈ segs, (s.seg k).owner = none ∧ (s.seg k).retired = false ∧ heldByWork s k = false) →
        saveOk (r.arg 24 2) segs = true → (r.arg 17 1 = 1 → allGood s rect = true) →
      AnsweredAfter (.basinCreate r) cmdBasinCreate r s stOk [] (some s.ledger.head) (fun t =>
        (t.basin b).state = .active ∧ (t.basin b).lattice = (r.arg 17 1 == 1) ∧ (t.basin b).rect = rect
        ∧ (t.basin b).tenant.toNat = r.arg 18 2 ∧ (t.basin b).master = 8 * rect.y0 + rect.x0
        ∧ (∀ k ∈ segs, t.seg k = { s.seg k with owner := some b }) ∧ (∀ k, k ∉ segs → t.seg k = s.seg k)
        ∧ (∀ c, c ≠ b → t.basin c = s.basin c) ∧ t.die.cores = s.die.cores ∧ t.store.mem = s.store.mem ∧ t.dma = s.dma
        ∧ t.gateUnit = s.gateUnit ∧ tget 0 t.head.energy b = 0 ∧ t.ledger.head = s.ledger.head + 1))
    ∧ (Admitted cmdBasinMode r s → b ≤ 31 → r.arg 17 1 = 1 → r.arg 18 1 = 0xFF → settled s b = true → (s.basin b).lattice = false →
        allGood s (s.basin b).rect = true → (s.basin b).rect.nodes.all (isIdle s) = true → (s.basin b).load = none →
      let m := 8 * (s.basin b).rect.y0 + (s.basin b).rect.x0
      CommitsWith (.basinMode r) cmdBasinMode r s stOk [] [byte b, 1, byte m]
        (fun t => t.setBasin b { s.basin b with lattice := true, master := m }))
    ∧ (Admitted cmdBasinQuery r s → b ≤ 31 → ∃ l, AnswersOnly (.basinQuery r) cmdBasinQuery r s stOk l
        ∧ fieldAt l 2 2 = (s.basin b).tenant.toNat)
    ∧ (Admitted cmdBasinResize r s → b ≤ 31 → settled s b = true → r.arg 17 1 = 8 → r.arg 26 1 ≠ 0 → (r.argBytes 28 20).contains 0 = false →
        (s.basin b).load = none → s.dma.redWait = [] → rectOk (s.basin b).rect = true → (s.basin b).lattice = false → overlapsOther s b (s.basin b).rect = false →
        saveOk ((s.basin b).save.getD 0xFFFF) ((List.range 512).filter (fun k => keptBy s k == some b)) = true →
        AnsweredAfter (.basinResize r) cmdBasinResize r s stOk [] (some s.ledger.head) (fun t => (t.basin b).rect = (s.basin b).rect
          ∧ (t.basin b).powerWeight = byte (r.arg 26 1) ∧ (t.basin b).linkWeights = r.argBytes 28 20 ∧ t.die.cores = s.die.cores
          ∧ ∀ k, k ≠ b → t.basin k = s.basin k))
    ∧ (Admitted cmdBasinDestroy r s → b ≤ 31 → exists_ s b = true → seizing s b = false → gangOf s b = none →
        ((s.basin b).load.isSome = true ∨ (ownedSegs s b).any (heldByWork s) = true → AnswersOnly (.basinDestroy r) cmdBasinDestroy r s stBusy [])
        ∧ ((s.basin b).load = none → (ownedSegs s b).any (heldByWork s) = false →
        AnsweredAfter (.basinDestroy r) cmdBasinDestroy r s stAccepted [] (some s.ledger.head) (fun t => (t.basin b).state = .free
          ∧ (∀ k ∈ ownedSegs s b, (s.seg k).retired = false → (t.seg k).owner = some (destroyedOwner b) ∧ (t.seg k).busy = true)
          ∧ ∀ w : Fin 64, (s.window w).basin = b → (t.window w).state = .closed)))

/-- GATE.INIT gives a free gate its kind, value and lease and keeps its epoch; GATE.READ changes nothing and answers
ST_ORPHANED for an orphaned lock; GATE.CLEAN with the dead owner's epoch makes the lock free. No other gate changes. It rests
on the model's choices in log 55. -/
def Obligations.GateCommandsSetReadAndClean : Prop :=
  ∀ (r : Request) (s : State),
    let k := r.arg 16 1
    let g := s.gate k
    let v : W64 := BitVec.ofNat 64 (r.arg 20 8)
    (Admitted cmdGateInit r s → k ≤ 127 → r.arg 17 1 ≤ 3 → r.arg 18 1 = 0xFF → r.arg 19 1 = 0 → r.arg 32 4 = 0 →
        initOk (r.arg 17 1) v = true → g.dead = none → g.holder = none → g.waiters = [] → g.basin = none →
      AnsweredAfter (.gateInit r) cmdGateInit r s stOk [] (some s.ledger.head) (fun t =>
        t.gate k = { g with kind := gateKindOf (r.arg 17 1), value := v, lease := none, reach := 30000 }
        ∧ (∀ j, j ≠ k → t.gate j = s.gate j) ∧ t.die = s.die ∧ t.store = s.store ∧ t.ledger.head = s.ledger.head + 1))
    ∧ (Admitted cmdGateRead r s → k ≤ 127 →
        ∃ l, AnswersOnly (.gateRead r) cmdGateRead r s (if g.dead.isSome then stOrphaned else stOk) l
          ∧ l.length = 24 ∧ fieldAt l 4 8 = g.value.toNat ∧ fieldAt l 0 1 = gateKindCode g.kind)
    ∧ (∀ d, Admitted cmdGateClean r s → k ≤ 127 → g.dead = some d → d.epoch.toNat = r.arg 20 4 → g.waiters = [] → g.basin = none →
      AnsweredAfter (.gateClean r) cmdGateClean r s stOk [] (some s.ledger.head) (fun t =>
        t.gate k = { g with dead := none, holder := none } ∧ (∀ j, j ≠ k → t.gate j = s.gate j) ∧ t.die = s.die
        ∧ t.store = s.store))
    ∧ (Admitted cmdGateClean r s → k ≤ 127 → g.dead = none → AnswersOnly (.gateClean r) cmdGateClean r s stConflict [])

/-- WINDOW.OPEN opens the window of its arguments and no other; WINDOW.LIST changes nothing; WINDOW.CLOSE of a closed window
is refused. SEG.FILL marks its segments busy until they are filled; SEG.POWER naming no segment changes nothing. It rests on
the model's choices in logs 46, 55. -/
def Obligations.WindowAndSegmentCommandsTakeEffect : Prop :=
  ∀ (r : Request) (s : State),
    let k := r.arg 16 1
    let w := windowOf r
    let l := segMask r 24
    (Admitted cmdWindowOpen r s → k ≤ 63 → w.basin ≤ 31 → r.arg 18 1 ≤ 7 → 16 ≤ w.size → w.size ≤ 29 → w.base % 2 ^ w.size = 0 →
        w.base + 2 ^ w.size ≤ 0x20000000 → 1 ≤ w.credits → w.credits ≤ 32 → 1 ≤ r.arg 25 1 → r.arg 25 1 ≤ 8 →
        (s.window k).state = .closed → settled s w.basin = true →
        (∀ g ∈ segsOf w.base (w.base + 2 ^ w.size), keptBy s g = some w.basin) →
      CommitsWith (.windowOpen r) cmdWindowOpen r s stOk [] (windowDetail k w)
        (fun t => t.setWindow k { w with ended := (s.window k).ended }))
    ∧ (Admitted cmdWindowList r s → k ≤ 63 → r.arg 17 1 = 1 → ∃ d, AnswersOnly (.windowList r) cmdWindowList r s stOk d ∧ d.length = 80)
    ∧ (Admitted cmdWindowClose r s → k ≤ 63 → (s.window k).state = .closed →
        AnswersOnly (.windowClose r) cmdWindowClose r s stConflict [])
    ∧ (Admitted cmdSegFill r s → (∀ j ∈ l, (s.seg j).power = .on ∧ (s.seg j).retired = false ∧ (s.seg j).busy = false ∧ savesSeized s j = false) →
      AnsweredAfter (.segFill r) cmdSegFill r s stAccepted [] (some s.ledger.head) (fun t =>
        (∀ j ∈ l, (t.seg j).busy = true) ∧ (∀ j, j ∉ l → t.seg j = s.seg j) ∧ t.die = s.die ∧ t.store.fills.length = s.store.fills.length + 1))
    ∧ (Admitted cmdSegPower r s → k ≤ 1 → l = [] → AnswersOnly (.segPower r) cmdSegPower r s stOk [0, 0])

/-- PROG.LOAD drops the old image and begins the load; PROG.START without resume starts every selected core at the image's
entry with its argument in s1; PROG.STOP stops what runs; DEBUG.HALT 0 halts it; none touches the scratchpad. It rests on the
model's choices in logs 42, 51. -/
def Obligations.ProgramCommandsMoveTheCores : Prop :=
  ∀ (r : Request) (s : State),
    let b := r.arg 16 1
    let l := (s.basin b).rect.nodes.filter (goodNode s)
    (Admitted cmdProgLoad r s → b ≤ 31 → r.arg 17 1 ≤ 1 → r.arg 20 4 % 256 = 0 → r.arg 24 4 % 48 = 0 → r.arg 24 4 ≤ 0x80000 →
        r.arg 28 4 % 48 = 0 → r.arg 28 4 < r.arg 24 4 → settled s b = true → r.arg 20 4 + r.arg 24 4 ≤ 0x20000000 →
        (∀ k ∈ segsOf (r.arg 20 4) (r.arg 20 4 + r.arg 24 4),
          (s.seg k).owner = some b ∧ (s.seg k).power = .on ∧ (s.seg k).busy = false) →
        (s.basin b).rect.nodes.all (isIdle s) = true → (s.basin b).load = none →
        (∀ c, c < 8 → storeUsed s b c + r.arg 24 4 ≤ 0x80000) →
      AnsweredAfter (.progLoad r) cmdProgLoad r s stAccepted [] (some s.ledger.head) (fun t =>
        (t.basin b).image = none ∧ (∃ j, (t.basin b).load = some j ∧ j.src = r.arg 20 4 ∧ j.len = r.arg 24 4
          ∧ j.entry.toNat = r.arg 28 4 / 48) ∧ t.store = s.store ∧ ∀ c, c ≠ b → t.basin c = s.basin c))
    ∧ (Admitted cmdProgStart r s → b ≤ 31 → r.arg 17 1 = 0 → r.arg 24 8 = 0 → settled s b = true → (s.basin b).lattice = false →
        (s.basin b).image.any (fun i => i.lattice) = false → (s.basin b).load = none →
        (∀ n ∈ l, (s.core n).run = .idle ∧ (s.core n).gops = []) →
      AnsweredAfter (.progStart r) cmdProgStart r s stOk [] (some s.ledger.head) (fun t =>
        (∀ n ∈ l, (t.core n).run = .running ∧ (t.core n).getS 1 = BitVec.ofNat 64 (r.arg 32 8) ∧ (t.core n).getS 2 = identity s n
          ∧ (t.core n).pc = entryOf s b ∧ (t.core n).p = 1)
        ∧ (∀ n, n ∉ l → t.core n = s.core n) ∧ t.store = s.store ∧ t.dma = s.dma))
    ∧ (Admitted cmdProgStop r s → b ≤ 31 → r.arg 17 1 = 0 → r.arg 24 8 = 0 → settled s b = true →
        (∀ n ∈ l, (s.core n).v = [] ∧ (s.core n).gops = []) → s.store.found = [] →
      AnsweredAfter (.progStop r) cmdProgStop r s stOk [] (some s.ledger.head) (fun t =>
        (∀ n ∈ l, (s.core n).run = .running → (t.core n).run = .stopped)
        ∧ (∀ n, (n ∉ l ∨ (s.core n).run ≠ .running) → t.core n = s.core n)))
    ∧ (Admitted cmdDebugHalt r s → r.arg 16 1 = 0xFF → r.arg 17 1 ≤ 31 → r.arg 18 1 = 0 → settled s (r.arg 17 1) = true →
        (∃ n ∈ basinCores s (r.arg 17 1), (s.core n).run = .running) →
        (∀ n ∈ basinCores s (r.arg 17 1), (s.core n).v = [] ∧ (s.core n).gops = []) → s.store.found = [] →
      AnsweredAfter (.debugHalt r) cmdDebugHalt r s stOk [] (some s.ledger.head) (fun t =>
        ∀ n ∈ basinCores s (r.arg 17 1), (s.core n).run = .running ∨ (s.core n).run = .stopped → (t.core n).run = .halted))
    ∧ (Admitted cmdCoreReset r s → r.arg 16 1 ≤ 63 → r.arg 17 1 ≤ 31 → expects s (r.arg 16 1) (r.arg 17 1) = true →
        seizing s (r.arg 17 1) = false → hasCore s (r.arg 16 1) = true →
        AnsweredAfter (.coreReset r) cmdCoreReset r s stOk [] (some s.ledger.head) (fun t => t.store.mem = s.store.mem
          ∧ ∀ k ∈ resetGroup s (r.arg 16 1), (t.core k).run = .idle ∧ (t.core k).pc = 0 ∧ (t.core k).s = []))
    ∧ (Admitted cmdDebugPoke r s → r.arg 16 1 = 1 → debugBad r 88 = false → poweredRange s (debugAddr r) (debugLength r) = true → Sound s →
        CommitsWith (.debugPoke r) cmdDebugPoke r s stOk [] (pokeDetail r) (fun t => t.write (debugAddr r) (r.argBytes 24 (debugLength r))))

/-- REQUEST_SERVICE_START serves the head of the first endpoint, in the order of round robin, whose transport serves, whose
ring holds a request and whose response ring has a free slot; preempted before its commit, a request whose checks pass waits.
URGENT_SERVICE_START serves the urgent slot of the first doorbell whose transport serves. PREEMPTED_COMMAND_RESUME checks
again: what still passes is carried out, what no longer does completes with ST_CONFLICT. With nothing to serve, nothing
happens. It rests on the model's choices in logs 6, 10, 75. -/
def Obligations.ServiceRowsTakeRequestsInTheirOrder : Prop :=
  ∀ s : State,
    (∀ (e : Fin 6) (l m : List (Fin 6)), normalFree s = true → roundRobin s.svc.last = l ++ e :: m → l.all (fun f => !ready s f) = true →
        ready s e = true →
      let p := s.ep e
      let k := p.cons.toNat % 32
      let x := parseSlot e false (tget 0 p.src k) (tget [] p.req k)
      let u := { s.setEp e { p with cons := p.cons + 1 } with svc := { s.svc with last := e } }
      (∀ c, commandOf x.1 = some c → exec (.requestServiceStart true) s = .next (serve c x.2 u))
      ∧ (commandOf x.1 = none → exec (.requestServiceStart true) s = .next (respond u x.1 x.2 stBadArg [] none))
      ∧ (∀ c, commandOf x.1 = some c → passes (replyTo c x.2 u).status = true →
          exec (.requestServiceStart false) s
            = .next { u with svc := { u.svc with normal := some { req := x.2, cmd := x.1, passed := true } } }))
    ∧ (∀ b, (∀ e, ready s e = false) ∨ normalFree s = false → exec (.requestServiceStart b) s = .next s)
    ∧ (∀ (e : Fin 6) (r : List Nat), s.svc.urgentQ = (e : Nat) :: r → transportUp s e = true → s.svc.urgent = none →
        s.svc.muted = false → s.seize = none →
      let u := { s with svc := { s.svc with urgentQ := r } }
      let x := parseSlot e true (s.ep e).urgSrc (s.ep e).urgReq
      (∀ c, commandOf x.1 = some c → exec .urgentServiceStart s = .next (serve c x.2 u))
      ∧ (commandOf x.1 = none → exec .urgentServiceStart s = .next (respond u x.1 x.2 stBadArg [] none)))
    ∧ (s.svc.urgentQ = [] → exec .urgentServiceStart s = .next s)
    ∧ (∀ (k : InService) (c : Cmd), s.svc.normal = some k → k.waiting = false → s.svc.urgent = none → s.svc.urgentQ = [] → s.svc.paused = false →
        inPause s = false → transportUp s k.req.ep = true → commandOf k.cmd = some c →
      let u := { s with svc := { s.svc with normal := none } }
      (passes (replyTo c k.req u).status = true → exec .preemptedCommandResume s = .next (serve c k.req u))
      ∧ (passes (replyTo c k.req u).status = false →
          exec .preemptedCommandResume s = .next (respond u c.code k.req stConflict [] none)))

/-- A MAILBOX_REQUEST packet takes the slot of the producer of its ring with its sender, and the producer moves by one; a full
ring answers ST_BUSY to the sender and keeps its requests; a MAILBOX_RESPONSE packet changes nothing here. It rests on the
model's choices in log 32. -/
def Obligations.RequestPacketsTakeARingSlot : Prop :=
  ∀ (e : Fin 6) (src : W16) (slot : List Byte) (s : State), 1 ≤ e.val → e.val ≤ 3 → transportUp s e = true → reachable s src = true →
    let p := s.ep e
    (p.reqCount < 32 → exec (.mailboxRequest e src slot) s = .next (s.setEp e { p with
        req := tput p.req (p.prod.toNat % 32) slot, src := tput p.src (p.prod.toNat % 32) src, prod := p.prod + 1 }))
    ∧ (32 ≤ p.reqCount → ∃ t, exec (.mailboxRequest e src slot) s = .next t ∧ t.eps = s.eps ∧ t.svc = s.svc)
    ∧ exec (.mailboxResponse src slot) s = .next s

/-! ### Resets, pins, stops (R27 to R45, R60 to R71, R511, R587) -/

/-- A low pulse of CHIP_RST_N below 200 ns is ignored; from 1 µs on it is an assertion: every core, basin, window, gate,
endpoint, port and the volatile settings are cleared, the scratchpad is undefined, every core's life ends, and the ledger, the
settings store, the latch records and the fuses are kept, entries that waited for the end of a pause being appended; between
200 ns and 1 µs the outcome is undefined. It rests on the model's choices in logs 11, 35, 66. -/
def Obligations.ResetPulsesClearAllButTheKept : Prop :=
  ∀ (ns : Nat) (s : State),
    (ns < 200 → exec (.chipRstNAssert ns) s = .next s)
    ∧ (200 ≤ ns → ns < 1000 → exec (.chipRstNAssert ns) s = .fault .undefinedResetPulse)
    ∧ (1000 ≤ ns → s.boot.rstLow = true → exec (.chipRstNAssert ns) s = .next s)
    ∧ (1000 ≤ ns → s.boot.rstLow = false → s.boot.dead = false → Completes (.chipRstNAssert ns) s (fun t =>
        t.boot = { rstLow := true, pins := s.boot.pins } ∧ t.eps = [] ∧ t.links = [] ∧ t.dma = {} ∧ t.gateUnit = {} ∧ t.seize = none
        ∧ t.die = { lives := t.die.lives } ∧ (∀ l : Fin 64, t.life l = s.life l + 1)
        ∧ t.store.mem.cells = [] ∧ t.store.mem.flips = []
        ∧ (s.fw.waiting = [] → t.ledger = { s.ledger with winSel := 0 }) ∧ t.ledger.head = s.ledger.head + BitVec.ofNat 32 s.fw.waiting.length
        ∧ t.settings = { banks := s.settings.banks } ∧ t.fuses = s.fuses ∧ t.aon.latch = s.aon.latch ∧ t.aon.stop = s.aon.stop
        ∧ t.aon.warm = true ∧ t.aon.cause = 1 ∧ t.aon.warmCount = min 255 (s.aon.warmCount + 1)
        ∧ t.time = { elapsed := s.time.elapsed } ∧ t.fw = {} ∧ t.svc = {} ∧ t.pending = s.pending
        ∧ (s.fw.waiting = [] → ∃ l, t.sent = l ++ [.sideband 0x05 [4, 0]])))

/-- CHIP_RST_N rises: the straps are sampled, stage 0 begins with the rails good, the D ports rest in BASE and the C ports are
DOWN, and the shape is the hinted one; a release while the pin is high changes nothing. It rests on the model's choices in log
31. -/
def Obligations.ReleaseSamplesTheStraps : Prop :=
  ∀ (p : Straps) (s : State),
    (s.boot.rstLow = true → s.boot.dead = false → s.links = [] → s.fw.hand = none → Completes (.chipRstNRelease p) s (fun t =>
      t.boot = { s.boot with rstLow := false, pins := p } ∧ t.aon.rails = 0x3F ∧ t.aon.entry = none
      ∧ (∀ q : Fin 20, (t.port q).state = (if q.val < 8 then lnBase else lnDown)) ∧ t.die = s.die ∧ t.store = s.store
      ∧ t.aon.latch = s.aon.latch ∧ t.aon.stop.coolant = false
      ∧ t.fabric.shape = proposedShape t ∧ t.ledger.head = s.ledger.head + (if s.aon.entry.isSome then 1 else 0)))
    ∧ (s.boot.rstLow = false → exec (.chipRstNRelease p) s = .next s)

/-- A cold reset keeps the fuses and what the pins show, and nothing else: ledger, settings store, latches and scratchpad are
lost; the loss of VDD_AON is the same and leaves the chiplet silent; a failure of the AON domain changes nothing and leaves it
silent: no transport serves. It rests on the model's choices in log 5. -/
def Obligations.ColdResetKeepsOnlyTheFuses : Prop :=
  ∀ s : State,
    let cold := fun (t : State) =>
      t.fuses = s.fuses ∧ t.ledger = {} ∧ t.settings = {} ∧ t.aon = { coolantLevel := s.aon.coolantLevel, refclkOk := s.aon.refclkOk }
      ∧ t.eps = [] ∧ t.links = [] ∧ t.die = {} ∧ t.dma = {} ∧ t.gateUnit = {} ∧ t.time = {} ∧ t.fw = {} ∧ t.head = {}
      ∧ t.store.mem.cells = [] ∧ t.store.segs = [] ∧ t.seize = none ∧ t.pending = s.pending
    Completes .coldReset s (fun t => cold t ∧ t.boot = {})
    ∧ Completes .vddAonPowerLoss s (fun t => cold t ∧ t.boot = { dead := true } ∧ ∀ e, transportUp t e = false)
    ∧ Completes .aonDomainFailure s (fun t =>
        t = { s with boot := { s.boot with dead := true } } ∧ ∀ e, transportUp t e = false)

/-- Loss of a rail, of the reference clock or of coolant, a thermal trip and a failed trip comparator each latch their stop,
their record and THERM_ALERT_N's cause, append one entry, and send STOP_NOTICE while the chiplet runs; the cores' registers,
the scratchpad and the basins stay. Until a warm reset issue is stopped. It rests on the model's choices in log 31. -/
def Obligations.StopsAreLatched : Prop :=
  ∀ (rail : Fin 6) (k : Fin 72) (s : State), s.boot.dead = false → s.boot.rstLow = false → s.seize = none →
    let after := fun (i : Instr) (cause item : Byte) (p : Aon → Prop) => Completes i s (fun t =>
      stopped t = true ∧ p t.aon ∧ (∃ l m, t.sent = l ++ .sideband 0x05 [cause, if cause = 1 then 1 else 0] :: m)
      ∧ (∃ e : Nat × LedgerEntry, e ∈ t.ledger.entries ∧ e.2.cmd = 0xE080 ∧ e.2.detail = padTo 8 [cause, item] ∧ e.2.seq + 1 = t.ledger.head)
      ∧ t.die = s.die ∧ t.store.mem = s.store.mem ∧ t.boot = s.boot)
    (s.aon.rails.getLsbD rail = true → after (.railFault rail) 2 (byte rail) (fun a =>
        a.stop.rail = true ∧ a.latch.rail = true ∧ a.alert.rail = true ∧ a.rails.getLsbD rail = false ∧ a.railNum = rail))
    ∧ (s.aon.refclkOk = true → after .refclkLoss 3 0xFF (fun a =>
        a.stop.refclk = true ∧ a.latch.refclk = true ∧ a.alert.refclk = true ∧ a.refclkOk = false))
    ∧ (s.aon.stop.coolant = false → after .coolantLoss 1 0xFF (fun a =>
        a.stop.coolant = true ∧ a.latch.coolant = true ∧ a.alert.coolant = true ∧ a.coolantLevel = false))
    ∧ (s.aon.stop.trip = false → ∀ i ∈ [Instr.thermalTrip k, .tripComparatorSelfCheck k], after i 5 (byte k) (fun a =>
        a.stop.trip = true ∧ a.latch.trip = true ∧ a.alert.trip = true ∧ a.tripPoint = byte k))
    ∧ (s.aon.refclkOk = false → exec .refclkRestored s
        = .next { s with aon := { s.aon with refclkOk := true, refclkSince := s.time.elapsed } })
    ∧ (s.boot.hold = false → exec .coolantRestored s
        = .next { s with aon := { s.aon with coolantLevel := true, coolantGood := true } })

/-! ### Stages (R72 to R95) -/

/-- STAGE0_COMPLETE: with every check passed (the 72 points read −10 °C to 125 °C and every trip comparator trips), good coolant and a valid slot the chiplet leaves stage 0, for stage 1, or for
ROM recovery by the strap or after two failed confirmations; without coolant it holds; the first failing check puts it below
the floor with that floor bit, and no image runs. BOOT_CONFIRM_TIMEOUT discards the image: once it only counts, twice it leads
to ROM recovery. Cores and scratchpad stay as they are. It rests on the model's choices in log 67. -/
def Obligations.StageZeroIsLeftOrHeld : Prop :=
  ∀ s : State,
    let idle := fun (t : State) => t.die = s.die ∧ t.store = s.store ∧ t.fuses = s.fuses
      ∧ ((∀ q : Fin 20, (s.port q).state ≠ lnUp ∧ (s.port q).state ≠ lnTraining) → t.dma = s.dma)
    (s.boot.stage = 0 → s.boot.rstLow = false → s.boot.dead = false → s.boot.passed = false →
      (∀ b c temps trips, Completes (.stage0Complete false b c temps trips) s (fun t =>
          t.boot.stage = 0xF ∧ t.boot.floor = s.boot.floor ||| 1 ∧ t.fw.image = none ∧ idle t))
      ∧ (∀ c temps trips, Completes (.stage0Complete true false c temps trips) s (fun t =>
          t.boot.stage = 0xF ∧ t.boot.floor = s.boot.floor ||| 2 ∧ t.fw.image = none ∧ idle t))
      ∧ (∀ (c : Bool) (temps : List Int) (trips : BitVec 72),
          (∃ k : Fin 72, temps.getD k 0 < -10 ∨ 125 < temps.getD k 0 ∨ trips.getLsbD k = false) →
          Completes (.stage0Complete true true c temps trips) s (fun t =>
          t.boot.stage = 0xF ∧ t.boot.floor = s.boot.floor ||| 8 ∧ t.fw.image = none ∧ idle t))
      ∧ ∀ (temps : List Int) (trips : BitVec 72), temps.length = 72 →
        (∀ k : Fin 72, -10 ≤ temps.getD k 0 ∧ temps.getD k 0 ≤ 125 ∧ trips.getLsbD k = true) →
        Completes (.stage0Complete true true false temps trips) s (fun t =>
          t.boot.stage = 0xF ∧ t.boot.floor = s.boot.floor ||| 4 ∧ t.fw.image = none ∧ idle t)
      ∧ (slotInvalid s = false → stopped s = false → s.aon.coolantGood = false →
          exec (.stage0Complete true true true temps trips) s = .next { s with boot := { s.boot with passed := true, hold := true } })
      ∧ (slotInvalid s = true ∨ stopped s = true →
          exec (.stage0Complete true true true temps trips) s = .next { s with boot := { s.boot with passed := true } })
      ∧ (slotInvalid s = false → stopped s = false → s.aon.coolantGood = true →
          Completes (.stage0Complete true true true temps trips) s (fun t => idle t ∧ t.boot.passed = true
            ∧ (s.boot.pins.recovery = true → t.boot.stage = 8 ∧ t.boot.recovery = 1)
            ∧ (s.boot.pins.recovery = false → 2 ≤ s.aon.failed → t.boot.stage = 8 ∧ t.boot.recovery = 2)
            ∧ (s.boot.pins.recovery = false → s.aon.failed < 2 → t.boot.stage = 1))))
    ∧ (s.fw.booting = true → s.boot.stage = 1 → Completes .bootConfirmTimeout s (fun t =>
          t.fw.image = none ∧ t.fw.booting = false ∧ t.aon.failed = min 2 (s.aon.failed + 1) ∧ idle t
          ∧ t.boot.stage = (if s.aon.failed = 0 then 1 else 8)))
    ∧ (s.fw.booting = false → exec .bootConfirmTimeout s = .next s)

/-- FW_VERIFY_COMPLETE at boot: a good image starts and awaits its confirmation, a bad one leads to ROM recovery; in stage 3 a
good image is kept as verified and a bad one is discarded. The image's own FW.CONFIRM at boot begins stage 2 with the count of
failed confirmations at 0. It rests on the model's choices in logs 36, 59, 62. -/
def Obligations.VerifiedImagesStartAndConfirm : Prop :=
  ∀ (d : Delivery) (i : ImageInfo) (r : Request) (s : State), stopped s = false →
    let rom := imageBytes s.fw.running d.blocks
    let alt := imageBytes s.fw.alternate d.blocks
    (s.fw.delivery = some d → d.phase = .verifying →
      (s.boot.stage = 1 → Completes .fwVerifyComplete s (fun t => t.die = s.die ∧ t.store = s.store ∧
          if (verdict s d rom).2 = 0 then t.fw.image = some (headerInfo rom) ∧ t.fw.booting = true ∧ t.fw.delivery = none
            ∧ t.boot = s.boot ∧ t.svc.kick = s.time.elapsed
          else t.boot.stage = 8 ∧ t.boot.recovery = 3 ∧ t.fw.image = none))
      ∧ (s.boot.stage = 3 → Completes .fwVerifyComplete s (fun t => t.fw.image = s.fw.image ∧ t.boot = s.boot
          ∧ t.fw.delivery = if (verdict s d alt).2 = 0 then some { d with phase := .verified, key := [], origin := none } else none)))
    ∧ (s.fw.booting = true → s.fw.image = some i → s.svc.paused = false → Completes (.fwConfirm true r) s (fun t =>
          t.boot.stage = 2 ∧ t.fw.booting = false ∧ t.fw.image = some i ∧ t.aon.failed = 0 ∧ t.die = s.die ∧ t.store = s.store
          ∧ ∀ q : Fin 20, (t.port q).state = lnTraining ∧ (t.port q).step = 1))
    ∧ (Admitted cmdFwBegin r s → sizeOk (r.arg 16 4) = true → r.arg 20 2 = r.arg 16 4 / 4096 → s.boot.stage ≠ 0x8 → s.fw.hand = none →
        s.fw.booting = false → s.fw.delivery = none →
        match aesUnwrap s.fuses.uniqueKey (r.argBytes 24 48) with
        | some key => CommitsWith (.fwBegin r) cmdFwBegin r s stOk [] (leBytes 2 (r.arg 22 2) ++ leBytes 2 (r.arg 20 2)) (fun t => setDelivery t
            (some { ep := r.ep, size := r.arg 16 4, blocks := r.arg 20 2, version := BitVec.ofNat 16 (r.arg 22 2), key := key }))
        | none => AnswersOnly (.fwBegin r) cmdFwBegin r s stBadArg [])
    ∧ (Admitted cmdFwBlock r s → s.fw.delivery = some d → d.phase = .receiving → d.ep = (r.ep : Nat) → r.arg 16 2 < d.blocks → r.arg 16 2 < 448 →
        r.arg 18 1 < 64 → d.present.contains (r.arg 16 2) = false → d.frags = [] →
        AnsweredAfter (.fwBlock r) cmdFwBlock r s stOk [] none (fun t => t.fw.delivery = some { d with
          checks := tput d.checks (r.arg 16 2) (BitVec.ofNat 32 (r.arg 20 4)), frags := [(64 * r.arg 16 2 + r.arg 18 1, r.argBytes 24 64)] }))
    ∧ (Admitted cmdFwVerify r s → s.fw.hand = none → s.fw.delivery = some d → d.phase = .receiving → d.whole = true →
        AnsweredAfter (.fwVerify r) cmdFwVerify r s stAccepted [] (some s.ledger.head) (fun t =>
          ∃ o, t.fw.delivery = some { d with phase := .verifying, origin := some o } ∧ t.ledger.head = s.ledger.head + 1))
    ∧ (Admitted cmdFwAbort r s → s.fw.hand = none → s.fw.delivery = some d →
        AnsweredAfter (.fwAbort false r) cmdFwAbort r s stOk [] (some s.ledger.head) (fun t => t.fw.delivery = none))
    ∧ (Admitted cmdFwAbort r s → s.fw.hand = none → s.fw.delivery = some d → d.origin = none →
        CommitsWith (.fwAbort false r) cmdFwAbort r s stOk [] (fwDetail 4 1 d.version.toNat (imageVersion s)) (fun t => setDelivery t none))
    ∧ (Admitted cmdFwHandover r s → 100 ≤ r.arg 16 4 → r.arg 16 4 ≤ 30000 → s.fw.hand = none → s.fw.delivery = some d → s.fw.image = some i →
        d.phase = .verified → s.settings.pending = [] → firmwareWork s = false →
        AnsweredAfter (.fwHandover r) cmdFwHandover r s stAccepted [] (some s.ledger.head) (fun t => t.fw.delivery = none
          ∧ ∃ h, t.fw.hand = some h ∧ h.phase = .accepted ∧ h.window = r.arg 16 4 ∧ h.old = i ∧ h.new = headerInfo (tget [] s.fw.alternate 0)))

/-- STAGE2_MARK_DOWN marks every port that is neither UP nor disabled, and no other, a port whose link reset has not ended losing its
link; STAGE2_COMPLETE begins stage 3 in preparation and fixes the shape, once the ports have settled, the FA is set and the time is
locked. It rests on the model's choices in log 67. -/
def Obligations.StageTwoSettlesThePorts : Prop :=
  ∀ s : State, s.boot.stage = 2 → stopped s = false →
    (s.boot.marked = false → Completes .stage2MarkDown s (fun t =>
        t.boot = { s.boot with marked := true } ∧ t.die = s.die ∧ t.store = s.store
        ∧ (∀ q : Fin 20, (s.port q).state = lnUp ∨ (s.port q).state = lnDisabled → (t.port q).state = (s.port q).state)
        ∧ (∀ q : Fin 20, (s.port q).state ≠ lnUp → (s.port q).state ≠ lnDisabled → (t.port q).state = lnMarked ∧ (t.port q).resume = false)
        ∧ ((∀ q : Fin 20, (s.port q).resume = false) → t = { s with boot := t.boot, links := t.links }
          ∧ ∀ q : Fin 20, (s.port q).state = lnUp ∨ (s.port q).state = lnDisabled → t.port q = s.port q)))
    ∧ (stage2Done s = true → Completes .stage2Complete s (fun t =>
        t.boot = { s.boot with stage := 3, preparing := true } ∧ t.fabric = { s.fabric with fixed := true } ∧ t.die = s.die
        ∧ t.store = s.store ∧ t.links = s.links))
    ∧ (stage2Done s = false → exec .stage2Complete s = .next s)

/-- SCRATCHPAD_TEST_COMPLETE retires the segments that fail and those recorded before, which are OFF, and leaves every other
segment ON, filled and zero; CORE_SELF_TEST_COMPLETE gives each node its state, numbers the good ones in rising order, and ends the preparation, or, with
no core that can serve, puts the chiplet below the floor. -/
def Obligations.PreparationTestsSegmentsAndCores : Prop :=
  ∀ (failing : List Nat) (bad path : BitVec 64) (s : State), s.boot.stage = 3 → s.boot.preparing = true → stopped s = false →
    (s.boot.tested = false → Completes (.scratchpadTestComplete failing) s (fun t =>
        t.boot.tested = true ∧ t.boot.stage = 3 ∧ t.die = s.die
        ∧ (∀ k : Fin 512, (t.seg k).retired = (failing.contains (k : Nat) || (recordedRetired s).contains (k : Nat))
            ∧ (t.seg k).power = (if (t.seg k).retired then .off else .on) ∧ (t.seg k).filled = !(t.seg k).retired)
        ∧ t.store.mem.cells = [] ∧ t.store.mem.flips = []
        ∧ ∀ k : Fin 512, (t.seg k).retired = false → ∀ a : Nat, a / 0x100000 = k → t.mem.byteAt a = 0))
    ∧ (s.boot.tested = true → Completes (.coreSelfTestComplete bad path) s (fun t =>
        (∀ n : Fin 64, t.node n
            = if s.fuses.fusedOff.getLsbD n then .fusedOff else if bad.getLsbD n then .failedTest else .good)
        ∧ (∀ m n : Fin 64, m < n → t.node m = .good → t.node n = .good → t.logical m < t.logical n ∧ t.logical n < 64)
        ∧ t.boot.mapSet = true ∧ t.boot.shortfall = decide (goodCount t < s.fuses.grade.toNat) ∧ t.die.cores = s.die.cores
        ∧ t.store = s.store
        ∧ ((∃ n : Fin 64, floorNode t path n = true) → t.boot.stage = 3 ∧ t.boot.preparing = false)
        ∧ ((∀ n : Fin 64, floorNode t path n = false) → t.boot.stage = 0xF ∧ t.boot.floor = s.boot.floor ||| 16)))

/-! ### Handover and the steward (R60 to R66, R80, R186 to R188, R548 to R561, R570) -/

/-- A handover: its pause begins; the exchange changes places of blocks 16 to the last of the longer image, starts the new
image and drops pending settings; the start checks let it await confirmation; its own confirmation ends the handover with the
count of failures at 0; the end of the window lets it fall back, or, the second time, starts a warm reset; the exchange back
ends with the old image. It rests on the model's choices in logs 36, 59, 64. -/
def Obligations.HandoversExchangeAndConfirm : Prop :=
  ∀ (h : Handover) (s : State), s.fw.hand = some h →
    let last := max h.old.size h.new.size / 4096
    let swapped := fun (t : State) => ∀ b : Nat,
      tget [] t.fw.running b = tget [] (if 16 ≤ b ∧ b < last then s.fw.alternate else s.fw.running) b
      ∧ tget [] t.fw.alternate b = tget [] (if 16 ≤ b ∧ b < last then s.fw.running else s.fw.alternate) b
    (h.phase = .accepted → s.svc.normal = none →
        exec .handoverPauseBegin s = .next { s with fw := { s.fw with hand := some { h with phase := .exchanging } } })
    ∧ (h.phase = .falling → s.svc.normal = none →
        exec .handoverPauseBegin s = .next { s with fw := { s.fw with hand := some { h with phase := .restoring } } })
    ∧ (h.phase = .exchanging → s.fw.reruns = [] → (s.fw.running.map Prod.fst).Nodup → (s.fw.alternate.map Prod.fst).Nodup →
        Completes .exchangeComplete s (fun t => swapped t ∧ t.fw.image = some h.new ∧ t.settings.pending = []
          ∧ t.fw.hand = some { h with phase := .started, start := s.time.elapsed } ∧ t.die = s.die ∧ t.store = s.store))
    ∧ (h.phase = .restoring → s.fw.reruns = [] → (s.fw.running.map Prod.fst).Nodup → (s.fw.alternate.map Prod.fst).Nodup →
        Completes .exchangeComplete s (fun t => swapped t ∧ t.fw.image = some h.old ∧ t.settings.pending = [] ∧ t.fw.hand = none
          ∧ t.svc.paused = false ∧ t.die = s.die ∧ t.store = s.store))
    ∧ (h.phase = .started →
        exec .startChecksPass s = .next { s with fw := { s.fw with hand := some { h with phase := .awaiting, passed := true } } })
    ∧ (h.phase = .awaiting → Completes .selfConfirm s (fun t => t.fw.hand = none ∧ t.aon.failed = 0 ∧ t.fw.image = s.fw.image
        ∧ t.ledger.head = s.ledger.head + 2 ∧ t.die = s.die ∧ t.store = s.store))
    ∧ (h.phase = .awaiting ∨ h.phase = .started →
        (s.aon.failed = 0 → exec .confirmWindowEnd s = .next { s with
            aon := { s.aon with failed := 1 }, fw := { s.fw with hand := some { h with phase := .falling, back := (2, 0) } } })
        ∧ (s.aon.failed = 1 → Completes .confirmWindowEnd s (fun t => t.boot.stage = 0 ∧ t.aon.failed = 2 ∧ t.aon.cause = 3
            ∧ t.fw.hand = none ∧ t.die.cores = [] ∧ t.fuses = s.fuses)))

/-- The first expiry of the steward watchdog within a second leaves the loader serving: pending settings are dropped, one
RESET entry is appended, and cores, memory and transfers stay; a second within the second is a warm reset. A STEWARD_FAULT in
data acts like an expiry; one in the loader silences every lane. FULL_FIRMWARE_SERVICE lets firmware serve again. It rests on
the model's choices in logs 64, 68. -/
def Obligations.WatchdogExpiriesRecoverThenReset : Prop :=
  ∀ (pc : W32) (s : State), watchdogRuns s = true →
    let recovered := fun (n : W32) (t : State) => t.svc.paused = true ∧ t.svc.expiries = [s.time.elapsed] ∧ t.settings.pending = []
      ∧ t.ledger.head = s.ledger.head + n ∧ t.die = s.die ∧ t.store = s.store ∧ t.dma = s.dma ∧ t.head = s.head ∧ t.boot = s.boot
    (s.fw.hand = none → s.svc.normal = none → s.seize = none → recentExpiries s = [] → s.svc.muted = false →
      Completes .stewardWatchdogExpiry s (recovered 1) ∧ Completes (.stewardFault .dataSram pc) s (recovered 2)
      ∧ Completes (.stewardFault .exception pc) s (recovered 2)
      ∧ Completes (.stewardFault .keepSram pc) s (fun t => recovered 2 t ∧ t.svc.noReturn = true))
    ∧ (s.fw.hand = none → recentExpiries s ≠ [] → Completes .stewardWatchdogExpiry s (fun t =>
        t.boot.stage = 0 ∧ t.aon.cause = 2 ∧ t.aon.warm = true ∧ t.die.cores = [] ∧ t.dma = {} ∧ t.gateUnit = {} ∧ t.svc = {}
        ∧ t.fuses = s.fuses ∧ t.settings.banks = s.settings.banks))
    ∧ (s.fw.hand = none → Completes (.stewardFault .loader pc) s (fun t => t.svc.muted = true ∧ t.svc.paused = true ∧ t.die = s.die
        ∧ t.store = s.store ∧ ∀ u : State, exec .urgentServiceStart { u with svc := t.svc } = .next { u with svc := t.svc }))
    ∧ (s.svc.paused = true → s.svc.noReturn = false → s.fw.hand = none → Completes .fullFirmwareService s (fun t =>
        t.svc = { s.svc with paused := false, kick := s.time.elapsed } ∧ t.settings.pending = [] ∧ t.die = s.die ∧ t.store = s.store))

/-! ### The headgate (R25, R26, R486 to R519, R571) -/

/-- A raise of the operating point needs VDD_ACK and the lock of the idle PLL, in either order, and keeps the lower point
until both are there; a lowering switches at the lock and then asks for the lower voltage; an acknowledgement with another
number or another voltage is ignored; a timeout withdraws the request and keeps the lower point, and no raise follows at once. It
rests on the model's choices in logs 28, 87. -/
def Obligations.OperatingPointsChangeInOrder : Prop :=
  ∀ (c : OpChange) (num : Byte) (mv : W16) (s : State), s.head.change = some c →
    let other := fun (t : State) => t.die = s.die ∧ t.store = s.store ∧ t.ledger = s.ledger ∧ t.boot = s.boot
    (c.requested = true → num = s.head.reqNum → mv.toNat = pointMv s c.target → c.raise = true → c.pllLocked = false → exec (.vddAck num mv) s
        = .next { s with head := { s.head with ackMv := mv.toNat, change := some { c with acked := true } } })
    ∧ (c.requested = true → num = s.head.reqNum → mv.toNat = pointMv s c.target → c.raise = true → c.pllLocked = true →
        Completes (.vddAck num mv) s (fun t => t.head.op = c.target ∧ t.head.ackMv = mv.toNat ∧ other t))
    ∧ (c.requested = true → num = s.head.reqNum → mv.toNat = pointMv s c.target → c.raise = false →
        Completes (.vddAck num mv) s (fun t => t.head.op = c.target ∧ t.head.ackMv = mv.toNat ∧ other t))
    ∧ (c.requested = false ∨ num ≠ s.head.reqNum ∨ mv.toNat ≠ pointMv s c.target → exec (.vddAck num mv) s = .next s)
    ∧ (c.pllLocked = false → c.raise = true → c.acked = false → exec .corePllLocked s
        = .next { s with head := { s.head with change := some { c with pllLocked := true } } })
    ∧ (c.pllLocked = false → c.raise = true → c.acked = true →
        Completes .corePllLocked s (fun t => t.head.op = c.target ∧ t.head.ackMv = s.head.ackMv ∧ other t))
    ∧ (c.pllLocked = false → c.raise = false → Completes .corePllLocked s (fun t =>
        t.head.op = c.target ∧ t.head.reqNum = s.head.reqNum + 1
        ∧ t.sent = s.sent ++ [.sideband 0x03 ([s.head.reqNum + 1] ++ leBytes 2 (pointMv s c.target))] ∧ other t))
    ∧ (c.pllLocked = true → exec .corePllLocked s = .next s)
    ∧ (c.requested = true → c.acked = false → Completes .vddAckTimeout s (fun t =>
        (s.head.op ≤ chosenPoint s → t.head.change = none) ∧ (∀ d, t.head.change = some d → d.raise = false)
        ∧ t.head.op = s.head.op ∧ t.head.holdoff = 500 ∧ other t))

/-- The ramp shaper lets the forecast rise by at most the ramp in an interval and withholds cores until it fits; otherwise its floor
lies between the forecast and the ramp, and without a hint it decays at the ramp rate where spill may fill it; in a droop it does
not rise; a hint's forecast ages with the intervals; the loops rest outside stages 2 and 3; a droop
withholds issue until it clears; the first stall of the headgate withholds issue and is recorded, a second within a second
trips the chiplet; the cap ceiling falls by a point when more than a quarter of the demand was withheld, and stays at OP15 in
pace mode. It rests on the model's choices in logs 27, 28, 96. -/
def Obligations.LimitersWithholdMatrixIssue : Prop :=
  ∀ (f quiet : List Nat) (below : BitVec 16) (missed : W32) (d w : Nat) (s : State),
    let only := fun (t : State) => t = { s with head := t.head }
    let hints := fun (t : State) => t = { s with head := t.head, die := t.die } ∧ t.die = { s.die with cores := t.die.cores }
      ∧ ∀ n, t.core n = { s.core n with hint := (s.core n).hint.bind (fun k => k.pass (opPoint s s.head.op).2) }
    (loops s = true → s.head.droop = false →
      (s.head.floor + 50 * s.head.ramp < f.sum → Completes (.rampShaperInterval f quiet) s (fun t =>
        t.head.floor = s.head.floor + 50 * s.head.ramp ∧ hints t
        ∧ (((List.range 64).filter (fun n => !t.head.rampHold.getLsbD n)).map (fun n => f.getD n 0)).sum ≤ t.head.floor))
      ∧ (f.sum ≤ s.head.floor + 50 * s.head.ramp → Completes (.rampShaperInterval f quiet) s (fun t =>
        t.head.rampHold = 0 ∧ f.sum ≤ t.head.floor ∧ t.head.floor ≤ s.head.floor + 50 * s.head.ramp ∧ hints t
        ∧ (f.length = 64 → stopped s = false → (∀ e ∈ s.die.cores, e.2.hint = none) →
            t.head.floor ≤ max f.sum (s.head.floor - 50 * s.head.ramp)
            ∧ (s.head.floor - 50 * s.head.ramp ≤ f.sum + spillRoom s f quiet → s.head.floor - 50 * s.head.ramp ≤ limitCurrent s.head →
                t.head.floor = max f.sum (s.head.floor - 50 * s.head.ramp))))))
    ∧ (loops s = true → s.head.droop = true → Completes (.rampShaperInterval f quiet) s (fun t => t.head.floor ≤ s.head.floor ∧ hints t))
    ∧ (loops s = false → exec (.rampShaperInterval f quiet) s = .next s ∧ exec (.opLoop d w) s = .next s)
    ∧ (below ≠ 0 → Completes (.droopDetect below) s (fun t =>
        t.head.droop = true ∧ t.head.below = below ∧ only t ∧ ∀ n, withheld t n = true))
    ∧ (below = 0 → exec (.droopDetect below) s = .next s)
    ∧ Completes .droopClear s (fun t => t.head.droop = false ∧ t.head.below = 0 ∧ only t)
    ∧ (s.head.stalls = [] → s.fw.hand = none → Completes (.headgateStall missed) s (fun t =>
        t.head.stalled = true ∧ t.head.stalls = [s.time.elapsed] ∧ t.ledger.head = s.ledger.head + 1 ∧ t.aon = s.aon ∧ t.die = s.die
        ∧ ∀ n, withheld t n = true))
    ∧ ((∃ a ∈ s.head.stalls, s.time.elapsed < a + 1000000000) → s.boot.dead = false →
        Completes (.headgateStall missed) s (fun t => t.aon.stop.trip = true ∧ t.store.mem = s.store.mem))
    ∧ (loops s = true → s.head.pace = none → d < 4 * w → Completes (.opLoop d w) s (fun t => t.head.capCeil = s.head.capCeil - 1
        ∧ t = { s with head := t.head, sent := t.sent }))
    ∧ (loops s = true → s.head.pace.isSome = true → Completes (.opLoop d w) s (fun t => t.head.capCeil = 15
        ∧ t = { s with head := t.head, sent := t.sent }))

/-- An estimator period gives the cap limiter a share between none and all, lets a stalled headgate serve again, and changes
the headgate alone; a report of the rails is taken with its measured power, and reports are no longer stale; a stale timeout
says so; a dither runs its 40 slots; a conversion gives each point its temperature; a pace window without strips gives each
core the base budget; all of this but the conversions only in stages 2 and 3. It rests on the model's choices in logs 12, 27, 28, 95. -/
def Obligations.EstimatesReportsAndTemperaturesAreTaken : Prop :=
  ∀ (a : Activity) (n core sram flume link : W16) (temps : List Int) (d : Dither) (op : Nat) (s : State),
    let only := fun (t : State) => t = { s with head := t.head }
    let h := s.head
    (loops s = true → Completes (.estimatorPeriod a) s (fun t => 0 ≤ t.head.share ∧ t.head.share ≤ 1 ∧ t.head.stalled = false
        ∧ t.head.fitAge = h.fitAge + 2 ∧ t.head.reportAge = h.reportAge + 2 ∧ t.head.holdoff = h.holdoff - 1 ∧ t.head.op = h.op ∧ only t))
    ∧ (loops s = true → Completes (.railReport n core sram flume link) s (fun t => t.head.stale = false ∧ t.head.sample = n ∧ t.head.reportAge = 0
        ∧ t.head.lastRails = (core.toNat : Rat) * (h.ackMv : Rat) / 10000 + (sram.toNat : Rat) * 8 / 100
            + (flume.toNat : Rat) * 75 / 1000 + (link.toNat : Rat) * 85 / 1000
        ∧ t.head.reports.tail = (h.reports.filter (fun q => q.age ≤ 50000)).take 199 ∧ only t))
    ∧ (loops s = true → Completes .railStaleTimeout s (fun t => t.head.stale = true ∧ only t))
    ∧ (h.dither = none → exec .ditherSlot s = .next s)
    ∧ (loops s = true → h.dither = some d → d.slot < 39 → h.ditherOn = true → Completes .ditherSlot s (fun t =>
        (∃ e, t.head.dither = some e ∧ e.slot = d.slot + 1 ∧ e.prbs = prbsNext d.prbs ∧ e.high = e.prbs.getLsbD 0) ∧ only t))
    ∧ (loops s = true → h.dither = some d → 39 ≤ d.slot ∨ h.ditherOn = false → Completes .ditherSlot s (fun t => t.head.dither = none ∧ only t))
    ∧ (temps.length = 72 → s.seize = none → Completes (.thermalConversion temps) s (fun t =>
        (∀ k : Fin 72, (tget {} t.head.points k).temp = temps.getD k 0)
        ∧ (∀ k : Fin 72, (tget {} t.head.points k).failed = false → (tget {} t.head.points k).alert ≤ temps.getD k 0 →
            t.head.alerting = true)
        ∧ (∀ k : Fin 72, temps.getD k 0 < -10 ∨ 125 < temps.getD k 0 → (tget {} t.head.points k).failed = true)
        ∧ t.die = s.die ∧ t.store = s.store ∧ t.boot = s.boot))
    ∧ (loops s = true → h.pace = some op → Completes (.paceWindow (List.replicate 64 0)) s (fun t =>
        (∀ k : Fin 64, tget 1 t.head.paceBudget k = ((paceDuty s op h.cap * 4096 / 100 : Nat) : Int)) ∧ only t))
    ∧ (h.pace = none → ∀ l, exec (.paceWindow l) s = .next s)
    ∧ (loops s = false → ∀ l, exec (.estimatorPeriod a) s = .next s ∧ exec (.railReport n core sram flume link) s = .next s
        ∧ exec .railStaleTimeout s = .next s ∧ exec .ditherSlot s = .next s ∧ exec (.paceWindow l) s = .next s)

/-! ### Faults of the hardware and events of the scratchpad (R165, R166, R173, R178, R332 to R349, R564 to R569) -/

/-- HARDWARE_FAULT stops a running core of a cluster basin on its record, and its node is faulted in service; the scratchpad
stays. A FLUME_FAULT stops and clears every core of every active basin, and the third within the hour ends service. A
PARITY_DETECTION outside a step is recorded once, and its word fails its parity from then on; a core that does not run takes no
fault. The 32 granules of an aligned 8 KiB lie in different banks, and bank and row name one granule of a slice (R325). It rests
on the model's choices in logs 43, 81. -/
def Obligations.DetectionsStopWhatTheyMust : Prop :=
  ∀ (n : Fin 64) (cause : HwCause) (plane : BitVec 3) (addr : W32) (s : State), s.fw.hand = none →
    (∀ b, basinOf s n = some b → (s.basin b).lattice = false → seizing s b = false → (s.core n).run = .running → (s.core n).gops = [] →
        (∀ g, (s.gate g).holder = none) → Completes (.hardwareFault n cause 1) s (fun t =>
        (t.core n).run = .faulted ∧ (∃ r, (t.core n).fault = some r ∧ r.cause = hwCode cause ∧ r.pc = (s.core n).pc ∧ r.addr = 0)
        ∧ t.node n = .faulted ∧ (t.basin b).step = none ∧ t.store.mem = s.store.mem ∧ t.ledger.head = s.ledger.head + 2
        ∧ (∀ m : Nat, m ≠ n → t.node m = s.node m)))
    ∧ ((s.core n).run = .idle ∨ (s.core n).run = .faulted → exec (.hardwareFault n cause 1) s = .next s)
    ∧ (s.seize = none → Completes (.flumeFault n plane) s (fun t =>
        (∀ b : Fin 32, (s.basin b).state = .active → ∀ k ∈ (s.basin b).rect.nodes, hasCore s k = true →
            (t.core k).run = .idle ∧ (t.core k).s = [] ∧ (t.core k).sb = [] ∧ (t.core k).gops = [])
        ∧ (t.boot.ended = true ↔ s.boot.ended = true ∨ 2 ≤ (s.die.flumeFaults.filter (fun a => s.time.elapsed ≤ a + flumeHour)).length)
        ∧ t.store.mem = s.store.mem))
    ∧ ((s.seg (segOf (addr.toNat / 4 * 4))).retired = false → (s.seg (segOf (addr.toNat / 4 * 4))).hits = [] →
        ∀ v ∈ [Reader.steward, .inMemory, .dma, .window, .debug], Completes (.parityDetection addr v) s (fun t =>
          t.ledger.head = s.ledger.head + 1 ∧ t.die = s.die ∧ t.store.mem.fails (addr.toNat / 4 * 4) = true
          ∧ (∀ a, a < addr.toNat / 4 * 4 ∨ addr.toNat / 4 * 4 + 4 ≤ a → t.store.mem.byteAt a = s.store.mem.byteAt a) ∧ t.dma = s.dma))
    ∧ (∀ a b, a / 0x2000 = b / 0x2000 → bankOf a = bankOf b → a / 0x100 = b / 0x100)
    ∧ (∀ a b, sliceOf a = sliceOf b → bankOf a = bankOf b → rowOf a = rowOf b → a / 0x100 = b / 0x100)

/-- The ends of background work: a woken group is ON; a slice's engine writes the segment or the part of an operation that its queue
serves, and nothing else, and a segment that it fills is FILLED; a zeroing or a fill ends once its segments are written, and they
are free of it; a load whose check agrees puts its image in the stores. It rests on the model's choices in logs 9, 89. -/
def Obligations.BackgroundWorkEndsInItsEffect : Prop :=
  ∀ s : State, s.fw.hand = none →
    (∀ j, s.store.wake = some j → j.waiting ≠ [] → Completes .segWakeGroup s (fun t =>
        (∀ k ∈ j.waking, k ∉ j.waiting → (t.seg k).power = .on) ∧ (∀ k ∈ j.waiting.take 64, (t.seg k).power = .waking)
        ∧ (∀ k, k ∉ j.waking → k ∉ j.waiting → t.seg k = s.seg k) ∧ t.die = s.die))
    ∧ (s.store.wake = none → exec .segWakeGroup s = .next s)
    ∧ (∀ (b : Fin 32) (k : Nat) (d : List Byte) (o : Origin), s.store.zero = [⟨b, true, [k], d, o⟩] → (s.seg k).retired = false →
        (segmentQueued s k = true → exec (.zeroingComplete b) s = .next s)
        ∧ (segmentQueued s k = false → Completes (.zeroingComplete b) s (fun t =>
          t.seg k = { s.seg k with owner := none, busy := false } ∧ t.store.zero = [] ∧ t.store.mem = s.store.mem
          ∧ (∀ j, j ≠ k → t.seg j = s.seg j) ∧ t.die = s.die ∧ t.ledger.head = s.ledger.head + 1)))
    ∧ (∀ (v : W64) (k : Nat) (d : List Byte) (o : Origin), s.store.fills = [⟨v, [k], d, o⟩] →
        (segmentQueued s k = true → exec .segFillComplete s = .next s)
        ∧ (segmentQueued s k = false → Completes .segFillComplete s (fun t =>
          t.seg k = { s.seg k with busy := false } ∧ t.store.fills = [] ∧ t.store.mem = s.store.mem
          ∧ (∀ j, j ≠ k → t.seg j = s.seg j) ∧ t.die = s.die ∧ t.ledger.head = s.ledger.head + 1)))
    ∧ (∀ (b : Fin 32) (j : LoadJob), (s.basin b).load = some j → firstBad s.mem j.src j.len = none →
        (crc32c (s.mem.read j.src j.len) = j.check.toNat → Completes (.progLoadComplete b) s (fun t =>
          (t.basin b).load = none ∧ (t.basin b).image = some ⟨j.lattice, s.mem.read j.src j.len, j.entry, j.clusters⟩
          ∧ t.store = s.store ∧ (∀ c, c ≠ (b : Nat) → t.basin c = s.basin c) ∧ t.ledger.head = s.ledger.head + 1))
        ∧ (crc32c (s.mem.read j.src j.len) ≠ j.check.toNat → Completes (.progLoadComplete b) s (fun t =>
          (t.basin b).load = none ∧ (t.basin b).image = (s.basin b).image ∧ t.store = s.store ∧ t.die.cores = s.die.cores)))
    ∧ (∀ (k : Fin 64) (p : MemPart) (r : List MemPart), sliceQueue s k = p :: r → s.store.found = [] → tget [] s.store.waiting k = [] →
        let ends := fun (m : Memory) (t : State) => t.store.mem = m ∧ sliceQueue t k = r ∧ t.ledger = s.ledger ∧ t.dma = s.dma
          ∧ ∀ n, (t.core n).s = (s.core n).s ∧ (t.core n).a = (s.core n).a ∧ (t.core n).pc = (s.core n).pc
        (∀ op v, p.work = .fill op v → Completes (.inMemoryOpComplete k) s (ends (s.store.mem.fill p.dst p.len v)))
        ∧ (∀ op src, p.work = .copy op src → firstBad s.mem src p.len = none →
            Completes (.inMemoryOpComplete k) s (ends (s.store.mem.write p.dst (s.mem.read src p.len))))
        ∧ (∀ v, p.work = .seg v → (s.seg (segOf p.dst)).power = .on → Completes (.inMemoryOpComplete k) s (fun t =>
            ends (s.store.mem.fill p.dst p.len v) t ∧ t.seg (segOf p.dst) = { s.seg (segOf p.dst) with filled := true }
            ∧ ∀ j, j ≠ segOf p.dst → t.seg j = s.seg j)))
    ∧ (∀ k : Fin 64, sliceQueue s k = [] → exec (.inMemoryOpComplete k) s = .next s)

/-! ### Discovery and time (R144 to R155, R404 to R408, R465 to R471) -/

/-- A flood of a discovery that is served already is dropped; another is served from its port, and, unless the shape is fixed
to another one, its shape is taken and a new route generation is in force. Only the originator of the running discovery counts
a reply. A withdrawal makes the route to its FA invalid in both copies. The quiet timer ends the discovery with its background
entry; the forget timer forgets it. It rests on the model's choices in log 38. -/
def Obligations.DiscoveryRowsTakeEffect : Prop :=
  ∀ (q : Fin 20) (sf : W16) (sp : Byte) (d : Disc) (f : W16) (refused : Bool) (down : Byte) (die : W64) (s : State), s.fw.hand = none → s.dma.reads = [] →
    let rest := fun (t : State) => t.die = s.die ∧ t.store = s.store ∧ t.dma = s.dma ∧ t.gateUnit = s.gateUnit ∧ t.boot = s.boot
    (dropsFlood s d = true → exec (.discoveryFlood q sf sp d) s = .next s)
    ∧ (s.fabric.current = none → s.fabric.fixed = false → d.mode = 2 → s.fabric.fa = 0xFFFF → sf ≠ 0xFFFF → derivedFa d sf sp.toNat = some f →
        f ≠ 0xFFFF → (faSlot f = s.boot.pins.slotId.toNat → Completes (.discoveryFlood q sf sp d) s (fun t =>
          t.fabric.fa = f ∧ faPod f = faPod d.orig ∧ t.fabric.shape = formOf d ∧ rest t))
        ∧ (faSlot f ≠ s.boot.pins.slotId.toNat → Completes (.discoveryFlood q sf sp d) s (fun t =>
          t.fabric.fa = 0xFFFF ∧ t.fabric.shape = s.fabric.shape ∧ t.fabric.active = s.fabric.active ∧ rest t)))
    ∧ (s.fabric.current = none → s.fabric.fixed = false → d.mode ≠ 2 → s.fabric.fa ≠ 0xFFFF →
        Completes (.discoveryFlood q sf sp d) s (fun t =>
          (∃ u, u ≤ s.time.elapsed + 200000 ∧ t.fabric.current = some { d := d, parent := some q, before := s.fabric.active, busyTo := u }) ∧ t.fabric.shape = formOf d
          ∧ t.fabric.generation = s.fabric.generation + 1 ∧ t.fabric.active = t.fabric.shadow ∧ t.fabric.fa = s.fabric.fa ∧ rest t))
    ∧ (s.fabric.current = none → s.fabric.fixed = true → formOf d ≠ s.fabric.shape → Completes (.discoveryFlood q sf sp d) s (fun t =>
          (∃ u, u ≤ s.time.elapsed + 200000 ∧ t.fabric.current = some { d := d, parent := some q, before := s.fabric.active, busyTo := u }) ∧ t.fabric.shape = s.fabric.shape
          ∧ t.fabric.generation = s.fabric.generation ∧ t.fabric.active = s.fabric.active ∧ rest t))
    ∧ (d.orig = s.fabric.fa → s.fabric.fa ≠ 0xFFFF → d.num = s.fabric.last.num → s.fabric.last.origin.isSome = true →
        (∀ e ∈ s.fabric.last.replies, e.1 ≠ f) → exec (.discoveryReply q d f refused down die) s
          = .next { s with fabric := { s.fabric with last := { s.fabric.last with
              replies := (f, die) :: s.fabric.last.replies, reached := s.fabric.last.reached + 1
              down := s.fabric.last.down + down.toNat, refused := s.fabric.last.refused + (if refused then 1 else 0) } } })
    ∧ (d.orig = s.fabric.fa → s.fabric.fa ≠ 0xFFFF → d.num ≠ s.fabric.last.num ∨ s.fabric.last.origin = none →
        exec (.discoveryReply q d f refused down die) s = .next s)
    ∧ (∀ c, s.fabric.current = some c → c.d = d → c.seen.contains f = false → f ≠ s.fabric.fa →
        Completes (.discoveryWithdrawal q d f) s (fun t =>
          (tget 0 t.fabric.active.dest (destIndex f)).getLsbD 25 = false ∧ (tget 0 t.fabric.shadow.dest (destIndex f)).getLsbD 25 = false
          ∧ t.fabric.current = some { c with seen := f :: c.seen } ∧ rest t))
    ∧ (s.fabric.current = none → exec (.discoveryWithdrawal q d f) s = .next s)
    ∧ (s.fabric.last.origin.isSome = true → Completes .discoveryQuietTimer s (fun t =>
        t.fabric = { s.fabric with last := { s.fabric.last with status := stOk, origin := none } }
        ∧ t.ledger.head = s.ledger.head + 1 ∧ t.links = s.links ∧ rest t))
    ∧ (s.fabric.last.origin = none → exec .discoveryQuietTimer s = .next s)
    ∧ exec .discoveryForget s = .next { s with fabric := { s.fabric with current := none } }
    ∧ (∀ r : Request,
      let fa : W16 := BitVec.ofNat 16 (r.arg 16 2)
      let sh : Shape := ⟨byte (r.arg 16 1), byte (r.arg 17 1), BitVec.ofNat 16 (r.arg 18 2)⟩
      let head := some s.ledger.head
      (Admitted cmdFabricAddrSet r s → faSlot fa < 16 → faSlot fa = s.boot.pins.slotId.toNat → s.boot.stage = 2 →
          AnsweredAfter (.fabricAddrSet r) cmdFabricAddrSet r s stOk [] head (fun t => t.fabric.fa = fa ∧ t.fabric.active = s.fabric.active))
      ∧ (Admitted cmdFabricShapeSet r s → shapeOk sh = true → s.fabric.fixed = false →
          AnsweredAfter (.fabricShapeSet r) cmdFabricShapeSet r s stOk [] head (fun t =>
            t.fabric = { s.fabric with proposed := some sh, shape := sh } ∧ t.ledger.head = s.ledger.head + 1 ∧ rest t))
      ∧ (Admitted cmdFabricDiscover r s → r.arg 16 1 = 0 → r.arg 17 1 ≤ 2 →
          AnswersOnly (.fabricDiscover r) cmdFabricDiscover r s stOk (discResult s))
      ∧ (Admitted cmdFabricDiscover r s → r.arg 16 1 = 1 → r.arg 17 1 ≤ 2 → s.fabric.fa ≠ 0xFFFF → (proposedShape s).shape ≠ 0 →
          s.fabric.last.origin = none → s.fabric.current = none → AnsweredAfter (.fabricDiscover r) cmdFabricDiscover r s stAccepted
            (leBytes 2 (s.fabric.last.num + 1).toNat) head (fun t => t.fabric.last.num = s.fabric.last.num + 1 ∧ t.fabric.last.status = stAccepted
              ∧ t.fabric.last.reached = 1 ∧ t.fabric.last.origin.isSome = true ∧ t.fabric.current.isSome = true ∧ rest t))
      ∧ (Admitted cmdRouteLoad r s → applying s = false → r.arg 16 1 ≤ 1 → 1 ≤ r.arg 17 1 → r.arg 17 1 ≤ 12 → r.arg 20 1 = 0 → r.arg 18 2 + r.arg 17 1 ≤ tableSize (r.arg 16 1) →
          (loadEntries r).all (entryOk (r.arg 16 1)) = true → AnsweredAfter (.routeLoad r) cmdRouteLoad r s stOk [] head (fun t =>
            t.fabric.active = s.fabric.active ∧ t.fabric.generation = s.fabric.generation ∧ rest t
            ∧ ∀ i, i < r.arg 17 1 → tget 0 (t.fabric.shadow.table (r.arg 16 1)) (r.arg 18 2 + i) = BitVec.ofNat 64 (r.arg (24 + 8 * i) 8)))
      ∧ (Admitted cmdRouteLoad r s → applying s = true → r.arg 16 1 ≤ 1 → r.arg 17 1 = 0 → r.arg 20 1 = 1 → r.arg 18 2 ≤ tableSize (r.arg 16 1) →
          AnswersOnly (.routeLoad r) cmdRouteLoad r s stConflict [])
      ∧ (Admitted cmdRouteLoad r s → applying s = false → r.arg 16 1 ≤ 1 → r.arg 17 1 = 0 → r.arg 20 1 = 1 → r.arg 18 2 ≤ tableSize (r.arg 16 1) →
          AnsweredAfter (.routeLoad r) cmdRouteLoad r s stOk [] head (fun t =>
            t.fabric.active = s.fabric.shadow ∧ t.fabric.shadow = s.fabric.shadow ∧ t.fabric.generation = s.fabric.generation + 1)))

/-- A turn edge: the counter stands at the next multiple of the period, every hold of an edge operation ends, and nothing else
of a core changes. A nomination that prevails is adopted, recorded and sent on, any other is dropped. A request for time is
answered with the time of its arrival; the best parent's response disciplines the clock: a locked clock that keeps its parent
is not loaded, an unlocked one loads its counter while it is far and locks after two near exchanges. It rests on the model's
choices in logs 1, 39, 56. -/
def Obligations.TimeFollowsTheGrandmaster : Prop :=
  ∀ (q : Fin 20) (n : Nomination) (o : Origin) (m : TimeMsg) (t4 : W64) (low : W16) (s : State), s.fw.hand = none →
    let rest := fun (t : State) => t.store = s.store ∧ t.dma = s.dma ∧ t.links = s.links ∧ t.boot = s.boot
    let u := hear s q m
    let x := twiceOffset m t4
    (s.boot.rstLow = false → s.boot.dead = false → s.time.nextPeriod = none → s.time.period ≠ 0 →
        s.time.count.toNat + s.time.period.toNat < 2 ^ 64 → Completes .turnEdge s (fun t =>
          s.time.count.toNat < t.time.count.toNat ∧ t.time.count.toNat ≤ s.time.count.toNat + s.time.period.toNat
          ∧ t.time.count.toNat % s.time.period.toNat = 0 ∧ (∀ k, t.core k = { s.core k with edge := false })
          ∧ t.ledger = s.ledger ∧ rest t))
    ∧ (prevails n s.time = true → s.time.nominated = none → Completes (.timeNomination n) s (fun t =>
        t.time.definition = some n ∧ (∃ l, t.sent = l ++ [.nomination n]) ∧ t.ledger.head = s.ledger.head + 1
        ∧ t.time.count = s.time.count ∧ t.die = s.die ∧ rest t))
    ∧ (prevails n s.time = false → exec (.timeNomination n) s = .next s)
    ∧ (s.time.nominated = some (n, o) → s.time.locked = true → n.mode = 2 → Completes .timeMasterLocked s (fun t =>
        t.time.nominated = none ∧ t.ledger.head = s.ledger.head + 1 ∧ t.die = s.die ∧ rest t))
    ∧ (s.time.nominated = none → exec .timeMasterLocked s = .next s)
    ∧ Completes .timeExchangeTimer s (fun t => t = { s with sent := t.sent }
        ∧ ∀ p : Fin 20, portUp s p = true → ∃ r : TimeMsg, Sent.time p false r ∈ t.sent ∧ r.t1 = s.time.count)
    ∧ (portUp s q = true → Completes (.timeReq q m) s (fun t =>
        (∃ l r, t.sent = l ++ [.time q true r] ∧ r.t1 = m.t1 ∧ r.t2 = s.time.count ∧ r.t3 = s.time.count)
        ∧ tget {} t.time.partners q = { locked := m.locked, holdover := m.holdover, gmFa := m.gmFa, hops := m.hops }
        ∧ t.time.count = s.time.count ∧ t.die = s.die ∧ rest t))
    ∧ (portUp s q = false → exec (.timeReq q m) s = .next s ∧ exec (.timeRsp q m t4) s = .next s)
    ∧ (portUp s q = true → u.time.gmFa ≠ u.fabric.fa → bestParent u = some (q : Nat) → Completes (.timeRsp q m t4) s (fun t =>
        t.time.parent = some (q : Nat) ∧ t.time.hops = m.hops + 1 ∧ t.time.holdover = false ∧ t.time.lastExchange = s.time.elapsed
        ∧ (u.time.locked = true → u.time.parent = some (q : Nat) → t.time.locked = true ∧ t.time.count = s.time.count)
        ∧ (u.time.locked = false → x.natAbs ≤ 4 → t.time.count = s.time.count ∧ t.time.near = u.time.near + 1
            ∧ t.time.locked = decide (2 ≤ u.time.near + 1))
        ∧ (u.time.locked = false → 4 < x.natAbs → t.time.count = s.time.count + BitVec.ofInt 64 (x / 2) ∧ t.time.near = 0
            ∧ t.time.locked = false)
        ∧ rest t))
    ∧ (s.time.holdover = true → s.time.parent = none →
        exec .holdoverExpiry s = .next { s with time := { s.time with locked := false, holdover := false, near := 0 } })
    ∧ (s.time.holdover = false ∨ s.time.parent ≠ none → exec .holdoverExpiry s = .next s)
    ∧ (isGm s = true → exec (.grandmasterFallback low) s = .next s)
    ∧ (isGm s = false → low ≠ s.time.gmFa → Completes (.grandmasterFallback low) s (fun t =>
        t.time.gmFa = low ∧ t.time.fellBack = true ∧ t.time.parent = none ∧ t.time.count = s.time.count ∧ t.die = s.die ∧ rest t))
    ∧ (∀ r, Admitted cmdTimeMaster r s → r.arg 16 1 = 0 → r.arg 20 4 = 0 → s.time.nominated = none →
        (∀ k ∈ s.time.definition, (stamp s).toNat < k.ts.toNat →
          AnsweredAfter (.timeMaster r) cmdTimeMaster r s stAccepted [] (some s.ledger.head) (fun t => t.time.definition = some k
            ∧ t.time.nominated = none ∧ t.time.gmFa = s.time.gmFa ∧ t.ledger.head = s.ledger.head + 2))
        ∧ AnsweredAfter (.timeMaster r) cmdTimeMaster r s stAccepted [] (some s.ledger.head) (fun t => rest t
          ∧ ∃ l, t.sent = l ++ [.nomination { mode := 0, ts := stamp s, nomFa := s.fabric.fa, gmFa := s.fabric.fa, period := s.time.period }]))

/-! ### Gangs (R156 to R160, R419 to R422, R462 to R464) -/

/-- A gang's rows. A join that a member can accept makes it tentative and says so, any other is refused; commit makes it
active with its entry; abort and the tentative expiry drop it with no entry; the master commits after the last acceptance,
aborts at a refusal or a deadline, and is active after the last acknowledgement; a member that is told to leave leaves and
acknowledges, and the master's gang is gone after the last acknowledgement or the deadline; the master's timer sends a beat to
every member, a beat that comes is recorded and answered, and an answer is recorded; a gang that has lost a chiplet halts: the
running cores of its basin stop with their state held; at the release of a gang barrier a gbar that waits here has its result,
due at the edge, and no register is written yet. It rests on the model's choices in logs 56, 57. -/
def Obligations.GangRowsFollowTheProtocol : Prop :=
  ∀ (m : W16) (k kind : Byte) (tn : W16) (b : Fin 32) (w h md mem : Byte) (lost : W16) (gate : Fin 128) (edge : W64) (o : GateOp) (g : Gang) (s : State),
    s.fw.hand = none → s.store.found = [] →
    let fits := kind ≠ 2 ∨ ((basinRect (s.basin b)).w = w.toNat ∧ (basinRect (s.basin b)).h = h.toNat ∧ (s.basin b).lattice = (md == 1))
    let i := mem.toNat
    let cores := fun (t : State) => t.die = s.die ∧ t.store = s.store ∧ t.gateUnit = s.gateUnit ∧ t.dma = s.dma
    let here := sameGang s m k = [g]
    let changed := fun (g' : Gang) => { s.fabric with gangs := s.fabric.gangs.map (fun x => if x = g then g' else x) }
    let mine := findGang s s.fabric.fa k = some g
    let halted := fun (t : State) =>
      (∃ g', findGang t m k = some g' ∧ g'.phase = .halted)
      ∧ ∀ n, n ∈ basinCores s g.basin → (s.core n).run = .running → (t.core n).run = .stopped
    ((s.basin b).state ≠ .free → (s.basin b).tenant = tn → gangOf s b = none → s.fabric.gangs.length < 16 → fits →
        exec (.gangJoin m k kind tn b w h md) s
          = .next { s with sent := s.sent ++ [.gang m m k (.reply (byte b) true)], fabric := { s.fabric with gangs := s.fabric.gangs
              ++ [{ num := k, master := m, kind := kind, tenant := tn, basin := b, phase := .tentative }] } })
    ∧ ((s.basin b).state = .free ∨ (s.basin b).tenant ≠ tn ∨ (gangOf s b).isSome ∨ 16 ≤ s.fabric.gangs.length ∨ ¬ fits →
        exec (.gangJoin m k kind tn b w h md) s = .next (s.emit (.gang m m k (.reply (byte b) false))))
    ∧ (here → g.phase = .tentative → Completes (.gangCommit m k) s (fun t =>
        findGang t m k = some { g with phase := .active, beats := [(0, s.time.elapsed)] }
        ∧ t.ledger.head = s.ledger.head + 1 ∧ (∃ l, t.sent = l ++ [.gang g.master g.master g.num (.ack (byte g.basin))]) ∧ cores t))
    ∧ (here → g.phase = .tentative → ∀ i ∈ [Instr.gangAbort m k, .gangTentativeExpiry m k], exec i s
        = .next { s with fabric := { s.fabric with gangs := s.fabric.gangs.filter (fun x => x != g) } })
    ∧ (here → g.phase ≠ .tentative → ∀ i ∈ [Instr.gangAbort m k, .gangTentativeExpiry m k], exec i s = .next s)
    ∧ (mine → g.phase = .forming → 0 < i → i < g.members.length →
        Completes (.gangJoinReply k mem false) s (fun t => g ∉ t.fabric.gangs ∧ cores t
          ∧ t.ledger.head = s.ledger.head + (if g.origin.isSome then 1 else 0))
        ∧ (g.replied.contains i = false → g.replied.length + 2 = g.members.length → Completes (.gangJoinReply k mem true) s (fun t =>
          findGang t s.fabric.fa k = some { g with replied := g.replied ++ [i], phase := .committed } ∧ cores t
          ∧ ∀ e ∈ otherMembers g, Sent.gang e.2.fa g.master g.num .commit ∈ t.sent)))
    ∧ (mine → g.phase = .committed → 0 < i → i < g.members.length → g.acked.contains i = false →
        (g.acked.length + 2 = g.members.length → Completes (.gangCommitAck k mem) s (fun t =>
          (∃ g', findGang t s.fabric.fa k = some g' ∧ g'.phase = .active ∧ g'.origin = none) ∧ cores t
          ∧ t.ledger.head = s.ledger.head + (if g.origin.isSome then 1 else 0)))
        ∧ (g.acked.length + 2 ≠ g.members.length → Completes (.gangCommitAck k mem) s (fun t =>
          findGang t s.fabric.fa k = some { g with acked := g.acked ++ [i] } ∧ cores t ∧ t.ledger = s.ledger)))
    ∧ (mine → g.phase = .forming → Completes (.gangReplyDeadline k) s (fun t => g ∉ t.fabric.gangs ∧ cores t
        ∧ t.ledger.head = s.ledger.head + (if g.origin.isSome then 1 else 0)))
    ∧ (here → g.members = [] → g.phase = .active ∨ g.phase = .halted → Completes (.gangLeave m k) s (fun t => g ∉ t.fabric.gangs
        ∧ t.ledger.head = s.ledger.head + 1 ∧ (∃ l, t.sent = l ++ [.gang g.master g.master g.num (.leaveAck (byte g.basin))]) ∧ cores t))
    ∧ (mine → g.phase = .leaving → 0 < i → i < g.members.length → g.acked.contains i = false → g.acked.length + 2 = g.members.length →
        Completes (.gangLeaveAck k mem) s (fun t => g ∉ t.fabric.gangs ∧ cores t
          ∧ t.ledger.head = s.ledger.head + (if g.origin.isSome then 1 else 0)))
    ∧ (mine → g.phase = .leaving → Completes (.gangLeaveDeadline k) s (fun t => g ∉ t.fabric.gangs ∧ cores t
        ∧ t.ledger.head = s.ledger.head + (if g.origin.isSome then 1 else 0)))
    ∧ (here → g.phase = .active → g.members = [] → exec (.gangBeat m k none) s = .next { s with
        fabric := changed { g with beats := [(0, s.time.elapsed)] }, sent := s.sent ++ [.gang g.master g.master g.num (.beatAnswer (byte g.basin))] })
    ∧ (here → g.phase = .active → g.members ≠ [] → Completes (.gangBeat m k none) s (fun t => t = { s with sent := t.sent }
        ∧ ∀ e ∈ otherMembers g, Sent.gang e.2.fa g.master g.num .beat ∈ t.sent))
    ∧ (here → g.phase = .active → m = s.fabric.fa → 0 < i → i < g.members.length → exec (.gangBeat m k (some mem)) s = .next { s with
        fabric := changed { g with beats := g.beats.filter (fun e => e.1 != i) ++ [(i, s.time.elapsed)] } })
    ∧ (here → g.phase ≠ .active → ∀ a : Option Byte, exec (.gangBeat m k a) s = .next s)
    ∧ (here → g.phase = .active → (s.basin g.basin).state = .active → (∀ n, (s.core n).v = [] ∧ (s.core n).gops = []) →
        ((m ≠ s.fabric.fa → silent s g 0 = true) → (m = s.fabric.fa → ∃ e ∈ otherMembers g, e.2.fa = lost ∧ silent s g e.1 = true) →
          Completes (.gangLost m k lost) s halted)
        ∧ (m ≠ s.fabric.fa → silent s g 0 = false → exec (.gangLost m k lost) s = .next s)
        ∧ (g.members = [] → Completes (.gangHalt m k lost) s halted))
    ∧ (s.die.basins.all (fun e => e.2.saved.isEmpty) = true → s.die.cores = [(0, s.core 0)] → (s.core 0).gops = [o] → awaitsRelease m gate o = true →
        Completes (.gangBarrierRelease m gate edge) s (fun t =>
          (t.core 0).gops = [{ o with result := some (plainStatus gsOk), due := some edge }] ∧ (t.core 0).s = (s.core 0).s ∧ t.gateUnit = s.gateUnit ∧ t.store = s.store))
    ∧ (s.die.basins = [] → (∀ e ∈ s.die.cores, e.2.gops = []) → exec (.gangBarrierRelease m gate edge) s = .next s)
    ∧ (∀ r : Request,
      let l := formMembers r
      let own : GangMember := l.headD ⟨0, 0⟩
      let num := byte (r.arg 16 1)
      (Admitted cmdGangForm r s → r.arg 16 1 ≤ 15 → r.arg 17 1 ≤ 2 → 2 ≤ r.arg 18 1 → r.arg 18 1 ≤ 16 → own.fa = s.fabric.fa →
          l.eraseDups.length = l.length → (∀ x ∈ l, x.basin.toNat ≤ 31 ∧ reachable s x.fa = true) → (∀ i, i < r.arg 18 1 → r.arg (27 + 4 * i) 1 = 0) →
          s.fabric.gangs = [] → exists_ s own.basin.toNat = true → (s.basin own.basin.toNat).tenant = BitVec.ofNat 16 (r.arg 20 2) →
          AnsweredAfter (.gangForm r) cmdGangForm r s stAccepted [] (some s.ledger.head) (fun t => t.die = s.die ∧ t.store = s.store
            ∧ ∃ x, t.fabric.gangs = [x] ∧ x.num = num ∧ x.master = s.fabric.fa ∧ x.kind = byte (r.arg 17 1) ∧ x.members = l ∧ x.phase = .forming
              ∧ x.basin = own.basin.toNat ∧ x.origin.isSome = true))
      ∧ (Admitted cmdGangDissolve r s → r.arg 16 1 ≤ 15 → m = BitVec.ofNat 16 (r.arg 18 2) → m ≠ s.fabric.fa → findGang s m num = some g →
          g.phase = .halted → AnsweredAfter (.gangDissolve r) cmdGangDissolve r s stAccepted [] (some s.ledger.head) (fun t =>
            t.fabric.gangs = s.fabric.gangs.filter (fun x => x != g) ∧ t.ledger.head = s.ledger.head + 2 ∧ t.die = s.die)))

/-! ### Link ports (R151, R152, R371 to R397, R409 to R416) -/

/-- The link layer's rows. On a port that is UP: symbols that FEC corrected are counted on a C port; a damaged frame, or one of
the reserved kind, is counted and answered with one REPLAY, and so is one out of sequence, whose credits are not taken; until the
expected frame comes no other asks again; the header of an admitted write opens it, its data frames are written as they come, and
the last one completes it; a link control frame returns credits; REPLAY resends what is kept, with the credits it carried;
the timers resend and acknowledge; silence and a PHY error are link resets, recorded and counted; a STOP leaves the port
STOPPED. Training goes through its steps to the identity exchange, which brings the port UP, with its frames kept if the session
is the same, or refuses it; a failed attempt leaves it DOWN. A packet with a reserved type, too many hops or no route is discarded
with an entry, and the originator of a transfer is told; one for another chiplet goes on with one hop more as credits allow;
a combining record that times out is gone and both sources are told; LINK.RETRAIN disables, enables and retrains, joins a reset in
progress, and its end is recorded. A port that is not UP ignores what only an UP port takes. It rests on the model's choices in
logs 37, 60, 66, 93. -/
def Obligations.LinkRowsFollowTheProtocol : Prop :=
  ∀ (q : Fin 20) (raw : List Byte) (fec : Bool) (n : Nat) (f : Frame) (seq : BitVec 10) (lanes : W64) (i : Identity) (cause : Byte)
    (pkt : Packet) (us : W32) (s : State), s.fw.hand = none →
    let p := s.port q
    let now := s.time.elapsed
    let fixed := if q.val < 8 then p.corr else BitVec.ofNat 32 (satTo 32 (p.corr.toNat + n))
    let at_ := fun (t : State) (v : Port) => t.port q = v ∧ (∀ r : Nat, r ≠ q → t.port r = s.port r)
    let die := fun (t : State) => t.die = s.die ∧ t.store = s.store ∧ t.gateUnit = s.gateUnit
    let reset := fun (t : State) => at_ t { p with state := lnTraining, since := now, step := 1, resume := true, reset := true
                                                   retrains := up16 p.retrains, naks := 0, nakTimes := [] }
      ∧ t.ledger.head = s.ledger.head + 1 ∧ die t
    let row := Instr.frameReceive q raw fec n
    let bad := parseFrame raw = none ∨ fec = false ∧ 8 ≤ q.val
    let ok := parseFrame raw = some f ∧ (fec = true ∨ q.val < 8)
    let vc := f.vc.toNat
    let got := p.credits.set f.cvc.toNat (creditOf p f.cvc.toNat + f.ccnt.toNat)
    let taken := fun (v : Port) => { v with corr := fixed, credits := got, rxExp := p.rxExp + 1, naks := 0, ackDue := true, heard := p.heard + 1 }
    let hd := headerOf f.body
    let xh := xferHdr hd
    let k := poolOf vc (bit hd.hdr.flags.toNat 1)
    let asked := fun (v : Port) => Host.Outcome.next { s.setPort q { v with corr := fixed, naks := 1, nakTimes := [now], retry := up32' p.retry } with
      sent := s.sent ++ [.replay q p.rxExp] }
    let again := fun (e : SentFrame) => Sent.frame q (frameBytes { seq := e.seq, ack := p.rxExp, vc := BitVec.ofNat 2 e.vc, kind := e.kind
                                                                   cvc := e.cvc, ccnt := e.ccnt, body := e.body })
    let done := fun (x : XferHdr) (outcome grant : Byte) => packet s x.src 0 0
      (0x22 :: ([byte (gaWindow x.ga), outcome] ++ leBytes 2 x.xfer.toNat ++ [x.chan] ++ leBytes 2 x.index.toNat ++ [grant]))
    (portUp s q = true → Calm s →
      (bad → p.naks = 0 → p.nakTimes = [] → exec row s = asked { p with uncorr := up32' p.uncorr })
      ∧ (bad → 4 ≤ p.naks → p.reset = false → Completes row s (fun t => (t.port q).state = lnTraining ∧ (t.port q).uncorr = up32' p.uncorr
          ∧ (t.port q).retrains = up16 p.retrains ∧ (t.port q).credits = p.credits ∧ t.ledger.head = s.ledger.head + 1 ∧ die t))
      ∧ (ok → f.kind = 7 → p.naks = 0 → p.nakTimes = [] → exec row s = asked { p with uncorr := up32' p.uncorr })
      ∧ (ok → 1 ≤ f.kind.toNat → f.kind.toNat ≤ 5 → f.seq ≠ p.rxExp →
          (p.naks = 0 → p.nakTimes = [] → exec row s = asked p) ∧ (p.naks ≠ 0 → exec row s = .next (countFixed s q n)))
      ∧ (ok → f.kind = 0 → fieldAt f.body 0 1 = 0 → p.replay = [] → Completes row s (fun t => t = { s with links := t.links }
          ∧ at_ t { p with corr := fixed, credits := pools.map (fun j => got.getD j 0 + fieldAt f.body (1 + j) 1) }))
      ∧ (ok → f.kind = 6 → p.replay = [] → Completes row s (fun t =>
          (t.port q).state = lnStopped ∧ (t.port q).stopCause = byte (fieldAt f.body 0 1) ∧ (t.port q).replay = [] ∧ die t))
      ∧ (ok → f.seq = p.rxExp → p.replay = [] → p.heard < 63 →
          (f.kind = 1 → p.incoming = [] → hd.hdr.typ = 5 → hd.hdr.hops.toNat < 32 → hd.hdr.src ≠ 0xFFFF → hd.hdr.dst = s.fa → s.fa ≠ 0xFFFF →
            admission s xh .write = none → Completes row s (fun t =>
              at_ t { taken p with owed := p.owed.set k (p.owed.getD k 0 + 1), incoming := [(vc, ⟨k, .write xh (windowAddress s xh) 0 true⟩)] }
              ∧ t = { s with links := t.links, dma := (useCredit s xh).dma }))
          ∧ (∀ (l a j : Nat) (live : Bool) (x : XferHdr), p.incoming = [(vc, ⟨l, .write x a j live⟩)] → j < x.granules.toNat →
            let stored := if live then s.store.mem.write (a + 256 * j) (padTo 256 f.body) else s.store.mem
            (f.kind = 3 → Completes row s (fun t => t.store = { s.store with mem := stored }
              ∧ at_ t { taken p with owed := p.owed.set l (p.owed.getD l 0 + 1), incoming := [(vc, ⟨l, .write x a (if live then j + 1 else j) live⟩)] }
              ∧ t = { s with links := t.links, store := t.store }))
            ∧ (f.kind = 4 → Completes row s (fun t => t.store = { s.store with mem := stored } ∧ t.die = s.die ∧ (t.port q).incoming = []
              ∧ (Reaches s x.src → ∃ g, Sent.packet (done x (if live then 0 else dcRevoked) g) ∈ t.sent))))))
    ∧ (portUp s q = false → exec row s = .next s ∧ exec (.replay q seq) s = .next s ∧ exec (.replayResendTimer q) s = .next s
        ∧ exec (.ackTimer q) s = .next s ∧ exec (.linkSilence q) s = .next s ∧ exec (.packetHeaderArrival q pkt) s = .next s
        ∧ ∀ c, exec (.linkPhyError q c) s = .next s)
    ∧ (portUp s q = true → Completes (.replay q seq) s (fun t => t = { s with sent := t.sent }
        ∧ ∀ e ∈ p.replay, seqBefore e.seq seq = false → again e ∈ t.sent))
    ∧ (portUp s q = true → p.naks ≠ 0 → p.nakTimes = [] → exec (.replayResendTimer q) s = .next
        { s.setPort q { p with naks := p.naks + 1, nakTimes := [now], retry := up32' p.retry } with sent := s.sent ++ [.replay q p.rxExp] })
    ∧ (portUp s q = true → p.ackDue = true ∨ p.owed.any (· != 0) = true → exec (.ackTimer q) s = .next
        { s.setPort q { p with ackDue := false, heard := 0, owed := [0, 0, 0, 0, 0, 0] } with sent := s.sent ++ [.ack q p.rxExp p.owed] })
    ∧ (p.ackDue = false → p.owed.any (· != 0) = false → exec (.ackTimer q) s = .next s)
    ∧ (portUp s q = true → p.reset = false → Completes (.linkSilence q) s reset
        ∧ (q.val < 8 → Completes (.linkPhyError q .mainband) s reset ∧ exec (.linkPhyError q .fecOrAlignment) s = .next s)
        ∧ (8 ≤ q.val → Completes (.linkPhyError q .fecOrAlignment) s reset ∧ exec (.linkPhyError q .mainband) s = .next s)
        ∧ (linksLive s = true → Completes (.partnerTrainingDetected q) s reset))
    ∧ (portUp s q = true → Completes (.stopFrame q cause) s (fun t =>
        (t.port q).state = lnStopped ∧ (t.port q).stopCause = cause ∧ (t.port q).replay = [] ∧ die t))
    ∧ (p.state = lnDown → stopped s = true → exec (.stopFrame q cause) s
        = .next (s.setPort q { p with state := lnStopped, since := now, stopCause := cause }))
    ∧ (linksLive s = false → exec (.trainingStepComplete q lanes) s = .next s ∧ exec (.identityExchange q i) s = .next s
        ∧ exec (.partnerTrainingDetected q) s = .next s)
    ∧ (linksLive s = true → p.state = lnTraining → p.step < 3 → exec (.trainingStepComplete q lanes) s
        = .next (s.setPort q { p with step := p.step + 1, lanes := if q.val < 8 ∧ p.step = 2 then lanes else p.lanes }))
    ∧ (linksLive s = true → p.state = lnTraining → p.step = 3 → Completes (.trainingStepComplete q lanes) s (fun t =>
        at_ t { p with step := 4, owed := [0, 0, 0, 0, 0, 0], replay := p.replay.map (fun e => { e with ccnt := 0 }) }
        ∧ ∃ j : Identity, t.sent = s.sent ++ [.identity q j] ∧ j.part = 0xAB41 ∧ j.dieId = s.fuses.dieId ∧ j.slotId = s.boot.pins.slotId
          ∧ j.fa = s.fa ∧ j.port = byte q ∧ j.session = s.fabric.session ∧ j.expSeq = (if p.resume then p.rxExp else 0)
          ∧ ∀ j' < 6, grantOf j j' = freePlaces s q j'))
    ∧ (linksLive s = true → p.state = lnTraining → p.step = 4 → p.incoming = [] → Calm s →
        let up := fun (t : State) => (t.port q).state = lnUp ∧ (t.port q).partnerPort = i.port ∧ (t.port q).partnerFa = i.fa
          ∧ (t.port q).session = some i.session ∧ (t.port q).resume = false ∧ (t.port q).reset = false ∧ die t
        let fresh := fun (t : State) => (t.port q).sessionKept = false ∧ (t.port q).credits = pools.map (grantOf i)
          ∧ (t.port q).txSeq = 0 ∧ (t.port q).rxExp = 0 ∧ (t.port q).replay = []
        let refused := fun (t : State) (w : Nat) => (t.port q).state = lnDown ∧ (t.port q).refusal = w ∧ t.ledger.head = s.ledger.head + 2 ∧ die t
        let kind := i.port.toNat < 8 ↔ q.val < 8
        (i.part = 0xAB41 → kind → i.dieId ≠ s.fuses.dieId →
          (p.resume = false → Completes (.identityExchange q i) s (fun t => up t ∧ fresh t ∧ t.ledger = s.ledger))
          ∧ (p.resume = true → p.session ≠ some i.session → Completes (.identityExchange q i) s (fun t =>
              up t ∧ fresh t ∧ t.ledger.head = s.ledger.head + 1))
          ∧ (p.resume = true → p.session = some i.session → (∀ e ∈ p.replay, e.by_.chan = none) → Completes (.identityExchange q i) s (fun t =>
              up t ∧ (t.port q).sessionKept = true ∧ (t.port q).txSeq = p.txSeq ∧ (t.port q).rxExp = p.rxExp
              ∧ (t.port q).replay = p.replay.filter (fun e => !seqBefore e.seq i.expSeq) ∧ t.ledger = s.ledger
              ∧ ∀ e ∈ (t.port q).replay, again e ∈ t.sent)))
        ∧ (i.part ≠ 0xAB41 → Completes (.identityExchange q i) s (fun t => refused t 1))
        ∧ (i.part = 0xAB41 → ¬ kind → Completes (.identityExchange q i) s (fun t => refused t 2))
        ∧ (i.part = 0xAB41 → kind → i.dieId = s.fuses.dieId → Completes (.identityExchange q i) s (fun t => refused t 3)))
    ∧ (p.state = lnTraining → Completes (.trainingAttemptFail q) s (fun t => (t.port q).state = lnDown ∧ die t))
    ∧ (p.state ≠ lnTraining → exec (.trainingAttemptFail q) s = .next s)
    ∧ (linksLive s = true → p.state = lnDown ∨ p.state = lnMarked ∨ p.state = lnStopped → exec (.partnerTrainingDetected q) s
        = .next (s.setPort q { p with state := lnTraining, since := now, step := 1 }))
    ∧ (portUp s q = true → Calm s →
        let x := xferHdr pkt
        let on := { pkt with hdr := { pkt.hdr with hops := pkt.hdr.hops + 1 } }
        let lost := 31 ≤ pkt.hdr.hops.toNat ∨ reachable s pkt.hdr.dst = false
        let w := s.destEntry pkt.hdr.dst
        (11 ≤ pkt.hdr.typ.toNat → Completes (.packetHeaderArrival q pkt) s (fun t => t.ledger.head = s.ledger.head + 1 ∧ t.links = s.links ∧ die t))
        ∧ (pkt.hdr.src ≠ 0xFFFF → pkt.hdr.dst ≠ 0xFFFF → pkt.hdr.dst ≠ s.fa →
          (pkt.hdr.typ = 3 → lost → Completes (.packetHeaderArrival q pkt) s (fun t =>
              t.ledger.head = s.ledger.head + 1 ∧ t.links = s.links ∧ die t))
          ∧ (pkt.hdr.typ = 5 → lost → Reaches s pkt.hdr.src → pkt.hdr.src ≠ s.fa → Completes (.packetHeaderArrival q pkt) s (fun t => die t
              ∧ Sent.packet (packet s pkt.hdr.src 0 0 (0x22 :: ([byte (gaWindow x.ga), dcUnreachable] ++ leBytes 2 x.xfer.toNat ++ [x.chan]
                  ++ leBytes 2 x.index.toNat ++ [0]))) ∈ t.sent))
          ∧ (pkt.hdr.typ = 5 → ¬ lost → pkt.hdr.flags.getLsbD 0 = false → (∀ r : Fin 20, usable s r = false) → exec (.packetHeaderArrival q pkt) s
              = .next { s with fabric := { s.fabric with waiting := [{ vc := 2, pkt := on, arrival := some (q : Nat) }] } })
          ∧ (∀ r : Fin 20, pkt.hdr.typ = 3 → ¬ lost → escChoice s w = some (r : Nat) →
            let fl := leaveFlags s (some q) on r 0
            let place := poolOf 0 (bit fl.toNat 1)
            (creditOf (s.port r) place = 0 → exec (.packetHeaderArrival q pkt) s
              = .next (s.setPort r { s.port r with queue := [{ vc := 0, pkt := on, arrival := some (q : Nat), flags := fl }] }))
            ∧ (portUp s r = true → (s.port r).replay = [] → pkt.data = [] → creditOf (s.port r) place = 1 → Completes (.packetHeaderArrival q pkt) s (fun t =>
                (t.port r).queue = [] ∧ creditOf (t.port r) place = 0 ∧ die t
                ∧ ∃ g : Frame, Sent.frame r (frameBytes g) ∈ t.sent ∧ g.kind = 2 ∧ g.seq = (s.port r).txSeq ∧ g.vc = 0
                    ∧ g.body = padTo 256 (netHeader { on.hdr with flags := fl } ++ pkt.content))))))
    ∧ (∀ e, s.fabric.records.find? (fun r => r.num == us.toNat) = some e → Completes (.combineRecordTimeout us.toNat) s (fun t =>
        t.fabric.records = s.fabric.records.filter (fun r => r != e) ∧ t.die = s.die ∧ t.store = s.store
        ∧ ∀ x ∈ [e.fst, e.snd], Reaches s x.src → Sent.packet (packet s x.src 0 0 (0x22 :: ([byte e.window, dcLost] ++ leBytes 2 x.xfer.toNat
            ++ [x.chan] ++ leBytes 2 x.index.toNat ++ [0]))) ∈ t.sent))
    ∧ (s.fabric.records = [] → exec (.combineRecordTimeout us.toNat) s = .next s)
    ∧ (p.state = lnUp ∨ p.state = lnDown ∨ p.state = lnMarked → Completes (.linkRetrainComplete q us) s (fun t =>
        at_ t { p with retrain := [] } ∧ t.ledger.head = s.ledger.head + BitVec.ofNat 32 p.retrain.length ∧ die t))
    ∧ (p.state ≠ lnUp → p.state ≠ lnDown → p.state ≠ lnMarked → exec (.linkRetrainComplete q us) s = .next s)
    ∧ (∀ r, Admitted cmdLinkRetrain r s → r.arg 16 1 = (q : Nat) →
        let head := some s.ledger.head
        let own := originOf s cmdLinkRetrain r
        let trains := AnsweredAfter (.linkRetrain r) cmdLinkRetrain r s stAccepted [] head (fun t => t.die = s.die
          ∧ (t.port q).state = lnTraining ∧ (t.port q).step = 1 ∧ (t.port q).retrains = up16 p.retrains ∧ (t.port q).retrain = p.retrain ++ [own]
          ∧ t.ledger.head = s.ledger.head + 2)
        (r.arg 17 1 = 1 → p.state ≠ lnDisabled → AnsweredAfter (.linkRetrain r) cmdLinkRetrain r s stAccepted [] head (fun t =>
            (t.port q).state = lnDisabled ∧ (t.port q).retrain = [] ∧ t.die = s.die))
        ∧ (r.arg 17 1 = 2 → p.state ≠ lnDisabled → AnswersOnly (.linkRetrain r) cmdLinkRetrain r s stOk [])
        ∧ (r.arg 17 1 = 1 → p.state = lnDisabled → AnswersOnly (.linkRetrain r) cmdLinkRetrain r s stOk [])
        ∧ (r.arg 17 1 = 2 → p.state = lnDisabled → p.reset = false → trains)
        ∧ (r.arg 17 1 = 0 → p.state = lnDisabled → AnswersOnly (.linkRetrain r) cmdLinkRetrain r s stConflict [])
        ∧ (r.arg 17 1 = 0 → p.state ≠ lnDisabled → p.reset = false → trains)
        ∧ (r.arg 17 1 = 0 → p.state ≠ lnDisabled → p.reset = true → AnsweredAfter (.linkRetrain r) cmdLinkRetrain r s stAccepted [] head (fun t =>
            t.port q = { p with retrain := p.retrain ++ [own] } ∧ t.ledger.head = s.ledger.head + 2 ∧ t.die = s.die))
        ∧ (2 < r.arg 17 1 → AnswersOnly (.linkRetrain r) cmdLinkRetrain r s stBadArg []))

/-! ### Windows, transfers, reductions (R359 to R364, R423 to R445) -/

/-- The rows of transfers. An admitted write stores its granules where the window lies and nothing else, a refused one stores
nothing, and each is answered with its outcome; an admitted read sends the granules back, is answered when they have left, and changes
no memory; read data are written to the local range; an add packet joins the add writes, an add write opens its reduction, a
reduction of one write is added into its granule, one that times out leaves it as it was, and its contributors are answered.
Credits are granted to a request, returned by a release and taken back by a reclaim, those of packets that have come excepted;
a transfer sends on a grant, ends with its last outcome, fails with LOST at its limit, with UNREACHABLE if a chiplet on the way
discards its packet, and with REVOKED at a revocation, and is named by FULL and its timer; a stale revocation is ignored, and
action 0 only records. It rests on the model's choices in logs 20, 21, 24, 25, 91, 93. -/
def Obligations.TransfersReadWriteAndEnd : Prop :=
  ∀ (h : XferHdr) (data : List (List Byte)) (gr : Nat) (d : List Byte) (src : W16) (win n kind oc : Byte) (xf idx : W16) (ch : Fin 32)
    (num : W32) (mask : W64) (k : Nat) (x : Transfer) (s : State), s.fw.hand = none → s.dma.reads = [] →
    let w := s.window (gaWindow h.ga)
    let a := windowAddress s h
    let c : Nat := ch
    let cb := byte c
    let named := namedXfer s src win.toNat c xf = some x
    let quiet := fun (t : State) => t.store = s.store ∧ t.die = s.die
    let mine := x.suspended = false ∧ x.cause = 0
    let told := fun (t : State) (fa : W16) (wn o : Byte) (xn : W16) (cn : Byte) (i : W16) => Reaches s fa → ∃ g : Byte,
      Sent.packet (packet s fa 0 0 (0x22 :: ([wn, o] ++ leBytes 2 xn.toNat ++ [cn] ++ leBytes 2 i.toNat ++ [g]))) ∈ t.sent
    let done := fun (t : State) (x : XferHdr) (o : Byte) => told t x.src (byte (gaWindow x.ga)) o x.xfer x.chan x.index
    let ends := fun (cause : Byte) (i : Instr) => Completes i s (fun t =>
      (t.chan c).xfer = none ∧ (t.chan c).cause = cause ∧ (t.chan c).causeXfer = x.xfer ∧ t.store.mem = s.store.mem)
    let ga := addAddress s ⟨h, gr, d⟩
    (admission s h .write = none → Completes (.writePacket h data) s (fun t => done t h 0 ∧ t.die = s.die
        ∧ t.store = { s.store with mem := s.store.mem.write a (padTo (hdrBytes h) (data.flatMap (padTo 256))) }))
    ∧ (∀ e, admission s h .write = some e → Completes (.writePacket h data) s (fun t => quiet t ∧ done t h e))
    ∧ (admission s h .read = none → s.fa ≠ 0xFFFF → reachable s h.src = true →
        (firstBad s.mem a (hdrBytes h) = none → Completes (.readRequest h) s (fun t => quiet t ∧ Sent.packet (readData s h) ∈ t.sent
          ∧ (h.src = s.fa → done t h 0) ∧ (h.src ≠ s.fa → t.dma.reads = [(h, 0)] ∨ t.dma.reads = [] ∧ done t h 0)))
        ∧ (∀ e, firstBad s.mem a (hdrBytes h) = some e → h.src = s.fa → Completes (.readRequest h) s (fun t => done t h dcParity)))
    ∧ (∀ e, admission s h .read = some e → Completes (.readRequest h) s (fun t => quiet t ∧ done t h e))
    ∧ (admission s h .add = none → exec (.addPacket h data) s = .next { s with dma := { s.dma with adds := s.dma.adds
        ++ [{ hdr := h, left := (List.range (hdrBytes h / 256)).map (fun i => a + 256 * i) }] } })
    ∧ (∀ e, admission s h .add = some e → Completes (.addPacket h data) s (fun t => quiet t ∧ t.dma = s.dma ∧ done t h e))
    ∧ (w.state = .opened → (s.seg (segOf ga)).power = .on → s.store.found = [] → s.dma.reds = [] → s.dma.redWait = [] →
        (hdrRanks h).1 % 2 ^ h.level.toNat = 0 → (hdrRanks h).1 < h.count.toNat →
        let u := giveAdds s ga (broughtBy s ga h)
        (h.count.toNat > (hdrRanks h).2 - (hdrRanks h).1 → exec (.addWriteArrival h gr d) s = .next { u with dma := { u.dma with
            reds := [⟨ga, gaWindow h.ga, h.tag, h.addType.toNat, h.count.toNat,
              [⟨(hdrRanks h).1, (hdrRanks h).2, redElems h.addType.toNat d⟩]⟩] } })
        ∧ (h.count = 1 → firstBad s.mem ga 256 = none → Completes (.addWriteArrival h gr d) s (fun t =>
            t.store.mem = s.store.mem.write ga (redGranule h.addType.toNat (s.mem.read ga 256) (redElems h.addType.toNat d))
            ∧ t.dma.reds = [] ∧ t.die = s.die ∧ (s.dma.adds = [{ hdr := h, left := [ga] }] → t.dma.adds = [] ∧ done t h 0))))
    ∧ (∀ e, s.dma.reds = [e] → s.dma.redWait = [] → Completes (.reductionTimeout 0) s (fun t => quiet t ∧ t.dma.reds = []
        ∧ (s.dma.adds = [] → t.ledger.head = s.ledger.head + 1)
        ∧ ∀ p ∈ s.dma.adds, joinedEntry e p = true → p.left = [e.granule] → done t p.hdr 0x08))
    ∧ (s.dma.reds = [] → exec (.reductionTimeout k) s = .next s)
    ∧ ((s.window win.toNat).state = .opened → (s.window win.toNat).queue = [] → 1 ≤ (s.window win.toNat).credits →
        Completes (.creditReq src win kind 1 xf n) s (fun t =>
          (t.window win.toNat).queue = [⟨src, n, xf, 1, 0, 0⟩] ∧ quiet t ∧ ∀ j, j ≠ win.toNat → t.window j = s.window j))
    ∧ ((s.window win.toNat).state ≠ .opened → Completes (.creditReq src win kind idx xf n) s (fun t => quiet t ∧ t.dma = s.dma
        ∧ told t src win (if (s.window win.toNat).state = .closed then dcNoWindow else dcRevoked) xf n 0))
    ∧ ((s.window win.toNat).queue = [⟨src, cb, xf, n.toNat, k, 0⟩] → Completes (.creditRelease src win n xf cb) s (fun t =>
        (t.window win.toNat).queue = [] ∧ quiet t ∧ ∀ j, j ≠ win.toNat → t.window j = s.window j))
    ∧ ((s.window win.toNat).queue = [⟨src, cb, xf, n.toNat + 1, k, 1⟩] → Completes (.creditRelease src win n xf cb) s (fun t =>
        (t.window win.toNat).queue = [⟨src, cb, xf, 1, 0, 1⟩] ∧ quiet t ∧ ∀ j, j ≠ win.toNat → t.window j = s.window j))
    ∧ (∀ v : Fin 64, ((s.window v).queue = [⟨src, cb, xf, 1, 0, 0⟩] → Completes (.creditReclaim v src cb) s (fun t =>
          (t.window v).queue = [] ∧ (src, cb, dcExpired) ∈ (t.window v).ended ∧ quiet t))
        ∧ ((s.window v).queue = [⟨src, cb, xf, 1, 0, 1⟩] → exec (.creditReclaim v src cb) s = .next s))
    ∧ (namedXfer s src win.toNat c xf = none → exec (.creditGrant src win n xf cb) s = .next s ∧ exec (.full src win xf cb) s = .next s)
    ∧ (named → exec (.full src win xf cb) s = .next (s.setChan c { s.chan c with xfer := some { x with asked := false, full := true } }))
    ∧ (named → mine → Sound s → x.kind = 0 → x.pkts = [.todo] → x.credits = 0 → x.first = [] → x.held = [] → x.buffer = [] →
        (x.toRemote = false → Completes (.creditGrant src win 1 xf cb) s (fun t =>
          (t.chan c).xfer = some { x with pkts := [.sent], asked := false, full := false } ∧ t.store = s.store
          ∧ (Reaches s src → ∃ p : Packet, Sent.packet p ∈ t.sent ∧ p.hdr.typ = 7 ∧ p.hdr.dst = src ∧ p.content = xferContent x c 0)))
        ∧ (x.toRemote = true → Completes (.creditGrant src win 1 xf cb) s (fun t =>
          (t.chan c).xfer = some { x with pkts := [.sent], asked := false, full := false, held := [0], buffer := [(0, readPacket s.mem x 0)] }
          ∧ t.store = s.store ∧ (Reaches s src → ∃ p : Packet, Sent.packet p ∈ t.sent ∧ p.hdr.typ = 5 ∧ p.hdr.dst = src
            ∧ p.content = xferContent x c 0 ∧ p.data = chunks 256 (x.frames 0) (readPacket s.mem x 0)))))
    ∧ ((s.chan c).xfer = some x → x.xfer = xf → gaWindow x.ga = win.toNat → mine → x.pkts = [.sent] →
        (x.toRemote = true → gaFa x.ga = src ∨ x.kind ≠ 0 → s.store.found = [] → Completes (.packetDone src win 0 xf cb 0 0) s (fun t =>
          (t.chan c).xfer = none ∧ (t.chan c).cause = (s.chan c).cause ∧ t.store.mem = s.store.mem))
        ∧ (gaFa x.ga = src → oc ≠ 0 → ends oc (.packetDone src win oc xf cb 0 0))
        ∧ ends dcUnreachable (.packetDone src win dcUnreachable xf cb 0 0)
        ∧ ends dcLost (.lossLimit ch))
    ∧ (namedXfer s h.src (gaWindow h.ga) c h.xfer = some x → h.chan = cb → mine → x.toRemote = false → x.pkts = [.sent] → h.index = 0 →
        x.packets = 1 → Completes (.readData h data) s (fun t =>
          t.store.mem = s.store.mem.write x.laddr (padTo (x.bytesOf 0) (data.flatMap (padTo 256)))
          ∧ (t.chan c).xfer = some { x with pkts := [.dataIn] }))
    ∧ ((s.chan c).xfer = some x → mine → x.full = true → Completes (.fullRetryTimer ch) s (fun t =>
        (t.chan c).xfer = some { x with asked := true, full := false } ∧ quiet t))
    ∧ ((s.chan c).xfer = none → exec (.fullRetryTimer ch) s = .next s ∧ exec (.lossLimit ch) s = .next s)
    ∧ ((∃ e ∈ s.dma.lastRev.find? (fun e => e.1 == src.toNat), num.toNat ≤ e.2.toNat) → exec (.revocation src n oc num mask) s = .next s)
    ∧ (s.dma.lastRev.find? (fun e => e.1 == src.toNat) = none →
        Completes (.revocation src 0 oc num mask) s (fun t =>
          t.dma = { s.dma with lastRev := tput s.dma.lastRev src.toNat num } ∧ t.ledger.head = s.ledger.head + 1 ∧ quiet t)
        ∧ ((s.chan c).xfer = some x → mine → x.kind = 0 → x.pkts = [.todo] → gaFa x.ga = src → mask.getLsbD (gaWindow x.ga) = true →
          (∀ j, j ≠ c → (s.chan j).xfer = none) → ends dcRevoked (.revocation src 1 oc num mask)))
    ∧ (∀ r : Request, let b := r.arg 16 1
        let v := r.arg 17 1
        let ga : W64 := BitVec.ofNat 64 (r.arg 24 8)
        Admitted cmdDmaPost r s → Sound s → b ≤ 31 → v ≤ 31 → r.arg 18 1 ≤ 1 → r.arg 19 1 ≤ 127 → r.arg 20 4 % 256 = 0 → r.arg 32 4 % 256 = 0 →
        0 < r.arg 32 4 → r.arg 32 4 ≤ 0x4000000 → r.arg 20 4 + r.arg 32 4 ≤ Memory.size → settled s b = true →
        (s.basin b).rect.clusters.contains (v / 4) = true →
        (∀ j ∈ segsOf (r.arg 20 4) (r.arg 20 4 + r.arg 32 4), (s.seg j).owner = some b ∧ (s.seg j).power = .on ∧ (s.seg j).busy = false) →
        (s.chan v).xfer = none → reachable s (gaFa ga) = true → gaOffset ga % 256 = 0 → gaOffset ga + r.arg 32 4 ≤ 2 ^ 42 →
        AnsweredAfter (.dmaPost r) cmdDmaPost r s stAccepted [] (some s.ledger.head) (fun t => t.store = s.store ∧ t.die = s.die
          ∧ ∃ e, (t.chan v).xfer = some e ∧ e.basin = b ∧ e.ga = ga ∧ e.len = r.arg 32 4 ∧ e.laddr = r.arg 20 4 ∧ e.asked = true
            ∧ e.toRemote = (r.arg 18 1 == 0) ∧ e.xfer = (s.chan v).number + 1 ∧ ∀ q ∈ e.pkts, q = .todo))

/-! ### Gates across chiplets (R446 to R463) -/

/-- The rows of remote gate operations. An addition from another chiplet adds into the counter and sends the old value back;
an operation that must wait is registered, or, with the pool full, answered POOL_FULL; a gate that does not serve the tenant
answers UNREACHABLE. A result, a silence, an answer or POOL_FULL marks the issuer's operation and writes no register; a retry
sends it again; a withdrawal removes the waiter and takes its arrival back. The last arrival at a gang barrier releases it and
tells the waiters' chiplets at once. Probes ask for every lock held and every operation outstanding for more than 1 ms, and are
answered from what is held and waits here; a dead holder, a lease or the reachability limit makes the lock ORPHANED. It rests on
the model's choices in logs 41, 56, 92. -/
def Obligations.RemoteGatesFollowTheProtocol : Prop :=
  ∀ (src tenant life : W16) (op gate core : Byte) (sv word : W64) (session tag : W32) (g : Fin 128) (h : Holder) (o : GateOp) (s : State),
    let k := gate.toNat % 128
    let gt := s.gate k
    let row := Instr.remoteGateOperation src tenant op gate sv core life session tag
    let w : Waiter := { fa := src, core := core, life := life, session := session, tag := tag, op := op, sv := sv, tenant := tenant }
    let quiet := fun (t : State) => t.gateUnit = s.gateUnit ∧ t.store = s.store ∧ t.die = s.die
    let others := fun (j : Nat) (t : State) => (∀ i, i ≠ j → t.gate i = s.gate i) ∧ t.store = s.store ∧ t.die.cores = s.die.cores
    let answer := fun (x : W64) => packet s src tenant 4 (leBytes 4 tag.toNat ++ leBytes 8 x.toNat)
    let marked := fun (f : GateOp → GateOp) (t : State) => (∀ n, t.core n = { s.core n with gops := (s.core n).gops.map (fun q => if q.tag = tag then f q else q) })
      ∧ t.store = s.store ∧ t.gateUnit.gates = s.gateUnit.gates
    let served := gateServes s k none tenant = true
    let lock := fun (i : Nat) => (s.gate i).kind = .lock ∧ (s.gate i).holder = some h ∧ (s.gate i).waiters = []
    let orphaned := fun (i : Nat) => { s.gate i with holder := none, dead := some ⟨h.fa, h.core, h.epoch⟩ }
    (op = 0x00 → served → gt.kind = .counter → gt.waiters = [] → Completes row s (fun t =>
        t.gate k = { gt with value := BitVec.ofNat 64 ((gt.value.toNat + sv.toNat) % 2 ^ 63) } ∧ others k t
        ∧ (Reaches s src → Sends s t (answer gt.value))))
    ∧ (¬ served → Completes row s (fun t => quiet t ∧ (Reaches s src → Sends s t (answer unreachableWord))))
    ∧ (op = 0x02 → served → gt.kind = .lock → gt.holder = some h → remoteWaiters s < remotePool → Completes row s (fun t =>
        t.gate k = { gt with waiters := gt.waiters ++ [w] } ∧ others k t ∧ t.sent = s.sent))
    ∧ (op = 0x02 → served → gt.kind = .lock → gt.holder = some h → remotePool ≤ remoteWaiters s → Completes row s (fun t =>
        quiet t ∧ (Reaches s src → Sends s t (packet s src 0 0 (0x45 :: (leBytes 4 tag.toNat ++ [gate]))))))
    ∧ (∀ y : Gang, op = 0x06 → served → gt.kind = .barrier → gt.waiters = [] → barrierGang s k = some y → y.suspended = false →
        barrierParties gt.value = barrierArrived gt.value + 1 → remoteWaiters s < remotePool → src ≠ s.fa → Completes row s (fun t =>
          t.gate k = { gt with value := barrierValue (barrierParties gt.value) 0 (barrierGen gt.value + 1) } ∧ others k t
          ∧ t.sent = s.sent ++ [.gang src y.master y.num (.release (byte k) (edgeIn20 s))]))
    ∧ (remoteOp s tag = some o → o.fa = src → Completes (.gateResult src tag word) s (marked (fun q => { q with result := some word })))
    ∧ (remoteOp s tag = none → s.gateUnit.late = [] → exec (.gateResult src tag word) s = .next s)
    ∧ (remoteHeld s = [] → exec .holdProbeTimer s = .next s)
    ∧ (remoteHeld s = [(g : Nat)] → (s.gate g).holder = some h → Completes .holdProbeTimer s (fun t => quiet t
        ∧ (Reaches s h.fa → Sends s t (packet s h.fa 0 0 (0x40 :: ([byte g, h.core] ++ leBytes 2 h.life.toNat ++ leBytes 4 h.session.toNat))))))
    ∧ Completes (.holdProbe src gate core life session) s (fun t => quiet t ∧ (Reaches s src → Sends s t (packet s src 0 0
        [0x41, gate, if s.life core.toNat = life ∧ s.fabric.session = session then 1 else 0])))
    ∧ exec (.holdAnswer src gate true) s = .next s
    ∧ (lock k → h.fa = src → Completes (.holdAnswer src gate false) s (fun t => t.gate k = orphaned k ∧ others k t))
    ∧ (lock k → h.fa ≠ src → exec (.holdAnswer src gate false) s = .next s)
    ∧ (remoteOps s = [] → exec .waitProbeTimer s = .next s)
    ∧ (remoteOps s = [o] → probed s o = false → exec .waitProbeTimer s = .next s)
    ∧ (remoteOps s = [o] → probed s o = true → Completes .waitProbeTimer s (fun t => quiet t ∧ (Reaches s o.fa → Sends s t (packet s o.fa 0 0
        (0x42 :: (leBytes 4 o.tag.toNat ++ [byte o.gate.toNat]))))))
    ∧ Completes (.waitProbe src tag gate) s (fun t => quiet t ∧ (Reaches s src → Sends s t (packet s src 0 0 (0x43 :: (leBytes 4 tag.toNat
        ++ [if waits gt src tag then 1 else 0])))))
    ∧ exec (.waitAnswer src tag true) s = .next s
    ∧ (remoteOp s tag = some o → Completes (.waitSilenceTimeout tag) s (marked (fun q => { q with result := some unreachableWord })))
    ∧ (remoteOp s tag = none → exec (.waitSilenceTimeout tag) s = .next s)
    ∧ (remoteOp s tag = some o → o.fa = src →
        Completes (.waitAnswer src tag false) s (marked (fun q => { q with result := some unreachableWord })))
    ∧ Completes (.withdraw src tag gate) s (fun t => others k t ∧ waits (t.gate k) src tag = false
        ∧ (t.gate k).waiters = gt.waiters.filter (fun x => !(x.fa == src && x.tag == tag))
        ∧ (t.gate k).value = if waits gt src tag ∧ gt.kind = .barrier then
            barrierValue (barrierParties gt.value) (barrierArrived gt.value - 1) (barrierGen gt.value) else gt.value)
    ∧ (remoteOp s tag = some o → o.fa = src → o.gate.toNat = gate.toNat →
        Completes (.poolFull src tag gate) s (marked (fun q => { q with poolFull := true })))
    ∧ (remoteOp s tag = none → exec (.poolFull src tag gate) s = .next s ∧ exec (.poolFullRetry tag) s = .next s)
    ∧ (remoteOp s tag = some o → o.poolFull = true → Completes (.poolFullRetry tag) s (fun t => marked (fun q => { q with poolFull := false }) t
        ∧ (Reaches s o.fa → Sends s t (gatePacket s o.fa o.tenant o.op o.gate o.sv o.core o.life tag))))
    ∧ (lock g → (s.gate g).lease.isSome = true → s.fw.hand = none → Completes (.leaseExpiry g) s (fun t => t.gate g = orphaned g ∧ others g t
        ∧ t.ledger = (event s 0xE050 ([byte g, 1] ++ leBytes 2 h.fa.toNat ++ leBytes 4 h.epoch.toNat)).ledger))
    ∧ ((s.gate g).lease = none → exec (.leaseExpiry g) s = .next s)
    ∧ (lock g → h.fa ≠ s.fa → s.fw.hand = none → Completes (.reachabilityLimit g) s (fun t => t.gate g = orphaned g ∧ others g t
        ∧ t.ledger = (event s 0xE050 ([byte g, 2] ++ leBytes 2 h.fa.toNat ++ leBytes 4 h.epoch.toNat)).ledger))
    ∧ (lock g → h.fa = s.fa → exec (.reachabilityLimit g) s = .next s)

/-! ### Seizure (R170, R180, R480 to R482) -/

/-- The rows of a seizure go through their phases in order, each leaving every other phase alone: with nothing in memory in
flight the entries of the seized cores are gone and the basin's transfers stand suspended without credits; the flume fence waits
until the basin's channels have nothing open in the flume, and empties a port of the basin's packets that have not begun; the
fabric fence waits until what the basin's requesters put on the links is acknowledged; the commit captures the cores in their
records, revokes the windows, frees the rectangle or gives it to a recipient that still qualifies, and gives up where it does
not. WINDOW_CLOSE_DRAINED answers the WINDOW.CLOSE of its window once nothing is in flight within its credits. It rests on the model's choices in logs 47, 49, 54. -/
def Obligations.SeizureRowsGoThroughTheirPhases : Prop :=
  ∀ (z : Seizure) (w : Fin 64) (k : InService) (n : Nat) (s : State),
    let v := s.basin z.basin
    let busy := v.rect.nodes.any (fun m => (s.core m).sb.any inMemory) = true
    let at_ := fun (p : Nat) => s.seize = some z ∧ z.phase = p
    let next := fun (t : State) => t.seize = some { z with phase := z.phase + 1 }
    let mine := fun (o : OutPacket) => (o.origin s).isFor (channelsOf s z.basin) (opsOf s z.basin) = true ∧ o.begun = false ∧ o.abort = false
    let free := fun (t : State) => t.seize = none ∧ (t.basin z.basin).state = .seized ∧ (t.basin z.basin).former = v.rect ∧ (t.basin z.basin).rect = {}
      ∧ ∀ j : Fin 64, (s.window j).basin = z.basin → (s.window j).state = .opened → (t.window j).state = .revoked
    (s.seize = none → exec .seizureQuiesced s = .next s ∧ exec .flumeFenceDone s = .next s ∧ exec .fabricFenceDone s = .next s
      ∧ exec .seizureCommit s = .next s)
    ∧ (s.seize = some z → (z.phase ≠ 0 → exec .seizureQuiesced s = .next s) ∧ (z.phase ≠ 1 → exec .flumeFenceDone s = .next s)
      ∧ (z.phase ≠ 2 → exec .fabricFenceDone s = .next s) ∧ (z.phase ≠ 3 → exec .seizureCommit s = .next s))
    ∧ (at_ 0 → busy → exec .seizureQuiesced s = .next s)
    ∧ (at_ 0 → ¬ busy → Completes .seizureQuiesced s (fun t => next t ∧ t.store = s.store ∧ t.gateUnit = s.gateUnit
        ∧ (∀ m ∈ v.rect.nodes, (t.core m).sb = [])
        ∧ ∀ c : Fin 32, (t.chan c).xfer = (s.chan c).xfer.map (fun x => if x.basin = z.basin then { x with suspended := true, credits := 0 } else x)))
    ∧ (at_ 1 → (∃ c ∈ channelsOf s z.basin, flumeQuiet s c = false) → exec .flumeFenceDone s = .next s)
    ∧ (at_ 1 → (∀ c ∈ channelsOf s z.basin, flumeQuiet s c = true) → s.dma.reads = [] → (∀ o ∈ s.fabric.waiting, mine o) →
        Completes .flumeFenceDone s (fun t => next t ∧ t.store = s.store ∧ (opsOf s z.basin = [] → t.die = s.die) ∧ t.fabric.waiting = []
          ∧ ∀ q : Fin 20, (∀ o ∈ (s.port q).queue, mine o) → (t.port q).queue = []))
    ∧ (at_ 2 → fabricQuiet s z.basin = true → exec .fabricFenceDone s = .next { s with seize := some { z with phase := 3 } })
    ∧ (at_ 2 → fabricQuiet s z.basin = false → exec .fabricFenceDone s = .next s)
    ∧ (at_ 3 → z.recipient = none → Completes .seizureCommit s (fun t => free t ∧ ∀ m ∈ v.rect.nodes, (t.core m).run = .idle))
    ∧ (at_ 3 → z.recipient = none → v.rect.nodes = [n] → (∃ e, v.saved = [e] ∧ e.pos = v.rect.position n ∧ validCond e.cond = true) →
        goodNode s n = true → s.dma.windows = [] → s.dma.redWait = [] → Completes .seizureCommit s (fun t =>
          t.store.mem = s.store.mem.write (recordAddress v (v.rect.position n)) (coreRecord (s.core n) true n (v.rect.position n))))
    ∧ (∀ r, at_ 3 → z.recipient = some r → recipientOk s z.basin r = true → Completes .seizureCommit s (fun t =>
        free t ∧ (t.basin r).rect = (s.basin r).rect.union v.rect ∧ (z.start = false → ∀ m ∈ v.rect.nodes, (t.core m).run = .idle)))
    ∧ (∀ r, at_ 3 → z.recipient = some r → recipientOk s z.basin r = false → Sound s → Completes .seizureCommit s (fun t =>
        t.seize = none ∧ (t.basin z.basin).state = v.state ∧ (t.basin z.basin).rect = v.rect ∧ t.store = s.store))
    ∧ (windowBusy s w = true → exec (.windowCloseDrained w) s = .next s)
    ∧ (windowBusy s w = false → s.svc.normal = some k → k.waiting = true → k.cmd = 0x1203 → k.req.arg 16 1 = (w : Nat) →
        exec (.windowCloseDrained w) s = .next (respond { s with svc := { s.svc with normal := none } } k.cmd k.req stOk k.result k.ledger))
    ∧ ((∀ k', s.svc.normal = some k' → ¬ (k'.waiting = true ∧ k'.cmd = 0x1203 ∧ k'.req.arg 16 1 = (w : Nat))) →
        exec (.windowCloseDrained w) s = .next s)
    ∧ (∀ r : Request, let b := r.arg 16 1
        let x := s.basin b
        (Admitted cmdBasinSeize r s → b ≤ 31 → r.arg 17 1 = 0xFF → r.arg 18 1 ≤ 1 →
          seizable s b = true → (∀ m ∈ x.rect.nodes, (s.core m).v = []) →
          s.store.found = [] → Completes (.basinSeize r) s (fun t =>
          t.store = s.store ∧ (∀ m ∈ x.rect.nodes, (t.core m).run ≠ .running)
          ∧ ∃ y, t.seize = some y ∧ y.basin = b ∧ y.recipient = none ∧ y.start = bit (r.arg 18 1) 0 ∧ y.phase = 0))
        ∧ (Admitted cmdBasinRelease r s → b ≤ 31 → r.arg 17 1 = 0 → r.arg 18 1 = 0xFF → r.arg 19 1 = 0xFF → x.state = .seized →
            targetBad s x x.former = false → recordBad s x = none → x.savedVoid = false → x.rerunMark = false → x.load = none → Sound s →
            AnsweredAfter (.basinRelease r) cmdBasinRelease r s stOk [] (some s.ledger.head) (fun t => (t.basin b).state = .active
              ∧ (t.basin b).rect = x.former ∧ (t.basin b).saved = [] ∧ t.store = s.store
              ∧ ∀ j : Fin 64, (s.window j).basin = b → (s.window j).state = .revoked → (t.window j).state = .opened)))

/-! ### The work core's own events (R197 to R222, R237, R243, R276, R316) -/

/-- The events of a work core. A bundle that is not in the buffer is asked for, one outside the image or with a bad header
faults the core, any other is checked and issued, and an empty one only moves the program counter; a held split goes on. A
line arrives in the buffer, or faults the core. An entry that is done retires; a staging set fills; a strip ends with its
tiles; the first vector operation completes with what it writes; a gate result reaches its register; a refilled cache lets a
resumed core issue again. It rests on the model's choices in logs 9, 17. -/
def Obligations.CoreEventsEndWhatIsInFlight : Prop :=
  ∀ (n : Fin 64) (b l e id g : Nat) (i : Image) (h : HeldBundle) (tag : W32) (o : GateOp) (word : W64) (tl : BitVec 2) (a : W32)
    (rg : BitVec 4) (f : FmtV) (qd : BitVec 2) (ds : BitVec 4) (kind : BitVec 3) (float : Bool) (s : State),
    let c := s.core n
    let raw := i.bundle c.pc.toNat
    let alone := basinOf s n = some b ∧ (s.basin b).lattice = false
    let image := Ready s n b ∧ storeImage s n = some i
    let there := image ∧ c.pc.toNat < i.bundles ∧ c.ibuf.contains (c.pc.toNat / 16) = true
    let faulted := fun (cause : Byte) (t : State) => (t.core n).run = .faulted ∧ t.store = s.store
      ∧ (t.core n).fault = some ⟨cause, 0, 0x02, c.pc, 0, BitVec.ofNat 32 s.time.count.toNat⟩
    let line := c.miss.orElse (fun _ => c.fetching.head?) = some l
    let settled := s.mem.flips = [] ∧ s.store.found = []
    let runs := c.run ≠ .halted ∧ settled
    let holds := fun (k : VKind) => c.v = [⟨id, k, g⟩]
    let refilled : Core := { c with refill := false, cache := c.csrc.foldl (fun t x => tput t x.1 (s.mem.read x.2.toNat 4096)) c.cache }
    let done := fun (t : State) => (t.core n).v = [] ∧ (t.core n).s = c.s ∧ (t.core n).pc = c.pc ∧ (∀ m, m ≠ (n : Nat) → t.core m = s.core m)
    let vec := Instr.vectorOpComplete n
    (Ready s n b → storeImage s n = none → Completes (.bundleIssue n) s (faulted 0x01))
    ∧ (image → i.bundles ≤ c.pc.toNat → Completes (.bundleIssue n) s (faulted 0x01))
    ∧ (image → c.pc.toNat < i.bundles → c.ibuf.contains (c.pc.toNat / 16) = false →
        exec (.bundleIssue n) s = .next (s.setCore n (countStall .fetch { c with miss := some (c.pc.toNat / 16) })))
    ∧ (there → headerOk raw = false → Completes (.bundleIssue n) s (faulted 0x02))
    ∧ (there → headerOk raw = true → c.strip = none →
        exec (.bundleIssue n) s = .next (issueBundle (s.setCore n (fetchAhead i c.pc.toNat c)) n [(n : Nat)] raw))
    ∧ (there → headerOk raw = true → c.strip = none → validSlots raw = [] →
        exec (.bundleIssue n) s = .next (s.setCore n (fetchAhead i c.pc.toNat c).stepped))
    ∧ (mayIssue s n = true → alone → c.held = some h → storeImage s n = none → Completes (.bundleSplitResume n) s (faulted 0x01))
    ∧ (mayIssue s n = true → alone → c.held = some h → storeImage s n = some i →
        exec (.bundleSplitResume n) s = .next (issueParts s n [(n : Nat)] c.pc (decodeBundle h.raw) h.issued))
    ∧ (c.held = none → exec (.bundleSplitResume n) s = .next s)
    ∧ (line → badLine s n l = false → exec (.ifetchMissFill n true) s = .next (s.setCore n { c with
        miss := if c.miss = some l then none else c.miss, fetching := c.fetching.filter (· != l), ibuf := (l :: c.ibuf.filter (· != l)).take 168 }))
    ∧ (line → alone → Completes (.ifetchMissFill n false) s (faulted 0x14))
    ∧ (∀ x, c.sb[e]? = some x → x.use = .done → exec (.scoreboardRetire n e) s = .next (s.setCore n { c with sb := c.sb.eraseIdx e }))
    ∧ (∀ x, c.sb[e]? = some x → x.use ≠ .done → exec (.scoreboardRetire n e) s = .next s)
    ∧ (alone → c.run = .running → storeImage s n = some i → c.held = none → c.staged = [] → stagesOf s n n c.pc raw c.capture c.capture ≠ [] →
        stagingConflict s n [(n : Nat)] c.pc (decodeSlot raw slotM) ((decodeBundle raw).filter (fun j => decide (j.slot < slotM))) = false →
        settled → exec (.stripStagingComplete n) s = .next (s.setCore n { c with staged := [⟨c.pc, BitVec.ofNat 48 (slotBits raw slotM),
          some ((stagesOf s n n c.pc raw c.capture c.capture).map (fun x => s.mem.read x.1 x.2))⟩] }))
    ∧ (alone → ∀ out, c.strip = some ⟨[(tl.toNat, out)], true, false⟩ → Completes (.stripEnd n) s (fun t => t.store = s.store
        ∧ (t.core n).strip = none ∧ (t.core n).tile tl.toNat = out ∧ bit (t.core n).tileInt.toNat tl.toNat = true
        ∧ bit (t.core n).tilePair.toNat tl.toNat = false ∧ ∀ m, m ≠ tl.toNat → (t.core n).tile m = c.tile m))
    ∧ (runs → c.v = [] → exec vec s = .next s)
    ∧ (runs → holds (.clear tl) → Completes vec s (fun t => done t ∧ t.store = s.store ∧ (t.core n).tile tl.toNat = []))
    ∧ (runs → holds (.load tl a) → Completes vec s (fun t => done t ∧ t.store = s.store
        ∧ (t.core n).tile tl.toNat = tileOfBytes (s.mem.read a.toNat 4096)))
    ∧ (runs → holds (.fill rg a) → Completes vec s (fun t => done t ∧ t.store = s.store
        ∧ tget [] (t.core n).cache rg.toNat = s.mem.read a.toNat 4096 ∧ tget 0 (t.core n).csrc rg.toNat = a))
    ∧ (runs → holds (.red qd ds kind float) → kind ≠ 5 → Completes vec s (fun t => done t ∧ t.store = s.store
        ∧ bit (t.core n).qPend.toNat qd.toNat = false
        ∧ (t.core n).getQ qd.toNat = (reduceValue kind.toNat float (dElem (tget 0 c.d ds.toNat)) (reduceElems s.mem (tget 0 c.d ds.toNat))).1))
    ∧ (runs → holds (.red qd ds 5 float) → Completes vec s (fun t => done t ∧ t.store = s.store
        ∧ (t.core n).getQ qd.toNat = (dFlags (tget 0 c.d ds.toNat)).setWidth 64 ∧ dFlags (tget 0 (t.core n).d ds.toNat) = 0))
    ∧ (runs → holds (.bath f) →
        let dd := tget 0 c.d f.dd.toNat
        let x := bathElems none (kldWord c n f) (bathOf c n f) dd ((vSources f).map (fun d => tget 0 c.d d)) (dCount dd - 64 * g) (64 * g) s.mem 0
        Completes vec s (fun t => done t ∧ t.store.mem = x.1 ∧ tget 0 (t.core n).d f.dd.toNat = dSet (addFlags dd x.2) 84 83 0))
    ∧ (runs → ∀ t pair seq, holds (.pop f t pair seq) →
        let dd := tget 0 c.d f.dd.toNat
        let x := bathElems (some (tileSource c t pair)) (kldWord c n f) (bathOf c n f) dd ((vSources f).map (fun d => tget 0 c.d d))
          (dCount dd - 64 * g) (64 * g) s.mem 0
        Completes vec s (fun u => done u ∧ u.store.mem = x.1 ∧ (u.core n).tokens = dropToken t seq c.tokens
          ∧ tget 0 (u.core n).d f.dd.toNat = dSet (addFlags dd x.2) 84 83 0))
    ∧ (c.gops.find? (fun q => q.tag == tag) = some o → (∀ e, o.due = some e → s.time.count.toNat < e.toNat → exec (.gateResultWrite n tag) s = .next (s.setCore n c)))
    ∧ (c.gops.find? (fun q => q.tag == tag) = some o → (∀ e, o.due = some e → e.toNat ≤ s.time.count.toNat) → o.result = some word → exec (.gateResultWrite n tag) s =
        .next (s.setCore n { c.setS o.sd.toNat word with
          gops := c.gops.filter (fun q => q.tag != tag), held := c.held.map (fun h => { h with snap := h.snap.resolve o.sd.toNat word }) }))
    ∧ (c.gops.find? (fun q => q.tag == tag) = some o → o.result = none → exec (.gateResultWrite n tag) s = .next (s.setCore n c))
    ∧ (c.refill = true → settled → exec (.operandCacheRefilled n) s = .next (s.setCore n (if c.run = .running then resumeV refilled else refilled)))
    ∧ (c.refill = false → exec (.operandCacheRefilled n) s = .next s)

/-! ### The slots of a bundle (R193 to R247) -/

/-- Every slot row on a ready core, in the order of the checks: a reserved encoding or predicate field faults the core with
BAD_ENCODING; a false predicate only moves the program counter; a failing address check faults the core with its cause and
address; what holds the operation is counted as one stall and nothing else changes; else its entries are taken, its effect
happens, and the bundle ends. It rests on the model's choices in logs 8, 16. -/
def Obligations.SlotRowsAreCheckedHeldOrIssued : Prop :=
  ∀ (i : Instr) (n k b : Nat) (p : Pred) (op : Op) (s : State), slotRow i = some (n, k, p, op) → Ready s n b →
    let c := s.core n
    let v := c.capture
    let x := ctxOf s n n k v c.pc
    let u := s.setCore n { c with held := some { raw := 0, snap := v } }
    let legal := predBad p = false ∧ op.bad x s = false
    let faults := fun (cause : Byte) (addr : W32) => exec i s = .next (faultBundle s [n] c.pc [(n, ⟨cause, k, addr⟩)])
    (¬ legal → faults 0x02 0)
    ∧ (legal → v.pred p = false → exec i s = .next (s.setCore n c.stepped))
    ∧ (legal → v.pred p = true → ∀ e, addressFault s x op = some e → faults e.1 e.2)
    ∧ (legal → v.pred p = true → addressFault s x op = none → ∀ h, slotHold u x op = some h → exec i s = .next (s.setCore n (countStall h c)))
    ∧ (legal → v.pred p = true → addressFault s x op = none → slotHold u x op = none →
        exec i s = .next (settleReads (finishBundle (issueSlot u x op) n [n])))

/-- The rows of S0 and S1 with a true predicate on a ready core: each writes its result and moves the program counter, and
changes no other register, no memory and no other core. The integer rows narrow the exact result to the width and extend it by
SGN, with s0 reading 0 and discarding; a narrow access needs an aligned address in segments that are owned and ON. It rests on
the model's choices in logs 8, 14, 15. -/
def Obligations.ScalarRowsWriteTheirResults : Prop :=
  ∀ (n : Fin 64) (b : Nat) (sl : Side) (p : Pred) (f : FmtR) (fi : FmtI) (fc : FmtC) (fci : FmtCI) (fl : FmtL) (fb : FmtB) (fq : FmtQ)
    (rd ra rb : BitVec 5) (ps pd pa pb : BitVec 3) (rnd q : BitVec 2) (kind : BitVec 3) (inv half likely : Bool) (ad d : BitVec 4) (s : State),
    Ready s n b → predBad p = false → (s.core n).capture.pred p = true →
    let c := s.core n
    let S := fun (r : BitVec 5) => (c.getS r.toNat).toNat
    let P := fun (r : BitVec 3) => c.capture.getP r.toNat
    let put := fun (i : Instr) (r : BitVec 5) (v : Nat) => Steps i s n (fun c => c.setS r.toNat (BitVec.ofNat 64 v))
    let putP := fun (i : Instr) (r : BitVec 3) (v : Bool) => Steps i s n (fun c => c.setP r.toNat v)
    let jump := fun (i : Instr) (c' : Core) (t : BitVec 14) => exec i s = .next (s.setCore n (c'.steppedTo t))
    let w := widthOf f.w
    let A := operand w f.sgn (S f.ra)
    let B := operand w f.sgn (S f.rb)
    let sh := S f.rb % 256
    let turn := sh % w
    let X := fun (v : Nat) => extend 64 w f.sgn v
    let N := fun (v : Int) => X (narrow w f.sgn f.sat v).1
    let lsb := bits (S f.rb) 5 0
    let len := fieldLen lsb (bits (S f.rb) 13 8)
    let fa := S f.ra % 2 ^ 32
    let fbv := S f.rb % 2 ^ 32
    let flt := f.w = 2 ∧ f.sgn = false
    let a := (narrowAddr c.capture fl).toNat
    let ok := a % 8 = 0 ∧ Accessible s b a 8
    let entry := fun (wr : Bool) => [(⟨a / 256 * 256, (a + 263) / 256 * 256, wr, .done⟩ : SbEntry)]
    put (.add n sl p f) f.rd (N (A + B)) ∧ put (.sub n sl p f) f.rd (N (A - B)) ∧ put (.mul n sl p f) f.rd (N (A * B))
    ∧ (f.sat = false → put (.mulh n sl p f) f.rd (X (low w (A * B / (2 ^ w : Int)))))
    ∧ (B ≠ 0 → put (.div n sl p f) f.rd (N (A.tdiv B)))
    ∧ (B = 0 → put (.div n sl p f) f.rd (X (if f.sgn ∧ f.sat then low w (if A < 0 then intMin w f.sgn else intMax w f.sgn) else 2 ^ w - 1)))
    ∧ (f.sat = false → put (.rem n sl p f) f.rd (X (low w (if B = 0 then A else A.tmod B))))
    ∧ (f.rb = 0 → put (.neg n sl p f) f.rd (N (-A)))
    ∧ (f.sat = false → put (.min n sl p f) f.rd (X (low w (Min.min A B))) ∧ put (.max n sl p f) f.rd (X (low w (Max.max A B)))
        ∧ put (.and n sl p f) f.rd (X ((S f.ra &&& S f.rb) % 2 ^ w)) ∧ put (.or n sl p f) f.rd (X ((S f.ra ||| S f.rb) % 2 ^ w))
        ∧ put (.xor n sl p f) f.rd (X ((S f.ra ^^^ S f.rb) % 2 ^ w))
        ∧ put (.shr n sl p f) f.rd (X (S f.ra % 2 ^ w / 2 ^ sh)) ∧ put (.sar n sl p f) f.rd (X (low w (signed w (S f.ra) / (2 ^ sh : Int))))
        ∧ put (.rol n sl p f) f.rd (X ((S f.ra % 2 ^ w * 2 ^ turn + S f.ra % 2 ^ w / 2 ^ (w - turn)) % 2 ^ w))
        ∧ put (.ror n sl p f) f.rd (X ((S f.ra % 2 ^ w / 2 ^ turn + S f.ra % 2 ^ w * 2 ^ (w - turn)) % 2 ^ w))
        ∧ put (.clz n sl p f) f.rd (X (leadZeros w (S f.ra))) ∧ (f.rb = 0 → put (.popc n sl p f) f.rd (X (popCount w (S f.ra)))))
    ∧ put (.shl n sl p f) f.rd (N (A * (2 ^ sh : Int)))
    ∧ (f.sat = false → f.w = 3 → put (.ext n sl p f) f.rd (extend 64 len f.sgn (S f.ra / 2 ^ lsb))
        ∧ put (.ins n sl p f) f.rd (S f.rd - bits (S f.rd) (lsb + len - 1) lsb * 2 ^ lsb + S f.ra % 2 ^ len * 2 ^ lsb))
    ∧ put (.addi n sl p fi) fi.rd (narrow 64 true fi.sat (signed 64 (S fi.ra) + signed 25 fi.imm.toNat)).1
    ∧ (fi.sat = false → put (.lic n sl p fi) fi.rd (S fi.ra * 2 ^ 25 % 2 ^ 64 + fi.imm.toNat)
        ∧ (fi.ra = 0 → put (.li n sl p fi) fi.rd (low 64 (signed 25 fi.imm.toNat))))
    ∧ (fc.sgn = false → putP (.cmp n sl p fc) fc.pd (intCond fc.cond.toNat (widthOf fc.w) (S fc.ra) (S fc.rb)))
    ∧ putP (.cmpi n sl p fci) fci.pd (intCond fci.cond.toNat 64 (S fci.ra) (low 64 (signed 25 fci.imm.toNat)))
    ∧ (fc.cond.toNat ≤ 5 → putP (.chk n sl p fc) fc.pd (chkCond fc.cond.toNat (widthOf fc.w) fc.sgn (S fc.ra) (S fc.rb)))
    ∧ (fc.w = 2 → fc.sgn = false → putP (.fcmp n sl p fc) fc.pd (FFmt.fp32.cond fc.cond.toNat (S fc.ra % 2 ^ 32) (S fc.rb % 2 ^ 32)).1)
    ∧ putP (.plog n sl p pd pa pb 0 inv) pd ((P pa && P pb) != inv) ∧ putP (.plog n sl p pd pa pb 1 inv) pd ((P pa || P pb) != inv)
    ∧ putP (.plog n sl p pd pa pb 2 inv) pd ((P pa != P pb) != inv) ∧ putP (.plog n sl p pd pa pb 3 inv) pd ((P pa && !P pb) != inv)
    ∧ put (.sel n sl p rd ra rb ps) rd (if P ps then S ra else S rb)
    ∧ (flt → put (.fadd n sl p f) f.rd (fAdd .fp32 0 f.sat fa fbv).1 ∧ put (.fsub n sl p f) f.rd (fSub .fp32 0 f.sat fa fbv).1
        ∧ put (.fmul n sl p f) f.rd (fMul .fp32 0 f.sat fa fbv).1 ∧ put (.fma n sl p f) f.rd (fFma .fp32 0 f.sat fa fbv (S f.rd % 2 ^ 32)).1
        ∧ (f.sat = false → put (.fmin n sl p f) f.rd (FFmt.fp32.extremum false fa fbv).1 ∧ put (.fmax n sl p f) f.rd (FFmt.fp32.extremum true fa fbv).1)
        ∧ (f.rb = 0 → put (.frsq n sl p f) f.rd (fRsqrt .fp32 0 f.sat fa).1))
    ∧ put (.cvt n sl p rd ra kind rnd) rd (cvtValue kind.toNat rnd.toNat (S ra))
    ∧ (ok → firstBad s.mem a 8 = none → Steps (.ld n sl p fl) s n (fun c => { c.setS fl.r.toNat (BitVec.ofNat 64 (leNat (s.mem.read a 8))) with sb := entry false }))
    ∧ (ok → exec (.st n sl p fl) s = .next ((s.write a (leBytes 8 (S fl.r))).setCore n ({ c with sb := entry true } : Core).stepped))
    ∧ Steps (.mova n sl p ad ra) s n (fun c => c.setA ad.toNat (BitVec.ofNat 32 (S ra)))
    ∧ (q ≠ 3 → Steps (.rdq n sl p rd q) s n (fun c => c.setS rd.toNat (c.getQ q.toNat)))
    ∧ Steps (.dset n sl p d half ra) s n (fun c => c.setD d.toNat (
        if half then BitVec.ofNat 128 (bits (tget 0 c.d d.toNat).toNat 63 0 + bits (S ra) 12 0 * 2 ^ 64)
        else BitVec.ofNat 128 (bits (tget 0 c.d d.toNat).toNat 127 64 * 2 ^ 64 + S ra)))
    ∧ (f.sat = false → f.ra = 0 → f.rb = 0 → Steps (.whoami n sl p f) s n (fun c => c.setS f.rd.toNat (identity s n))
        ∧ Steps (.rdturn n sl p f) s n (fun c => c.setS f.rd.toNat s.time.count))
    ∧ (sl = .zero → (fb.link = 0 → jump (.br n sl p fb) c fb.target)
        ∧ jump (.bl n sl p fb) (c.setS fb.link.toNat ((c.pc + 1).setWidth 64)) fb.target ∧ jump (.jr n sl p ra likely) c (BitVec.ofNat 14 (S ra))
        ∧ (fq.q ≠ 3 → brqTaken fq.typ fq.cond.toNat (c.getQ fq.q.toNat) (c.getS fq.rb.toNat) = true → jump (.brq n sl p fq) c fq.target)
        ∧ (fq.q ≠ 3 → brqTaken fq.typ fq.cond.toNat (c.getQ fq.q.toNat) (c.getS fq.rb.toNat) = false → Steps (.brq n sl p fq) s n (fun c => c)))

/-- The rows of the A, M, V, D and H slots with a true predicate on a ready core. An address row writes its register or
predicate. A strip begins with the panels that it reads, at once where the headgate does not withhold, and on every core of a
lattice; a store writes a tile, a token is pushed. A vector operation takes the engine's first place, its anchor held. A gate
operation of this chiplet changes its gate and has its result outstanding, one of another kind or basin fails with its word,
and one of another chiplet sends a packet; a fill or a copy enters its slices' queues, and a post starts its channel. A loop
level is set, a forecast, a phase, a line and an edge are recorded, and end leaves the core idle with a new life. It rests on
the model's choices in logs 8, 9, 18, 26. -/
def Obligations.OtherSlotRowsTakeEffect : Prop :=
  ∀ (n : Fin 64) (b : Nat) (sl : Side) (p : Pred) (ms : FmtMS) (mb : FmtMB) (mt : FmtMT) (fv : FmtV) (fg : FmtG) (m : MFmt) (tok : Token)
    (ad aa : BitVec 4) (rb r2 r3 : BitVec 5) (sh pd kind : BitVec 3) (lg : BitVec 5) (imm : W32) (stride : BitVec 23) (i28 : BitVec 28)
    (i25 : BitVec 25) (tl qd ch : BitVec 2) (typ level dir : Bool) (g7 : BitVec 7) (stop : BitVec 14) (count : BitVec 7) (lead : Byte)
    (dur : BitVec 12) (ln : BitVec 10) (hd : Holder) (dw : DeadOwner) (ns : List Nat) (s : State), predBad p = false → (s.core n).capture.pred p = true →
    let c := s.core n
    let S := fun (r : BitVec 5) => c.getS r.toNat
    let R := fun (a : BitVec 4) => tget 0 c.a a.toNat
    let putA := fun (i : Instr) (v : W32) => Steps i s n (fun c => c.setA ad.toNat v)
    let x := ctxOf s n n slotM c.capture c.pc
    let clear := fun (l : List RangeReq) => ∀ q ∈ l, rangeFault s n q = none
    let whole := fun (os : List Operand) => ∀ q ∈ operandStage os, firstBad s.mem q.1 q.2 = none
    let sbOf := fun (l : List RangeReq) (u : EntryUse) => l.map (fun q => q.entry u)
    let idle := c.strip = none ∧ c.tokens = [] ∧ withheld s n = false
    let os := msOperands x ms m
    let begins := fun (i : Instr) (fmt : Nat) (out : List (Nat × Tile)) (isInt pair : Bool) =>
      Steps i s n (fun c => { c with strip := some ⟨out, isInt, pair⟩, lastFmt := some fmt })
    let holdsAnchor := fun (d : BitVec 4) (cls ops : Nat) => tput c.d d.toNat
      (dSet (dSet (dSet (dSet (tget 0 c.d d.toNat) 84 83 1) 98 85 0) 100 99 cls) 127 101 ops)
    let takes := fun (i : Instr) (c' : Core) (l : List RangeReq) (k : VKind) =>
      exec i s = .next (s.setCore n { c'.stepped with v := [{ id := c.vNext, kind := k }], vNext := c.vNext + 1, sb := sbOf l (.vector c.vNext) })
    let streams := (vSources fv).map (fun d => streamRange c.capture d false) ++ [streamRange c.capture fv.dd.toNat true]
    let types := (fv.dd.toNat :: vSources fv).any (typeBad c.capture) = false
    let k := s.gate fg.gate.toNat
    let here := fg.rem = false ∧ fg.sf = 0 ∧ gateServes s fg.gate.toNat (some b) (s.basin b).tenant = true ∧ k.waiters = []
    let gives := fun (i : Instr) (k' : Gate) (w : W64) => Completes i s (fun t => GateIssued s t n fg k' (some w))
    let waits := fun (i : Instr) (k' : Gate) => ∃ t q, exec i s = .next t ∧ GateIssued s t n fg { k' with waiters := [q] } none
    let me := byte (s.logical n)
    let grants := fun (i : Instr) => Completes i s (fun t => ∃ q : Waiter, q.fa = s.fa ∧ q.core = me ∧ q.life = s.life (s.logical n)
      ∧ GateIssued s t n fg (grantLock s.time.count k q).1 (some (grantLock s.time.count k q).2))
    let mine := k.holder = some hd ∧ hd.fa = s.fa ∧ hd.core = me ∧ hd.life = s.life (s.logical n)
    let parties := barrierParties k.value
    let arrived := barrierArrived k.value
    let len := (S r2).toNat
    let dst := (R ad).toNat
    let span := fun (a : BitVec 4) (wr : Bool) => wideRange (R a) len wr
    let post := Instr.dpost n p ad r3 r2 ch dir g7
    let lanes := clear [span ad dir] ∧ lengthBad len = false
    let chan := 4 * clusterOf n + ch.toNat
    let loops := fun (i : Instr) (v : W32) => exec i s = .next (s.setCore n (
      let l : LoopReg := ⟨v, c.pc + 1, stop⟩
      let c1 := c.steppedTo (if v = 0 then stop + 1 else c.pc + 1)
      if level then { c1 with lc1 := l } else { c1 with lc0 := l }))
    (∀ nb, LatticeReady s n nb ns → msFormat ms [0, 1, 2, 3, 4, 5, 6] = some m →
        (∀ j ∈ ns, (s.core j).strip = none ∧ (s.core j).tokens = [] ∧ withheld s j = false
          ∧ ∀ q ∈ operandStage (latOperands s (ctxOf s n j slotM (s.core j).capture c.pc) ms m), firstBad s.mem q.1 q.2 = none) →
        (∀ j ∈ ns, ∀ q ∈ operandRanges (latOperands s (ctxOf s n j slotM (s.core j).capture c.pc) ms m), rangeFault s j q = none) →
        Completes (.mlat n p ms) s (fun t => t.store = s.store ∧ (t.core n).pc = c.pc + 1 ∧ ∀ j ∈ ns,
          let z := ctxOf s n j slotM (s.core j).capture c.pc
          (t.core j).strip = some ⟨[(ms.td.toNat, strip m (stripK ms.kc) ms.acc ms.sat ((s.core j).tile ms.td.toNat)
            (latPanel s z ms m false) (latPanel s z ms m true))], m.isInt, false⟩))
    ∧ (Ready s n b →
      putA (.ali n sl p ad imm) imm
      ∧ putA (.aaddi n sl p ad aa i28) (R aa + BitVec.ofInt 32 (signed 28 i28.toNat))
      ∧ putA (.aadd n sl p ad aa rb sh) (R aa + ((S rb).setWidth 32 <<< sh.toNat))
      ∧ (8 ≤ lg.toNat → lg.toNat ≤ 29 → putA (.acirc n sl p ad aa lg stride)
          (R aa + BitVec.ofNat 32 ((R ad - R aa + BitVec.ofInt 32 (signed 23 stride.toNat)).toNat % 2 ^ lg.toNat)))
      ∧ Steps (.abnd n sl p pd ad aa i25) s n (fun c => c.setP pd.toNat ((R ad).toNat + i25.toNat ≤ (R aa).toNat))
      ∧ putA (.aand n sl p ad aa i28) (R aa &&& (0xF0000000#32 ||| i28.setWidth 32))
      ∧ Steps (.ards n sl p rb aa) s n (fun c => c.setS rb.toNat ((R aa).setWidth 64))
      ∧ (idle → clear (operandRanges os) → whole os → msFormat ms [0, 1, 2, 3, 4, 5, 6] = some m → begins (.mmul n p ms) ms.fmt.toNat
          [(ms.td.toNat, strip m (stripK ms.kc) ms.acc ms.sat (c.tile ms.td.toNat) (operandBytes s n c.pc os 0) (operandBytes s n c.pc os 1))] m.isInt false)
      ∧ (idle → clear (operandRanges os) → whole os → msFormat ms [1, 2, 4, 5, 6] = some m → ms.td.toNat % 2 = 0 →
          let z := pairStrip m (stripK ms.kc) ms.acc ms.sat (c.tile ms.td.toNat) (c.tile (ms.td.toNat + 1)) (operandBytes s n c.pc os 0) (operandBytes s n c.pc os 1)
          begins (.mmulp n p ms) ms.fmt.toNat [(ms.td.toNat, z.1), (ms.td.toNat + 1, z.2)] m.isInt true)
      ∧ (idle → clear (operandRanges os) → whole os → msFormat ms [7] = some m → begins (.mmul3 n p ms) ms.fmt.toNat
          [(ms.td.toNat, splitStrip (stripK ms.kc) ms.acc ms.sat (c.tile ms.td.toNat) (operandBytes s n c.pc os 0) (operandBytes s n c.pc os 1))] m.isInt false)
      ∧ (idle → clear (operandRanges (mbOperands x mb m)) → whole (mbOperands x mb m) → mbFormat mb = some m →
          let o := operandBytes s n c.pc (mbOperands x mb m)
          begins (.mmulbs n p mb) mb.fmt.toNat [(mb.td.toNat, scaledStrip m (stripK mb.kc) mb.acc mb.sat mb.sfmt mb.dirA mb.dirB
            (blockSize mb.bs.toNat) (c.tile mb.td.toNat) (o 0) (o 1) (o 2) (o 3))] false false)
      ∧ (idle → mt.out.toNat ≤ 5 → clear [wideRange (R mt.a) (1024 * outBytes mt.out.toNat) true] → exec (.mst n p mt) s = .next
          ((s.write (R mt.a).toNat (tileBytes mt.out.toNat mt.rnd.toNat mt.sat (c.tile mt.ts.toNat))).setCore n
            ({ c with sb := sbOf [wideRange (R mt.a) (1024 * outBytes mt.out.toNat) true] .done } : Core).stepped))
      ∧ (idle → mt.out = 0 → mt.sat = false → mt.ts.toNat % 2 = 0 → clear [wideRange (R mt.a) 8192 true] → exec (.mstp n p mt) s = .next
          ((s.write (R mt.a).toNat (pairBytes (c.tile mt.ts.toNat) (c.tile (mt.ts.toNat + 1)))).setCore n
            ({ c with sb := sbOf [wideRange (R mt.a) 8192 true] .done } : Core).stepped))
      ∧ (idle → Steps (.mfin n p tl) s n (fun c => { c with mfins := c.mfins + 1
                                                            tokens := [⟨tl, bit c.tileInt.toNat tl.toNat, bit c.tilePair.toNat tl.toNat, c.mfins, false⟩] }))
      ∧ (types → fv.nsrc ≠ 0 → clear streams → takes (.vbath n p fv) { c with d := holdsAnchor fv.dd 0 (vOperands fv) } streams (.bath fv))
      ∧ (types → fv.nsrc ≠ 3 → clear streams → c.tokens = [tok] → tok.bound = false → takes (.vtpop n p fv)
          { c with d := holdsAnchor fv.dd 1 (vOperands fv), tokens := [{ tok with bound := true }] } streams (.pop fv tok.tile tok.pair tok.seq))
      ∧ (qd ≠ 3 → typeBad c.capture ad.toNat = false → kind.toNat < 5 → (typ = true → kind.toNat < 3) → clear [streamRange c.capture ad.toNat false] →
          takes (.vred n p qd ad kind typ) { c with d := holdsAnchor ad 2 (qd.toNat * 2 ^ 4 + kind.toNat * 2 + typ.toNat), qPend := putBit 0 qd.toNat true }
            [streamRange c.capture ad.toNat false] (.red qd ad kind typ))
      ∧ (qd ≠ 3 → typeBad c.capture ad.toNat = false → baseMisaligned (tget 0 c.d ad.toNat) = false → takes (.vred n p qd ad 5 false)
            { c with d := holdsAnchor ad 2 (qd.toNat * 2 ^ 4 + 10), qPend := putBit 0 qd.toNat true } [] (.red qd ad 5 false))
      ∧ (c.strip = none → takes (.vtclr n p tl) c [] (.clear tl))
      ∧ (c.strip = none → clear [wideRange (R aa) 4096 false] → takes (.vtld n p tl aa) c [wideRange (R aa) 4096 false] (.load tl (R aa))
          ∧ takes (.vcfill n p ad aa) c [wideRange (R aa) 4096 false] (.fill ad (R aa)))
      ∧ (here →
          (k.kind = .counter → gives (.gadd n p fg) { k with value := BitVec.ofNat 64 ((k.value.toNat + (S fg.sv).toNat) % 2 ^ 63) } k.value
            ∧ (bits (S fg.sv).toNat 62 0 ≤ k.value.toNat → gives (.gwait n p fg) k k.value)
            ∧ (k.value.toNat < bits (S fg.sv).toNat 62 0 → waits (.gwait n p fg) k))
          ∧ (k.kind = .lock → k.holder = none → grants (.glock n p fg) ∧ grants (.gtry n p fg)
            ∧ gives (.gunlock n p fg) k (plainStatus gsNotOwner) ∧ gives (.gclean n p fg) k (plainStatus gsNotOwner))
          ∧ (k.kind = .lock → k.holder = some hd → waits (.glock n p fg) k ∧ gives (.gtry n p fg) k (statusWord gsBusy hd.fa hd.core hd.epoch))
          ∧ (k.kind = .lock → mine → gives (.gunlock n p fg) { k with holder := none } (plainStatus gsOk)
            ∧ (k.dead = some dw → dw.epoch = (S fg.sv).setWidth 32 →
                gives (.gclean n p fg) { k with dead := none } (statusWord gsOk hd.fa hd.core hd.epoch)))
          ∧ (k.kind = .lock → gives (.grd n p fg) k (lockRead k))
          ∧ (k.kind = .barrier → barrierGang s fg.gate.toNat = none →
              (arrived + 1 < parties → waits (.gbar n p fg) { k with value := barrierValue parties (arrived + 1) (barrierGen k.value) })
              ∧ (parties ≤ arrived + 1 → gives (.gbar n p fg) { k with value := barrierValue parties 0 (barrierGen k.value + 1) } (plainStatus gsOk)))
          ∧ (k.kind = .event → gives (.gsig n p fg) { k with value := 1 } (plainStatus gsOk) ∧ gives (.gclr n p fg) { k with value := 0 } (plainStatus gsOk)
              ∧ (k.value ≠ 0 → gives (.gevw n p fg) k (plainStatus gsOk)) ∧ (k.value = 0 → waits (.gevw n p fg) k))
          ∧ (k.kind ≠ .counter → gives (.gadd n p fg) k (failWord 0 gsWrongKind))
          ∧ (k.kind ≠ .lock → gives (.grd n p fg) k k.value ∧ gives (.glock n p fg) k (failWord 2 gsWrongKind)))
      ∧ (fg.rem = false → fg.sf = 0 → gateServes s fg.gate.toNat (some b) (s.basin b).tenant = false → gives (.gadd n p fg) k unreachableWord)
      ∧ (fg.rem = true → (S fg.sf).setWidth 16 ≠ s.fa → Reaches s ((S fg.sf).setWidth 16) → Completes (.gadd n p fg) s (fun t =>
          t.gateUnit.gates = s.gateUnit.gates ∧ (∃ o : GateOp, (t.core n).gops = [o] ∧ o.remote = true ∧ o.fa = (S fg.sf).setWidth 16 ∧ o.result = none)
          ∧ Sends s t (gatePacket s ((S fg.sf).setWidth 16) (s.basin b).tenant 0 fg.gate (S fg.sv) me (s.life (s.logical n)) (s.gateUnit.tag + 1))))
      ∧ (len = 0 → Steps (.dfill n p ad r3 r2) s n (fun c => c) ∧ Steps (.dcopy n p ad aa r2) s n (fun c => c))
      ∧ (lengthBad len = false → len ≠ 0 → clear [span ad true] → s.store.queues = [] → exec (.dfill n p ad r3 r2) s = .next
          ((startMemOp s n dst dst len ((sliceParts dst len).map (fun q =>
            (sliceOf q.1, { dst := q.1, len := q.2, work := .fill s.store.nextOp (S r3) })))).setCore n
            ({ c with sb := sbOf [span ad true] (.memory s.store.nextOp) } : Core).stepped))
      ∧ (lengthBad len = false → len ≠ 0 → clear [span aa false, span ad true] → s.store.queues = [] → exec (.dcopy n p ad aa r2) s = .next
          ((startMemOp s n dst (R aa).toNat len ((sliceParts (R aa).toNat len).map (fun q =>
            (sliceOf q.1, { dst := dst + (q.1 - (R aa).toNat), len := q.2, work := .copy s.store.nextOp q.1 })))).setCore n
            ({ c with sb := sbOf [span aa false, span ad true] (.memory s.store.nextOp) } : Core).stepped))
      ∧ (r3 ≠ 31 → len = 0 → (s.gate g7.toNat).kind = .counter → (s.gate g7.toNat).waiters = [] → gateServes s g7.toNat (some b) (s.basin b).tenant = true →
          Completes post s (fun t => (t.gate g7.toNat).value = BitVec.ofNat 64 (((s.gate g7.toNat).value.toNat + 1) % 2 ^ 63) ∧ t.dma = s.dma
            ∧ t.store = s.store ∧ (t.core n).pc = c.pc + 1))
      ∧ (r3 ≠ 31 → lanes → len ≠ 0 → firstBad s.mem dst len = none → (s.chan chan).xfer = none → bits (S (r3 + 1)).toNat 15 0 = 0 → reachable s (gaFa (S r3)) = true →
          gaOffset (S r3) % 256 = 0 → gaOffset (S r3) + len ≤ 2 ^ 42 → Completes post s (fun t => t.store = s.store ∧ (t.core n).pc = c.pc + 1
            ∧ ∃ e, (t.chan chan).xfer = some e ∧ e.ga = S r3 ∧ e.len = len ∧ e.laddr = dst ∧ e.toRemote = !dir ∧ e.asked = true ∧ e.credits = 0
              ∧ e.xfer = (s.chan chan).number + 1 ∧ e.gate = some (s.fa, g7) ∧ ∀ q ∈ e.pkts, q = .todo))
      ∧ (c.pc.toNat + 1 ≤ stop.toNat → loops (.loop n p level rb stop) ((S rb).setWidth 32) ∧ loops (.loopi n p level count stop) (count.setWidth 32))
      ∧ Steps (.hint n p tl lead dur) s n (fun c => { c with hint := some { level := tl, lead := lead, dur := dur } })
      ∧ exec (.phase n p tl) s = .next (evalPoint ((s.setCore n ({ c with phase := tl } : Core).stepped).modBasin b (fun v => { v with preferNow := v.prefer })))
      ∧ (∀ i, imageOf s n = some i → 768 * ln.toNat < i.bytes.length → c.ibuf.contains ln.toNat = false → c.fetching.contains ln.toNat = false →
          Steps (.pref n p ln) s n (fun c => { c with fetching := c.fetching ++ [ln.toNat] }))
      ∧ Steps (.edge n p) s n (fun c => { c with edge := true })
      ∧ (c.strip = none → Completes (.endOp n p) s (fun t => t.store = s.store ∧ t.life (s.logical n) = s.life (s.logical n) + 1
          ∧ t.core n = { cache := c.cache, ibuf := c.ibuf, stalls := c.stalls, vNext := c.vNext })))

/-! ### The leat chain (R185, R521 to R540) -/

/-- The rows of the leat chain. Nothing happens without the frame logic. A frame is lost where the chiplet does not receive, counted where it
is not intact, and otherwise takes the chiplet out of SEARCH. A chiplet that is not the master forwards IDLE, responses and what is for others
as they are; TURN turns it and TURNED is consumed; a head makes its record, a record joins the train, the end is preceded by the records held.
Fragments, check values and request halves for this chiplet are kept, and those for every chiplet also forwarded. The master consumes every
frame: it keeps records, and at the end of a train it ends the sweep, turns the ring, or goes on the other way; it yields to a hub. A cut train is
completed, a turned one sent back, a search begins anew, a held record is made; the master sends IDLE, takes over, drives, sweeps and turns.
It rests on the model's choices in logs 61, 63. -/
def Obligations.LeatRowsForwardAndSweep : Prop :=
  ∀ (on : LeatPair) (urgent second : Bool) (f g : LeatFrame) (st : LeatState) (d : Delivery) (s : State),
    let l := s.leat
    let own := ownSlot s
    let out : LeatPair := if st = .reverse then .di else .dO
    let back : LeatPair := if st = .reverse then .dO else .di
    let as := fun (p : LeatPair) (k a : Byte) (tag : W16) (b : List Byte) => Sent.leat p k { addr := a, tag := tag, body := padTo 64 b, ok := true }
    let same := fun (k : Byte) => as out k f.addr f.tag f.body
    let frames := fun (p : LeatPair) (x : List TrainFrame) => x.map (fun t => as p t.kind t.f.addr t.f.tag t.f.body)
    let v := setLeat s { l with state := st, turned := false }
    let u := setLeat s { l with state := st, turned := false, half := none }
    let rows := [Instr.idle on f, .turn on f, .turned on f, .responseFrame on urgent second f, .sweepHead on f, .record on f, .sweepEnd on f,
      .image on f, .blockCheck on f, .requestFirstHalf on urgent f, .requestSecondHalf on urgent f]
    let timers := [Instr.masteryTakeover, .masterDrivePermitted, .sweepPeriod, .sweepStall, .sweepCutTimeout, .endOfLineTimeout, .heldRecordTimer]
    let came := receivingState l on = some st ∧ f.ok = true
    let in_ := came ∧ l.master = false
    let inM := came ∧ l.master = true
    let seq : W32 := f.tag.setWidth 32
    let dir : Byte := if st = .reverse then 1 else 0
    let other : Byte := if st = .reverse then 0 else 1
    let named := byte (fieldAt f.body 7 1)
    let added := addedRecords l
    let bound := s.fw.delivery = some d ∧ d.ep = 4 ∧ d.phase = .receiving
    let fragment := fun (t : State) => t.leat = u.leat ∧ t.fw.delivery = some { d with frags := [(f.tag.toNat, padTo 64 f.body)] }
    let vs := ((numbers 0 16).filter (fun i => f.tag.toNat + i < d.blocks)).map (fun i => BitVec.ofNat 32 (fieldAt f.body (4 * i) 4))
    let checked := fun (t : State) => t.leat = u.leat
      ∧ t.fw.delivery = some { d with checks := vs.zipIdx.foldl (fun t e => tput t (f.tag.toNat + e.2) e.1) d.checks }
    let half := l.half = some (urgent, g) ∧ g.tag = f.tag ∧ f.addr = own ∧ transportUp s 4 = true
    let slot := padTo 64 g.body ++ padTo 64 f.body
    let p := s.ep 4
    let member := l.master = false ∧ l.state = st ∧ st ≠ .search
    let master := l.master = true ∧ l.state = st ∧ st ≠ .search
    let slots := l.train.map (fun t => t.f.addr.toNat)
    let reached := fun (r : Byte) => l.table.map (fun e => (e.1, if slots.contains e.1 then { e.2 with reach := r } else e.2))
    let launched := fun (q : W32) (o : LeatPair) (r : Byte) => [as o 0x10 own (q.setWidth 16) (leBytes 2 l.period ++ leBytes 4 l.set.toNat ++ [own, r]),
      as o 0x12 own (q.setWidth 16) [0, 0, 0, 0, 0xFF]]
    let turns := fun (i : Instr) (w : State) => exec i s = .next
      ((setLeat w { w.leat with state := opposite st, drive := false, phase := .turning, train := [] }).emit (as out 0x02 own 0 []))
    let begins := fun (i : Instr) => Completes i s (fun t => t.leat.seq = l.seq + 1 ∧ t.leat.phase = .pass ∧ t.leat.second = false
      ∧ t.leat.got = [own.toNat] ∧ (tget ⟨0, 2, []⟩ t.leat.table own.toNat).seq = l.seq + 1 ∧ t.sent = s.sent ++ launched (l.seq + 1) out dir)
    let whole := l.headBack = true ∧ fieldAt f.body 2 1 ≠ 1 ∧ fieldAt f.body 3 1 ≠ 1 ∧ fieldAt f.body 0 2 = l.train.length
    (leatUp s = false → ∀ i ∈ rows ++ timers, exec i s = .next s)
    ∧ (leatUp s = true →
      (receivingState l on = none → ∀ i ∈ rows, exec i s = .next s)
      ∧ (receivingState l on = some st → f.ok = false → ∀ i ∈ rows,
          exec i s = .next (setLeat s { l with discards := l.discards + 1, half := none }))
      ∧ (in_ → exec (.idle on f) s = .next (u.emit (same 0x01))
        ∧ exec (.responseFrame on urgent second f) s = .next (u.emit (same (byte (0x32 + 4 * urgent.toNat + second.toNat))))
        ∧ exec (.turned on f) s = .next u
        ∧ exec (.turn on f) s = .next (((setLeat u { u.leat with state := opposite st, turned := true }).emit (same 0x02)).emit (as back 0x03 own 0 []))
        ∧ (named ≠ dir → exec (.sweepHead on f) s = .next (u.emit (same 0x10)))
        ∧ (named = dir → Completes (.sweepHead on f) s (fun t => t.sent = s.sent ++ [same 0x10] ∧ t.leat.inTrain = true ∧ t.leat.lastSeq = seq
            ∧ t.leat.heldPeriods = 0 ∧ t.leat.headPeriod = fieldAt f.body 0 2 ∧ t.leat.headSet = BitVec.ofNat 32 (fieldAt f.body 2 4)
            ∧ t.leat.events = 0 ∧ t.leat.discards = 0 ∧ t.leat.train = [{ kind := 0x10, f := f }]
            ∧ (∃ r, t.leat.own = some r ∧ r.kind = 0x11 ∧ r.f.addr = own ∧ r.f.tag = f.tag)
            ∧ (tget ⟨0, 2, []⟩ t.leat.table own.toNat).seq = seq ∧ (tget ⟨0, 2, []⟩ t.leat.table own.toNat).reach = dir))
        ∧ exec (.record on f) s = .next ((if l.inTrain then setLeat u { u.leat with train := l.train ++ [{ kind := 0x11, f := f }] } else u).emit (same 0x11))
        ∧ (l.inTrain = false ∨ fieldAt f.body 3 1 = 1 → exec (.sweepEnd on f) s = .next (u.emit (same 0x12)))
        ∧ (l.inTrain = true → fieldAt f.body 3 1 ≠ 1 → Completes (.sweepEnd on f) s (fun t => t.leat.inTrain = false ∧ t.leat.held = [] ∧ t.leat.own = none
            ∧ t.leat.dropped = false
            ∧ t.sent = s.sent ++ frames out added ++ [as out 0x12 f.addr f.tag (leBytes 2 (fieldAt f.body 0 2 + added.length) ++ slice f.body 2 62)]))
        ∧ ((∀ e, s.fw.delivery = some e → e.ep = 4 → f.addr ≠ own ∧ f.addr ≠ 0xFF) →
            exec (.image on f) s = .next (u.emit (same 0x20)) ∧ exec (.blockCheck on f) s = .next (u.emit (same 0x21)))
        ∧ (s.fw.delivery = some d → d.ep = 4 → d.phase ≠ .receiving →
            (f.addr = own → exec (.image on f) s = .next u ∧ exec (.blockCheck on f) s = .next u)
            ∧ (f.addr = 0xFF → exec (.image on f) s = .next (u.emit (same 0x20)) ∧ exec (.blockCheck on f) s = .next (u.emit (same 0x21))))
        ∧ (bound → d.blocks ≤ f.tag.toNat / 64 ∨ d.present.contains (f.tag.toNat / 64) = true →
            (f.addr = own → exec (.image on f) s = .next u) ∧ (f.addr = 0xFF → exec (.image on f) s = .next (u.emit (same 0x20))))
        ∧ (bound → f.tag.toNat / 64 < d.blocks → d.present.contains (f.tag.toNat / 64) = false → d.checks = [] → d.frags = [] →
            (f.addr = own → Completes (.image on f) s (fun t => fragment t ∧ t.sent = s.sent))
            ∧ (f.addr = 0xFF → Completes (.image on f) s (fun t => fragment t ∧ t.sent = s.sent ++ [same 0x20])))
        ∧ (bound → d.frags = [] →
            (f.addr = own → Completes (.blockCheck on f) s (fun t => checked t ∧ t.sent = s.sent))
            ∧ (f.addr = 0xFF → Completes (.blockCheck on f) s (fun t => checked t ∧ t.sent = s.sent ++ [same 0x21])))
        ∧ (f.addr = own → exec (.requestFirstHalf on urgent f) s = .next (setLeat u { u.leat with half := some (urgent, f) }))
        ∧ (f.addr ≠ own → exec (.requestFirstHalf on urgent f) s = .next (u.emit (same (byte (0x30 + 4 * urgent.toNat))))
            ∧ exec (.requestSecondHalf on urgent f) s = .next (u.emit (same (byte (0x31 + 4 * urgent.toNat)))))
        ∧ (f.addr = own → transportUp s 4 = false ∨ (∀ x h, l.half = some (x, h) → x = urgent → h.tag ≠ f.tag) → exec (.requestSecondHalf on urgent f) s = .next u)
        ∧ (half → urgent = true → p.busy = false → Completes (.requestSecondHalf on urgent f) s (fun t => t.leat = u.leat ∧ t.sent = s.sent
            ∧ t.ep 4 = { p with busy := true, urgReq := slot, urgSrc := f.tag } ∧ t.svc.urgentQ = s.svc.urgentQ ++ [4]))
        ∧ (half → urgent = true → p.busy = true → exec (.requestSecondHalf on urgent f) s = .next (u.setEp 4 { p with overrun := true }))
        ∧ (half → urgent = false → p.reqCount < 32 → Completes (.requestSecondHalf on urgent f) s (fun t => t.leat = u.leat ∧ t.sent = s.sent
            ∧ t.ep 4 = { p with req := tput p.req (p.prod.toNat % 32) slot, src := tput p.src (p.prod.toNat % 32) f.tag, prod := p.prod + 1 }))
        ∧ (half → urgent = false → 32 ≤ p.reqCount → Completes (.requestSecondHalf on urgent f) s (fun t => t.leat = u.leat ∧ t.ep 4 = p
            ∧ t.ledger = s.ledger ∧ ∃ r, t.sent = s.sent ++ [as out 0x32 own f.tag (r.take 64), as out 0x33 own f.tag (r.drop 64)]
              ∧ fieldAt r 0 2 = fieldAt slot 0 2 ∧ fieldAt r 6 2 = stBusy.toNat)))
      ∧ (inM → (∀ i ∈ [Instr.turn on f, .turned on f, .responseFrame on urgent second f, .image on f, .blockCheck on f, .requestFirstHalf on urgent f],
            exec i s = .next u)
        ∧ exec (.requestSecondHalf on urgent f) s = .next v
        ∧ (f.addr.toNat < 16 ∨ 19 < f.addr.toNat → exec (.idle on f) s = .next u)
        ∧ (16 ≤ f.addr.toNat → f.addr.toNat ≤ 19 → Completes (.idle on f) s (fun t => t.leat.master = false ∧ t.leat.state = .search
            ∧ t.leat.phase = .idle ∧ t.leat.waitSweep = false ∧ t.sent = s.sent))
        ∧ exec (.sweepHead on f) s = .next (setLeat u { u.leat with headBack := l.headBack || decide (l.phase = .pass), train := [] })
        ∧ exec (.record on f) s = .next (setLeat u { u.leat with
            train := l.train ++ [{ kind := 0x11, f := f }], got := f.addr.toNat :: l.got
            table := tput l.table f.addr.toNat { seq := l.seq, reach := (tget ⟨0, 2, []⟩ l.table f.addr.toNat).reach, bytes := padTo 64 f.body } })
        ∧ (l.phase = .pass → fieldAt f.body 3 1 = 1 → exec (.sweepEnd on f) s = .next u)
        ∧ (l.phase = .pass → l.drive = true → ¬ whole → fieldAt f.body 3 1 ≠ 1 → turns (.sweepEnd on f) u)
        ∧ (l.phase = .pass → whole → l.waitSweep = false →
            exec (.sweepEnd on f) s = .next (setLeat u { u.leat with phase := .idle, train := [], waitSweep := false, table := reached dir }))
        ∧ (l.phase = .pass → whole → l.waitSweep = true → l.drive = true → begins (.sweepEnd on f))
        ∧ (l.phase = .turning → fieldAt f.body 3 1 = 1 → l.second = false → l.drive = false → exec (.sweepEnd on f) s =
            .next (setLeat u { u.leat with table := reached other, second := true, phase := .back }))
        ∧ (l.phase = .turning → fieldAt f.body 3 1 = 1 → l.second = false → l.drive = true → Completes (.sweepEnd on f) s (fun t =>
            t.leat.second = true ∧ t.leat.phase = .pass ∧ t.leat.table = reached other ∧ t.sent = s.sent ++ launched l.seq out dir))
        ∧ (l.phase = .turning → fieldAt f.body 3 1 = 1 → l.second = true → l.waitSweep = false → Completes (.sweepEnd on f) s (fun t =>
            t.leat.phase = .idle ∧ t.leat.state = opposite st ∧ t.leat.drive = false ∧ t.sent = s.sent
            ∧ ∀ k < 16, l.got.contains k = false → (tget ⟨0, 2, []⟩ t.leat.table k).reach = 2))
        ∧ (l.phase ≠ .pass → l.phase ≠ .turning ∨ fieldAt f.body 3 1 ≠ 1 → exec (.sweepEnd on f) s = .next u))
      ∧ (l.master = false → exec .leatSearchTimeout s = .next (setLeat s { l with state := .search, turned := false, half := none })
        ∧ exec .masterIdleTimer s = .next s ∧ exec .sweepPeriod s = .next s ∧ exec .sweepStall s = .next s ∧ exec .masterDrivePermitted s = .next s)
      ∧ (l.master = true → exec .leatSearchTimeout s = .next s ∧ exec .masteryTakeover s = .next s ∧ exec .endOfLineTimeout s = .next s
        ∧ exec .sweepCutTimeout s = .next s ∧ exec .heldRecordTimer s = .next s)
      ∧ (master → l.drive = true → exec .masterIdleTimer s = .next (s.emit (as out 0x01 own 0 [])))
      ∧ (l.master = true → l.drive = false → exec .masterIdleTimer s = .next s)
      ∧ (l.master = false → s.boot.stage ≠ 0 → s.boot.pins.slotId = 0 → s.boot.pins.chainMaster = true → Completes .masteryTakeover s (fun t =>
          t.leat.master = true ∧ t.leat.state = .forward ∧ t.leat.drive = false ∧ t.leat.phase = .idle ∧ t.leat.seq = l.seq ∧ t.sent = s.sent))
      ∧ (s.boot.stage = 0 ∨ s.boot.pins.slotId ≠ 0 ∨ s.boot.pins.chainMaster = false → exec .masteryTakeover s = .next s)
      ∧ (l.master = true → l.phase ≠ .back → l.phase ≠ .turning ∨ l.second = false → exec .masterDrivePermitted s = .next (setLeat s { l with drive := true }))
      ∧ (master → l.phase = .back → Completes .masterDrivePermitted s (fun t => t.leat.drive = true ∧ t.leat.phase = .pass ∧ t.leat.headBack = false
          ∧ t.leat.train = [] ∧ t.sent = s.sent ++ launched l.seq out dir))
      ∧ (l.master = true → l.phase = .turning → l.second = true → exec .masterDrivePermitted s = .next s)
      ∧ (member → l.turned = true → Completes .endOfLineTimeout s (fun t => t.leat.turned = false ∧ t.leat.inTrain = false
          ∧ t.sent = s.sent ++ frames out (returnedTrain s)))
      ∧ (l.turned = false → exec .endOfLineTimeout s = .next s)
      ∧ (member → l.inTrain = true → Completes .sweepCutTimeout s (fun t => t.leat.inTrain = false ∧ t.leat.held = [] ∧ t.leat.own = none
          ∧ t.sent = s.sent ++ frames out (added ++ [endFrame own (l.lastSeq.setWidth 16) (recordsIn l + added.length) true false own])))
      ∧ (l.inTrain = false → exec .sweepCutTimeout s = .next s)
      ∧ (l.master = true → l.period = 0 → exec .sweepPeriod s = .next s)
      ∧ (l.master = true → l.period ≠ 0 → l.phase ≠ .idle → exec .sweepPeriod s = .next (setLeat s { l with waitSweep := true }))
      ∧ (master → l.period ≠ 0 → l.phase = .idle → l.drive = true → begins .sweepPeriod)
      ∧ (l.master = true → l.period ≠ 0 → l.phase = .idle → l.drive = false → Completes .sweepPeriod s (fun t => t.leat.seq = l.seq + 1
          ∧ t.leat.phase = .back ∧ t.sent = s.sent))
      ∧ (master → l.phase = .pass → l.drive = true → turns .sweepStall s)
      ∧ (l.master = true → l.phase = .turning → l.second = false → l.drive = false →
          exec .sweepStall s = .next (setLeat s { l with second := true, phase := .back }))
      ∧ (l.phase = .idle ∨ l.phase = .back → exec .sweepStall s = .next s)
      ∧ (l.master = false → l.headPeriod ≠ 0 → (s.boot.stage = 2 ∨ s.boot.stage = 3) → Completes .heldRecordTimer s (fun t =>
          t.leat.heldPeriods = l.heldPeriods + 1 ∧ t.leat.dropped = (l.dropped || decide (8 ≤ l.held.length)) ∧ t.sent = s.sent
          ∧ ∃ r, t.leat.held = (l.held ++ [r]).drop (l.held.length + 1 - 8) ∧ r.kind = 0x11 ∧ r.f.addr = own
            ∧ r.f.tag = (l.lastSeq + BitVec.ofNat 32 (l.heldPeriods + 1)).setWidth 16))
      ∧ (l.headPeriod = 0 ∨ (s.boot.stage ≠ 2 ∧ s.boot.stage ≠ 3) → exec .heldRecordTimer s = .next s)
      ∧ (∀ r, Admitted cmdSweepConfig r s → l.master = true → r.arg 16 4 < 32 → r.arg 22 1 = 0 → CommitsWith (.sweepConfig r) cmdSweepConfig r s
          stOk [] (leBytes 4 (r.arg 16 4) ++ leBytes 2 (r.arg 20 2) ++ [0]) (fun t => setLeat t { t.leat with set := BitVec.ofNat 32 (r.arg 16 4), period := r.arg 20 2 })))
end

