-- ==== Sys2Proof/Laws/Tab.lean ====
section
/-! SUPPORT. What reading and writing a sparse table come to. -/

namespace Sys2Proof.Machine

variable {α : Type}

/-- A read of the key just written gives the value written. -/
@[simp] theorem tget_tput_same (d : α) (t : Tab α) (k : Nat) (v : α) : tget d (tput t k v) k = v := by
  induction t with
  | nil => simp [tput, tget]
  | cons e r ih =>
    obtain ⟨j, w⟩ := e
    simp only [tput]
    split
    · simp [tget]
    · split
      · simp [tget]
      · rename_i h
        simp [tget, Ne.symm h, ih]

/-- A write of another key changes nothing. -/
theorem tget_tput_ne (d : α) (t : Tab α) {j k : Nat} (h : j ≠ k) (v : α) : tget d (tput t k v) j = tget d t j := by
  induction t with
  | nil => simp [tput, tget, Ne.symm h]
  | cons e r ih =>
    obtain ⟨i, w⟩ := e
    simp only [tput]
    split
    · simp [tget, Ne.symm h]
    · split
      · rename_i hk
        subst hk
        simp [tget, Ne.symm h]
      · simp [tget, ih]

/-- Of two writes of one key the later stands. -/
@[simp] theorem tput_tput_same (t : Tab α) (k : Nat) (v w : α) : tput (tput t k v) k w = tput t k w := by
  induction t with
  | nil => simp [tput]
  | cons e r ih =>
    obtain ⟨j, x⟩ := e
    by_cases h1 : k < j
    · simp [tput, h1]
    · by_cases h2 : k = j
      · subst h2; simp [tput]
      · simp [tput, h1, h2, ih]

@[simp] theorem tget_tmod_same (d : α) (t : Tab α) (k : Nat) (f : α → α) : tget d (tmod d t k f) k = f (tget d t k) := by
  simp [tmod]

end Sys2Proof.Machine
end

