-- ==== Sys2Proof/Laws/Ledger.lean ====
section
/-! SUPPORT. What an append to the ledger does (R120 to R124). -/

namespace Sys2Proof.Machine

/-- An append changes the ledger and what leaves the chiplet, and nothing else. -/
theorem append_frame (s : State) (e : LedgerEntry) :
    append s e = { s with ledger := (append s e).ledger, sent := (append s e).sent } := by
  unfold append
  dsimp only
  split <;> split <;> rfl

/-- The entry as the chiplet completes it: the timestamp, and the flag of an unlocked clock. -/
theorem append_ledger (s : State) (e : LedgerEntry) :
    (append s e).ledger
      = (s.ledger.append { e with turn := stamp s, flags := if s.time.locked then e.flags else e.flags ||| 0x10 }).1 := by
  unfold append
  dsimp only
  split <;> split <;> rfl

/-- The next sequence number is taken. -/
@[simp] theorem append_head (s : State) (e : LedgerEntry) : (append s e).ledger.head = s.ledger.head + 1 := by
  rw [append_ledger]
  rfl

/-- The new entry stands in its place of the ring, under its sequence number. -/
theorem append_entry (s : State) (e : LedgerEntry) :
    let f := tget {} (append s e).ledger.entries (s.ledger.head.toNat % 4096)
    f.seq = s.ledger.head ∧ f.turn = stamp s ∧ f.srcFa = e.srcFa ∧ f.ep = e.ep ∧ f.cmd = e.cmd ∧ f.tenant = e.tenant
      ∧ f.result = e.result ∧ f.reqSeq = e.reqSeq ∧ f.detail = e.detail := by
  rw [append_ledger]
  simp [Ledger.append]

/-- An entry's flags keep the flags it was given. -/
theorem append_flag (s : State) (e : LedgerEntry) (k : Nat) (h : e.flags.getLsbD k = true) :
    (tget {} (append s e).ledger.entries (s.ledger.head.toNat % 4096)).flags.getLsbD k = true := by
  rw [append_ledger]
  simp only [Ledger.append, tget_tput_same]
  split <;> split <;> simp [h]

/-- An append is no part of the rest of the state. -/
@[simp] theorem append_fields (s : State) (e : LedgerEntry) :
    (append s e).fuses = s.fuses ∧ (append s e).aon = s.aon ∧ (append s e).boot = s.boot ∧ (append s e).settings = s.settings
    ∧ (append s e).eps = s.eps ∧ (append s e).svc = s.svc ∧ (append s e).head = s.head ∧ (append s e).links = s.links
    ∧ (append s e).leat = s.leat ∧ (append s e).tap = s.tap ∧ (append s e).fw = s.fw ∧ (append s e).fabric = s.fabric
    ∧ (append s e).time = s.time ∧ (append s e).die = s.die ∧ (append s e).store = s.store ∧ (append s e).gateUnit = s.gateUnit
    ∧ (append s e).dma = s.dma ∧ (append s e).seize = s.seize ∧ (append s e).free = s.free ∧ (append s e).pending = s.pending := by
  rw [append_frame]
  simp

end Sys2Proof.Machine
end

