-- ==== Sys2Proof/Laws/Mailbox.lean ====
section
/-! SUPPORT. How a mailbox row is served, step by step (R103 to R121): each lemma says one step once. -/

namespace Sys2Proof.Machine

/-- Every mailbox row runs the one service. -/
theorem exec_mailRow (i : Instr) (c : Cmd) (r : Request) (s : State) (h : mailRow i = some (c, r)) :
    exec i s = .next (serveRow c r s) := by
  unfold mailRow at h
  split at h
  all_goals first | (cases h; rfl) | simp at h

/-- A request that nothing holds back is served from the state of its service. -/
theorem serveRow_of_servedAtOnce (c : Cmd) (r : Request) (s : State) (h : ServedAtOnce s r) :
    serveRow c r s = serve c r (serviceStart c r s) := by
  obtain ⟨h1, h3, h2⟩ := h
  unfold serveRow serviceStart
  cases hu : r.urgent <;> simp_all

/-- The start of a service touches the endpoint and the round robin alone. -/
theorem serviceStart_frame (c : Cmd) (r : Request) (s : State) :
    serviceStart c r s = { s with eps := (serviceStart c r s).eps, svc := (serviceStart c r s).svc } := by
  unfold serviceStart
  split <;> rfl

@[simp] theorem serviceStart_fields (c : Cmd) (r : Request) (s : State) :
    let u := serviceStart c r s
    u.fuses = s.fuses ∧ u.aon = s.aon ∧ u.boot = s.boot ∧ u.settings = s.settings ∧ u.head = s.head ∧ u.links = s.links
    ∧ u.leat = s.leat ∧ u.tap = s.tap ∧ u.fw = s.fw ∧ u.fabric = s.fabric ∧ u.time = s.time ∧ u.ledger = s.ledger
    ∧ u.die = s.die ∧ u.store = s.store ∧ u.gateUnit = s.gateUnit ∧ u.dma = s.dma ∧ u.seize = s.seize ∧ u.sent = s.sent
    ∧ u.free = s.free ∧ u.pending = s.pending := by
  rw [serviceStart_frame]
  simp

/-- What an admitted request comes to. -/
def admittedState (c : Cmd) (r : Request) (u : State) : State :=
  let a := c.body r u
  if passes a.status = false then respond u c.code r a.status a.result none
  else
    let x := commitStep u c r a
    if a.late then keepWaiting x.1 c r a x.2 else respond x.1 c.code r a.status a.result x.2

theorem exec_admitted (i : Instr) (c : Cmd) (r : Request) (s : State) (h : mailRow i = some (c, r)) (ha : Admitted c r s) :
    exec i s = .next (admittedState c r (serviceStart c r s)) := by
  obtain ⟨h1, h2, h3⟩ := ha
  rw [exec_mailRow i c r s h, serveRow_of_servedAtOnce c r s h1]
  simp [serve, serveWith, replyTo, admittedState, h2, h3]

/-- A body that only refuses or only returns data. -/
theorem answersOnly_of_body (i : Instr) (c : Cmd) (r : Request) (s : State) (h : mailRow i = some (c, r)) (ha : Admitted c r s)
    (st : W16) (l : List Byte) (hb : c.body r (serviceStart c r s) = { status := st, result := l }) :
    AnswersOnly i c r s st l := by
  rw [AnswersOnly, exec_admitted i c r s h ha, admittedState, hb]
  dsimp only
  split <;> rfl

/-- A body that commits with an entry and is answered at once. -/
theorem answeredAfter_of_body (i : Instr) (c : Cmd) (r : Request) (s : State) (h : mailRow i = some (c, r)) (ha : Admitted c r s)
    (a : Reply) (d : List Byte) (p : State → Prop) (hb : c.body r (serviceStart c r s) = a) (h1 : a.late = false)
    (hd : a.detail = some d) (hp : passes a.status = true)
    (hf : p (a.commit (originOf (serviceStart c r s) c r)
      (append (serviceStart c r s) (commitEntry (serviceStart c r s) c r a d)))) :
    AnsweredAfter i c r s a.status a.result (some s.ledger.head) p := by
  refine ⟨_, ?_, hf⟩
  rw [exec_admitted i c r s h ha, admittedState]
  simp only [hb]
  simp [hp, h1, hd, commitStep, commitEntry]

end Sys2Proof.Machine
end

