-- ==== Sys2Proof/Laws/Memory.lean ====
section
/-! SUPPORT. Every operation on the scratchpad keeps its canonical form, and what a read after a write gives. -/

namespace Sys2Proof.Machine

/-! ### The canonical form -/

/-- The canonical form says that the addresses rise and that no entry is blank. -/
theorem cellsWf_iff (l : List (Nat × Byte)) :
    cellsWf l = true ↔ l.Pairwise (fun c d => c.1 < d.1) ∧ ∀ c ∈ l, c.2 ≠ Memory.blank := by
  induction l with
  | nil => simp [cellsWf]
  | cons c r ih =>
    cases r with
    | nil => simp [cellsWf]
    | cons d t =>
      simp only [cellsWf, Bool.and_eq_true, bne_iff_ne, decide_eq_true_eq, ih, List.pairwise_cons, List.mem_cons]
      constructor
      · rintro ⟨⟨h1, h2⟩, ⟨h3, h4⟩, h5⟩
        refine ⟨⟨?_, h3, h4⟩, ?_⟩
        · rintro x (rfl | hx)
          · exact h2
          · exact Nat.lt_trans h2 (h3 x hx)
        · rintro x (rfl | hx)
          · exact h1
          · exact h5 x hx
      · rintro ⟨⟨h1, h2, h3⟩, h4⟩
        exact ⟨⟨h4 c (.inl rfl), h1 d (.inl rfl)⟩, ⟨h2, h3⟩, fun x hx => h4 x (.inr hx)⟩

/-- The cells of a run of bytes lie where the run lies, rise, and hold no blank. -/
theorem cellsOf_spec (a : Nat) (bs : List Byte) :
    (cellsOf a bs).Pairwise (fun c d => c.1 < d.1)
    ∧ ∀ c ∈ cellsOf a bs, c.2 ≠ Memory.blank ∧ a ≤ c.1 ∧ c.1 < a + bs.length := by
  induction bs generalizing a with
  | nil => simp [cellsOf]
  | cons b r ih =>
    obtain ⟨h1, h2⟩ := ih (a + 1)
    unfold cellsOf
    split
    · refine ⟨h1, fun c hc => ?_⟩
      obtain ⟨x, y, z⟩ := h2 c hc
      simp only [List.length_cons]; exact ⟨x, by omega, by omega⟩
    · rename_i hb
      refine ⟨List.pairwise_cons.2 ⟨fun c hc => ?_, h1⟩, fun c hc => ?_⟩
      · have := (h2 c hc).2.1; simp only; omega
      · rcases List.mem_cons.1 hc with rfl | hc
        · simp only [List.length_cons]; exact ⟨hb, Nat.le_refl _, by omega⟩
        · obtain ⟨x, y, z⟩ := h2 c hc
          simp only [List.length_cons]; exact ⟨x, by omega, by omega⟩

/-- Replacing a range by cells that lie in it keeps the form. -/
theorem Memory.replace_wf (m : Memory) (a n : Nat) (new : List (Nat × Byte)) (h : m.wf = true)
    (h1 : new.Pairwise (fun c d => c.1 < d.1)) (h2 : ∀ c ∈ new, c.2 ≠ Memory.blank ∧ a ≤ c.1 ∧ c.1 < a + n) :
    (m.replace a n new).wf = true := by
  unfold Memory.wf at h ⊢
  rw [cellsWf_iff] at h ⊢
  obtain ⟨hp, hb⟩ := h
  simp only [Memory.replace, List.append_assoc]
  refine ⟨List.pairwise_append.2 ⟨hp.filter _, List.pairwise_append.2 ⟨h1, hp.filter _, ?_⟩, ?_⟩, ?_⟩
  · intro c hc d hd
    have := (h2 c hc).2.2
    have := of_decide_eq_true (List.mem_filter.1 hd).2
    omega
  · intro c hc d hd
    have hlt := of_decide_eq_true (List.mem_filter.1 hc).2
    rcases List.mem_append.1 hd with hd | hd
    · have := (h2 d hd).2.1; omega
    · have := of_decide_eq_true (List.mem_filter.1 hd).2; omega
  · intro c hc
    rcases List.mem_append.1 hc with hc | hc
    · exact hb c (List.mem_filter.1 hc).1
    · rcases List.mem_append.1 hc with hc | hc
      · exact (h2 c hc).1
      · exact hb c (List.mem_filter.1 hc).1

theorem Memory.write_wf (m : Memory) (a : Nat) (bs : List Byte) (h : m.wf = true) : (m.write a bs).wf = true :=
  m.replace_wf a _ _ h (cellsOf_spec a bs).1 (cellsOf_spec a bs).2

theorem Memory.zero_wf (m : Memory) (a n : Nat) (h : m.wf = true) : (m.zero a n).wf = true :=
  m.replace_wf a n [] h List.Pairwise.nil (by simp)

theorem Memory.forget_wf (m : Memory) (a n g : Nat) (h : m.wf = true) : (m.forget a n g).wf = true :=
  m.replace_wf a n [] h List.Pairwise.nil (by simp)

theorem State.write_memOk (s : State) (a : Nat) (bs : List Byte) (h : s.store.mem.wf = true) :
    (s.write a bs).store.mem.wf = true := s.store.mem.write_wf a bs h

theorem State.forget_memOk (s : State) (a n : Nat) (h : s.store.mem.wf = true) :
    (s.forget a n).store.mem.wf = true := s.store.mem.forget_wf a n _ h

/-! ### Reading after writing -/

theorem cellAt_append (l r : List (Nat × Byte)) (a : Nat) (h : ∀ c ∈ l, c.1 ≠ a) : cellAt (l ++ r) a = cellAt r a := by
  induction l with
  | nil => rfl
  | cons c t ih =>
    simp only [List.cons_append, cellAt, h c (List.mem_cons_self ..), if_false]
    exact ih (fun d hd => h d (List.mem_cons_of_mem _ hd))

theorem cellAt_none (l : List (Nat × Byte)) (a : Nat) (h : ∀ c ∈ l, c.1 ≠ a) : cellAt l a = Memory.blank := by
  have := cellAt_append l [] a h
  simpa [cellAt] using this

theorem cellAt_filter (l : List (Nat × Byte)) (p : Nat × Byte → Bool) (a : Nat) (h : ∀ c ∈ l, c.1 = a → p c = true) :
    cellAt (l.filter p) a = cellAt l a := by
  induction l with
  | nil => rfl
  | cons c t ih =>
    have ht := ih (fun d hd => h d (List.mem_cons_of_mem _ hd))
    simp only [List.filter_cons]
    by_cases hc : c.1 = a
    · simp [h c (List.mem_cons_self ..) hc, cellAt, hc]
    · split <;> simp [cellAt, hc, ht]

theorem cellAt_append_self (l r : List (Nat × Byte)) (a : Nat) (h : ∀ c ∈ r, c.1 ≠ a) :
    cellAt (l ++ r) a = cellAt l a := by
  induction l with
  | nil => simpa [cellAt] using cellAt_none r a h
  | cons c t ih => simp only [List.cons_append, cellAt, ih]

/-- The undefined ranges outside what was replaced stay. -/
theorem undefAt_replace (m : Memory) (a n b : Nat) (new : List (Nat × Byte)) (h : b < a ∨ a + n ≤ b) :
    (m.replace a n new).undefAt b = none ↔ m.undefAt b = none := by
  simp only [Memory.undefAt, Memory.replace, List.find?_eq_none, List.mem_flatMap, Bool.and_eq_true, decide_eq_true_eq]
  constructor
  · intro hx u hu hb
    by_cases hc : u.hi ≤ a ∨ a + n ≤ u.lo
    · exact hx u ⟨u, hu, by simp [URange.minus, hc]⟩ hb
    · rcases h with h | h
      · have h1 : u.lo < a := by omega
        exact hx { u with hi := a } ⟨u, hu, by simp [URange.minus, hc, h1]⟩ (by simp; omega)
      · have h1 : a + n < u.hi := by omega
        exact hx { u with lo := a + n } ⟨u, hu, by simp [URange.minus, hc, h1]⟩ (by simp; omega)
  · rintro hx v ⟨u, hu, hv⟩ hb
    refine hx u hu ?_
    simp only [URange.minus] at hv
    split at hv
    · simp at hv; subst hv; exact hb
    · rename_i hc
      simp only [Bool.or_eq_true, decide_eq_true_eq, not_or, Nat.not_le] at hc
      rcases List.mem_append.1 hv with hv | hv <;> split at hv <;> simp at hv <;> subst hv <;> simp at hb ⊢ <;> omega

/-- A write leaves every defined byte outside it alone. -/
theorem Memory.byteAt_write_other (m : Memory) (a b : Nat) (bs : List Byte) (h : b < a ∨ a + bs.length ≤ b)
    (hd : m.undefAt b = none) : (m.write a bs).byteAt b = m.byteAt b := by
  have hu := (undefAt_replace m a bs.length b (cellsOf a bs) h).2 hd
  unfold Memory.write at *
  simp only [Memory.byteAt, hu, hd]
  simp only [Memory.replace]
  have hs := (cellsOf_spec a bs).2
  rcases h with h | h
  · rw [List.append_assoc, cellAt_append_self, cellAt_filter]
    · intro c _ hc; simp; omega
    · intro c hc
      rcases List.mem_append.1 hc with hc | hc
      · have := hs c hc; omega
      · have := of_decide_eq_true (List.mem_filter.1 hc).2; omega
  · rw [cellAt_append, cellAt_filter]
    · intro c _ hc; simp; omega
    · intro c hc
      rcases List.mem_append.1 hc with hc | hc
      · have := of_decide_eq_true (List.mem_filter.1 hc).2; omega
      · have := hs c hc; omega

theorem cellAt_cellsOf (a : Nat) (bs : List Byte) (i : Nat) (h : i < bs.length) :
    cellAt (cellsOf a bs) (a + i) = bs[i] := by
  induction bs generalizing a i with
  | nil => simp at h
  | cons b r ih =>
    cases i with
    | zero =>
      unfold cellsOf
      split
      · rename_i hb
        rw [cellAt_none]
        · simpa using hb.symm
        · intro c hc; have := (cellsOf_spec (a + 1) r).2 c hc; omega
      · simp [cellAt]
    | succ j =>
      have hj : j < r.length := by simpa using h
      have := ih (a + 1) j hj
      unfold cellsOf
      split
      · simpa [Nat.add_assoc, Nat.add_comm 1] using this
      · simpa [cellAt, Nat.add_assoc, Nat.add_comm 1] using this

/-- A written byte reads as it was written. -/
theorem Memory.byteAt_write_same (m : Memory) (a i : Nat) (bs : List Byte) (h : i < bs.length) :
    (m.write a bs).byteAt (a + i) = bs[i] := by
  have hu : (m.write a bs).undefAt (a + i) = none := by
    simp only [Memory.undefAt, Memory.write, Memory.replace, List.find?_eq_none, List.mem_flatMap, Bool.and_eq_true,
      decide_eq_true_eq]
    rintro v ⟨u, -, hv⟩ hb
    simp only [URange.minus] at hv
    split at hv
    · rename_i hc; simp at hv hc; subst hv; omega
    · rcases List.mem_append.1 hv with hv | hv <;> split at hv <;> simp at hv <;> (subst hv; simp at hb; try omega)
  simp only [Memory.byteAt, hu]
  simp only [Memory.write, Memory.replace]
  rw [cellAt_append_self, cellAt_append, cellAt_cellsOf a bs i h]
  · intro c hc; have := of_decide_eq_true (List.mem_filter.1 hc).2; omega
  · intro c hc; have := of_decide_eq_true (List.mem_filter.1 hc).2; omega

end Sys2Proof.Machine
end

