-- ==== Sys2Proof/Laws/Ports.lean ====
section
/-! SUPPORT. What goes out on a link is what comes in: a frame parses back from its bytes (R376, R382). -/

namespace Sys2Proof.Machine

theorem leBytes_length (n v : Nat) : (leBytes n v).length = n := by
  induction n generalizing v with
  | zero => rfl
  | succ n ih => simp [leBytes, ih]

theorem leNat_leBytes (n v : Nat) : leNat (leBytes n v) = v % 256 ^ n := by
  induction n generalizing v with
  | zero => simp [leBytes, leNat, Nat.mod_one]
  | succ n ih =>
    have h : 256 ^ (n + 1) = 256 * 256 ^ n := Nat.pow_succ'
    rw [leBytes, leNat, ih, BitVec.toNat_ofNat, h, Nat.mod_mul]

theorem crcBit_lt {c : Nat} (h : c < 2 ^ 32) : crcBit 0x82F63B78 c < 2 ^ 32 := by
  unfold crcBit; split
  · exact Nat.xor_lt_two_pow (by omega) (by decide)
  · omega

theorem crcSteps_lt (n : Nat) {c : Nat} (h : c < 2 ^ 32) : crcSteps 0x82F63B78 n c < 2 ^ 32 := by
  induction n generalizing c with
  | zero => exact h
  | succ n ih => exact ih (crcBit_lt h)

/-- A check value has 32 bits. -/
theorem crc32c_lt (l : List Byte) : crc32c l < 2 ^ 32 := by
  refine Nat.xor_lt_two_pow ?_ (by decide)
  suffices ∀ c < 2 ^ 32, l.foldl (fun c (b : Byte) => crcSteps 0x82F63B78 8 (c ^^^ b.toNat)) c < 2 ^ 32 from this _ (by decide)
  induction l with
  | nil => exact fun c h => h
  | cons b r ih => exact fun c h => ih _ (crcSteps_lt 8 (Nat.xor_lt_two_pow h (by have := b.isLt; omega)))

theorem slice_append_left (a b : List Byte) : slice (a ++ b) 0 a.length = a := by simp [slice]

theorem slice_append_right (a b : List Byte) : slice (a ++ b) a.length b.length = b := by simp [slice]

theorem linkHeader_lt (f : Frame) : linkHeader f < 2 ^ 32 := by
  have := f.seq.isLt; have := f.ack.isLt; have := f.vc.isLt; have := f.kind.isLt; have := f.cvc.isLt; have := f.ccnt.isLt
  unfold linkHeader; omega

/-- A frame with a whole body parses back from its bytes. -/
theorem parseFrame_frameBytes (f : Frame) (h : f.body.length = 256) : parseFrame (frameBytes f) = some f := by
  have hb : padTo 256 f.body = f.body := by simp [padTo, h]
  have hl : (leBytes 4 (linkHeader f) ++ f.body).length = 260 := by simp [leBytes_length, h]
  have hc := crc32c_lt (leBytes 4 (linkHeader f) ++ f.body)
  have e1 : fieldAt (frameBytes f) 260 4 = crc32c (leBytes 4 (linkHeader f) ++ f.body) := by
    have := slice_append_right (leBytes 4 (linkHeader f) ++ f.body) (leBytes 4 (crc32c (leBytes 4 (linkHeader f) ++ f.body)))
    rw [hl, leBytes_length] at this
    simp only [frameBytes, fieldAt, hb]; rw [this, leNat_leBytes]; omega
  have e2 : (frameBytes f).take 260 = leBytes 4 (linkHeader f) ++ f.body := by
    simp only [frameBytes, hb]; rw [← hl, List.take_left']; rfl
  have e3 : (frameBytes f).length = 264 := by simp only [frameBytes, hb, List.length_append, leBytes_length] at hl ⊢; omega
  have e4 : fieldAt (frameBytes f) 0 4 = linkHeader f := by
    have := slice_append_left (leBytes 4 (linkHeader f)) (f.body ++ leBytes 4 (crc32c (leBytes 4 (linkHeader f) ++ f.body)))
    rw [leBytes_length] at this
    simp only [frameBytes, fieldAt, hb, List.append_assoc]; rw [this, leNat_leBytes]
    have := linkHeader_lt f; omega
  have e5 : slice (frameBytes f) 4 256 = f.body := by
    have h4 := leBytes_length 4 (linkHeader f)
    simp only [frameBytes, hb, List.append_assoc, slice]
    rw [List.drop_left' h4, List.take_left' h]; simp [h]
  have := f.seq.isLt; have := f.ack.isLt; have := f.vc.isLt; have := f.kind.isLt; have := f.cvc.isLt; have := f.ccnt.isLt
  simp only [parseFrame, e1, e2, e3, e4, e5, and_self, if_true, Option.some.injEq]
  obtain ⟨seq, ack, vc, kind, cvc, ccnt, body⟩ := f
  simp only [Frame.mk.injEq, and_true]
  refine ⟨?_, ?_, ?_, ?_, ?_, ?_⟩ <;> apply BitVec.eq_of_toNat_eq <;> simp only [BitVec.toNat_ofNat, bits, linkHeader] <;> omega

end Sys2Proof.Machine
end

