-- ==== Sys2Proof/Laws/State.lean ====
section
/-! SUPPORT. What every update of the state leaves alone, and what a read after it gives. -/

namespace Sys2Proof.Machine

variable (s : State)

/-! ### setCore -/

@[simp] theorem State.setCore_fuses (n : Nat) (c : Core) : (s.setCore n c).fuses = s.fuses := rfl
@[simp] theorem State.setCore_aon (n : Nat) (c : Core) : (s.setCore n c).aon = s.aon := rfl
@[simp] theorem State.setCore_boot (n : Nat) (c : Core) : (s.setCore n c).boot = s.boot := rfl
@[simp] theorem State.setCore_settings (n : Nat) (c : Core) : (s.setCore n c).settings = s.settings := rfl
@[simp] theorem State.setCore_eps (n : Nat) (c : Core) : (s.setCore n c).eps = s.eps := rfl
@[simp] theorem State.setCore_svc (n : Nat) (c : Core) : (s.setCore n c).svc = s.svc := rfl
@[simp] theorem State.setCore_head (n : Nat) (c : Core) : (s.setCore n c).head = s.head := rfl
@[simp] theorem State.setCore_links (n : Nat) (c : Core) : (s.setCore n c).links = s.links := rfl
@[simp] theorem State.setCore_leat (n : Nat) (c : Core) : (s.setCore n c).leat = s.leat := rfl
@[simp] theorem State.setCore_tap (n : Nat) (c : Core) : (s.setCore n c).tap = s.tap := rfl
@[simp] theorem State.setCore_fw (n : Nat) (c : Core) : (s.setCore n c).fw = s.fw := rfl
@[simp] theorem State.setCore_fabric (n : Nat) (c : Core) : (s.setCore n c).fabric = s.fabric := rfl
@[simp] theorem State.setCore_time (n : Nat) (c : Core) : (s.setCore n c).time = s.time := rfl
@[simp] theorem State.setCore_ledger (n : Nat) (c : Core) : (s.setCore n c).ledger = s.ledger := rfl
@[simp] theorem State.setCore_store (n : Nat) (c : Core) : (s.setCore n c).store = s.store := rfl
@[simp] theorem State.setCore_gateUnit (n : Nat) (c : Core) : (s.setCore n c).gateUnit = s.gateUnit := rfl
@[simp] theorem State.setCore_dma (n : Nat) (c : Core) : (s.setCore n c).dma = s.dma := rfl
@[simp] theorem State.setCore_seize (n : Nat) (c : Core) : (s.setCore n c).seize = s.seize := rfl
@[simp] theorem State.setCore_sent (n : Nat) (c : Core) : (s.setCore n c).sent = s.sent := rfl
@[simp] theorem State.setCore_free (n : Nat) (c : Core) : (s.setCore n c).free = s.free := rfl
@[simp] theorem State.setCore_pending (n : Nat) (c : Core) : (s.setCore n c).pending = s.pending := rfl

/-! ### setNode -/

@[simp] theorem State.setNode_fuses (n : Nat) (v : NodeState) : (s.setNode n v).fuses = s.fuses := rfl
@[simp] theorem State.setNode_aon (n : Nat) (v : NodeState) : (s.setNode n v).aon = s.aon := rfl
@[simp] theorem State.setNode_boot (n : Nat) (v : NodeState) : (s.setNode n v).boot = s.boot := rfl
@[simp] theorem State.setNode_settings (n : Nat) (v : NodeState) : (s.setNode n v).settings = s.settings := rfl
@[simp] theorem State.setNode_eps (n : Nat) (v : NodeState) : (s.setNode n v).eps = s.eps := rfl
@[simp] theorem State.setNode_svc (n : Nat) (v : NodeState) : (s.setNode n v).svc = s.svc := rfl
@[simp] theorem State.setNode_head (n : Nat) (v : NodeState) : (s.setNode n v).head = s.head := rfl
@[simp] theorem State.setNode_links (n : Nat) (v : NodeState) : (s.setNode n v).links = s.links := rfl
@[simp] theorem State.setNode_leat (n : Nat) (v : NodeState) : (s.setNode n v).leat = s.leat := rfl
@[simp] theorem State.setNode_tap (n : Nat) (v : NodeState) : (s.setNode n v).tap = s.tap := rfl
@[simp] theorem State.setNode_fw (n : Nat) (v : NodeState) : (s.setNode n v).fw = s.fw := rfl
@[simp] theorem State.setNode_fabric (n : Nat) (v : NodeState) : (s.setNode n v).fabric = s.fabric := rfl
@[simp] theorem State.setNode_time (n : Nat) (v : NodeState) : (s.setNode n v).time = s.time := rfl
@[simp] theorem State.setNode_ledger (n : Nat) (v : NodeState) : (s.setNode n v).ledger = s.ledger := rfl
@[simp] theorem State.setNode_store (n : Nat) (v : NodeState) : (s.setNode n v).store = s.store := rfl
@[simp] theorem State.setNode_gateUnit (n : Nat) (v : NodeState) : (s.setNode n v).gateUnit = s.gateUnit := rfl
@[simp] theorem State.setNode_dma (n : Nat) (v : NodeState) : (s.setNode n v).dma = s.dma := rfl
@[simp] theorem State.setNode_seize (n : Nat) (v : NodeState) : (s.setNode n v).seize = s.seize := rfl
@[simp] theorem State.setNode_sent (n : Nat) (v : NodeState) : (s.setNode n v).sent = s.sent := rfl
@[simp] theorem State.setNode_free (n : Nat) (v : NodeState) : (s.setNode n v).free = s.free := rfl
@[simp] theorem State.setNode_pending (n : Nat) (v : NodeState) : (s.setNode n v).pending = s.pending := rfl

/-! ### setBasin -/

@[simp] theorem State.setBasin_fuses (b : Nat) (v : Basin) : (s.setBasin b v).fuses = s.fuses := rfl
@[simp] theorem State.setBasin_aon (b : Nat) (v : Basin) : (s.setBasin b v).aon = s.aon := rfl
@[simp] theorem State.setBasin_boot (b : Nat) (v : Basin) : (s.setBasin b v).boot = s.boot := rfl
@[simp] theorem State.setBasin_settings (b : Nat) (v : Basin) : (s.setBasin b v).settings = s.settings := rfl
@[simp] theorem State.setBasin_eps (b : Nat) (v : Basin) : (s.setBasin b v).eps = s.eps := rfl
@[simp] theorem State.setBasin_svc (b : Nat) (v : Basin) : (s.setBasin b v).svc = s.svc := rfl
@[simp] theorem State.setBasin_head (b : Nat) (v : Basin) : (s.setBasin b v).head = s.head := rfl
@[simp] theorem State.setBasin_links (b : Nat) (v : Basin) : (s.setBasin b v).links = s.links := rfl
@[simp] theorem State.setBasin_leat (b : Nat) (v : Basin) : (s.setBasin b v).leat = s.leat := rfl
@[simp] theorem State.setBasin_tap (b : Nat) (v : Basin) : (s.setBasin b v).tap = s.tap := rfl
@[simp] theorem State.setBasin_fw (b : Nat) (v : Basin) : (s.setBasin b v).fw = s.fw := rfl
@[simp] theorem State.setBasin_fabric (b : Nat) (v : Basin) : (s.setBasin b v).fabric = s.fabric := rfl
@[simp] theorem State.setBasin_time (b : Nat) (v : Basin) : (s.setBasin b v).time = s.time := rfl
@[simp] theorem State.setBasin_ledger (b : Nat) (v : Basin) : (s.setBasin b v).ledger = s.ledger := rfl
@[simp] theorem State.setBasin_store (b : Nat) (v : Basin) : (s.setBasin b v).store = s.store := rfl
@[simp] theorem State.setBasin_gateUnit (b : Nat) (v : Basin) : (s.setBasin b v).gateUnit = s.gateUnit := rfl
@[simp] theorem State.setBasin_dma (b : Nat) (v : Basin) : (s.setBasin b v).dma = s.dma := rfl
@[simp] theorem State.setBasin_seize (b : Nat) (v : Basin) : (s.setBasin b v).seize = s.seize := rfl
@[simp] theorem State.setBasin_sent (b : Nat) (v : Basin) : (s.setBasin b v).sent = s.sent := rfl
@[simp] theorem State.setBasin_free (b : Nat) (v : Basin) : (s.setBasin b v).free = s.free := rfl
@[simp] theorem State.setBasin_pending (b : Nat) (v : Basin) : (s.setBasin b v).pending = s.pending := rfl

/-! ### setSeg -/

@[simp] theorem State.setSeg_fuses (k : Nat) (v : Segment) : (s.setSeg k v).fuses = s.fuses := rfl
@[simp] theorem State.setSeg_aon (k : Nat) (v : Segment) : (s.setSeg k v).aon = s.aon := rfl
@[simp] theorem State.setSeg_boot (k : Nat) (v : Segment) : (s.setSeg k v).boot = s.boot := rfl
@[simp] theorem State.setSeg_settings (k : Nat) (v : Segment) : (s.setSeg k v).settings = s.settings := rfl
@[simp] theorem State.setSeg_eps (k : Nat) (v : Segment) : (s.setSeg k v).eps = s.eps := rfl
@[simp] theorem State.setSeg_svc (k : Nat) (v : Segment) : (s.setSeg k v).svc = s.svc := rfl
@[simp] theorem State.setSeg_head (k : Nat) (v : Segment) : (s.setSeg k v).head = s.head := rfl
@[simp] theorem State.setSeg_links (k : Nat) (v : Segment) : (s.setSeg k v).links = s.links := rfl
@[simp] theorem State.setSeg_leat (k : Nat) (v : Segment) : (s.setSeg k v).leat = s.leat := rfl
@[simp] theorem State.setSeg_tap (k : Nat) (v : Segment) : (s.setSeg k v).tap = s.tap := rfl
@[simp] theorem State.setSeg_fw (k : Nat) (v : Segment) : (s.setSeg k v).fw = s.fw := rfl
@[simp] theorem State.setSeg_fabric (k : Nat) (v : Segment) : (s.setSeg k v).fabric = s.fabric := rfl
@[simp] theorem State.setSeg_time (k : Nat) (v : Segment) : (s.setSeg k v).time = s.time := rfl
@[simp] theorem State.setSeg_ledger (k : Nat) (v : Segment) : (s.setSeg k v).ledger = s.ledger := rfl
@[simp] theorem State.setSeg_die (k : Nat) (v : Segment) : (s.setSeg k v).die = s.die := rfl
@[simp] theorem State.setSeg_gateUnit (k : Nat) (v : Segment) : (s.setSeg k v).gateUnit = s.gateUnit := rfl
@[simp] theorem State.setSeg_dma (k : Nat) (v : Segment) : (s.setSeg k v).dma = s.dma := rfl
@[simp] theorem State.setSeg_seize (k : Nat) (v : Segment) : (s.setSeg k v).seize = s.seize := rfl
@[simp] theorem State.setSeg_sent (k : Nat) (v : Segment) : (s.setSeg k v).sent = s.sent := rfl
@[simp] theorem State.setSeg_free (k : Nat) (v : Segment) : (s.setSeg k v).free = s.free := rfl
@[simp] theorem State.setSeg_pending (k : Nat) (v : Segment) : (s.setSeg k v).pending = s.pending := rfl

/-! ### setGate -/

@[simp] theorem State.setGate_fuses (g : Nat) (v : Gate) : (s.setGate g v).fuses = s.fuses := rfl
@[simp] theorem State.setGate_aon (g : Nat) (v : Gate) : (s.setGate g v).aon = s.aon := rfl
@[simp] theorem State.setGate_boot (g : Nat) (v : Gate) : (s.setGate g v).boot = s.boot := rfl
@[simp] theorem State.setGate_settings (g : Nat) (v : Gate) : (s.setGate g v).settings = s.settings := rfl
@[simp] theorem State.setGate_eps (g : Nat) (v : Gate) : (s.setGate g v).eps = s.eps := rfl
@[simp] theorem State.setGate_svc (g : Nat) (v : Gate) : (s.setGate g v).svc = s.svc := rfl
@[simp] theorem State.setGate_head (g : Nat) (v : Gate) : (s.setGate g v).head = s.head := rfl
@[simp] theorem State.setGate_links (g : Nat) (v : Gate) : (s.setGate g v).links = s.links := rfl
@[simp] theorem State.setGate_leat (g : Nat) (v : Gate) : (s.setGate g v).leat = s.leat := rfl
@[simp] theorem State.setGate_tap (g : Nat) (v : Gate) : (s.setGate g v).tap = s.tap := rfl
@[simp] theorem State.setGate_fw (g : Nat) (v : Gate) : (s.setGate g v).fw = s.fw := rfl
@[simp] theorem State.setGate_fabric (g : Nat) (v : Gate) : (s.setGate g v).fabric = s.fabric := rfl
@[simp] theorem State.setGate_time (g : Nat) (v : Gate) : (s.setGate g v).time = s.time := rfl
@[simp] theorem State.setGate_ledger (g : Nat) (v : Gate) : (s.setGate g v).ledger = s.ledger := rfl
@[simp] theorem State.setGate_die (g : Nat) (v : Gate) : (s.setGate g v).die = s.die := rfl
@[simp] theorem State.setGate_store (g : Nat) (v : Gate) : (s.setGate g v).store = s.store := rfl
@[simp] theorem State.setGate_dma (g : Nat) (v : Gate) : (s.setGate g v).dma = s.dma := rfl
@[simp] theorem State.setGate_seize (g : Nat) (v : Gate) : (s.setGate g v).seize = s.seize := rfl
@[simp] theorem State.setGate_sent (g : Nat) (v : Gate) : (s.setGate g v).sent = s.sent := rfl
@[simp] theorem State.setGate_free (g : Nat) (v : Gate) : (s.setGate g v).free = s.free := rfl
@[simp] theorem State.setGate_pending (g : Nat) (v : Gate) : (s.setGate g v).pending = s.pending := rfl

/-! ### setWindow -/

@[simp] theorem State.setWindow_fuses (w : Nat) (v : Window) : (s.setWindow w v).fuses = s.fuses := rfl
@[simp] theorem State.setWindow_aon (w : Nat) (v : Window) : (s.setWindow w v).aon = s.aon := rfl
@[simp] theorem State.setWindow_boot (w : Nat) (v : Window) : (s.setWindow w v).boot = s.boot := rfl
@[simp] theorem State.setWindow_settings (w : Nat) (v : Window) : (s.setWindow w v).settings = s.settings := rfl
@[simp] theorem State.setWindow_eps (w : Nat) (v : Window) : (s.setWindow w v).eps = s.eps := rfl
@[simp] theorem State.setWindow_svc (w : Nat) (v : Window) : (s.setWindow w v).svc = s.svc := rfl
@[simp] theorem State.setWindow_head (w : Nat) (v : Window) : (s.setWindow w v).head = s.head := rfl
@[simp] theorem State.setWindow_links (w : Nat) (v : Window) : (s.setWindow w v).links = s.links := rfl
@[simp] theorem State.setWindow_leat (w : Nat) (v : Window) : (s.setWindow w v).leat = s.leat := rfl
@[simp] theorem State.setWindow_tap (w : Nat) (v : Window) : (s.setWindow w v).tap = s.tap := rfl
@[simp] theorem State.setWindow_fw (w : Nat) (v : Window) : (s.setWindow w v).fw = s.fw := rfl
@[simp] theorem State.setWindow_fabric (w : Nat) (v : Window) : (s.setWindow w v).fabric = s.fabric := rfl
@[simp] theorem State.setWindow_time (w : Nat) (v : Window) : (s.setWindow w v).time = s.time := rfl
@[simp] theorem State.setWindow_ledger (w : Nat) (v : Window) : (s.setWindow w v).ledger = s.ledger := rfl
@[simp] theorem State.setWindow_die (w : Nat) (v : Window) : (s.setWindow w v).die = s.die := rfl
@[simp] theorem State.setWindow_store (w : Nat) (v : Window) : (s.setWindow w v).store = s.store := rfl
@[simp] theorem State.setWindow_gateUnit (w : Nat) (v : Window) : (s.setWindow w v).gateUnit = s.gateUnit := rfl
@[simp] theorem State.setWindow_seize (w : Nat) (v : Window) : (s.setWindow w v).seize = s.seize := rfl
@[simp] theorem State.setWindow_sent (w : Nat) (v : Window) : (s.setWindow w v).sent = s.sent := rfl
@[simp] theorem State.setWindow_free (w : Nat) (v : Window) : (s.setWindow w v).free = s.free := rfl
@[simp] theorem State.setWindow_pending (w : Nat) (v : Window) : (s.setWindow w v).pending = s.pending := rfl

/-! ### setChan -/

@[simp] theorem State.setChan_fuses (c : Nat) (v : Channel) : (s.setChan c v).fuses = s.fuses := rfl
@[simp] theorem State.setChan_aon (c : Nat) (v : Channel) : (s.setChan c v).aon = s.aon := rfl
@[simp] theorem State.setChan_boot (c : Nat) (v : Channel) : (s.setChan c v).boot = s.boot := rfl
@[simp] theorem State.setChan_settings (c : Nat) (v : Channel) : (s.setChan c v).settings = s.settings := rfl
@[simp] theorem State.setChan_eps (c : Nat) (v : Channel) : (s.setChan c v).eps = s.eps := rfl
@[simp] theorem State.setChan_svc (c : Nat) (v : Channel) : (s.setChan c v).svc = s.svc := rfl
@[simp] theorem State.setChan_head (c : Nat) (v : Channel) : (s.setChan c v).head = s.head := rfl
@[simp] theorem State.setChan_links (c : Nat) (v : Channel) : (s.setChan c v).links = s.links := rfl
@[simp] theorem State.setChan_leat (c : Nat) (v : Channel) : (s.setChan c v).leat = s.leat := rfl
@[simp] theorem State.setChan_tap (c : Nat) (v : Channel) : (s.setChan c v).tap = s.tap := rfl
@[simp] theorem State.setChan_fw (c : Nat) (v : Channel) : (s.setChan c v).fw = s.fw := rfl
@[simp] theorem State.setChan_fabric (c : Nat) (v : Channel) : (s.setChan c v).fabric = s.fabric := rfl
@[simp] theorem State.setChan_time (c : Nat) (v : Channel) : (s.setChan c v).time = s.time := rfl
@[simp] theorem State.setChan_ledger (c : Nat) (v : Channel) : (s.setChan c v).ledger = s.ledger := rfl
@[simp] theorem State.setChan_die (c : Nat) (v : Channel) : (s.setChan c v).die = s.die := rfl
@[simp] theorem State.setChan_store (c : Nat) (v : Channel) : (s.setChan c v).store = s.store := rfl
@[simp] theorem State.setChan_gateUnit (c : Nat) (v : Channel) : (s.setChan c v).gateUnit = s.gateUnit := rfl
@[simp] theorem State.setChan_seize (c : Nat) (v : Channel) : (s.setChan c v).seize = s.seize := rfl
@[simp] theorem State.setChan_sent (c : Nat) (v : Channel) : (s.setChan c v).sent = s.sent := rfl
@[simp] theorem State.setChan_free (c : Nat) (v : Channel) : (s.setChan c v).free = s.free := rfl
@[simp] theorem State.setChan_pending (c : Nat) (v : Channel) : (s.setChan c v).pending = s.pending := rfl

/-! ### setMem -/

@[simp] theorem State.setMem_fuses (m : Memory) : (s.setMem m).fuses = s.fuses := rfl
@[simp] theorem State.setMem_aon (m : Memory) : (s.setMem m).aon = s.aon := rfl
@[simp] theorem State.setMem_boot (m : Memory) : (s.setMem m).boot = s.boot := rfl
@[simp] theorem State.setMem_settings (m : Memory) : (s.setMem m).settings = s.settings := rfl
@[simp] theorem State.setMem_eps (m : Memory) : (s.setMem m).eps = s.eps := rfl
@[simp] theorem State.setMem_svc (m : Memory) : (s.setMem m).svc = s.svc := rfl
@[simp] theorem State.setMem_head (m : Memory) : (s.setMem m).head = s.head := rfl
@[simp] theorem State.setMem_links (m : Memory) : (s.setMem m).links = s.links := rfl
@[simp] theorem State.setMem_leat (m : Memory) : (s.setMem m).leat = s.leat := rfl
@[simp] theorem State.setMem_tap (m : Memory) : (s.setMem m).tap = s.tap := rfl
@[simp] theorem State.setMem_fw (m : Memory) : (s.setMem m).fw = s.fw := rfl
@[simp] theorem State.setMem_fabric (m : Memory) : (s.setMem m).fabric = s.fabric := rfl
@[simp] theorem State.setMem_time (m : Memory) : (s.setMem m).time = s.time := rfl
@[simp] theorem State.setMem_ledger (m : Memory) : (s.setMem m).ledger = s.ledger := rfl
@[simp] theorem State.setMem_die (m : Memory) : (s.setMem m).die = s.die := rfl
@[simp] theorem State.setMem_gateUnit (m : Memory) : (s.setMem m).gateUnit = s.gateUnit := rfl
@[simp] theorem State.setMem_dma (m : Memory) : (s.setMem m).dma = s.dma := rfl
@[simp] theorem State.setMem_seize (m : Memory) : (s.setMem m).seize = s.seize := rfl
@[simp] theorem State.setMem_sent (m : Memory) : (s.setMem m).sent = s.sent := rfl
@[simp] theorem State.setMem_free (m : Memory) : (s.setMem m).free = s.free := rfl
@[simp] theorem State.setMem_pending (m : Memory) : (s.setMem m).pending = s.pending := rfl

/-! ### setLedger -/

@[simp] theorem State.setLedger_fuses (l : Ledger) : (s.setLedger l).fuses = s.fuses := rfl
@[simp] theorem State.setLedger_aon (l : Ledger) : (s.setLedger l).aon = s.aon := rfl
@[simp] theorem State.setLedger_boot (l : Ledger) : (s.setLedger l).boot = s.boot := rfl
@[simp] theorem State.setLedger_settings (l : Ledger) : (s.setLedger l).settings = s.settings := rfl
@[simp] theorem State.setLedger_eps (l : Ledger) : (s.setLedger l).eps = s.eps := rfl
@[simp] theorem State.setLedger_svc (l : Ledger) : (s.setLedger l).svc = s.svc := rfl
@[simp] theorem State.setLedger_head (l : Ledger) : (s.setLedger l).head = s.head := rfl
@[simp] theorem State.setLedger_links (l : Ledger) : (s.setLedger l).links = s.links := rfl
@[simp] theorem State.setLedger_leat (l : Ledger) : (s.setLedger l).leat = s.leat := rfl
@[simp] theorem State.setLedger_tap (l : Ledger) : (s.setLedger l).tap = s.tap := rfl
@[simp] theorem State.setLedger_fw (l : Ledger) : (s.setLedger l).fw = s.fw := rfl
@[simp] theorem State.setLedger_fabric (l : Ledger) : (s.setLedger l).fabric = s.fabric := rfl
@[simp] theorem State.setLedger_time (l : Ledger) : (s.setLedger l).time = s.time := rfl
@[simp] theorem State.setLedger_die (l : Ledger) : (s.setLedger l).die = s.die := rfl
@[simp] theorem State.setLedger_store (l : Ledger) : (s.setLedger l).store = s.store := rfl
@[simp] theorem State.setLedger_gateUnit (l : Ledger) : (s.setLedger l).gateUnit = s.gateUnit := rfl
@[simp] theorem State.setLedger_dma (l : Ledger) : (s.setLedger l).dma = s.dma := rfl
@[simp] theorem State.setLedger_seize (l : Ledger) : (s.setLedger l).seize = s.seize := rfl
@[simp] theorem State.setLedger_sent (l : Ledger) : (s.setLedger l).sent = s.sent := rfl
@[simp] theorem State.setLedger_free (l : Ledger) : (s.setLedger l).free = s.free := rfl
@[simp] theorem State.setLedger_pending (l : Ledger) : (s.setLedger l).pending = s.pending := rfl

/-! ### setEp -/

@[simp] theorem State.setEp_fuses (e : Nat) (v : Endpoint) : (s.setEp e v).fuses = s.fuses := rfl
@[simp] theorem State.setEp_aon (e : Nat) (v : Endpoint) : (s.setEp e v).aon = s.aon := rfl
@[simp] theorem State.setEp_boot (e : Nat) (v : Endpoint) : (s.setEp e v).boot = s.boot := rfl
@[simp] theorem State.setEp_settings (e : Nat) (v : Endpoint) : (s.setEp e v).settings = s.settings := rfl
@[simp] theorem State.setEp_svc (e : Nat) (v : Endpoint) : (s.setEp e v).svc = s.svc := rfl
@[simp] theorem State.setEp_head (e : Nat) (v : Endpoint) : (s.setEp e v).head = s.head := rfl
@[simp] theorem State.setEp_links (e : Nat) (v : Endpoint) : (s.setEp e v).links = s.links := rfl
@[simp] theorem State.setEp_leat (e : Nat) (v : Endpoint) : (s.setEp e v).leat = s.leat := rfl
@[simp] theorem State.setEp_tap (e : Nat) (v : Endpoint) : (s.setEp e v).tap = s.tap := rfl
@[simp] theorem State.setEp_fw (e : Nat) (v : Endpoint) : (s.setEp e v).fw = s.fw := rfl
@[simp] theorem State.setEp_fabric (e : Nat) (v : Endpoint) : (s.setEp e v).fabric = s.fabric := rfl
@[simp] theorem State.setEp_time (e : Nat) (v : Endpoint) : (s.setEp e v).time = s.time := rfl
@[simp] theorem State.setEp_ledger (e : Nat) (v : Endpoint) : (s.setEp e v).ledger = s.ledger := rfl
@[simp] theorem State.setEp_die (e : Nat) (v : Endpoint) : (s.setEp e v).die = s.die := rfl
@[simp] theorem State.setEp_store (e : Nat) (v : Endpoint) : (s.setEp e v).store = s.store := rfl
@[simp] theorem State.setEp_gateUnit (e : Nat) (v : Endpoint) : (s.setEp e v).gateUnit = s.gateUnit := rfl
@[simp] theorem State.setEp_dma (e : Nat) (v : Endpoint) : (s.setEp e v).dma = s.dma := rfl
@[simp] theorem State.setEp_seize (e : Nat) (v : Endpoint) : (s.setEp e v).seize = s.seize := rfl
@[simp] theorem State.setEp_sent (e : Nat) (v : Endpoint) : (s.setEp e v).sent = s.sent := rfl
@[simp] theorem State.setEp_free (e : Nat) (v : Endpoint) : (s.setEp e v).free = s.free := rfl
@[simp] theorem State.setEp_pending (e : Nat) (v : Endpoint) : (s.setEp e v).pending = s.pending := rfl

/-! ### setFabric -/

@[simp] theorem State.setFabric_fuses (f : Fabric) : (s.setFabric f).fuses = s.fuses := rfl
@[simp] theorem State.setFabric_aon (f : Fabric) : (s.setFabric f).aon = s.aon := rfl
@[simp] theorem State.setFabric_boot (f : Fabric) : (s.setFabric f).boot = s.boot := rfl
@[simp] theorem State.setFabric_settings (f : Fabric) : (s.setFabric f).settings = s.settings := rfl
@[simp] theorem State.setFabric_eps (f : Fabric) : (s.setFabric f).eps = s.eps := rfl
@[simp] theorem State.setFabric_svc (f : Fabric) : (s.setFabric f).svc = s.svc := rfl
@[simp] theorem State.setFabric_head (f : Fabric) : (s.setFabric f).head = s.head := rfl
@[simp] theorem State.setFabric_links (f : Fabric) : (s.setFabric f).links = s.links := rfl
@[simp] theorem State.setFabric_leat (f : Fabric) : (s.setFabric f).leat = s.leat := rfl
@[simp] theorem State.setFabric_tap (f : Fabric) : (s.setFabric f).tap = s.tap := rfl
@[simp] theorem State.setFabric_fw (f : Fabric) : (s.setFabric f).fw = s.fw := rfl
@[simp] theorem State.setFabric_time (f : Fabric) : (s.setFabric f).time = s.time := rfl
@[simp] theorem State.setFabric_ledger (f : Fabric) : (s.setFabric f).ledger = s.ledger := rfl
@[simp] theorem State.setFabric_die (f : Fabric) : (s.setFabric f).die = s.die := rfl
@[simp] theorem State.setFabric_store (f : Fabric) : (s.setFabric f).store = s.store := rfl
@[simp] theorem State.setFabric_gateUnit (f : Fabric) : (s.setFabric f).gateUnit = s.gateUnit := rfl
@[simp] theorem State.setFabric_dma (f : Fabric) : (s.setFabric f).dma = s.dma := rfl
@[simp] theorem State.setFabric_seize (f : Fabric) : (s.setFabric f).seize = s.seize := rfl
@[simp] theorem State.setFabric_sent (f : Fabric) : (s.setFabric f).sent = s.sent := rfl
@[simp] theorem State.setFabric_free (f : Fabric) : (s.setFabric f).free = s.free := rfl
@[simp] theorem State.setFabric_pending (f : Fabric) : (s.setFabric f).pending = s.pending := rfl

/-! ### setPort -/

@[simp] theorem State.setPort_fuses (q : Nat) (p : Port) : (s.setPort q p).fuses = s.fuses := rfl
@[simp] theorem State.setPort_aon (q : Nat) (p : Port) : (s.setPort q p).aon = s.aon := rfl
@[simp] theorem State.setPort_boot (q : Nat) (p : Port) : (s.setPort q p).boot = s.boot := rfl
@[simp] theorem State.setPort_settings (q : Nat) (p : Port) : (s.setPort q p).settings = s.settings := rfl
@[simp] theorem State.setPort_eps (q : Nat) (p : Port) : (s.setPort q p).eps = s.eps := rfl
@[simp] theorem State.setPort_svc (q : Nat) (p : Port) : (s.setPort q p).svc = s.svc := rfl
@[simp] theorem State.setPort_head (q : Nat) (p : Port) : (s.setPort q p).head = s.head := rfl
@[simp] theorem State.setPort_leat (q : Nat) (p : Port) : (s.setPort q p).leat = s.leat := rfl
@[simp] theorem State.setPort_tap (q : Nat) (p : Port) : (s.setPort q p).tap = s.tap := rfl
@[simp] theorem State.setPort_fw (q : Nat) (p : Port) : (s.setPort q p).fw = s.fw := rfl
@[simp] theorem State.setPort_fabric (q : Nat) (p : Port) : (s.setPort q p).fabric = s.fabric := rfl
@[simp] theorem State.setPort_time (q : Nat) (p : Port) : (s.setPort q p).time = s.time := rfl
@[simp] theorem State.setPort_ledger (q : Nat) (p : Port) : (s.setPort q p).ledger = s.ledger := rfl
@[simp] theorem State.setPort_die (q : Nat) (p : Port) : (s.setPort q p).die = s.die := rfl
@[simp] theorem State.setPort_store (q : Nat) (p : Port) : (s.setPort q p).store = s.store := rfl
@[simp] theorem State.setPort_gateUnit (q : Nat) (p : Port) : (s.setPort q p).gateUnit = s.gateUnit := rfl
@[simp] theorem State.setPort_dma (q : Nat) (p : Port) : (s.setPort q p).dma = s.dma := rfl
@[simp] theorem State.setPort_seize (q : Nat) (p : Port) : (s.setPort q p).seize = s.seize := rfl
@[simp] theorem State.setPort_sent (q : Nat) (p : Port) : (s.setPort q p).sent = s.sent := rfl
@[simp] theorem State.setPort_free (q : Nat) (p : Port) : (s.setPort q p).free = s.free := rfl
@[simp] theorem State.setPort_pending (q : Nat) (p : Port) : (s.setPort q p).pending = s.pending := rfl

/-! ### emit -/

@[simp] theorem State.emit_fuses (m : Sent) : (s.emit m).fuses = s.fuses := rfl
@[simp] theorem State.emit_aon (m : Sent) : (s.emit m).aon = s.aon := rfl
@[simp] theorem State.emit_boot (m : Sent) : (s.emit m).boot = s.boot := rfl
@[simp] theorem State.emit_settings (m : Sent) : (s.emit m).settings = s.settings := rfl
@[simp] theorem State.emit_eps (m : Sent) : (s.emit m).eps = s.eps := rfl
@[simp] theorem State.emit_svc (m : Sent) : (s.emit m).svc = s.svc := rfl
@[simp] theorem State.emit_head (m : Sent) : (s.emit m).head = s.head := rfl
@[simp] theorem State.emit_links (m : Sent) : (s.emit m).links = s.links := rfl
@[simp] theorem State.emit_leat (m : Sent) : (s.emit m).leat = s.leat := rfl
@[simp] theorem State.emit_tap (m : Sent) : (s.emit m).tap = s.tap := rfl
@[simp] theorem State.emit_fw (m : Sent) : (s.emit m).fw = s.fw := rfl
@[simp] theorem State.emit_fabric (m : Sent) : (s.emit m).fabric = s.fabric := rfl
@[simp] theorem State.emit_time (m : Sent) : (s.emit m).time = s.time := rfl
@[simp] theorem State.emit_ledger (m : Sent) : (s.emit m).ledger = s.ledger := rfl
@[simp] theorem State.emit_die (m : Sent) : (s.emit m).die = s.die := rfl
@[simp] theorem State.emit_store (m : Sent) : (s.emit m).store = s.store := rfl
@[simp] theorem State.emit_gateUnit (m : Sent) : (s.emit m).gateUnit = s.gateUnit := rfl
@[simp] theorem State.emit_dma (m : Sent) : (s.emit m).dma = s.dma := rfl
@[simp] theorem State.emit_seize (m : Sent) : (s.emit m).seize = s.seize := rfl
@[simp] theorem State.emit_free (m : Sent) : (s.emit m).free = s.free := rfl
@[simp] theorem State.emit_pending (m : Sent) : (s.emit m).pending = s.pending := rfl

/-! ### write -/

@[simp] theorem State.write_fuses (a : Nat) (l : List Byte) : (s.write a l).fuses = s.fuses := rfl
@[simp] theorem State.write_aon (a : Nat) (l : List Byte) : (s.write a l).aon = s.aon := rfl
@[simp] theorem State.write_boot (a : Nat) (l : List Byte) : (s.write a l).boot = s.boot := rfl
@[simp] theorem State.write_settings (a : Nat) (l : List Byte) : (s.write a l).settings = s.settings := rfl
@[simp] theorem State.write_eps (a : Nat) (l : List Byte) : (s.write a l).eps = s.eps := rfl
@[simp] theorem State.write_svc (a : Nat) (l : List Byte) : (s.write a l).svc = s.svc := rfl
@[simp] theorem State.write_head (a : Nat) (l : List Byte) : (s.write a l).head = s.head := rfl
@[simp] theorem State.write_links (a : Nat) (l : List Byte) : (s.write a l).links = s.links := rfl
@[simp] theorem State.write_leat (a : Nat) (l : List Byte) : (s.write a l).leat = s.leat := rfl
@[simp] theorem State.write_tap (a : Nat) (l : List Byte) : (s.write a l).tap = s.tap := rfl
@[simp] theorem State.write_fw (a : Nat) (l : List Byte) : (s.write a l).fw = s.fw := rfl
@[simp] theorem State.write_fabric (a : Nat) (l : List Byte) : (s.write a l).fabric = s.fabric := rfl
@[simp] theorem State.write_time (a : Nat) (l : List Byte) : (s.write a l).time = s.time := rfl
@[simp] theorem State.write_ledger (a : Nat) (l : List Byte) : (s.write a l).ledger = s.ledger := rfl
@[simp] theorem State.write_die (a : Nat) (l : List Byte) : (s.write a l).die = s.die := rfl
@[simp] theorem State.write_gateUnit (a : Nat) (l : List Byte) : (s.write a l).gateUnit = s.gateUnit := rfl
@[simp] theorem State.write_dma (a : Nat) (l : List Byte) : (s.write a l).dma = s.dma := rfl
@[simp] theorem State.write_seize (a : Nat) (l : List Byte) : (s.write a l).seize = s.seize := rfl
@[simp] theorem State.write_sent (a : Nat) (l : List Byte) : (s.write a l).sent = s.sent := rfl
@[simp] theorem State.write_free (a : Nat) (l : List Byte) : (s.write a l).free = s.free := rfl
@[simp] theorem State.write_pending (a : Nat) (l : List Byte) : (s.write a l).pending = s.pending := rfl

/-! ### forget -/

@[simp] theorem State.forget_fuses (a n : Nat) : (s.forget a n).fuses = s.fuses := rfl
@[simp] theorem State.forget_aon (a n : Nat) : (s.forget a n).aon = s.aon := rfl
@[simp] theorem State.forget_boot (a n : Nat) : (s.forget a n).boot = s.boot := rfl
@[simp] theorem State.forget_settings (a n : Nat) : (s.forget a n).settings = s.settings := rfl
@[simp] theorem State.forget_eps (a n : Nat) : (s.forget a n).eps = s.eps := rfl
@[simp] theorem State.forget_svc (a n : Nat) : (s.forget a n).svc = s.svc := rfl
@[simp] theorem State.forget_head (a n : Nat) : (s.forget a n).head = s.head := rfl
@[simp] theorem State.forget_links (a n : Nat) : (s.forget a n).links = s.links := rfl
@[simp] theorem State.forget_leat (a n : Nat) : (s.forget a n).leat = s.leat := rfl
@[simp] theorem State.forget_tap (a n : Nat) : (s.forget a n).tap = s.tap := rfl
@[simp] theorem State.forget_fw (a n : Nat) : (s.forget a n).fw = s.fw := rfl
@[simp] theorem State.forget_fabric (a n : Nat) : (s.forget a n).fabric = s.fabric := rfl
@[simp] theorem State.forget_time (a n : Nat) : (s.forget a n).time = s.time := rfl
@[simp] theorem State.forget_ledger (a n : Nat) : (s.forget a n).ledger = s.ledger := rfl
@[simp] theorem State.forget_die (a n : Nat) : (s.forget a n).die = s.die := rfl
@[simp] theorem State.forget_gateUnit (a n : Nat) : (s.forget a n).gateUnit = s.gateUnit := rfl
@[simp] theorem State.forget_dma (a n : Nat) : (s.forget a n).dma = s.dma := rfl
@[simp] theorem State.forget_seize (a n : Nat) : (s.forget a n).seize = s.seize := rfl
@[simp] theorem State.forget_sent (a n : Nat) : (s.forget a n).sent = s.sent := rfl
@[simp] theorem State.forget_free (a n : Nat) : (s.forget a n).free = s.free := rfl
@[simp] theorem State.forget_pending (a n : Nat) : (s.forget a n).pending = s.pending := rfl

/-! ### Reads after updates -/

@[simp] theorem State.core_setCore (n : Nat) (c : Core) : (s.setCore n c).core n = c := tget_tput_same _ _ _ _
theorem State.core_setCore_ne {m n : Nat} (h : m ≠ n) (c : Core) : (s.setCore n c).core m = s.core m := tget_tput_ne _ _ h _
@[simp] theorem State.setCore_setCore (n : Nat) (c d : Core) : (s.setCore n c).setCore n d = s.setCore n d := by
  simp [State.setCore]
@[simp] theorem State.basin_setCore (n b : Nat) (c : Core) : (s.setCore n c).basin b = s.basin b := rfl
@[simp] theorem State.node_setCore (n m : Nat) (c : Core) : (s.setCore n c).node m = s.node m := rfl
@[simp] theorem State.logical_setCore (n m : Nat) (c : Core) : (s.setCore n c).logical m = s.logical m := rfl
@[simp] theorem State.basin_setBasin (b : Nat) (v : Basin) : (s.setBasin b v).basin b = v := tget_tput_same _ _ _ _
theorem State.basin_setBasin_ne {a b : Nat} (h : a ≠ b) (v : Basin) : (s.setBasin b v).basin a = s.basin a := tget_tput_ne _ _ h _
@[simp] theorem State.core_setBasin (n b : Nat) (v : Basin) : (s.setBasin b v).core n = s.core n := rfl
@[simp] theorem State.seg_setSeg (k : Nat) (v : Segment) : (s.setSeg k v).seg k = v := tget_tput_same _ _ _ _
theorem State.seg_setSeg_ne {j k : Nat} (h : j ≠ k) (v : Segment) : (s.setSeg k v).seg j = s.seg j := tget_tput_ne _ _ h _
@[simp] theorem State.gate_setGate (g : Nat) (v : Gate) : (s.setGate g v).gate g = v := tget_tput_same _ _ _ _
theorem State.gate_setGate_ne {j g : Nat} (h : j ≠ g) (v : Gate) : (s.setGate g v).gate j = s.gate j := tget_tput_ne _ _ h _
@[simp] theorem State.window_setWindow (w : Nat) (v : Window) : (s.setWindow w v).window w = v := tget_tput_same _ _ _ _
theorem State.window_setWindow_ne {j w : Nat} (h : j ≠ w) (v : Window) : (s.setWindow w v).window j = s.window j := tget_tput_ne _ _ h _
@[simp] theorem State.chan_setChan (c : Nat) (v : Channel) : (s.setChan c v).chan c = v := tget_tput_same _ _ _ _
theorem State.chan_setChan_ne {j c : Nat} (h : j ≠ c) (v : Channel) : (s.setChan c v).chan j = s.chan j := tget_tput_ne _ _ h _
@[simp] theorem State.ep_setEp (e : Nat) (v : Endpoint) : (s.setEp e v).ep e = v := tget_tput_same _ _ _ _
theorem State.ep_setEp_ne {j e : Nat} (h : j ≠ e) (v : Endpoint) : (s.setEp e v).ep j = s.ep j := tget_tput_ne _ _ h _
@[simp] theorem State.port_setPort (q : Nat) (p : Port) : (s.setPort q p).port q = p := tget_tput_same _ _ _ _
theorem State.port_setPort_ne {j q : Nat} (h : j ≠ q) (p : Port) : (s.setPort q p).port j = s.port j := tget_tput_ne _ _ h _

end Sys2Proof.Machine
end

