-- ==== Sys2Proof/Laws/Slots.lean ====
section
/-! SUPPORT. A slot row on a ready core: what its checks find, and what the bundle leaves when the slot issues. -/

namespace Sys2Proof.Machine

variable {s : State} {n b : Nat}

/-- A slot row is a bundle that holds its operation alone. -/
theorem exec_slotRow (i : Instr) (n k : Nat) (p : Pred) (op : Op) (s : State) (h : slotRow i = some (n, k, p, op)) :
    exec i s = .next (issueOne n k p op s) := by
  unfold slotRow at h
  split at h <;> first | (cases h; rfl) | (simp at h)

theorem Ready.group (h : Ready s n b) : issueGroup s n = [n] := by simp [issueGroup, h.basin, h.cluster]

theorem Ready.running (h : Ready s n b) : (s.core n).run = .running := by
  have := h.may
  simp [mayIssue, leads] at this
  simp_all

theorem Ready.captured (h : Ready s n b) : capturedOf s n = (s.core n).capture := by simp [capturedOf, h.held]

/-- The end of a bundle without branch, off the end of every loop. -/
theorem finishBundle_next (s : State) (n : Nat) (c : Core) (hr : c.run = .running) (ho : c.lc0.count = 0)
    (hi : c.lc1.count = 0) (hs : c.stepping = false) (h0 : c.held.bind (fun x => x.branch) = none) :
    finishBundle (s.setCore n c) n [n] = s.setCore n (retireStrip c).stepped := by
  simp [finishBundle, State.modCore, hr, hs, nextBundle, loopEnd, ho, hi, h0, Core.stepped, Core.steppedTo, retireStrip]

/-- The end of a bundle with a taken branch. -/
theorem finishBundle_branch (s : State) (n : Nat) (c : Core) (t : BitVec 14) (hr : c.run = .running) (hs : c.stepping = false)
    (h0 : c.held.bind (fun x => x.branch) = some t) :
    finishBundle (s.setCore n c) n [n] = s.setCore n ((retireStrip c).steppedTo t) := by
  simp [finishBundle, State.modCore, hr, hs, nextBundle, h0, Core.steppedTo, retireStrip]

/-- A core without a strip's entries loses none when its bundle ends. -/
theorem retireStrip_none (c : Core) (h : ∀ e ∈ c.sb, e.use ≠ .instant) : retireStrip c = c := by
  have : c.sb.filter (fun e => e.use != .instant) = c.sb := List.filter_eq_self.mpr (fun e he => by simp [h e he])
  simp [retireStrip, this]

/-- On one core every scope acts by that core's predicate. -/
theorem actors_one (s : State) (n : Nat) (i : Item) (v : Snap) (h : capturedOf s n = v) :
    actors s n [n] i = if v.pred i.pred then [n] else [] := by
  unfold actors
  subst h
  cases i.op.scope <;> simp [List.filter_cons]

/-- The checks of a bundle of one operation, in their order. -/
theorem checkNode_one (s : State) (n k : Nat) (p : Pred) (op : Op) (pc : BitVec 14) (v : Snap) (h : capturedOf s n = v) :
    checkNode s n [n] pc n [⟨k, p, op⟩] =
      if predBad p || op.bad (ctxOf s n n k v pc) s then some ⟨fcBadEncoding, k, 0⟩
      else if v.pred p then (addressFault s (ctxOf s n n k v pc) op).map (fun f => ⟨f.1, k, f.2⟩) else none := by
  have hact := actors_one s n ⟨k, p, op⟩ v h
  unfold checkNode
  simp only [h, List.find?_cons, List.find?_nil, dualWrite, List.findSome?_cons, List.findSome?_nil, hact]
  by_cases hb : (predBad p || op.bad (ctxOf s n n k v pc) s) = true
  · simp [hb]
  · simp only [hb]
    by_cases hv : v.pred p = true
    · simp only [hv]; simp
      cases addressFault s (ctxOf s n n k v pc) op <;> simp
    · simp [hv]

/-- The state in which the slot of a ready core issues: its operands are captured. -/
def atIssue (s : State) (n : Nat) : State :=
  s.setCore n { s.core n with held := some { raw := 0, snap := (s.core n).capture } }

/-- A slot row of a ready core as its checks decide it. -/
theorem Ready.issueOne (hr : Ready s n b) (k : Nat) (p : Pred) (op : Op) :
    Machine.issueOne n k p op s =
      match (checkNode s n [n] (s.core n).pc n [⟨k, p, op⟩]).map (fun f => (n, f)) with
      | some f => faultBundle s [n] (s.core n).pc [f]
      | none => match issueSlots n [n] (s.core n).pc [⟨k, p, op⟩] (atIssue s n) 0 with
        | (t, _, none) => settleReads (finishBundle t n [n])
        | (_, _, some (k, h)) => s.modCore k (countStall h) := by
  have hch : op.checkSrcs.any (awaits (s.core n).capture (s.core n)) = false := by simp [awaits, hr.gops]
  unfold Machine.issueOne
  simp only [hr.may, hr.held, hr.group, hch, Option.isSome_none, Bool.not_true, Bool.or_self, Bool.false_eq_true, if_false]
  simp only [List.filterMap_cons, List.filterMap_nil]
  cases checkNode s n [n] (s.core n).pc n [⟨k, p, op⟩] <;> rfl

/-- A legal slot whose predicate is true and which nothing holds leaves the core `g`, one bundle further. -/
theorem Ready.issues (hr : Ready s n b) {i : Instr} {k : Nat} {p : Pred} {op : Op} (hi : slotRow i = some (n, k, p, op))
    (hp : predBad p = false) (hv : (s.core n).capture.pred p = true)
    (hb : op.bad (ctxOf s n n k (s.core n).capture (s.core n).pc) s = false)
    (ha : addressFault s (ctxOf s n n k (s.core n).capture (s.core n).pc) op = none)
    (hh : slotHold (atIssue s n) (ctxOf s n n k (s.core n).capture (s.core n).pc) op = none) :
    exec i s = .next (settleReads (finishBundle (issueSlot (atIssue s n) (ctxOf s n n k (s.core n).capture (s.core n).pc) op) n [n])) := by
  have hu : capturedOf (atIssue s n) n = (s.core n).capture := by simp [capturedOf, atIssue]
  have hx : ctxOf (atIssue s n) n n k (s.core n).capture (s.core n).pc = ctxOf s n n k (s.core n).capture (s.core n).pc := rfl
  have hact := actors_one (atIssue s n) n ⟨k, p, op⟩ _ hu
  rw [exec_slotRow i n k p op s hi, hr.issueOne, checkNode_one s n k p op _ _ hr.captured]
  simp [hp, hb, hv, ha, issueSlots, hact, hu, hx, hh]

/-- Where no read has detected anything the chiplet has nothing to act on. -/
theorem settleReads_none (s : State) (h : s.store.found = []) : settleReads s = s := by
  have : ({ s.store with found := [] } : Store) = s.store := by rw [← h]
  simp [settleReads, h, this]

/-- Nothing holds a slot of a ready core that reads no summary, declares no range and has no hold of its own. -/
theorem Ready.free (hr : Ready s n b) (x : Ctx) (op : Op) (hn : x.node = n) (h0 : op.ranges x (atIssue s n) = [])
    (h1 : op.hold x (atIssue s n) = none) : slotHold (atIssue s n) x op = none := by
  have hg : ((atIssue s n).core n).gops = [] := by simpa [atIssue] using hr.gops
  have hq : ((atIssue s n).core n).qPend = 0 := by simpa [atIssue] using hr.summaries
  have hs : ((atIssue s n).core n).sb = [] := by simpa [atIssue] using hr.entries
  unfold slotHold
  simp only [hn, h0, hg, hq, hs, List.map_nil, List.any_nil, Bool.and_false, List.length_nil, Nat.add_zero, h1]
  have hd : op.dests.any (destAwaits x.snap ((atIssue s n).core n)) = false := by
    rw [List.any_eq_false]
    intro d _
    cases d <;> simp [destAwaits, awaits, hg, hq, bit]
  have hsr : op.srcs.any (awaits x.snap ((atIssue s n).core n)) = false := by simp [awaits, hg]
  rw [hd, hsr]
  cases op.qsrc <;> simp [bit]

end Sys2Proof.Machine
end

