-- ==== Sys2Proof/Tests/Slice0.lean ====
section
/-! SUPPORT. Tests: ill-formed commands are refused, and for every statement states and operands that meet its hypotheses. -/

set_option Elab.async false

namespace Sys2Proof.Tests

open Sys2Proof.Machine

/-! ### A small chiplet in service -/

/-- A request on EP0 whose arguments are the fields given as slot offset, size and value. -/
def rq (l : List (Nat × Nat × Nat)) : Request :=
  { ep := 0, urgent := false, srcFa := 0, seq := 5, tenant := 7, flags := 0, argLen := 112, resv := 0
    args := (List.range 112).map (fun i => BitVec.ofNat 8
      (l.foldl (fun v f => if f.1 ≤ 16 + i ∧ 16 + i < f.1 + f.2.1 then v + f.2.2 / 256 ^ (16 + i - f.1) % 256 else v) 0)) }

/-- A work core that runs, with values in its registers. -/
def c0 : Core :=
  { run := .running, pc := 7, s := [(1, 10), (2, 3), (3, 0xFFFFFFFFFFFFFFF0), (4, 0x40400000)], a := [(1, 0x1000), (2, 0x2000)], p := 3 }

/-- A chiplet in stage 3 with FA 5: a cluster basin on nodes 0 and 1, a lattice on nodes 2 and 3, two ports that are UP. -/
def up : State :=
  { State.reset with
    boot := { stage := 3, rstLow := false, pins := ⟨5, false, false, 0⟩, passed := true, mapSet := true, tested := true, marked := true }
    aon := { rails := 0x3F, coolantLevel := true, coolantGood := true }
    fabric := { fa := 5, shape := ⟨1, 0, 0⟩, fixed := true, session := 9 }
    time := { count := 1000, locked := true, gmFa := 5, elapsed := 5000 }
    links := [(0, { state := lnUp, partnerPort := 1, partnerFa := 6, session := some 4 }), (8, { state := lnUp, partnerFa := 7 })]
    fw := { image := some { version := 1, schema := 1, size := 8192, iface := 1 } }
    die := { logical := [(0, 0), (1, 1), (2, 2), (3, 3)]
             basins := [(0, { state := .active, tenant := 7, rect := ⟨0, 0, 2, 1⟩, save := some 0 })
                        , (1, { state := .active, tenant := 8, lattice := true, rect := ⟨2, 0, 2, 1⟩, master := 2 })]
             cores := [(0, c0), (2, { c0 with pc := 9 })] }
    store := { segs := [(0, { owner := some 0, filled := true }), (1, { owner := some 0, filled := true }), (2, { owner := some 1, filled := true })] } }



/-! ### States and operands of the witnesses -/

def entry1 : LedgerEntry := { seq := 7, cmd := 0xE080 }
def ring (e : Nat) (code : W16) : State := up.setEp e { prod := 1, req := [(0, requestSlot code (rq [(16, 2, 300)]))], src := [(0, 6)] }
def urg (e : Nat) (code : W16) : State := { up.setEp e { busy := true, urgReq := requestSlot code (rq [(16, 2, 300)]), urgSrc := 6 } with svc := { urgentQ := [e] } }
def pre (w : Nat) : State := { up with svc := { normal := some { req := rq [(16, 2, w)], cmd := 0x1400, passed := true } } }
def at0 : State := { up with boot := { rstLow := false, pins := ⟨5, false, false, 0⟩ } }
def deliv : Delivery := { ep := 0, size := 69632, blocks := 17, version := 2, key := [1], phase := .verifying }
def recv : Delivery := { ep := 0, size := 69632, blocks := 17, version := 2, key := [1] }
def hov (p : HandPhase) (failed : Nat) : State := { up with aon := { up.aon with failed := failed }, fw := { up.fw with
  hand := some { phase := p, window := 2000, old := { version := 1, size := 73728 }, new := { version := 2, size := 69632 }, origin := ⟨0, false, 0, 7, 5, 0x1603⟩ }
  running := [(0, [1]), (16, [2]), (17, [3]), (18, [4])], alternate := [(16, [5]), (3, [6]), (18, [7])] }, settings := { pending := [(0x10, [1, 1])] } }
def hh (p : HandPhase) : Handover := { phase := p, window := 2000, old := { version := 1, size := 73728 }, new := { version := 2, size := 69632 }, origin := ⟨0, false, 0, 7, 5, 0x1603⟩ }
def chg (c : OpChange) : State := { up with head := { up.head with change := some c, reqNum := 3, op := 5 } }
def fc : List Nat := List.replicate 60 10 ++ [500, 400, 700, 300]
def act1 : Activity := { core := List.replicate 64 (List.replicate 20 5), dither := 1, chip := List.replicate 28 3, sramBy := List.replicate 33 [1,2,3,4,5], flumeBy := List.replicate 33 [1] }
def faultable : State := { up with die := { up.die with cores := [(0, { c0 with gops := [] })], flumeFaults := [100, 200] } }
def job : LoadJob := { src := 0x1000, len := 48, entry := 0, check := BitVec.ofNat 32 (crc32c (List.replicate 48 0)), lattice := false, clusters := 1, flags := 0, extra := 0, origin := ⟨0, false, 5, 7, 5, 0x1100⟩ }
def org : Origin := ⟨0, false, 5, 7, 5, 0x1100⟩
def part : MemPart := { dst := 0x1FFFFF00, len := 8, work := .copy 1 0 }
def mem0 : State := { up with store := { up.store with mem := {} } }
def disc9 : Disc := ⟨6, 3, 1, 1, 1, 0, 0⟩
def discOwn : Disc := ⟨5, 4, 1, 1, 1, 0, 0⟩
def fab (f : Fabric → Fabric) : State := { up with fabric := f up.fabric }
def lastRun : DiscOutcome := { num := 4, origin := some ⟨0, false, 5, 7, 5, 0x0400⟩, reached := 1, replies := [(5, 1)] }
def nom1 : Nomination := { mode := 0, ts := 9, nomFa := 6, gmFa := 6, period := 2000000 }
def tm1 : TimeMsg := { locked := true, holdover := false, defined := false, gmFa := 3, hops := 1, t1 := 100, t2 := 200, t3 := 210, defTs := 0, nomFa := 0xFFFF, period := 1000000 }
def tmState (f : TimeState → TimeState) : State := { up with time := f up.time }
def tpar : TimeState → TimeState := fun t => { t with gmFa := 3, locked := false, near := 1, fellBack := true, partners := [(0, { locked := true, gmFa := 3, hops := 1 })] }
def gMember (p : GangPhase) : Gang := { num := 2, master := 6, kind := 1, tenant := 7, basin := 0, phase := p }
def gMaster (p : GangPhase) : Gang := { num := 2, master := 5, kind := 1, tenant := 7, basin := 0, phase := p, members := [⟨5, 0⟩, ⟨6, 1⟩, ⟨7, 1⟩], origin := some ⟨0, false, 5, 7, 5, 0x0502⟩ }
def ganged (g : Gang) : State := { up with fabric := { up.fabric with gangs := [g] } }
def near (f : List W16) : State := { up with fabric := { up.fabric with active := { dest := f.map (fun k => (destIndex k, 0x2000008)) } } }
def g1 (p : GangPhase) (a b : List Nat) : Gang := { gMaster p with replied := a, acked := b }
def g2 : Gang := gMaster .active
def sf (n : BitVec 10) : SentFrame := ⟨n, 2, 2, 1, [1, 2], 0, 0, {}⟩
def port0 (f : Port → Port) : State := { up with links := [(0, f (up.port 0)), (8, { state := lnUp, partnerFa := 7 })] }
def frame1 : Frame := { vc := 2, kind := 1, cvc := 1, ccnt := 3, body := List.replicate 256 9 }
def pk (typ hops : Byte) (dst : W16) : Packet := ⟨⟨dst, 6, 7, typ, 1, hops, 0⟩, List.replicate 240 0, [List.replicate 256 1]⟩
def routed : State := { up with fabric := { up.fabric with active := { dest := [(9, 0x2800101)] } } }
def ident (part : W16) (die : W64) (d : Bool) : Identity := ⟨part, 0x42, die, 6, 6, if d then 1 else 9, 1, 4, 0, 0x010205060708⟩
def trn (st : Nat) : State := port0 (fun p => { p with state := lnTraining, step := st })
def rec1 : CombineRecord := ⟨3, 2, ⟨5, 6, 7, false, 0, 1, 2, 1, 0, 0, 0, 1, 0, 2⟩, ⟨5, 7, 7, false, 0, 1, 2, 1, 0, 0, 0, 1, 1, 2⟩⟩
/-- An address of window 2 of chiplet 5, and one of chiplet 6. -/
def ga5 : W64 := BitVec.ofNat 64 (5 * 2 ^ 48 + 2 * 2 ^ 42 + 0x300)
def ga6 : W64 := BitVec.ofNat 64 (6 * 2 ^ 48 + 2 * 2 ^ 42 + 0x300)
def hd (ga : W64) (src : W16) (level : Byte) (count : W32) : XferHdr := ⟨5, src, 7, false, ga, 9, 3, 1, 0, 1, level, 4, 0, count⟩
/-- The header frame of a write of one granule into window 2 of chiplet 5. -/
def wrFrame : Frame := { frame1 with body := padTo 256 (netHeader ⟨5, 6, 7, 5, 1, 0, 0⟩ ++ leBytes 8 ga5.toNat ++ leBytes 2 9 ++ [3, 1]) }
def win2 (q : List Grant) : State := up.setWindow 2 { state := .opened, basin := 0, rights := 7, size := 16, base := 0x1000, credits := 4, sources := [⟨7, 6, 0⟩], queue := q }
def xf1 (remote : Bool) (p : List PktState) : Transfer :=
  { node := none, basin := 0, tenant := 7, kind := 0, toRemote := remote, laddr := 0x2000, ga := ga6, len := 512, gate := none, tag := 0
    rank := 0, count := 0, xfer := 9, pkts := p }
def near6 (s : State) : State := { s with fabric := { s.fabric with active := { dest := [(6, 0x2000008)] } } }
def gb : State := { near6 (ganged g2) with gateUnit := { gates := [(3, { kind := .barrier, basin := some 0, value := barrierValue 2 1 7 })] } }
def chan3 (x : Transfer) : State := up.setChan 3 { number := 9, xfer := some x }
def red1 : RedEntry := ⟨0x1300, 2, 4, 1, 2, [⟨0, 1, List.replicate 64 (3, 0)⟩]⟩
def gated (g : Gate) : State := near6 (up.setGate 3 g)
def wait1 : Waiter := { fa := 6, core := 1, life := 2, session := 4, tag := 9, op := 0, sv := 5, tenant := 7 }
def hold1 (fa : W16) : Holder := ⟨fa, 1, 2, 4, 8, 500⟩
def lock1 (h : Holder) (ws : List Waiter) : Gate := { kind := .lock, basin := some 0, holder := some h, waiters := ws, lease := some 5 }
def gop1 (full : Bool) : GateOp := { tag := 9, sd := 4, op := 0, gate := 3, fa := 6, remote := true, sv := 5, acquire := false, tenant := 7, poolFull := full }
def gbarOp : GateOp := { tag := 9, sd := 4, op := 6, gate := 3, fa := 6, remote := true, sv := 0, acquire := false, tenant := 7 }
def issuer (full : Bool) : State := near6 (up.setCore 0 { c0 with gops := [gop1 full] })
/-- Bundles of 48 bytes: a header with the valid slots, and the bits of slot 5. -/
def bundle1 (valid slot5 : Nat) : List Byte := leBytes 48 (2 ^ 374 + valid * 2 ^ 376 + slot5 * 2 ^ 192)
def code1 (k : Nat) (l : List Byte) : Image := { lattice := false, bytes := (List.range k).flatMap (fun _ => l), entry := 0, clusters := 1 }
def coded (i : Image) (c : Core) : State := (mem0.modBasin 0 (fun v => { v with image := some i })).setCore 0 c
def ib : Core := { c0 with ibuf := [0] }
def held1 : HeldBundle := { raw := BitVec.ofNat 384 (2 ^ 374 + 2 ^ 376), issued := 0, snap := c0.capture }
def desc (base : Nat) : BitVec 128 := BitVec.ofNat 128 (base + 3 * 2 ^ 32 + 3 * 2 ^ 60)
def cd : Core := { c0 with d := [(1, desc 0x3000), (2, desc 0x4000)], cache := [(0, List.replicate 4096 0)] }
def vec (k : VKind) : State := mem0.setCore 0 { cd with v := [⟨3, k, 0⟩], csrc := [(1, 0x5000)] }
def fv1 : FmtV := ⟨1, 2, 0, 0, 1, 0, 0, 0⟩
def gopL (r : Option W64) : GateOp := { tag := 9, sd := 4, op := 0, gate := 3, fa := 5, remote := false, sv := 5, acquire := false, tenant := 7, result := r }
def mm1 : Nat := 2 ^ 30 + 2 * 2 ^ 26
def orgSeize : Origin := ⟨0, false, 5, 7, 5, 0x1003⟩
def seiz (b : Nat) (r : Option Nat) (start : Bool) (ph : Nat) : Seizure := ⟨b, r, start, false, ph, 0, 0, orgSeize⟩
def midSeizure (z : Seizure) (f : State → State) : State := f { mem0 with seize := some z, svc := { normal := some { req := rq [(16, 1, 0), (17, 1, 0xFF)], cmd := 0x1003, waiting := true } } }
def tr1 : Transfer := { node := none, basin := 0, tenant := 7, kind := 0, toRemote := true, laddr := 0x2000, ga := 0x6080000000300, len := 512, gate := none, tag := 0, rank := 0, count := 0, xfer := 9, pkts := [.sent], credits := 2 }
def pk5 : Packet := ⟨⟨6, 5, 7, 5, 2, 0, 0⟩, leBytes 8 0x6080000000300 ++ leBytes 2 9 ++ [0, 2] ++ List.replicate 228 0, [[], []]⟩
/-- Basin 0 on node 0 alone. -/
def one (s : State) : State := s.modBasin 0 (fun v => { v with rect := ⟨0, 0, 1, 1⟩, saved := [⟨0, .running, {}⟩] })
/-- Basin 2 on node 4, which can take node 5's place beside basin 0 on node 0 to 1: a cluster basin at (2,0) instead of the lattice. -/
def beside (s : State) : State := s.modBasin 1 (fun v => { v with lattice := false })
def seized0 : State := mem0.modBasin 0 (fun v => { v with state := .seized, rect := {}, former := ⟨0, 0, 2, 1⟩, saved := [⟨0, .stopped, {}⟩] })
def serv : InService := { req := rq [(16, 1, 3)], cmd := 0x1203, waiting := true, result := [], ledger := some 4 }
def c14 : Core := { c0 with s := c0.s ++ [(7, 256), (8, 0x6080000000300), (9, 0), (11, 6)], a := [(1, 0x1000), (2, 0x2000), (3, 0x3000), (4, 0x4000), (5, 0x8000)], d := [(1, desc 0x3000), (2, desc 0x4000)] }
def core14 (c : Core) : State := mem0.setCore 0 c
def image14 : Image := { lattice := false, bytes := List.replicate 48 0, entry := 0, clusters := 1 }
def imaged14 : State := (core14 c14).modBasin 0 (fun v => { v with image := some image14 })
def hold5 : Holder := ⟨5, 0, 0, 0, 8, 500⟩
def hold6 : Holder := ⟨6, 1, 2, 4, 8, 500⟩
def gated14 (g : Gate) : State := (core14 c14).setGate 3 g
def near14 : State := { core14 c14 with fabric := { mem0.fabric with active := { dest := [(6, 0x2000008)] } } }
def lat14 : State := (mem0.setCore 2 { c0 with a := [(1, 0x200000), (2, 0x201000)] }).setCore 3 { c0 with run := .running, a := [(1, 0x202000), (2, 0x203000)] }
def fr (a : Byte) (tag : W16) (b : List Byte) : LeatFrame := ⟨a, tag, padTo 64 b, true⟩
def lt (l : Leat) : State := { up with leat := { l with state := if l.state = .search then .forward else l.state } }
def del4 : Delivery := { ep := 4, size := 69632, blocks := 17, version := 2, key := [1] }
def rec5 : TrainFrame := { kind := 0x11, f := fr 5 7 [1] }

theorem tget_all {α : Type} {P : α → Prop} {d : α} {t : Tab α} (hd : P d) (h : ∀ e ∈ t, P e.2) (k : Nat) : P (tget d t k) := by
  induction t with
  | nil => exact hd
  | cons e r ih =>
    simp only [tget]
    split
    · exact h e (by simp)
    · exact ih (fun x hx => h x (by simp [hx]))

/-- The state a command or a step leads to. -/
def nextOf : Host.Outcome State Fault Refusal → State
  | .next t => t
  | _ => State.reset

theorem ready_iff (s : State) (n b : Nat) : Ready s n b ↔ (basinOf s n = some b ∧ (s.basin b).lattice = false ∧ mayIssue s n = true
    ∧ (s.core n).held = none ∧ (s.core n).gops = [] ∧ (s.core n).sb = [] ∧ (s.core n).v = [] ∧ (s.core n).qPend = 0
    ∧ (s.core n).lc0.count = 0 ∧ (s.core n).lc1.count = 0 ∧ (s.core n).stepping = false ∧ s.store.found = []) :=
  ⟨fun h => ⟨h.1, h.2, h.3, h.4, h.5, h.6, h.7, h.8, h.9, h.10, h.11, h.12⟩,
   fun h => ⟨h.1, h.2.1, h.2.2.1, h.2.2.2.1, h.2.2.2.2.1, h.2.2.2.2.2.1, h.2.2.2.2.2.2.1, h.2.2.2.2.2.2.2.1, h.2.2.2.2.2.2.2.2.1,
     h.2.2.2.2.2.2.2.2.2.1, h.2.2.2.2.2.2.2.2.2.2.1, h.2.2.2.2.2.2.2.2.2.2.2⟩⟩

theorem latticeReady_iff (s : State) (n b : Nat) (ns : List Nat) : LatticeReady s n b ns ↔ (basinOf s n = some b
    ∧ (s.basin b).lattice = true ∧ (s.basin b).master = n ∧ mayIssue s n = true ∧ basinCores s b = ns ∧ n ∈ ns
    ∧ (∀ k ∈ ns, basinOf s k = some b)
    ∧ (∀ k ∈ ns, (s.core k).held = none ∧ (s.core k).gops = [] ∧ (s.core k).sb = [] ∧ (s.core k).v = [] ∧ (s.core k).qPend = 0)
    ∧ (s.core n).lc0.count = 0 ∧ (s.core n).lc1.count = 0 ∧ (s.core n).stepping = false ∧ s.store.found = []) :=
  ⟨fun h => ⟨h.1, h.2, h.3, h.4, h.5, h.6, h.7, h.8, h.9, h.10, h.11, h.12⟩,
   fun h => ⟨h.1, h.2.1, h.2.2.1, h.2.2.2.1, h.2.2.2.2.1, h.2.2.2.2.2.1, h.2.2.2.2.2.2.1, h.2.2.2.2.2.2.2.1, h.2.2.2.2.2.2.2.2.1,
     h.2.2.2.2.2.2.2.2.2.1, h.2.2.2.2.2.2.2.2.2.2.1, h.2.2.2.2.2.2.2.2.2.2.2⟩⟩

theorem meets_EmptyQueueIsOneTurnTick_0 :
    let s : State := up
    (s.pending = []) ∧ (s.boot.dead = false) ∧ (s.boot.rstLow = false) := by decide +kernel

theorem meets_EmptyQueueIsOneTurnTick_1 :
    let s : State := State.reset
    (s.pending = []) ∧ (s.boot.dead = false) ∧ (s.boot.rstLow = true) := by decide +kernel

theorem meets_EmptyQueueIsOneTurnTick_2 :
    let s : State := { up with boot := { up.boot with dead := true } }
    (s.pending = []) ∧ (s.boot.dead = true) := by decide +kernel

theorem meets_CommandsLeaveTheQueue_0 :
    exec .coldReset { up with pending := [.turnEdge] } = .next (nextOf (exec .coldReset { up with pending := [.turnEdge] })) := rfl

theorem meets_FusesNeverChange_0 :
    step { up with pending := [.coldReset] } = .next (nextOf (step { up with pending := [.coldReset] })) := rfl

theorem meets_ScratchpadStaysCanonical_0 :
    let s : State := { up with pending := [.coldReset] }
    s.memOk ∧ step s = .next (nextOf (step s)) :=
  ⟨by dsimp only [State.memOk]; decide +kernel, rfl⟩

theorem meets_DoorbellMovesTheProducer_0 :
    let e : Fin 6 := 0
    let via : Transport := .sideband
    let v : W32 := 32
    let s : State := up
    (reachableRegs s = true) ∧ (via = ownTransport ↑e) ∧ ((BitVec.setWidth 6 v - (s.ep ↑e).cons).toNat ≤ 32) := by decide +kernel

theorem meets_DoorbellMovesTheProducer_1 :
    let e : Fin 6 := 5
    let via : Transport := .jtag
    let v : W32 := 33
    let s : State := up
    (reachableRegs s = true) ∧ (via = ownTransport ↑e) ∧ (32 < (BitVec.setWidth 6 v - (s.ep ↑e).cons).toNat) := by decide +kernel

theorem meets_DoorbellMovesTheProducer_2 :
    let e : Fin 6 := 1
    let via : Transport := .sideband
    let s : State := up
    (reachableRegs s = true) ∧ (via ≠ ownTransport ↑e) := by decide +kernel

theorem meets_AcknowledgementNeverPassesCompletion_0 :
    let e : Fin 6 := 0
    let v : W32 := 0
    let s : State := up
    let p := s.ep ↑e
    (reachableRegs s = true) ∧ ((p.comp - BitVec.setWidth 6 v).toNat ≤ (p.comp - p.ack).toNat) := by decide +kernel

theorem meets_AcknowledgementNeverPassesCompletion_1 :
    let e : Fin 6 := 3
    let v : W32 := 1
    let s : State := up
    let p := s.ep ↑e
    (reachableRegs s = true) ∧ ((p.comp - p.ack).toNat < (p.comp - BitVec.setWidth 6 v).toNat) := by decide +kernel

theorem meets_UrgentDoorbellSubmitsOrOverruns_0 :
    let e : Fin 6 := 0
    let v : W32 := 1
    let s : State := up
    let p := s.ep ↑e
    (reachableRegs s = true) ∧ (BitVec.getLsbD v 0 = true) ∧ ((p.busy || p.done) = false) := by decide +kernel

theorem meets_UrgentDoorbellSubmitsOrOverruns_1 :
    let v : W32 := 2
    let s : State := up
    (reachableRegs s = true) ∧ (BitVec.getLsbD v 0 = false) := by decide +kernel

theorem meets_UrgentDoorbellSubmitsOrOverruns_2 :
    let e : Fin 6 := 5
    let v : W32 := 1
    let s : State := up.setEp 5 { busy := true }
    let p := s.ep ↑e
    (reachableRegs s = true) ∧ (BitVec.getLsbD v 0 = true) ∧ ((p.busy || p.done) = true) := by decide +kernel

theorem meets_WritingOneClears_0 :
    let via : Transport := .jtag
    let s : State := up.setEp 2 { foreign := true, done := true }
    let v : W32 := 8
    (reachableRegs s = true) ∧ (hostTransport via = true) ∧ (BitVec.getLsbD v 3 = true) := by decide +kernel

theorem meets_WritingOneClears_1 :
    let via : Transport := .sideband
    let v : W32 := 7
    let s : State := up
    (reachableRegs s = true) ∧ (hostTransport via = true) ∧ (BitVec.getLsbD v 3 = false) := by decide +kernel

theorem meets_DrainingStaysWithinTheLedger_0 :
    let v : W32 := 16
    let s : State := up.setLedger { head := 3600, drained := 15, nearFull := true }
    let l := s.ledger
    let d := BitVec.toNat (v - l.drained)
    (reachableRegs s = true) ∧ (1 ≤ d) ∧ (d ≤ BitVec.toNat (l.head - 1 - l.drained)) := by decide +kernel

theorem meets_DrainingStaysWithinTheLedger_1 :
    let v : W32 := 3600
    let s : State := up.setLedger { head := 3600, drained := 15, nearFull := true }
    let l := s.ledger
    let d := BitVec.toNat (v - l.drained)
    (reachableRegs s = true) ∧ (d = 0 ∨ BitVec.toNat (l.head - 1 - l.drained) < d) := by decide +kernel

theorem meets_LatchWritesClearOnlyTheRecord_0 :
    let via : Transport := .jtag
    let s : State := { up with aon := { up.aon with latch := ⟨true, true, false, true⟩, rails := 0x1F } }
    (reachableRegs s = true) ∧ (hostTransport via = true) ∧ (hostTransport .logic = false) ∧ (s.aon.latch.trip = true) := by decide +kernel

theorem meets_LaneTestsRunOnlyBeforeService_0 :
    let q : Fin 20 := 7
    let via : Transport := .sideband
    let s : State := { up with boot := { up.boot with stage := 8 } }
    (reachableRegs s = true) ∧ (hostTransport via = true) ∧ (↑q < 8) ∧ (s.boot.stage = 0 ∨ s.boot.stage = 8)
      ∧ ((s.port ↑q).testRun = false) := by decide +kernel

theorem meets_LaneTestsRunOnlyBeforeService_1 :
    let q : Fin 20 := 0
    let via : Transport := .jtag
    let s : State := up
    (reachableRegs s = true) ∧ (hostTransport via = true) ∧ (8 ≤ ↑q ∨ s.boot.stage ≠ 0 ∧ s.boot.stage ≠ 8) := by decide +kernel

theorem meets_LaneTestsRunOnlyBeforeService_3 :
    let q : Fin 20 := 7
    let via : Transport := .sideband
    let s : State := { up with boot := { up.boot with stage := 8 }, links := [(7, { testRun := true })] }
    (reachableRegs s = true) ∧ (hostTransport via = true) ∧ ((s.port ↑q).testRun = true) := by decide +kernel

theorem meets_OnlyTheStewardRestartsTheWatchdog_0 :
    let via : Transport := .steward
    let v : W32 := 0xA5A5
    let s : State := up
    (reachableRegs s = true) ∧ (via = Transport.steward) ∧ (v = 42405) := by decide +kernel

theorem meets_OnlyTheStewardRestartsTheWatchdog_1 :
    let via : Transport := .steward
    let v : W32 := 0xA5A4
    let s : State := up
    (reachableRegs s = true) ∧ (via ≠ Transport.steward ∨ v ≠ 42405) := by decide +kernel

theorem meets_CounterReadsLatchOrClear_0 :
    let s : State := up
    (reachableRegs s = true) := by decide +kernel

theorem meets_RegisterWritesReachWholeWords_0 :
    let s : State := up
    (reachableRegs s = true) := by decide +kernel

theorem meets_JtagInstructionsSelect_0 :
    let s : State := up
    (s.boot.dead = false) ∧ (s.boot.stage ≠ 0) ∧ (s.boot.stage ≠ 8) := by decide +kernel

theorem meets_JtagInstructionsSelect_1 :
    let s : State := { up with boot := { up.boot with stage := 8 } }
    (s.boot.dead = false) ∧ (s.boot.stage = 0 ∨ s.boot.stage = 8) := by decide +kernel

theorem meets_CfgAccessPerformsOneAccess_0 :
    let dr : W64 := 0x0102000400000001
    let s : State := { up with tap := { ir := 0x20 } }
    (s.boot.dead = false) ∧ (s.tap.ir = 32) ∧ (BitVec.getLsbD dr 57 = false) := by decide +kernel

theorem meets_CfgAccessPerformsOneAccess_1 :
    let dr : W64 := 0x0202000400000001
    let s : State := { up with tap := { ir := 0x20 } }
    (s.boot.dead = false) ∧ (s.tap.ir = 32) ∧ (BitVec.getLsbD dr 57 = true) ∧ (s.boot.rstLow = false)
      ∧ (BitVec.getLsbD dr 56 = false) := by decide +kernel

theorem meets_CfgAccessPerformsOneAccess_2 :
    let dr : W64 := 0x0302000400000001
    let s : State := { up with tap := { ir := 0x20 } }
    (s.boot.dead = false) ∧ (s.tap.ir = 32) ∧ (BitVec.getLsbD dr 57 = true) ∧ (s.boot.rstLow = false)
      ∧ (BitVec.getLsbD dr 56 = true) := by decide +kernel

theorem meets_CfgAccessPerformsOneAccess_3 :
    let dr : W64 := 0x0302000400000001
    let s : State := { State.reset with tap := { ir := 0x20 } }
    (s.boot.dead = false) ∧ (s.tap.ir = 32) ∧ (BitVec.getLsbD dr 57 = true) ∧ (s.boot.rstLow = true) := by decide +kernel

theorem meets_MailboxCommandsCommitAndAnswer_0 :
    let i : Instr := .nop (rq [])
    let c : Cmd := cmdNop
    let r : Request := rq []
    let s : State := up
    let u := serviceStart c r s
    let a := replyTo c r u
    (mailRow i = some (c, r)) ∧ (ServedAtOnce s r) ∧ (passes a.status = true) ∧ (r.checkOnly = false) ∧ (a.late = false) ∧ (a.detail = none) := by
  refine ⟨rfl, ?_⟩
  dsimp only [ServedAtOnce]; decide +kernel

theorem meets_MailboxCommandsCommitAndAnswer_1 :
    let i : Instr := .powerCap (rq [(16, 2, 300)])
    let c : Cmd := cmdPowerCap
    let r : Request := rq [(16, 2, 300)]
    let s : State := up
    let u := serviceStart c r s
    let a := replyTo c r u
    let d : List Byte := (capBody (rq [(16, 2, 300)]) up).detail.getD []
    (mailRow i = some (c, r)) ∧ (ServedAtOnce s r) ∧ (passes a.status = true) ∧ (r.checkOnly = false) ∧ (a.late = false) ∧ (a.detail = some d) := by
  refine ⟨rfl, ?_⟩
  dsimp only [ServedAtOnce]; decide +kernel

theorem meets_MailboxCommandsCommitAndAnswer_2 :
    let i : Instr := .windowClose (rq [(16, 1, 2)])
    let c : Cmd := cmdWindowClose
    let r : Request := rq [(16, 1, 2)]
    let s : State := up.setWindow 2 { state := .opened, queue := [⟨6, 1, 2, 1, 0, 0⟩] }
    let u := serviceStart c r s
    let a := replyTo c r u
    let d : List Byte := windowDetail 2 (up.setWindow 2 { state := .opened, queue := [⟨6, 1, 2, 1, 0, 0⟩] } |>.window 2)
    (mailRow i = some (c, r)) ∧ (ServedAtOnce s r) ∧ (passes a.status = true) ∧ (r.checkOnly = false) ∧ (a.late = true) ∧ (a.detail = some d) := by
  refine ⟨rfl, ?_⟩
  dsimp only [ServedAtOnce]; decide +kernel

theorem meets_MailboxCommandsCommitAndAnswer_4 :
    let i : Instr := .basinSeize (rq [(16, 1, 0), (17, 1, 0xFF)])
    let c : Cmd := cmdBasinSeize
    let r : Request := rq [(16, 1, 0), (17, 1, 0xFF)]
    let s : State := up
    let u := serviceStart c r s
    let a := replyTo c r u
    (mailRow i = some (c, r)) ∧ (ServedAtOnce s r) ∧ (passes a.status = true) ∧ (r.checkOnly = false) ∧ (a.late = true) ∧ (a.detail = none) := by
  refine ⟨rfl, ?_⟩
  dsimp only [ServedAtOnce]; decide +kernel

theorem meets_RefusedAndCheckOnlyCommandsDoNothing_0 :
    let i : Instr := .powerCap (rq [(16, 2, 99)])
    let c : Cmd := cmdPowerCap
    let r : Request := rq [(16, 2, 99)]
    let s : State := up
    let u := serviceStart c r s
    let a := replyTo c r u
    (mailRow i = some (c, r)) ∧ (ServedAtOnce s r) ∧ (passes a.status = false) := by
  refine ⟨rfl, ?_⟩
  dsimp only [ServedAtOnce]; decide +kernel

theorem meets_RefusedAndCheckOnlyCommandsDoNothing_1 :
    let i : Instr := .powerCap { rq [(16, 2, 300)] with flags := 1 }
    let c : Cmd := cmdPowerCap
    let r : Request := { rq [(16, 2, 300)] with flags := 1 }
    let s : State := up
    let u := serviceStart c r s
    let a := replyTo c r u
    (mailRow i = some (c, r)) ∧ (ServedAtOnce s r) ∧ (passes a.status = true) ∧ (r.checkOnly = true) := by
  refine ⟨rfl, ?_⟩
  dsimp only [ServedAtOnce]; decide +kernel

theorem meets_ChecksRunInTheirOrder_0 :
    let c : Cmd := cmdNop
    let r : Request := rq [(16, 1, 1)]
    (wellFormed c r = false) := by decide +kernel

theorem meets_ChecksRunInTheirOrder_1 :
    let c : Cmd := cmdPowerCap
    let r : Request := rq [(16, 2, 99)]
    let s : State := { up with boot := { up.boot with stage := 1 } }
    (wellFormed c r = true) ∧ (inStage s c = false) := by decide +kernel

theorem meets_ChecksRunInTheirOrder_2 :
    let c : Cmd := cmdEcho
    let r : Request := { rq [(16, 2, 99)] with urgent := true }
    let s : State := up
    (wellFormed c r = true) ∧ (inStage s c = true) ∧ (r.urgent = true) ∧ (c.urgent = false) := by decide +kernel

theorem meets_ChecksRunInTheirOrder_3 :
    let c : Cmd := cmdGateRead
    let r : Request := rq [(16, 2, 99)]
    let s : State := { up with boot := { up.boot with preparing := true } }
    (wellFormed c r = true) ∧ (inStage s c = true) ∧ (r.urgent = false ∨ c.urgent = true) ∧ (s.boot.preparing = true)
      ∧ (c.stage = 3) := by decide +kernel

theorem meets_ChecksRunInTheirOrder_4 :
    let c : Cmd := cmdEcho
    let r : Request := rq [(16, 2, 99)]
    let s : State := { up with boot := { up.boot with ended := true } }
    let st := (stopped s || s.boot.ended) && !c.afterStop
    (wellFormed c r = true) ∧ (inStage s c = true) ∧ (r.urgent = false ∨ c.urgent = true) ∧ (s.boot.preparing = false ∨ c.stage ≠ 3)
      ∧ (st = true) := by decide +kernel

theorem meets_ResponsesStandInTheirSlots_0 :
    let result : List Byte := [1, 2]
    let r : Request := rq []
    (result.length ≤ 112) ∧ (r.urgent = false) ∧ (↑r.ep = 0) := by decide +kernel

theorem meets_ResponsesStandInTheirSlots_1 :
    let r : Request := { rq [] with ep := 5, urgent := true }
    let result : List Byte := List.replicate 112 0xAB
    (result.length ≤ 112) ∧ (r.urgent = true) ∧ (↑r.ep = 5) := by decide +kernel

theorem meets_ReadingCommandsReturnTheirFields_0 :
    let r : Request := rq []
    let s : State := up
    (Admitted cmdNop r s) ∧ (Admitted cmdEcho r s) ∧ (r.args.length = 112) ∧ (Admitted cmdStatus r s) ∧ (Admitted cmdIdentRead r s)
      ∧ (Admitted cmdOptableRead r s) ∧ (Admitted cmdFuseSummary r s) := by
  dsimp only [Admitted, ServedAtOnce]; decide +kernel

theorem meets_ReadingCommandsReturnTheirFields_2 :
    let r : Request := rq [(16, 2, 0x10)]
    let s : State := { up with settings := { pending := [(0x10, [1, 1])] } }
    let k : SettingKey := ⟨0x0010, 2, 100, 450, 450, true⟩
    (settingKey (BitVec.ofNat 16 (r.arg 16 2)) = some k) ∧ (Admitted cmdSettingsGet r s) ∧ (r.arg 18 1 = 0) := by
  dsimp only [Admitted, ServedAtOnce]; decide +kernel

theorem meets_ReadingCommandsReturnTheirFields_3 :
    let r : Request := rq [(16, 4, 7), (20, 1, 1)]
    let s : State := up.setLedger { head := 8, entries := [(7, entry1)] }
    let e : LedgerEntry := entry1
    (s.ledger.held (BitVec.ofNat 32 (r.arg 16 4)) = some e) ∧ (Admitted cmdLedgerRead r s) ∧ (r.arg 20 1 = 1)
      ∧ (0 < BitVec.toNat (s.ledger.head - BitVec.ofNat 32 (r.arg 16 4)))
      ∧ (BitVec.toNat (s.ledger.head - BitVec.ofNat 32 (r.arg 16 4)) < 2 ^ 31) := by
  dsimp only [Admitted, ServedAtOnce]; decide +kernel

theorem meets_ReadingCommandsReturnTheirFields_4 :
    let r : Request := rq [(17, 1, 12), (18, 2, 1012)]
    let s : State := up
    (Admitted cmdRouteRead r s) ∧ (r.arg 16 1 ≤ 1) ∧ (1 ≤ r.arg 17 1) ∧ (r.arg 17 1 ≤ 12) ∧ (r.arg 20 1 = 0)
      ∧ (r.arg 18 2 + r.arg 17 1 ≤ tableSize (r.arg 16 1)) := by
  dsimp only [Admitted, ServedAtOnce]; decide +kernel

theorem meets_ReadingCommandsReturnTheirFields_5 :
    let r : Request := rq [(16, 1, 19)]
    let s : State := { up with leat := { up.leat with master := true } }
    (Admitted cmdSweepResult r s) ∧ (r.arg 16 1 ≤ 19) ∧ (s.leat.master = true ∨ r.arg 16 1 = BitVec.toNat (ownSlot s)) := by
  dsimp only [Admitted, ServedAtOnce]; decide +kernel

theorem meets_ReadingCommandsReturnTheirFields_6 :
    let r : Request := rq [(16, 1, 1), (18, 1, 96), (20, 4, 0x1FFFFFA0)]
    let s : State := up
    (Admitted cmdDebugPeek r s) ∧ (r.arg 16 1 = 1) ∧ (debugBad r 96 = false) ∧ (poweredRange s (debugAddr r) (debugLength r) = true)
      ∧ (firstBad s.mem (debugAddr r) (debugLength r) = none) := by
  dsimp only [Admitted, ServedAtOnce]; decide +kernel

theorem meets_ReadingCommandsReturnTheirFields_1 :
    let r : Request := rq []
    let s : State := up
    (Admitted cmdProgState r s) ∧ (r.arg 16 1 < 32) ∧ (Admitted cmdGradeMap r s) ∧ (r.arg 16 1 = 0) ∧ (Admitted cmdLinkState r s)
      ∧ (r.arg 16 1 < 20) ∧ (Admitted cmdTimeStatus r s) ∧ (Admitted cmdFwStatus r s) := by
  dsimp only [Admitted, ServedAtOnce]; decide +kernel

theorem meets_SettingsAreStagedAndThenCommitted_0 :
    let r : Request := rq [(16, 2, 0x10), (18, 1, 2), (20, 2, 100)]
    let s : State := up
    let k : SettingKey := ⟨0x0010, 2, 100, 450, 450, true⟩
    let v := r.argBytes 20 k.size
    (settingKey (BitVec.ofNat 16 (r.arg 16 2)) = some k) ∧ (k.writable = true) ∧ (Admitted cmdSettingsSet r s) ∧ (r.arg 18 1 = k.size)
      ∧ (k.lo ≤ leNat v) ∧ (leNat v ≤ k.hi) ∧ (Admitted cmdLedgerMark r s) := by
  dsimp only [Admitted, ServedAtOnce]; decide +kernel

theorem meets_SettingsAreStagedAndThenCommitted_1 :
    let r : Request := rq []
    let s : State := { up with settings := { pending := [(0x10, [1, 1])] } }
    (Admitted cmdSettingsCommit r s) ∧ (r.arg 20 1 = 0) ∧ (r.arg 21 1 = 0) ∧ (s.fw.hand = none) ∧ (s.settings.pending ≠ []) := by
  dsimp only [Admitted, ServedAtOnce]; decide +kernel

theorem meets_SettingsAreStagedAndThenCommitted_2 :
    let r : Request := rq [(20, 1, 1)]
    let s : State := { up with settings := { pending := [(0x10, [1, 1])] } }
    (Admitted cmdSettingsCommit r s) ∧ (r.arg 20 1 = 1) ∧ (r.arg 21 1 = 0) ∧ (s.fw.hand = none) ∧ (s.settings.pending ≠ []) := by
  dsimp only [Admitted, ServedAtOnce]; decide +kernel

theorem meets_PowerCommandsSetTheirLimits_0 :
    let r : Request := rq [(16, 2, 450)]
    let s : State := up
    (Admitted cmdPowerCap r s) ∧ (100 ≤ r.arg 16 2) ∧ (r.arg 16 2 ≤ 450) ∧ (s.head.pace = none) := by
  dsimp only [Admitted, ServedAtOnce]; decide +kernel

theorem meets_PowerCommandsSetTheirLimits_1 :
    let r : Request := rq [(16, 2, 100)]
    let s : State := up
    let a := r.arg 16 1
    (Admitted cmdPowerRamp r s) ∧ (a = 0 ∨ 50 < a) := by
  dsimp only [Admitted, ServedAtOnce]; decide +kernel

theorem meets_PowerCommandsSetTheirLimits_2 :
    let r : Request := rq [(16, 2, 99)]
    let s : State := up
    (Admitted cmdPowerCap r s) ∧ (r.arg 16 2 < 100 ∨ 450 < r.arg 16 2) := by
  dsimp only [Admitted, ServedAtOnce]; decide +kernel

theorem meets_PowerCommandsSetTheirLimits_3 :
    let r : Request := rq [(16, 1, 5)]
    let s : State := up
    let a := r.arg 16 1
    (Admitted cmdPowerPriority r s) ∧ (a ≤ 5) ∧ (Admitted cmdPowerRamp r s) ∧ (1 ≤ a) ∧ (a ≤ 50) := by
  dsimp only [Admitted, ServedAtOnce]; decide +kernel

theorem meets_PowerCommandsSetTheirLimits_6 :
    let r : Request := rq [(16, 1, 1), (17, 1, 15)]
    let s : State := up
    let a := r.arg 16 1
    (Admitted cmdPowerPace r s) ∧ (a = 1) ∧ (r.arg 17 1 = 0 ∨ r.arg 17 1 = 9 ∨ r.arg 17 1 = 15) ∧ (5 ≤ paceDuty s (r.arg 17 1) s.head.cap) := by
  dsimp only [Admitted, ServedAtOnce]; decide +kernel

theorem meets_PowerCommandsSetTheirLimits_7 :
    let r : Request := rq [(16, 1, 0), (17, 1, 3), (18, 1, 15)]
    let s : State := up
    let a := r.arg 16 1
    (Admitted cmdPowerOpPrefer r s) ∧ (a ≤ 31) ∧ (r.arg 17 1 ≤ 3) ∧ (r.arg 18 1 ≤ 15) ∧ ((s.basin a).state ≠ BasinState.free) := by
  dsimp only [Admitted, ServedAtOnce]; decide +kernel

theorem meets_PowerCommandsSetTheirLimits_8 :
    let r : Request := rq [(16, 1, 71), (17, 1, 70), (18, 1, 80), (19, 1, 90)]
    let s : State := up
    let a := r.arg 16 1
    (Admitted cmdThermLimits r s) ∧ (a ≤ 71) ∧ (r.arg 17 1 = 70) ∧ (r.arg 18 1 = 80) ∧ (r.arg 19 1 = 90)
      ∧ ((tget { } s.head.points a).temp < 90) := by
  dsimp only [Admitted, ServedAtOnce]; decide +kernel

theorem meets_PowerReadingsReturnTheTotals_0 :
    let r : Request := rq [(16, 1, 0), (17, 1, 12)]
    let s : State := up
    let n := r.arg 17 1
    (Admitted cmdThrottleRead r s) ∧ (1 ≤ n) ∧ (r.arg 16 1 + n ≤ 12) ∧ (Admitted cmdEnergyRead r s) ∧ (n ≤ 12) ∧ (r.arg 16 1 + n ≤ 33) := by
  dsimp only [Admitted, ServedAtOnce]; decide +kernel

theorem meets_PowerReadingsReturnTheTotals_2 :
    let r : Request := rq []
    let s : State := up
    (Admitted cmdEstimStatus r s) ∧ (Admitted cmdEstimDither r s) ∧ (r.arg 16 1 ≤ 1) := by
  dsimp only [Admitted, ServedAtOnce]; decide +kernel

theorem meets_BasinsAreCreatedAndChangeMode_0 :
    let r : Request := rq [(16, 1, 31), (17, 1, 1), (18, 2, 9), (20, 1, 6), (21, 1, 6), (22, 1, 2), (23, 1, 2), (24, 2, 510), (26, 1, 1), (28, 20, 0x0101010101010101010101010101010101010101), (48, 64, 3 * 2 ^ 510)]
    let s : State := up
    let b := r.arg 16 1
    let rect := rectArg r 20
    let segs := segMask r 48
    (Admitted cmdBasinCreate r s) ∧ (b ≤ 31) ∧ (r.arg 17 1 ≤ 1) ∧ (r.arg 18 2 ≠ 0) ∧ (rectOk rect = true) ∧ (r.arg 26 1 ≠ 0)
      ∧ ((r.argBytes 28 20).contains 0 = false) ∧ ((s.basin b).state = BasinState.free) ∧ (overlapsOther s b rect = false)
      ∧ (∀ k ∈ segs, (s.seg k).owner = none ∧ (s.seg k).retired = false ∧ heldByWork s k = false)
      ∧ (saveOk (r.arg 24 2) segs = true) ∧ (r.arg 17 1 = 1 → allGood s rect = true) := by
  dsimp only [Admitted, ServedAtOnce]; decide +kernel

theorem meets_BasinsAreCreatedAndChangeMode_1 :
    let r : Request := rq [(16, 1, 0), (17, 1, 1), (18, 1, 0xFF)]
    let s : State := { up with die := { up.die with cores := [] } }
    let b := r.arg 16 1
    (Admitted cmdBasinMode r s) ∧ (b ≤ 31) ∧ (r.arg 17 1 = 1) ∧ (r.arg 18 1 = 255) ∧ (settled s b = true) ∧ ((s.basin b).lattice = false)
      ∧ (allGood s (s.basin b).rect = true) ∧ ((s.basin b).rect.nodes.all (isIdle s) = true) ∧ ((s.basin b).load = none) := by
  dsimp only [Admitted, ServedAtOnce]; decide +kernel

theorem meets_BasinsAreCreatedAndChangeMode_2 :
    let r : Request := rq [(16, 1, 0)]
    let s : State := up
    let b := r.arg 16 1
    (Admitted cmdBasinQuery r s) ∧ (b ≤ 31) ∧ (Admitted cmdBasinDestroy r s) ∧ (exists_ s b = true) ∧ (seizing s b = false)
      ∧ (gangOf s b = none) ∧ ((s.basin b).load = none) ∧ ((ownedSegs s b).any (heldByWork s) = false) := by
  dsimp only [Admitted, ServedAtOnce]; decide +kernel

theorem meets_BasinsAreCreatedAndChangeMode_4 :
    let r : Request := rq [(16, 1, 0)]
    let s : State := up.setSeg ((ownedSegs up 0).getD 0 0) { up.seg ((ownedSegs up 0).getD 0 0) with power := .waking }
    let b := r.arg 16 1
    (Admitted cmdBasinDestroy r s) ∧ (b ≤ 31) ∧ (exists_ s b = true) ∧ (seizing s b = false) ∧ (gangOf s b = none)
      ∧ ((ownedSegs s b).any (heldByWork s) = true) := by
  dsimp only [Admitted, ServedAtOnce]; decide +kernel

theorem meets_BasinsAreCreatedAndChangeMode_3 :
    let r : Request := rq [(16, 1, 0), (17, 1, 8), (26, 1, 255), (28, 20, 0x0101010101010101010101010101010101010101)]
    let s : State := up
    let b := r.arg 16 1
    (Admitted cmdBasinResize r s) ∧ (b ≤ 31) ∧ (settled s b = true) ∧ (r.arg 17 1 = 8) ∧ (r.arg 26 1 ≠ 0)
      ∧ ((r.argBytes 28 20).contains 0 = false) ∧ ((s.basin b).load = none) ∧ (s.dma.redWait = []) ∧ (rectOk (s.basin b).rect = true) ∧ ((s.basin b).lattice = false)
      ∧ (overlapsOther s b (s.basin b).rect = false)
      ∧ (saveOk ((s.basin b).save.getD 65535) (List.filter (fun k => keptBy s k == some b) (List.range 512)) = true) := by
  dsimp only [Admitted, ServedAtOnce]; decide +kernel

theorem meets_GateCommandsSetReadAndClean_0 :
    let r : Request := rq [(16, 1, 127), (17, 1, 3), (18, 1, 0xFF), (20, 8, 1)]
    let s : State := up
    let k := r.arg 16 1
    let g := s.gate k
    let v := BitVec.ofNat 64 (r.arg 20 8)
    (Admitted cmdGateInit r s) ∧ (k ≤ 127) ∧ (r.arg 17 1 ≤ 3) ∧ (r.arg 18 1 = 255) ∧ (r.arg 19 1 = 0) ∧ (r.arg 32 4 = 0)
      ∧ (initOk (r.arg 17 1) v = true) ∧ (g.dead = none) ∧ (g.holder = none) ∧ (g.waiters = []) ∧ (g.basin = none) := by
  dsimp only [Admitted, ServedAtOnce]; decide +kernel

theorem meets_GateCommandsSetReadAndClean_1 :
    let r : Request := rq [(16, 1, 127), (20, 4, 3)]
    let s : State := up.setGate 127 { kind := .lock, dead := some ⟨6, 1, 3⟩ }
    let k := r.arg 16 1
    let g := s.gate k
    let d : DeadOwner := ⟨6, 1, 3⟩
    (Admitted cmdGateClean r s) ∧ (k ≤ 127) ∧ (g.dead = some d) ∧ (BitVec.toNat d.epoch = r.arg 20 4) ∧ (g.waiters = []) ∧ (g.basin = none) := by
  dsimp only [Admitted, ServedAtOnce]; decide +kernel

theorem meets_GateCommandsSetReadAndClean_2 :
    let r : Request := rq [(16, 1, 127)]
    let s : State := up.setGate 127 { kind := .lock, dead := some ⟨6, 1, 3⟩ }
    let k := r.arg 16 1
    (Admitted cmdGateRead r s) ∧ (k ≤ 127) := by
  dsimp only [Admitted, ServedAtOnce]; decide +kernel

theorem meets_GateCommandsSetReadAndClean_3 :
    let r : Request := rq [(16, 1, 127), (20, 4, 3)]
    let s : State := up
    let k := r.arg 16 1
    let g := s.gate k
    (Admitted cmdGateClean r s) ∧ (k ≤ 127) ∧ (g.dead = none) := by
  dsimp only [Admitted, ServedAtOnce]; decide +kernel

theorem meets_WindowAndSegmentCommandsTakeEffect_0 :
    let r : Request := rq [(16, 1, 63), (17, 1, 0), (18, 1, 7), (19, 1, 21), (20, 4, 0), (24, 1, 32), (25, 1, 8)]
    let s : State := up
    let k := r.arg 16 1
    let w := windowOf r
    let l := segMask r 24
    (Admitted cmdWindowOpen r s) ∧ (k ≤ 63) ∧ (w.basin ≤ 31) ∧ (r.arg 18 1 ≤ 7) ∧ (16 ≤ w.size) ∧ (w.size ≤ 29) ∧ (w.base % 2 ^ w.size = 0)
      ∧ (w.base + 2 ^ w.size ≤ 536870912) ∧ (1 ≤ w.credits) ∧ (w.credits ≤ 32) ∧ (1 ≤ r.arg 25 1) ∧ (r.arg 25 1 ≤ 8)
      ∧ ((s.window k).state = WinState.closed) ∧ (settled s w.basin = true)
      ∧ (∀ g ∈ segsOf w.base (w.base + 2 ^ w.size), keptBy s g = some w.basin) ∧ (Admitted cmdSegFill r s)
      ∧ (∀ j ∈ l, (s.seg j).power = SegPower.on ∧ (s.seg j).retired = false ∧ (s.seg j).busy = false ∧ savesSeized s j = false) := by
  dsimp only [Admitted, ServedAtOnce]; decide +kernel

theorem meets_WindowAndSegmentCommandsTakeEffect_1 :
    let r : Request := rq [(16, 1, 63), (17, 1, 1)]
    let s : State := up
    let k := r.arg 16 1
    (Admitted cmdWindowList r s) ∧ (k ≤ 63) ∧ (r.arg 17 1 = 1) := by
  dsimp only [Admitted, ServedAtOnce]; decide +kernel

theorem meets_WindowAndSegmentCommandsTakeEffect_2 :
    let r : Request := rq [(16, 1, 63)]
    let s : State := up
    let k := r.arg 16 1
    (Admitted cmdWindowClose r s) ∧ (k ≤ 63) ∧ ((s.window k).state = WinState.closed) := by
  dsimp only [Admitted, ServedAtOnce]; decide +kernel

theorem meets_WindowAndSegmentCommandsTakeEffect_4 :
    let r : Request := rq [(16, 1, 1)]
    let s : State := up
    let k := r.arg 16 1
    let l := segMask r 24
    (Admitted cmdSegPower r s) ∧ (k ≤ 1) ∧ (l = []) := by
  dsimp only [Admitted, ServedAtOnce]; decide +kernel

theorem meets_ProgramCommandsMoveTheCores_0 :
    let r : Request := rq [(16, 1, 0), (17, 1, 1), (20, 4, 0x100000), (24, 4, 0x80000 - 32), (28, 4, 48)]
    let s : State := { up with die := { up.die with cores := [] } }
    let b := r.arg 16 1
    (Admitted cmdProgLoad r s) ∧ (b ≤ 31) ∧ (r.arg 17 1 ≤ 1) ∧ (r.arg 20 4 % 256 = 0) ∧ (r.arg 24 4 % 48 = 0) ∧ (r.arg 24 4 ≤ 524288)
      ∧ (r.arg 28 4 % 48 = 0) ∧ (r.arg 28 4 < r.arg 24 4) ∧ (settled s b = true) ∧ (r.arg 20 4 + r.arg 24 4 ≤ 536870912)
      ∧ (∀ k ∈ segsOf (r.arg 20 4) (r.arg 20 4 + r.arg 24 4), (s.seg k).owner = some b ∧ (s.seg k).power = SegPower.on
      ∧ (s.seg k).busy = false) ∧ ((s.basin b).rect.nodes.all (isIdle s) = true) ∧ ((s.basin b).load = none)
      ∧ (∀ c < 8, storeUsed s b c + r.arg 24 4 ≤ 524288) := by
  dsimp only [Admitted, ServedAtOnce]; decide +kernel

theorem meets_ProgramCommandsMoveTheCores_1 :
    let r : Request := rq [(16, 1, 0), (32, 8, 77)]
    let s : State := { up with die := { up.die with cores := [] } }
    let b := r.arg 16 1
    let l := List.filter (goodNode s) (s.basin b).rect.nodes
    (Admitted cmdProgStart r s) ∧ (b ≤ 31) ∧ (r.arg 17 1 = 0) ∧ (r.arg 24 8 = 0) ∧ (settled s b = true) ∧ ((s.basin b).lattice = false)
      ∧ (Option.any (fun i => i.lattice) (s.basin b).image = false) ∧ ((s.basin b).load = none) ∧ (∀ n ∈ l, (s.core n).run = CoreRun.idle
      ∧ (s.core n).gops = []) := by
  dsimp only [Admitted, ServedAtOnce]; decide +kernel

theorem meets_ProgramCommandsMoveTheCores_2 :
    let r : Request := rq [(16, 1, 0)]
    let s : State := up
    let b := r.arg 16 1
    let l := List.filter (goodNode s) (s.basin b).rect.nodes
    (Admitted cmdProgStop r s) ∧ (s.store.found = []) ∧ (b ≤ 31) ∧ (r.arg 17 1 = 0) ∧ (r.arg 24 8 = 0) ∧ (settled s b = true) ∧ (∀ n ∈ l, (s.core n).v = []
      ∧ (s.core n).gops = []) ∧ (Admitted cmdCoreReset r s) ∧ (r.arg 16 1 ≤ 63) ∧ (r.arg 17 1 ≤ 31)
      ∧ (expects s (r.arg 16 1) (r.arg 17 1) = true) ∧ (seizing s (r.arg 17 1) = false) ∧ (hasCore s (r.arg 16 1) = true) := by
  dsimp only [Admitted, ServedAtOnce]; decide +kernel

theorem meets_ProgramCommandsMoveTheCores_3 :
    let r : Request := rq [(16, 1, 0xFF), (17, 1, 0)]
    let s : State := up
    (Admitted cmdDebugHalt r s) ∧ (s.store.found = []) ∧ (r.arg 16 1 = 255) ∧ (r.arg 17 1 ≤ 31) ∧ (r.arg 18 1 = 0) ∧ (settled s (r.arg 17 1) = true)
      ∧ (∃ n ∈ basinCores s (r.arg 17 1), (s.core n).run = CoreRun.running) ∧ (∀ n ∈ basinCores s (r.arg 17 1), (s.core n).v = []
      ∧ (s.core n).gops = []) := by
  dsimp only [Admitted, ServedAtOnce]; decide +kernel

theorem meets_ProgramCommandsMoveTheCores_6 :
    let r : Request := rq [(16, 1, 1), (18, 1, 88), (20, 4, 0x1FFFFFA8), (24, 64, 12345)]
    let s : State := up
    (Admitted cmdDebugPoke r s) ∧ (s.store.mem.flips = [] ∧ s.store.found = []) ∧ (r.arg 16 1 = 1) ∧ (debugBad r 88 = false) ∧ (poweredRange s (debugAddr r) (debugLength r) = true) := by
  dsimp only [Admitted, ServedAtOnce]; decide +kernel

theorem meets_ServiceRowsTakeRequestsInTheirOrder_0 :
    let s : State := ring 1 0x1400
    let e : Fin 6 := 1
    let l : List (Fin 6) := [0]
    let m : List (Fin 6) := [2, 3, 4, 5]
    let p := s.ep e
    let k := p.cons.toNat % 32
    let x := parseSlot e false (tget 0 p.src k) (tget [] p.req k)
    let c : Cmd := cmdPowerCap
    let u := { s.setEp e { p with cons := p.cons + 1 } with svc := { s.svc with last := e } }
    (commandOf x.1 = some c) ∧ (normalFree s = true) ∧ (roundRobin s.svc.last = l ++ e :: m) ∧ ((l.all fun f => !ready s f) = true)
      ∧ (ready s e = true) ∧ (passes (replyTo c x.2 u).status = true) ∧ (s.svc.urgentQ = []) := by
  refine ⟨rfl, ?_⟩
  decide +kernel

theorem meets_ServiceRowsTakeRequestsInTheirOrder_1 :
    let s : State := ring 5 0x1F00
    let e : Fin 6 := 5
    let l : List (Fin 6) := [0, 1, 2, 3, 4]
    let m : List (Fin 6) := []
    let p := s.ep ↑e
    let k := p.cons.toNat % 32
    let x := parseSlot e false (tget 0 p.src k) (tget [] p.req k)
    (normalFree s = true) ∧ (roundRobin s.svc.last = l ++ e :: m) ∧ ((l.all fun f => !ready s f) = true) ∧ (ready s e = true)
      ∧ (commandOf x.1 = none) := by decide +kernel

theorem meets_ServiceRowsTakeRequestsInTheirOrder_2 :
    let s : State := up
    ((∀ (e : Fin 6), ready s e = false) ∨ normalFree s = false) := by decide +kernel

theorem meets_ServiceRowsTakeRequestsInTheirOrder_3 :
    let s : State := urg 3 0x1400
    let e : Fin 6 := 3
    let r : List Nat := []
    let x := parseSlot e true (s.ep e).urgSrc (s.ep e).urgReq
    (commandOf x.1 = some cmdPowerCap) ∧ (s.svc.urgentQ = e.val :: r) ∧ (transportUp s e = true) ∧ (s.svc.urgent = none)
      ∧ (s.svc.muted = false) ∧ (s.seize = none) := by
  refine ⟨rfl, ?_⟩
  decide +kernel

theorem meets_ServiceRowsTakeRequestsInTheirOrder_4 :
    let s : State := urg 3 0x1F00
    let e : Fin 6 := 3
    let r : List Nat := []
    let x := parseSlot e true (s.ep ↑e).urgSrc (s.ep ↑e).urgReq
    (s.svc.urgentQ = ↑e :: r) ∧ (transportUp s ↑e = true) ∧ (s.svc.urgent = none) ∧ (s.svc.muted = false) ∧ (s.seize = none)
      ∧ (commandOf x.1 = none) := by decide +kernel

theorem meets_ServiceRowsTakeRequestsInTheirOrder_5 :
    let s : State := pre 300
    let k : InService := { req := rq [(16, 2, 300)], cmd := 0x1400, passed := true }
    let c : Cmd := cmdPowerCap
    let u := { s with svc := { s.svc with normal := none } }
    (commandOf k.cmd = some c) ∧ (s.svc.normal = some k) ∧ (k.waiting = false) ∧ (s.svc.urgent = none) ∧ (s.svc.paused = false)
      ∧ (inPause s = false) ∧ (transportUp s k.req.ep = true) ∧ (passes (replyTo c k.req u).status = true) := by
  refine ⟨rfl, ?_⟩
  decide +kernel

theorem meets_ServiceRowsTakeRequestsInTheirOrder_6 :
    let s : State := pre 99
    let k : InService := { req := rq [(16, 2, 99)], cmd := 0x1400, passed := true }
    let c : Cmd := cmdPowerCap
    let u := { s with svc := { s.svc with normal := none } }
    (commandOf k.cmd = some c) ∧ (s.svc.normal = some k) ∧ (k.waiting = false) ∧ (s.svc.urgent = none) ∧ (s.svc.paused = false)
      ∧ (inPause s = false) ∧ (transportUp s k.req.ep = true) ∧ (passes (replyTo c k.req u).status = false) := by
  refine ⟨rfl, ?_⟩
  decide +kernel

theorem meets_RequestPacketsTakeARingSlot_0 :
    let e : Fin 6 := 3
    let s : State := up.setEp 3 { prod := 33, cons := 2 }
    let p := s.ep ↑e
    (1 ≤ ↑e) ∧ (↑e ≤ 3) ∧ (transportUp s ↑e = true) ∧ (p.reqCount < 32) := by decide +kernel

theorem meets_RequestPacketsTakeARingSlot_1 :
    let e : Fin 6 := 1
    let s : State := up.setEp 1 { prod := 33, cons := 1 }
    let p := s.ep ↑e
    (1 ≤ ↑e) ∧ (↑e ≤ 3) ∧ (transportUp s ↑e = true) ∧ (32 ≤ p.reqCount) := by decide +kernel

theorem meets_ResetPulsesClearAllButTheKept_0 :
    let ns : Nat := 199
    (ns < 200) := by decide +kernel

theorem meets_ResetPulsesClearAllButTheKept_1 :
    let ns : Nat := 200
    (200 ≤ ns) ∧ (ns < 1000) := by decide +kernel

theorem meets_ResetPulsesClearAllButTheKept_3 :
    let ns : Nat := 1000
    let s : State := State.reset
    (1000 ≤ ns) ∧ (s.boot.rstLow = true) := by decide +kernel

theorem meets_ResetPulsesClearAllButTheKept_4 :
    let ns : Nat := 1000
    let s : State := { up with pending := [.coldReset], gateUnit := { gates := [(3, { value := 4 })] } }
    (1000 ≤ ns) ∧ (s.boot.rstLow = false) ∧ (s.boot.dead = false) := by decide +kernel

theorem meets_ReleaseSamplesTheStraps_0 :
    let s : State := State.reset
    (s.boot.rstLow = true) ∧ (s.boot.dead = false) ∧ (s.links = []) ∧ (s.fw.hand = none) := by decide +kernel

theorem meets_ReleaseSamplesTheStraps_2 :
    let s : State := up
    (s.boot.rstLow = false) := by decide +kernel

theorem meets_StopsAreLatched_0 :
    let rail : Fin 6 := 5
    let s : State := up
    (s.boot.dead = false) ∧ (s.boot.rstLow = false) ∧ (s.seize = none) ∧ (s.aon.rails.getLsbD ↑rail = true) ∧ (s.aon.refclkOk = true)
      ∧ (s.aon.stop.coolant = false) ∧ (s.aon.stop.trip = false) ∧ (s.boot.hold = false) := by decide +kernel

theorem meets_StopsAreLatched_1 :
    let s : State := { up with aon := { up.aon with refclkOk := false } }
    (s.boot.dead = false) ∧ (s.boot.rstLow = false) ∧ (s.seize = none) ∧ (s.aon.refclkOk = false) := by decide +kernel

theorem meets_StageZeroIsLeftOrHeld_0 :
    let s : State := at0
    (s.boot.stage = 0) ∧ (s.boot.rstLow = false) ∧ (s.boot.dead = false) ∧ (s.boot.passed = false) ∧ (slotInvalid s = false)
      ∧ (stopped s = false) ∧ (s.aon.coolantGood = true) ∧ (s.boot.pins.recovery = false) ∧ (s.aon.failed < 2)
      ∧ (s.fw.booting = false) := by decide +kernel

theorem meets_StageZeroIsLeftOrHeld_1 :
    let s : State := { at0 with aon := { at0.aon with coolantGood := false } }
    (s.boot.stage = 0) ∧ (s.boot.rstLow = false) ∧ (s.boot.dead = false) ∧ (s.boot.passed = false) ∧ (slotInvalid s = false)
      ∧ (stopped s = false) ∧ (s.aon.coolantGood = false) := by decide +kernel

theorem meets_StageZeroIsLeftOrHeld_2 :
    let s : State := { at0 with boot := { at0.boot with pins := ⟨16, false, false, 0⟩ } }
    (s.boot.stage = 0) ∧ (s.boot.rstLow = false) ∧ (s.boot.dead = false) ∧ (s.boot.passed = false)
      ∧ (slotInvalid s = true ∨ stopped s = true) := by decide +kernel

theorem meets_StageZeroIsLeftOrHeld_3 :
    let s : State := { at0 with boot := { at0.boot with pins := ⟨5, false, true, 0⟩ } }
    (s.boot.stage = 0) ∧ (s.boot.rstLow = false) ∧ (s.boot.dead = false) ∧ (s.boot.passed = false) ∧ (slotInvalid s = false)
      ∧ (stopped s = false) ∧ (s.aon.coolantGood = true) ∧ (s.boot.pins.recovery = true) := by decide +kernel

theorem meets_StageZeroIsLeftOrHeld_4 :
    let s : State := { at0 with aon := { at0.aon with failed := 2 } }
    (s.boot.stage = 0) ∧ (s.boot.rstLow = false) ∧ (s.boot.dead = false) ∧ (s.boot.passed = false) ∧ (slotInvalid s = false)
      ∧ (stopped s = false) ∧ (s.aon.coolantGood = true) ∧ (s.boot.pins.recovery = false) ∧ (2 ≤ s.aon.failed) := by decide +kernel

theorem meets_StageZeroIsLeftOrHeld_5 :
    let s : State := { up with boot := { up.boot with stage := 1 }, fw := { up.fw with booting := true } }
    (s.fw.booting = true) ∧ (s.boot.stage = 1) := by decide +kernel

/-- A point one degree above its bound, and a comparator that does not trip (R74). -/
theorem meets_StageZeroIsLeftOrHeld_6 :
    let temps : List Int := List.replicate 71 125 ++ [126]
    let trips : BitVec 72 := BitVec.allOnes 72
    (∃ k : Fin 72, temps.getD k 0 < -10 ∨ 125 < temps.getD k 0 ∨ trips.getLsbD k = false)
      ∧ thermalPathOk temps trips = false ∧ thermalPathOk (List.replicate 72 (-10)) 1 = false := by decide +kernel

theorem meets_StageZeroIsLeftOrHeld_7 :
    let temps : List Int := List.replicate 36 (-10) ++ List.replicate 36 125
    let trips : BitVec 72 := BitVec.allOnes 72
    (temps.length = 72) ∧ (∀ k : Fin 72, -10 ≤ temps.getD k 0 ∧ temps.getD k 0 ≤ 125 ∧ trips.getLsbD k = true)
      ∧ thermalPathOk temps trips = true := by decide +kernel

theorem meets_VerifiedImagesStartAndConfirm_0 :
    let d : Delivery := deliv
    let s : State := { up with boot := { up.boot with stage := 1 }, fw := { delivery := some deliv } }
    (stopped s = false) ∧ (s.fw.delivery = some d) ∧ (d.phase = DeliveryPhase.verifying) ∧ (s.boot.stage = 1) := by decide +kernel

theorem meets_VerifiedImagesStartAndConfirm_1 :
    let d : Delivery := deliv
    let s : State := { up with fw := { up.fw with delivery := some deliv } }
    (stopped s = false) ∧ (s.fw.delivery = some d) ∧ (d.phase = DeliveryPhase.verifying) ∧ (s.boot.stage = 3) := by decide +kernel

theorem meets_VerifiedImagesStartAndConfirm_2 :
    let i : ImageInfo := { version := 1 }
    let s : State := { up with boot := { up.boot with stage := 1 }, fw := { booting := true, image := some { version := 1 } } }
    (stopped s = false) ∧ (s.fw.booting = true) ∧ (s.fw.image = some i) ∧ (s.svc.paused = false) := by decide +kernel

theorem meets_VerifiedImagesStartAndConfirm_3 :
    let r : Request := rq [(16, 4, 1835008), (20, 2, 448), (22, 2, 5)]
    let s : State := { up with boot := { up.boot with stage := 1 }, fw := {} }
    (stopped s = false) ∧ (Admitted cmdFwBegin r s) ∧ (sizeOk (r.arg 16 4) = true) ∧ (r.arg 20 2 = r.arg 16 4 / 4096) ∧ (s.boot.stage ≠ 8)
      ∧ (s.fw.hand = none) ∧ (s.fw.booting = false) ∧ (s.fw.delivery = none) := by
  dsimp only [Admitted, ServedAtOnce]; decide +kernel

theorem meets_VerifiedImagesStartAndConfirm_5 :
    let d : Delivery := recv
    let r : Request := rq [(16, 2, 16), (18, 1, 63), (20, 4, 0x12345678), (24, 64, 0x9999)]
    let s : State := { up with fw := { up.fw with delivery := some recv } }
    (stopped s = false) ∧ (Admitted cmdFwBlock r s) ∧ (s.fw.delivery = some d) ∧ (d.phase = DeliveryPhase.receiving) ∧ (d.ep = ↑r.ep)
      ∧ (r.arg 16 2 < d.blocks) ∧ (r.arg 16 2 < 448) ∧ (r.arg 18 1 < 64) ∧ (d.present.contains (r.arg 16 2) = false) ∧ (d.frags = []) := by
  dsimp only [Admitted, ServedAtOnce]; decide +kernel

theorem meets_VerifiedImagesStartAndConfirm_6 :
    let d : Delivery := { recv with present := List.range 17 }
    let r : Request := rq []
    let s : State := { up with fw := { up.fw with delivery := some { recv with present := List.range 17 } } }
    (stopped s = false) ∧ (Admitted cmdFwVerify r s) ∧ (s.fw.hand = none) ∧ (s.fw.delivery = some d) ∧ (d.phase = DeliveryPhase.receiving)
      ∧ (d.whole = true) ∧ (Admitted cmdFwAbort r s) ∧ (d.origin = none) := by
  dsimp only [Admitted, ServedAtOnce]; decide +kernel

theorem meets_VerifiedImagesStartAndConfirm_7 :
    let d : Delivery := { recv with phase := .verified }
    let i : ImageInfo := { version := 1, schema := 1, size := 8192, iface := 1 }
    let r : Request := rq [(16, 4, 30000)]
    let s : State := { up with fw := { up.fw with delivery := some { recv with phase := .verified } } }
    (stopped s = false) ∧ (Admitted cmdFwHandover r s) ∧ (100 ≤ r.arg 16 4) ∧ (r.arg 16 4 ≤ 30000) ∧ (s.fw.hand = none)
      ∧ (s.fw.delivery = some d) ∧ (s.fw.image = some i) ∧ (d.phase = DeliveryPhase.verified) ∧ (s.settings.pending = [])
      ∧ (firmwareWork s = false) := by
  dsimp only [Admitted, ServedAtOnce]; decide +kernel

theorem meets_StageTwoSettlesThePorts_0 :
    let s : State := { up with boot := { up.boot with stage := 2, marked := false } }
    (s.boot.stage = 2) ∧ (stopped s = false) ∧ (s.boot.marked = false) ∧ (stage2Done s = false) := by decide +kernel

theorem meets_StageTwoSettlesThePorts_1 :
    let s : State := { up with boot := { up.boot with stage := 2 } }
    (s.boot.stage = 2) ∧ (stopped s = false) ∧ (stage2Done s = true) := by decide +kernel

theorem meets_PreparationTestsSegmentsAndCores_0 :
    let s : State := { up with boot := { up.boot with preparing := true, tested := false } }
    (s.boot.stage = 3) ∧ (s.boot.preparing = true) ∧ (stopped s = false) ∧ (s.boot.tested = false) := by decide +kernel

theorem meets_PreparationTestsSegmentsAndCores_1 :
    let s : State := { up with boot := { up.boot with preparing := true } }
    let bad : BitVec 64 := 5
    let path : BitVec 64 := 0xFFFFFFFF00000000
    let t := nextOf (exec (Instr.coreSelfTestComplete bad path) s)
    (s.boot.stage = 3) ∧ (s.boot.preparing = true) ∧ (stopped s = false) ∧ (s.boot.tested = true)
      ∧ (∃ n : Fin 64, floorNode t path ↑n = true) := by decide +kernel

theorem meets_PreparationTestsSegmentsAndCores_2 :
    let bad : BitVec 64 := 0xFFFFFFFF00000000
    let path : BitVec 64 := 0x00000000FFFFFFFF
    let s : State := { up with boot := { up.boot with preparing := true } }
    let t := nextOf (exec (Instr.coreSelfTestComplete bad path) s)
    (s.boot.stage = 3) ∧ (s.boot.preparing = true) ∧ (stopped s = false) ∧ (s.boot.tested = true)
      ∧ (∀ (n : Fin 64), floorNode t path ↑n = false) := by decide +kernel

theorem meets_HandoversExchangeAndConfirm_0 :
    let h : Handover := hh .accepted
    let s : State := hov .accepted 0
    (s.fw.hand = some h) ∧ (h.phase = HandPhase.accepted) ∧ (s.svc.normal = none) := by decide +kernel

theorem meets_HandoversExchangeAndConfirm_1 :
    let h : Handover := hh .falling
    let s : State := hov .falling 0
    (s.fw.hand = some h) ∧ (h.phase = HandPhase.falling) ∧ (s.svc.normal = none) := by decide +kernel

theorem meets_HandoversExchangeAndConfirm_2 :
    let h : Handover := hh .exchanging
    let s : State := hov .exchanging 0
    (s.fw.hand = some h) ∧ (h.phase = HandPhase.exchanging) ∧ (s.fw.reruns = []) ∧ ((List.map Prod.fst s.fw.running).Nodup)
      ∧ ((List.map Prod.fst s.fw.alternate).Nodup) := by decide +kernel

theorem meets_HandoversExchangeAndConfirm_3 :
    let h : Handover := hh .restoring
    let s : State := hov .restoring 0
    (s.fw.hand = some h) ∧ (h.phase = HandPhase.restoring) ∧ (s.fw.reruns = []) ∧ ((List.map Prod.fst s.fw.running).Nodup)
      ∧ ((List.map Prod.fst s.fw.alternate).Nodup) := by decide +kernel

theorem meets_HandoversExchangeAndConfirm_4 :
    let h : Handover := hh .started
    let s : State := hov .started 0
    (s.fw.hand = some h) ∧ (h.phase = HandPhase.started) ∧ (h.phase = HandPhase.awaiting ∨ h.phase = HandPhase.started)
      ∧ (s.aon.failed = 0) := by decide +kernel

theorem meets_HandoversExchangeAndConfirm_5 :
    let h : Handover := hh .awaiting
    let s : State := hov .awaiting 1
    (s.fw.hand = some h) ∧ (h.phase = HandPhase.awaiting) ∧ (h.phase = HandPhase.awaiting ∨ h.phase = HandPhase.started)
      ∧ (s.aon.failed = 1) := by decide +kernel

theorem meets_WatchdogExpiriesRecoverThenReset_0 :
    let s : State := { up with settings := { pending := [(0x10, [1, 1])] } }
    (watchdogRuns s = true) ∧ (s.fw.hand = none) ∧ (s.svc.normal = none) ∧ (s.seize = none) ∧ (recentExpiries s = [])
      ∧ (s.svc.muted = false) := by decide +kernel

theorem meets_WatchdogExpiriesRecoverThenReset_1 :
    let s : State := { up with svc := { expiries := [4000] } }
    (watchdogRuns s = true) ∧ (s.fw.hand = none) ∧ (recentExpiries s ≠ []) := by decide +kernel

theorem meets_WatchdogExpiriesRecoverThenReset_2 :
    let s : State := { up with svc := { paused := true } }
    (watchdogRuns s = true) ∧ (s.svc.paused = true) ∧ (s.svc.noReturn = false) ∧ (s.fw.hand = none) := by decide +kernel

theorem meets_OperatingPointsChangeInOrder_0 :
    let c : OpChange := ⟨9, true, false, false, true⟩
    let num : Byte := 3
    let s : State := chg ⟨9, true, false, false, true⟩
    let mv : W16 := BitVec.ofNat 16 (pointMv s c.target)
    (s.head.change = some c) ∧ (c.requested = true) ∧ (num = s.head.reqNum) ∧ (mv.toNat = pointMv s c.target) ∧ (c.raise = true) ∧ (c.pllLocked = false)
      ∧ (c.acked = false) := by decide +kernel

theorem meets_OperatingPointsChangeInOrder_1 :
    let c : OpChange := ⟨9, true, false, true, true⟩
    let num : Byte := 3
    let s : State := chg ⟨9, true, false, true, true⟩
    let mv : W16 := BitVec.ofNat 16 (pointMv s c.target)
    (s.head.change = some c) ∧ (c.requested = true) ∧ (num = s.head.reqNum) ∧ (mv.toNat = pointMv s c.target) ∧ (c.raise = true) ∧ (c.pllLocked = true) := by decide +kernel

theorem meets_OperatingPointsChangeInOrder_2 :
    let c : OpChange := ⟨2, false, false, true, true⟩
    let num : Byte := 3
    let s : State := chg ⟨2, false, false, true, true⟩
    let mv : W16 := BitVec.ofNat 16 (pointMv s c.target)
    (s.head.change = some c) ∧ (c.requested = true) ∧ (num = s.head.reqNum) ∧ (mv.toNat = pointMv s c.target) ∧ (c.raise = false) := by decide +kernel

theorem meets_OperatingPointsChangeInOrder_3 :
    let c : OpChange := ⟨2, false, false, false, false⟩
    let num : Byte := 3
    let s : State := chg ⟨2, false, false, false, false⟩
    (s.head.change = some c) ∧ (c.requested = false ∨ num ≠ s.head.reqNum) ∧ (c.pllLocked = false) ∧ (c.raise = false) := by decide +kernel

theorem meets_OperatingPointsChangeInOrder_4 :
    let c : OpChange := ⟨9, true, true, false, true⟩
    let s : State := chg ⟨9, true, true, false, true⟩
    (s.head.change = some c) ∧ (c.pllLocked = false) ∧ (c.raise = true) ∧ (c.acked = true) := by decide +kernel

theorem meets_LimitersWithholdMatrixIssue_0 :
    let f : List Nat := fc
    let s : State := up
    let below : BitVec 16 := 0x8000
    let d : Nat := 3
    let w : Nat := 1
    (loops s = true) ∧ (s.head.droop = false) ∧ (s.head.floor + 50 * s.head.ramp < f.sum) ∧ (below ≠ 0) ∧ (s.head.stalls = []) ∧ (s.fw.hand = none) ∧ (s.head.pace = none)
      ∧ (d < 4 * w) := by decide +kernel

theorem meets_LimitersWithholdMatrixIssue_1 :
    let f : List Nat := List.replicate 64 10
    let s : State := { up with head := { up.head with pace := some 9, floor := 2000, stalls := [10] } }
    let below : BitVec 16 := 0
    (loops s = true) ∧ (s.head.droop = false) ∧ (f.sum ≤ s.head.floor + 50 * s.head.ramp) ∧ (below = 0) ∧ (∃ a ∈ s.head.stalls, s.time.elapsed < a + 1000000000) ∧ (s.boot.dead = false)
      ∧ (s.head.pace.isSome = true) := by decide +kernel

theorem meets_LimitersWithholdMatrixIssue_2 :
    let f : List Nat := List.replicate 64 10
    let s : State := { up with head := { up.head with floor := 1600 } }
    (loops s = true) ∧ (s.head.droop = false) ∧ (f.sum ≤ s.head.floor + 50 * s.head.ramp) ∧ (f.length = 64) ∧ (stopped s = false)
      ∧ (∀ e ∈ s.die.cores, e.2.hint = none) ∧ (s.head.floor - 50 * s.head.ramp ≤ f.sum + spillRoom s f f)
      ∧ (s.head.floor - 50 * s.head.ramp ≤ limitCurrent s.head) := by
  refine ⟨by decide, by decide, by decide, by decide, by decide, by decide, Nat.le_trans (by decide) (Nat.le_add_right _ _), ?_⟩
  decide +kernel

theorem meets_LimitersWithholdMatrixIssue_3 :
    let s : State := { up with head := { up.head with droop := true } }
    (loops s = true) ∧ (s.head.droop = true) ∧ (loops State.reset = false) := by decide

theorem meets_OperatingPointsChangeInOrder_5 :
    let c : OpChange := ⟨9, true, false, false, true⟩
    let s : State := chg ⟨9, true, false, false, true⟩
    (s.head.change = some c) ∧ (c.requested = true) ∧ (c.acked = false) ∧ (s.head.op ≤ chosenPoint s) := by decide +kernel

theorem meets_EstimatesReportsAndTemperaturesAreTaken_0 :
    let s : State := up
    let h := s.head
    let temps : List Int := List.replicate 71 50 ++ [126]
    (loops s = true) ∧ (h.dither = none) ∧ (temps.length = 72) ∧ (s.seize = none) ∧ (h.pace = none) := by decide +kernel

theorem meets_EstimatesReportsAndTemperaturesAreTaken_1 :
    let d : Dither := ⟨38, 5, true, false⟩
    let s : State := { up with head := { up.head with dither := some ⟨38, 5, true, false⟩, pace := some 15, reports := List.replicate 200 ⟨[1,2,3,4],[0,0,0,0],[1,1,1,1],8,2⟩ } }
    let h := s.head
    let op : Nat := 15
    (loops s = true) ∧ (h.dither = some d) ∧ (d.slot < 39) ∧ (h.ditherOn = true) ∧ (h.pace = some op) := by decide +kernel

theorem meets_EstimatesReportsAndTemperaturesAreTaken_2 :
    let d : Dither := ⟨39, 5, true, false⟩
    let s : State := { up with head := { up.head with dither := some ⟨39, 5, true, false⟩, pace := some 9 } }
    let h := s.head
    (loops s = true) ∧ (h.dither = some d) ∧ (39 ≤ d.slot ∨ h.ditherOn = false) := by decide +kernel

theorem meets_DetectionsStopWhatTheyMust_0 :
    let n : Fin 64 := 0
    let s : State := faultable
    let b : Nat := 0
    let addr : W32 := 0x1FFFFFFF
    (s.fw.hand = none) ∧ (basinOf s n = some b) ∧ ((s.basin b).lattice = false) ∧ (seizing s b = false) ∧ ((s.core n).run = CoreRun.running)
      ∧ ((s.core n).gops = []) ∧ (s.seize = none) ∧ ((s.seg (segOf (addr.toNat / 4 * 4))).retired = false)
      ∧ ((s.seg (segOf (addr.toNat / 4 * 4))).hits = []) ∧ ∀ g : Nat, (s.gate g).holder = none := by
  refine ⟨?_, ?_, ?_, ?_, ?_, ?_, ?_, ?_, ?_, fun g => tget_all (P := fun g : Gate => g.holder = none) ?_ ?_ g⟩ <;> decide +kernel

theorem meets_DetectionsStopWhatTheyMust_0_1 :
    let s : State := faultable
    let b : Fin 32 := 0
    (s.fw.hand = none) ∧ (s.seize = none) ∧ ((s.basin ↑b).state = BasinState.active) := by decide +kernel

theorem meets_DetectionsStopWhatTheyMust_1 :
    let n : Fin 64 := 1
    let s : State := up
    (s.fw.hand = none) ∧ ((s.core ↑n).run = CoreRun.idle ∨ (s.core ↑n).run = CoreRun.faulted) := by decide +kernel

theorem meets_BackgroundWorkEndsInItsEffect_0 :
    let s : State := { up with store := { up.store with wake := some ⟨List.range 70, [100, 101], 72⟩ } }
    let j : WakeJob := (⟨List.range 70, [100, 101], 72⟩ : WakeJob)
    (s.fw.hand = none) ∧ (s.store.wake = some j) ∧ (j.waiting ≠ []) := by decide +kernel

theorem meets_BackgroundWorkEndsInItsEffect_1 :
    let s : State := { mem0 with store := { mem0.store with zero := [⟨1, true, [1], [3], org⟩] } }
    let b : Fin 32 := 1
    let k : Nat := 1
    let d : List Byte := [3]
    let o : Origin := org
    let j : Nat := (2 : Nat)
    (s.fw.hand = none) ∧ (s.store.wake = none)
      ∧ (s.store.zero = [{ basin := ↑b, destroyed := true, segs := [k], detail := d, origin := o }]) ∧ (segmentQueued s k = false) ∧ ((s.seg k).retired = false)
      ∧ (j ≠ k) := by decide +kernel

theorem meets_BackgroundWorkEndsInItsEffect_2 :
    let s : State := mem0.modBasin 1 (fun v => { v with load := some job })
    let b : Fin 32 := 1
    let j : LoadJob := job
    (s.fw.hand = none) ∧ ((s.basin ↑b).load = some j) ∧ (firstBad s.mem j.src j.len = none)
      ∧ (crc32c (s.mem.read j.src j.len) = BitVec.toNat j.check) := by decide +kernel

theorem meets_BackgroundWorkEndsInItsEffect_3 :
    let s : State := mem0.modBasin 1 (fun v => { v with load := some { job with check := 1 } })
    let b : Fin 32 := 1
    let j : LoadJob := { job with check := 1 }
    (s.fw.hand = none) ∧ ((s.basin ↑b).load = some j) ∧ (firstBad s.mem j.src j.len = none)
      ∧ (crc32c (s.mem.read j.src j.len) ≠ BitVec.toNat j.check) := by decide +kernel

theorem meets_BackgroundWorkEndsInItsEffect_4 :
    let s : State := { mem0 with store := { mem0.store with queues := [(63, [part])], ops := [⟨1, 0, 0x1FFFFF00, 0, 8, 1⟩] } }
    let k : Fin 64 := 63
    let p : MemPart := part
    let r : List MemPart := []
    (s.fw.hand = none) ∧ (sliceQueue s ↑k = p :: r) ∧ (p.work = .copy 1 0) ∧ (s.store.found = []) ∧ (firstBad s.mem 0 p.len = none) := by decide +kernel

theorem meets_BackgroundWorkEndsInItsEffect_5 :
    let p : MemPart := { dst := 0x1FF00000, len := 0x100000, work := .seg 0 }
    let s : State := { mem0 with store := { mem0.store with queues := [(63, [p])] } }
    (s.fw.hand = none) ∧ (sliceQueue s 63 = [p]) ∧ (s.store.found = []) ∧ ((s.seg (segOf p.dst)).power = .on) := by decide +kernel

theorem meets_BackgroundWorkEndsInItsEffect_fill :
    let s : State := { mem0 with store := { mem0.store with fills := [⟨5, [1], [3], org⟩] } }
    (s.fw.hand = none) ∧ (s.store.fills = [⟨5, [1], [3], org⟩]) ∧ (segmentQueued s 1 = false) := by decide +kernel

theorem meets_DiscoveryRowsTakeEffect_0 :
    let d : Disc := disc9
    let s : State := fab (fun k => { k with fixed := false })
    let r : Request := rq [(16, 1, 1), (17, 1, 1)]
    let sh := { shape := byte (r.arg 16 1), layout := byte (r.arg 17 1), twist := BitVec.ofNat 16 (r.arg 18 2) }
    (s.fw.hand = none) ∧ (s.dma.reads = []) ∧ (s.fabric.current = none) ∧ (s.fabric.fixed = false) ∧ (d.mode ≠ 2) ∧ (s.fabric.fa ≠ 65535)
      ∧ (s.fabric.last.origin = none) ∧ (Admitted cmdFabricShapeSet r s) ∧ (shapeOk sh = true) ∧ (Admitted cmdRouteLoad r s)
      ∧ (applying s = false)
      ∧ (r.arg 16 1 ≤ 1) ∧ (1 ≤ r.arg 17 1) ∧ (r.arg 17 1 ≤ 12) ∧ (r.arg 20 1 = 0) ∧ (r.arg 18 2 + r.arg 17 1 ≤ tableSize (r.arg 16 1))
      ∧ ((loadEntries r).all (entryOk (r.arg 16 1)) = true) := by
  dsimp only [Admitted, ServedAtOnce]; decide +kernel

theorem meets_DiscoveryRowsTakeEffect_1 :
    let d : Disc := disc9
    let s : State := fab (fun k => { k with fixed := false, current := some ⟨disc9, some 0, {}, [], 0⟩ })
    let f : W16 := 9
    let c : CurrentDisc := (⟨disc9, some 0, {}, [], 0⟩ : CurrentDisc)
    (s.fw.hand = none) ∧ (s.dma.reads = []) ∧ (dropsFlood s d = true) ∧ (s.fabric.current = some c) ∧ (c.d = d) ∧ (c.seen.contains f = false)
      ∧ (f ≠ s.fabric.fa) := by decide +kernel

theorem meets_DiscoveryRowsTakeEffect_2 :
    let d : Disc := ⟨6, 3, 1, 1, 2, 0, 0⟩
    let s : State := up
    let r : Request := rq [(16, 1, 0), (17, 1, 1)]
    (s.fw.hand = none) ∧ (s.dma.reads = []) ∧ (s.fabric.current = none) ∧ (s.fabric.fixed = true) ∧ (formOf d ≠ s.fabric.shape)
      ∧ (Admitted cmdFabricDiscover r s) ∧ (r.arg 16 1 = 0) ∧ (r.arg 17 1 ≤ 2) := by
  dsimp only [Admitted, ServedAtOnce]; decide +kernel

theorem meets_DiscoveryRowsTakeEffect_3 :
    let d : Disc := discOwn
    let f : W16 := 9
    let s : State := fab (fun k => { k with last := lastRun })
    (s.fw.hand = none) ∧ (s.dma.reads = []) ∧ (d.orig = s.fabric.fa) ∧ (s.fabric.fa ≠ 65535) ∧ (d.num = s.fabric.last.num) ∧ (s.fabric.last.origin.isSome = true)
      ∧ ((s.fabric.last.replies.all fun e => decide (e.1 ≠ f)) = true) := by decide +kernel

theorem meets_DiscoveryRowsTakeEffect_4 :
    let d : Disc := discOwn
    let s : State := up
    (s.fw.hand = none) ∧ (s.dma.reads = []) ∧ (d.orig = s.fabric.fa) ∧ (s.fabric.fa ≠ 65535)
      ∧ (d.num ≠ s.fabric.last.num ∨ s.fabric.last.origin = none) := by decide +kernel

theorem meets_DiscoveryRowsTakeEffect_5 :
    let s : State := { up with boot := { up.boot with pins := ⟨5, false, false, 1⟩ } }
    let r : Request := rq [(16, 1, 1), (17, 1, 1)]
    (s.fw.hand = none) ∧ (s.dma.reads = []) ∧ (Admitted cmdFabricDiscover r s) ∧ (r.arg 16 1 = 1) ∧ (r.arg 17 1 ≤ 2) ∧ (s.fabric.fa ≠ 65535)
      ∧ ((proposedShape s).shape ≠ 0) ∧ (s.fabric.last.origin = none) ∧ (s.fabric.current = none) := by
  dsimp only [Admitted, ServedAtOnce]; decide +kernel

theorem meets_DiscoveryRowsTakeEffect_7 :
    let s : State := fab (fun k => { k with shadow := { dest := [(9, 5)] } })
    let r : Request := rq [(16, 1, 0), (17, 1, 0), (18, 2, 10), (20, 1, 1)]
    (s.fw.hand = none) ∧ (s.dma.reads = []) ∧ (Admitted cmdRouteLoad r s) ∧ (applying s = false) ∧ (r.arg 16 1 ≤ 1) ∧ (r.arg 17 1 = 0) ∧ (r.arg 20 1 = 1)
      ∧ (r.arg 18 2 ≤ tableSize (r.arg 16 1)) := by
  dsimp only [Admitted, ServedAtOnce]; decide +kernel

theorem meets_DiscoveryRowsTakeEffect_9 :
    let s : State := fab (fun k => { k with current := some ⟨disc9, some 0, {}, [], 10000000000⟩ })
    let r : Request := rq [(16, 1, 0), (17, 1, 0), (18, 2, 10), (20, 1, 1)]
    (s.fw.hand = none) ∧ (s.dma.reads = []) ∧ (Admitted cmdRouteLoad r s) ∧ (applying s = true) ∧ (r.arg 16 1 ≤ 1) ∧ (r.arg 17 1 = 0) ∧ (r.arg 20 1 = 1)
      ∧ (r.arg 18 2 ≤ tableSize (r.arg 16 1)) := by
  dsimp only [Admitted, ServedAtOnce]; decide +kernel

/-- A flood from slot 0 of a rack by a C port of the torus gives the FA of the next chiplet, in the originator's pod. -/
theorem meets_DiscoveryRowsTakeEffect_10 :
    let d : Disc := { disc9 with mode := 2 }
    ∃ q : Fin 20, ∃ f, derivedFa d 0 q = some f ∧ f ≠ 0xFFFF ∧ (∀ k : Fin 2,
      let s : State := { fab (fun k => { k with fixed := false, fa := 0xFFFF }) with boot := { up.boot with
        pins := ⟨BitVec.ofNat 5 (faSlot f + k), false, false, 0⟩ } }
      (s.fw.hand = none) ∧ (s.fabric.current = none) ∧ (s.fabric.fixed = false) ∧ (d.mode = 2) ∧ (s.fabric.fa = 0xFFFF)
        ∧ ((faSlot f = s.boot.pins.slotId.toNat) ↔ k = 0)) :=
  ⟨2, _, rfl, by decide +kernel⟩

theorem meets_DiscoveryRowsTakeEffect_8 :
    let s : State := { up with boot := { up.boot with stage := 2 } }
    let r : Request := rq [(16, 2, 5)]
    let fa := BitVec.ofNat 16 (r.arg 16 2)
    (s.fw.hand = none) ∧ (s.dma.reads = []) ∧ (Admitted cmdFabricAddrSet r s) ∧ (faSlot fa < 16) ∧ (faSlot fa = s.boot.pins.slotId.toNat) ∧ (s.boot.stage = 2) := by
  dsimp only [Admitted, ServedAtOnce]; decide +kernel

theorem meets_TimeFollowsTheGrandmaster_0 :
    let s : State := up
    let n : Nomination := nom1
    let q : Fin 20 := 0
    let m : TimeMsg := tm1
    let u := hear s (↑q) m
    let r : Request := rq []
    (s.fw.hand = none) ∧ (s.boot.rstLow = false) ∧ (s.boot.dead = false) ∧ (s.time.nextPeriod = none) ∧ (s.time.period ≠ 0)
      ∧ (BitVec.toNat s.time.count + BitVec.toNat s.time.period < 2 ^ 64) ∧ (prevails n s.time = true) ∧ (s.time.nominated = none)
      ∧ (portUp s ↑q = true) ∧ (u.time.gmFa ≠ u.fabric.fa) ∧ (bestParent u = some ↑q) ∧ (s.time.holdover = false ∨ s.time.parent ≠ none)
      ∧ (isGm s = true) ∧ (Admitted cmdTimeMaster r s) ∧ (r.arg 16 1 = 0) ∧ (r.arg 20 4 = 0) := by
  dsimp only [Admitted, ServedAtOnce]; decide +kernel

theorem meets_TimeFollowsTheGrandmaster_1 :
    let n : Nomination := nom1
    let s : State := tmState (fun t => { t with gmFa := 6, definition := some nom1, holdover := true })
    let q : Fin 20 := 3
    let low : W16 := 4
    (s.fw.hand = none) ∧ (prevails n s.time = false) ∧ (portUp s ↑q = false) ∧ (s.time.holdover = true) ∧ (s.time.parent = none)
      ∧ (isGm s = false) ∧ (low ≠ s.time.gmFa) := by decide +kernel

theorem meets_TimeFollowsTheGrandmaster_2 :
    let n : Nomination := { nom1 with mode := 2 }
    let o : Origin := ⟨0, false, 5, 7, 5, 0x0500⟩
    let s : State := tmState (fun t => { t with nominated := some ({ nom1 with mode := 2 }, ⟨0, false, 5, 7, 5, 0x0500⟩) })
    (s.fw.hand = none) ∧ (s.time.nominated = some (n, o)) ∧ (s.time.locked = true) ∧ (n.mode = 2) := by decide +kernel

theorem meets_TimeFollowsTheGrandmaster_later :
    let s : State := { up with time := { up.time with definition := some ⟨1, 2000, 3, 6, 1000000⟩ } }
    (s.fw.hand = none) ∧ (Admitted cmdTimeMaster (rq []) s) ∧ ((rq []).arg 16 1 = 0) ∧ ((rq []).arg 20 4 = 0) ∧ (s.time.nominated = none)
      ∧ (∃ k ∈ s.time.definition, (stamp s).toNat < k.ts.toNat) := by
  unfold Admitted ServedAtOnce; decide +kernel

theorem meets_TimeFollowsTheGrandmaster_3 :
    let q : Fin 20 := 0
    let m : TimeMsg := tm1
    let t4 : W64 := 310
    let s : State := tmState tpar
    let u := hear s (↑q) m
    let x := twiceOffset m t4
    (s.fw.hand = none) ∧ (portUp s ↑q = true) ∧ (u.time.gmFa ≠ u.fabric.fa) ∧ (bestParent u = some ↑q) ∧ (u.time.locked = false)
      ∧ (x.natAbs ≤ 4) := by decide +kernel

theorem meets_TimeFollowsTheGrandmaster_4 :
    let q : Fin 20 := 0
    let m : TimeMsg := tm1
    let t4 : W64 := 410
    let s : State := tmState tpar
    let u := hear s (↑q) m
    let x := twiceOffset m t4
    (s.fw.hand = none) ∧ (portUp s ↑q = true) ∧ (u.time.gmFa ≠ u.fabric.fa) ∧ (bestParent u = some ↑q) ∧ (u.time.locked = false)
      ∧ (4 < x.natAbs) := by decide +kernel

theorem meets_TimeFollowsTheGrandmaster_5 :
    let q : Fin 20 := 0
    let m : TimeMsg := tm1
    let s : State := tmState (fun t => { tpar t with locked := true, parent := some 0 })
    let u := hear s (↑q) m
    (s.fw.hand = none) ∧ (portUp s ↑q = true) ∧ (u.time.gmFa ≠ u.fabric.fa) ∧ (bestParent u = some ↑q) ∧ (u.time.locked = true)
      ∧ (u.time.parent = some ↑q) := by decide +kernel

theorem meets_GangRowsFollowTheProtocol_0 :
    let kind : Byte := 2
    let tn : W16 := 7
    let b : Fin 32 := 0
    let w : Byte := 2
    let h : Byte := 1
    let md : Byte := 0
    let s : State := up
    let fits := kind ≠ 2 ∨ (basinRect (s.basin ↑b)).w = BitVec.toNat w ∧ (basinRect (s.basin ↑b)).h = BitVec.toNat h
      ∧ (s.basin ↑b).lattice = (md == 1)
    (s.fw.hand = none) ∧ (s.store.found = []) ∧ ((s.basin ↑b).state ≠ BasinState.free) ∧ ((s.basin ↑b).tenant = tn) ∧ (gangOf s ↑b = none)
      ∧ (s.fabric.gangs.length < 16) ∧ (fits) := by decide +kernel

theorem meets_GangRowsFollowTheProtocol_1 :
    let tn : W16 := 9
    let b : Fin 32 := 0
    let s : State := ganged (gMember .tentative)
    let g : Gang := gMember .tentative
    (s.fw.hand = none) ∧ (s.store.found = [])
      ∧ ((s.basin ↑b).state = BasinState.free ∨ (s.basin ↑b).tenant ≠ tn ∨ (gangOf s ↑b).isSome = true ∨ 16 ≤ s.fabric.gangs.length)
      ∧ (sameGang s 6 2 = [g]) ∧ (g.phase = GangPhase.tentative) ∧ (g.phase ≠ GangPhase.active) := by decide +kernel

theorem meets_GangRowsFollowTheProtocol_2 :
    let g : Gang := gMember .active
    let s : State := ganged (gMember .active)
    (s.fw.hand = none) ∧ (s.store.found = []) ∧ (sameGang s 6 2 = [g]) ∧ (g.phase ≠ GangPhase.tentative) ∧ (g.members = [])
      ∧ (g.phase = GangPhase.active) ∧ ((6 : W16) ≠ s.fabric.fa) ∧ ((s.basin g.basin).state = BasinState.active) ∧ (silent s g 0 = true)
      ∧ ∀ n : Nat, (s.core n).v = [] ∧ (s.core n).gops = [] := by
  refine ⟨?_, ?_, ?_, ?_, ?_, ?_, ?_, ?_, ?_, fun n => tget_all (P := fun c : Core => c.v = [] ∧ c.gops = []) ?_ ?_ n⟩ <;> decide +kernel

theorem meets_GangRowsFollowTheProtocol_heard :
    let g : Gang := { gMember .active with beats := [(0, 5000)] }
    let s : State := ganged { gMember .active with beats := [(0, 5000)] }
    (s.fw.hand = none) ∧ (s.store.found = []) ∧ (sameGang s 6 2 = [g]) ∧ (g.phase = GangPhase.active) ∧ ((6 : W16) ≠ s.fabric.fa)
      ∧ ((s.basin g.basin).state = BasinState.active) ∧ (silent s g 0 = false)
      ∧ ∀ n : Nat, (s.core n).v = [] ∧ (s.core n).gops = [] := by
  refine ⟨?_, ?_, ?_, ?_, ?_, ?_, ?_, fun n => tget_all (P := fun c : Core => c.v = [] ∧ c.gops = []) ?_ ?_ n⟩ <;> decide +kernel

theorem meets_GangRowsFollowTheProtocol_master :
    let g : Gang := g2
    let s : State := ganged g2
    let mem : Byte := 2
    (s.fw.hand = none) ∧ (s.store.found = []) ∧ (sameGang s 5 2 = [g]) ∧ (g.phase = GangPhase.active) ∧ (g.members ≠ []) ∧ ((5 : W16) = s.fabric.fa)
      ∧ (0 < mem.toNat) ∧ (mem.toNat < g.members.length) ∧ ((s.basin g.basin).state = BasinState.active)
      ∧ (∃ e ∈ otherMembers g, e.2.fa = 7 ∧ silent s g e.1 = true)
      ∧ ∀ n : Nat, (s.core n).v = [] ∧ (s.core n).gops = [] := by
  refine ⟨?_, ?_, ?_, ?_, ?_, ?_, ?_, ?_, ?_, ?_, fun n => tget_all (P := fun c : Core => c.v = [] ∧ c.gops = []) ?_ ?_ n⟩ <;> decide +kernel

theorem meets_GangRowsFollowTheProtocol_3 :
    let m : W16 := 6
    let g : Gang := gMember .halted
    let s : State := ganged (gMember .halted)
    let r : Request := rq [(16, 1, 2), (18, 2, 6)]
    let num := byte (r.arg 16 1)
    (s.fw.hand = none) ∧ (s.store.found = []) ∧ (Admitted cmdGangDissolve r s) ∧ (r.arg 16 1 ≤ 15) ∧ (m = BitVec.ofNat 16 (r.arg 18 2))
      ∧ (m ≠ s.fabric.fa) ∧ (findGang s m num = some g) ∧ (g.phase = GangPhase.halted) ∧ (sameGang s m num = [g]) ∧ (g.phase ≠ GangPhase.active)
      ∧ (g.members = []) := by
  dsimp only [Admitted, ServedAtOnce]; decide +kernel

theorem meets_GangRowsFollowTheProtocol_4 :
    let mem : Byte := 2
    let g : Gang := g1 .forming [1] []
    let s : State := ganged (g1 .forming [1] [])
    let i := BitVec.toNat mem
    (s.fw.hand = none) ∧ (s.store.found = []) ∧ (findGang s s.fabric.fa 2 = some g) ∧ (g.phase = GangPhase.forming) ∧ (0 < i)
      ∧ (i < g.members.length) ∧ (g.replied.contains i = false) ∧ (g.replied.length + 2 = g.members.length) := by decide +kernel

theorem meets_GangRowsFollowTheProtocol_5 :
    let mem : Byte := 2
    let g : Gang := g1 .committed [1, 2] [1]
    let s : State := ganged (g1 .committed [1, 2] [1])
    let i := BitVec.toNat mem
    (s.fw.hand = none) ∧ (s.store.found = []) ∧ (findGang s s.fabric.fa 2 = some g) ∧ (g.phase = GangPhase.committed) ∧ (0 < i)
      ∧ (i < g.members.length) ∧ (g.acked.contains i = false) ∧ (g.acked.length + 2 = g.members.length) := by decide +kernel

theorem meets_GangRowsFollowTheProtocol_6 :
    let mem : Byte := 2
    let g : Gang := g1 .committed [1, 2] []
    let s : State := ganged (g1 .committed [1, 2] [])
    let i := BitVec.toNat mem
    (s.fw.hand = none) ∧ (s.store.found = []) ∧ (findGang s s.fabric.fa 2 = some g) ∧ (g.phase = GangPhase.committed) ∧ (0 < i)
      ∧ (i < g.members.length) ∧ (g.acked.contains i = false) ∧ (g.acked.length + 2 ≠ g.members.length) := by decide +kernel

theorem meets_GangRowsFollowTheProtocol_7 :
    let mem : Byte := 2
    let g : Gang := g1 .leaving [1, 2] [1]
    let s : State := ganged (g1 .leaving [1, 2] [1])
    let i := BitVec.toNat mem
    (s.fw.hand = none) ∧ (s.store.found = []) ∧ (findGang s s.fabric.fa 2 = some g) ∧ (g.phase = GangPhase.leaving) ∧ (0 < i)
      ∧ (i < g.members.length) ∧ (g.acked.contains i = false) ∧ (g.acked.length + 2 = g.members.length) := by decide +kernel

theorem meets_GangRowsFollowTheProtocol_8 :
    let o : GateOp := gbarOp
    let s : State := { up with die := { up.die with cores := [(0, { c0 with gops := [gbarOp] })] } }
    (s.fw.hand = none) ∧ (s.store.found = []) ∧ (s.die.basins.all (fun e => e.2.saved.isEmpty) = true) ∧ (s.die.cores = [(0, s.core 0)])
      ∧ ((s.core 0).gops = [o]) ∧ (awaitsRelease 6 3 o = true) := by decide +kernel

theorem meets_GangRowsFollowTheProtocol_none :
    let s : State := { up with die := { up.die with basins := [] } }
    (s.fw.hand = none) ∧ (s.store.found = []) ∧ (s.die.basins = []) ∧ (∀ e ∈ s.die.cores, e.2.gops = []) := by decide +kernel

theorem meets_GangRowsFollowTheProtocol_9 :
    let s : State := near [6, 7]
    let r : Request := rq [(16, 1, 2), (17, 1, 1), (18, 1, 3), (20, 2, 7), (24, 2, 5), (28, 2, 6), (30, 1, 1), (32, 2, 7), (34, 1, 1)]
    let l := formMembers r
    let own := l.headD { fa := 0, basin := 0 }
    (s.fw.hand = none) ∧ (s.store.found = []) ∧ (Admitted cmdGangForm r s) ∧ (r.arg 16 1 ≤ 15) ∧ (r.arg 17 1 ≤ 2) ∧ (2 ≤ r.arg 18 1)
      ∧ (r.arg 18 1 ≤ 16) ∧ (own.fa = s.fabric.fa) ∧ (l.eraseDups.length = l.length)
      ∧ (∀ x ∈ l, BitVec.toNat x.basin ≤ 31 ∧ reachable s x.fa = true) ∧ (∀ i < r.arg 18 1, r.arg (27 + 4 * i) 1 = 0) ∧ (s.fabric.gangs = [])
      ∧ (exists_ s (BitVec.toNat own.basin) = true) ∧ ((s.basin (BitVec.toNat own.basin)).tenant = BitVec.ofNat 16 (r.arg 20 2)) := by
  dsimp only [Admitted, ServedAtOnce]; decide +kernel

theorem calm_iff (s : State) : Calm s ↔ ((∀ q : Fin 20, (s.port q).queue = []) ∧ s.fabric.waiting = [] ∧ s.dma.reads = []) :=
  ⟨fun h => ⟨h.1, h.2, h.3⟩, fun h => ⟨h.1, h.2.1, h.2.2⟩⟩

theorem sound_iff (s : State) : Sound s ↔ (s.store.mem.flips = [] ∧ s.store.found = []) := ⟨fun h => ⟨h.1, h.2⟩, fun h => ⟨h.1, h.2⟩⟩

/-- Frames that cannot be parsed, and a D port in service. -/
theorem meets_LinkRowsFollowTheProtocol_bad :
    let s : State := up
    let t : State := port0 (fun p => { p with naks := 4 })
    let p := s.port 0
    (s.fw.hand = none) ∧ (portUp s 0 = true) ∧ (Calm s) ∧ (parseFrame [] = none) ∧ (p.naks = 0) ∧ (p.nakTimes = []) ∧ (p.reset = false)
      ∧ (portUp t 0 = true) ∧ (Calm t) ∧ (t.fw.hand = none) ∧ (4 ≤ (t.port 0).naks) ∧ ((t.port 0).reset = false) := by
  simp only [calm_iff]; decide +kernel

/-- The frames of the next witnesses parse from their bytes. -/
theorem meets_LinkRowsFollowTheProtocol_parse :
    (∀ (k : BitVec 3) (n : BitVec 10) (b : Byte), let f : Frame := { frame1 with kind := k, seq := n, body := List.replicate 256 b }
      parseFrame (frameBytes f) = some f) ∧ parseFrame (frameBytes wrFrame) = some wrFrame :=
  ⟨fun _ _ _ => parseFrame_frameBytes _ List.length_replicate, parseFrame_frameBytes _ (by decide +kernel)⟩

theorem meets_LinkRowsFollowTheProtocol_kinds :
    let s : State := up
    let t : State := port0 (fun p => { p with naks := 2 })
    let p := s.port 0
    let kind := fun (k : BitVec 3) => { frame1 with kind := k, body := List.replicate 256 0 }
    (s.fw.hand = none) ∧ (portUp s 0 = true) ∧ (Calm s) ∧ (p.replay = []) ∧ (p.naks = 0) ∧ (p.nakTimes = [])
     
      ∧ (fieldAt (kind 0).body 0 1 = 0)
      ∧ (({ kind 4 with seq := 5 } : Frame).seq ≠ p.rxExp)
      ∧ (t.fw.hand = none) ∧ (portUp t 0 = true) ∧ (Calm t) ∧ ((t.port 0).naks ≠ 0) ∧ (({ kind 4 with seq := 5 } : Frame).seq ≠ (t.port 0).rxExp) := by
  simp only [calm_iff]; decide +kernel

theorem meets_LinkRowsFollowTheProtocol_header :
    let s : State := win2 [⟨6, 3, 9, 1, 0, 0⟩]
    let p := s.port 0
    let f := wrFrame
    let hd := headerOf f.body
    (s.fw.hand = none) ∧ (portUp s 0 = true) ∧ (Calm s) ∧ (f.seq = p.rxExp) ∧ (p.replay = [])
      ∧ (p.heard < 63) ∧ (f.kind = 1) ∧ (p.incoming = []) ∧ (hd.hdr.typ = 5) ∧ (hd.hdr.hops.toNat < 32) ∧ (hd.hdr.src ≠ 0xFFFF)
      ∧ (hd.hdr.dst = s.fa) ∧ (s.fa ≠ 0xFFFF) ∧ (admission s (xferHdr hd) .write = none) := by
  simp only [calm_iff]; decide +kernel

theorem meets_LinkRowsFollowTheProtocol_data :
    let x := hd ga5 6 0 0
    let s : State := port0 (fun p => { p with incoming := [(2, ⟨2, .write (hd ga5 6 0 0) 0x1300 0 true⟩)] })
    let t : State := port0 (fun p => { p with incoming := [(2, ⟨2, .write (hd ga5 6 0 0) 0x1300 0 false⟩)] })
    let p := s.port 0
    let kind := fun (k : BitVec 3) => { frame1 with kind := k }
    (s.fw.hand = none) ∧ (portUp s 0 = true) ∧ (Calm s)
      ∧ ((kind 3).seq = p.rxExp) ∧ (p.replay = []) ∧ (p.heard < 63)
      ∧ (p.incoming = [((kind 3).vc.toNat, ⟨2, .write x 0x1300 0 true⟩)]) ∧ (0 < x.granules.toNat)
      ∧ ((t.port 0).incoming = [((kind 3).vc.toNat, ⟨2, .write x 0x1300 0 false⟩)]) := by
  simp only [calm_iff]; decide +kernel

theorem meets_LinkRowsFollowTheProtocol_down :
    let s : State := up
    (s.fw.hand = none) ∧ (portUp s 3 = false) ∧ ((s.port 3).state ≠ lnTraining) ∧ ((s.port 3).ackDue = false)
      ∧ ((s.port 3).owed.any (· != 0) = false) := by decide +kernel

theorem meets_LinkRowsFollowTheProtocol_4 :
    let s : State := port0 (fun p => { p with replay := [sf 2, sf 3, sf 4], naks := 1, ackDue := true, owed := [0, 1, 2, 0, 0, 1] })
    let p := s.port 0
    (s.fw.hand = none) ∧ (portUp s 0 = true) ∧ (p.naks ≠ 0) ∧ (p.nakTimes = []) ∧ (p.ackDue = true ∨ p.owed.any (· != 0) = true)
      ∧ (p.reset = false) ∧ (linksLive s = true) ∧ (∃ e ∈ p.replay, seqBefore e.seq 3 = false) := by decide +kernel

theorem meets_LinkRowsFollowTheProtocol_c :
    let s : State := up
    (s.fw.hand = none) ∧ (portUp s 8 = true) ∧ (8 ≤ (8 : Fin 20).val) ∧ ((s.port 8).reset = false) := by decide +kernel

theorem meets_LinkRowsFollowTheProtocol_stopped :
    let s : State := { (port0 (fun p => { p with state := lnDown })) with aon := { up.aon with stop := ⟨true, false, false, false⟩ } }
    (s.fw.hand = none) ∧ ((s.port 0).state = lnDown) ∧ (stopped s = true) ∧ (linksLive s = false) := by decide +kernel

theorem meets_LinkRowsFollowTheProtocol_5 :
    let s : State := trn 2
    let p := s.port 0
    (s.fw.hand = none) ∧ (linksLive s = true) ∧ (portUp s 0 = false) ∧ (p.state = lnTraining) ∧ (p.step < 3) := by decide +kernel

theorem meets_LinkRowsFollowTheProtocol_6 :
    let s : State := trn 3
    let p := s.port 0
    (s.fw.hand = none) ∧ (linksLive s = true) ∧ (p.state = lnTraining) ∧ (p.step = 3) := by decide +kernel

theorem meets_LinkRowsFollowTheProtocol_7 :
    let i : Identity := ident 0xAB41 77 true
    let s : State := trn 4
    let t : State := port0 (fun p => { p with state := lnTraining, step := 4, resume := true, reset := true, replay := [sf 2, sf 3] })
    let p := s.port 0
    let kind := i.port.toNat < 8 ↔ (0 : Fin 20).val < 8
    (s.fw.hand = none) ∧ (linksLive s = true) ∧ (p.state = lnTraining) ∧ (p.step = 4) ∧ (p.incoming = []) ∧ (Calm s) ∧ (i.part = 0xAB41) ∧ (kind)
      ∧ (i.dieId ≠ s.fuses.dieId) ∧ (p.resume = false) ∧ (t.fw.hand = none) ∧ (linksLive t = true) ∧ ((t.port 0).state = lnTraining)
      ∧ ((t.port 0).step = 4) ∧ ((t.port 0).incoming = []) ∧ (Calm t) ∧ ((t.port 0).resume = true) ∧ ((t.port 0).session = some i.session)
      ∧ (∀ e ∈ (t.port 0).replay, e.by_.chan = none) ∧ ((t.port 0).session ≠ some ({ i with session := 5 } : Identity).session) := by
  simp only [calm_iff]; decide +kernel

theorem meets_LinkRowsFollowTheProtocol_refused :
    let s : State := trn 4
    let p := s.port 0
    let kind := fun (i : Identity) => i.port.toNat < 8 ↔ (0 : Fin 20).val < 8
    (s.fw.hand = none) ∧ (linksLive s = true) ∧ (p.state = lnTraining) ∧ (p.step = 4) ∧ (p.incoming = []) ∧ (Calm s)
      ∧ ((ident 0xAB40 77 true).part ≠ 0xAB41) ∧ ((ident 0xAB41 77 false).part = 0xAB41) ∧ (¬ kind (ident 0xAB41 77 false))
      ∧ (kind (ident 0xAB41 1 true)) ∧ ((ident 0xAB41 1 true).dieId = s.fuses.dieId) := by
  simp only [calm_iff]; decide +kernel

theorem meets_LinkRowsFollowTheProtocol_11 :
    let s : State := port0 (fun p => { p with state := lnDown })
    (s.fw.hand = none) ∧ (linksLive s = true)
      ∧ ((s.port 0).state = lnDown ∨ (s.port 0).state = lnMarked ∨ (s.port 0).state = lnStopped) := by decide +kernel

theorem meets_LinkRowsFollowTheProtocol_packets :
    let s : State := routed
    let t : State := near6 routed
    let u : State := { routed with links := [(0, { state := lnUp, removed := true })] }
    let v : State := { routed with links := [(0, { state := lnUp }), (8, { state := lnUp, credits := [1, 0, 0, 0, 0, 0] })] }
    let on := fun (p : Packet) => { p with hdr := { p.hdr with hops := p.hdr.hops + 1 } }
    let lost := fun (s : State) (p : Packet) => 31 ≤ p.hdr.hops.toNat ∨ reachable s p.hdr.dst = false
    let gate : Packet := { pk 3 0 9 with data := [] }
    (s.fw.hand = none) ∧ (portUp s 0 = true) ∧ (Calm s) ∧ (11 ≤ (pk 12 0 9).hdr.typ.toNat) ∧ (lost s (pk 3 31 9)) ∧ ((pk 3 31 9).hdr.typ = 3)
      ∧ ((pk 3 31 9).hdr.src ≠ 0xFFFF) ∧ ((pk 3 31 9).hdr.dst ≠ 0xFFFF) ∧ ((pk 3 31 9).hdr.dst ≠ s.fa)
      ∧ (t.fw.hand = none) ∧ (portUp t 0 = true) ∧ (Calm t) ∧ (lost t (pk 5 0 7)) ∧ (Reaches t (pk 5 0 7).hdr.src) ∧ ((pk 5 0 7).hdr.src ≠ t.fa)
      ∧ (u.fw.hand = none) ∧ (portUp u 0 = true) ∧ (Calm u) ∧ (¬ lost u (pk 5 0 9)) ∧ ((pk 5 0 9).hdr.flags.getLsbD 0 = false)
      ∧ (∀ r : Fin 20, usable u r = false)
      ∧ (¬ lost s gate) ∧ (escChoice s (s.destEntry 9) = some 8) ∧ (creditOf (s.port 8) (poolOf 0 (bit (leaveFlags s (some 0) (on gate) 8 0).toNat 1)) = 0)
      ∧ (v.fw.hand = none) ∧ (portUp v 0 = true) ∧ (Calm v) ∧ (¬ lost v gate) ∧ (escChoice v (v.destEntry 9) = some 8) ∧ (portUp v 8 = true)
      ∧ ((v.port 8).replay = []) ∧ (gate.data = [])
      ∧ (creditOf (v.port 8) (poolOf 0 (bit (leaveFlags v (some 0) (on gate) 8 0).toNat 1)) = 1) := by
  simp only [calm_iff, Reaches]; decide +kernel

theorem meets_LinkRowsFollowTheProtocol_12 :
    let us : W32 := 3
    let s : State := { (port0 (fun p => { p with retrain := [⟨0, false, 5, 7, 5, 0x0406⟩] })) with fabric := { up.fabric with records := [rec1] } }
    let p := s.port 0
    (s.fw.hand = none) ∧ (List.find? (fun r => r.num == BitVec.toNat us) s.fabric.records = some rec1) ∧ (up.fabric.records = [])
      ∧ (p.state = lnUp ∨ p.state = lnDown ∨ p.state = lnMarked) ∧ (Reaches (near6 s) rec1.fst.src) := by
  dsimp only [Reaches]; decide +kernel

theorem meets_LinkRowsFollowTheProtocol_retrain :
    let s : State := up
    let r := fun (k : Nat) => rq [(16, 1, 0), (17, 1, k)]
    (s.fw.hand = none) ∧ (∀ k < 4, Admitted cmdLinkRetrain (r k) s) ∧ (∀ k < 4, (r k).arg 16 1 = 0 ∧ (r k).arg 17 1 = k)
      ∧ ((s.port 0).state ≠ lnDisabled) ∧ ((s.port 0).reset = false) := by
  dsimp only [Admitted, ServedAtOnce]; decide +kernel

theorem meets_LinkRowsFollowTheProtocol_enable :
    let t : State := port0 (fun p => { p with state := lnDisabled })
    let r := fun (k : Nat) => rq [(16, 1, 0), (17, 1, k)]
    (t.fw.hand = none) ∧ (∀ k < 3, Admitted cmdLinkRetrain (r k) t) ∧ ((t.port 0).state = lnDisabled) ∧ ((t.port 0).reset = false)
      ∧ ((t.port 0).state ≠ lnUp) ∧ ((t.port 0).state ≠ lnDown) ∧ ((t.port 0).state ≠ lnMarked) := by
  dsimp only [Admitted, ServedAtOnce]; decide +kernel

theorem meets_LinkRowsFollowTheProtocol_joins :
    let u : State := port0 (fun p => { p with state := lnTraining, reset := true })
    let r : Request := rq [(16, 1, 0), (17, 1, 0)]
    (u.fw.hand = none) ∧ (Admitted cmdLinkRetrain r u) ∧ ((u.port 0).state ≠ lnDisabled) ∧ ((u.port 0).reset = true) := by
  dsimp only [Admitted, ServedAtOnce]; decide +kernel

theorem meets_TransfersReadWriteAndEnd_0 :
    let h : XferHdr := hd ga5 6 0 2
    let s : State := near6 (win2 [⟨6, 3, 9, 1, 0, 0⟩])
    let a := windowAddress s h
    let ga := addAddress s { hdr := h, granule := 0, data := List.replicate 256 5 }
    let w := s.window (gaWindow h.ga)
    (s.fw.hand = none) ∧ (s.dma.reads = []) ∧ (admission s h Access.write = none) ∧ (admission s h Access.read = none)
      ∧ (firstBad s.mem a (hdrBytes h) = none) ∧ (s.fa ≠ 65535) ∧ (reachable s h.src = true) ∧ (h.src ≠ s.fa) ∧ (Reaches s h.src)
      ∧ (admission s h Access.add = none) ∧ (w.state = WinState.opened) ∧ ((s.seg (segOf ga)).power = SegPower.on) ∧ (s.store.found = [])
      ∧ (s.dma.reds = []) ∧ (s.dma.redWait = []) ∧ ((hdrRanks h).1 % 2 ^ BitVec.toNat h.level = 0)
      ∧ ((hdrRanks h).1 < BitVec.toNat h.count) ∧ (BitVec.toNat h.count > (hdrRanks h).2 - (hdrRanks h).1)
      ∧ (namedXfer s 6 2 3 9 = none) ∧ ((s.chan 3).xfer = none) ∧ (List.find? (fun e => e.1 == 6) s.dma.lastRev = none) := by
  dsimp only [Reaches]; decide +kernel

theorem meets_TransfersReadWriteAndEnd_own :
    let h : XferHdr := hd ga5 5 0 2
    let w : Window := { state := .opened, basin := 0, rights := 7, size := 16, base := 0x1000, credits := 4, sources := [⟨7, 5, 0⟩], queue := [⟨5, 3, 9, 1, 0, 0⟩] }
    let s : State := up.setWindow 2 w
    let t : State := { s with store := { s.store with mem := { s.store.mem with flips := [(0x1304, 1)] } } }
    (s.fw.hand = none) ∧ (s.dma.reads = []) ∧ (admission s h Access.read = none) ∧ (s.fa ≠ 65535) ∧ (reachable s h.src = true)
      ∧ (firstBad s.mem (windowAddress s h) (hdrBytes h) = none) ∧ (h.src = s.fa) ∧ (admission t h Access.read = none)
      ∧ (reachable t h.src = true) ∧ (firstBad t.mem (windowAddress t h) (hdrBytes h) = some 0x1304) := by decide +kernel

theorem meets_TransfersReadWriteAndEnd_1 :
    let h : XferHdr := hd ga5 6 0 2
    let s : State := up
    let e : Byte := (1 : Byte)
    (s.fw.hand = none) ∧ (s.dma.reads = []) ∧ (admission s h Access.write = some e) ∧ (admission s h Access.read = some e)
      ∧ (admission s h Access.add = some e) ∧ ((s.window 2).state ≠ WinState.opened) ∧ (s.dma.reds = []) := by decide +kernel

theorem meets_TransfersReadWriteAndEnd_2 :
    let h : XferHdr := hd ga5 6 0 1
    let d : List Byte := List.replicate 256 5
    let s0 : State := win2 []
    let ga := addAddress s0 { hdr := h, granule := 0, data := d }
    let s : State := { s0 with dma := { s0.dma with adds := [{ hdr := h, left := [ga] }] } }
    let w := s.window (gaWindow h.ga)
    (s.fw.hand = none) ∧ (s.dma.reads = []) ∧ (w.state = WinState.opened) ∧ (addAddress s { hdr := h, granule := 0, data := d } = ga)
      ∧ ((s.seg (segOf ga)).power = SegPower.on) ∧ (s.store.found = []) ∧ (s.dma.reds = []) ∧ (s.dma.redWait = [])
      ∧ ((hdrRanks h).1 % 2 ^ BitVec.toNat h.level = 0) ∧ ((hdrRanks h).1 < BitVec.toNat h.count) ∧ (h.count = 1)
      ∧ (firstBad s.mem ga 256 = none) ∧ (s.dma.adds = [{ hdr := h, left := [ga] }]) ∧ ((s.window 2).queue = []) ∧ (1 ≤ (s.window 2).credits) := by
  decide +kernel

theorem meets_TransfersReadWriteAndEnd_3 :
    let s : State := win2 [⟨6, 3, 9, 1, 0, 0⟩]
    let t : State := win2 [⟨6, 3, 9, 2, 0, 1⟩]
    let u : State := win2 [⟨6, 3, 9, 1, 0, 1⟩]
    (s.fw.hand = none) ∧ (s.dma.reads = []) ∧ ((s.window 2).queue = [⟨6, 3, 9, (1 : Byte).toNat, 0, 0⟩])
      ∧ (t.fw.hand = none) ∧ (t.dma.reads = []) ∧ ((t.window 2).queue = [⟨6, 3, 9, (1 : Byte).toNat + 1, 0, 1⟩])
      ∧ (u.fw.hand = none) ∧ (u.dma.reads = []) ∧ ((u.window 2).queue = [⟨6, 3, 9, 1, 0, 1⟩]) := by decide +kernel

theorem meets_TransfersReadWriteAndEnd_4 :
    let s : State := { up with dma := { up.dma with reds := [red1], lastRev := [(6, 9)] } }
    let p : AddPkt := { hdr := hd ga5 6 0 2, left := [red1.granule], given := [red1.granule] }
    let t : State := { up with dma := { up.dma with reds := [red1], adds := [{ hdr := hd ga5 6 0 2, left := [red1.granule], given := [red1.granule] }] } }
    let num : W32 := 4
    (s.fw.hand = none) ∧ (s.dma.reads = []) ∧ (s.dma.reds = [red1]) ∧ (s.dma.redWait = []) ∧ (s.dma.adds = [])
      ∧ (∃ e ∈ List.find? (fun e => e.1 == 6) s.dma.lastRev, BitVec.toNat num ≤ BitVec.toNat e.2)
      ∧ (t.fw.hand = none) ∧ (t.dma.reads = []) ∧ (t.dma.reds = [red1]) ∧ (t.dma.redWait = []) ∧ (p ∈ t.dma.adds) ∧ (joinedEntry red1 p = true)
      ∧ (p.left = [red1.granule]) := by decide +kernel

theorem meets_TransfersReadWriteAndEnd_5 :
    let x : Transfer := xf1 false [.todo]
    let s : State := chan3 x
    let y : Transfer := xf1 true [.todo]
    let t : State := chan3 y
    (s.fw.hand = none) ∧ (s.dma.reads = []) ∧ (Sound s) ∧ (namedXfer s 6 2 3 9 = some x) ∧ (x.suspended = false) ∧ (x.cause = 0) ∧ (x.kind = 0)
      ∧ (x.pkts = [.todo]) ∧ (x.credits = 0) ∧ (x.first = []) ∧ (x.held = []) ∧ (x.buffer = []) ∧ (x.toRemote = false)
      ∧ (t.fw.hand = none) ∧ (t.dma.reads = []) ∧ (Sound t) ∧ (namedXfer t 6 2 3 9 = some y) ∧ (y.kind = 0) ∧ (y.pkts = [.todo])
      ∧ (y.toRemote = true) ∧ (y.credits = 0) ∧ (y.first = []) ∧ (y.held = []) ∧ (y.buffer = [])
      ∧ (List.find? (fun e => e.1 == 6) s.dma.lastRev = none) ∧ ((s.chan 3).xfer = some x) ∧ (gaFa x.ga = 6)
      ∧ ((4 : W64).getLsbD (gaWindow x.ga) = true) ∧ (∀ j : Nat, j ≠ 3 → (s.chan j).xfer = none) := by
  simp only [sound_iff]
  refine ⟨?_, ?_, ?_, ?_, ?_, ?_, ?_, ?_, ?_, ?_, ?_, ?_, ?_, ?_, ?_, ?_, ?_, ?_, ?_, ?_, ?_, ?_, ?_, ?_, ?_, ?_, ?_, ?_, fun j hj => ?_⟩
  case refine_29 => simp [chan3, State.chan, State.setChan, up, State.reset, tput, tget, Ne.symm hj]
  all_goals decide +kernel

theorem meets_TransfersReadWriteAndEnd_6 :
    let x : Transfer := xf1 true [.sent]
    let s : State := chan3 x
    let oc : Byte := 1
    (s.fw.hand = none) ∧ (s.dma.reads = []) ∧ (s.store.found = []) ∧ ((s.chan 3).xfer = some x) ∧ (x.xfer = 9) ∧ (gaWindow x.ga = 2)
      ∧ (x.suspended = false) ∧ (x.cause = 0) ∧ (x.pkts = [PktState.sent]) ∧ (x.toRemote = true) ∧ (gaFa x.ga = 6 ∨ x.kind ≠ 0)
      ∧ (gaFa x.ga = 6) ∧ (oc ≠ 0) := by decide +kernel

theorem meets_TransfersReadWriteAndEnd_7 :
    let h : XferHdr := hd ga6 6 0 1
    let x : Transfer := xf1 false [.sent]
    let s : State := chan3 x
    (s.fw.hand = none) ∧ (s.dma.reads = []) ∧ (namedXfer s h.src (gaWindow h.ga) 3 h.xfer = some x) ∧ (h.chan = byte 3)
      ∧ (x.suspended = false) ∧ (x.cause = 0) ∧ (x.toRemote = false) ∧ (x.pkts = [PktState.sent]) ∧ (h.index = 0) ∧ (x.packets = 1) := by
  decide +kernel

theorem meets_TransfersReadWriteAndEnd_8 :
    let x : Transfer := { xf1 true [.todo] with full := true }
    let s : State := chan3 x
    (s.fw.hand = none) ∧ (s.dma.reads = []) ∧ ((s.chan 3).xfer = some x) ∧ (x.suspended = false) ∧ (x.cause = 0) ∧ (x.full = true) := by
  decide +kernel

theorem meets_TransfersReadWriteAndEnd_9 :
    let s : State := { up with fabric := { up.fabric with active := { dest := [(6, 0x2000008)] } } }
    let r : Request := rq [(16, 1, 0), (17, 1, 0), (18, 1, 0), (20, 4, 0x2000), (24, 8, 0x6080000000300), (32, 4, 0x400)]
    let b := r.arg 16 1
    let v := r.arg 17 1
    let ga := BitVec.ofNat 64 (r.arg 24 8)
    (s.fw.hand = none) ∧ (s.dma.reads = []) ∧ (Admitted cmdDmaPost r s) ∧ (Sound s) ∧ (b ≤ 31) ∧ (v ≤ 31) ∧ (r.arg 18 1 ≤ 1) ∧ (r.arg 19 1 ≤ 127)
      ∧ (r.arg 20 4 % 256 = 0) ∧ (r.arg 32 4 % 256 = 0) ∧ (0 < r.arg 32 4) ∧ (r.arg 32 4 ≤ 67108864) ∧ (r.arg 20 4 + r.arg 32 4 ≤ Memory.size)
      ∧ (settled s b = true) ∧ ((s.basin b).rect.clusters.contains (v / 4) = true) ∧ (∀ j ∈ segsOf (r.arg 20 4) (r.arg 20 4 + r.arg 32 4),
        (s.seg j).owner = some b ∧ (s.seg j).power = SegPower.on ∧ (s.seg j).busy = false) ∧ ((s.chan v).xfer = none)
      ∧ (reachable s (gaFa ga) = true) ∧ (gaOffset ga % 256 = 0) ∧ (gaOffset ga + r.arg 32 4 ≤ 2 ^ 42) := by
  simp only [sound_iff, Admitted, ServedAtOnce]; decide +kernel

theorem meets_RemoteGatesFollowTheProtocol_0 :
    let tenant : W16 := 7
    let s : State := gated { basin := some 0, value := 8 }
    let gt := s.gate 3
    (gateServes s 3 none tenant = true) ∧ (gt.kind = GateKind.counter) ∧ (gt.waiters = []) ∧ (Reaches s 6) ∧ (remoteOp s 9 = none)
      ∧ (s.gateUnit.late = []) ∧ (remoteHeld s = []) ∧ (remoteOps s = []) ∧ ((s.gate 3).lease = none) := by
  dsimp only [Reaches]; decide +kernel

theorem meets_RemoteGatesFollowTheProtocol_1 :
    let tenant : W16 := 8
    let s : State := gated { basin := some 0, kind := .barrier, value := barrierValue 3 2 7, waiters := [wait1] }
    (gateServes s 3 none tenant = false) ∧ (waits (s.gate 3) 6 9 = true) ∧ (Reaches s 6) := by
  dsimp only [Reaches]; decide +kernel

theorem meets_RemoteGatesFollowTheProtocol_barrier :
    let s : State := gb
    let gt := s.gate 3
    (gateServes s 3 none 7 = true) ∧ (gt.kind = .barrier) ∧ (gt.waiters = []) ∧ (barrierGang s 3 = some g2) ∧ (g2.suspended = false)
      ∧ (barrierParties gt.value = barrierArrived gt.value + 1) ∧ (remoteWaiters s < remotePool) ∧ ((6 : W16) ≠ s.fa) := by decide +kernel

theorem meets_RemoteGatesFollowTheProtocol_2 :
    let h : Holder := hold1 6
    let s : State := gated (lock1 (hold1 6) [])
    let gt := s.gate 3
    let lock := fun i => (s.gate i).kind = GateKind.lock ∧ (s.gate i).holder = some h ∧ (s.gate i).waiters = []
    (gateServes s 3 none 7 = true) ∧ (gt.kind = GateKind.lock) ∧ (gt.holder = some h) ∧ (remoteWaiters s < remotePool) ∧ (remoteHeld s = [3])
      ∧ (Reaches s h.fa) ∧ (lock 3) ∧ (h.fa = 6) ∧ ((s.gate 3).lease.isSome = true) ∧ (s.fw.hand = none) ∧ (h.fa ≠ s.fa) := by
  dsimp only [Reaches]; decide +kernel

theorem meets_RemoteGatesFollowTheProtocol_3 :
    let h : Holder := hold1 5
    let s : State := gated (lock1 (hold1 5) [])
    let lock := fun i => (s.gate i).kind = GateKind.lock ∧ (s.gate i).holder = some h ∧ (s.gate i).waiters = []
    (lock 3) ∧ (h.fa ≠ 6) ∧ (h.fa = s.fa) := by decide +kernel

theorem meets_RemoteGatesFollowTheProtocol_4 :
    let h : Holder := hold1 5
    let s : State := gated (lock1 (hold1 5) (List.replicate 3840 wait1))
    let gt := s.gate 3
    (gateServes s 3 none 7 = true) ∧ (gt.kind = GateKind.lock) ∧ (gt.holder = some h) ∧ (remotePool ≤ remoteWaiters s) ∧ (Reaches s 6) := by
  dsimp only [Reaches]; decide +kernel

theorem meets_RemoteGatesFollowTheProtocol_5 :
    let o : GateOp := gop1 false
    let s : State := issuer false
    let t : State := { issuer false with time := { up.time with elapsed := 1000001 } }
    (remoteOp s 9 = some o) ∧ (o.fa = 6) ∧ (remoteOps s = [o]) ∧ (probed s o = false) ∧ (Reaches s o.fa) ∧ (o.gate.toNat = 3)
      ∧ (remoteOps t = [o]) ∧ (probed t o = true) ∧ (Reaches t o.fa) := by
  dsimp only [Reaches]; decide +kernel

theorem meets_RemoteGatesFollowTheProtocol_6 :
    let o : GateOp := gop1 true
    let s : State := issuer true
    (remoteOp s 9 = some o) ∧ (o.poolFull = true) ∧ (Reaches s o.fa) := by
  dsimp only [Reaches]; decide +kernel

theorem meets_SeizureRowsGoThroughTheirPhases_0 :
    let s : State := mem0
    let w : Fin 64 := 3
    let r : Request := rq [(16, 1, 0), (17, 1, 0xFF), (18, 1, 1)]
    let b := r.arg 16 1
    (s.seize = none) ∧ (∀ (k' : InService), s.svc.normal = some k' → ¬(k'.waiting = true ∧ k'.cmd = 4611 ∧ k'.req.arg 16 1 = ↑w))
      ∧ (Admitted cmdBasinSeize r s) ∧ (b ≤ 31) ∧ (r.arg 17 1 = 255) ∧ (r.arg 18 1 ≤ 1) ∧ (seizable s b = true)
      ∧ (∀ m ∈ (s.basin b).rect.nodes, (s.core m).v = []) ∧ (s.store.found = []) := by
  dsimp only [Admitted, ServedAtOnce]; decide +kernel

theorem meets_SeizureRowsGoThroughTheirPhases_1 :
    let z : Seizure := seiz 0 none false 0
    let s : State := midSeizure (seiz 0 none false 0) (fun s => (s.setChan 3 { number := 9, xfer := some tr1 }))
    let v := s.basin z.basin
    let busy := (v.rect.nodes.any fun m => (s.core m).sb.any inMemory) = true
    (s.seize = some z) ∧ (z.phase = 0) ∧ (z.phase ≠ 1) ∧ (z.phase ≠ 2) ∧ (z.phase ≠ 3) ∧ (¬busy) := by decide +kernel

theorem meets_SeizureRowsGoThroughTheirPhases_2 :
    let z : Seizure := seiz 0 none false 0
    let s : State := midSeizure (seiz 0 none false 0) (fun s => s.setCore 0 { c0 with sb := [⟨0, 256, true, .memory 2⟩] })
    let v := s.basin z.basin
    let busy := (v.rect.nodes.any fun m => (s.core m).sb.any inMemory) = true
    (s.seize = some z) ∧ (z.phase = 0) ∧ (busy) := by decide +kernel

theorem meets_SeizureRowsGoThroughTheirPhases_3 :
    let z : Seizure := seiz 0 none false 1
    let o : OutPacket := { vc := 2, pkt := pk5 }
    let s : State := midSeizure (seiz 0 none false 1) (fun s => ({ s with links := [(0, { state := lnUp, partnerPort := 1, partnerFa := 6, session := some 4, queue := [{ vc := 2, pkt := pk5 }] })] }).setChan 0 { number := 9, xfer := some tr1 })
    (s.seize = some z) ∧ (z.phase ≠ 0) ∧ (z.phase = 1) ∧ (∀ c ∈ channelsOf s z.basin, flumeQuiet s c = true) ∧ (channelsOf s z.basin = [0])
      ∧ (s.dma.reads = []) ∧ (s.fabric.waiting = []) ∧ ((s.port 0).queue = [o]) ∧ (opsOf s z.basin = [])
      ∧ ((o.origin s).isFor (channelsOf s z.basin) (opsOf s z.basin) = true) ∧ (o.begun = false) ∧ (o.abort = false) := by decide +kernel

theorem meets_SeizureRowsGoThroughTheirPhases_open :
    let z : Seizure := seiz 0 none false 1
    let s : State := midSeizure (seiz 0 none false 1) (fun s => s.setChan 0 { number := 9, xfer := some { tr1 with ga := ga5 } })
    (s.seize = some z) ∧ (z.phase = 1) ∧ (∃ c ∈ channelsOf s z.basin, flumeQuiet s c = false) := by decide +kernel

theorem meets_SeizureRowsGoThroughTheirPhases_4 :
    let z : Seizure := seiz 0 none false 2
    let s : State := midSeizure (seiz 0 none false 2) id
    let t : State := midSeizure (seiz 0 none false 2) (fun s => ({ s with links := [(0, { state := lnUp, replay := [{ sf 2 with by_ := { chan := some 0 } }] })] }).setChan 0 { number := 9, xfer := some tr1 })
    (s.seize = some z) ∧ (z.phase = 2) ∧ (fabricQuiet s z.basin = true) ∧ (t.seize = some z) ∧ (fabricQuiet t z.basin = false) := by decide +kernel

theorem meets_SeizureRowsGoThroughTheirPhases_5 :
    let z : Seizure := seiz 0 none false 3
    let s : State := midSeizure (seiz 0 none false 3) one
    (s.seize = some z) ∧ (z.phase = 3) ∧ (z.recipient = none) := by decide +kernel

theorem meets_SeizureRowsGoThroughTheirPhases_6 :
    let z : Seizure := seiz 0 (some 1) false 3
    let s : State := midSeizure (seiz 0 (some 1) false 3) beside
    (s.seize = some z) ∧ (z.phase = 3) ∧ (z.recipient = some 1) ∧ (recipientOk s z.basin 1 = true) ∧ (z.start = false) := by decide +kernel

theorem meets_SeizureRowsGoThroughTheirPhases_7 :
    let z : Seizure := seiz 0 (some 1) false 3
    let s : State := midSeizure (seiz 0 (some 1) false 3) id
    (s.seize = some z) ∧ (z.phase = 3) ∧ (z.recipient = some 1) ∧ (recipientOk s z.basin 1 = false) ∧ (Sound s) := by
  simp only [sound_iff]; decide +kernel

theorem meets_SeizureRowsGoThroughTheirPhases_8 :
    let w : Fin 64 := 3
    let k : InService := serv
    let s : State := { mem0 with svc := { normal := some serv } }
    let t : State := { s with links := [(0, { state := lnUp, incoming := [(2, ⟨2, .write { hd ga5 6 0 0 with ga := BitVec.ofNat 64 (5 * 2 ^ 48 + 3 * 2 ^ 42) } 0x1300 0 true⟩)] })] }
    (windowBusy s w = false) ∧ (s.svc.normal = some k) ∧ (k.waiting = true) ∧ (k.cmd = 4611) ∧ (k.req.arg 16 1 = ↑w) ∧ (windowBusy t w = true) := by
  decide +kernel

theorem meets_SeizureRowsGoThroughTheirPhases_9 :
    let s : State := seized0.setWindow 3 { state := .revoked, basin := 0 }
    let r : Request := rq [(16, 1, 0), (17, 1, 0), (18, 1, 0xFF), (19, 1, 0xFF)]
    let b := r.arg 16 1
    let x := s.basin b
    (Admitted cmdBasinRelease r s) ∧ (b ≤ 31) ∧ (r.arg 17 1 = 0) ∧ (r.arg 18 1 = 255) ∧ (r.arg 19 1 = 255) ∧ (x.state = BasinState.seized)
      ∧ (targetBad s x x.former = false) ∧ (recordBad s x = none) ∧ (x.savedVoid = false) ∧ (x.rerunMark = false) ∧ (x.load = none) ∧ (Sound s) := by
  simp only [sound_iff, Admitted, ServedAtOnce]; decide +kernel

theorem meets_SeizureRowsGoThroughTheirPhases_saved :
    let z : Seizure := seiz 0 none false 3
    let s : State := midSeizure z one
    let v := s.basin z.basin
    let e : Saved := ⟨0, .running, {}⟩
    (s.seize = some z) ∧ (z.phase = 3) ∧ (z.recipient = none) ∧ (v.rect.nodes = [0]) ∧ (v.saved = [e]) ∧ (e.pos = v.rect.position 0)
      ∧ (validCond e.cond = true) ∧ (goodNode s 0 = true) ∧ (s.dma.windows = []) ∧ (s.dma.redWait = []) := by decide +kernel

theorem meets_CoreEventsEndWhatIsInFlight_0 :
    let n : Fin 64 := 0
    let b : Nat := 0
    let s : State := mem0
    let c := s.core ↑n
    let runs := c.run ≠ CoreRun.halted ∧ s.mem.flips = [] ∧ s.store.found = []
    (Ready s (↑n) b) ∧ (storeImage s ↑n = none) ∧ (c.held = none) ∧ (runs) ∧ (c.v = []) ∧ (c.refill = false) := by
  simp only [ready_iff]; decide +kernel

theorem meets_CoreEventsEndWhatIsInFlight_1 :
    let n : Fin 64 := 0
    let b : Nat := 0
    let i : Image := code1 5 (bundle1 0 0)
    let s : State := coded (code1 5 (bundle1 0 0)) ib
    let c := s.core ↑n
    let image := Ready s (↑n) b ∧ storeImage s ↑n = some i
    (image) ∧ (i.bundles ≤ c.pc.toNat) := by
  simp only [ready_iff]; decide +kernel

theorem meets_CoreEventsEndWhatIsInFlight_2 :
    let n : Fin 64 := 0
    let b : Nat := 0
    let i : Image := code1 9 (bundle1 0 0)
    let s : State := coded (code1 9 (bundle1 0 0)) c0
    let c := s.core ↑n
    let image := Ready s (↑n) b ∧ storeImage s ↑n = some i
    (image) ∧ (c.pc.toNat < i.bundles) ∧ (c.ibuf.contains (c.pc.toNat / 16) = false) := by
  simp only [ready_iff]; decide +kernel

theorem meets_CoreEventsEndWhatIsInFlight_3 :
    let n : Fin 64 := 0
    let b : Nat := 0
    let i : Image := code1 9 (List.replicate 48 0)
    let s : State := coded (code1 9 (List.replicate 48 0)) ib
    let c := s.core ↑n
    let raw := i.bundle c.pc.toNat
    let image := Ready s (↑n) b ∧ storeImage s ↑n = some i
    let there := image ∧ c.pc.toNat < i.bundles ∧ c.ibuf.contains (c.pc.toNat / 16) = true
    (there) ∧ (headerOk raw = false) := by
  simp only [ready_iff]; decide +kernel

theorem meets_CoreEventsEndWhatIsInFlight_4 :
    let n : Fin 64 := 0
    let b : Nat := 0
    let i : Image := code1 9 (bundle1 0 0)
    let s : State := coded (code1 9 (bundle1 0 0)) ib
    let c := s.core ↑n
    let raw := i.bundle c.pc.toNat
    let image := Ready s (↑n) b ∧ storeImage s ↑n = some i
    let there := image ∧ c.pc.toNat < i.bundles ∧ c.ibuf.contains (c.pc.toNat / 16) = true
    (there) ∧ (headerOk raw = true) ∧ (c.strip = none) ∧ (validSlots raw = []) := by
  simp only [ready_iff]; decide +kernel

theorem meets_CoreEventsEndWhatIsInFlight_5 :
    let n : Fin 64 := 0
    let b : Nat := 0
    let i : Image := code1 9 (bundle1 16 mm1)
    let s : State := coded (code1 9 (bundle1 16 mm1)) ib
    let c := s.core ↑n
    let raw := i.bundle c.pc.toNat
    let alone := basinOf s ↑n = some b ∧ (s.basin b).lattice = false
    (alone) ∧ (c.run = CoreRun.running) ∧ (storeImage s ↑n = some i) ∧ (c.held = none) ∧ (c.staged = [])
      ∧ (stagesOf s (↑n) (↑n) c.pc raw c.capture c.capture ≠ [])
      ∧ (s.mem.flips = []) ∧ (s.store.found = []) ∧ (stagingConflict s (↑n) [(n : Nat)] c.pc (decodeSlot raw slotM) ((decodeBundle raw).filter (fun j => decide (j.slot < slotM))) = false) := by decide +kernel

theorem meets_CoreEventsEndWhatIsInFlight_6 :
    let n : Fin 64 := 0
    let b : Nat := 0
    let h : HeldBundle := held1
    let s : State := coded (code1 9 (bundle1 0 0)) { ib with held := some held1, miss := none, sb := [⟨0, 256, true, .done⟩], strip := some ⟨[(1, [7])], true, false⟩, gops := [gopL (some 77)], refill := false }
    let c := s.core ↑n
    let alone := basinOf s ↑n = some b ∧ (s.basin b).lattice = false
    let e : Nat := 0
    let x : SbEntry := (⟨0, 256, true, .done⟩ : SbEntry)
    let tl : BitVec 2 := 1
    let out : Tile := ([7] : Tile)
    (mayIssue s ↑n = true) ∧ (alone) ∧ (c.held = some h) ∧ (storeImage s ↑n).isSome = true ∧ (c.sb[e]? = some x) ∧ (x.use = EntryUse.done)
      ∧ (c.strip = some { out := [(tl.toNat, out)], isInt := true, pair := false }) := by decide +kernel

theorem meets_CoreEventsEndWhatIsInFlight_6b :
    let n : Fin 64 := 0
    let b : Nat := 0
    let h : HeldBundle := held1
    let s : State := (coded (code1 9 (bundle1 0 0)) { ib with held := some held1, miss := none, refill := false }).modBasin 0 (fun v => { v with image := none })
    let c := s.core ↑n
    let alone := basinOf s ↑n = some b ∧ (s.basin b).lattice = false
    (mayIssue s ↑n = true) ∧ (alone) ∧ (c.held = some h) ∧ (storeImage s ↑n = none) := by decide +kernel

theorem meets_CoreEventsEndWhatIsInFlight_7 :
    let n : Fin 64 := 0
    let l : Nat := 3
    let s : State := coded (code1 9 (bundle1 0 0)) { ib with held := none, miss := some 3, sb := [⟨0, 256, true, .memory 2⟩], gops := [gopL none], refill := true, csrc := [(1, 0x5000)] }
    let c := s.core ↑n
    let line := (c.miss.orElse fun _x => c.fetching.head?) = some l
    let b : Nat := 0
    let alone := basinOf s ↑n = some b ∧ (s.basin b).lattice = false
    let e : Nat := 0
    let x : SbEntry := (⟨0, 256, true, .memory 2⟩ : SbEntry)
    let tag : W32 := 9
    let o : GateOp := gopL none
    (line) ∧ (badLine s (↑n) l = false) ∧ (alone) ∧ (c.sb[e]? = some x) ∧ (x.use ≠ EntryUse.done)
      ∧ (List.find? (fun q => q.tag == tag) c.gops = some o) ∧ (o.result = none) ∧ (c.refill = true) ∧ (s.mem.flips = []) ∧ (s.store.found = []) := by decide +kernel

theorem meets_CoreEventsEndWhatIsInFlight_8 :
    let n : Fin 64 := 0
    let tag : W32 := 9
    let o : GateOp := gopL (some 77)
    let word : W64 := 77
    let s : State := coded (code1 9 (bundle1 0 0)) { ib with gops := [gopL (some 77)] }
    let c := s.core ↑n
    (List.find? (fun q => q.tag == tag) c.gops = some o) ∧ (o.result = some word) := by decide +kernel

theorem meets_CoreEventsEndWhatIsInFlight_9 :
    let n : Fin 64 := 0
    let id : Nat := 3
    let g : Nat := 0
    let tl : BitVec 2 := 1
    let s : State := vec (.clear 1)
    let c := s.core ↑n
    let runs := c.run ≠ CoreRun.halted ∧ s.mem.flips = [] ∧ s.store.found = []
    let holds := fun k => c.v = [{ id := id, kind := k, group := g }]
    (runs) ∧ (holds (VKind.clear tl)) := by decide +kernel

theorem meets_CoreEventsEndWhatIsInFlight_10 :
    let n : Fin 64 := 0
    let id : Nat := 3
    let g : Nat := 0
    let tl : BitVec 2 := 1
    let a : W32 := 0x5000
    let s : State := vec (.load 1 0x5000)
    let c := s.core ↑n
    let runs := c.run ≠ CoreRun.halted ∧ s.mem.flips = [] ∧ s.store.found = []
    let holds := fun k => c.v = [{ id := id, kind := k, group := g }]
    (runs) ∧ (holds (VKind.load tl a)) := by decide +kernel

theorem meets_CoreEventsEndWhatIsInFlight_11 :
    let n : Fin 64 := 0
    let id : Nat := 3
    let g : Nat := 0
    let a : W32 := 0x5000
    let rg : BitVec 4 := 1
    let s : State := vec (.fill 1 0x5000)
    let c := s.core ↑n
    let runs := c.run ≠ CoreRun.halted ∧ s.mem.flips = [] ∧ s.store.found = []
    let holds := fun k => c.v = [{ id := id, kind := k, group := g }]
    (runs) ∧ (holds (VKind.fill rg a)) := by decide +kernel

theorem meets_CoreEventsEndWhatIsInFlight_12 :
    let n : Fin 64 := 0
    let id : Nat := 3
    let g : Nat := 0
    let qd : BitVec 2 := 1
    let ds : BitVec 4 := 1
    let kind : BitVec 3 := 2
    let float : Bool := false
    let s : State := vec (.red 1 1 2 false)
    let c := s.core ↑n
    let runs := c.run ≠ CoreRun.halted ∧ s.mem.flips = [] ∧ s.store.found = []
    let holds := fun k => c.v = [{ id := id, kind := k, group := g }]
    (runs) ∧ (holds (VKind.red qd ds kind float)) ∧ (kind ≠ 5) := by decide +kernel

theorem meets_CoreEventsEndWhatIsInFlight_13 :
    let n : Fin 64 := 0
    let id : Nat := 3
    let g : Nat := 0
    let qd : BitVec 2 := 1
    let ds : BitVec 4 := 1
    let float : Bool := false
    let s : State := vec (.red 1 1 5 false)
    let c := s.core ↑n
    let runs := c.run ≠ CoreRun.halted ∧ s.mem.flips = [] ∧ s.store.found = []
    let holds := fun k => c.v = [{ id := id, kind := k, group := g }]
    (runs) ∧ (holds (VKind.red qd ds 5 float)) := by decide +kernel

theorem meets_CoreEventsEndWhatIsInFlight_14 :
    let n : Fin 64 := 0
    let id : Nat := 3
    let g : Nat := 0
    let f : FmtV := fv1
    let s : State := vec (.bath fv1)
    let c := s.core ↑n
    let runs := c.run ≠ CoreRun.halted ∧ s.mem.flips = [] ∧ s.store.found = []
    let holds := fun k => c.v = [{ id := id, kind := k, group := g }]
    (runs) ∧ (holds (VKind.bath f)) := by decide +kernel

theorem meets_CoreEventsEndWhatIsInFlight_due :
    let o : GateOp := { gopL (some 5) with due := some 2000 }
    let s : State := mem0.setCore 0 { c0 with gops := [{ gopL (some 5) with due := some 2000 }] }
    let t : State := { s with time := { s.time with count := 2000 } }
    ((s.core 0).gops.find? (fun q => q.tag == 9) = some o) ∧ (o.result = some 5) ∧ (o.due = some 2000) ∧ (s.time.count.toNat < (2000 : W64).toNat)
      ∧ ((t.core 0).gops.find? (fun q => q.tag == 9) = some o) ∧ ((2000 : W64).toNat ≤ t.time.count.toNat) := by decide +kernel

theorem meets_CoreEventsEndWhatIsInFlight_pop :
    let s : State := vec (.pop fv1 0 false 0)
    let c := s.core 0
    (c.run ≠ .halted) ∧ (s.mem.flips = []) ∧ (s.store.found = []) ∧ (c.v = [⟨3, .pop fv1 0 false 0, 0⟩]) := by decide +kernel

theorem meets_SlotRowsAreCheckedHeldOrIssued_0 :
    let f : FmtR := ⟨5, 1, 2, false, 3, true⟩
    let i : Instr := .neg 0 .zero ⟨false, 0⟩ f
    let s : State := mem0
    (slotRow i = some (0, sideS .zero, ⟨false, 0⟩, opNeg f)) ∧ Ready s 0 0
      ∧ (opNeg f).bad (ctxOf s 0 0 (sideS .zero) (s.core 0).capture (s.core 0).pc) s = true := by
  refine ⟨rfl, ?_⟩
  simp only [ready_iff]; decide +kernel

theorem meets_SlotRowsAreCheckedHeldOrIssued_1 :
    let f : FmtR := ⟨5, 1, 2, false, 3, true⟩
    let i : Instr := .add 0 .zero ⟨true, 1⟩ f
    let s : State := mem0
    (slotRow i = some (0, sideS .zero, ⟨true, 1⟩, opAdd f)) ∧ Ready s 0 0 ∧ (predBad ⟨true, 1⟩ = false)
      ∧ (opAdd f).bad (ctxOf s 0 0 (sideS .zero) (s.core 0).capture (s.core 0).pc) s = false
      ∧ (s.core 0).capture.pred ⟨true, 1⟩ = false := by
  refine ⟨rfl, ?_⟩
  simp only [ready_iff]; decide +kernel

theorem meets_SlotRowsAreCheckedHeldOrIssued_2 :
    let f : FmtL := ⟨5, 1, 1⟩
    let i : Instr := .ld 0 .zero ⟨false, 0⟩ f
    let s : State := mem0.setCore 0 { c0 with a := [(1, 0x1001)] }
    let x := ctxOf s 0 0 (sideS .zero) (s.core 0).capture (s.core 0).pc
    (slotRow i = some (0, sideS .zero, ⟨false, 0⟩, opLd f)) ∧ Ready s 0 0 ∧ (predBad ⟨false, 0⟩ = false) ∧ ((opLd f).bad x s = false)
      ∧ ((s.core 0).capture.pred ⟨false, 0⟩ = true) ∧ ((addressFault s x (opLd f)).isSome = true) := by
  refine ⟨rfl, ?_⟩
  simp only [ready_iff]; decide +kernel

theorem meets_SlotRowsAreCheckedHeldOrIssued_3 :
    let f : FmtMT := ⟨0, 1, 0, false, 0⟩
    let i : Instr := .mst 0 ⟨false, 0⟩ f
    let s : State := mem0.setCore 0 { c0 with strip := some ⟨[], false, false⟩ }
    let v := (s.core 0).capture
    let x := ctxOf s 0 0 slotM v (s.core 0).pc
    let u := s.setCore 0 { s.core 0 with held := some { raw := 0, snap := v } }
    (slotRow i = some (0, slotM, ⟨false, 0⟩, opMst f)) ∧ Ready s 0 0 ∧ (predBad ⟨false, 0⟩ = false) ∧ ((opMst f).bad x s = false)
      ∧ (v.pred ⟨false, 0⟩ = true) ∧ (addressFault s x (opMst f) = none) ∧ ((slotHold u x (opMst f)).isSome = true) := by
  refine ⟨rfl, ?_⟩
  simp only [ready_iff]; decide +kernel

theorem meets_SlotRowsAreCheckedHeldOrIssued_4 :
    let f : FmtL := ⟨5, 1, 0⟩
    let i : Instr := .ld 0 .zero ⟨false, 0⟩ f
    let s : State := mem0
    let v := (s.core 0).capture
    let x := ctxOf s 0 0 (sideS .zero) v (s.core 0).pc
    let u := s.setCore 0 { s.core 0 with held := some { raw := 0, snap := v } }
    (slotRow i = some (0, sideS .zero, ⟨false, 0⟩, opLd f)) ∧ Ready s 0 0 ∧ (predBad ⟨false, 0⟩ = false) ∧ ((opLd f).bad x s = false)
      ∧ (v.pred ⟨false, 0⟩ = true) ∧ (addressFault s x (opLd f) = none) ∧ (slotHold u x (opLd f) = none) := by
  refine ⟨rfl, ?_⟩
  simp only [ready_iff]; decide +kernel

theorem meets_ScalarRowsWriteTheirResults_0 :
    let n : Fin 64 := 0
    let b : Nat := 0
    let p : Pred := ⟨false, 0⟩
    let s : State := mem0
    let f : FmtR := ⟨5, 1, 2, false, 3, true⟩
    let c := s.core ↑n
    let S := fun r => BitVec.toNat (c.getS r.toNat)
    let w := widthOf f.w
    let B := operand w f.sgn (S f.rb)
    let fi : FmtI := ⟨5, 1, false, 0x1FFFFFF⟩
    let fc : FmtC := ⟨1, 2, 1, 2, 2, false⟩
    let fl : FmtL := ⟨5, 1, 1⟩
    let a := BitVec.toNat (narrowAddr c.capture fl)
    let ok := a % 8 = 0 ∧ Accessible s b a 8
    let q : BitVec 2 := 1
    let sl : Side := .zero
    let fb : FmtB := ⟨9, false, 0⟩
    let fq : FmtQ := ⟨9, false, 1, 0, 1, false⟩
    (Ready s (↑n) b) ∧ (predBad p = false) ∧ ((s.core ↑n).capture.pred p = true) ∧ (f.sat = false) ∧ (B ≠ 0) ∧ (f.w = 3) ∧ (fi.sat = false)
      ∧ (fc.sgn = false) ∧ (fc.cond.toNat ≤ 5) ∧ (fc.w = 2) ∧ (ok) ∧ (q ≠ 3) ∧ (sl = Side.zero) ∧ (fb.link = 0) ∧ (fq.q ≠ 3)
      ∧ (brqTaken fq.typ fq.cond.toNat (c.getQ fq.q.toNat) (c.getS fq.rb.toNat) = false) := by
  simp only [ready_iff, Accessible]; decide +kernel

theorem meets_ScalarRowsWriteTheirResults_1 :
    let n : Fin 64 := 0
    let b : Nat := 0
    let p : Pred := ⟨false, 0⟩
    let f : FmtR := ⟨5, 4, 0, false, 2, false⟩
    let s : State := mem0
    let c := s.core ↑n
    let S := fun r => BitVec.toNat (c.getS r.toNat)
    let w := widthOf f.w
    let B := operand w f.sgn (S f.rb)
    let fi : FmtI := ⟨5, 0, false, 0x1FFFFFF⟩
    let flt := f.w = 2 ∧ f.sgn = false
    let sl : Side := .zero
    let fq : FmtQ := ⟨9, false, 1, 1, 1, false⟩
    (Ready s (↑n) b) ∧ (predBad p = false) ∧ ((s.core ↑n).capture.pred p = true) ∧ (B = 0) ∧ (f.rb = 0) ∧ (f.sat = false) ∧ (fi.sat = false)
      ∧ (fi.ra = 0) ∧ (flt) ∧ (sl = Side.zero) ∧ (fq.q ≠ 3)
      ∧ (brqTaken fq.typ fq.cond.toNat (c.getQ fq.q.toNat) (c.getS fq.rb.toNat) = true) := by
  simp only [ready_iff]; decide +kernel

theorem meets_ScalarRowsWriteTheirResults_2 :
    let n : Fin 64 := 0
    let b : Nat := 0
    let p : Pred := ⟨false, 0⟩
    let f : FmtR := ⟨5, 0, 0, false, 3, true⟩
    let s : State := mem0
    (Ready s (↑n) b) ∧ (predBad p = false) ∧ ((s.core ↑n).capture.pred p = true) ∧ (f.sat = false) ∧ (f.ra = 0) ∧ (f.rb = 0) := by
  simp only [ready_iff]; decide +kernel

theorem meets_OtherSlotRowsTakeEffect_0 :
    let n : Fin 64 := 0
    let p : Pred := ⟨false, 0⟩
    let s : State := core14 c14
    let b : Nat := 0
    let lg : BitVec 5 := 12
    let ms : FmtMS := ⟨0, 1, 2, 0, 0, false, false, 0⟩
    let m : MFmt := .int8
    let c := s.core ↑n
    let x := ctxOf s (↑n) (↑n) slotM c.capture c.pc
    let clear := fun l => ∀ q ∈ l, rangeFault s (↑n) q = none
    let idle := c.strip = none ∧ c.tokens = [] ∧ withheld s ↑n = false
    let os := msOperands x ms m
    let mt : FmtMT := ⟨0, 5, 0, false, 0⟩
    let R := fun a => tget 0 c.a a.toNat
    let fv : FmtV := ⟨1, 2, 0, 0, 1, 0, 0, 0⟩
    let streams := List.map (fun d => streamRange c.capture d false) (vSources fv) ++ [streamRange c.capture fv.dd.toNat true]
    let types := (fv.dd.toNat :: vSources fv).any (typeBad c.capture) = false
    let ad : BitVec 4 := 1
    let kind : BitVec 3 := 1
    let qd : BitVec 2 := 1
    let typ : Bool := true
    let aa : BitVec 4 := 2
    let fg : FmtG := ⟨6, 2, 3, false, 0, false, false⟩
    let k := s.gate fg.gate.toNat
    let here := fg.rem = false ∧ fg.sf = 0 ∧ gateServes s fg.gate.toNat (some b) (s.basin b).tenant = true ∧ k.waiters = []
    let r2 : BitVec 5 := 7
    let S := fun r => c.getS r.toNat
    let len := BitVec.toNat (S r2)
    let span := fun a wr => wideRange (R a) len wr
    let stop : BitVec 14 := 20
    (predBad p = false) ∧ ((s.core ↑n).capture.pred p = true) ∧ (Ready s (↑n) b) ∧ (8 ≤ lg.toNat) ∧ (lg.toNat ≤ 29) ∧ (idle)
      ∧ (clear (operandRanges os)) ∧ (msFormat ms [0, 1, 2, 3, 4, 5, 6] = some m) ∧ (mt.out.toNat ≤ 5)
      ∧ (clear [wideRange (R mt.a) (1024 * outBytes mt.out.toNat) true]) ∧ (mt.out = 0) ∧ (mt.sat = false) ∧ (mt.ts.toNat % 2 = 0)
      ∧ (clear [wideRange (R mt.a) 8192 true]) ∧ (types) ∧ (fv.nsrc ≠ 0) ∧ (clear streams) ∧ (qd ≠ 3) ∧ (typeBad c.capture ad.toNat = false)
      ∧ (kind.toNat < 5) ∧ (typ = true → kind.toNat < 3) ∧ (clear [streamRange c.capture ad.toNat false])
      ∧ (baseMisaligned (tget 0 c.d ad.toNat) = false) ∧ (c.strip = none) ∧ (clear [wideRange (R aa) 4096 false]) ∧ (here)
      ∧ (k.kind = GateKind.counter) ∧ (k.kind ≠ GateKind.lock) ∧ (lengthBad len = false) ∧ (len ≠ 0) ∧ (clear [span ad true])
      ∧ (s.store.queues = []) ∧ (clear [span aa false, span ad true]) ∧ (c.pc.toNat + 1 ≤ stop.toNat) := by
  simp only [ready_iff]; decide +kernel

theorem meets_OtherSlotRowsTakeEffect_1 :
    let n : Fin 64 := 0
    let b : Nat := 0
    let p : Pred := ⟨false, 0⟩
    let ms : FmtMS := ⟨0, 1, 2, 1, 0, false, false, 0⟩
    let m : MFmt := .e4m3
    let s : State := core14 c14
    let c := s.core ↑n
    let x := ctxOf s (↑n) (↑n) slotM c.capture c.pc
    let clear := fun l => ∀ q ∈ l, rangeFault s (↑n) q = none
    let idle := c.strip = none ∧ c.tokens = [] ∧ withheld s ↑n = false
    let os := msOperands x ms m
    let mb : FmtMB := ⟨0, 1, 2, 3, 4, 1, 1, 0, false, false, false, false, false⟩
    (predBad p = false) ∧ ((s.core ↑n).capture.pred p = true) ∧ (Ready s (↑n) b) ∧ (idle) ∧ (clear (operandRanges os))
      ∧ (msFormat ms [1, 2, 4, 5, 6] = some m) ∧ (ms.td.toNat % 2 = 0) ∧ (clear (operandRanges (mbOperands x mb m)))
      ∧ (mbFormat mb = some m) := by
  simp only [ready_iff]; decide +kernel

theorem meets_OtherSlotRowsTakeEffect_2 :
    let n : Fin 64 := 0
    let b : Nat := 0
    let p : Pred := ⟨false, 0⟩
    let ms : FmtMS := ⟨0, 1, 2, 7, 0, false, false, 0⟩
    let m : MFmt := .fp32
    let s : State := core14 c14
    let c := s.core ↑n
    let x := ctxOf s (↑n) (↑n) slotM c.capture c.pc
    let clear := fun l => ∀ q ∈ l, rangeFault s (↑n) q = none
    let idle := c.strip = none ∧ c.tokens = [] ∧ withheld s ↑n = false
    let os := msOperands x ms m
    (predBad p = false) ∧ ((s.core ↑n).capture.pred p = true) ∧ (Ready s (↑n) b) ∧ (idle) ∧ (clear (operandRanges os))
      ∧ (msFormat ms [7] = some m) := by
  simp only [ready_iff]; decide +kernel

theorem meets_OtherSlotRowsTakeEffect_3 :
    let n : Fin 64 := 0
    let b : Nat := 0
    let p : Pred := ⟨false, 0⟩
    let fv : FmtV := ⟨1, 2, 0, 0, 1, 0, 0, 0⟩
    let tok : Token := ⟨1, true, false, 3, false⟩
    let s : State := core14 { c14 with tokens := [⟨1, true, false, 3, false⟩] }
    let c := s.core ↑n
    let clear := fun l => ∀ q ∈ l, rangeFault s (↑n) q = none
    let streams := List.map (fun d => streamRange c.capture d false) (vSources fv) ++ [streamRange c.capture fv.dd.toNat true]
    let types := (fv.dd.toNat :: vSources fv).any (typeBad c.capture) = false
    (predBad p = false) ∧ ((s.core ↑n).capture.pred p = true) ∧ (Ready s (↑n) b) ∧ (types) ∧ (fv.nsrc ≠ 3) ∧ (clear streams)
      ∧ (c.tokens = [tok]) ∧ (tok.bound = false) := by
  simp only [ready_iff]; decide +kernel

theorem meets_OtherSlotRowsTakeEffect_4 :
    let n : Fin 64 := 0
    let b : Nat := 0
    let p : Pred := ⟨false, 0⟩
    let r2 : BitVec 5 := 10
    let s : State := core14 c14
    let c := s.core ↑n
    let S := fun r => c.getS r.toNat
    let len := BitVec.toNat (S r2)
    let r3 : BitVec 5 := 8
    let g7 : BitVec 7 := 3
    (predBad p = false) ∧ ((s.core ↑n).capture.pred p = true) ∧ (Ready s (↑n) b) ∧ (len = 0) ∧ (r3 ≠ 31)
      ∧ ((s.gate g7.toNat).kind = GateKind.counter) ∧ ((s.gate g7.toNat).waiters = [])
      ∧ (gateServes s g7.toNat (some b) (s.basin b).tenant = true) := by
  simp only [ready_iff]; decide +kernel

theorem meets_OtherSlotRowsTakeEffect_5 :
    let n : Fin 64 := 0
    let b : Nat := 0
    let p : Pred := ⟨false, 0⟩
    let ln : BitVec 10 := 0
    let s : State := imaged14
    let c := s.core ↑n
    let i : Image := image14
    (predBad p = false) ∧ ((s.core ↑n).capture.pred p = true) ∧ (Ready s (↑n) b) ∧ (imageOf s ↑n = some i)
      ∧ (768 * ln.toNat < i.bytes.length) ∧ (c.ibuf.contains ln.toNat = false) ∧ (c.fetching.contains ln.toNat = false) := by
  simp only [ready_iff]; decide +kernel

theorem meets_OtherSlotRowsTakeEffect_6 :
    let n : Fin 64 := 0
    let b : Nat := 0
    let p : Pred := ⟨false, 0⟩
    let fg : FmtG := ⟨6, 2, 3, false, 0, false, false⟩
    let s : State := gated14 { basin := some 0, value := 8 }
    let c := s.core ↑n
    let S := fun r => c.getS r.toNat
    let k := s.gate fg.gate.toNat
    let here := fg.rem = false ∧ fg.sf = 0 ∧ gateServes s fg.gate.toNat (some b) (s.basin b).tenant = true ∧ k.waiters = []
    (predBad p = false) ∧ ((s.core ↑n).capture.pred p = true) ∧ (Ready s (↑n) b) ∧ (here) ∧ (k.kind = GateKind.counter)
      ∧ (bits (BitVec.toNat (S fg.sv)) 62 0 ≤ BitVec.toNat k.value) := by
  simp only [ready_iff]; decide +kernel

theorem meets_OtherSlotRowsTakeEffect_8 :
    let n : Fin 64 := 0
    let b : Nat := 0
    let p : Pred := ⟨false, 0⟩
    let fg : FmtG := ⟨6, 2, 3, false, 0, false, false⟩
    let s : State := gated14 { basin := some 0, kind := .lock }
    let k := s.gate fg.gate.toNat
    let here := fg.rem = false ∧ fg.sf = 0 ∧ gateServes s fg.gate.toNat (some b) (s.basin b).tenant = true ∧ k.waiters = []
    (predBad p = false) ∧ ((s.core ↑n).capture.pred p = true) ∧ (Ready s (↑n) b) ∧ (here) ∧ (k.kind = GateKind.lock) ∧ (k.holder = none)
      ∧ (k.kind ≠ GateKind.counter) := by
  simp only [ready_iff]; decide +kernel

theorem meets_OtherSlotRowsTakeEffect_9 :
    let n : Fin 64 := 0
    let b : Nat := 0
    let p : Pred := ⟨false, 0⟩
    let fg : FmtG := ⟨6, 2, 3, false, 0, false, false⟩
    let hd : Holder := hold6
    let s : State := gated14 { basin := some 0, kind := .lock, holder := some hold6 }
    let k := s.gate fg.gate.toNat
    let here := fg.rem = false ∧ fg.sf = 0 ∧ gateServes s fg.gate.toNat (some b) (s.basin b).tenant = true ∧ k.waiters = []
    (predBad p = false) ∧ ((s.core ↑n).capture.pred p = true) ∧ (Ready s (↑n) b) ∧ (here) ∧ (k.kind = GateKind.lock) ∧ (k.holder = some hd) := by
  simp only [ready_iff]; decide +kernel

theorem meets_OtherSlotRowsTakeEffect_10 :
    let n : Fin 64 := 0
    let b : Nat := 0
    let p : Pred := ⟨false, 0⟩
    let fg : FmtG := ⟨6, 2, 3, false, 0, false, false⟩
    let hd : Holder := hold5
    let s : State := gated14 { basin := some 0, kind := .lock, holder := some hold5, dead := some ⟨6, 2, 3⟩ }
    let k := s.gate fg.gate.toNat
    let here := fg.rem = false ∧ fg.sf = 0 ∧ gateServes s fg.gate.toNat (some b) (s.basin b).tenant = true ∧ k.waiters = []
    let me := byte (s.logical ↑n)
    let mine := k.holder = some hd ∧ hd.fa = s.fa ∧ hd.core = me ∧ hd.life = s.life (s.logical ↑n) ∧ hd.session = 0
    let dw : DeadOwner := ⟨6, 2, 3⟩
    let c := s.core ↑n
    let S := fun r => c.getS r.toNat
    (predBad p = false) ∧ ((s.core ↑n).capture.pred p = true) ∧ (Ready s (↑n) b) ∧ (here) ∧ (k.kind = GateKind.lock) ∧ (mine)
      ∧ (k.dead = some dw) ∧ (dw.epoch = BitVec.setWidth 32 (S fg.sv)) := by
  simp only [ready_iff]; decide +kernel

theorem meets_OtherSlotRowsTakeEffect_12 :
    let n : Fin 64 := 0
    let b : Nat := 0
    let p : Pred := ⟨false, 0⟩
    let fg : FmtG := ⟨6, 2, 3, false, 0, false, false⟩
    let s : State := gated14 { basin := some 0, kind := .barrier, value := barrierValue 3 2 7 }
    let k := s.gate fg.gate.toNat
    let here := fg.rem = false ∧ fg.sf = 0 ∧ gateServes s fg.gate.toNat (some b) (s.basin b).tenant = true ∧ k.waiters = []
    let parties := barrierParties k.value
    let arrived := barrierArrived k.value
    (predBad p = false) ∧ ((s.core ↑n).capture.pred p = true) ∧ (Ready s (↑n) b) ∧ (here) ∧ (k.kind = GateKind.barrier)
      ∧ (barrierGang s fg.gate.toNat = none) ∧ (parties ≤ arrived + 1) := by
  simp only [ready_iff]; decide +kernel

theorem meets_OtherSlotRowsTakeEffect_13 :
    let n : Fin 64 := 0
    let b : Nat := 0
    let p : Pred := ⟨false, 0⟩
    let fg : FmtG := ⟨6, 2, 3, false, 0, false, false⟩
    let s : State := gated14 { basin := some 0, kind := .event, value := 0 }
    let k := s.gate fg.gate.toNat
    let here := fg.rem = false ∧ fg.sf = 0 ∧ gateServes s fg.gate.toNat (some b) (s.basin b).tenant = true ∧ k.waiters = []
    (predBad p = false) ∧ ((s.core ↑n).capture.pred p = true) ∧ (Ready s (↑n) b) ∧ (here) ∧ (k.kind = GateKind.event) := by
  simp only [ready_iff]; decide +kernel

theorem meets_OtherSlotRowsTakeEffect_14 :
    let n : Fin 64 := 0
    let b : Nat := 0
    let p : Pred := ⟨false, 0⟩
    let fg : FmtG := ⟨6, 2, 3, false, 0, false, false⟩
    let s : State := gated14 { basin := some 0, kind := .event, value := 1 }
    let k := s.gate fg.gate.toNat
    let here := fg.rem = false ∧ fg.sf = 0 ∧ gateServes s fg.gate.toNat (some b) (s.basin b).tenant = true ∧ k.waiters = []
    (predBad p = false) ∧ ((s.core ↑n).capture.pred p = true) ∧ (Ready s (↑n) b) ∧ (here) ∧ (k.kind = GateKind.event) ∧ (k.value ≠ 0) := by
  simp only [ready_iff]; decide +kernel

theorem meets_OtherSlotRowsTakeEffect_15 :
    let n : Fin 64 := 0
    let b : Nat := 0
    let p : Pred := ⟨false, 0⟩
    let fg : FmtG := ⟨6, 2, 3, false, 0, false, false⟩
    let s : State := gated14 { basin := some 1 }
    (predBad p = false) ∧ ((s.core ↑n).capture.pred p = true) ∧ (Ready s (↑n) b) ∧ (fg.rem = false) ∧ (fg.sf = 0)
      ∧ (gateServes s fg.gate.toNat (some b) (s.basin b).tenant = false) := by
  simp only [ready_iff]; decide +kernel

theorem meets_OtherSlotRowsTakeEffect_16 :
    let n : Fin 64 := 0
    let b : Nat := 0
    let p : Pred := ⟨false, 0⟩
    let fg : FmtG := ⟨6, 2, 3, true, 11, false, false⟩
    let s : State := near14
    let c := s.core ↑n
    let S := fun r => c.getS r.toNat
    let ad : BitVec 4 := 1
    let r2 : BitVec 5 := 7
    let r3 : BitVec 5 := 8
    let ch : BitVec 2 := 2
    let dir : Bool := false
    let R := fun a => tget 0 c.a a.toNat
    let clear := fun l => ∀ q ∈ l, rangeFault s (↑n) q = none
    let len := BitVec.toNat (S r2)
    let span := fun a wr => wideRange (R a) len wr
    let lanes := clear [span ad dir] ∧ lengthBad len = false
    let chan := 4 * clusterOf ↑n + ch.toNat
    (predBad p = false) ∧ ((s.core ↑n).capture.pred p = true) ∧ (Ready s (↑n) b) ∧ (fg.rem = true) ∧ (BitVec.setWidth 16 (S fg.sf) ≠ s.fa)
      ∧ (Reaches s (BitVec.setWidth 16 (S fg.sf))) ∧ (r3 ≠ 31) ∧ (lanes) ∧ (len ≠ 0) ∧ ((s.chan chan).xfer = none)
      ∧ (bits (BitVec.toNat (S (r3 + 1))) 15 0 = 0) ∧ (reachable s (gaFa (S r3)) = true) ∧ (gaOffset (S r3) % 256 = 0)
      ∧ (gaOffset (S r3) + len ≤ 2 ^ 42) := by
  simp only [ready_iff, Reaches]; decide +kernel

theorem meets_OtherSlotRowsTakeEffect_19 :
    let n : Fin 64 := 2
    let p : Pred := ⟨false, 0⟩
    let ms : FmtMS := ⟨0, 1, 2, 0, 0, false, false, 0⟩
    let m : MFmt := .int8
    let ns : List Nat := [2, 3]
    let s : State := lat14
    let c := s.core ↑n
    let nb : Nat := 1
    (predBad p = false) ∧ ((s.core ↑n).capture.pred p = true) ∧ (LatticeReady s (↑n) nb ns) ∧ (msFormat ms [0, 1, 2, 3, 4, 5, 6] = some m)
      ∧ (∀ j ∈ ns, (s.core j).strip = none ∧ (s.core j).tokens = [] ∧ withheld s j = false
      ∧ ∀ q ∈ operandRanges (latOperands s (ctxOf s (↑n) j slotM (s.core j).capture c.pc) ms m), rangeFault s j q = none) := by
  simp only [latticeReady_iff]; decide +kernel

theorem meets_LeatRowsForwardAndSweep_0 :
    let f : LeatFrame := fr 5 7 []
    let s : State := lt {}
    let l := s.leat
    (leatUp s = true) ∧ (receivingState l .di = some .forward) ∧ (f.ok = true) ∧ (l.master = false) ∧ (byte (fieldAt f.body 7 1) = 0)
      ∧ (l.inTrain = false ∨ fieldAt f.body 3 1 = 1) ∧ (∀ e : Delivery, s.fw.delivery = some e → e.ep = 4 → f.addr ≠ ownSlot s ∧ f.addr ≠ 0xFF)
      ∧ (f.addr = ownSlot s) ∧ (∀ (x : Bool) (h : LeatFrame), l.half = some (x, h) → x = true → h.tag ≠ f.tag) ∧ (l.headPeriod = 0)
      ∧ (receivingState l .dO = none) ∧ (leatUp State.reset = false) ∧ (({ f with ok := false } : LeatFrame).ok = false)
      ∧ (l.phase = .idle) ∧ (l.turned = false) ∧ (l.inTrain = false) ∧ (s.boot.stage = 0 ∨ s.boot.pins.slotId ≠ 0) := by
  refine ⟨?_, ?_, ?_, ?_, ?_, ?_, fun e he => absurd (show (none : Option Delivery) = some e from he) (by simp), ?_,
    fun x h hh => absurd (show (none : Option (Bool × LeatFrame)) = some (x, h) from hh) (by simp), ?_, ?_, ?_, ?_, ?_, ?_, ?_, ?_⟩ <;> decide +kernel

theorem meets_LeatRowsForwardAndSweep_1 :
    let f : LeatFrame := fr 6 7 (List.replicate 7 0 ++ [1])
    let s : State := lt {}
    (leatUp s = true) ∧ (receivingState s.leat .di = some .forward) ∧ (f.ok = true) ∧ (s.leat.master = false) ∧ (byte (fieldAt f.body 7 1) ≠ 0)
      ∧ (f.addr ≠ ownSlot s) := by decide +kernel

theorem meets_LeatRowsForwardAndSweep_4 :
    let f : LeatFrame := fr 6 7 [2]
    let s : State := lt { inTrain := true, own := some rec5, held := [rec5], train := [rec5], turned := true, headPeriod := 9 }
    let l := s.leat
    (leatUp s = true) ∧ (receivingState l .di = some .forward) ∧ (f.ok = true) ∧ (l.master = false) ∧ (l.inTrain = true)
      ∧ (fieldAt f.body 3 1 ≠ 1) ∧ (l.state = .forward) ∧ (l.turned = true) ∧ (l.headPeriod ≠ 0) ∧ (s.boot.stage = 2 ∨ s.boot.stage = 3) := by
  decide +kernel

theorem meets_LeatRowsForwardAndSweep_5 :
    let f := fun (a : Byte) => fr a 7 [1, 2, 3, 4]
    let s : State := { lt {} with fw := { up.fw with delivery := some del4 } }
    let t : State := { lt {} with fw := { up.fw with delivery := some { del4 with phase := .verifying } } }
    let d : Delivery := del4
    (leatUp s = true) ∧ (receivingState s.leat .di = some .forward) ∧ ((f 5).ok = true) ∧ (s.leat.master = false) ∧ (s.fw.delivery = some d)
      ∧ (d.ep = 4) ∧ (d.phase = .receiving) ∧ ((f 5).addr = ownSlot s) ∧ ((f 0xFF).addr = 0xFF) ∧ ((f 5).tag.toNat / 64 < d.blocks)
      ∧ (d.present.contains ((f 5).tag.toNat / 64) = false) ∧ (d.checks = []) ∧ (d.frags = []) ∧ (d.blocks ≤ (fr 5 0xFFC0 []).tag.toNat / 64)
      ∧ (leatUp t = true) ∧ (receivingState t.leat .di = some .forward) ∧ (t.fw.delivery = some { d with phase := .verifying }) := by
  decide +kernel

theorem meets_LeatRowsForwardAndSweep_6 :
    let f : LeatFrame := fr 5 7 []
    let g : LeatFrame := fr 5 7 [9]
    let s := fun (x : Bool) => lt { half := some (x, fr 5 7 [9]) }
    let busy : State := (s true).setEp 4 { busy := true }
    let full : State := (s false).setEp 4 { prod := 32 }
    (leatUp (s true) = true) ∧ (receivingState (s true).leat .di = some .forward) ∧ (f.ok = true) ∧ ((s true).leat.master = false)
      ∧ ((s true).leat.half = some (true, g)) ∧ (g.tag = f.tag) ∧ (f.addr = ownSlot (s true)) ∧ (transportUp (s true) 4 = true)
      ∧ (((s true).ep 4).busy = false) ∧ ((busy.ep 4).busy = true) ∧ (transportUp busy 4 = true) ∧ (busy.leat.half = some (true, g))
      ∧ ((s false).leat.half = some (false, g)) ∧ (((s false).ep 4).reqCount < 32) ∧ (32 ≤ (full.ep 4).reqCount) ∧ (transportUp full 4 = true)
      ∧ (full.leat.half = some (false, g)) ∧ (leatUp full = true) ∧ (leatUp busy = true) := by decide +kernel

/-- A train of one record for the master, as SWEEP_END brings it whole and as one that a die returned. -/
theorem meets_LeatRowsForwardAndSweep_8 :
    let s := fun (p : SweepPhase) (w dr sec : Bool) =>
      lt { master := true, phase := p, waitSweep := w, drive := dr, second := sec, headBack := true, train := [rec5] }
    let came := fun (s : State) => leatUp s = true ∧ receivingState s.leat .di = some .forward ∧ s.leat.master = true
    let whole := fun (s : State) (f : LeatFrame) => s.leat.headBack = true ∧ fieldAt f.body 2 1 ≠ 1 ∧ fieldAt f.body 3 1 ≠ 1
      ∧ fieldAt f.body 0 2 = s.leat.train.length
    let r : Request := rq [(16, 4, 31), (20, 2, 5)]
    (came (s .pass false true false)) ∧ (whole (s .pass false true false) (fr 0 7 [1])) ∧ (¬ whole (s .pass false true false) (fr 0 7 [2]))
      ∧ (fieldAt (fr 0 7 [2]).body 3 1 ≠ 1) ∧ (fieldAt (fr 0 7 [1, 0, 0, 1]).body 3 1 = 1) ∧ (came (s .pass true true false))
      ∧ (whole (s .pass true true false) (fr 0 7 [1])) ∧ (came (s .turning false false false)) ∧ (came (s .turning false true false))
      ∧ (came (s .turning false false true)) ∧ (came (s .idle false false false)) ∧ ((fr 17 7 []).addr.toNat ≤ 19) ∧ (16 ≤ (fr 17 7 []).addr.toNat)
      ∧ ((fr 5 7 []).addr.toNat < 16) ∧ ((fr 5 7 []).ok = true) ∧ (Admitted cmdSweepConfig r (s .idle false false false)) ∧ (r.arg 16 4 < 32)
      ∧ (r.arg 22 1 = 0) := by
  dsimp only [Admitted, ServedAtOnce]; decide +kernel

theorem meets_LeatRowsForwardAndSweep_9 :
    let s := fun (p : SweepPhase) (dr sec : Bool) => lt { master := true, drive := dr, period := 9, seq := 4, set := 31, phase := p, second := sec }
    (leatUp (s .idle true false) = true) ∧ ((s .idle true false).leat.master = true) ∧ ((s .idle true false).leat.state = .forward)
      ∧ ((s .idle true false).leat.period ≠ 0) ∧ (leatUp (s .idle false false) = true) ∧ ((s .idle false false).leat.drive = false)
      ∧ (leatUp (s .pass true false) = true) ∧ ((s .pass true false).leat.phase ≠ .idle) ∧ (leatUp (s .back false false) = true)
      ∧ ((s .back false false).leat.phase = .back) ∧ (leatUp (s .turning false true) = true) ∧ ((s .turning false true).leat.second = true)
      ∧ (leatUp (s .turning false false) = true) ∧ ((s .turning false false).leat.second = false) ∧ ((lt { master := true }).leat.period = 0) := by
  decide +kernel

theorem meets_LeatRowsForwardAndSweep_11 :
    let s : State := { up with boot := { up.boot with pins := ⟨0, true, false, 0⟩ } }
    let l := s.leat
    (leatUp s = true) ∧ (l.master = false) ∧ (s.boot.stage ≠ 0) ∧ (s.boot.pins.slotId = 0) ∧ (s.boot.pins.chainMaster = true) := by decide +kernel


/-! ### Ill-formed commands are refused (WellFormed) -/

theorem test_wf_request_arguments : (Instr.nop { rq [] with args := [0] }).wf = false := by decide +kernel
theorem test_wf_request : (Instr.nop (rq [])).wf = true := by decide +kernel
theorem test_wf_mailbox_request : (Instr.mailboxRequest 0 6 (List.replicate 127 0)).wf = false := by decide +kernel
theorem test_wf_mailbox_response : (Instr.mailboxResponse 6 (List.replicate 129 0)).wf = false := by decide +kernel
theorem test_wf_scratchpad_segments : (Instr.scratchpadTestComplete [512]).wf = false := by decide +kernel
theorem test_wf_activity : (Instr.estimatorPeriod { act1 with chip := [] }).wf = false := by decide +kernel
theorem test_wf_activity_good : (Instr.estimatorPeriod act1).wf = true := by decide +kernel
theorem test_wf_ramp_points : (Instr.rampShaperInterval [] []).wf = false := by decide +kernel
theorem test_wf_thermal_readings : (Instr.thermalConversion (List.replicate 71 0)).wf = false := by decide +kernel
theorem test_wf_pace_points : (Instr.paceWindow (List.replicate 65 0)).wf = false := by decide +kernel
theorem test_wf_link_frame_body : (Instr.frameReceive 0 [9] true 0).wf = false := by decide +kernel
theorem test_wf_packet_content : (Instr.packetHeaderArrival 0 { pk 5 0 6 with content := [] }).wf = false := by decide +kernel
theorem test_wf_write_packet_frames : (Instr.writePacket (hd ga5 6 0 0) [List.replicate 255 0]).wf = false := by decide +kernel
theorem test_wf_add_packet_frames : (Instr.addPacket (hd ga5 6 0 0) []).wf = false := by decide +kernel
theorem test_wf_read_data_frames : (Instr.readData (hd ga5 6 0 0) []).wf = false := by decide +kernel
theorem test_wf_add_write_data : (Instr.addWriteArrival (hd ga5 6 0 0) 0 [1]).wf = false := by decide +kernel
theorem test_wf_leat_body : (Instr.turn .di { fr 1 0 [] with body := [] }).wf = false := by decide +kernel
theorem test_wf_leat_body_good : (Instr.turn .di (fr 1 0 [])).wf = true := by decide +kernel

/-! ### The worked examples of the spec -/

/-- Scalar register `r` after a command. -/
def sAfter (i : Instr) (s : State) (r : Nat) : W64 := ((nextOf (exec i s)).core 0).getS r

/-- s6 holds −128 in 8 bits, s7 −1, s8 0x109 and s9 9 ("8-bit edges in a scalar register", chapter 10). -/
def edges : State := up.setCore 0 { c0 with s := [(6, 0x80), (7, 0xFFFFFFFFFFFFFFFF), (8, 0x109), (9, 9)] }
def byteOp (rb : BitVec 5) (sat : Bool) : FmtR := ⟨5, 6, rb, sat, 0, true⟩

theorem test_neg_wraps : sAfter (.neg 0 .zero ⟨false, 0⟩ (byteOp 0 false)) edges 5 = 0xFFFFFFFFFFFFFF80 := by decide +kernel
theorem test_neg_saturates : sAfter (.neg 0 .zero ⟨false, 0⟩ (byteOp 0 true)) edges 5 = 0x7F := by decide +kernel
theorem test_div_overflow_saturates : sAfter (.div 0 .zero ⟨false, 0⟩ (byteOp 7 true)) edges 5 = 0x7F := by decide +kernel
theorem test_div_by_zero : sAfter (.div 0 .zero ⟨false, 0⟩ (byteOp 0 false)) edges 5 = 0xFFFFFFFFFFFFFFFF := by decide +kernel
theorem test_div_by_zero_saturates : sAfter (.div 0 .zero ⟨false, 0⟩ (byteOp 0 true)) edges 5 = 0xFFFFFFFFFFFFFF80 := by decide +kernel
theorem test_shl_takes_low_byte : sAfter (.shl 0 .zero ⟨false, 0⟩ (byteOp 8 true)) edges 5 = 0xFFFFFFFFFFFFFF80 := by decide +kernel
theorem test_sar_past_width : sAfter (.sar 0 .zero ⟨false, 0⟩ (byteOp 9 false)) edges 5 = 0xFFFFFFFFFFFFFFFF := by decide +kernel

/-- Bytes 0 to 5 and the header of the worked bundle of chapter 9, with slot 0 alone valid: add s5 := s6 + s7. -/
def addBundle : List Byte := [0x00, 0x00, 0xEE, 0x98, 0x02, 0x00] ++ List.replicate 40 0 ++ [0x40, 0x01]

theorem test_bundle_bytes_decode :
    sAfter (.bundleIssue 0) (coded (code1 1 addBundle) { ib with s := [(6, 11), (7, 31)], pc := 0 }) 5 = 42 := by decide +kernel

end Sys2Proof.Tests
end

section
/-! PROOFS. The register rows of config space: the acknowledgement of responses (R97, R590) and the watchdog's restart (R598). -/

namespace Sys2Proof.Machine

/-! ### The rows of single registers (R586) -/

/-- While config space can be reached, a register row is the write itself. -/
theorem onRegs_of_reachable {s : State} (h : reachableRegs s = true) (t : State) : onRegs s t = .next t := by
  simp [onRegs, h]

/-- R97: a write from the endpoint's own transport reaches its registers. -/
@[simp] theorem ownWrite_own (s : State) (e : Nat) (f : Endpoint → Endpoint) :
    ownWrite s e (ownTransport e) f = s.setEp e (f (s.ep e)) := by
  simp [ownWrite, State.modEp]

/-! ### MBX_EPn_RSP_ACK (R590) -/

/-- The row writes the word at 0x00C of the endpoint's block, which acknowledges. -/
theorem exec_mbxEpnRspAck (e : Fin 6) (via : Transport) (v : W32) (s : State) :
    exec (.mbxEpnRspAck e via v) s = onRegs s (ownWrite s e via (·.acknowledge v)) := rfl

theorem exec_mbxEpnRspAck_own (e : Fin 6) (v : W32) {s : State} (h : reachableRegs s = true) :
    exec (.mbxEpnRspAck e (ownTransport e) v) s = .next (s.setEp e ((s.ep e).acknowledge v)) := by
  rw [exec_mbxEpnRspAck, ownWrite_own, onRegs_of_reachable h]

/-- A consumer that stays within what is completed is taken. -/
theorem Endpoint.acknowledge_of_le {p : Endpoint} {v : W32}
    (h : (p.comp - v.setWidth 6).toNat ≤ (p.comp - p.ack).toNat) : p.acknowledge v = { p with ack := v.setWidth 6 } :=
  if_pos h

/-- A consumer that steps back or passes COMPLETION is a ring fault. -/
theorem Endpoint.acknowledge_of_lt {p : Endpoint} {v : W32}
    (h : (p.comp - p.ack).toNat < (p.comp - v.setWidth 6).toNat) : p.acknowledge v = { p with ringFault := true } :=
  if_neg (Nat.not_le_of_lt h)

/-- Settles O9: the endpoint's own write is `Endpoint.acknowledge`, whose two branches are the two clauses. -/
theorem acknowledgementNeverPassesCompletion : Obligations.AcknowledgementNeverPassesCompletion := by
  intro e v s hs
  constructor
  · intro hle
    rw [exec_mbxEpnRspAck_own e v hs, Endpoint.acknowledge_of_le hle]
  · intro hlt
    rw [exec_mbxEpnRspAck_own e v hs, Endpoint.acknowledge_of_lt hlt]

/-! ### STG_WDOG_KICK (R598) -/

theorem exec_stgWdogKick (via : Transport) (v : W32) {s : State} (h : reachableRegs s = true) :
    exec (.stgWdogKick via v) s = .next (kickWrite s via v) :=
  onRegs_of_reachable h _

/-- The steward's write of the key restarts the watchdog at the present time. -/
theorem kickWrite_key (s : State) :
    kickWrite s .steward 0xA5A5 = { s with svc := { s.svc with kick := s.time.elapsed } } :=
  if_pos ⟨rfl, rfl⟩

/-- Another transport or another value restarts nothing. -/
theorem kickWrite_ignored (s : State) {via : Transport} {v : W32} (h : via ≠ .steward ∨ v ≠ 0xA5A5) :
    kickWrite s via v = s :=
  if_neg (not_and_or.mpr h)

/-- Settles O15: the row is `kickWrite`, which takes the steward's key and ignores every other write. -/
theorem onlyTheStewardRestartsTheWatchdog : Obligations.OnlyTheStewardRestartsTheWatchdog := by
  intro via v s hs
  constructor
  · rintro rfl rfl
    rw [exec_stgWdogKick _ _ hs, kickWrite_key]
  · intro hother
    rw [exec_stgWdogKick _ _ hs, kickWrite_ignored s hother]

end Sys2Proof.Machine
end

section
/-! PROOFS. The rest of the register rows of config space (R97 to R124, R582 to R599). -/

namespace Sys2Proof.Machine

/-! ### Shared facts of register rows -/

/-- A bit of a word is read by its number or by its place. -/
theorem bit_toNat {w : Nat} (v : BitVec w) (i : Nat) : bit v.toNat i = v.getLsbD i := rfl

/-- R97: a write from another transport only shows. -/
theorem ownWrite_foreign (s : State) (e : Nat) {via : Transport} (h : via ≠ ownTransport e) (f : Endpoint → Endpoint) :
    ownWrite s e via f = s.setEp e { s.ep e with foreign := true } := if_neg h

/-! ### MBX_EPn_DOORBELL (R98, R99) -/

theorem exec_mbxEpnDoorbell (e : Fin 6) (via : Transport) (v : W32) {s : State} (h : reachableRegs s = true) :
    exec (.mbxEpnDoorbell e via v) s = .next (ownWrite s e via (·.ring v)) := onRegs_of_reachable h _

/-- Settles O8: the own transport's write is `Endpoint.ring`, with its two branches; a foreign one only shows. -/
theorem doorbellMovesTheProducer : Obligations.DoorbellMovesTheProducer := by
  intro e via v s hs
  refine ⟨?_, ?_, ?_⟩
  · rintro rfl hle
    rw [exec_mbxEpnDoorbell _ _ _ hs, ownWrite_own, Endpoint.ring, if_pos hle]
  · rintro rfl hlt
    rw [exec_mbxEpnDoorbell _ _ _ hs, ownWrite_own, Endpoint.ring, if_neg (Nat.not_le_of_lt hlt)]
  · intro hne
    rw [exec_mbxEpnDoorbell _ _ _ hs, ownWrite_foreign s e hne]

/-! ### MBX_EPn_URG_DOORBELL (R111, R115) -/

theorem exec_mbxEpnUrgDoorbell (e : Fin 6) (via : Transport) (v : W32) {s : State} (h : reachableRegs s = true) :
    exec (.mbxEpnUrgDoorbell e via v) s = .next (ringUrgent s e via v) := onRegs_of_reachable h _

/-- Settles O10: the three branches of `ringUrgent` on the endpoint's own transport. -/
theorem urgentDoorbellSubmitsOrOverruns : Obligations.UrgentDoorbellSubmitsOrOverruns := by
  intro e v s hs
  simp only [Completes, exec_mbxEpnUrgDoorbell _ _ _ hs, ringUrgent, ne_eq, not_true_eq_false, if_false]
  refine ⟨?_, ?_, ?_⟩
  · intro h0
    have hb : bit v.toNat 0 = false := h0
    simp [hb]
  · intro h0 hbusy
    have hb : bit v.toNat 0 = true := h0
    simp only [hb, hbusy, Bool.not_true, Bool.false_eq_true, if_false, if_true]
  · intro h0 hfree
    have hb : bit v.toNat 0 = true := h0
    simp only [hb, hfree, Bool.not_true, Bool.false_eq_true, if_false]
    exact ⟨_, rfl, State.ep_setEp .., rfl, rfl⟩

/-! ### The W1C fields (R589, R591, R594, R599) -/

/-- Settles O11: each row is one field update under its own bit. -/
theorem writingOneClears : Obligations.WritingOneClears := by
  intro e q via v s hs hvia
  have row : ∀ t, onRegs s t = .next t := onRegs_of_reachable hs
  refine ⟨?_, ?_, ?_, ?_, ?_, ?_⟩
  · exact (row (ownWrite s e (ownTransport e) (·.clearUrgent v))).trans (by rw [ownWrite_own]; rfl)
  · exact (row (ownWrite s e (ownTransport e) (·.clearStatus v))).trans (by rw [ownWrite_own]; rfl)
  · refine (row (clearLoss s via v)).trans ?_
    rw [← bit_toNat, clearLoss, hvia]
    cases bit v.toNat 0 <;> simp [State.setLedger]
  · refine (row (clearBoundary s via v)).trans ?_
    rw [← bit_toNat, clearBoundary, hvia]
    cases bit v.toNat 0 <;> simp
  · intro h
    exact (row (clearRefused s q via v)).trans (by rw [← bit_toNat] at h; simp [clearRefused, hvia, h, State.modPort])
  · intro h
    exact (row (clearRefused s q via v)).trans (by rw [← bit_toNat] at h; simp [clearRefused, hvia, h])

/-! ### LEDGER_DRAINED (R124, R592) -/

/-- Settles O12: from the sideband the row is `Ledger.drain`, whose guard is the range of R124. -/
theorem drainingStaysWithinTheLedger : Obligations.DrainingStaysWithinTheLedger := by
  intro v s hs
  have row : ∀ via, exec (.ledgerDrained via v) s = .next (drainLedger s via v) := fun via => onRegs_of_reachable hs _
  simp only [row]
  refine ⟨?_, ?_, rfl⟩
  · intro h1 h2
    have hguard : 1 ≤ (v - s.ledger.drained).toNat ∧ (v - s.ledger.drained).toNat ≤ s.ledger.undrained := ⟨h1, h2⟩
    simp only [drainLedger, if_true, Ledger.drain, if_pos hguard]
    rfl
  · intro hout
    have hguard : ¬ (1 ≤ (v - s.ledger.drained).toNat ∧ (v - s.ledger.drained).toNat ≤ s.ledger.undrained) := by
      unfold Ledger.undrained; omega
    simp only [drainLedger, if_true, Ledger.drain, if_neg hguard]
    rfl

/-! ### AON_LATCH (R588) -/

/-- A trip's cause is present as long as some point reads at or above its trip limit. -/
theorem presentCauses_trip (s : State) :
    (presentCauses s).trip = true ↔ ∃ k < 72, (tget {} s.head.points k).trip ≤ (tget {} s.head.points k).temp := by
  simp [presentCauses, numbers]

/-- A record stays unless it is named and its cause is no longer present. -/
theorem record_kept_iff (old named now : Bool) :
    (old && (!named || now)) = true ↔ old = true ∧ (named = false ∨ now = true) := by
  cases old <;> cases named <;> cases now <;> decide

/-- Settles O13: the row is `clearLatch` for a host transport and nothing otherwise. -/
theorem latchWritesClearOnlyTheRecord : Obligations.LatchWritesClearOnlyTheRecord := by
  intro via v s
  refine ⟨?_, ?_⟩
  · intro hs hvia
    refine ⟨clearLatch s v, ?_, rfl, ?_, rfl, ?_, rfl⟩
    · exact (onRegs_of_reachable hs _).trans (by rw [if_pos hvia])
    · show (s.aon.latch.rail && (!v.getLsbD 1 || s.aon.rails != 0x3F)) = _
      by_cases hr : s.aon.rails = 0x3F
      · rw [hr]; rfl
      · rw [bne_iff_ne.2 hr, decide_eq_true hr]
    · rw [← presentCauses_trip, ← record_kept_iff]
      rfl
  · rintro (hs | hvia)
    · exact congrArg Host.Outcome.next (by simp [hs])
    · exact congrArg Host.Outcome.next (by simp [hvia])

/-! ### Lane tests (R392, R595) -/

/-- A device event leaves the ports, the cores and the scratchpad alone. -/
@[simp] theorem event_fields (s : State) (c : W16) (d : List Byte) :
    (event s c d).links = s.links ∧ (event s c d).die = s.die ∧ (event s c d).store = s.store := by
  unfold event appendLater
  split <;> simp [countEvent]

/-- The end of a lane test: the port is in BASE again with its counts free, and cores and scratchpad stay. -/
theorem leaveTest_spec (s : State) (q : Nat) (h : (s.port q).testRun = true) :
    ((leaveTest s q).port q).testRun = false ∧ ((leaveTest s q).port q).state = lnBase
    ∧ ((leaveTest s q).port q).testErr = some s.free ∧ (leaveTest s q).store = s.store ∧ (leaveTest s q).die = s.die := by
  have hp : ∀ n c d, (event { s with free := n } c d).port q = s.port q := by simp [State.port]
  simp [leaveTest, resetEvent, State.modPort, State.fresh, hp, Port.endTest, Port.fresh, h]

/-- Settles O14: the guard of `startTest`, and the end of a test as `leaveTest` makes it. -/
theorem laneTestsRunOnlyBeforeService : Obligations.LaneTestsRunOnlyBeforeService := by
  intro q via rate s hs hvia
  have row : ∀ t, onRegs s t = .next t := onRegs_of_reachable hs
  refine ⟨?_, ?_, ?_⟩
  · intro hq hstage hrun
    have hgo : (isD q && (s.boot.stage == 0 || s.boot.stage == 8) && hostTransport via) = true := by
      simpa [isD, hq, hvia] using hstage
    refine (row (startTest s q via rate)).trans ?_
    rw [startTest, if_pos hgo, State.modPort, if_neg (by simp [hrun])]
  · intro hout
    have hno : ¬ (isD q && (s.boot.stage == 0 || s.boot.stage == 8) && hostTransport via) = true := by
      simp only [isD, Bool.and_eq_true, decide_eq_true_eq, Bool.or_eq_true, beq_iff_eq]
      rintro ⟨⟨hd, hst⟩, -⟩
      rcases hout with hq | ⟨h0, h8⟩
      · exact absurd hd (Nat.not_lt.2 hq)
      · exact hst.elim h0 h8
    refine (row (startTest s q via rate)).trans ?_
    rw [startTest, if_neg hno, State.modPort]
  · intro hrun
    have hgo : (hostTransport via && (s.port q).testRun) = true := by simp [hvia, hrun]
    refine ⟨_, row (stopTest s q via), ?_⟩
    rw [stopTest, if_pos hgo]
    exact leaveTest_spec s q hrun

end Sys2Proof.Machine
end

section
/-! PROOFS. What no command changes: the fuses (R131, R132), the queue behind it, and the canonical form of the scratchpad. One
lemma for each function of the model that makes a state, in the order of the model's files. -/

namespace Sys2Proof.Machine

/-- What every command keeps between two states: the fuses (R131, R132), the queue, and the canonical form of the scratchpad. -/
def Kept (s t : State) : Prop :=
  t.fuses = s.fuses ∧ t.pending = s.pending ∧ (s.store.mem.wf = true → t.store.mem.wf = true)

/-! ### The order of states, and the shapes of the model's functions -/

variable {s₀ s t : State}

@[simp] theorem Kept.refl (s : State) : Kept s s := ⟨rfl, rfl, id⟩

theorem Kept.ite {c : Prop} [Decidable c] {a b : State} (ha : Kept s₀ a) (hb : Kept s₀ b) : Kept s₀ (if c then a else b) := by
  split <;> assumption

@[simp] theorem kept_ite (c : Prop) [Decidable c] (a b : State) : Kept s₀ (if c then a else b) ↔ (c → Kept s₀ a) ∧ (¬c → Kept s₀ b) := by
  by_cases hc : c <;> simp [hc]

theorem Kept.trans (h1 : Kept s₀ s) (h2 : Kept s t) : Kept s₀ t :=
  ⟨h2.1.trans h1.1, h2.2.1.trans h1.2.1, fun h => h2.2.2 (h1.2.2 h)⟩

@[simp] theorem kept_foldl {α : Type} {f : State → α → State} (l : List α) (h : Kept s₀ s) (hf : ∀ t x, Kept t (f t x)) :
    Kept s₀ (l.foldl f s) := by
  induction l generalizing s with
  | nil => exact h
  | cons x l ih => exact ih (h.trans (hf s x))

@[simp] theorem kept_getD {o : Option State} {d : State} (ho : ∀ t, o = some t → Kept s₀ t) (hd : Kept s₀ d) : Kept s₀ (o.getD d) := by
  cases o <;> simp_all

/-- An update of fields that are neither pinned nor the store. -/
@[simp] theorem kept_fields (h : Kept s₀ s)
    (aon boot settings eps svc head links leat tap fw fabric time ledger die gateUnit dma seize sent free) :
    Kept s₀ ⟨s.fuses, aon, boot, settings, eps, svc, head, links, leat, tap, fw, fabric, time, ledger, die, s.store, gateUnit, dma, seize,
      sent, free, s.pending⟩ := h

/-- An update of the store that leaves the scratchpad, beside fields that are not pinned. -/
@[simp] theorem kept_storeFields (h : Kept s₀ s)
    (aon boot settings eps svc head links leat tap fw fabric time ledger die gateUnit dma seize sent free)
    (segs wake zero fills queues waiting ops nextOp gen found) :
    Kept s₀ ⟨s.fuses, aon, boot, settings, eps, svc, head, links, leat, tap, fw, fabric, time, ledger, die,
      ⟨s.store.mem, segs, wake, zero, fills, queues, waiting, ops, nextOp, gen, found⟩, gateUnit, dma, seize,
      sent, free, s.pending⟩ := h

/-! ### The named updates of State -/

@[simp] theorem kept_setCore (n c) (h : Kept s₀ s) : Kept s₀ (s.setCore n c) := h
@[simp] theorem kept_setBasin (n c) (h : Kept s₀ s) : Kept s₀ (s.setBasin n c) := h
@[simp] theorem kept_setSeg (n c) (h : Kept s₀ s) : Kept s₀ (s.setSeg n c) := h
@[simp] theorem kept_setGate (n c) (h : Kept s₀ s) : Kept s₀ (s.setGate n c) := h
@[simp] theorem kept_setWindow (n c) (h : Kept s₀ s) : Kept s₀ (s.setWindow n c) := h
@[simp] theorem kept_setChan (n c) (h : Kept s₀ s) : Kept s₀ (s.setChan n c) := h
@[simp] theorem kept_setEp (n c) (h : Kept s₀ s) : Kept s₀ (s.setEp n c) := h
@[simp] theorem kept_setPort (n c) (h : Kept s₀ s) : Kept s₀ (s.setPort n c) := h
@[simp] theorem kept_setLedger (c) (h : Kept s₀ s) : Kept s₀ (s.setLedger c) := h
@[simp] theorem kept_setFabric (c) (h : Kept s₀ s) : Kept s₀ (s.setFabric c) := h
@[simp] theorem kept_emit (c) (h : Kept s₀ s) : Kept s₀ (s.emit c) := h
@[simp] theorem kept_write (a l) (h : Kept s₀ s) : Kept s₀ (s.write a l) := ⟨h.1, h.2.1, fun x => s.store.mem.write_wf a l (h.2.2 x)⟩
@[simp] theorem kept_forget (a l) (h : Kept s₀ s) : Kept s₀ (s.forget a l) := ⟨h.1, h.2.1, fun x => s.store.mem.forget_wf a l _ (h.2.2 x)⟩
@[simp] theorem kept_append (e) (h : Kept s₀ s) : Kept s₀ (append s e) := by
  rw [append_frame]
  exact h

theorem kept_setMem {m : Memory} (h : Kept s₀ s) (hm : s.store.mem.wf = true → m.wf = true) : Kept s₀ (s.setMem m) :=
  ⟨h.1, h.2.1, fun x => hm (h.2.2 x)⟩

/-- A fold that carries a count or a list beside the state. -/
theorem kept_foldl_fst {α β : Type} {f : State × β → α → State × β} (l : List α) (p : State × β) (h : Kept s₀ p.1)
    (hf : ∀ t x, Kept t.1 (f t x).1) : Kept s₀ (l.foldl f p).1 := by
  induction l generalizing p with
  | nil => exact h
  | cons x l ih => exact ih _ (h.trans (hf p x))

theorem storeElemAt_wf (m : Memory) (d : BitVec 128) (i v : Nat) (h : m.wf = true) : (storeElemAt m d i v).wf = true := by
  unfold storeElemAt
  dsimp only
  split <;> exact m.write_wf _ _ h

theorem bathElems_wf (tile : Option (Nat → Nat × Nat)) (kld : Nat → Nat) (prog : List BathIns) (dd : BitVec 128)
    (ds : List (BitVec 128)) (n i : Nat) (m : Memory) (k : Conds) (h : m.wf = true) :
    (bathElems tile kld prog dd ds n i m k).1.wf = true := by
  induction n generalizing i m k with
  | zero => exact h
  | succ n ih => exact ih _ _ _ (storeElemAt_wf _ _ _ _ h)

theorem Memory.fill_wf (m : Memory) (a n : Nat) (v : W64) (h : m.wf = true) : (m.fill a n v).wf = true := by
  unfold Memory.fill
  split
  · exact m.zero_wf _ _ h
  · exact m.write_wf _ _ h

theorem filledStore_wf (s : State) (l : List Nat) : (filledStore s l).mem.wf = true := by
  suffices ∀ m : Memory, m.wf = true → (l.foldl (fun m k => m.forget (0x100000 * k) 0x100000 s.store.gen) m).wf = true from this {} rfl
  induction l with
  | nil => exact fun _ h => h
  | cons k l ih => exact fun m h => ih _ (m.forget_wf _ _ _ h)

/-! ### Operations, replies and commands -/

/-- The operation keeps what is pinned. -/
def Op.Keeps (op : Op) : Prop := ∀ x s, Kept s (op.eff x s)
/-- What a decoder answers keeps what is pinned, where it answers an operation at all. -/
def OptKeeps (o : Option Op) : Prop := ∀ op, o = some op → op.Keeps

@[simp] theorem optKeeps_none : OptKeeps none := fun _ e => nomatch e
@[simp] theorem optKeeps_some (op : Op) : OptKeeps (some op) ↔ op.Keeps :=
  ⟨fun h => h op rfl, fun h _ e => Option.some.inj e ▸ h⟩
@[simp] theorem optKeeps_ite (c : Prop) [Decidable c] (a b : Option Op) :
    OptKeeps (if c then a else b) ↔ (c → OptKeeps a) ∧ (¬c → OptKeeps b) := by
  by_cases hc : c <;> simp [hc]
@[simp] theorem optKeeps_ifZero {op : Op} (h : op.Keeps) (v n : Nat) : OptKeeps (ifZero v n op) := by
  simp [ifZero, h]
theorem OptKeeps.bind {α : Type} {a : Option α} {f : α → Option Op} (h : ∀ x, OptKeeps (f x)) : OptKeeps (a.bind f) := by
  cases a with
  | none => exact optKeeps_none
  | some x => exact h x
theorem OptKeeps.or {a b : Option Op} (ha : OptKeeps a) (hb : OptKeeps b) : OptKeeps (a.or b) := by
  cases a with
  | none => exact hb
  | some x => exact ha
theorem OptKeeps.getD {a : Option Op} {d : Op} (ha : OptKeeps a) (hd : d.Keeps) : (a.getD d).Keeps := by
  cases a with
  | none => exact hd
  | some x => exact ha x rfl

/-- The commit of the reply keeps what is pinned. -/
def Reply.Keeps (a : Reply) : Prop := ∀ o s, Kept s (a.commit o s)
/-- Every commit of the command keeps what is pinned. -/
def Cmd.Keeps (c : Cmd) : Prop := ∀ q s, (c.body q s).Keeps

@[simp] theorem Reply.mk_keeps (st : W16) (l : List Byte) (d : Option (List Byte)) (late mark : Bool) (f : Origin → State → State) :
    (Reply.mk st l d late mark f).Keeps ↔ ∀ o s, Kept s (f o s) := Iff.rfl
@[simp] theorem Reply.no_keeps (st : W16) : (Reply.no st).Keeps := fun _ s => Kept.refl s
@[simp] theorem Reply.data_keeps (l : List Byte) : (Reply.data l).Keeps := fun _ s => Kept.refl s
@[simp] theorem keeps_ite (c : Prop) [Decidable c] (a b : Reply) : (if c then a else b).Keeps ↔ (c → a.Keeps) ∧ (¬c → b.Keeps) := by
  by_cases hc : c <;> simp [hc]
theorem Reply.keeps_of {st : W16} {l : List Byte} {d : Option (List Byte)} {late mark : Bool} {f : Origin → State → State}
    (h : ∀ o s, Kept s (f o s)) : (Reply.mk st l d late mark f).Keeps := h
theorem Reply.keeps_ite {c : Prop} [Decidable c] {a b : Reply} (ha : a.Keeps) (hb : b.Keeps) : (if c then a else b).Keeps := by
  split <;> assumption
@[simp] theorem Cmd.mk_keeps (code : W16) (stage : Nat) (b1 b2 b3 : Bool) (l) (b4 : Bool) (f : Request → State → Reply) :
    (Cmd.mk code stage b1 b2 b3 l b4 f).Keeps ↔ ∀ q s, (f q s).Keeps := Iff.rfl

/-! ### Sys2Proof/Machine/Ops.lean -/

@[simp] theorem kept_modCore (s : State) (n : Nat) (f : Core → Core) (hk : Kept s₀ s) : Kept s₀ (State.modCore s n f) := hk

@[simp] theorem kept_setNode (s : State) (n : Nat) (v : NodeState) (hk : Kept s₀ s) : Kept s₀ (State.setNode s n v) := hk

@[simp] theorem kept_modBasin (s : State) (b : Nat) (f : Basin → Basin) (hk : Kept s₀ s) : Kept s₀ (State.modBasin s b f) := hk

@[simp] theorem kept_modSeg (s : State) (k : Nat) (f : Segment → Segment) (hk : Kept s₀ s) : Kept s₀ (State.modSeg s k f) := hk

@[simp] theorem kept_modEp (s : State) (e' : Nat) (f : Endpoint → Endpoint) (hk : Kept s₀ s) :
    Kept s₀ (State.modEp s e' f) := hk

@[simp] theorem kept_fresh (s : State) (hk : Kept s₀ s) : Kept s₀ (State.fresh s).2 := hk

@[simp] theorem kept_note (s : State) (basin : Option Nat) (code : Byte) (p : Nat → Bool) (hk : Kept s₀ s) :
    Kept s₀ (State.note s basin code p) := by
  unfold State.note
  dsimp only
  split <;> simp [hk]

@[simp] theorem kept_noteRead (s : State) (basin : Option Nat) (code : Byte) (a : Nat) (n : Nat) (hk : Kept s₀ s) :
    Kept s₀ (State.noteRead s basin code a n) := by
  simp [State.noteRead, hk]

@[simp] theorem kept_noteMerge (s : State) (basin : Option Nat) (code : Byte) (a : Nat) (n : Nat) (hk : Kept s₀ s) :
    Kept s₀ (State.noteMerge s basin code a n) := by
  simp [State.noteMerge, hk]

@[simp] theorem kept_noteCore (s : State) (n : Nat) (a : Nat) (len : Nat) (hk : Kept s₀ s) :
    Kept s₀ (State.noteCore s n a len) := by
  simp [State.noteCore, hk]

@[simp] theorem kept_appendLater (s : State) (e' : LedgerEntry) (hk : Kept s₀ s) : Kept s₀ (appendLater s e') := by
  simp [appendLater, hk]

@[simp] theorem kept_flushWaiting (s : State) (hk : Kept s₀ s) : Kept s₀ (flushWaiting s) := by
  simp [flushWaiting, hk]

@[simp] theorem kept_countEvent (s : State) (hk : Kept s₀ s) : Kept s₀ (countEvent s) := hk

@[simp] theorem kept_event (s : State) (code : W16) (detail : List Byte) (hk : Kept s₀ s) : Kept s₀ (event s code detail) := by
  simp [event, hk]

@[simp] theorem kept_eventNow (s : State) (code : W16) (detail : List Byte) (hk : Kept s₀ s) :
    Kept s₀ (eventNow s code detail) := by
  simp [eventNow, hk]

@[simp] theorem kept_background (s : State) (o' : Origin) (result : W16) (detail : List Byte) (hk : Kept s₀ s) :
    Kept s₀ (background s o' result detail) := by
  simp [background, hk]

/-! ### Sys2Proof/Machine/Route.lean -/

@[simp] theorem kept_modPort (s : State) (q' : Nat) (f : Port → Port) (hk : Kept s₀ s) : Kept s₀ (State.modPort s q' f) := hk

/-! ### Sys2Proof/Machine/Ports.lean -/

@[simp] theorem kept_oweFor (s : State) (o' : OutPacket) (n : Nat) (hk : Kept s₀ s) : Kept s₀ (oweFor s o' n) := by
  unfold oweFor
  split <;> simp [hk]

@[simp] theorem kept_bindTo (s : State) (o' : OutPacket) (q' : Nat) (vc : Nat) (hk : Kept s₀ s) : Kept s₀ (bindTo s o' q' vc) := hk

theorem kept_offer (s : State) (o' : OutPacket) (hk : Kept s₀ s) : ∀ t, offer s o' = some t → Kept s₀ t := by
  unfold offer
  grind [Option.map_eq_some_iff, List.findSome?_eq_some_iff, kept_foldl, Kept.refl, kept_fields, kept_storeFields,
      kept_modPort, kept_bindTo]

theorem kept_startOne (s : State) (hk : Kept s₀ s) : ∀ t, startOne s = some t → Kept s₀ t := by
  unfold startOne
  grind [Option.map_eq_some_iff, List.findSome?_eq_some_iff, kept_foldl, Kept.refl, kept_fields, kept_storeFields, kept_offer]

@[simp] theorem kept_discarded (s : State) (reason : Byte) (arrival : Byte) (h' : NetHdr) (n : Nat) (hk : Kept s₀ s) :
    Kept s₀ (discarded s reason arrival h' n) := by
  simp [discarded, hk]

theorem kept_place (s : State) (o' : OutPacket) (hk : Kept s₀ s) : ∀ t, place s o' = some t → Kept s₀ t := by
  unfold place
  grind [Option.map_eq_some_iff, List.findSome?_eq_some_iff, kept_foldl, Kept.refl, kept_fields, kept_storeFields, kept_bindTo]

@[simp] theorem kept_post (s : State) (p : Packet) (hk : Kept s₀ s) : Kept s₀ (State.post s p) := by
  unfold State.post
  split
  · exact hk
  · dsimp only
    split
    · exact hk
    · exact kept_getD (fun t e => kept_place _ _ (kept_emit _ hk) t e) (kept_discarded _ _ _ _ _ hk)

@[simp] theorem kept_postControl (s : State) (dst : W16) (code : Byte) (body : List Byte) (hk : Kept s₀ s) :
    Kept s₀ (postControl s dst code body) := by
  simp [postControl, hk]

@[simp] theorem kept_postDone (s : State) (fa : W16) (window : Byte) (outcome : Byte) (xfer : W16) (chan : Byte) (index : W16)
    (grant : Byte) (hk : Kept s₀ s) :
    Kept s₀ (postDone s fa window outcome xfer chan index grant) := by
  simp [postDone, hk]

@[simp] theorem kept_tellUnreachable (s : State) (p : Packet) (hk : Kept s₀ s) : Kept s₀ (tellUnreachable s p) := by
  simp [tellUnreachable, hk]

@[simp] theorem kept_discardTell (s : State) (reason : Byte) (q' : Nat) (p : Packet) (hk : Kept s₀ s) :
    Kept s₀ (discardTell s reason q' p) := by
  simp [discardTell, hk]

@[simp] theorem kept_sendGrants (s : State) (k : Nat) (l : List Grant) (hk : Kept s₀ s) : Kept s₀ (sendGrants s k l) := by
  simp [sendGrants, hk]

@[simp] theorem kept_regrant (s : State) (k : Nat) (hk : Kept s₀ s) : Kept s₀ (regrant s k) := by
  simp [regrant, hk]

@[simp] theorem kept_useCredit (s : State) (h' : XferHdr) (hk : Kept s₀ s) : Kept s₀ (useCredit s h') := hk

@[simp] theorem kept_finishPacket (s : State) (h' : XferHdr) (outcome : Byte) (inUse : Bool) (hk : Kept s₀ s) :
    Kept s₀ (finishPacket s h' outcome inUse) := by
  unfold finishPacket
  dsimp only
  (repeat' split) <;> grind [kept_postDone, kept_setWindow, kept_sendGrants, kept_regrant]

@[simp] theorem kept_readSent (s : State) (p : Packet) (hk : Kept s₀ s) : Kept s₀ (readSent s p) := by
  unfold readSent
  dsimp only
  split <;> simp [hk]

@[simp] theorem kept_loseUse (s : State) (h' : XferHdr) (hk : Kept s₀ s) : Kept s₀ (loseUse s h') := by
  simp [loseUse, hk]

@[simp] theorem kept_sendFrame (s : State) (q : Nat) (o : OutPacket) (hk : Kept s₀ s) : Kept s₀ (sendFrame s q o) := by
  unfold sendFrame
  dsimp only
  have h1 : ∀ p f, Kept s₀ ((s.setPort q p).emit f) := fun p f => hk
  have h2 : ∀ p f, Kept s₀ (if o.abort then (s.setPort q p).emit f else oweFor ((s.setPort q p).emit f) o 1) := by
    intro p f
    split
    · exact h1 p f
    · exact kept_oweFor _ _ _ (h1 p f)
  split
  · exact kept_readSent _ _ (h2 _ _)
  · exact h2 _ _

theorem kept_sendOne (s : State) (hk : Kept s₀ s) : ∀ t, sendOne s = some t → Kept s₀ t := by
  unfold sendOne
  grind [Option.map_eq_some_iff, List.findSome?_eq_some_iff, kept_foldl, Kept.refl, kept_fields, kept_storeFields, kept_sendFrame]

@[simp] theorem kept_flushN (x0 : Nat) (x1 : State) (hk : Kept s₀ x1) : Kept s₀ (flushN x0 x1) := by
  induction x0 generalizing x1 with
  | zero => exact hk
  | succ n ih =>
    unfold flushN
    split
    · exact ih _ (kept_sendOne _ hk _ ‹_›)
    · split
      · exact ih _ (kept_startOne _ hk _ ‹_›)
      · exact hk

@[simp] theorem kept_flush (s : State) (hk : Kept s₀ s) : Kept s₀ (flush s) := by
  simp [flush, hk]

@[simp] theorem kept_send (s : State) (p : Packet) (hk : Kept s₀ s) : Kept s₀ (State.send s p) := by
  simp [State.send, hk]

@[simp] theorem kept_control (s : State) (dst : W16) (code : Byte) (body : List Byte) (hk : Kept s₀ s) :
    Kept s₀ (control s dst code body) := by
  simp [control, hk]

/-! ### Sys2Proof/Machine/GateOps.lean -/

@[simp] theorem kept_deliverHere (s : State) (tag : W32) (word : W64) (due : Option W64) (hk : Kept s₀ s) :
    Kept s₀ (deliverHere s tag word due) := hk

@[simp] theorem kept_deliver (s : State) (w : Waiter) (word : W64) (hk : Kept s₀ s) : Kept s₀ (deliver s w word) := by
  simp [deliver, hk]

@[simp] theorem kept_grantNext (s : State) (g : Nat) (hk : Kept s₀ s) : Kept s₀ (grantNext s g) := by
  unfold grantNext
  dsimp only
  split <;> simp [hk]

@[simp] theorem kept_orphan (s : State) (g : Nat) (hk : Kept s₀ s) : Kept s₀ (orphan s g) := by
  unfold orphan
  dsimp only
  split <;> simp [hk]

@[simp] theorem kept_orphanAll (s : State) (p : Holder → Bool) (hk : Kept s₀ s) : Kept s₀ (orphanAll s p).1 := by
  simp [orphanAll, hk]

@[simp] theorem kept_wake (s : State) (g : Nat) (p : Waiter → Bool) (word : Waiter → W64) (hk : Kept s₀ s) :
    Kept s₀ (wake s g p word) := by
  simp [wake, hk]

@[simp] theorem kept_wakeCounter (s : State) (g : Nat) (hk : Kept s₀ s) : Kept s₀ (wakeCounter s g) := by
  simp [wakeCounter, hk]

@[simp] theorem kept_releaseBarrier (s : State) (g : Nat) (hk : Kept s₀ s) : Kept s₀ (releaseBarrier s g) := by
  simp [releaseBarrier, hk]

@[simp] theorem kept_setGang (s : State) (k : Gang) (k' : Gang) (hk : Kept s₀ s) : Kept s₀ (setGang s k k') := hk

@[simp] theorem kept_dueBarrier (s : State) (g : Nat) (hk : Kept s₀ s) : Kept s₀ (dueBarrier s g) := by
  unfold dueBarrier
  dsimp only
  (repeat' split) <;> grind [kept_foldl, Kept.refl, kept_fields, kept_storeFields, kept_deliverHere, kept_setGate,
      kept_emit]

@[simp] theorem kept_arriveBarrier (s : State) (g : Nat) (w : Waiter) (hk : Kept s₀ s) : Kept s₀ (arriveBarrier s g w).1 := by
  unfold arriveBarrier
  dsimp only
  split <;> simp [hk]

@[simp] theorem kept_gateEffect (s : State) (g : Nat) (op' : Nat) (w : Waiter) (hk : Kept s₀ s) : Kept s₀ (gateEffect s g op' w).1 := by
  unfold gateEffect
  dsimp only
  (repeat' split) <;> simp [hk]

@[simp] theorem kept_markExternal (s : State) (b : Nat) (hk : Kept s₀ s) : Kept s₀ (markExternal s b) := hk

@[simp] theorem kept_touchGate (s : State) (g : Nat) (who : Option Nat) (hk : Kept s₀ s) : Kept s₀ (touchGate s g who) := by
  unfold touchGate
  split <;> simp [hk]

@[simp] theorem kept_gateOperate (s : State) (g : Nat) (op' : Nat) (w : Waiter) (own : Option Nat) (tenant : W16) (hk : Kept s₀ s) :
    Kept s₀ (gateOperate s g op' w own tenant).1 := by
  unfold gateOperate
  split <;> simp [hk]

@[simp] theorem kept_endLife (s : State) (n : Nat) (hk : Kept s₀ s) : Kept s₀ (endLife s n).1 := by
  simp [endLife, hk]

@[simp] theorem kept_removeWaiter (s : State) (g : Nat) (fa : W16) (tag : W32) (takeBack : Bool) (hk : Kept s₀ s) :
    Kept s₀ (removeWaiter s g fa tag takeBack) := hk

@[simp] theorem kept_withdrawOp (s : State) (o' : GateOp) (takeBack : Bool) (hk : Kept s₀ s) :
    Kept s₀ (withdrawOp s o' takeBack) := by
  simp [withdrawOp, hk]

@[simp] theorem kept_stopGates (s : State) (n : Nat) (hk : Kept s₀ s) : Kept s₀ (stopGates s n) := by
  unfold stopGates
  dsimp only
  grind [kept_foldl, Kept.refl, kept_fields, kept_storeFields, kept_withdrawOp, kept_modCore]

@[simp] theorem kept_resetGates (s : State) (n : Nat) (hk : Kept s₀ s) : Kept s₀ (resetGates s n) := by
  unfold resetGates
  dsimp only
  grind [kept_foldl, Kept.refl, kept_fields, kept_storeFields, kept_withdrawOp, kept_modCore]

/-! ### Sys2Proof/Machine/Settings.lean -/

@[simp] theorem kept_setSettings (s : State) (v : Settings) (hk : Kept s₀ s) : Kept s₀ (setSettings s v) := hk

@[simp] theorem kept_writeBank (s : State) (values : List (W16 × List Byte)) (commit : W32) (hk : Kept s₀ s) :
    Kept s₀ (writeBank s values commit) := hk

@[simp] theorem kept_recordRetired (s : State) (k : Nat) (hk : Kept s₀ s) : Kept s₀ (recordRetired s k) := by
  simp [recordRetired, hk]

@[simp] theorem kept_selectSettings (s : State) (hk : Kept s₀ s) : Kept s₀ (selectSettings s) := by
  unfold selectSettings
  dsimp only
  split <;> (try split) <;> simp [hk]

@[simp] theorem kept_applySettings (s : State) (hk : Kept s₀ s) : Kept s₀ (applySettings s) := hk

@[simp] theorem kept_discardBanks (s : State) (hk : Kept s₀ s) : Kept s₀ (discardBanks s) := by
  simp [discardBanks, hk]

/-! ### Sys2Proof/Machine/Reduce.lean -/

@[simp] theorem kept_packetDone (s : State) (fa : W16) (window : Byte) (outcome : Byte) (xfer : W16) (chan : Byte)
    (index : W16) (grant : Byte) (hk : Kept s₀ s) :
    Kept s₀ (packetDone s fa window outcome xfer chan index grant) := by
  simp [packetDone, hk]

@[simp] theorem kept_ackAdds (s : State) (granule : Nat) (joined : AddPkt → Bool) (aborted : Bool) (hk : Kept s₀ s) :
    Kept s₀ (ackAdds s granule joined aborted) := by
  simp [ackAdds, hk]

@[simp] theorem kept_giveAdds (s : State) (a : Nat) (l : List XferHdr) (hk : Kept s₀ s) : Kept s₀ (giveAdds s a l) := hk

@[simp] theorem kept_dropEntry (s : State) (e' : RedEntry) (hk : Kept s₀ s) : Kept s₀ (dropEntry s e') := hk

@[simp] theorem kept_abortEntry (s : State) (e' : RedEntry) (cause : Option Byte) (hk : Kept s₀ s) :
    Kept s₀ (abortEntry s e' cause) := by
  unfold abortEntry
  dsimp only
  (repeat' split) <;> grind [kept_event, kept_ackAdds, kept_dropEntry]

@[simp] theorem kept_finishEntry (s : State) (e' : RedEntry) (hk : Kept s₀ s) : Kept s₀ (finishEntry s e') := by
  unfold finishEntry
  dsimp only
  (repeat' split) <;> grind [kept_write, kept_abortEntry, kept_noteRead, kept_ackAdds, kept_dropEntry]

theorem kept_acceptAdd (s : State) (w : AddWrite) (hk : Kept s₀ s) : ∀ t, acceptAdd s w = some t → Kept s₀ t := by
  unfold acceptAdd
  grind [Option.map_eq_some_iff, List.findSome?_eq_some_iff, kept_foldl, Kept.refl, kept_fields, kept_storeFields,
      kept_giveAdds, kept_abortEntry, kept_ackAdds, kept_finishEntry]

theorem kept_retryOne (s : State) (l : List AddWrite) (hk : Kept s₀ s) : ∀ t, retryOne s l = some t → Kept s₀ t := by
  intro t e
  obtain ⟨w, -, hw⟩ := List.exists_of_findSome?_eq_some e
  exact kept_acceptAdd _ _ (kept_fields hk ..) _ hw

@[simp] theorem kept_retryLoop (x0 : Nat) (x1 : State) (hk : Kept s₀ x1) : Kept s₀ (retryLoop x0 x1) := by
  induction x0 generalizing x1 with
  | zero => exact hk
  | succ n ih =>
    unfold retryLoop
    split
    · exact ih _ (kept_retryOne _ _ hk _ ‹_›)
    · exact hk

@[simp] theorem kept_retryAdds (s : State) (hk : Kept s₀ s) : Kept s₀ (retryAdds s) := by
  simp [retryAdds, hk]

@[simp] theorem kept_abortReds (s : State) (p : RedEntry → Bool) (hk : Kept s₀ s) : Kept s₀ (abortReds s p) := by
  unfold abortReds
  grind [kept_foldl, Kept.refl, kept_fields, kept_storeFields, kept_abortEntry, kept_retryAdds]

@[simp] theorem kept_segOff (s : State) (k : Nat) (hk : Kept s₀ s) : Kept s₀ (segOff s k) := by
  simp [segOff, hk]

@[simp] theorem kept_retireSeg (s : State) (k : Nat) (hk : Kept s₀ s) : Kept s₀ (retireSeg s k) := by
  unfold retireSeg
  dsimp only
  (repeat' split) <;> grind [kept_segOff, kept_recordRetired, kept_event, kept_abortReds, kept_modSeg]

@[simp] theorem kept_upset (s : State) (w : Nat) (hk : Kept s₀ s) : Kept s₀ (upset s w) := by
  unfold upset
  split
  · exact hk
  · exact kept_setMem (kept_forget _ _ hk) id

@[simp] theorem kept_countHit (s : State) (w : Nat) (hk : Kept s₀ s) : Kept s₀ (countHit s w) := by
  simp [countHit, hk]

/-! ### Sys2Proof/Machine/Channels.lean -/

@[simp] theorem kept_retireDma (s : State) (c : Nat) (node : Option Nat) (hk : Kept s₀ s) : Kept s₀ (retireDma s c node) := by
  unfold retireDma
  split <;> simp [hk]

@[simp] theorem kept_gateIncrement (s : State) (fa : W16) (g : BitVec 7) (basin : Nat) (tenant : W16) (byCommand : Bool)
    (v : W64) (hk : Kept s₀ s) :
    Kept s₀ (gateIncrement s fa g basin tenant byCommand v) := by
  simp [gateIncrement, hk]

@[simp] theorem kept_releaseCredits (s : State) (c : Nat) (t' : Transfer) (hk : Kept s₀ s) : Kept s₀ (releaseCredits s c t') := by
  simp [releaseCredits, hk]

@[simp] theorem kept_endTransfer (s : State) (c : Nat) (t' : Transfer) (cause : Byte) (hk : Kept s₀ s) :
    Kept s₀ (endTransfer s c t' cause) := by
  unfold endTransfer
  dsimp only
  (repeat' split) <;> grind [kept_setChan, kept_releaseCredits, kept_gateIncrement, kept_background, kept_retireDma]

@[simp] theorem kept_settle (s : State) (c : Nat) (hk : Kept s₀ s) : Kept s₀ (settle s c) := by
  unfold settle
  split <;> simp [hk]

@[simp] theorem kept_setXfer (s : State) (c : Nat) (t' : Transfer) (hk : Kept s₀ s) : Kept s₀ (setXfer s c t') := hk

@[simp] theorem kept_cancelChannels (s : State) (p : Transfer → Bool) (hk : Kept s₀ s) : Kept s₀ (cancelChannels s p) := by
  unfold cancelChannels
  dsimp only
  refine kept_foldl _ ?_ (fun t x => ?_) <;> (repeat' split) <;> grind [kept_foldl, Kept.refl, kept_fields, kept_storeFields,
      kept_setChan, kept_releaseCredits, kept_background]

/-! ### Sys2Proof/Machine/Parity.lean -/

@[simp] theorem kept_startCore (s : State) (b : Nat) (n : Nat) (arg : W64) (hk : Kept s₀ s) : Kept s₀ (startCore s b n arg) := by
  unfold startCore
  dsimp only
  grind [kept_resetGates, kept_modCore, kept_modBasin]

@[simp] theorem kept_resetCore (s : State) (n : Nat) (hk : Kept s₀ s) : Kept s₀ (resetCore s n) := by
  unfold resetCore
  dsimp only
  grind [kept_resetGates, kept_modCore, kept_cancelChannels, kept_endLife]

@[simp] theorem kept_resetEvent (s : State) (kind : Nat) (cause : Nat) (what : Nat) (hk : Kept s₀ s) :
    Kept s₀ (resetEvent s kind cause what) := by
  simp [resetEvent, hk]

@[simp] theorem kept_basinReset (s : State) (b : Nat) (cause : Nat) (hk : Kept s₀ s) : Kept s₀ (basinReset s b cause) := by
  unfold basinReset
  dsimp only
  (repeat' split) <;> grind [kept_foldl, Kept.refl, kept_fields, kept_storeFields, kept_cancelChannels, kept_modBasin,
      kept_resetEvent, kept_resetCore]

@[simp] theorem kept_beginStep (s : State) (b : Nat) (arg : W64) (cores : List Nat) (all : Bool) (hk : Kept s₀ s) :
    Kept s₀ (beginStep s b arg cores all) := hk

@[simp] theorem kept_restoreGate (s : State) (g : Nat) (k : Gate) (hk : Kept s₀ s) : Kept s₀ (restoreGate s g k) := hk

@[simp] theorem kept_stopStep (s : State) (b : Nat) (hk : Kept s₀ s) : Kept s₀ (stopStep s b) := by
  unfold stopStep
  dsimp only
  grind [kept_foldl, Kept.refl, kept_fields, kept_storeFields, kept_resetGates, kept_modCore]

@[simp] theorem kept_restartStep (s : State) (b : Nat) (k : Step) (hk : Kept s₀ s) : Kept s₀ (restartStep s b k) := by
  unfold restartStep
  dsimp only
  grind [kept_foldl, Kept.refl, kept_fields, kept_storeFields, kept_restoreGate, kept_startCore,
      kept_modBasin]

@[simp] theorem kept_rerunStep (s : State) (b : Nat) (k : Step) (hk : Kept s₀ s) : Kept s₀ (rerunStep s b k) := by
  simp [rerunStep, hk]

@[simp] theorem kept_parityEvent (s : State) (code : W16) (w : Nat) (b : Nat) (more : Byte) (hk : Kept s₀ s) :
    Kept s₀ (parityEvent s code w b more) := by
  simp [parityEvent, hk]

@[simp] theorem kept_escalate (s : State) (w : Nat) (b : Nat) (reason : Byte) (hk : Kept s₀ s) : Kept s₀ (escalate s w b reason) := by
  simp [escalate, hk]

@[simp] theorem kept_stepDetection (s : State) (w : Nat) (b : Nat) (k : Step) (hk : Kept s₀ s) : Kept s₀ (stepDetection s w b k) := by
  simp [stepDetection, hk]

@[simp] theorem kept_resumeReruns (s : State) (hk : Kept s₀ s) : Kept s₀ (resumeReruns s) := by
  unfold resumeReruns
  dsimp only
  grind [kept_foldl, Kept.refl, kept_fields, kept_storeFields, kept_flushWaiting, kept_restartStep,
      kept_modBasin]

@[simp] theorem kept_detect (s : State) (w : Nat) (b : Option Nat) (code : Byte) (hk : Kept s₀ s) : Kept s₀ (detect s w b code) := by
  unfold detect
  dsimp only
  (repeat' split) <;> simp [hk]

@[simp] theorem kept_settleReads (s : State) (hk : Kept s₀ s) : Kept s₀ (settleReads s) := by
  simp [settleReads, hk]

theorem kept_execParityDetection (addr : W32) (reader : Reader) (s : State) (hk : Kept s₀ s) :
    ∀ t, execParityDetection addr reader s = .next t → Kept s₀ t := by
  unfold execParityDetection
  intro t e
  cases e
  split <;> simp [hk]

/-! ### Sys2Proof/Machine/Issue.lean -/

@[simp] theorem kept_endStepOf (s : State) (n : Nat) (hk : Kept s₀ s) : Kept s₀ (endStepOf s n) := by
  unfold endStepOf
  split <;> simp [hk]

@[simp] theorem kept_faultCore (s : State) (n : Nat) (f : BundleFault) (flags : Byte) (pc : BitVec 14) (hk : Kept s₀ s) :
    Kept s₀ (faultCore s n f flags pc) := by
  unfold faultCore
  dsimp only
  grind [kept_modCore, kept_endStepOf, kept_stopGates, kept_event, kept_endLife]

@[simp] theorem kept_holdCore (s : State) (n : Nat) (hk : Kept s₀ s) : Kept s₀ (holdCore s n) := by
  simp [holdCore, hk]

@[simp] theorem kept_faultBundle (s : State) (ns : List Nat) (pc : BitVec 14) (fs : List (Nat × BundleFault)) (hk : Kept s₀ s) :
    Kept s₀ (faultBundle s ns pc fs) := by
  unfold faultBundle
  grind [kept_foldl, Kept.refl, kept_fields, kept_storeFields, kept_holdCore, kept_faultCore]

theorem kept_issueSlot (s : State) (x : Ctx) (op : Op) (ho : op.Keeps) (hk : Kept s₀ s) : Kept s₀ (issueSlot s x op) :=
  (kept_modCore _ _ _ hk).trans (ho _ _)

theorem kept_issueSlots (m : Nat) (ns : List Nat) (pc : BitVec 14) (l : List Item) (hl : ∀ i ∈ l, i.op.Keeps) (s : State) (k : Byte) (hk : Kept s₀ s) :
    Kept s₀ (issueSlots m ns pc l s k).1 := by
  induction l generalizing s k with
  | nil => exact hk
  | cons i l ih =>
    unfold issueSlots
    dsimp only
    split
    · exact hk
    · exact ih (fun j hj => hl j (List.mem_cons_of_mem _ hj)) _ _
        (kept_foldl _ hk (fun t x => kept_issueSlot _ _ _ (hl i List.mem_cons_self) (Kept.refl t)))

@[simp] theorem kept_finishBundle (s : State) (m : Nat) (ns : List Nat) (hk : Kept s₀ s) : Kept s₀ (finishBundle s m ns) := by
  unfold finishBundle
  dsimp only
  (repeat' split) <;> grind [kept_foldl, Kept.refl, kept_fields, kept_storeFields, kept_modCore, kept_stopGates]

theorem kept_issueParts (s : State) (m : Nat) (ns : List Nat) (pc : BitVec 14) (l : List Item) (hl : ∀ i ∈ l, i.op.Keeps)
    (done : Byte) (hk : Kept s₀ s) :
    Kept s₀ (issueParts s m ns pc l done) := by
  unfold issueParts
  have h1 := kept_issueSlots (s₀ := s₀) m ns pc (l.filter (fun i => !bit done.toNat (i.slot - 1))) (fun i hi => hl i (List.mem_filter.1 hi).1) s done hk
  split
  · rename_i e; rw [e] at h1; exact kept_settleReads _ (kept_finishBundle _ _ _ h1)
  · rename_i e; rw [e] at h1
    refine kept_settleReads _ (kept_foldl _ ?_ (fun t x => kept_modCore _ _ _ (Kept.refl t)))
    split
    · exact kept_modCore _ _ _ (kept_modCore _ _ _ h1)
    · exact kept_modCore _ _ _ h1

@[simp] theorem kept_countWait (s : State) (n : Nat) (hk : Kept s₀ s) : Kept s₀ (countWait s n) := by
  simp [countWait, hk]

theorem kept_issueOne (n k : Nat) (p : Pred) (op : Op) (ho : op.Keeps) (s : State) (hk : Kept s₀ s) :
    Kept s₀ (issueOne n k p op s) := by
  unfold issueOne
  have h1 := kept_issueSlots (s₀ := s₀) n (issueGroup s n) (s.core n).pc [⟨k, p, op⟩] (by simpa using ho)
    ((issueGroup s n).foldl (fun t k => t.modCore k (fun c => { c with held := some { raw := 0, snap := c.capture } })) s) 0
    (kept_foldl _ hk (fun t x => kept_modCore _ _ _ (Kept.refl t)))
  split
  · exact kept_countWait _ _ hk
  · dsimp only
    split
    · exact kept_modCore _ _ _ hk
    · split
      · split
        · rename_i e; rw [e] at h1; exact kept_settleReads _ (kept_finishBundle _ _ _ h1)
        · exact kept_modCore _ _ _ hk
      · exact kept_faultBundle _ _ _ _ hk

@[simp] theorem kept_writeCore (x' : Ctx) (f : Core → Core) (s : State) (hk : Kept s₀ s) : Kept s₀ (writeCore x' f s) := hk

/-! ### Sys2Proof/Machine/SlotA.lean -/

@[simp] theorem kept_putA (x' : Ctx) (r' : BitVec 4) (v : W32) (s : State) (hk : Kept s₀ s) : Kept s₀ (putA x' r' v s) := hk

@[simp] theorem opAli_keeps (ad : BitVec 4) (imm : W32) : (opAli ad imm).Keeps := by
  exact fun _ s => Kept.refl s

@[simp] theorem opAaddi_keeps (ad : BitVec 4) (aa : BitVec 4) (imm : BitVec 28) : (opAaddi ad aa imm).Keeps := by
  exact fun _ s => Kept.refl s

@[simp] theorem opAadd_keeps (ad : BitVec 4) (aa : BitVec 4) (rb : BitVec 5) (sh : BitVec 3) : (opAadd ad aa rb sh).Keeps := by
  exact fun _ s => Kept.refl s

@[simp] theorem opAcirc_keeps (ad : BitVec 4) (ab : BitVec 4) (lg : BitVec 5) (stride : BitVec 23) :
    (opAcirc ad ab lg stride).Keeps := by
  exact fun _ s => Kept.refl s

@[simp] theorem opAbnd_keeps (pd : BitVec 3) (aa : BitVec 4) (al : BitVec 4) (len : BitVec 25) : (opAbnd pd aa al len).Keeps := by
  exact fun _ s => Kept.refl s

@[simp] theorem opAand_keeps (ad : BitVec 4) (aa : BitVec 4) (mask : BitVec 28) : (opAand ad aa mask).Keeps := by
  exact fun _ s => Kept.refl s

@[simp] theorem opArds_keeps (rd : BitVec 5) (aa : BitVec 4) : (opArds rd aa).Keeps := by
  exact fun _ s => Kept.refl s

/-! ### Sys2Proof/Machine/SlotM.lean -/

@[simp] theorem kept_noteOperands (s : State) (n : Nat) (os : List Operand) (hk : Kept s₀ s) : Kept s₀ (noteOperands s n os) := by
  simp [noteOperands, hk]

@[simp] theorem kept_beginStrip (x' : Ctx) (fmt : Nat) (out : List (Nat × Tile)) (isInt : Bool) (pair : Bool) (s : State)
    (hk : Kept s₀ s) :
    Kept s₀ (beginStrip x' fmt out isInt pair s) := hk

@[simp] theorem opStrip_keeps (f : FmtMS) (codes : List Nat) (evenTd : Bool)
    (run : MFmt → Ctx → State → List Byte → List Byte → List (Nat × Tile) × Bool) :
    (opStrip f codes evenTd run).Keeps := by
  unfold opStrip
  intro x s
  dsimp only
  split <;> simp

@[simp] theorem opMmul_keeps (f : FmtMS) : (opMmul f).Keeps := by
  simp [opMmul]

@[simp] theorem opMmulp_keeps (f : FmtMS) : (opMmulp f).Keeps := by
  simp [opMmulp]

@[simp] theorem opMmul3_keeps (f : FmtMS) : (opMmul3 f).Keeps := by
  simp [opMmul3]

@[simp] theorem opMmulbs_keeps (f : FmtMB) : (opMmulbs f).Keeps := by
  unfold opMmulbs
  intro x s
  dsimp only
  split <;> simp

@[simp] theorem opMlat_keeps (f : FmtMS) : (opMlat f).Keeps := by
  unfold opMlat
  intro x s
  dsimp only
  split <;> simp

@[simp] theorem opMst_keeps (f : FmtMT) : (opMst f).Keeps := by
  intro x s
  simp [opMst]

@[simp] theorem opMstp_keeps (f : FmtMT) : (opMstp f).Keeps := by
  intro x s
  simp [opMstp]

@[simp] theorem opMfin_keeps (ts : BitVec 2) : (opMfin ts).Keeps := by
  exact fun _ s => Kept.refl s

/-! ### Sys2Proof/Machine/Transfers.lean -/

@[simp] theorem kept_loadBuffer (s : State) (t' : Transfer) (hk : Kept s₀ s) : Kept s₀ (loadBuffer s t').1 := by
  simp [loadBuffer, hk]

@[simp] theorem kept_pump (x0 : Nat) (x1 : State) (x2 : Nat) (hk : Kept s₀ x1) : Kept s₀ (pump x0 x1 x2) := by
  induction x0 generalizing x1 with
  | zero => exact hk
  | succ n ih =>
    unfold pump
    split
    · exact hk
    · split
      · exact hk
      · have h1 := kept_loadBuffer x1 ‹Transfer› hk
        dsimp only
        split
        · exact kept_setXfer _ _ _ h1
        · split
          · exact ih _ (kept_setXfer _ _ _ (kept_send _ _ h1))
          · exact kept_setXfer _ _ _ h1

@[simp] theorem kept_run (s : State) (c : Nat) (hk : Kept s₀ s) : Kept s₀ (run s c) := by
  unfold run
  dsimp only
  split <;> simp [hk]

@[simp] theorem kept_leaveBuffer (s : State) (c : Nat) (xfer : W16) (k : Nat) (hk : Kept s₀ s) : Kept s₀ (leaveBuffer s c xfer k) := by
  unfold leaveBuffer
  (repeat' split) <;> grind [kept_foldl, Kept.refl, kept_fields, kept_storeFields, kept_settleReads, kept_setXfer, kept_run]

@[simp] theorem kept_requestCredits (s : State) (c : Nat) (t' : Transfer) (hk : Kept s₀ s) : Kept s₀ (requestCredits s c t') := by
  simp [requestCredits, hk]

@[simp] theorem kept_startTransfer (s : State) (c : Nat) (t0 : Transfer) (badWord : Bool) (hk : Kept s₀ s) :
    Kept s₀ (startTransfer s c t0 badWord) := by
  unfold startTransfer
  dsimp only
  (repeat' split) <;> grind [kept_setChan, kept_requestCredits, kept_endTransfer, kept_run]

theorem kept_execCreditGrant (src : W16) (window : Byte) (n : Byte) (xfer : W16) (chan : Byte) (s : State) (hk : Kept s₀ s) :
    ∀ t, execCreditGrant src window n xfer chan s = .next t → Kept s₀ t := by
  unfold execCreditGrant
  intro t e
  cases e
  (repeat' split) <;> grind [kept_settleReads, kept_releaseCredits, kept_setXfer, kept_run]

@[simp] theorem kept_failXfer (s : State) (c : Nat) (t' : Transfer) (cause : Byte) (hk : Kept s₀ s) :
    Kept s₀ (failXfer s c t' cause) := by
  unfold failXfer
  dsimp only
  (repeat' split) <;> grind [kept_settle, kept_releaseCredits, kept_setXfer]

@[simp] theorem kept_finishRecord (s : State) (k : CombineRecord) (outcome : Byte) (hk : Kept s₀ s) :
    Kept s₀ (finishRecord s k outcome) := by
  unfold finishRecord
  dsimp only
  grind [kept_foldl, Kept.refl, kept_fields, kept_storeFields, kept_packetDone]

theorem kept_execPacketDone (src : W16) (window : Byte) (outcome : Byte) (xfer : W16) (chan : Byte) (index : W16)
    (grant : Byte) (s : State) (hk : Kept s₀ s) :
    ∀ t, execPacketDone src window outcome xfer chan index grant s = .next t → Kept s₀ t := by
  unfold execPacketDone
  intro t e
  cases e
  (repeat' split) <;> grind [kept_settleReads, kept_settle, kept_releaseCredits, kept_setXfer, kept_finishRecord,
      kept_failXfer, kept_run]

@[simp] theorem kept_readIn (s : State) (h' : XferHdr) (hk : Kept s₀ s) : Kept s₀ (readIn s h') := by
  unfold readIn
  dsimp only
  (repeat' split) <;> grind [kept_settle, kept_setXfer, kept_retireDma]

theorem kept_execReadData (h' : XferHdr) (data : List (List Byte)) (s : State) (hk : Kept s₀ s) :
    ∀ t, execReadData h' data s = .next t → Kept s₀ t := by
  unfold execReadData
  intro t e
  cases e
  split <;> simp [hk]

theorem kept_execFull (src : W16) (window : Byte) (xfer : W16) (chan : Byte) (s : State) (hk : Kept s₀ s) :
    ∀ t, execFull src window xfer chan s = .next t → Kept s₀ t := by
  unfold execFull
  intro t e
  cases e
  split <;> simp [hk]

theorem kept_execFullRetryTimer (chan : Fin 32) (s : State) (hk : Kept s₀ s) :
    ∀ t, execFullRetryTimer chan s = .next t → Kept s₀ t := by
  unfold execFullRetryTimer
  intro t e
  cases e
  split <;> simp [hk]

theorem kept_execLossLimit (chan : Fin 32) (s : State) (hk : Kept s₀ s) : ∀ t, execLossLimit chan s = .next t → Kept s₀ t := by
  unfold execLossLimit
  intro t e
  cases e
  (repeat' split) <;> simp [*]

theorem kept_execRevocation (src : W16) (action : Byte) (basin : Byte) (number : W32) (windows : W64) (s : State) (hk : Kept s₀ s) :
    ∀ t, execRevocation src action basin number windows s = .next t → Kept s₀ t := by
  unfold execRevocation
  dsimp only
  split
  · rintro _ ⟨⟩; exact hk
  · rintro _ ⟨⟩
    refine kept_event _ _ _ ?_
    split
    · exact hk
    · refine kept_foldl _ ?_ (fun t x => ?_)
      · exact hk
      · split
        · split
          · exact kept_failXfer _ _ _ _ (Kept.refl t)
          · exact Kept.refl t
        · exact Kept.refl t

@[simp] theorem kept_suspendChannels (s : State) (b : Nat) (hk : Kept s₀ s) : Kept s₀ (suspendChannels s b) := by
  unfold suspendChannels
  grind [kept_foldl, Kept.refl, kept_fields, kept_storeFields, kept_releaseCredits, kept_setXfer]

@[simp] theorem kept_resumeChannels (s : State) (b : Nat) (move : Nat → Nat) (hk : Kept s₀ s) : Kept s₀ (resumeChannels s b move) := by
  unfold resumeChannels
  dsimp only
  grind [kept_foldl, Kept.refl, kept_fields, kept_storeFields, kept_settle, kept_setXfer,
      kept_requestCredits, kept_run]

@[simp] theorem kept_returnPacket (b : Nat) (s : State) (o' : OutPacket) (hk : Kept s₀ s) : Kept s₀ (returnPacket b s o') := by
  unfold returnPacket
  dsimp only
  split <;> (try split) <;> simp [hk]

@[simp] theorem kept_fencePackets (s : State) (b : Nat) (hk : Kept s₀ s) : Kept s₀ (fencePackets s b) := by
  unfold fencePackets
  dsimp only
  grind [kept_foldl, Kept.refl, kept_fields, kept_storeFields, kept_modPort, kept_returnPacket, kept_flush]

/-! ### Sys2Proof/Machine/SlotD.lean -/

@[simp] theorem kept_markOwn (s : State) (n : Nat) (hk : Kept s₀ s) : Kept s₀ (markOwn s n) := by
  unfold markOwn
  split <;> simp [hk]

@[simp] theorem kept_nextTag (s : State) (hk : Kept s₀ s) : Kept s₀ (nextTag s).1 := hk

@[simp] theorem kept_issueGate (f : FmtG) (op' : Byte) (x' : Ctx) (s : State) (hk : Kept s₀ s) :
    Kept s₀ (issueGate f op' x' s) := by
  unfold issueGate
  dsimp only
  (repeat' split) <;> grind [kept_writeCore, kept_modCore, kept_gateOperate, kept_nextTag, kept_markOwn, kept_send]

@[simp] theorem opGate_keeps (op' : Byte) (f : FmtG) : (opGate op' f).Keeps := by
  intro x s
  simp [opGate]

@[simp] theorem kept_setSliceQueue (s : State) (k : Nat) (l : List MemPart) (hk : Kept s₀ s) : Kept s₀ (setSliceQueue s k l) := hk

@[simp] theorem kept_enterQueue (s : State) (k : Nat) (p : MemPart) (hk : Kept s₀ s) : Kept s₀ (enterQueue s k p) := hk

@[simp] theorem kept_startMemOp (s : State) (n : Nat) (dst : Nat) (src : Nat) (len : Nat) (parts : List (Nat × MemPart)) (hk : Kept s₀ s) :
    Kept s₀ (startMemOp s n dst src len parts) := by
  unfold startMemOp
  dsimp only
  grind [kept_foldl, Kept.refl, kept_fields, kept_storeFields, kept_enterQueue]

@[simp] theorem kept_queueSegment (v : W64) (s : State) (k : Nat) (hk : Kept s₀ s) : Kept s₀ (queueSegment v s k) := by
  simp [queueSegment, hk]

@[simp] theorem opDfill_keeps (a : BitVec 4) (sv : BitVec 5) (sl : BitVec 5) : (opDfill a sv sl).Keeps := by
  intro x s
  simp [opDfill]

@[simp] theorem opDcopy_keeps (ad : BitVec 4) (as : BitVec 4) (sl : BitVec 5) : (opDcopy ad as sl).Keeps := by
  intro x s
  simp [opDcopy]

@[simp] theorem kept_endPart (s : State) (op' : Nat) (p : MemPart) (hk : Kept s₀ s) : Kept s₀ (endPart s op' p) := by
  unfold endPart
  dsimp only
  (repeat' split) <;> grind [kept_foldl, Kept.refl, kept_fields, kept_storeFields, kept_modCore, kept_modSeg]

@[simp] theorem kept_finishPart (s : State) (p : MemPart) (hk : Kept s₀ s) : Kept s₀ (finishPart s p) := by
  unfold finishPart
  split
  · exact kept_endPart _ _ _ (kept_setMem hk (Memory.fill_wf _ _ _ _))
  · exact kept_endPart _ _ _ (kept_write _ _ (kept_noteCore _ _ _ _ hk))
  · dsimp only
    split
    · exact kept_modSeg _ _ _ (kept_setMem hk (Memory.fill_wf _ _ _ _))
    · exact hk

@[simp] theorem kept_nextPart (s : State) (k : Nat) (hk : Kept s₀ s) : Kept s₀ (nextPart s k) := by
  unfold nextPart
  dsimp only
  (repeat' split) <;> grind [kept_foldl, Kept.refl, kept_fields, kept_storeFields, kept_enterQueue, kept_setSliceQueue]

theorem kept_execInMemoryOpComplete (slice : Fin 64) (s : State) (hk : Kept s₀ s) :
    ∀ t, execInMemoryOpComplete slice s = .next t → Kept s₀ t := by
  unfold execInMemoryOpComplete
  intro t e
  cases e
  (repeat' split) <;> grind [kept_settleReads, kept_nextPart, kept_finishPart]

@[simp] theorem opDpost_keeps (a : BitVec 4) (g : BitVec 5) (sl : BitVec 5) (ch : BitVec 2) (dir : Bool) (gate : BitVec 7) :
    (opDpost a g sl ch dir gate).Keeps := by
  intro x s
  simp [opDpost]

/-! ### Sys2Proof/Machine/Point.lean -/

@[simp] theorem kept_setHead (s : State) (h' : Head) (hk : Kept s₀ s) : Kept s₀ (setHead s h') := hk

@[simp] theorem kept_modHead (s : State) (f : Head → Head) (hk : Kept s₀ s) : Kept s₀ (modHead s f) := hk

@[simp] theorem kept_sendVddReq (s : State) (op' : Nat) (hk : Kept s₀ s) : Kept s₀ (sendVddReq s op') := hk

@[simp] theorem kept_pointReasons (s : State) (hk : Kept s₀ s) : Kept s₀ (pointReasons s) := hk

@[simp] theorem kept_evalPoint (s0 : State) (hk : Kept s₀ s0) : Kept s₀ (evalPoint s0) := by
  simp [evalPoint, hk]

/-! ### Sys2Proof/Machine/SlotH.lean -/

@[simp] theorem kept_setLoop (x' : Ctx) (level : Bool) (count : W32) (stop : BitVec 14) (s : State) (hk : Kept s₀ s) :
    Kept s₀ (setLoop x' level count stop s) := hk

@[simp] theorem opLoop_keeps (level : Bool) (sr : BitVec 5) (stop : BitVec 14) : (opLoop level sr stop).Keeps := by
  exact fun _ s => Kept.refl s

@[simp] theorem opLoopi_keeps (level : Bool) (count : BitVec 7) (stop : BitVec 14) : (opLoopi level count stop).Keeps := by
  exact fun _ s => Kept.refl s

@[simp] theorem opHint_keeps (level : BitVec 2) (lead : Byte) (dur : BitVec 12) : (opHint level lead dur).Keeps := by
  exact fun _ s => Kept.refl s

@[simp] theorem opPhase_keeps (ph : BitVec 2) : (opPhase ph).Keeps := by
  unfold opPhase
  intro x s
  dsimp only
  (repeat' split) <;> grind [kept_foldl, Kept.refl, kept_fields, kept_storeFields, kept_writeCore, kept_evalPoint,
      kept_modBasin]

@[simp] theorem opPref_keeps (line : BitVec 10) : (opPref line).Keeps := by
  unfold opPref
  intro x s
  dsimp only
  split <;> simp

@[simp] theorem opEdge_keeps : (opEdge).Keeps := by
  exact fun _ s => Kept.refl s

@[simp] theorem kept_idleCore (s : State) (n : Nat) (hk : Kept s₀ s) : Kept s₀ (idleCore s n) := by
  simp [idleCore, hk]

@[simp] theorem kept_leaveStep (s : State) (b : Nat) (n : Nat) (hk : Kept s₀ s) : Kept s₀ (leaveStep s b n) := hk

@[simp] theorem opEnd_keeps : (opEnd).Keeps := by
  unfold opEnd
  intro x s
  dsimp only
  split <;> simp

/-! ### Sys2Proof/Machine/SlotS.lean -/

@[simp] theorem kept_putS (x' : Ctx) (r' : BitVec 5) (v : Nat) (s : State) (hk : Kept s₀ s) : Kept s₀ (putS x' r' v s) := hk

@[simp] theorem kept_putP (x' : Ctx) (r' : BitVec 3) (v : Bool) (s : State) (hk : Kept s₀ s) : Kept s₀ (putP x' r' v s) := hk

@[simp] theorem opInt_keeps (f : FmtR) (hasSat : Bool) (g : Nat → Bool → Bool → Nat → Nat → Nat × Conds) (rbZero : optParam Bool false) :
    (opInt f hasSat g rbZero).Keeps := by
  exact fun _ s => Kept.refl s

@[simp] theorem opAdd_keeps (f : FmtR) : (opAdd f).Keeps := by
  exact fun _ s => Kept.refl s

@[simp] theorem opSub_keeps (f : FmtR) : (opSub f).Keeps := by
  exact fun _ s => Kept.refl s

@[simp] theorem opMul_keeps (f : FmtR) : (opMul f).Keeps := by
  exact fun _ s => Kept.refl s

@[simp] theorem opMulh_keeps (f : FmtR) : (opMulh f).Keeps := by
  exact fun _ s => Kept.refl s

@[simp] theorem opDiv_keeps (f : FmtR) : (opDiv f).Keeps := by
  exact fun _ s => Kept.refl s

@[simp] theorem opRem_keeps (f : FmtR) : (opRem f).Keeps := by
  exact fun _ s => Kept.refl s

@[simp] theorem opNeg_keeps (f : FmtR) : (opNeg f).Keeps := by
  exact fun _ s => Kept.refl s

@[simp] theorem opMin_keeps (f : FmtR) : (opMin f).Keeps := by
  exact fun _ s => Kept.refl s

@[simp] theorem opMax_keeps (f : FmtR) : (opMax f).Keeps := by
  exact fun _ s => Kept.refl s

@[simp] theorem opAnd_keeps (f : FmtR) : (opAnd f).Keeps := by
  exact fun _ s => Kept.refl s

@[simp] theorem opOr_keeps (f : FmtR) : (opOr f).Keeps := by
  exact fun _ s => Kept.refl s

@[simp] theorem opXor_keeps (f : FmtR) : (opXor f).Keeps := by
  exact fun _ s => Kept.refl s

@[simp] theorem opShl_keeps (f : FmtR) : (opShl f).Keeps := by
  exact fun _ s => Kept.refl s

@[simp] theorem opShr_keeps (f : FmtR) : (opShr f).Keeps := by
  exact fun _ s => Kept.refl s

@[simp] theorem opSar_keeps (f : FmtR) : (opSar f).Keeps := by
  exact fun _ s => Kept.refl s

@[simp] theorem opRol_keeps (f : FmtR) : (opRol f).Keeps := by
  exact fun _ s => Kept.refl s

@[simp] theorem opRor_keeps (f : FmtR) : (opRor f).Keeps := by
  exact fun _ s => Kept.refl s

@[simp] theorem opPopc_keeps (f : FmtR) : (opPopc f).Keeps := by
  exact fun _ s => Kept.refl s

@[simp] theorem opClz_keeps (f : FmtR) : (opClz f).Keeps := by
  exact fun _ s => Kept.refl s

@[simp] theorem opExt_keeps (f : FmtR) : (opExt f).Keeps := by
  exact fun _ s => Kept.refl s

@[simp] theorem opIns_keeps (f : FmtR) : (opIns f).Keeps := by
  exact fun _ s => Kept.refl s

@[simp] theorem opAddi_keeps (f : FmtI) : (opAddi f).Keeps := by
  exact fun _ s => Kept.refl s

@[simp] theorem opLi_keeps (f : FmtI) : (opLi f).Keeps := by
  exact fun _ s => Kept.refl s

@[simp] theorem opLic_keeps (f : FmtI) : (opLic f).Keeps := by
  exact fun _ s => Kept.refl s

@[simp] theorem opCmp_keeps (f : FmtC) : (opCmp f).Keeps := by
  exact fun _ s => Kept.refl s

@[simp] theorem opCmpi_keeps (f : FmtCI) : (opCmpi f).Keeps := by
  exact fun _ s => Kept.refl s

@[simp] theorem opChk_keeps (f : FmtC) : (opChk f).Keeps := by
  exact fun _ s => Kept.refl s

@[simp] theorem opPlog_keeps (pd : BitVec 3) (pa : BitVec 3) (pb : BitVec 3) (fn : BitVec 2) (inv : Bool) :
    (opPlog pd pa pb fn inv).Keeps := by
  exact fun _ s => Kept.refl s

@[simp] theorem opSel_keeps (rd : BitVec 5) (ra : BitVec 5) (rb : BitVec 5) (ps : BitVec 3) : (opSel rd ra rb ps).Keeps := by
  exact fun _ s => Kept.refl s

@[simp] theorem opFlt_keeps (f : FmtR) (hasFin : Bool) (g : Bool → Nat → Nat → Nat → Nat × Conds) (readsRd : optParam Bool false)
    (rbZero : optParam Bool false) :
    (opFlt f hasFin g readsRd rbZero).Keeps := by
  exact fun _ s => Kept.refl s

@[simp] theorem opFadd_keeps (f : FmtR) : (opFadd f).Keeps := by
  exact fun _ s => Kept.refl s

@[simp] theorem opFsub_keeps (f : FmtR) : (opFsub f).Keeps := by
  exact fun _ s => Kept.refl s

@[simp] theorem opFmul_keeps (f : FmtR) : (opFmul f).Keeps := by
  exact fun _ s => Kept.refl s

@[simp] theorem opFma_keeps (f : FmtR) : (opFma f).Keeps := by
  exact fun _ s => Kept.refl s

@[simp] theorem opFmin_keeps (f : FmtR) : (opFmin f).Keeps := by
  exact fun _ s => Kept.refl s

@[simp] theorem opFmax_keeps (f : FmtR) : (opFmax f).Keeps := by
  exact fun _ s => Kept.refl s

@[simp] theorem opFrsq_keeps (f : FmtR) : (opFrsq f).Keeps := by
  exact fun _ s => Kept.refl s

@[simp] theorem opFcmp_keeps (f : FmtC) : (opFcmp f).Keeps := by
  exact fun _ s => Kept.refl s

@[simp] theorem opCvt_keeps (rd : BitVec 5) (ra : BitVec 5) (kind : BitVec 3) (rnd : BitVec 2) : (opCvt rd ra kind rnd).Keeps := by
  exact fun _ s => Kept.refl s

@[simp] theorem opLd_keeps (f : FmtL) : (opLd f).Keeps := by
  intro x s
  simp [opLd]

@[simp] theorem opSt_keeps (f : FmtL) : (opSt f).Keeps := by
  intro x s
  simp [opSt]

@[simp] theorem opMova_keeps (ad : BitVec 4) (ra : BitVec 5) : (opMova ad ra).Keeps := by
  exact fun _ s => Kept.refl s

@[simp] theorem opRdq_keeps (rd : BitVec 5) (q' : BitVec 2) : (opRdq rd q').Keeps := by
  exact fun _ s => Kept.refl s

@[simp] theorem opDset_keeps (d : BitVec 4) (half : Bool) (ra : BitVec 5) : (opDset d half ra).Keeps := by
  exact fun _ s => Kept.refl s

@[simp] theorem opWhoami_keeps (f : FmtR) : (opWhoami f).Keeps := by
  exact fun _ s => Kept.refl s

@[simp] theorem opRdturn_keeps (f : FmtR) : (opRdturn f).Keeps := by
  exact fun _ s => Kept.refl s

@[simp] theorem kept_branchTo (x' : Ctx) (t' : BitVec 14) (s : State) (hk : Kept s₀ s) : Kept s₀ (branchTo x' t' s) := by
  simp [branchTo, hk]

@[simp] theorem opBr_keeps (f : FmtB) : (opBr f).Keeps := by
  intro x s
  simp [opBr]

@[simp] theorem opBl_keeps (f : FmtB) : (opBl f).Keeps := by
  intro x s
  simp [opBl]

@[simp] theorem opJr_keeps (ra : BitVec 5) (_likely : Bool) : (opJr ra _likely).Keeps := by
  intro x s
  simp [opJr]

@[simp] theorem opBrq_keeps (f : FmtQ) : (opBrq f).Keeps := by
  intro x s
  simp [opBrq]

/-! ### Sys2Proof/Machine/SlotV.lean -/

@[simp] theorem opVbath_keeps (f : FmtV) : (opVbath f).Keeps := by
  exact fun _ s => Kept.refl s

@[simp] theorem opVtpop_keeps (f : FmtV) : (opVtpop f).Keeps := by
  exact fun _ s => Kept.refl s

@[simp] theorem opVred_keeps (qd : BitVec 2) (ds : BitVec 4) (kind : BitVec 3) (typ : Bool) : (opVred qd ds kind typ).Keeps := by
  exact fun _ s => Kept.refl s

@[simp] theorem opVtclr_keeps (t' : BitVec 2) : (opVtclr t').Keeps := by
  exact fun _ s => Kept.refl s

@[simp] theorem opVtld_keeps (t' : BitVec 2) (a : BitVec 4) : (opVtld t' a).Keeps := by
  exact fun _ s => Kept.refl s

@[simp] theorem opVcfill_keeps (region : BitVec 4) (a : BitVec 4) : (opVcfill region a).Keeps := by
  exact fun _ s => Kept.refl s

@[simp] theorem kept_noteStreams (s : State) (n : Nat) (dd : BitVec 128) (ds : List (BitVec 128)) (first : Nat) (last : Nat)
    (hk : Kept s₀ s) :
    Kept s₀ (noteStreams s n dd ds first last) := by
  unfold noteStreams
  dsimp only
  grind [kept_foldl, Kept.refl, kept_fields, kept_storeFields, kept_note]

@[simp] theorem kept_streamTo (s : State) (n : Nat) (o : VOp) (f : FmtV) (tile : Option (Nat → Nat × Nat)) (last : Nat) (hk : Kept s₀ s) :
    Kept s₀ (streamTo s n o f tile last) := by
  unfold streamTo
  dsimp only
  refine kept_modCore _ _ _ ⟨?_, ?_, fun hw => ?_⟩
  · exact (kept_noteStreams _ _ _ _ _ _ hk).1
  · exact (kept_noteStreams _ _ _ _ _ _ hk).2.1
  · exact bathElems_wf _ _ _ _ _ _ _ _ _ (hk.2.2 hw)

@[simp] theorem kept_runStream (s : State) (n : Nat) (o' : VOp) (f : FmtV) (tile : Option (Nat → Nat × Nat)) (hk : Kept s₀ s) :
    Kept s₀ (runStream s n o' f tile) := by
  simp [runStream, hk]

@[simp] theorem kept_stopStream (s : State) (n : Nat) (o' : VOp) (f : FmtV) (tile : Option (Nat → Nat × Nat)) (hk : Kept s₀ s) :
    Kept s₀ (stopStream s n o' f tile) := by
  unfold stopStream
  dsimp only
  grind [kept_streamTo, kept_fresh, kept_modCore]

@[simp] theorem kept_finishRed (s : State) (n : Nat) (qd : BitVec 2) (ds : BitVec 4) (kind : BitVec 3) (float : Bool)
    (hk : Kept s₀ s) :
    Kept s₀ (finishRed s n qd ds kind float) := by
  simp [finishRed, hk]

@[simp] theorem kept_completeV (s : State) (n : Nat) (hk : Kept s₀ s) : Kept s₀ (completeV s n) := by
  unfold completeV
  dsimp only
  (repeat' split) <;> grind [kept_finishRed, kept_modCore, kept_runStream, kept_noteCore]

/-! ### Sys2Proof/Machine/BundleDecode.lean -/

theorem decodeInt_keeps (code : Nat) (f : FmtR) : OptKeeps (decodeInt code f) := by
  unfold decodeInt
  split <;> simp

theorem decodeFlt_keeps (code : Nat) (f : FmtR) : OptKeeps (decodeFlt code f) := by
  unfold decodeFlt
  split <;> simp

theorem decodeS_keeps (code v : Nat) : OptKeeps (decodeS code v) := by
  unfold decodeS
  split <;> simp [OptKeeps.or, decodeInt_keeps, decodeFlt_keeps]

theorem decodeA_keeps (code v : Nat) : OptKeeps (decodeA code v) := by
  unfold decodeA
  split <;> simp

theorem decodeM_keeps (code v : Nat) : OptKeeps (decodeM code v) := by
  unfold decodeM
  split <;> simp [OptKeeps.bind]

theorem decodeV_keeps (code v : Nat) : OptKeeps (decodeV code v) := by
  unfold decodeV
  split <;> simp

theorem decodeD_keeps (code v : Nat) : OptKeeps (decodeD code v) := by
  unfold decodeD
  split <;> simp

theorem decodeH_keeps (v : Nat) : OptKeeps (decodeH v) := by
  unfold decodeH
  split <;> simp

@[simp] theorem opReserved_keeps : (opReserved).Keeps := by
  exact fun _ s => Kept.refl s

theorem decodeSlot_keeps (raw : BitVec 384) (k : Nat) : (decodeSlot raw k).op.Keeps := by
  unfold decodeSlot
  refine OptKeeps.getD ?_ (by simp)
  split
  · exact decodeS_keeps _ _
  · exact decodeS_keeps _ _
  · exact decodeA_keeps _ _
  · exact decodeA_keeps _ _
  · exact decodeM_keeps _ _
  · exact decodeV_keeps _ _
  · exact decodeD_keeps _ _
  · exact decodeH_keeps _

theorem decodeBundle_keeps (raw : BitVec 384) : ∀ i ∈ decodeBundle raw, i.op.Keeps := by
  intro i hi
  obtain ⟨k, -, rfl⟩ := List.mem_map.1 hi
  exact decodeSlot_keeps raw k

/-! ### Sys2Proof/Machine/Bundle.lean -/

theorem kept_execIfetchMissFill (n : Fin 64) (parityOk : Bool) (s : State) (hk : Kept s₀ s) :
    ∀ t, execIfetchMissFill n parityOk s = .next t → Kept s₀ t := by
  unfold execIfetchMissFill
  intro t e
  cases e
  (repeat' split) <;> grind [kept_foldl, Kept.refl, kept_fields, kept_storeFields, kept_modCore, kept_faultBundle]

@[simp] theorem kept_issueBundle (s : State) (m : Nat) (ns : List Nat) (raw : BitVec 384) (hk : Kept s₀ s) :
    Kept s₀ (issueBundle s m ns raw) := by
  unfold issueBundle
  dsimp only
  split
  · exact kept_issueParts _ _ _ _ _ (decodeBundle_keeps raw) _ (kept_foldl _ hk fun t x => kept_modCore _ _ _ (Kept.refl t))
  · exact kept_faultBundle _ _ _ _ hk

theorem kept_execBundleIssue (n : Fin 64) (s : State) (hk : Kept s₀ s) : ∀ t, execBundleIssue n s = .next t → Kept s₀ t := by
  unfold execBundleIssue
  intro t e
  cases e
  (repeat' split) <;> simp [*]

theorem kept_execBundleSplitResume (n : Fin 64) (s : State) (hk : Kept s₀ s) :
    ∀ t, execBundleSplitResume n s = .next t → Kept s₀ t := by
  rintro _ ⟨⟩
  split
  · refine Kept.ite ?_ hk
    split
    · exact kept_issueParts _ _ _ _ _ (decodeBundle_keeps _) _ hk
    · exact kept_faultBundle _ _ _ _ hk
  · exact hk

theorem kept_execScoreboardRetire (n : Fin 64) (entry : Nat) (s : State) (hk : Kept s₀ s) :
    ∀ t, execScoreboardRetire n entry s = .next t → Kept s₀ t := by
  unfold execScoreboardRetire
  intro t e
  cases e
  split <;> simp [hk]

@[simp] theorem kept_stageBundle (s : State) (m : Nat) (ns : List Nat) (pc : BitVec 14) (raw : BitVec 384) (hk : Kept s₀ s) :
    Kept s₀ (stageBundle s m ns pc raw) := by
  unfold stageBundle
  dsimp only
  grind [kept_foldl, Kept.refl, kept_fields, kept_storeFields, kept_modCore, kept_noteCore]

theorem kept_execStripStagingComplete (n : Fin 64) (s : State) (hk : Kept s₀ s) :
    ∀ t, execStripStagingComplete n s = .next t → Kept s₀ t := by
  unfold execStripStagingComplete
  intro t e
  cases e
  (repeat' split) <;> simp [*]

theorem kept_execStripEnd (n : Fin 64) (s : State) (hk : Kept s₀ s) : ∀ t, execStripEnd n s = .next t → Kept s₀ t := by
  intro t e
  cases e
  simp [hk]

theorem kept_execGateResultWrite (n : Fin 64) (tag : W32) (s : State) (hk : Kept s₀ s) :
    ∀ t, execGateResultWrite n tag s = .next t → Kept s₀ t := by
  intro t e
  cases e
  exact hk

/-! ### Sys2Proof/Machine/Service.lean -/

@[simp] theorem Reply_no_keeps (st : W16) : (Reply.no st).Keeps := by
  exact fun _ s => Kept.refl s

@[simp] theorem Reply_data_keeps (l : List Byte) : (Reply.data l).Keeps := by
  exact fun _ s => Kept.refl s

@[simp] theorem replyTo_keeps {c : Cmd} (hc : c.Keeps) (r : Request) (s' : State) : (replyTo c r s').Keeps := by
  unfold replyTo
  split
  · split <;> exact fun _ s => Kept.refl s
  · exact hc _ _

@[simp] theorem kept_sendPeer (s : State) (dst : W16) (slot : List Byte) (hk : Kept s₀ s) : Kept s₀ (sendPeer s dst slot) := by
  simp [sendPeer, hk]

@[simp] theorem kept_leatSend (s : State) (kind : Byte) (addr : Byte) (tag : W16) (body : List Byte) (hk : Kept s₀ s) :
    Kept s₀ (leatSend s kind addr tag body) := by
  unfold leatSend
  split <;> simp [hk]

@[simp] theorem kept_sendLeat (s : State) (urgent : Bool) (tag : W16) (slot : List Byte) (hk : Kept s₀ s) :
    Kept s₀ (sendLeat s urgent tag slot) := by
  simp [sendLeat, hk]

@[simp] theorem kept_respond (s : State) (cmd : W16) (r' : Request) (st : W16) (result : List Byte) (seq : Option W32)
    (hk : Kept s₀ s) :
    Kept s₀ (respond s cmd r' st result seq) := by
  simp [respond, hk]

@[simp] theorem kept_commitStep (s : State) (c : Cmd) (q : Request) (a : Reply) (ha : a.Keeps) (hk : Kept s₀ s) :
    Kept s₀ (commitStep s c q a).1 := by
  unfold commitStep
  dsimp only
  split
  · exact hk.trans (ha _ _)
  · exact (kept_append _ hk).trans (ha _ _)

@[simp] theorem kept_keepWaiting (s : State) (c : Cmd) (r' : Request) (a : Reply) (seq : Option W32) (hk : Kept s₀ s) :
    Kept s₀ (keepWaiting s c r' a seq) := hk

@[simp] theorem kept_serveWith (c : Cmd) (hc : c.Keeps) (q : Request) (s : State) (f : Option W16) (hk : Kept s₀ s) :
    Kept s₀ (serveWith c q s f) := by
  unfold serveWith
  have h1 := kept_commitStep s c q (replyTo c q s) (replyTo_keeps hc q s) hk
  dsimp only
  split
  · exact kept_respond _ _ _ _ _ _ hk
  · split
    · exact kept_respond _ _ _ _ _ _ hk
    · split
      · exact kept_keepWaiting _ _ _ _ _ h1
      · exact kept_respond _ _ _ _ _ _ h1

@[simp] theorem kept_serve (c : Cmd) (hc : c.Keeps) (q : Request) (s : State) (hk : Kept s₀ s) : Kept s₀ (serve c q s) :=
  kept_serveWith c hc q s none hk

@[simp] theorem kept_finishLate (s : State) (urgent : Bool) (st : W16) (result : Option (List Byte)) (hk : Kept s₀ s) :
    Kept s₀ (finishLate s urgent st result) := by
  unfold finishLate
  dsimp only
  split <;> simp [hk]

@[simp] theorem kept_lateEntry (s : State) (urgent : Bool) (o' : Origin) (detail : List Byte) (hk : Kept s₀ s) :
    Kept s₀ (lateEntry s urgent o' detail) := by
  simp [lateEntry, hk]

@[simp] theorem kept_abortSeizure (s : State) (hk : Kept s₀ s) : Kept s₀ (abortSeizure s) := by
  unfold abortSeizure
  (repeat' split) <;> grind [kept_foldl, Kept.refl, kept_fields, kept_storeFields, kept_modBasin, kept_finishLate]

@[simp] theorem kept_enqueue (s : State) (r' : Request) (slot : List Byte) (hk : Kept s₀ s) : Kept s₀ (enqueue s r' slot) := by
  simp [enqueue, hk]

@[simp] theorem kept_takeAtOnce (c : Cmd) (r' : Request) (s : State) (hk : Kept s₀ s) : Kept s₀ (takeAtOnce c r' s) := hk

@[simp] theorem kept_serveRow (c : Cmd) (hc : c.Keeps) (q : Request) (s : State) (hk : Kept s₀ s) : Kept s₀ (serveRow c q s) := by
  unfold serveRow
  dsimp only
  split
  · exact hk
  · split
    · split
      · exact hk
      · split
        · exact kept_serve _ hc _ _ hk
        · exact hk
    · split
      · exact kept_serve _ hc _ _ (kept_takeAtOnce _ _ _ hk)
      · exact kept_enqueue _ _ _ hk

/-! ### Sys2Proof/Machine/Resets.lean -/

@[simp] theorem kept_abandonV (s : State) (n : Nat) (hk : Kept s₀ s) : Kept s₀ (abandonV s n) := by
  unfold abandonV
  (repeat' split) <;> grind [kept_foldl, Kept.refl, kept_fields, kept_storeFields, kept_stopStream]

@[simp] theorem kept_quietV (s : State) (n : Nat) (hk : Kept s₀ s) : Kept s₀ (quietV s n) := by
  unfold quietV
  dsimp only
  grind [kept_foldl, Kept.refl, kept_fields, kept_storeFields, kept_modCore, kept_abandonV, kept_completeV]

@[simp] theorem kept_stopCore (s : State) (n : Nat) (as : CoreRun) (hk : Kept s₀ s) : Kept s₀ (stopCore s n as) := by
  unfold stopCore
  dsimp only
  grind [kept_modCore, kept_stopGates, kept_quietV]

@[simp] theorem kept_resumeCore (s : State) (n : Nat) (step : Bool) (hk : Kept s₀ s) : Kept s₀ (resumeCore s n step) := hk

theorem kept_execOperandCacheRefilled (n : Fin 64) (s : State) (hk : Kept s₀ s) :
    ∀ t, execOperandCacheRefilled n s = .next t → Kept s₀ t := by
  unfold execOperandCacheRefilled
  intro t e
  cases e
  (repeat' split) <;> grind [kept_foldl, Kept.refl, kept_fields, kept_storeFields, kept_settleReads, kept_modCore,
      kept_noteCore]

theorem kept_execVectorOpComplete (n : Fin 64) (s : State) (hk : Kept s₀ s) :
    ∀ t, execVectorOpComplete n s = .next t → Kept s₀ t := by
  unfold execVectorOpComplete
  intro t e
  cases e
  split <;> simp [hk]

@[simp] theorem kept_nodeFault (s : State) (n : Nat) (cause : Byte) (hk : Kept s₀ s) : Kept s₀ (nodeFault s n cause) := by
  simp [nodeFault, hk]

theorem kept_execHardwareFault (n : Fin 64) (cause : HwCause) (slot : Byte) (s : State) (hk : Kept s₀ s) :
    ∀ t, execHardwareFault n cause slot s = .next t → Kept s₀ t := by
  unfold execHardwareFault
  intro t e
  cases e
  (repeat' split) <;> grind [kept_foldl, Kept.refl, kept_fields, kept_storeFields, kept_holdCore, kept_nodeFault,
      kept_modCore, kept_faultCore, kept_modBasin]

/-! ### Sys2Proof/Machine/Windows.lean -/

theorem kept_execCreditReq (src : W16) (window : Byte) (kind : Byte) (outstanding : W16) (xfer : W16) (chan : Byte) (s : State)
    (hk : Kept s₀ s) :
    ∀ t, execCreditReq src window kind outstanding xfer chan s = .next t → Kept s₀ t := by
  unfold execCreditReq
  intro t e
  cases e
  (repeat' split) <;> grind [kept_setWindow, kept_regrant, kept_flush, kept_packetDone, kept_control]

theorem kept_execCreditRelease (src : W16) (window : Byte) (n : Byte) (xfer : W16) (chan : Byte) (s : State) (hk : Kept s₀ s) :
    ∀ t, execCreditRelease src window n xfer chan s = .next t → Kept s₀ t := by
  unfold execCreditRelease
  intro t e
  cases e
  grind [kept_setWindow, kept_regrant, kept_flush]

theorem kept_execCreditReclaim (window : Fin 64) (fa : W16) (chan : Byte) (s : State) (hk : Kept s₀ s) :
    ∀ t, execCreditReclaim window fa chan s = .next t → Kept s₀ t := by
  unfold execCreditReclaim
  intro t e
  cases e
  (repeat' split) <;> grind [kept_setWindow, kept_regrant, kept_flush]

@[simp] theorem kept_refusePacket (s : State) (h' : XferHdr) (acc : Access) (cause : Byte) (hk : Kept s₀ s) :
    Kept s₀ (refusePacket s h' acc cause) := by
  unfold refusePacket
  split <;> simp [hk]

theorem kept_execWritePacket (h' : XferHdr) (data : List (List Byte)) (s : State) (hk : Kept s₀ s) :
    ∀ t, execWritePacket h' data s = .next t → Kept s₀ t := by
  unfold execWritePacket
  intro t e
  cases e
  (repeat' split) <;> grind [kept_write, kept_finishPacket, kept_refusePacket, kept_flush]

@[simp] theorem kept_serveRead (s : State) (h' : XferHdr) (hk : Kept s₀ s) : Kept s₀ (serveRead s h') := by
  unfold serveRead
  dsimp only
  (repeat' split) <;> grind [kept_foldl, Kept.refl, kept_fields, kept_storeFields, kept_post, kept_useCredit,
      kept_detect, kept_finishPacket]

theorem kept_execReadRequest (h' : XferHdr) (s : State) (hk : Kept s₀ s) : ∀ t, execReadRequest h' s = .next t → Kept s₀ t := by
  unfold execReadRequest
  intro t e
  cases e
  split <;> simp [hk]

@[simp] theorem kept_admitAdd (s : State) (h' : XferHdr) (hk : Kept s₀ s) : Kept s₀ (admitAdd s h') := hk

theorem kept_execAddPacket (h' : XferHdr) (data : List (List Byte)) (s : State) (hk : Kept s₀ s) :
    ∀ t, execAddPacket h' data s = .next t → Kept s₀ t := by
  unfold execAddPacket
  intro t e
  cases e
  split <;> simp [hk]

theorem kept_execAddWriteArrival (h' : XferHdr) (granule : Nat) (data : List Byte) (s : State) (hk : Kept s₀ s) :
    ∀ t, execAddWriteArrival h' granule data s = .next t → Kept s₀ t := by
  unfold execAddWriteArrival
  intro t e
  cases e
  (repeat' split) <;> grind [kept_foldl, Kept.refl, kept_fields, kept_storeFields, kept_settleReads, kept_acceptAdd, kept_retryAdds]

theorem kept_execReductionTimeout (entry : Nat) (s : State) (hk : Kept s₀ s) :
    ∀ t, execReductionTimeout entry s = .next t → Kept s₀ t := by
  unfold execReductionTimeout
  intro t e
  cases e
  split <;> simp [hk]

@[simp] theorem kept_sendRevocation (s : State) (fa : W16) (action : Nat) (b : Nat) (mask : Nat) (hk : Kept s₀ s) :
    Kept s₀ (sendRevocation s fa action b mask) := by
  simp [sendRevocation, hk]

@[simp] theorem kept_revokePackets (s : State) (k : Nat) (hk : Kept s₀ s) : Kept s₀ (revokePackets s k) := by
  unfold revokePackets
  dsimp only
  grind [kept_foldl, Kept.refl, kept_fields, kept_storeFields, kept_modPort, kept_postDone]

@[simp] theorem kept_stopWindow (s : State) (k : Nat) (st : WinState) (cause : Byte) (hk : Kept s₀ s) :
    Kept s₀ (stopWindow s k st cause) := by
  unfold stopWindow
  dsimp only
  (repeat' split) <;> grind [kept_foldl, Kept.refl, kept_fields, kept_storeFields, kept_postDone, kept_setWindow,
      kept_revokePackets, kept_abortReds, kept_flush]

@[simp] theorem kept_stopWindows (s : State) (b : Nat) (ks : List Nat) (action : Nat) (hk : Kept s₀ s) :
    Kept s₀ (stopWindows s b ks action).1 := by
  unfold stopWindows
  dsimp only
  (repeat' split) <;> grind [kept_foldl, Kept.refl, kept_fields, kept_storeFields, kept_sendRevocation, kept_stopWindow]

/-! ### Sys2Proof/Machine/CmdBasin.lean -/

@[simp] theorem kept_setOwner (s : State) (ks : List Nat) (o' : Option Nat) (hk : Kept s₀ s) : Kept s₀ (setOwner s ks o') := by
  simp [setOwner, hk]

@[simp] theorem kept_createBody_modBudget (s : State) (b : Nat) (hk : Kept s₀ s) : Kept s₀ (createBody.modBudget s b) := hk

@[simp] theorem createBody_keeps (r : Request) (s' : State) : (createBody r s').Keeps := by
  unfold createBody
  exact Reply.keeps_ite (Reply.no_keeps _) (Reply.keeps_ite (Reply.no_keeps _) (Reply.keeps_ite (Reply.no_keeps _) (Reply.keeps_of fun _ s =>
    kept_createBody_modBudget _ _ (kept_setOwner _ _ _ (kept_setBasin _ _ (Kept.refl s))))))

@[simp] theorem cmdBasinCreate_keeps : (cmdBasinCreate).Keeps := by
  intro q s
  simp [cmdBasinCreate]

@[simp] theorem kept_giveUp (s : State) (b : Nat) (destroyed : Bool) (ks : List Nat) (detail : List Byte) (o' : Origin)
    (hk : Kept s₀ s) :
    Kept s₀ (giveUp s b destroyed ks detail o') := by
  unfold giveUp
  dsimp only
  (repeat' split) <;> grind [kept_foldl, Kept.refl, kept_fields, kept_storeFields, kept_segOff, kept_queueSegment,
      kept_setOwner, kept_modSeg]

@[simp] theorem kept_zeroSeg (s : State) (k : Nat) (hk : Kept s₀ s) : Kept s₀ (zeroSeg s k) := by
  simp [zeroSeg, hk]

theorem kept_execZeroingComplete (basin : Fin 32) (s : State) (hk : Kept s₀ s) :
    ∀ t, execZeroingComplete basin s = .next t → Kept s₀ t := by
  unfold execZeroingComplete
  intro t e
  cases e
  (repeat' split) <;> grind [kept_foldl, Kept.refl, kept_fields, kept_storeFields, kept_background, kept_zeroSeg]

@[simp] theorem kept_applyResize (b : Nat) (z : Resize) (join : List Nat) (leave : List Nat) (detail : List Byte) (o' : Origin)
    (s : State) (hk : Kept s₀ s) :
    Kept s₀ (applyResize b z join leave detail o' s) := by
  unfold applyResize
  dsimp only
  (repeat' split) <;> grind [kept_stopWindows, kept_modBasin, kept_giveUp, kept_setOwner]

@[simp] theorem resizeBody_keeps (r' : Request) (s : State) : (resizeBody r' s).Keeps := by
  unfold resizeBody
  simp

@[simp] theorem cmdBasinResize_keeps : (cmdBasinResize).Keeps := by
  intro q s
  simp [cmdBasinResize]

@[simp] theorem kept_dropSaved (s : State) (b : Nat) (hk : Kept s₀ s) : Kept s₀ (dropSaved s b) := by
  simp [dropSaved, hk]

@[simp] theorem kept_destroyRevoked (s : State) (b : Nat) (hk : Kept s₀ s) : Kept s₀ (destroyRevoked s b) := by
  unfold destroyRevoked
  dsimp only
  grind [kept_foldl, Kept.refl, kept_fields, kept_storeFields, kept_sendRevocation, kept_setWindow]

@[simp] theorem kept_destroyBasin (b : Nat) (detail : List Byte) (o' : Origin) (s : State) (hk : Kept s₀ s) :
    Kept s₀ (destroyBasin b detail o' s) := by
  unfold destroyBasin
  grind [kept_foldl, Kept.refl, kept_fields, kept_storeFields, kept_basinReset, kept_cancelChannels,
      kept_destroyRevoked, kept_dropSaved, kept_stopWindows, kept_setGate, kept_giveUp, kept_setBasin]

@[simp] theorem destroyBody_keeps (r' : Request) (s : State) : (destroyBody r' s).Keeps := by
  unfold destroyBody
  simp

@[simp] theorem cmdBasinDestroy_keeps : (cmdBasinDestroy).Keeps := by
  intro q s
  simp [cmdBasinDestroy]

@[simp] theorem cmdBasinQuery_keeps : (cmdBasinQuery).Keeps := by
  simp [cmdBasinQuery]

@[simp] theorem modeBody_keeps (r : Request) (s' : State) : (modeBody r s').Keeps := by
  have refuse : ∀ st l, (Reply.mk st l none false false fun _ s => s).Keeps := fun _ _ _ s => Kept.refl s
  unfold modeBody
  refine Reply.keeps_ite (Reply.no_keeps _) (Reply.keeps_ite (Reply.no_keeps _) (Reply.keeps_ite (Reply.no_keeps _)
    (Reply.keeps_ite (refuse _ _) ?_)))
  split
  · exact refuse _ _
  · split
    · exact refuse _ _
    · exact Reply.keeps_ite (Reply.no_keeps _) (Reply.keeps_ite (refuse _ _) (Reply.keeps_of fun _ s => kept_modBasin _ _ _ (Kept.refl s)))

@[simp] theorem cmdBasinMode_keeps : (cmdBasinMode).Keeps := by
  intro q s
  simp [cmdBasinMode]

/-! ### Sys2Proof/Machine/CmdGate.lean -/

@[simp] theorem kept_initGate (r' : Request) (s0 : State) (hk : Kept s₀ s0) : Kept s₀ (initGate r' s0) := by
  unfold initGate
  have h1 := kept_touchGate s0 (r'.arg 16 1) none hk
  have h2 : ∀ kind k, Kept s₀ (if ((touchGate s0 (r'.arg 16 1) none).gate k).kind = kind then touchGate s0 (r'.arg 16 1) none
      else wake (touchGate s0 (r'.arg 16 1) none) k (fun _ => true) (fun w => failWord w.op.toNat gsWrongKind)) := by
    intro kind k
    split
    · exact h1
    · exact kept_wake _ _ _ _ h1
  dsimp only
  split
  · exact kept_wakeCounter _ _ (kept_touchGate _ _ _ (kept_setGate _ _ (h2 _ _)))
  · split
    · exact kept_touchGate _ _ _ (kept_setGate _ _ (h2 _ _))
    · exact kept_wake _ _ _ _ (kept_touchGate _ _ _ (kept_setGate _ _ (h2 _ _)))
  · exact kept_touchGate _ _ _ (kept_setGate _ _ (h2 _ _))

@[simp] theorem gateInitBody_keeps (r' : Request) (s : State) : (gateInitBody r' s).Keeps := by
  unfold gateInitBody
  simp

@[simp] theorem cmdGateInit_keeps : (cmdGateInit).Keeps := by
  intro q s
  simp [cmdGateInit]

@[simp] theorem cmdGateRead_keeps : (cmdGateRead).Keeps := by
  simp [cmdGateRead]

@[simp] theorem kept_cleanGate (k : Nat) (s : State) (hk : Kept s₀ s) : Kept s₀ (cleanGate k s) := by
  unfold cleanGate
  dsimp only
  grind [kept_grantNext, kept_setGate, kept_touchGate]

@[simp] theorem cmdGateClean_keeps : (cmdGateClean).Keeps := by
  unfold cmdGateClean
  simp
  intros
  (repeat' split) <;> simp

/-! ### Sys2Proof/Machine/CmdGeneral.lean -/

@[simp] theorem cmdNop_keeps : (cmdNop).Keeps := by
  simp [cmdNop]

@[simp] theorem cmdEcho_keeps : (cmdEcho).Keeps := by
  intro q s
  simp [cmdEcho]

@[simp] theorem cmdStatus_keeps : (cmdStatus).Keeps := by
  intro q s
  simp [cmdStatus]

@[simp] theorem cmdIdentRead_keeps : (cmdIdentRead).Keeps := by
  intro q s
  simp [cmdIdentRead]

@[simp] theorem cmdGradeMap_keeps : (cmdGradeMap).Keeps := by
  simp [cmdGradeMap]

@[simp] theorem cmdOptableRead_keeps : (cmdOptableRead).Keeps := by
  intro q s
  simp [cmdOptableRead]

@[simp] theorem cmdFuseSummary_keeps : (cmdFuseSummary).Keeps := by
  intro q s
  simp [cmdFuseSummary]

@[simp] theorem settingsGetBody_keeps (r' : Request) (s : State) : (settingsGetBody r' s).Keeps := by
  unfold settingsGetBody
  split <;> simp

@[simp] theorem cmdSettingsGet_keeps : (cmdSettingsGet).Keeps := by
  intro q s
  simp [cmdSettingsGet]

@[simp] theorem settingsSetBody_keeps (r' : Request) (s : State) : (settingsSetBody r' s).Keeps := by
  unfold settingsSetBody
  split <;> simp

@[simp] theorem cmdSettingsSet_keeps : (cmdSettingsSet).Keeps := by
  intro q s
  simp [cmdSettingsSet]

@[simp] theorem settingsCommitBody_keeps (r' : Request) (s : State) : (settingsCommitBody r' s).Keeps := by
  unfold settingsCommitBody
  simp

@[simp] theorem cmdSettingsCommit_keeps : (cmdSettingsCommit).Keeps := by
  intro q s
  simp [cmdSettingsCommit]

@[simp] theorem ledgerReadBody_keeps (r' : Request) (s : State) : (ledgerReadBody r' s).Keeps := by
  unfold ledgerReadBody
  simp

@[simp] theorem cmdLedgerRead_keeps : (cmdLedgerRead).Keeps := by
  intro q s
  simp [cmdLedgerRead]

@[simp] theorem cmdLedgerMark_keeps : (cmdLedgerMark).Keeps := by
  simp [cmdLedgerMark]

/-! ### Sys2Proof/Machine/CmdMem.lean -/

@[simp] theorem kept_wakeGroup (s : State) (j : WakeJob) (hk : Kept s₀ s) : Kept s₀ (wakeGroup s j) := by
  unfold wakeGroup
  dsimp only
  grind [kept_foldl, Kept.refl, kept_fields, kept_storeFields, kept_forget, kept_modSeg]

@[simp] theorem segPowerBody_keeps (r' : Request) (s : State) : (segPowerBody r' s).Keeps := by
  unfold segPowerBody
  simp

@[simp] theorem cmdSegPower_keeps : (cmdSegPower).Keeps := by
  intro q s
  simp [cmdSegPower]

theorem kept_execSegWakeGroup (s : State) (hk : Kept s₀ s) : ∀ t, execSegWakeGroup s = .next t → Kept s₀ t := by
  unfold execSegWakeGroup
  intro t e
  cases e
  (repeat' split) <;> grind [kept_foldl, Kept.refl, kept_fields, kept_storeFields, kept_wakeGroup, kept_finishLate, kept_modSeg]

@[simp] theorem segFillBody_keeps (r : Request) (s : State) : (segFillBody r s).Keeps := by
  unfold segFillBody
  refine Reply.keeps_ite (Reply.no_keeps _) (Reply.keeps_ite (Reply.no_keeps _) (Reply.keeps_of fun o t => kept_storeFields ?_ ..))
  exact kept_foldl _ (Kept.refl t) fun u k => kept_queueSegment _ _ _ (kept_forget _ _ (kept_modSeg _ _ _ (Kept.refl u)))

@[simp] theorem cmdSegFill_keeps : (cmdSegFill).Keeps := by
  intro q s
  simp [cmdSegFill]

theorem kept_execSegFillComplete (s : State) (hk : Kept s₀ s) : ∀ t, execSegFillComplete s = .next t → Kept s₀ t := by
  unfold execSegFillComplete
  intro t e
  cases e
  (repeat' split) <;> grind [kept_foldl, Kept.refl, kept_fields, kept_storeFields, kept_background, kept_modSeg]

@[simp] theorem openBody_keeps (r' : Request) (s : State) : (openBody r' s).Keeps := by
  unfold openBody
  simp

@[simp] theorem cmdWindowOpen_keeps : (cmdWindowOpen).Keeps := by
  intro q s
  simp [cmdWindowOpen]

@[simp] theorem closeBody_keeps (r' : Request) (s : State) : (closeBody r' s).Keeps := by
  unfold closeBody
  simp

@[simp] theorem cmdWindowClose_keeps : (cmdWindowClose).Keeps := by
  intro q s
  simp [cmdWindowClose]

theorem kept_execWindowCloseDrained (window : Fin 64) (s : State) (hk : Kept s₀ s) :
    ∀ t, execWindowCloseDrained window s = .next t → Kept s₀ t := by
  unfold execWindowCloseDrained
  intro t e
  cases e
  split <;> simp [hk]

@[simp] theorem cmdWindowList_keeps : (cmdWindowList).Keeps := by
  simp [cmdWindowList]

@[simp] theorem postBody_keeps (r' : Request) (s : State) : (postBody r' s).Keeps := by
  unfold postBody
  simp

@[simp] theorem cmdDmaPost_keeps : (cmdDmaPost).Keeps := by
  intro q s
  simp [cmdDmaPost]

/-! ### Sys2Proof/Machine/Lost.lean -/

@[simp] theorem kept_cutForward (s : State) (q' : Nat) (vc : Nat) (hk : Kept s₀ s) : Kept s₀ (cutForward s q' vc) := by
  unfold cutForward
  dsimp only
  grind [kept_foldl, Kept.refl, kept_fields, kept_storeFields, kept_modPort, kept_oweFor]

@[simp] theorem kept_cutIncoming (s : State) (q' : Nat) (vc : Nat) (hk : Kept s₀ s) : Kept s₀ (cutIncoming s q' vc) := by
  unfold cutIncoming
  dsimp only
  split <;> (try split) <;> simp [hk]

@[simp] theorem kept_cutTransit (s : State) (hk : Kept s₀ s) : Kept s₀ (cutTransit s).1 := by
  unfold cutTransit
  dsimp only
  grind [kept_foldl, Kept.refl, kept_fields, kept_storeFields, kept_modPort, kept_oweFor, kept_flush]

theorem kept_offerAgain (s : State) (o' : OutPacket) (hk : Kept s₀ s) : ∀ t, offerAgain s o' = some t → Kept s₀ t := by
  unfold offerAgain
  grind [Option.map_eq_some_iff, kept_place]

@[simp] theorem kept_offerAll {r : State} (s : State) (l : List OutPacket) (h : Kept r s) : Kept r (offerAll s l) := by
  unfold offerAll
  have h1 := kept_foldl_fst (s₀ := r) (f := (fun (t : State × List OutPacket) o =>
    match offerAgain t.1 o with
    | some s' => (s', t.2)
    | none => (tellUnreachable (oweFor t.1 o o.kept) o.pkt, t.2 ++ [o]))) l (s, []) h (fun t x => by
      split
      · exact kept_offerAgain _ _ (Kept.refl _) _ ‹_›
      · exact kept_tellUnreachable _ _ (kept_oweFor _ _ _ (Kept.refl _)))
  dsimp only at h1 ⊢
  split
  · exact h1
  · exact kept_discarded _ _ _ _ _ h1

@[simp] theorem kept_loseRead (s : State) (p : Packet) (hk : Kept s₀ s) : Kept s₀ (loseRead s p) := by
  unfold loseRead
  dsimp only
  split <;> simp [hk]

@[simp] theorem kept_forgetPartner (s : State) (q' : Nat) (hk : Kept s₀ s) : Kept s₀ (forgetPartner s q') := hk

@[simp] theorem kept_loseLink (s : State) (q : Nat) (st : Byte) (hk : Kept s₀ s) : Kept s₀ (loseLink s q st) := by
  unfold loseLink
  exact kept_flush _ (kept_offerAll _ _ (kept_foldl _
    (kept_event _ _ _ (kept_forgetPartner _ _ (kept_modPort _ _ _ (kept_foldl _ hk fun t x => kept_cutIncoming _ _ _ (Kept.refl t)))))
    fun t x => kept_loseRead _ _ (kept_oweFor _ _ _ (Kept.refl t))))

@[simp] theorem kept_portDown (s : State) (q' : Nat) (st : Byte) (hk : Kept s₀ s) : Kept s₀ (portDown s q' st) := by
  simp [portDown, hk]

/-! ### Sys2Proof/Machine/Head.lean -/

@[simp] theorem kept_stopPorts (s : State) (cause : Byte) (stop : Bool) (hk : Kept s₀ s) : Kept s₀ (stopPorts s cause stop) := by
  unfold stopPorts
  dsimp only
  (repeat' split) <;> grind [kept_foldl, Kept.refl, kept_fields, kept_storeFields, kept_modPort, kept_loseLink, kept_emit]

@[simp] theorem kept_stopLines (s : State) (cause : Byte) (item : Byte) (links : Bool) (drop : Bool) (hk : Kept s₀ s) :
    Kept s₀ (stopLines s cause item links drop) := by
  unfold stopLines
  dsimp only
  (repeat' split) <;> grind [kept_eventNow, kept_stopPorts, kept_abortSeizure, kept_emit]

@[simp] theorem kept_tripNow (s : State) (point : Byte) (hk : Kept s₀ s) : Kept s₀ (tripNow s point) := by
  unfold tripNow
  dsimp only
  (repeat' split) <;> grind [kept_foldl, Kept.refl, kept_fields, kept_storeFields, kept_stopLines, kept_modHead]

theorem kept_execVddAck (num : Byte) (mv : W16) (s : State) (hk : Kept s₀ s) : ∀ t, execVddAck num mv s = .next t → Kept s₀ t := by
  unfold execVddAck
  intro t e
  cases e
  (repeat' split) <;> grind [kept_modHead, kept_evalPoint]

theorem kept_execVddAckTimeout (s : State) (hk : Kept s₀ s) : ∀ t, execVddAckTimeout s = .next t → Kept s₀ t := by
  unfold execVddAckTimeout
  intro t e
  cases e
  split <;> simp [hk]

theorem kept_execCorePllLocked (s : State) (hk : Kept s₀ s) : ∀ t, execCorePllLocked s = .next t → Kept s₀ t := by
  unfold execCorePllLocked
  intro t e
  cases e
  split <;> simp [hk]

theorem kept_execOpLoop (demanded : Nat) (withheldN : Nat) (s : State) (hk : Kept s₀ s) :
    ∀ t, execOpLoop demanded withheldN s = .next t → Kept s₀ t := by
  unfold execOpLoop
  intro t e
  split at e <;> cases e <;> simp [hk]

theorem kept_execPaceWindow (executed : List Nat) (s : State) (hk : Kept s₀ s) :
    ∀ t, execPaceWindow executed s = .next t → Kept s₀ t := by
  unfold execPaceWindow
  intro t e
  cases e
  split <;> simp [hk]

theorem kept_execEstimatorPeriod (a : Activity) (s : State) (hk : Kept s₀ s) :
    ∀ t, execEstimatorPeriod a s = .next t → Kept s₀ t := by
  unfold execEstimatorPeriod
  intro t e
  split at e <;> cases e <;> simp [hk]

theorem kept_execDitherSlot (s : State) (hk : Kept s₀ s) : ∀ t, execDitherSlot s = .next t → Kept s₀ t := by
  unfold execDitherSlot
  intro t e
  split at e <;> cases e <;> simp [hk]

theorem kept_execRailReport (sample : W16) (core : W16) (sram : W16) (flume : W16) (link : W16) (s : State) (hk : Kept s₀ s) :
    ∀ t, execRailReport sample core sram flume link s = .next t → Kept s₀ t := by
  unfold execRailReport
  intro t e
  split at e <;> cases e <;> simp [hk]

theorem kept_execRailStaleTimeout (s : State) (hk : Kept s₀ s) : ∀ t, execRailStaleTimeout s = .next t → Kept s₀ t := by
  intro t e
  cases e
  simp [hk]

@[simp] theorem kept_passHints (s : State) (hk : Kept s₀ s) : Kept s₀ (passHints s) := hk

theorem kept_execRampShaperInterval (forecast : List Nat) (quiet : List Nat) (s : State) (hk : Kept s₀ s) :
    ∀ t, execRampShaperInterval forecast quiet s = .next t → Kept s₀ t := by
  unfold execRampShaperInterval
  intro t e
  split at e <;> cases e <;> simp [hk]

theorem kept_execDroopDetect (below : BitVec 16) (s : State) (hk : Kept s₀ s) :
    ∀ t, execDroopDetect below s = .next t → Kept s₀ t := by
  intro t e
  cases e
  simp [hk]

theorem kept_execDroopClear (s : State) (hk : Kept s₀ s) : ∀ t, execDroopClear s = .next t → Kept s₀ t := by
  intro t e
  cases e
  exact hk

theorem kept_execHeadgateStall (missed : W32) (s : State) (hk : Kept s₀ s) :
    ∀ t, execHeadgateStall missed s = .next t → Kept s₀ t := by
  unfold execHeadgateStall
  intro t e
  cases e
  (repeat' split) <;> grind [kept_modHead, kept_tripNow, kept_event]

theorem kept_execThermalConversion (temps : List Int) (s : State) (hk : Kept s₀ s) :
    ∀ t, execThermalConversion temps s = .next t → Kept s₀ t := by
  rintro _ ⟨⟩
  have h1 : ∀ (l : List (Nat × TempPoint × Bool)) b hd, Kept s₀ (l.foldl (fun t e => event t 0xE070 [byte e.1, BitVec.ofInt 8 e.2.1.temp, b]) (setHead s hd)) := fun l b hd =>
    kept_foldl _ (kept_setHead _ _ hk) fun t x => kept_event _ _ _ (Kept.refl t)
  refine kept_evalPoint _ ?_
  split
  · exact kept_tripNow _ _ (kept_setHead _ _ (h1 ..))
  · exact kept_setHead _ _ (h1 ..)

theorem kept_execTripComparatorSelfCheck (point : Fin 72) (s : State) (hk : Kept s₀ s) :
    ∀ t, execTripComparatorSelfCheck point s = .next t → Kept s₀ t := by
  intro t e
  cases e
  simp [hk]

theorem kept_execThermalTrip (point : Fin 72) (s : State) (hk : Kept s₀ s) :
    ∀ t, execThermalTrip point s = .next t → Kept s₀ t := by
  intro t e
  cases e
  simp [hk]

/-! ### Sys2Proof/Machine/CmdPower.lean -/

@[simp] theorem powerEntry_keeps (r : Request) (f : State → State) (hx : ∀ t, Kept t (f t)) : (powerEntry r f).Keeps :=
  fun _ s => kept_evalPoint _ (hx s)

@[simp] theorem capBody_keeps (r' : Request) (s : State) : (capBody r' s).Keeps := by
  unfold capBody
  simp

@[simp] theorem cmdPowerCap_keeps : (cmdPowerCap).Keeps := by
  intro q s
  simp [cmdPowerCap]

@[simp] theorem cmdPowerPriority_keeps : (cmdPowerPriority).Keeps := by
  simp [cmdPowerPriority]

@[simp] theorem preferBody_keeps (r' : Request) (s : State) : (preferBody r' s).Keeps := by
  unfold preferBody
  simp

@[simp] theorem cmdPowerOpPrefer_keeps : (cmdPowerOpPrefer).Keeps := by
  intro q s
  simp [cmdPowerOpPrefer]

@[simp] theorem paceBody_keeps (r' : Request) (s : State) : (paceBody r' s).Keeps := by
  unfold paceBody
  simp

@[simp] theorem cmdPowerPace_keeps : (cmdPowerPace).Keeps := by
  intro q s
  simp [cmdPowerPace]

@[simp] theorem cmdPowerRamp_keeps : (cmdPowerRamp).Keeps := by
  simp [cmdPowerRamp]

@[simp] theorem kept_setLimits (r' : Request) (s : State) (hk : Kept s₀ s) : Kept s₀ (setLimits r' s) := by
  unfold setLimits
  dsimp only
  (repeat' split) <;> grind [kept_modHead, kept_tripNow]

@[simp] theorem limitsBody_keeps (r' : Request) (s : State) : (limitsBody r' s).Keeps := by
  unfold limitsBody
  simp

@[simp] theorem cmdThermLimits_keeps : (cmdThermLimits).Keeps := by
  intro q s
  simp [cmdThermLimits]

@[simp] theorem throttleBody_keeps (r' : Request) (s : State) : (throttleBody r' s).Keeps := by
  unfold throttleBody
  simp

@[simp] theorem cmdThrottleRead_keeps : (cmdThrottleRead).Keeps := by
  intro q s
  simp [cmdThrottleRead]

@[simp] theorem energyBody_keeps (r' : Request) (s : State) : (energyBody r' s).Keeps := by
  unfold energyBody
  simp

@[simp] theorem cmdEnergyRead_keeps : (cmdEnergyRead).Keeps := by
  intro q s
  simp [cmdEnergyRead]

@[simp] theorem cmdEstimStatus_keeps : (cmdEstimStatus).Keeps := by
  intro q s
  simp [cmdEstimStatus]

@[simp] theorem cmdEstimDither_keeps : (cmdEstimDither).Keeps := by
  simp [cmdEstimDither]

/-! ### Sys2Proof/Machine/CmdProg.lean -/

@[simp] theorem kept_flushBuffers (s : State) (b : Nat) (hk : Kept s₀ s) : Kept s₀ (flushBuffers s b) := by
  simp [flushBuffers, hk]

@[simp] theorem loadBody_keeps (r' : Request) (s : State) : (loadBody r' s).Keeps := by
  unfold loadBody
  simp

@[simp] theorem cmdProgLoad_keeps : (cmdProgLoad).Keeps := by
  intro q s
  simp [cmdProgLoad]

@[simp] theorem kept_finishLoad (s : State) (b : Nat) (j : LoadJob) (hk : Kept s₀ s) : Kept s₀ (finishLoad s b j) := by
  unfold finishLoad
  dsimp only
  (repeat' split) <;> grind [kept_foldl, Kept.refl, kept_fields, kept_storeFields, kept_background, kept_detect,
      kept_flushBuffers, kept_modBasin]

theorem kept_execProgLoadComplete (basin : Fin 32) (s : State) (hk : Kept s₀ s) :
    ∀ t, execProgLoadComplete basin s = .next t → Kept s₀ t := by
  unfold execProgLoadComplete
  intro t e
  cases e
  split <;> simp [hk]

@[simp] theorem kept_startCores (b : Nat) (l : List Nat) (arg : W64) (all : Bool) (s : State) (hk : Kept s₀ s) :
    Kept s₀ (startCores b l arg all s) := by
  simp [startCores, hk]

@[simp] theorem startBody_keeps (r' : Request) (s : State) : (startBody r' s).Keeps := by
  unfold startBody
  simp

@[simp] theorem cmdProgStart_keeps : (cmdProgStart).Keeps := by
  intro q s
  simp [cmdProgStart]

@[simp] theorem stopBody_keeps (r : Request) (s' : State) : (stopBody r s').Keeps := by
  unfold stopBody
  exact Reply.keeps_ite (Reply.no_keeps _) (Reply.keeps_ite (Reply.no_keeps _) (Reply.keeps_ite
    (Reply.keeps_of fun _ s => kept_basinReset _ _ _ (Kept.refl s))
    (Reply.keeps_of fun _ s => kept_settleReads _ (kept_foldl _ (Kept.refl s) fun t n => kept_stopCore _ _ _ (Kept.refl t)))))

@[simp] theorem cmdProgStop_keeps : (cmdProgStop).Keeps := by
  intro q s
  simp [cmdProgStop]

@[simp] theorem cmdProgState_keeps : (cmdProgState).Keeps := by
  simp [cmdProgState]

@[simp] theorem kept_applyCoreReset (n : Nat) (s : State) (hk : Kept s₀ s) : Kept s₀ (applyCoreReset n s) := by
  unfold applyCoreReset
  dsimp only
  (repeat' split) <;> grind [kept_foldl, Kept.refl, kept_fields, kept_storeFields, kept_modBasin, kept_resetEvent,
      kept_resetCore]

@[simp] theorem coreResetBody_keeps (r' : Request) (s : State) : (coreResetBody r' s).Keeps := by
  unfold coreResetBody
  simp

@[simp] theorem cmdCoreReset_keeps : (cmdCoreReset).Keeps := by
  intro q s
  simp [cmdCoreReset]

@[simp] theorem kept_haltCore (action : Nat) (s : State) (n : Nat) (hk : Kept s₀ s) : Kept s₀ (haltCore action s n) := by
  simp [haltCore, hk]

@[simp] theorem haltBody_keeps (r : Request) (s' : State) : (haltBody r s').Keeps := by
  unfold haltBody
  exact Reply.keeps_ite (Reply.no_keeps _) (Reply.keeps_ite (Reply.no_keeps _) (Reply.keeps_of fun _ s =>
    kept_settleReads _ (kept_foldl _ (Kept.refl s) fun t n => kept_haltCore _ _ _ (Kept.refl t))))

@[simp] theorem cmdDebugHalt_keeps : (cmdDebugHalt).Keeps := by
  intro q s
  simp [cmdDebugHalt]

/-! ### Sys2Proof/Machine/Time.lean -/

@[simp] theorem kept_setTime (s : State) (t' : TimeState) (hk : Kept s₀ s) : Kept s₀ (setTime s t') := hk

@[simp] theorem kept_modTime (s : State) (f : TimeState → TimeState) (hk : Kept s₀ s) : Kept s₀ (modTime s f) := hk

@[simp] theorem kept_releaseEdges (s : State) (hk : Kept s₀ s) : Kept s₀ (releaseEdges s) := hk

@[simp] theorem kept_atTick (s : State) (hk : Kept s₀ s) : Kept s₀ (atTick s) := by
  unfold atTick
  dsimp only
  split <;> simp [hk]

@[simp] theorem kept_tick (s : State) (hk : Kept s₀ s) : Kept s₀ (tick s) := by
  simp [tick, hk]

theorem kept_execTurnEdge (s : State) (hk : Kept s₀ s) : ∀ t, execTurnEdge s = .next t → Kept s₀ t := by
  intro t e
  cases e
  simp [hk]

@[simp] theorem kept_loadCount (s : State) (d : Int) (hk : Kept s₀ s) : Kept s₀ (loadCount s d) := by
  unfold loadCount
  dsimp only
  (repeat' split) <;> grind [kept_foldl, Kept.refl, kept_fields, kept_storeFields, kept_releaseEdges, kept_modTime]

@[simp] theorem kept_requestTime (s : State) (hk : Kept s₀ s) : Kept s₀ (requestTime s) := by
  simp [requestTime, hk]

@[simp] theorem kept_followGm (s : State) (f : W16) (hk : Kept s₀ s) : Kept s₀ (followGm s f) := by
  simp [followGm, hk]

@[simp] theorem kept_refreshGm (s : State) (hk : Kept s₀ s) : Kept s₀ (refreshGm s) := by
  simp [refreshGm, hk]

@[simp] theorem kept_endNomination (s : State) (st : W16) (hk : Kept s₀ s) : Kept s₀ (endNomination s st) := by
  unfold endNomination
  split <;> simp [hk]

@[simp] theorem kept_adopt (s : State) (n : Nomination) (hk : Kept s₀ s) : Kept s₀ (adopt s n) := by
  unfold adopt
  dsimp only
  (repeat' split) <;> grind [kept_modTime, kept_endNomination, kept_event, kept_refreshGm]

theorem kept_execTimeNomination (n : Nomination) (s : State) (hk : Kept s₀ s) :
    ∀ t, execTimeNomination n s = .next t → Kept s₀ t := by
  intro t e
  cases e
  simp [hk]

theorem kept_execTimeMasterLocked (s : State) (hk : Kept s₀ s) : ∀ t, execTimeMasterLocked s = .next t → Kept s₀ t := by
  unfold execTimeMasterLocked
  intro t e
  cases e
  split <;> simp [hk]

theorem kept_execGrandmasterFallback (lowest : W16) (s : State) (hk : Kept s₀ s) :
    ∀ t, execGrandmasterFallback lowest s = .next t → Kept s₀ t := by
  intro t e
  cases e
  simp [hk]

theorem kept_execTimeExchangeTimer (s : State) (hk : Kept s₀ s) : ∀ t, execTimeExchangeTimer s = .next t → Kept s₀ t := by
  intro t e
  cases e
  simp [hk]

@[simp] theorem kept_learn (s : State) (m : TimeMsg) (hk : Kept s₀ s) : Kept s₀ (learn s m) := by
  simp [learn, hk]

@[simp] theorem kept_hear (s : State) (q' : Nat) (m : TimeMsg) (hk : Kept s₀ s) : Kept s₀ (hear s q' m) := by
  unfold hear
  dsimp only
  (repeat' split) <;> grind [kept_modTime, kept_learn, kept_refreshGm]

theorem kept_execTimeReq (port : Fin 20) (m : TimeMsg) (s : State) (hk : Kept s₀ s) :
    ∀ t, execTimeReq port m s = .next t → Kept s₀ t := by
  intro t e
  cases e
  simp [hk]

@[simp] theorem kept_discipline (s : State) (q' : Nat) (m : TimeMsg) (x' : Int) (hk : Kept s₀ s) : Kept s₀ (discipline s q' m x') := by
  simp [discipline, hk]

theorem kept_execTimeRsp (port : Fin 20) (m : TimeMsg) (t4 : W64) (s : State) (hk : Kept s₀ s) :
    ∀ t, execTimeRsp port m t4 s = .next t → Kept s₀ t := by
  intro t e
  cases e
  simp [hk]

theorem kept_execHoldoverExpiry (s : State) (hk : Kept s₀ s) : ∀ t, execHoldoverExpiry s = .next t → Kept s₀ t := by
  intro t e
  cases e
  simp [hk]

@[simp] theorem timeMasterBody_keeps (r : Request) (s : State) : (timeMasterBody r s).Keeps := by
  unfold timeMasterBody
  refine Reply.keeps_ite (Reply.no_keeps _) (Reply.keeps_ite (Reply.no_keeps _) (Reply.keeps_of fun o t => kept_emit _ ?_))
  have h1 : ∀ f, Kept t (modTime (endNomination t stConflict) f) := fun f => kept_modTime _ _ (kept_endNomination _ _ (Kept.refl t))
  exact Kept.ite (kept_adopt _ _ (h1 _)) (kept_endNomination _ _ (h1 _))

@[simp] theorem cmdTimeMaster_keeps : (cmdTimeMaster).Keeps := by
  intro q s
  simp [cmdTimeMaster]

@[simp] theorem cmdTimeStatus_keeps : (cmdTimeStatus).Keeps := by
  intro q s
  simp [cmdTimeStatus]

/-! ### Sys2Proof/Machine/Discover.lean -/

@[simp] theorem kept_modFabric (s : State) (f : Fabric → Fabric) (hk : Kept s₀ s) : Kept s₀ (modFabric s f) := hk

@[simp] theorem kept_takeFa (s : State) (f : W16) (hk : Kept s₀ s) : Kept s₀ (takeFa s f) := by
  simp [takeFa, hk]

@[simp] theorem addrSetBody_keeps (r' : Request) (s : State) : (addrSetBody r' s).Keeps := by
  unfold addrSetBody
  simp

@[simp] theorem cmdFabricAddrSet_keeps : (cmdFabricAddrSet).Keeps := by
  intro q s
  simp [cmdFabricAddrSet]

@[simp] theorem shapeSetBody_keeps (r' : Request) (s : State) : (shapeSetBody r' s).Keeps := by
  unfold shapeSetBody
  simp

@[simp] theorem cmdFabricShapeSet_keeps : (cmdFabricShapeSet).Keeps := by
  intro q s
  simp [cmdFabricShapeSet]

@[simp] theorem kept_sendDisc (s : State) (q' : Nat) (dst : W16) (content : List Byte) (hk : Kept s₀ s) :
    Kept s₀ (sendDisc s q' dst content) := by
  unfold sendDisc
  dsimp only
  grind [kept_bindTo, kept_flush, kept_emit]

@[simp] theorem kept_flood (s : State) (d : Disc) (except : Option Nat) (hk : Kept s₀ s) : Kept s₀ (flood s d except) := by
  simp [flood, hk]

@[simp] theorem kept_discEvent (s : State) (d : Disc) (outcome : Byte) (hk : Kept s₀ s) : Kept s₀ (discEvent s d outcome) := by
  simp [discEvent, hk]

@[simp] theorem kept_offerByRoutes (s : State) (hk : Kept s₀ s) : Kept s₀ (offerByRoutes s) := by
  unfold offerByRoutes
  dsimp only
  grind [kept_foldl, Kept.refl, kept_fields, kept_storeFields, kept_modPort, kept_oweFor,
      kept_discardTell, kept_flush]

@[simp] theorem kept_installRoutes (s : State) (k : Routes) (hk : Kept s₀ s) : Kept s₀ (installRoutes s k) := by
  unfold installRoutes
  grind [kept_foldl, Kept.refl, kept_fields, kept_storeFields, kept_modTime, kept_modFabric,
      kept_offerByRoutes, kept_refreshGm]

@[simp] theorem kept_applyDisc (s : State) (d : Disc) (sender : Option (W16 × Nat)) (hk : Kept s₀ s) :
    Kept s₀ (applyDisc s d sender).1 := by
  unfold applyDisc
  grind [kept_foldl, Kept.refl, kept_fields, kept_storeFields, kept_discEvent, kept_modFabric, kept_takeFa,
      kept_installRoutes]

@[simp] theorem kept_endDisc (s : State) (st : W16) (hk : Kept s₀ s) : Kept s₀ (endDisc s st) := by
  unfold endDisc
  dsimp only
  split <;> simp [hk]

@[simp] theorem kept_abandon (s : State) (hk : Kept s₀ s) : Kept s₀ (abandon s) := by
  unfold abandon
  split <;> simp [hk]

@[simp] theorem kept_serveDisc (s : State) (d : Disc) (parent : Option Nat) (hk : Kept s₀ s) : Kept s₀ (serveDisc s d parent) := hk

@[simp] theorem kept_floodBy (port : Nat) (sender : W16) (senderPort : Byte) (d : Disc) (s : State) (hk : Kept s₀ s) :
    Kept s₀ (floodBy port sender senderPort d s) := by
  unfold floodBy
  dsimp only
  (repeat' split) <;> grind [kept_applyDisc, kept_serveDisc, kept_abandon, kept_sendDisc, kept_flood]

theorem kept_execDiscoveryFlood (port : Fin 20) (sender : W16) (senderPort : Byte) (d : Disc) (s : State) (hk : Kept s₀ s) :
    ∀ t, execDiscoveryFlood port sender senderPort d s = .next t → Kept s₀ t := by
  intro t e
  cases e
  simp [hk]

@[simp] theorem kept_invalidate (s : State) (f : W16) (hk : Kept s₀ s) : Kept s₀ (invalidate s f) := hk

@[simp] theorem kept_withdraw (s : State) (d : Disc) (f : W16) (except : Option Nat) (hk : Kept s₀ s) :
    Kept s₀ (withdraw s d f except) := by
  unfold withdraw
  dsimp only
  (repeat' split) <;> grind [kept_foldl, Kept.refl, kept_fields, kept_storeFields, kept_discEvent, kept_modFabric,
      kept_sendDisc, kept_installRoutes, kept_invalidate]

@[simp] theorem kept_withdrawalBy (port : Nat) (d : Disc) (f : W16) (s : State) (hk : Kept s₀ s) :
    Kept s₀ (withdrawalBy port d f s) := by
  simp [withdrawalBy, hk]

theorem kept_execDiscoveryWithdrawal (port : Fin 20) (d : Disc) (fa : W16) (s : State) (hk : Kept s₀ s) :
    ∀ t, execDiscoveryWithdrawal port d fa s = .next t → Kept s₀ t := by
  intro t e
  cases e
  simp [hk]

@[simp] theorem kept_countReply (s : State) (d : Disc) (f : W16) (refused : Bool) (down : Nat) (die : W64) (hk : Kept s₀ s) :
    Kept s₀ (countReply s d f refused down die) := by
  simp [countReply, hk]

@[simp] theorem kept_replyBy (port : Nat) (d : Disc) (f : W16) (refused : Bool) (down : Byte) (die : W64) (s : State)
    (hk : Kept s₀ s) :
    Kept s₀ (replyBy port d f refused down die s) := by
  unfold replyBy
  dsimp only
  (repeat' split) <;> simp [hk]

theorem kept_execDiscoveryReply (port : Fin 20) (d : Disc) (fa : W16) (refused : Bool) (down : Byte) (dieId : W64) (s : State)
    (hk : Kept s₀ s) :
    ∀ t, execDiscoveryReply port d fa refused down dieId s = .next t → Kept s₀ t := by
  intro t e
  cases e
  simp [hk]

theorem kept_execDiscoveryQuietTimer (s : State) (hk : Kept s₀ s) : ∀ t, execDiscoveryQuietTimer s = .next t → Kept s₀ t := by
  intro t e
  cases e
  simp [hk]

theorem kept_execDiscoveryForget (s : State) (hk : Kept s₀ s) : ∀ t, execDiscoveryForget s = .next t → Kept s₀ t := by
  intro t e
  cases e
  exact hk

@[simp] theorem kept_originate (s : State) (d : Disc) (o' : Origin) (hk : Kept s₀ s) : Kept s₀ (originate s d o') := by
  unfold originate
  dsimp only
  (repeat' split) <;> grind [kept_applyDisc, kept_serveDisc, kept_modFabric, kept_abandon, kept_flood]

@[simp] theorem discoverBody_keeps (r' : Request) (s : State) : (discoverBody r' s).Keeps := by
  unfold discoverBody
  simp

@[simp] theorem cmdFabricDiscover_keeps : (cmdFabricDiscover).Keeps := by
  intro q s
  simp [cmdFabricDiscover]

@[simp] theorem kept_writeShadow (s : State) (t' : Nat) (first : Nat) (l : List Nat) (hk : Kept s₀ s) :
    Kept s₀ (writeShadow s t' first l) := hk

@[simp] theorem kept_activateRoutes (s : State) (hk : Kept s₀ s) : Kept s₀ (activateRoutes s) := by
  simp [activateRoutes, hk]

@[simp] theorem routeLoadBody_keeps (r' : Request) (s : State) : (routeLoadBody r' s).Keeps := by
  unfold routeLoadBody
  simp

@[simp] theorem cmdRouteLoad_keeps : (cmdRouteLoad).Keeps := by
  intro q s
  simp [cmdRouteLoad]

@[simp] theorem routeReadBody_keeps (r' : Request) (s : State) : (routeReadBody r' s).Keeps := by
  unfold routeReadBody
  simp

@[simp] theorem cmdRouteRead_keeps : (cmdRouteRead).Keeps := by
  intro q s
  simp [cmdRouteRead]

/-! ### Sys2Proof/Machine/RemoteGates.lean -/

@[simp] theorem kept_sendResult (s : State) (dst : W16) (tenant : W16) (tag : W32) (word : W64) (hk : Kept s₀ s) :
    Kept s₀ (sendResult s dst tenant tag word) := by
  simp [sendResult, hk]

@[simp] theorem kept_remoteOperate (src : W16) (tenant : W16) (op' : Byte) (gate : Byte) (sv : W64) (core : Byte) (life : W16)
    (session : W32) (tag : W32) (s : State) (hk : Kept s₀ s) :
    Kept s₀ (remoteOperate src tenant op' gate sv core life session tag s) := by
  unfold remoteOperate
  dsimp only
  split <;> (try split) <;> simp [hk]

theorem kept_execRemoteGateOperation (src : W16) (tenant : W16) (op : Byte) (gate : Byte) (sv : W64) (core : Byte) (life : W16)
    (session : W32) (tag : W32) (s : State) (hk : Kept s₀ s) :
    ∀ t, execRemoteGateOperation src tenant op gate sv core life session tag s = .next t → Kept s₀ t := by
  unfold execRemoteGateOperation
  intro t e
  rw [← Host.Outcome.next.inj e]
  exact kept_remoteOperate _ _ _ _ _ _ _ _ _ _ hk

theorem kept_execHoldProbeTimer (s : State) (hk : Kept s₀ s) : ∀ t, execHoldProbeTimer s = .next t → Kept s₀ t := by
  unfold execHoldProbeTimer
  intro t e
  cases e
  grind [kept_foldl, Kept.refl, kept_fields, kept_storeFields, kept_control]

@[simp] theorem kept_holdProbeBy (src : W16) (gate : Byte) (core : Byte) (life : W16) (session : W32) (s : State) (hk : Kept s₀ s) :
    Kept s₀ (holdProbeBy src gate core life session s) := by
  simp [holdProbeBy, hk]

theorem kept_execHoldProbe (src : W16) (gate : Byte) (core : Byte) (life : W16) (session : W32) (s : State) (hk : Kept s₀ s) :
    ∀ t, execHoldProbe src gate core life session s = .next t → Kept s₀ t := by
  intro t e
  cases e
  simp [hk]

@[simp] theorem kept_holdAnswerBy (src : W16) (gate : Byte) (isAlive : Bool) (s : State) (hk : Kept s₀ s) :
    Kept s₀ (holdAnswerBy src gate isAlive s) := by
  simp [holdAnswerBy, hk]

theorem kept_execHoldAnswer (src : W16) (gate : Byte) (isAlive : Bool) (s : State) (hk : Kept s₀ s) :
    ∀ t, execHoldAnswer src gate isAlive s = .next t → Kept s₀ t := by
  intro t e
  cases e
  simp [hk]

@[simp] theorem kept_waitProbeBy (src : W16) (tag : W32) (gate : Byte) (s : State) (hk : Kept s₀ s) :
    Kept s₀ (waitProbeBy src tag gate s) := by
  simp [waitProbeBy, hk]

theorem kept_execWaitProbe (src : W16) (tag : W32) (gate : Byte) (s : State) (hk : Kept s₀ s) :
    ∀ t, execWaitProbe src tag gate s = .next t → Kept s₀ t := by
  intro t e
  cases e
  simp [hk]

@[simp] theorem kept_withdrawBy (src : W16) (tag : W32) (gate : Byte) (s : State) (hk : Kept s₀ s) :
    Kept s₀ (withdrawBy src tag gate s) := hk

theorem kept_execWithdraw (src : W16) (tag : W32) (gate : Byte) (s : State) (hk : Kept s₀ s) :
    ∀ t, execWithdraw src tag gate s = .next t → Kept s₀ t := by
  intro t e
  cases e
  exact hk

@[simp] theorem kept_orphanByLimit (s : State) (g : Nat) (cause : Byte) (hk : Kept s₀ s) : Kept s₀ (orphanByLimit s g cause) := by
  unfold orphanByLimit
  split <;> simp [hk]

theorem kept_execLeaseExpiry (gate : Fin 128) (s : State) (hk : Kept s₀ s) : ∀ t, execLeaseExpiry gate s = .next t → Kept s₀ t := by
  intro t e
  cases e
  simp [hk]

theorem kept_execReachabilityLimit (gate : Fin 128) (s : State) (hk : Kept s₀ s) :
    ∀ t, execReachabilityLimit gate s = .next t → Kept s₀ t := by
  intro t e
  cases e
  simp [hk]

@[simp] theorem kept_modOp (s : State) (tag : W32) (f : GateOp → GateOp) (hk : Kept s₀ s) : Kept s₀ (modOp s tag f) := hk

@[simp] theorem kept_releaseLate (s : State) (l : LateOp) (word : W64) (hk : Kept s₀ s) : Kept s₀ (releaseLate s l word) := by
  unfold releaseLate
  dsimp only
  (repeat' split) <;> grind [kept_foldl, Kept.refl, kept_fields, kept_storeFields, kept_nextTag, kept_send]

@[simp] theorem kept_gateResultBy (src : W16) (tag : W32) (word : W64) (s : State) (hk : Kept s₀ s) :
    Kept s₀ (gateResultBy src tag word s) := by
  unfold gateResultBy
  (repeat' split) <;> grind [kept_foldl, Kept.refl, kept_fields, kept_storeFields, kept_releaseLate, kept_modOp]

theorem kept_execGateResult (src : W16) (tag : W32) (word : W64) (s : State) (hk : Kept s₀ s) :
    ∀ t, execGateResult src tag word s = .next t → Kept s₀ t := by
  intro t e
  cases e
  simp [hk]

theorem kept_execWaitProbeTimer (s : State) (hk : Kept s₀ s) : ∀ t, execWaitProbeTimer s = .next t → Kept s₀ t := by
  intro t e
  cases e
  simp [hk]

@[simp] theorem kept_failRemote (s : State) (tag : W32) (hk : Kept s₀ s) : Kept s₀ (failRemote s tag) := by
  unfold failRemote
  dsimp only
  split <;> simp [hk]

@[simp] theorem kept_waitAnswerBy (src : W16) (tag : W32) (waiting : Bool) (s : State) (hk : Kept s₀ s) :
    Kept s₀ (waitAnswerBy src tag waiting s) := by
  simp [waitAnswerBy, hk]

theorem kept_execWaitAnswer (src : W16) (tag : W32) (waiting : Bool) (s : State) (hk : Kept s₀ s) :
    ∀ t, execWaitAnswer src tag waiting s = .next t → Kept s₀ t := by
  intro t e
  cases e
  simp [hk]

theorem kept_execWaitSilenceTimeout (tag : W32) (s : State) (hk : Kept s₀ s) :
    ∀ t, execWaitSilenceTimeout tag s = .next t → Kept s₀ t := by
  intro t e
  cases e
  simp [hk]

@[simp] theorem kept_poolFullBy (src : W16) (tag : W32) (gate : Byte) (s : State) (hk : Kept s₀ s) :
    Kept s₀ (poolFullBy src tag gate s) := by
  simp [poolFullBy, hk]

theorem kept_execPoolFull (src : W16) (tag : W32) (gate : Byte) (s : State) (hk : Kept s₀ s) :
    ∀ t, execPoolFull src tag gate s = .next t → Kept s₀ t := by
  intro t e
  cases e
  simp [hk]

theorem kept_execPoolFullRetry (tag : W32) (s : State) (hk : Kept s₀ s) : ∀ t, execPoolFullRetry tag s = .next t → Kept s₀ t := by
  unfold execPoolFullRetry
  intro t e
  cases e
  split <;> simp [hk]

/-! ### Sys2Proof/Machine/Links.lean -/

@[simp] theorem kept_enter (s : State) (q' : Nat) (st : Byte) (hk : Kept s₀ s) : Kept s₀ (enter s q' st) := hk

@[simp] theorem kept_attempt (s : State) (q' : Nat) (hk : Kept s₀ s) : Kept s₀ (attempt s q') := hk

@[simp] theorem kept_linkReset (s : State) (q' : Nat) (cause : Nat) (hk : Kept s₀ s) : Kept s₀ (linkReset s q' cause) := by
  simp [linkReset, hk]

@[simp] theorem kept_sendIdentity (s : State) (q' : Nat) (hk : Kept s₀ s) : Kept s₀ (sendIdentity s q') := hk

theorem kept_execTrainingStepComplete (port : Fin 20) (lanesRepaired : W64) (s : State) (hk : Kept s₀ s) :
    ∀ t, execTrainingStepComplete port lanesRepaired s = .next t → Kept s₀ t := by
  intro t e
  cases e
  simp [hk]

@[simp] theorem kept_takeAck (s : State) (q' : Nat) (next : BitVec 10) (hk : Kept s₀ s) : Kept s₀ (takeAck s q' next) := by
  unfold takeAck
  grind [kept_foldl, Kept.refl, kept_fields, kept_storeFields, kept_modPort, kept_leaveBuffer]

@[simp] theorem kept_resendFrom (s : State) (q' : Nat) (seq : BitVec 10) (hk : Kept s₀ s) : Kept s₀ (resendFrom s q' seq) := by
  simp [resendFrom, hk]

@[simp] theorem kept_resumeLink (s : State) (q' : Nat) (i : Identity) (hk : Kept s₀ s) : Kept s₀ (resumeLink s q' i) := by
  unfold resumeLink
  dsimp only
  grind [kept_modPort, kept_takeAck, kept_resendFrom]

@[simp] theorem kept_newLink (s : State) (q' : Nat) (i : Identity) (hk : Kept s₀ s) : Kept s₀ (newLink s q' i) := by
  simp [newLink, hk]

theorem kept_execIdentityExchange (port : Fin 20) (i : Identity) (s : State) (hk : Kept s₀ s) :
    ∀ t, execIdentityExchange port i s = .next t → Kept s₀ t := by
  unfold execIdentityExchange
  intro t e
  cases e
  (repeat' split) <;> grind [kept_modPort, kept_enter, kept_portDown, kept_resumeLink, kept_newLink, kept_event, kept_flush]

theorem kept_execTrainingAttemptFail (port : Fin 20) (s : State) (hk : Kept s₀ s) :
    ∀ t, execTrainingAttemptFail port s = .next t → Kept s₀ t := by
  intro t e
  cases e
  simp [hk]

theorem kept_execPartnerTrainingDetected (port : Fin 20) (s : State) (hk : Kept s₀ s) :
    ∀ t, execPartnerTrainingDetected port s = .next t → Kept s₀ t := by
  intro t e
  cases e
  simp [hk]

theorem kept_execLinkSilence (port : Fin 20) (s : State) (hk : Kept s₀ s) : ∀ t, execLinkSilence port s = .next t → Kept s₀ t := by
  intro t e
  cases e
  simp [hk]

theorem kept_execLinkPhyError (port : Fin 20) (cause : PhyCause) (s : State) (hk : Kept s₀ s) :
    ∀ t, execLinkPhyError port cause s = .next t → Kept s₀ t := by
  intro t e
  cases e
  simp [hk]

@[simp] theorem kept_stopBy (q' : Nat) (cause : Byte) (s : State) (hk : Kept s₀ s) : Kept s₀ (stopBy q' cause s) := by
  simp [stopBy, hk]

theorem kept_execStopFrame (port : Fin 20) (cause : Byte) (s : State) (hk : Kept s₀ s) :
    ∀ t, execStopFrame port cause s = .next t → Kept s₀ t := by
  intro t e
  cases e
  simp [hk]

@[simp] theorem kept_sendReplay (s : State) (q' : Nat) (hk : Kept s₀ s) : Kept s₀ (sendReplay s q') := by
  unfold sendReplay
  dsimp only
  (repeat' split) <;> grind [kept_setPort, kept_linkReset, kept_emit]

@[simp] theorem kept_discardFrame (s : State) (q' : Nat) (counted : Bool) (hk : Kept s₀ s) : Kept s₀ (discardFrame s q' counted) := by
  simp [discardFrame, hk]

theorem kept_execReplay (port : Fin 20) (seq : BitVec 10) (s : State) (hk : Kept s₀ s) :
    ∀ t, execReplay port seq s = .next t → Kept s₀ t := by
  intro t e
  cases e
  simp [hk]

theorem kept_execReplayResendTimer (port : Fin 20) (s : State) (hk : Kept s₀ s) :
    ∀ t, execReplayResendTimer port s = .next t → Kept s₀ t := by
  intro t e
  cases e
  simp [hk]

@[simp] theorem kept_sendAck (s : State) (q' : Nat) (hk : Kept s₀ s) : Kept s₀ (sendAck s q') := hk

theorem kept_execAckTimer (port : Fin 20) (s : State) (hk : Kept s₀ s) : ∀ t, execAckTimer port s = .next t → Kept s₀ t := by
  intro t e
  cases e
  simp [hk]

theorem kept_forwardWhole (s : State) (o : OutPacket) (hk : Kept s₀ s) : ∀ t, forwardWhole s o = some t → Kept s₀ t := by
  intro t e
  unfold forwardWhole at e
  split at e
  · exact kept_place _ _ (kept_emit _ (kept_fields (kept_oweFor _ _ _ (kept_oweFor _ _ _ hk)) ..)) _ e
  · exact kept_place _ _ hk _ e

theorem kept_execCombineRecordTimeout (record : Nat) (s : State) (hk : Kept s₀ s) :
    ∀ t, execCombineRecordTimeout record s = .next t → Kept s₀ t := by
  unfold execCombineRecordTimeout
  intro t e
  cases e
  split <;> simp [hk]

theorem kept_after (s : State) (r' : Res) (hk : Kept s₀ s) (hx : ∀ t, r' = .next t → Kept s₀ t) : Kept s₀ (after s r') := by
  unfold after
  split
  · exact hx _ rfl
  · exact hk

@[simp] theorem kept_deliverControl (src : W16) (c : List Byte) (s : State) (hk : Kept s₀ s) :
    Kept s₀ (deliverControl src c s) := by
  unfold deliverControl
  (repeat' split) <;> grind [kept_foldl, Kept.refl, kept_fields, kept_storeFields, kept_holdProbeBy, kept_holdAnswerBy,
      kept_execCreditRelease, kept_poolFullBy, kept_execPacketDone, kept_withdrawBy, kept_after, kept_waitProbeBy,
      kept_waitAnswerBy, kept_execCreditGrant, kept_execCreditReq, kept_execFull]

@[simp] theorem kept_deliverDiscovery (q' : Nat) (sender : W16) (c : List Byte) (s : State) (hk : Kept s₀ s) :
    Kept s₀ (deliverDiscovery q' sender c s) := by
  unfold deliverDiscovery
  dsimp only
  split <;> simp [hk]

@[simp] theorem kept_deliverRequest (src : W16) (slot : List Byte) (s : State) (hk : Kept s₀ s) :
    Kept s₀ (deliverRequest src slot s) := by
  simp [deliverRequest, hk]

@[simp] theorem kept_deliverPacket (p : Packet) (s : State) (hk : Kept s₀ s) : Kept s₀ (deliverPacket p s) := by
  unfold deliverPacket
  (repeat' split) <;> grind [kept_foldl, Kept.refl, kept_fields, kept_storeFields, kept_execWritePacket, kept_execAddPacket,
      kept_execRevocation, kept_gateResultBy, kept_deliverRequest, kept_remoteOperate, kept_after, kept_execReadRequest,
      kept_execReadData, kept_deliverControl]

@[simp] theorem kept_servePacket (q' : Nat) (p : Packet) (s : State) (hk : Kept s₀ s) : Kept s₀ (servePacket q' p s) := by
  simp [servePacket, hk]

@[simp] theorem kept_arrive (q' : Nat) (k : Option Nat) (p : Packet) (s : State) (hk : Kept s₀ s) : Kept s₀ (arrive q' k p s) := by
  unfold arrive
  dsimp only
  (repeat' split) <;> grind [kept_modPort, kept_servePacket, kept_forwardWhole, kept_discardTell]

theorem kept_execPacketHeaderArrival (port : Fin 20) (p : Packet) (s : State) (hk : Kept s₀ s) :
    ∀ t, execPacketHeaderArrival port p s = .next t → Kept s₀ t := by
  intro t e
  cases e
  simp [hk]

theorem kept_execMailboxRequest (ep : Fin 6) (srcFa : W16) (slot : List Byte) (s : State) (hk : Kept s₀ s) :
    ∀ t, execMailboxRequest ep srcFa slot s = .next t → Kept s₀ t := by
  intro t e
  cases e
  simp [hk]

theorem kept_execMailboxResponse (srcFa : W16) (slot : List Byte) (s : State) (hk : Kept s₀ s) :
    ∀ t, execMailboxResponse srcFa slot s = .next t → Kept s₀ t := by
  intro t e
  cases e
  exact hk

@[simp] theorem kept_openHere (q' : Nat) (p : Packet) (s : State) (hk : Kept s₀ s) : Kept s₀ (openHere q' p s).1 := by
  unfold openHere
  dsimp only
  (repeat' split) <;> simp [hk]

@[simp] theorem kept_openPacket (q' : Nat) (vc : Nat) (k : Nat) (p : Packet) (s : State) (hk : Kept s₀ s) :
    Kept s₀ (openPacket q' vc k p s) := by
  unfold openPacket
  dsimp only
  (repeat' split) <;> grind [kept_modPort, kept_place, kept_discardTell, kept_openHere]

@[simp] theorem kept_forwardData (q : Nat) (vc : Nat) (k : Nat) (body : List Byte) (last : Bool) (s : State) (hk : Kept s₀ s) :
    Kept s₀ (forwardData q vc k body last s) := by
  unfold forwardData
  dsimp only
  split
  · exact kept_modPort _ _ _ hk
  · split
    · refine kept_getD (fun t e => kept_forwardWhole _ _ ?_ t e) ?_ <;> exact hk
    · refine kept_foldl _ ?_ (fun t x => kept_modPort _ _ _ (Kept.refl t))
      exact hk

@[simp] theorem kept_readGranule (h' : XferHdr) (n : Nat) (body : List Byte) (s : State) (hk : Kept s₀ s) :
    Kept s₀ (readGranule h' n body s).1 := by
  unfold readGranule
  (repeat' split) <;> grind [kept_foldl, Kept.refl, kept_fields, kept_storeFields, kept_write]

@[simp] theorem kept_endHere (x' : RxState) (s : State) (hk : Kept s₀ s) : Kept s₀ (endHere x' s) := by
  unfold endHere
  split <;> simp [hk]

@[simp] theorem kept_dataFrame (q' : Nat) (vc : Nat) (body : List Byte) (last : Bool) (s : State) (hk : Kept s₀ s) :
    Kept s₀ (dataFrame q' vc body last s) := by
  unfold dataFrame
  dsimp only
  (repeat' split) <;> grind [kept_modPort, kept_forwardData, kept_write, kept_endHere, kept_readGranule]

@[simp] theorem kept_takeFrame (s : State) (q' : Nat) (f : Frame) (hk : Kept s₀ s) : Kept s₀ (takeFrame s q' f) := by
  unfold takeFrame
  dsimp only
  (repeat' split) <;> grind [kept_modPort, kept_openPacket, kept_arrive, kept_sendAck, kept_dataFrame, kept_cutIncoming]

@[simp] theorem kept_controlFrame (s : State) (port : Fin 20) (b : List Byte) (hk : Kept s₀ s) :
    Kept s₀ (controlFrame s port b) := by
  unfold controlFrame
  (repeat' split) <;> grind [kept_foldl, Kept.refl, kept_fields, kept_storeFields, kept_modPort, kept_execTimeRsp,
      kept_execTimeReq, kept_after]

@[simp] theorem kept_countFixed (s : State) (q' : Nat) (n : Nat) (hk : Kept s₀ s) : Kept s₀ (countFixed s q' n) := by
  simp [countFixed, hk]

@[simp] theorem kept_takeHeader (s : State) (q' : Nat) (f : Frame) (hk : Kept s₀ s) : Kept s₀ (takeHeader s q' f) := by
  simp [takeHeader, hk]

@[simp] theorem kept_serveFrame (s : State) (port : Fin 20) (f : Frame) (hk : Kept s₀ s) : Kept s₀ (serveFrame s port f) := by
  simp [serveFrame, hk]

theorem kept_execFrameReceive (port : Fin 20) (raw : List Byte) (fec : Bool) (fixed : Nat) (s : State) (hk : Kept s₀ s) :
    ∀ t, execFrameReceive port raw fec fixed s = .next t → Kept s₀ t := by
  unfold execFrameReceive
  intro t e
  cases e
  (repeat' split) <;> grind [kept_discardFrame, kept_countFixed, kept_flush, kept_serveFrame]

@[simp] theorem linkStateBody_keeps (r' : Request) (s : State) : (linkStateBody r' s).Keeps := by
  unfold linkStateBody
  simp

@[simp] theorem cmdLinkState_keeps : (cmdLinkState).Keeps := by
  intro q s
  simp [cmdLinkState]

@[simp] theorem kept_endRetrain (s : State) (q' : Nat) (us : Nat) (hk : Kept s₀ s) : Kept s₀ (endRetrain s q' us) := by
  simp [endRetrain, hk]

@[simp] theorem kept_disablePort (s : State) (q' : Nat) (hk : Kept s₀ s) : Kept s₀ (disablePort s q') := by
  simp [disablePort, hk]

@[simp] theorem linkRetrainBody_keeps (r : Request) (s' : State) : (linkRetrainBody r s').Keeps := by
  have done : ({} : Reply).Keeps := fun _ s => Kept.refl s
  unfold linkRetrainBody
  refine Reply.keeps_ite (Reply.no_keeps _) (Reply.keeps_ite (Reply.no_keeps _) (Reply.keeps_ite done (Reply.keeps_of fun o t => ?_)))
  exact Kept.ite (kept_endRetrain _ _ _ (kept_modPort _ _ _ (kept_disablePort _ _ (Kept.refl t))))
    (kept_linkReset _ _ _ (kept_modPort _ _ _ (Kept.refl t)))

@[simp] theorem cmdLinkRetrain_keeps : (cmdLinkRetrain).Keeps := by
  intro q s
  simp [cmdLinkRetrain]

theorem kept_execLinkRetrainComplete (port : Fin 20) (us : W32) (s : State) (hk : Kept s₀ s) :
    ∀ t, execLinkRetrainComplete port us s = .next t → Kept s₀ t := by
  intro t e
  cases e
  simp [hk]

/-! ### Sys2Proof/Machine/Seize.lean -/

@[simp] theorem kept_restCore (s : State) (n : Nat) (hk : Kept s₀ s) : Kept s₀ (restCore s n) := by
  unfold restCore
  split <;> simp [hk]

@[simp] theorem kept_beginSeizure (z : Seizure) (s : State) (hk : Kept s₀ s) : Kept s₀ (beginSeizure z s) := by
  unfold beginSeizure
  dsimp only
  grind [kept_foldl, Kept.refl, kept_fields, kept_storeFields, kept_settleReads, kept_restCore,
      kept_modBasin]

@[simp] theorem seizeBody_keeps (r' : Request) (s : State) : (seizeBody r' s).Keeps := by
  unfold seizeBody
  simp

@[simp] theorem cmdBasinSeize_keeps : (cmdBasinSeize).Keeps := by
  intro q s
  simp [cmdBasinSeize]

theorem kept_advance (s : State) (phase : Nat) (f : Seizure → State → State) (hx : ∀ z t, Kept s₀ t → Kept s₀ (f z t))
    (hk : Kept s₀ s) :
    Kept s₀ (advance s phase f) := by
  unfold advance
  split
  · split
    · exact hx _ _ hk
    · exact hk
  · exact hk

theorem kept_execSeizureQuiesced (s : State) (hk : Kept s₀ s) : ∀ t, execSeizureQuiesced s = .next t → Kept s₀ t := by
  unfold execSeizureQuiesced
  intro t e
  cases e
  grind [kept_foldl, Kept.refl, kept_fields, kept_storeFields, kept_advance, kept_modCore,
      kept_suspendChannels]

theorem kept_execFlumeFenceDone (s : State) (hk : Kept s₀ s) : ∀ t, execFlumeFenceDone s = .next t → Kept s₀ t := by
  unfold execFlumeFenceDone
  intro t e
  cases e
  grind [kept_foldl, Kept.refl, kept_fields, kept_storeFields, kept_advance, kept_fencePackets]

theorem kept_execFabricFenceDone (s : State) (hk : Kept s₀ s) : ∀ t, execFabricFenceDone s = .next t → Kept s₀ t := by
  unfold execFabricFenceDone
  intro t e
  cases e
  grind [kept_foldl, Kept.refl, kept_fields, kept_storeFields, kept_advance]

@[simp] theorem kept_resendGates (s : State) (n : Nat) (hk : Kept s₀ s) : Kept s₀ (resendGates s n) := by
  simp [resendGates, hk]

@[simp] theorem kept_undoSeizure (z : Seizure) (s : State) (hk : Kept s₀ s) : Kept s₀ (undoSeizure z s) := by
  have h1 : Kept s₀ (({ s with seize := none } : State).modBasin z.basin (fun v => { v with saved := [], savedVoid := false, rerunMark := false })) := hk
  unfold undoSeizure
  have h2 := kept_resumeChannels _ z.basin id (kept_foldl (f := resendGates) (s.basin z.basin).rect.nodes (kept_foldl (f := fun t n =>
    if (s.basin z.basin).saved.any (fun e => e.pos == (s.basin z.basin).rect.position n && e.cond == .running) && (t.core n).run == .stopped then
      resumeCore t n false
    else t) (s.basin z.basin).rect.nodes h1 (fun t x => Kept.ite (kept_resumeCore _ _ _ (Kept.refl t)) (Kept.refl t)))
    (fun t x => kept_resendGates _ _ (Kept.refl t)))
  refine kept_settleReads _ (Kept.ite (kept_basinReset _ _ _ h2) ?_)
  split
  · exact kept_rerunStep _ _ _ h2
  · exact h2

@[simp] theorem kept_captureCore (b : Nat) (s : State) (n : Nat) (hk : Kept s₀ s) : Kept s₀ (captureCore b s n) := by
  unfold captureCore
  dsimp only
  (repeat' split) <;> grind [kept_modCore, kept_write, kept_modBasin]

@[simp] theorem kept_endLives (s : State) (l : List Nat) (hk : Kept s₀ s) : Kept s₀ (endLives s l).1 :=
  kept_foldl_fst _ _ hk (fun t _ => kept_endLife _ _ (Kept.refl t.1))

@[simp] theorem kept_enlarge (s : State) (z : Seizure) (k : Nat) (added : List Nat) (former : Rect) (hk : Kept s₀ s) :
    Kept s₀ (enlarge s z k added former) := by
  unfold enlarge
  dsimp only
  (repeat' split) <;> grind [kept_foldl, Kept.refl, kept_fields, kept_storeFields, kept_startCore, kept_modBasin,
      kept_setBasin]

@[simp] theorem kept_suspendGang (s : State) (b : Nat) (on : Bool) (hk : Kept s₀ s) : Kept s₀ (suspendGang s b on) := by
  simp [suspendGang, hk]

@[simp] theorem kept_commitSeizure (z : Seizure) (s : State) (hk : Kept s₀ s) : Kept s₀ (commitSeizure z s) := by
  have h1 := kept_stopWindows s z.basin (windowsOf s z.basin (· == .opened)) 1 hk
  have h2 := kept_foldl (f := captureCore z.basin) (s.basin z.basin).rect.nodes h1 (fun t x => kept_captureCore _ _ _ (Kept.refl t))
  have h3 := fun l => kept_endLives _ l h2
  have h4 := fun l b f o d => kept_lateEntry _ z.urgent o d (kept_modBasin _ b f (kept_suspendGang _ b true (h3 l)))
  unfold commitSeizure
  refine kept_finishLate _ _ _ _ (kept_fields ?_ ..)
  split
  · exact kept_enlarge _ _ _ _ _ (h4 ..)
  · exact h4 ..

theorem kept_execSeizureCommit (s : State) (hk : Kept s₀ s) : ∀ t, execSeizureCommit s = .next t → Kept s₀ t := by
  unfold execSeizureCommit
  intro t e
  cases e
  split <;> simp [hk]

@[simp] theorem kept_restoreCore (start : Bool) (v : Basin) (t' : Rect) (s : State) (e' : Saved) (hk : Kept s₀ s) :
    Kept s₀ (restoreCore start v t' s e') := by
  unfold restoreCore
  dsimp only
  (repeat' split) <;> grind [kept_setCore, kept_resendGates, kept_resumeCore]

@[simp] theorem kept_releaseBasin_dropOps (v : Basin) (s : State) (hk : Kept s₀ s) : Kept s₀ (releaseBasin.dropOps v s) := by
  simp [releaseBasin.dropOps, hk]

@[simp] theorem kept_releaseBasin (b' : Nat) (start : Bool) (t' : Rect) (void : Bool) (rerun : Bool) (s : State) (hk : Kept s₀ s) :
    Kept s₀ (releaseBasin b' start t' void rerun s) := by
  have hd : ∀ v t, Kept s₀ t → Kept s₀ (releaseBasin.dropOps v t) := fun v t ht =>
    kept_foldl _ ht fun u x => kept_withdrawOp _ _ _ (Kept.refl u)
  unfold releaseBasin
  refine kept_settleReads _ (kept_resumeChannels _ _ _ ?_)
  have h3 : ∀ (ws : List Nat) (w : State → Nat → Window) (rv : List W16) (rw : Nat) b f, Kept s₀ (suspendGang ((List.foldl (fun u fa => sendRevocation u fa 0 b rw)
      (List.foldl (fun u w' => State.setWindow u w' (w u w')) s ws) rv).modBasin b f) b false) := fun ws w rv rw b f =>
    kept_suspendGang _ _ _ (kept_modBasin _ _ _ (kept_foldl _ (kept_foldl _ hk fun t x => kept_setWindow _ _ (Kept.refl t))
      fun t x => kept_sendRevocation _ _ _ _ _ (Kept.refl t)))
  refine Kept.ite (kept_modBasin _ _ _ (hd _ _ (h3 _ (fun u w' => { u.window w' with state := .opened }) _ _ _ _))) (Kept.ite ?_ ?_)
  · split
    · exact kept_rerunStep _ _ _ (hd _ _ (h3 _ (fun u w' => { u.window w' with state := .opened }) _ _ _ _))
    · exact h3 _ (fun u w' => { u.window w' with state := .opened }) _ _ _ _
  · exact kept_foldl _ (h3 _ (fun u w' => { u.window w' with state := .opened }) _ _ _ _) fun t x => kept_restoreCore _ _ _ _ _ (Kept.refl t)

@[simp] theorem releaseBody_keeps (r' : Request) (s : State) : (releaseBody r' s).Keeps := by
  unfold releaseBody
  dsimp only
  (repeat' split) <;> simp

@[simp] theorem cmdBasinRelease_keeps : (cmdBasinRelease).Keeps := by
  intro q s
  simp [cmdBasinRelease]

theorem kept_execFlumeFault (node : Fin 64) (plane : BitVec 3) (s : State) (hk : Kept s₀ s) :
    ∀ t, execFlumeFault node plane s = .next t → Kept s₀ t := by
  unfold execFlumeFault
  intro t e
  cases e
  (repeat' split) <;> grind [kept_foldl, Kept.refl, kept_fields, kept_storeFields, kept_basinReset, kept_cutTransit,
      kept_abortSeizure, kept_event]

/-! ### Sys2Proof/Machine/Restart.lean -/

@[simp] theorem kept_warmState (s' : State) (cause : Byte) (pin : Bool) (hk : Kept s₀ s') : Kept s₀ (warmState s' cause pin) := by
  obtain ⟨h1, h2, -⟩ := kept_flushWaiting _ hk
  exact ⟨h1, h2, fun _ => Memory.forget_wf _ _ _ _ rfl⟩

@[simp] theorem kept_releaseAlerts (s : State) (hk : Kept s₀ s) : Kept s₀ (releaseAlerts s) := hk

@[simp] theorem kept_endStops (s : State) (hk : Kept s₀ s) : Kept s₀ (endStops s) := hk

@[simp] theorem kept_restPorts (s : State) (hk : Kept s₀ s) : Kept s₀ (restPorts s) := by
  simp [restPorts, hk]

@[simp] theorem kept_leaveTest (s : State) (q' : Nat) (hk : Kept s₀ s) : Kept s₀ (leaveTest s q') := by
  unfold leaveTest
  dsimp only
  grind [kept_modPort, kept_fresh, kept_resetEvent]

@[simp] theorem kept_endTests (s : State) (hk : Kept s₀ s) : Kept s₀ (endTests s) := by
  simp [endTests, hk]

@[simp] theorem kept_endBoundary (s : State) (hk : Kept s₀ s) : Kept s₀ (endBoundary s) := by
  simp [endBoundary, hk]

@[simp] theorem kept_enterStage0 (s : State) (hk : Kept s₀ s) : Kept s₀ (enterStage0 s) := by
  unfold enterStage0
  dsimp only
  (repeat' split) <;> grind [kept_foldl, Kept.refl, kept_fields, kept_storeFields, kept_resetEvent, kept_restPorts, kept_endStops]

@[simp] theorem kept_innerReset (s : State) (cause : Byte) (hk : Kept s₀ s) : Kept s₀ (innerReset s cause) := by
  unfold innerReset
  grind [kept_foldl, Kept.refl, kept_fields, kept_storeFields, kept_releaseAlerts, kept_warmState,
      kept_enterStage0]

@[simp] theorem kept_stageEvent (s : State) (code : Byte) (entry : Bool) (hk : Kept s₀ s) : Kept s₀ (stageEvent s code entry) := by
  simp [stageEvent, hk]

@[simp] theorem kept_dropImage (s : State) (hk : Kept s₀ s) : Kept s₀ (dropImage s) := hk

@[simp] theorem kept_enterRecovery (s : State) (cause : Nat) (hk : Kept s₀ s) : Kept s₀ (enterRecovery s cause) := by
  unfold enterRecovery
  dsimp only
  grind [kept_foldl, Kept.refl, kept_fields, kept_storeFields, kept_dropImage, kept_stageEvent, kept_endTests]

@[simp] theorem kept_belowFloor (s : State) (element : Nat) (hk : Kept s₀ s) : Kept s₀ (belowFloor s element) := by
  unfold belowFloor
  refine kept_stageEvent _ _ _ (kept_foldl _ (kept_dropImage _ (kept_endBoundary _ (kept_endTests _ ?_))) fun t x => kept_portDown _ _ _ (Kept.refl t))
  exact hk

/-! ### Sys2Proof/Machine/Firmware.lean -/

@[simp] theorem kept_setFw (s : State) (f : Firmware) (hk : Kept s₀ s) : Kept s₀ (setFw s f) := hk

@[simp] theorem kept_setDelivery (s : State) (d : Option Delivery) (hk : Kept s₀ s) : Kept s₀ (setDelivery s d) := hk

@[simp] theorem kept_checkBlock (s : State) (d : Delivery) (b : Nat) (hk : Kept s₀ s) : Kept s₀ (checkBlock s d b) := by
  unfold checkBlock
  dsimp only
  split <;> simp [hk]

@[simp] theorem kept_takeFragment (s : State) (d : Delivery) (b : Nat) (f : Nat) (data : List Byte) (hk : Kept s₀ s) :
    Kept s₀ (takeFragment s d b f data) := by
  simp [takeFragment, hk]

@[simp] theorem kept_takeChecks (s : State) (d : Delivery) (first : Nat) (vs : List W32) (hk : Kept s₀ s) :
    Kept s₀ (takeChecks s d first vs) := by
  unfold takeChecks
  dsimp only
  grind [kept_foldl, Kept.refl, kept_fields, kept_storeFields, kept_checkBlock, kept_setDelivery]

@[simp] theorem kept_discardDelivery (s : State) (hk : Kept s₀ s) : Kept s₀ (discardDelivery s) := by
  unfold discardDelivery
  dsimp only
  split <;> (try split) <;> simp [hk]

@[simp] theorem beginBody_keeps (r' : Request) (s : State) : (beginBody r' s).Keeps := by
  unfold beginBody
  split <;> simp

@[simp] theorem cmdFwBegin_keeps : (cmdFwBegin).Keeps := by
  intro q s
  simp [cmdFwBegin]

@[simp] theorem blockBody_keeps (r' : Request) (s : State) : (blockBody r' s).Keeps := by
  unfold blockBody
  split <;> simp

@[simp] theorem cmdFwBlock_keeps : (cmdFwBlock).Keeps := by
  intro q s
  simp [cmdFwBlock]

@[simp] theorem verifyBody_keeps (r' : Request) (s : State) : (verifyBody r' s).Keeps := by
  unfold verifyBody
  (repeat' split) <;> simp

@[simp] theorem cmdFwVerify_keeps : (cmdFwVerify).Keeps := by
  intro q s
  simp [cmdFwVerify]

@[simp] theorem kept_kickWatchdog (s : State) (hk : Kept s₀ s) : Kept s₀ (kickWatchdog s) := hk

@[simp] theorem kept_startImage (s : State) (i : ImageInfo) (hk : Kept s₀ s) : Kept s₀ (startImage s i) := by
  unfold startImage
  dsimp only
  grind [kept_selectSettings, kept_kickWatchdog, kept_setFw]

theorem kept_execFwVerifyComplete (s : State) (hk : Kept s₀ s) : ∀ t, execFwVerifyComplete s = .next t → Kept s₀ t := by
  unfold execFwVerifyComplete
  intro t e
  cases e
  (repeat' split) <;> grind [kept_background, kept_startImage, kept_enterRecovery, kept_setDelivery]

@[simp] theorem kept_enterStage2 (s : State) (hk : Kept s₀ s) : Kept s₀ (enterStage2 s) := by
  unfold enterStage2
  dsimp only
  grind [kept_foldl, Kept.refl, kept_fields, kept_storeFields, kept_attempt, kept_applySettings,
      kept_endBoundary, kept_endTests]

@[simp] theorem kept_imageEntry (s : State) (cmd : W16) (detail : List Byte) (hk : Kept s₀ s) :
    Kept s₀ (imageEntry s cmd detail) := by
  simp [imageEntry, hk]

@[simp] theorem kept_confirmBoot (s : State) (hk : Kept s₀ s) : Kept s₀ (confirmBoot s) := by
  unfold confirmBoot
  split
  · have h1 : ∀ f c d, Kept s₀ (imageEntry (discardBanks (setFw { s with aon := { s.aon with failed := 0 } } f)) c d) := fun f c d =>
      kept_imageEntry _ _ _ (kept_discardBanks _ (kept_setFw _ _ hk))
    refine kept_enterStage2 _ ?_
    split
    · exact kept_stageEvent _ _ _ (h1 ..)
    · exact h1 ..
  · exact hk

theorem kept_execBootConfirmTimeout (s : State) (hk : Kept s₀ s) : ∀ t, execBootConfirmTimeout s = .next t → Kept s₀ t := by
  unfold execBootConfirmTimeout
  intro t e
  cases e
  (repeat' split) <;> grind [kept_foldl, Kept.refl, kept_fields, kept_storeFields, kept_dropImage, kept_enterRecovery]

@[simp] theorem kept_setHand (s : State) (h' : Option Handover) (hk : Kept s₀ s) : Kept s₀ (setHand s h') := hk

@[simp] theorem handoverBody_keeps (r' : Request) (s : State) : (handoverBody r' s).Keeps := by
  unfold handoverBody
  (repeat' split) <;> simp

@[simp] theorem cmdFwHandover_keeps : (cmdFwHandover).Keeps := by
  intro q s
  simp [cmdFwHandover]

@[simp] theorem kept_dropNormal (s : State) (st : W16) (hk : Kept s₀ s) : Kept s₀ (dropNormal s st) := by
  unfold dropNormal
  dsimp only
  (repeat' split) <;> simp [hk]

theorem kept_execHandoverPauseBegin (s : State) (hk : Kept s₀ s) : ∀ t, execHandoverPauseBegin s = .next t → Kept s₀ t := by
  unfold execHandoverPauseBegin
  intro t e
  cases e
  split <;> simp [hk]

@[simp] theorem kept_exchange (s : State) (h' : Handover) (hk : Kept s₀ s) : Kept s₀ (exchange s h') := hk

@[simp] theorem kept_retireTranslated (s : State) (h' : Handover) (hk : Kept s₀ s) : Kept s₀ (retireTranslated s h') := by
  simp [retireTranslated, hk]

@[simp] theorem kept_endHandover (s : State) (h' : Handover) (outcome : Byte) (source : Byte) (hk : Kept s₀ s) :
    Kept s₀ (endHandover s h' outcome source) := by
  simp [endHandover, hk]

theorem kept_execExchangeComplete (s : State) (hk : Kept s₀ s) : ∀ t, execExchangeComplete s = .next t → Kept s₀ t := by
  intro t e
  cases e
  split
  · rename_i hd _
    have h1 : Kept s₀ (setSettings (exchange s hd) { (exchange s hd).settings with pending := [] }) :=
      kept_setSettings _ _ (kept_exchange _ _ hk)
    dsimp only
    split
    · exact kept_resumeReruns _ (kept_setHand _ _ (kept_kickWatchdog _ (kept_selectSettings _ (kept_setFw _ _ h1))))
    · split
      · exact kept_endHandover _ _ _ _ (kept_resumeReruns _ (kept_setHand _ _ (kept_selectSettings _ (kept_setFw _ _
          (kept_kickWatchdog _ (kept_retireTranslated _ _ h1))))))
      · exact hk
  · exact hk

theorem kept_execStartChecksPass (s : State) (hk : Kept s₀ s) : ∀ t, execStartChecksPass s = .next t → Kept s₀ t := by
  unfold execStartChecksPass
  intro t e
  cases e
  split <;> simp [hk]

@[simp] theorem kept_confirmHandover (s : State) (h' : Handover) (hk : Kept s₀ s) : Kept s₀ (confirmHandover s h') := by
  unfold confirmHandover
  dsimp only
  grind [kept_foldl, Kept.refl, kept_fields, kept_storeFields, kept_discardBanks, kept_endHandover]

theorem kept_execSelfConfirm (s : State) (hk : Kept s₀ s) : ∀ t, execSelfConfirm s = .next t → Kept s₀ t := by
  unfold execSelfConfirm
  intro t e
  cases e
  split <;> simp [hk]

@[simp] theorem kept_fallBack (s : State) (h' : Handover) (outcome : Byte) (source : Byte) (counts : Bool) (hk : Kept s₀ s) :
    Kept s₀ (fallBack s h' outcome source counts) := by
  simp [fallBack, hk]

theorem kept_execConfirmWindowEnd (s : State) (hk : Kept s₀ s) : ∀ t, execConfirmWindowEnd s = .next t → Kept s₀ t := by
  unfold execConfirmWindowEnd
  intro t e
  cases e
  split <;> simp [hk]

@[simp] theorem confirmBody_keeps (r' : Request) (s : State) : (confirmBody r' s).Keeps := by
  unfold confirmBody
  split <;> simp

@[simp] theorem cmdFwConfirm_keeps : (cmdFwConfirm).Keeps := by
  intro q s
  simp [cmdFwConfirm]

theorem kept_execFwConfirm (byImage : Bool) (r' : Request) (s : State) (hk : Kept s₀ s) :
    ∀ t, execFwConfirm byImage r' s = .next t → Kept s₀ t := by
  intro t e
  cases e
  simp [hk]

@[simp] theorem abortBody_keeps (r' : Request) (s : State) : (abortBody r' s).Keeps := by
  unfold abortBody
  (repeat' split) <;> simp

@[simp] theorem cmdFwAbort_keeps : (cmdFwAbort).Keeps := by
  intro q s
  simp [cmdFwAbort]

theorem kept_execFwAbort (byImage : Bool) (r' : Request) (s : State) (hk : Kept s₀ s) :
    ∀ t, execFwAbort byImage r' s = .next t → Kept s₀ t := by
  unfold execFwAbort
  intro t e
  cases e
  (repeat' split) <;> simp [*]

@[simp] theorem cmdFwStatus_keeps : (cmdFwStatus).Keeps := by
  intro q s
  simp [cmdFwStatus]

/-! ### Sys2Proof/Machine/Gangs.lean -/

@[simp] theorem kept_onGang (s : State) (master : W16) (num : Byte) (p : GangPhase → Bool) (f : State → Gang → State)
    (hx : ∀ t g, Kept t (f t g)) (hk : Kept s₀ s) :
    Kept s₀ (onGang s master num p f) :=
  kept_foldl _ hk hx

@[simp] theorem kept_addGang (s : State) (g : Gang) (hk : Kept s₀ s) : Kept s₀ (addGang s g) := hk

@[simp] theorem kept_dropGang (s : State) (g : Gang) (hk : Kept s₀ s) : Kept s₀ (dropGang s g) := hk

@[simp] theorem kept_tellMember (g : Gang) (m : GangMsg) (s : State) (e' : Nat × GangMember) (hk : Kept s₀ s) :
    Kept s₀ (tellMember g m s e') := hk

@[simp] theorem kept_tellAll (s : State) (g : Gang) (m : GangMsg) (hk : Kept s₀ s) : Kept s₀ (tellAll s g m) := by
  simp [tellAll, hk]

@[simp] theorem kept_tellMaster (s : State) (g : Gang) (m : GangMsg) (hk : Kept s₀ s) : Kept s₀ (tellMaster s g m) := hk

@[simp] theorem kept_memberEntry (s : State) (g : Gang) (cmd : W16) (detail : List Byte) (hk : Kept s₀ s) :
    Kept s₀ (memberEntry s g cmd detail) := by
  simp [memberEntry, hk]

@[simp] theorem formBody_keeps (r' : Request) (s : State) : (formBody r' s).Keeps := by
  unfold formBody
  simp

@[simp] theorem cmdGangForm_keeps : (cmdGangForm).Keeps := by
  intro q s
  simp [cmdGangForm]

@[simp] theorem kept_endGangCommand (s : State) (g : Gang) (st : W16) (detail : List Byte) (hk : Kept s₀ s) :
    Kept s₀ (endGangCommand s g st detail) := by
  unfold endGangCommand
  split <;> simp [hk]

@[simp] theorem kept_abortGang (s : State) (g : Gang) (st : W16) (failing : Nat) (hk : Kept s₀ s) :
    Kept s₀ (abortGang s g st failing) := by
  unfold abortGang
  grind [kept_foldl, Kept.refl, kept_fields, kept_storeFields, kept_endGangCommand, kept_tellAll, kept_dropGang]

@[simp] theorem kept_leaveGang (s : State) (g : Gang) (o' : Option Origin) (hk : Kept s₀ s) : Kept s₀ (leaveGang s g o') := by
  simp [leaveGang, hk]

theorem kept_execGangJoin (master : W16) (gang : Byte) (kind : Byte) (tenant : W16) (basin : Fin 32) (width : Byte)
    (height : Byte) (mode : Byte) (s : State) (hk : Kept s₀ s) :
    ∀ t, execGangJoin master gang kind tenant basin width height mode s = .next t → Kept s₀ t := by
  intro t e
  cases e
  simp [hk]

theorem kept_execGangJoinReply (gang : Byte) (member : Byte) (accept : Bool) (s : State) (hk : Kept s₀ s) :
    ∀ t, execGangJoinReply gang member accept s = .next t → Kept s₀ t := by
  unfold execGangJoinReply
  intro t e
  cases e
  split <;> simp [hk]

theorem kept_execGangCommit (master : W16) (gang : Byte) (s : State) (hk : Kept s₀ s) :
    ∀ t, execGangCommit master gang s = .next t → Kept s₀ t := by
  unfold execGangCommit
  intro t e
  cases e
  grind [kept_foldl, Kept.refl, kept_fields, kept_storeFields, kept_onGang, kept_setGang, kept_tellMaster,
      kept_memberEntry]

@[simp] theorem kept_dropTentative (s : State) (master : W16) (gang : Byte) (hk : Kept s₀ s) :
    Kept s₀ (dropTentative s master gang) := by
  simp [dropTentative, hk]

theorem kept_execGangAbort (master : W16) (gang : Byte) (s : State) (hk : Kept s₀ s) :
    ∀ t, execGangAbort master gang s = .next t → Kept s₀ t := by
  intro t e
  cases e
  simp [hk]

theorem kept_execGangTentativeExpiry (master : W16) (gang : Byte) (s : State) (hk : Kept s₀ s) :
    ∀ t, execGangTentativeExpiry master gang s = .next t → Kept s₀ t := by
  intro t e
  cases e
  simp [hk]

theorem kept_execGangCommitAck (gang : Byte) (member : Byte) (s : State) (hk : Kept s₀ s) :
    ∀ t, execGangCommitAck gang member s = .next t → Kept s₀ t := by
  unfold execGangCommitAck
  intro t e
  cases e
  split <;> simp [hk]

theorem kept_execGangReplyDeadline (gang : Byte) (s : State) (hk : Kept s₀ s) :
    ∀ t, execGangReplyDeadline gang s = .next t → Kept s₀ t := by
  unfold execGangReplyDeadline
  intro t e
  cases e
  split <;> simp [hk]

@[simp] theorem kept_loseBarriers (s : State) (b : Nat) (hk : Kept s₀ s) : Kept s₀ (loseBarriers s b).1 :=
  kept_foldl_fst _ _ hk (fun t _ => kept_wake _ _ _ _ (kept_setGate _ _ (Kept.refl t.1)))

@[simp] theorem dissolveBody_keeps (r : Request) (s : State) : (dissolveBody r s).Keeps := by
  unfold dissolveBody
  refine Reply.keeps_ite (Reply.no_keeps _) ?_
  split
  · exact Reply.no_keeps _
  · refine Reply.keeps_ite (Reply.keeps_ite (Reply.no_keeps _) (Reply.keeps_of fun o t => kept_leaveGang _ _ _ ?_)) (Reply.keeps_ite (Reply.no_keeps _) (Reply.keeps_of fun o t =>
      kept_background _ _ _ _ (kept_onGang _ _ _ _ _ (fun t g => kept_dropGang _ _ (Kept.refl t)) (Kept.refl t))))
    exact Kept.ite (kept_loseBarriers _ _ (Kept.refl t)) (Kept.refl t)

@[simp] theorem cmdGangDissolve_keeps : (cmdGangDissolve).Keeps := by
  intro q s
  simp [cmdGangDissolve]

theorem kept_execGangLeave (master : W16) (gang : Byte) (s : State) (hk : Kept s₀ s) :
    ∀ t, execGangLeave master gang s = .next t → Kept s₀ t := by
  unfold execGangLeave
  intro t e
  cases e
  grind [kept_foldl, Kept.refl, kept_fields, kept_storeFields, kept_dropGang, kept_tellMaster, kept_memberEntry]

@[simp] theorem kept_endLeave (s : State) (g : Gang) (missed : Nat) (hk : Kept s₀ s) : Kept s₀ (endLeave s g missed) := by
  simp [endLeave, hk]

theorem kept_execGangLeaveAck (gang : Byte) (member : Byte) (s : State) (hk : Kept s₀ s) :
    ∀ t, execGangLeaveAck gang member s = .next t → Kept s₀ t := by
  unfold execGangLeaveAck
  intro t e
  cases e
  split <;> simp [hk]

theorem kept_execGangLeaveDeadline (gang : Byte) (s : State) (hk : Kept s₀ s) :
    ∀ t, execGangLeaveDeadline gang s = .next t → Kept s₀ t := by
  unfold execGangLeaveDeadline
  intro t e
  cases e
  split <;> simp [hk]

theorem kept_execGangBarrierRelease (master : W16) (gate : Fin 128) (edge : W64) (s : State) (hk : Kept s₀ s) :
    ∀ t, execGangBarrierRelease master gate edge s = .next t → Kept s₀ t := by
  unfold execGangBarrierRelease
  intro t e
  cases e
  grind [kept_foldl, Kept.refl, kept_fields, kept_storeFields, kept_deliverHere]

theorem kept_execGangBeat (master : W16) (gang : Byte) (answer : Option Byte) (s : State) (hk : Kept s₀ s) :
    ∀ t, execGangBeat master gang answer s = .next t → Kept s₀ t := by
  unfold execGangBeat
  intro t e
  cases e
  (repeat' split) <;> grind [kept_foldl, Kept.refl, kept_fields, kept_storeFields, kept_tellAll, kept_onGang, kept_setGang,
      kept_tellMaster]

@[simp] theorem kept_haltGang (s : State) (g : Gang) (side : Byte) (lost : W16) (hk : Kept s₀ s) :
    Kept s₀ (haltGang s g side lost) := by
  unfold haltGang
  refine kept_event _ _ _ (kept_setGang _ _ _ ?_)
  have h1 : ∀ l f b k l', Kept s₀ (settleReads (List.foldl (fun t n => stopCore t n .stopped)
      ((List.foldl (fun t n => State.modCore t n f) s l).modBasin b k) l')) := fun l f b k l' =>
    kept_settleReads _ (kept_foldl _ (kept_modBasin _ _ _ (kept_foldl _ hk fun t x => kept_modCore _ _ _ (Kept.refl t)))
      fun t x => kept_stopCore _ _ _ (Kept.refl t))
  have h2 : ∀ l f b k l' p, Kept s₀ (orphanAll (settleReads (List.foldl (fun t n => stopCore t n .stopped)
      ((List.foldl (fun t n => State.modCore t n f) s l).modBasin b k) l')) p).1 := fun l f b k l' p => kept_orphanAll _ _ (h1 ..)
  by_cases hl : lost = 0xFFFF
  · simp only [hl, if_true]
    split
    · exact kept_loseBarriers _ _ (h1 ..)
    · exact h1 ..
  · simp only [hl, if_false]
    split
    · exact kept_loseBarriers _ _ (kept_foldl _ (h2 ..) fun t x => kept_setGate _ _ (Kept.refl t))
    · exact kept_foldl _ (h2 ..) fun t x => kept_setGate _ _ (Kept.refl t)

theorem kept_execGangLost (master : W16) (gang : Byte) (lost : W16) (s : State) (hk : Kept s₀ s) :
    ∀ t, execGangLost master gang lost s = .next t → Kept s₀ t := by
  unfold execGangLost
  intro t e
  cases e
  (repeat' split) <;> grind [kept_foldl, Kept.refl, kept_fields, kept_storeFields, kept_tellMember, kept_onGang, kept_haltGang]

theorem kept_execGangHalt (master : W16) (gang : Byte) (lost : W16) (s : State) (hk : Kept s₀ s) :
    ∀ t, execGangHalt master gang lost s = .next t → Kept s₀ t := by
  intro t e
  cases e
  simp [hk]

/-! ### Sys2Proof/Machine/Leat.lean -/

@[simp] theorem kept_setLeat (s : State) (l : Leat) (hk : Kept s₀ s) : Kept s₀ (setLeat s l) := hk

@[simp] theorem kept_modLeat (s : State) (f : Leat → Leat) (hk : Kept s₀ s) : Kept s₀ (modLeat s f) := hk

@[simp] theorem kept_makeRecord (s : State) (seq : W32) (held : Bool) (reach : Byte) (hk : Kept s₀ s) :
    Kept s₀ (makeRecord s seq held reach).2 := hk

@[simp] theorem kept_sendTrain (s : State) (t' : TrainFrame) (hk : Kept s₀ s) : Kept s₀ (sendTrain s t') := by
  simp [sendTrain, hk]

@[simp] theorem kept_launch (s : State) (hk : Kept s₀ s) : Kept s₀ (launch s) := by
  unfold launch
  dsimp only
  (repeat' split) <;> grind [kept_sendTrain, kept_leatSend, kept_modLeat]

@[simp] theorem kept_beginSweep (s : State) (hk : Kept s₀ s) : Kept s₀ (beginSweep s) := by
  unfold beginSweep
  dsimp only
  grind [kept_launch, kept_modLeat, kept_makeRecord]

@[simp] theorem kept_sweepDue (s : State) (hk : Kept s₀ s) : Kept s₀ (sweepDue s) := by
  simp [sweepDue, hk]

@[simp] theorem kept_reachTrain (s : State) (reach : Byte) (hk : Kept s₀ s) : Kept s₀ (reachTrain s reach) := hk

@[simp] theorem kept_finishSweep (s : State) (hk : Kept s₀ s) : Kept s₀ (finishSweep s) := by
  simp [finishSweep, hk]

@[simp] theorem kept_markUnreached (s : State) (hk : Kept s₀ s) : Kept s₀ (markUnreached s) := hk

@[simp] theorem kept_turnRing (s : State) (hk : Kept s₀ s) : Kept s₀ (turnRing s) := by
  simp [turnRing, hk]

@[simp] theorem kept_afterTurn (s : State) (hk : Kept s₀ s) : Kept s₀ (afterTurn s) := by
  unfold afterTurn
  (repeat' split) <;> grind [kept_foldl, Kept.refl, kept_fields, kept_storeFields, kept_finishSweep, kept_launch,
      kept_markUnreached, kept_modLeat]

@[simp] theorem kept_trainIn (s : State) (f : LeatFrame) (hk : Kept s₀ s) : Kept s₀ (trainIn s f) := by
  simp [trainIn, hk]

@[simp] theorem kept_keepRecord (s : State) (f : LeatFrame) (hk : Kept s₀ s) : Kept s₀ (keepRecord s f) := hk

@[simp] theorem kept_yieldMastery (s : State) (hk : Kept s₀ s) : Kept s₀ (yieldMastery s) := hk

@[simp] theorem kept_masterTakes (s : State) (kind : Byte) (f : LeatFrame) (hk : Kept s₀ s) : Kept s₀ (masterTakes s kind f) := by
  unfold masterTakes
  split <;> simp [hk]

@[simp] theorem kept_receive (s : State) (on : LeatPair) (kind : Byte) (f : LeatFrame) (halves : Bool) (handle : State → State)
    (hx : ∀ t, Kept t (handle t)) (hk : Kept s₀ s) :
    Kept s₀ (receive s on kind f halves handle) := by
  unfold receive
  refine Kept.ite hk ?_
  split
  · exact hk
  · have h1 : Kept s₀ (if halves then s else modLeat s (fun l => { l with half := none })) := Kept.ite hk (kept_modLeat _ _ hk)
    exact Kept.ite (kept_modLeat _ _ h1) (Kept.ite (kept_masterTakes _ _ _ (kept_modLeat _ _ h1)) ((kept_modLeat _ _ h1).trans (hx _)))

@[simp] theorem kept_forward (kind : Byte) (f : LeatFrame) (s : State) (hk : Kept s₀ s) : Kept s₀ (forward kind f s) := by
  simp [forward, hk]

theorem kept_execIdle (on : LeatPair) (f : LeatFrame) (s : State) (hk : Kept s₀ s) :
    ∀ t, execIdle on f s = .next t → Kept s₀ t := by
  intro t e
  cases e
  simp [hk]

theorem kept_execTurn (on : LeatPair) (f : LeatFrame) (s : State) (hk : Kept s₀ s) :
    ∀ t, execTurn on f s = .next t → Kept s₀ t := by
  unfold execTurn
  intro t e
  cases e
  grind [kept_foldl, Kept.refl, kept_fields, kept_storeFields, kept_leatSend, kept_forward, kept_modLeat,
      kept_receive]

theorem kept_execTurned (on : LeatPair) (f : LeatFrame) (s : State) (hk : Kept s₀ s) :
    ∀ t, execTurned on f s = .next t → Kept s₀ t := by
  intro t e
  cases e
  simp [hk]

theorem kept_execSweepHead (on : LeatPair) (f : LeatFrame) (s : State) (hk : Kept s₀ s) :
    ∀ t, execSweepHead on f s = .next t → Kept s₀ t := by
  unfold execSweepHead
  intro t e
  cases e
  grind [kept_foldl, Kept.refl, kept_fields, kept_storeFields, kept_forward, kept_modLeat, kept_makeRecord,
      kept_receive]

theorem kept_execRecord (on : LeatPair) (f : LeatFrame) (s : State) (hk : Kept s₀ s) :
    ∀ t, execRecord on f s = .next t → Kept s₀ t := by
  unfold execRecord
  intro t e
  cases e
  grind [kept_foldl, Kept.refl, kept_fields, kept_storeFields, kept_forward, kept_modLeat, kept_receive]

@[simp] theorem kept_completeTrain (s : State) (e' : Nat → TrainFrame) (hk : Kept s₀ s) : Kept s₀ (completeTrain s e') := by
  unfold completeTrain
  dsimp only
  grind [kept_foldl, Kept.refl, kept_fields, kept_storeFields, kept_sendTrain, kept_modLeat]

theorem kept_execSweepEnd (on : LeatPair) (f : LeatFrame) (s : State) (hk : Kept s₀ s) :
    ∀ t, execSweepEnd on f s = .next t → Kept s₀ t := by
  intro t e
  cases e
  simp [hk]

theorem kept_execSweepCutTimeout (s : State) (hk : Kept s₀ s) : ∀ t, execSweepCutTimeout s = .next t → Kept s₀ t := by
  intro t e
  cases e
  simp [hk]

theorem kept_execEndOfLineTimeout (s : State) (hk : Kept s₀ s) : ∀ t, execEndOfLineTimeout s = .next t → Kept s₀ t := by
  unfold execEndOfLineTimeout
  intro t e
  cases e
  (repeat' split) <;> grind [kept_foldl, Kept.refl, kept_fields, kept_storeFields, kept_sendTrain, kept_modLeat]

@[simp] theorem kept_imageFrame (kind : Byte) (f : LeatFrame) (take : Delivery → State → State) (hx : ∀ d t, Kept t (take d t))
    (s : State) (hk : Kept s₀ s) :
    Kept s₀ (imageFrame kind f take s) := by
  unfold imageFrame
  split
  · have h1 : ∀ d : Delivery, Kept s₀ (if d.phase = .receiving then take d s else s) := by
      intro d
      split
      · exact hk.trans (hx _ _)
      · exact hk
    dsimp only
    split
    · split
      · exact h1 _
      · split
        · exact kept_forward _ _ _ (h1 _)
        · exact kept_forward _ _ _ hk
    · exact kept_forward _ _ _ hk
  · exact kept_forward _ _ _ hk

theorem kept_execImage (on : LeatPair) (f : LeatFrame) (s : State) (hk : Kept s₀ s) :
    ∀ t, execImage on f s = .next t → Kept s₀ t := by
  unfold execImage
  intro t e
  cases e
  grind [kept_foldl, Kept.refl, kept_fields, kept_storeFields, kept_takeFragment, kept_imageFrame, kept_receive]

theorem kept_execBlockCheck (on : LeatPair) (f : LeatFrame) (s : State) (hk : Kept s₀ s) :
    ∀ t, execBlockCheck on f s = .next t → Kept s₀ t := by
  unfold execBlockCheck
  intro t e
  cases e
  grind [kept_foldl, Kept.refl, kept_fields, kept_storeFields, kept_takeChecks, kept_imageFrame, kept_receive]

@[simp] theorem kept_requestHalf (kind : Byte) (f : LeatFrame) (take : State → State) (hx : ∀ t, Kept t (take t)) (s : State)
    (hk : Kept s₀ s) :
    Kept s₀ (requestHalf kind f take s) := by
  unfold requestHalf
  split
  · exact hk.trans (hx _)
  · exact kept_forward _ _ _ hk

theorem kept_execRequestFirstHalf (on : LeatPair) (urgent : Bool) (f : LeatFrame) (s : State) (hk : Kept s₀ s) :
    ∀ t, execRequestFirstHalf on urgent f s = .next t → Kept s₀ t := by
  unfold execRequestFirstHalf
  intro t e
  cases e
  grind [kept_foldl, Kept.refl, kept_fields, kept_storeFields, kept_modLeat, kept_requestHalf, kept_receive]

@[simp] theorem kept_placeRequest (s : State) (urgent : Bool) (tag : W16) (slot : List Byte) (hk : Kept s₀ s) :
    Kept s₀ (placeRequest s urgent tag slot) := by
  simp [placeRequest, hk]

theorem kept_execRequestSecondHalf (on : LeatPair) (urgent : Bool) (f : LeatFrame) (s : State) (hk : Kept s₀ s) :
    ∀ t, execRequestSecondHalf on urgent f s = .next t → Kept s₀ t := by
  unfold execRequestSecondHalf
  intro t e
  cases e
  grind [kept_foldl, Kept.refl, kept_fields, kept_storeFields, kept_placeRequest, kept_modLeat,
      kept_requestHalf, kept_receive]

theorem kept_execResponseFrame (on : LeatPair) (urgent : Bool) (second : Bool) (f : LeatFrame) (s : State) (hk : Kept s₀ s) :
    ∀ t, execResponseFrame on urgent second f s = .next t → Kept s₀ t := by
  intro t e
  cases e
  simp [hk]

theorem kept_execLeatSearchTimeout (s : State) (hk : Kept s₀ s) : ∀ t, execLeatSearchTimeout s = .next t → Kept s₀ t := by
  intro t e
  cases e
  simp [hk]

theorem kept_execMasterIdleTimer (s : State) (hk : Kept s₀ s) : ∀ t, execMasterIdleTimer s = .next t → Kept s₀ t := by
  intro t e
  cases e
  simp [hk]

theorem kept_execMasteryTakeover (s : State) (hk : Kept s₀ s) : ∀ t, execMasteryTakeover s = .next t → Kept s₀ t := by
  intro t e
  cases e
  simp [hk]

theorem kept_execMasterDrivePermitted (s : State) (hk : Kept s₀ s) : ∀ t, execMasterDrivePermitted s = .next t → Kept s₀ t := by
  intro t e
  cases e
  simp [hk]

theorem kept_execSweepPeriod (s : State) (hk : Kept s₀ s) : ∀ t, execSweepPeriod s = .next t → Kept s₀ t := by
  intro t e
  cases e
  simp [hk]

theorem kept_execSweepStall (s : State) (hk : Kept s₀ s) : ∀ t, execSweepStall s = .next t → Kept s₀ t := by
  unfold execSweepStall
  intro t e
  cases e
  (repeat' split) <;> simp [*]

theorem kept_execHeldRecordTimer (s : State) (hk : Kept s₀ s) : ∀ t, execHeldRecordTimer s = .next t → Kept s₀ t := by
  intro t e
  cases e
  simp [hk]

@[simp] theorem sweepConfigBody_keeps (r' : Request) (s : State) : (sweepConfigBody r' s).Keeps := by
  unfold sweepConfigBody
  simp

@[simp] theorem cmdSweepConfig_keeps : (cmdSweepConfig).Keeps := by
  intro q s
  simp [cmdSweepConfig]

@[simp] theorem sweepResultBody_keeps (r' : Request) (s : State) : (sweepResultBody r' s).Keeps := by
  unfold sweepResultBody
  simp

@[simp] theorem cmdSweepResult_keeps : (cmdSweepResult).Keeps := by
  intro q s
  simp [cmdSweepResult]

/-! ### Sys2Proof/Machine/Stages.lean -/

@[simp] theorem kept_modAon (s : State) (f : Aon → Aon) (hk : Kept s₀ s) : Kept s₀ (modAon s f) := hk

@[simp] theorem kept_modBoot (s : State) (f : Boot → Boot) (hk : Kept s₀ s) : Kept s₀ (modBoot s f) := hk

@[simp] theorem kept_assertReset (s : State) (hk : Kept s₀ s) : Kept s₀ (assertReset s) := by
  unfold assertReset
  dsimp only
  grind [kept_foldl, Kept.refl, kept_fields, kept_storeFields, kept_releaseAlerts, kept_warmState,
      kept_emit]

theorem kept_execChipRstNAssert (lowNs : Nat) (s : State) (hk : Kept s₀ s) :
    ∀ t, execChipRstNAssert lowNs s = .next t → Kept s₀ t := by
  intro t e
  unfold execChipRstNAssert at e
  split at e
  · cases e; exact hk
  · split at e
    · cases e
    · cases e
      split
      · exact hk
      · exact kept_assertReset _ hk

theorem kept_execChipRstNRelease (straps : Straps) (s : State) (hk : Kept s₀ s) :
    ∀ t, execChipRstNRelease straps s = .next t → Kept s₀ t := by
  unfold execChipRstNRelease
  intro t e
  cases e
  (repeat' split) <;> grind [kept_foldl, Kept.refl, kept_fields, kept_storeFields, kept_modAon, kept_enterStage0, kept_modBoot]

@[simp] theorem kept_coldState (s : State) (hk : Kept s₀ s) : Kept s₀ (coldState s) :=
  ⟨hk.1, hk.2.1, fun _ => Memory.forget_wf _ _ _ _ rfl⟩

theorem kept_execColdReset (s : State) (hk : Kept s₀ s) : ∀ t, execColdReset s = .next t → Kept s₀ t := by
  intro t e
  cases e
  simp [hk]

theorem kept_execVddAonPowerLoss (s : State) (hk : Kept s₀ s) : ∀ t, execVddAonPowerLoss s = .next t → Kept s₀ t := by
  intro t e
  cases e
  simp [hk]

theorem kept_execAonDomainFailure (s : State) (hk : Kept s₀ s) : ∀ t, execAonDomainFailure s = .next t → Kept s₀ t := by
  intro t e
  cases e
  exact hk

theorem kept_execRailFault (rail : Fin 6) (s : State) (hk : Kept s₀ s) : ∀ t, execRailFault rail s = .next t → Kept s₀ t := by
  unfold execRailFault
  intro t e
  cases e
  (repeat' split) <;> grind [kept_stopLines, kept_modHead, kept_modAon]

theorem kept_execRefclkLoss (s : State) (hk : Kept s₀ s) : ∀ t, execRefclkLoss s = .next t → Kept s₀ t := by
  unfold execRefclkLoss
  intro t e
  cases e
  (repeat' split) <;> grind [kept_stopLines, kept_modHead, kept_modAon]

theorem kept_execRefclkRestored (s : State) (hk : Kept s₀ s) : ∀ t, execRefclkRestored s = .next t → Kept s₀ t := by
  intro t e
  cases e
  simp [hk]

theorem kept_execCoolantLoss (s : State) (hk : Kept s₀ s) : ∀ t, execCoolantLoss s = .next t → Kept s₀ t := by
  unfold execCoolantLoss
  intro t e
  cases e
  (repeat' split) <;> grind [kept_stopLines, kept_modHead, kept_modAon]

@[simp] theorem kept_leaveStage0 (s : State) (hk : Kept s₀ s) : Kept s₀ (leaveStage0 s) := by
  unfold leaveStage0
  dsimp only
  (repeat' split) <;> grind [kept_enterRecovery, kept_endBoundary, kept_modBoot, kept_stageEvent, kept_endTests]

theorem kept_execCoolantRestored (s : State) (hk : Kept s₀ s) : ∀ t, execCoolantRestored s = .next t → Kept s₀ t := by
  intro t e
  cases e
  simp [hk]

theorem kept_execStage0Complete (romOk : Bool) (stewardOk : Bool) (transportOk : Bool) (temps : List Int) (trips : BitVec 72)
    (s : State) (hk : Kept s₀ s) :
    ∀ t, execStage0Complete romOk stewardOk transportOk temps trips s = .next t → Kept s₀ t := by
  intro t e
  cases e
  simp [hk]

theorem kept_execStage2MarkDown (s : State) (hk : Kept s₀ s) : ∀ t, execStage2MarkDown s = .next t → Kept s₀ t := by
  unfold execStage2MarkDown
  intro t e
  cases e
  (repeat' split) <;> grind [kept_foldl, Kept.refl, kept_fields, kept_storeFields, kept_setPort, kept_loseLink, kept_modBoot]

theorem kept_execStage2Complete (s : State) (hk : Kept s₀ s) : ∀ t, execStage2Complete s = .next t → Kept s₀ t := by
  unfold execStage2Complete
  intro t e
  cases e
  (repeat' split) <;> grind [kept_foldl, Kept.refl, kept_fields, kept_storeFields, kept_modBoot, kept_stageEvent]

theorem kept_execScratchpadTestComplete (failing : List Nat) (s : State) (hk : Kept s₀ s) :
    ∀ t, execScratchpadTestComplete failing s = .next t → Kept s₀ t := by
  rintro _ ⟨⟩
  split
  · exact hk
  · refine kept_foldl _ ?_ fun t x => kept_event _ _ _ (kept_recordRetired _ _ (Kept.refl t))
    exact ⟨hk.1, hk.2.1, fun _ => filledStore_wf _ _⟩

theorem kept_execCoreSelfTestComplete (failing : BitVec 64) (pathBad : BitVec 64) (s : State) (hk : Kept s₀ s) :
    ∀ t, execCoreSelfTestComplete failing pathBad s = .next t → Kept s₀ t := by
  unfold execCoreSelfTestComplete
  intro t e
  cases e
  (repeat' split) <;> grind [kept_foldl, Kept.refl, kept_fields, kept_storeFields, kept_belowFloor, kept_modBoot, kept_stageEvent]

@[simp] theorem kept_restartSeizure (s : State) (hk : Kept s₀ s) : Kept s₀ (restartSeizure s) := by
  unfold restartSeizure
  split <;> simp [hk]

@[simp] theorem kept_expire (s : State) (cause : Byte) (hk : Kept s₀ s) : Kept s₀ (expire s cause) := by
  unfold expire
  dsimp only
  (repeat' split) <;> grind [kept_foldl, Kept.refl, kept_fields, kept_storeFields, kept_fallBack, kept_restartSeizure,
      kept_dropNormal, kept_modAon, kept_resetEvent, kept_innerReset]

theorem kept_execStewardWatchdogExpiry (s : State) (hk : Kept s₀ s) : ∀ t, execStewardWatchdogExpiry s = .next t → Kept s₀ t := by
  intro t e
  cases e
  simp [hk]

theorem kept_execStewardFault (cause : StewardCause) (pcLow : W32) (s : State) (hk : Kept s₀ s) :
    ∀ t, execStewardFault cause pcLow s = .next t → Kept s₀ t := by
  unfold execStewardFault
  intro t e
  cases e
  (repeat' split) <;> grind [kept_foldl, Kept.refl, kept_fields, kept_storeFields, kept_expire, kept_event]

theorem kept_execFullFirmwareService (s : State) (hk : Kept s₀ s) : ∀ t, execFullFirmwareService s = .next t → Kept s₀ t := by
  unfold execFullFirmwareService
  intro t e
  cases e
  (repeat' split) <;> grind [kept_foldl, Kept.refl, kept_fields, kept_storeFields, kept_selectSettings, kept_kickWatchdog]

/-! ### Sys2Proof/Machine/Regs.lean -/

@[simp] theorem kept_clearLatch (s : State) (v : W32) (hk : Kept s₀ s) : Kept s₀ (clearLatch s v) := hk

@[simp] theorem kept_ownWrite (s : State) (e' : Nat) (via : Transport) (f : Endpoint → Endpoint) (hk : Kept s₀ s) :
    Kept s₀ (ownWrite s e' via f) := by
  simp [ownWrite, hk]

@[simp] theorem kept_ringUrgent (s : State) (e' : Nat) (via : Transport) (v : W32) (hk : Kept s₀ s) :
    Kept s₀ (ringUrgent s e' via v) := by
  simp [ringUrgent, hk]

@[simp] theorem kept_writeEndpoint (s : State) (e' : Nat) (o' : Nat) (via : Transport) (v : W32) (hk : Kept s₀ s) :
    Kept s₀ (writeEndpoint s e' o' via v) := by
  unfold writeEndpoint
  split <;> simp [hk]

@[simp] theorem kept_writeMailbox (s : State) (o' : Nat) (via : Transport) (v : W32) (hk : Kept s₀ s) :
    Kept s₀ (writeMailbox s o' via v) := by
  unfold writeMailbox
  split <;> simp [hk]

@[simp] theorem kept_drainLedger (s : State) (via : Transport) (v : W32) (hk : Kept s₀ s) : Kept s₀ (drainLedger s via v) := by
  simp [drainLedger, hk]

@[simp] theorem kept_clearLoss (s : State) (via : Transport) (v : W32) (hk : Kept s₀ s) : Kept s₀ (clearLoss s via v) := by
  simp [clearLoss, hk]

@[simp] theorem kept_selectWindow (s : State) (via : Transport) (v : W32) (hk : Kept s₀ s) : Kept s₀ (selectWindow s via v) := by
  simp [selectWindow, hk]

@[simp] theorem kept_startTest (s : State) (q' : Nat) (via : Transport) (rate : Bool) (hk : Kept s₀ s) :
    Kept s₀ (startTest s q' via rate) := by
  simp [startTest, hk]

@[simp] theorem kept_stopTest (s : State) (q' : Nat) (via : Transport) (hk : Kept s₀ s) : Kept s₀ (stopTest s q' via) := by
  simp [stopTest, hk]

@[simp] theorem kept_clearRefused (s : State) (q' : Nat) (via : Transport) (v : W32) (hk : Kept s₀ s) :
    Kept s₀ (clearRefused s q' via v) := by
  simp [clearRefused, hk]

@[simp] theorem kept_writeTest (s : State) (q' : Nat) (via : Transport) (v : W32) (hk : Kept s₀ s) :
    Kept s₀ (writeTest s q' via v) := by
  simp [writeTest, hk]

@[simp] theorem kept_latchCount (s : State) (via : Transport) (hk : Kept s₀ s) : Kept s₀ (latchCount s via).2 := hk

@[simp] theorem kept_kickWrite (s : State) (via : Transport) (v : W32) (hk : Kept s₀ s) : Kept s₀ (kickWrite s via v) := by
  simp [kickWrite, hk]

@[simp] theorem kept_readConflicts (s : State) (hk : Kept s₀ s) : Kept s₀ (readConflicts s).2 := hk

@[simp] theorem kept_clearBoundary (s : State) (via : Transport) (v : W32) (hk : Kept s₀ s) : Kept s₀ (clearBoundary s via v) := by
  simp [clearBoundary, hk]

@[simp] theorem kept_readReg (s : State) (via : Transport) (off : Nat) (hk : Kept s₀ s) : Kept s₀ (readReg s via off).2 := by
  unfold readReg
  dsimp only
  split <;> (try split) <;> simp [hk]

@[simp] theorem kept_writeReg (s : State) (via : Transport) (off : Nat) (v : W32) (hk : Kept s₀ s) :
    Kept s₀ (writeReg s via off v) := by
  unfold writeReg
  dsimp only
  split <;> simp [hk]

theorem kept_onRegs (s u : State) (hk : Kept s₀ s) (hu : Kept s₀ u) : ∀ t, onRegs s u = .next t → Kept s₀ t := by
  intro t e
  cases e
  split
  · exact hu
  · exact hk

theorem kept_execMbxEpnDoorbell (ep : Fin 6) (via : Transport) (v : W32) (s : State) (hk : Kept s₀ s) :
    ∀ t, execMbxEpnDoorbell ep via v s = .next t → Kept s₀ t := by
  intro t e
  cases e
  simp [hk]

theorem kept_execMbxEpnRspAck (ep : Fin 6) (via : Transport) (v : W32) (s : State) (hk : Kept s₀ s) :
    ∀ t, execMbxEpnRspAck ep via v s = .next t → Kept s₀ t := by
  intro t e
  cases e
  simp [hk]

theorem kept_execMbxEpnUrgDoorbell (ep : Fin 6) (via : Transport) (v : W32) (s : State) (hk : Kept s₀ s) :
    ∀ t, execMbxEpnUrgDoorbell ep via v s = .next t → Kept s₀ t := by
  intro t e
  cases e
  simp [hk]

theorem kept_execMbxEpnUrgStatus (ep : Fin 6) (via : Transport) (v : W32) (s : State) (hk : Kept s₀ s) :
    ∀ t, execMbxEpnUrgStatus ep via v s = .next t → Kept s₀ t := by
  intro t e
  cases e
  simp [hk]

theorem kept_execMbxEpnStatus (ep : Fin 6) (via : Transport) (v : W32) (s : State) (hk : Kept s₀ s) :
    ∀ t, execMbxEpnStatus ep via v s = .next t → Kept s₀ t := by
  intro t e
  cases e
  simp [hk]

theorem kept_execLedgerDrained (via : Transport) (v : W32) (s : State) (hk : Kept s₀ s) :
    ∀ t, execLedgerDrained via v s = .next t → Kept s₀ t := by
  intro t e
  cases e
  simp [hk]

theorem kept_execLedgerStatus (via : Transport) (v : W32) (s : State) (hk : Kept s₀ s) :
    ∀ t, execLedgerStatus via v s = .next t → Kept s₀ t := by
  intro t e
  cases e
  simp [hk]

theorem kept_execAonLatch (via : Transport) (v : W32) (s : State) (hk : Kept s₀ s) :
    ∀ t, execAonLatch via v s = .next t → Kept s₀ t := by
  intro t e
  cases e
  simp [hk]

theorem kept_execLnkTestStart (port : Fin 20) (via : Transport) (rate : Bool) (s : State) (hk : Kept s₀ s) :
    ∀ t, execLnkTestStart port via rate s = .next t → Kept s₀ t := by
  intro t e
  cases e
  simp [hk]

theorem kept_execLnkTestStop (port : Fin 20) (via : Transport) (s : State) (hk : Kept s₀ s) :
    ∀ t, execLnkTestStop port via s = .next t → Kept s₀ t := by
  intro t e
  cases e
  simp [hk]

theorem kept_execLnkPnTestRefusedClear (port : Fin 20) (via : Transport) (v : W32) (s : State) (hk : Kept s₀ s) :
    ∀ t, execLnkPnTestRefusedClear port via v s = .next t → Kept s₀ t := by
  intro t e
  cases e
  simp [hk]

theorem kept_execStgWdogKick (via : Transport) (v : W32) (s : State) (hk : Kept s₀ s) :
    ∀ t, execStgWdogKick via v s = .next t → Kept s₀ t := by
  intro t e
  cases e
  simp [hk]

theorem kept_execDbgJtag (via : Transport) (v : W32) (s : State) (hk : Kept s₀ s) :
    ∀ t, execDbgJtag via v s = .next t → Kept s₀ t := by
  intro t e
  cases e
  simp [hk]

@[simp] theorem kept_answerRead (x : W32 × State) (via : Transport) (off : Nat) (hk : Kept s₀ x.2) :
    Kept s₀ (answerRead x via off) := hk

theorem kept_execTrnCountLo (via : Transport) (s : State) (hk : Kept s₀ s) : ∀ t, execTrnCountLo via s = .next t → Kept s₀ t :=
  kept_onRegs _ _ hk (kept_answerRead _ _ _ (kept_latchCount _ _ hk))

theorem kept_execDbgSlcnCounterRead (via : Transport) (slice : Fin 64) (which : Fin 5) (s : State) (hk : Kept s₀ s) :
    ∀ t, execDbgSlcnCounterRead via slice which s = .next t → Kept s₀ t :=
  kept_onRegs _ _ hk (kept_answerRead _ _ _ (kept_readConflicts _ hk))

theorem kept_execRegisterWrite (via : Transport) (off : BitVec 24) (v : W32) (s : State) (hk : Kept s₀ s) :
    ∀ t, execRegisterWrite via off v s = .next t → Kept s₀ t := by
  intro t e
  cases e
  simp [hk]

@[simp] theorem kept_loadIr (s : State) (code : Byte) (hk : Kept s₀ s) : Kept s₀ (loadIr s code) := by
  simp [loadIr, hk]

@[simp] theorem kept_scanDr (s : State) (t' : Tap) (len : Nat) (v : Nat) (hk : Kept s₀ s) : Kept s₀ (scanDr s t' len v) := by
  simp [scanDr, hk]

theorem kept_execBypass (s : State) (hk : Kept s₀ s) : ∀ t, execBypass s = .next t → Kept s₀ t := by
  intro t e
  cases e
  simp [hk]

theorem kept_execIdcode (s : State) (hk : Kept s₀ s) : ∀ t, execIdcode s = .next t → Kept s₀ t := by
  intro t e
  cases e
  simp [hk]

theorem kept_execSamplePreload (drive : Cells) (seen : Cells) (s : State) (hk : Kept s₀ s) :
    ∀ t, execSamplePreload drive seen s = .next t → Kept s₀ t := by
  intro t e
  cases e
  simp [hk]

theorem kept_execCfgAccess (s : State) (hk : Kept s₀ s) : ∀ t, execCfgAccess s = .next t → Kept s₀ t := by
  intro t e
  cases e
  simp [hk]

theorem kept_execTapReset (s : State) (hk : Kept s₀ s) : ∀ t, execTapReset s = .next t → Kept s₀ t := by
  intro t e
  cases e
  simp [hk]

@[simp] theorem kept_boundary (s : State) (code : Byte) (drive : Cells) (seen : Cells) (hk : Kept s₀ s) :
    Kept s₀ (boundary s code drive seen) := by
  unfold boundary
  dsimp only
  (repeat' split) <;> grind [kept_foldl, Kept.refl, kept_fields, kept_storeFields, kept_scanDr, kept_emit]

theorem kept_execExtest (drive : Cells) (seen : Cells) (s : State) (hk : Kept s₀ s) :
    ∀ t, execExtest drive seen s = .next t → Kept s₀ t := by
  intro t e
  cases e
  simp [hk]

theorem kept_execExtestPulse (drive : Cells) (seen : Cells) (s : State) (hk : Kept s₀ s) :
    ∀ t, execExtestPulse drive seen s = .next t → Kept s₀ t := by
  intro t e
  cases e
  simp [hk]

theorem kept_execExtestTrain (drive : Cells) (seen : Cells) (s : State) (hk : Kept s₀ s) :
    ∀ t, execExtestTrain drive seen s = .next t → Kept s₀ t := by
  intro t e
  cases e
  simp [hk]

theorem kept_execCfgAccessUpdateDr (dr : W64) (s : State) (hk : Kept s₀ s) :
    ∀ t, execCfgAccessUpdateDr dr s = .next t → Kept s₀ t := by
  unfold execCfgAccessUpdateDr
  intro t e
  cases e
  (repeat' split) <;> grind [kept_foldl, Kept.refl, kept_fields, kept_storeFields, kept_writeReg, kept_fresh, kept_readReg]

@[simp] theorem kept_readRegs {r : State} (x0 : State) (x1 : Nat) (x2 : Nat) (h : Kept r x0) : Kept r (readRegs x0 x1 x2).2 := by
  induction x2 generalizing x0 x1 with
  | zero => exact h
  | succ n ih => exact ih _ _ (kept_readReg _ _ _ h)

@[simp] theorem peekBody_keeps (r' : Request) (s : State) : (peekBody r' s).Keeps := by
  unfold peekBody
  dsimp only
  (repeat' split) <;> simp

@[simp] theorem cmdDebugPeek_keeps : (cmdDebugPeek).Keeps := by
  intro q s
  simp [cmdDebugPeek]

@[simp] theorem kept_pokeCore (s : State) (n : Nat) (a : Nat) (data : List Byte) (hk : Kept s₀ s) : Kept s₀ (pokeCore s n a data) := hk

@[simp] theorem pokeBody_keeps (r : Request) (s' : State) : (pokeBody r s').Keeps := by
  unfold pokeBody
  refine Reply.keeps_ite (Reply.no_keeps _) ?_
  split
  · exact Reply.keeps_ite (Reply.no_keeps _) (Reply.keeps_of fun _ s => kept_clearBoundary _ _ _ (Kept.refl s))
  · exact Reply.keeps_ite (Reply.no_keeps _)
      (Reply.keeps_of fun _ s => kept_settleReads _ (kept_write _ _ (kept_noteMerge _ _ _ _ _ (Kept.refl s))))
  · exact Reply.keeps_ite (Reply.no_keeps _) (Reply.keeps_of fun _ s => kept_pokeCore _ _ _ _ (Kept.refl s))

@[simp] theorem cmdDebugPoke_keeps : (cmdDebugPoke).Keeps := by
  intro q s
  simp [cmdDebugPoke]

/-! ### Sys2Proof/Machine/Mailbox.lean -/

theorem commandOf_keeps {code : W16} {c : Cmd} (e : commandOf code = some c) : c.Keeps := by
  have all : ∀ c ∈ allCommands, c.Keeps := by simp [allCommands]
  exact all c (List.mem_of_find?_eq_some e)

@[simp] theorem kept_serveCode (code : W16) (q : Request) (s : State) (hk : Kept s₀ s) : Kept s₀ (serveCode code q s) := by
  unfold serveCode
  split
  · exact kept_serve _ (commandOf_keeps ‹_›) _ _ hk
  · exact kept_respond _ _ _ _ _ _ hk

@[simp] theorem kept_takeRequest (s : State) (e' : Fin 6) (hk : Kept s₀ s) : Kept s₀ (takeRequest s e').2 := hk

@[simp] theorem kept_preempt (code : W16) (q : Request) (s : State) (hk : Kept s₀ s) : Kept s₀ (preempt code q s) := by
  unfold preempt
  split
  · split
    · exact hk
    · exact kept_serve _ (commandOf_keeps ‹_›) _ _ hk
  · exact kept_serveCode _ _ _ hk

theorem kept_execRequestServiceStart (commit : Bool) (s : State) (hk : Kept s₀ s) :
    ∀ t, execRequestServiceStart commit s = .next t → Kept s₀ t := by
  unfold execRequestServiceStart
  intro t e
  cases e
  (repeat' split) <;> simp [*]

@[simp] theorem kept_yieldSeizure (s : State) (hk : Kept s₀ s) : Kept s₀ (yieldSeizure s) := by
  unfold yieldSeizure
  dsimp only
  split <;> simp [hk]

theorem kept_besideSeizure (s : State) (code : W16) (r' : Request) (hk : Kept s₀ s) :
    ∀ t, besideSeizure s code r' = some t → Kept s₀ t := by
  unfold besideSeizure
  intro t e
  (repeat' split at e) <;> simp at e <;> subst e <;> simp [hk]

theorem kept_execUrgentServiceStart (s : State) (hk : Kept s₀ s) : ∀ t, execUrgentServiceStart s = .next t → Kept s₀ t := by
  intro t e
  cases e
  split
  · exact hk
  · split
    · exact hk
    · dsimp only
      split
      · refine kept_serveCode _ _ _ (kept_besideSeizure _ _ _ ?_ _ ‹_›)
        exact hk
      · exact hk

theorem kept_execPreemptedCommandResume (s : State) (hk : Kept s₀ s) : ∀ t, execPreemptedCommandResume s = .next t → Kept s₀ t := by
  rintro _ ⟨⟩
  split
  · split
    · exact hk
    · split
      · exact kept_serveWith _ (commandOf_keeps ‹_›) _ _ _ hk
      · exact hk
  · exact hk
/-! ### Every row -/

/-- The operation of every slot row keeps what is pinned. -/
theorem slotRow_keeps {i : Instr} {n k : Nat} {p : Pred} {op : Op} (h : slotRow i = some (n, k, p, op)) : op.Keeps := by
  unfold slotRow at h
  split at h <;> simp only [Option.some.injEq, Prod.mk.injEq, reduceCtorEq] at h <;> (obtain ⟨-, -, -, rfl⟩ := h; simp)

/-- So does the command of every mailbox row. -/
theorem mailRow_keeps {i : Instr} {c : Cmd} {r : Request} (h : mailRow i = some (c, r)) : c.Keeps := by
  unfold mailRow at h
  split at h <;> simp only [Option.some.injEq, Prod.mk.injEq, reduceCtorEq] at h <;> (obtain ⟨rfl, -⟩ := h; simp)

/-- Every row but those of the slots and of the mailbox. -/
theorem kept_exec_other {i : Instr} (hs : slotRow i = none) (hm : mailRow i = none) (e : exec i s = .next t) : Kept s t := by
  cases i
  case fwConfirm => exact kept_execFwConfirm _ _ _ (.refl s) _ e
  case fwAbort => exact kept_execFwAbort _ _ _ (.refl s) _ e
  case requestServiceStart => exact kept_execRequestServiceStart _ _ (.refl s) _ e
  case urgentServiceStart => exact kept_execUrgentServiceStart _ (.refl s) _ e
  case preemptedCommandResume => exact kept_execPreemptedCommandResume _ (.refl s) _ e
  case mbxEpnDoorbell => exact kept_execMbxEpnDoorbell _ _ _ _ (.refl s) _ e
  case mbxEpnRspAck => exact kept_execMbxEpnRspAck _ _ _ _ (.refl s) _ e
  case mbxEpnUrgDoorbell => exact kept_execMbxEpnUrgDoorbell _ _ _ _ (.refl s) _ e
  case mbxEpnUrgStatus => exact kept_execMbxEpnUrgStatus _ _ _ _ (.refl s) _ e
  case mbxEpnStatus => exact kept_execMbxEpnStatus _ _ _ _ (.refl s) _ e
  case ledgerDrained => exact kept_execLedgerDrained _ _ _ (.refl s) _ e
  case ledgerStatus => exact kept_execLedgerStatus _ _ _ (.refl s) _ e
  case aonLatch => exact kept_execAonLatch _ _ _ (.refl s) _ e
  case lnkTestStart => exact kept_execLnkTestStart _ _ _ _ (.refl s) _ e
  case lnkTestStop => exact kept_execLnkTestStop _ _ _ (.refl s) _ e
  case lnkPnTestRefusedClear => exact kept_execLnkPnTestRefusedClear _ _ _ _ (.refl s) _ e
  case stgWdogKick => exact kept_execStgWdogKick _ _ _ (.refl s) _ e
  case trnCountLo => exact kept_execTrnCountLo _ _ (.refl s) _ e
  case dbgSlcnCounterRead => exact kept_execDbgSlcnCounterRead _ _ _ _ (.refl s) _ e
  case dbgJtag => exact kept_execDbgJtag _ _ _ (.refl s) _ e
  case registerWrite => exact kept_execRegisterWrite _ _ _ _ (.refl s) _ e
  case cfgAccessUpdateDr => exact kept_execCfgAccessUpdateDr _ _ (.refl s) _ e
  case bypass => exact kept_execBypass _ (.refl s) _ e
  case idcode => exact kept_execIdcode _ (.refl s) _ e
  case samplePreload => exact kept_execSamplePreload _ _ _ (.refl s) _ e
  case extest => exact kept_execExtest _ _ _ (.refl s) _ e
  case extestPulse => exact kept_execExtestPulse _ _ _ (.refl s) _ e
  case extestTrain => exact kept_execExtestTrain _ _ _ (.refl s) _ e
  case cfgAccess => exact kept_execCfgAccess _ (.refl s) _ e
  case mailboxRequest => exact kept_execMailboxRequest _ _ _ _ (.refl s) _ e
  case mailboxResponse fa l => exact kept_execMailboxResponse fa l _ (.refl s) _ e
  case chipRstNAssert => exact kept_execChipRstNAssert _ _ (.refl s) _ e
  case chipRstNRelease => exact kept_execChipRstNRelease _ _ (.refl s) _ e
  case coldReset => exact kept_execColdReset _ (.refl s) _ e
  case vddAonPowerLoss => exact kept_execVddAonPowerLoss _ (.refl s) _ e
  case railFault => exact kept_execRailFault _ _ (.refl s) _ e
  case refclkLoss => exact kept_execRefclkLoss _ (.refl s) _ e
  case coolantLoss => exact kept_execCoolantLoss _ (.refl s) _ e
  case coolantRestored => exact kept_execCoolantRestored _ (.refl s) _ e
  case thermalTrip => exact kept_execThermalTrip _ _ (.refl s) _ e
  case stewardWatchdogExpiry => exact kept_execStewardWatchdogExpiry _ (.refl s) _ e
  case stewardFault => exact kept_execStewardFault _ _ _ (.refl s) _ e
  case stage0Complete => exact kept_execStage0Complete _ _ _ _ _ _ (.refl s) _ e
  case bootConfirmTimeout => exact kept_execBootConfirmTimeout _ (.refl s) _ e
  case fwVerifyComplete => exact kept_execFwVerifyComplete _ (.refl s) _ e
  case stage2MarkDown => exact kept_execStage2MarkDown _ (.refl s) _ e
  case stage2Complete => exact kept_execStage2Complete _ (.refl s) _ e
  case scratchpadTestComplete => exact kept_execScratchpadTestComplete _ _ (.refl s) _ e
  case coreSelfTestComplete => exact kept_execCoreSelfTestComplete _ _ _ (.refl s) _ e
  case handoverPauseBegin => exact kept_execHandoverPauseBegin _ (.refl s) _ e
  case exchangeComplete => exact kept_execExchangeComplete _ (.refl s) _ e
  case startChecksPass => exact kept_execStartChecksPass _ (.refl s) _ e
  case selfConfirm => exact kept_execSelfConfirm _ (.refl s) _ e
  case confirmWindowEnd => exact kept_execConfirmWindowEnd _ (.refl s) _ e
  case vddAck => exact kept_execVddAck _ _ _ (.refl s) _ e
  case vddAckTimeout => exact kept_execVddAckTimeout _ (.refl s) _ e
  case corePllLocked => exact kept_execCorePllLocked _ (.refl s) _ e
  case railReport => exact kept_execRailReport _ _ _ _ _ _ (.refl s) _ e
  case railStaleTimeout => exact kept_execRailStaleTimeout _ (.refl s) _ e
  case ditherSlot => exact kept_execDitherSlot _ (.refl s) _ e
  case estimatorPeriod => exact kept_execEstimatorPeriod _ _ (.refl s) _ e
  case rampShaperInterval => exact kept_execRampShaperInterval _ _ _ (.refl s) _ e
  case thermalConversion => exact kept_execThermalConversion _ _ (.refl s) _ e
  case opLoop => exact kept_execOpLoop _ _ _ (.refl s) _ e
  case paceWindow => exact kept_execPaceWindow _ _ (.refl s) _ e
  case droopDetect => exact kept_execDroopDetect _ _ (.refl s) _ e
  case droopClear => exact kept_execDroopClear _ (.refl s) _ e
  case headgateStall => exact kept_execHeadgateStall _ _ (.refl s) _ e
  case hardwareFault => exact kept_execHardwareFault _ _ _ _ (.refl s) _ e
  case parityDetection => exact kept_execParityDetection _ _ _ (.refl s) _ e
  case flumeFault => exact kept_execFlumeFault _ _ _ (.refl s) _ e
  case segWakeGroup => exact kept_execSegWakeGroup _ (.refl s) _ e
  case inMemoryOpComplete => exact kept_execInMemoryOpComplete _ _ (.refl s) _ e
  case zeroingComplete => exact kept_execZeroingComplete _ _ (.refl s) _ e
  case segFillComplete => exact kept_execSegFillComplete _ (.refl s) _ e
  case progLoadComplete => exact kept_execProgLoadComplete _ _ (.refl s) _ e
  case discoveryQuietTimer => exact kept_execDiscoveryQuietTimer _ (.refl s) _ e
  case discoveryForget => exact kept_execDiscoveryForget _ (.refl s) _ e
  case discoveryFlood => exact kept_execDiscoveryFlood _ _ _ _ _ (.refl s) _ e
  case discoveryReply => exact kept_execDiscoveryReply _ _ _ _ _ _ _ (.refl s) _ e
  case discoveryWithdrawal => exact kept_execDiscoveryWithdrawal _ _ _ _ (.refl s) _ e
  case timeNomination => exact kept_execTimeNomination _ _ (.refl s) _ e
  case timeMasterLocked => exact kept_execTimeMasterLocked _ (.refl s) _ e
  case linkRetrainComplete => exact kept_execLinkRetrainComplete _ _ _ (.refl s) _ e
  case gangJoin => exact kept_execGangJoin _ _ _ _ _ _ _ _ _ (.refl s) _ e
  case gangJoinReply => exact kept_execGangJoinReply _ _ _ _ (.refl s) _ e
  case gangCommit => exact kept_execGangCommit _ _ _ (.refl s) _ e
  case gangAbort => exact kept_execGangAbort _ _ _ (.refl s) _ e
  case gangCommitAck => exact kept_execGangCommitAck _ _ _ (.refl s) _ e
  case gangReplyDeadline => exact kept_execGangReplyDeadline _ _ (.refl s) _ e
  case gangTentativeExpiry => exact kept_execGangTentativeExpiry _ _ _ (.refl s) _ e
  case gangLeave => exact kept_execGangLeave _ _ _ (.refl s) _ e
  case gangLeaveAck => exact kept_execGangLeaveAck _ _ _ (.refl s) _ e
  case gangLeaveDeadline => exact kept_execGangLeaveDeadline _ _ (.refl s) _ e
  case gangBeat => exact kept_execGangBeat _ _ _ _ (.refl s) _ e
  case gangLost => exact kept_execGangLost _ _ _ _ (.refl s) _ e
  case gangHalt => exact kept_execGangHalt _ _ _ _ (.refl s) _ e
  case gangBarrierRelease => exact kept_execGangBarrierRelease _ _ _ _ (.refl s) _ e
  case turnEdge => exact kept_execTurnEdge _ (.refl s) _ e
  case timeExchangeTimer => exact kept_execTimeExchangeTimer _ (.refl s) _ e
  case timeReq => exact kept_execTimeReq _ _ _ (.refl s) _ e
  case timeRsp => exact kept_execTimeRsp _ _ _ _ (.refl s) _ e
  case holdoverExpiry => exact kept_execHoldoverExpiry _ (.refl s) _ e
  case grandmasterFallback => exact kept_execGrandmasterFallback _ _ (.refl s) _ e
  case frameReceive => exact kept_execFrameReceive _ _ _ _ _ (.refl s) _ e
  case replay => exact kept_execReplay _ _ _ (.refl s) _ e
  case replayResendTimer => exact kept_execReplayResendTimer _ _ (.refl s) _ e
  case ackTimer => exact kept_execAckTimer _ _ (.refl s) _ e
  case linkSilence => exact kept_execLinkSilence _ _ (.refl s) _ e
  case linkPhyError => exact kept_execLinkPhyError _ _ _ (.refl s) _ e
  case trainingStepComplete => exact kept_execTrainingStepComplete _ _ _ (.refl s) _ e
  case identityExchange => exact kept_execIdentityExchange _ _ _ (.refl s) _ e
  case trainingAttemptFail => exact kept_execTrainingAttemptFail _ _ (.refl s) _ e
  case partnerTrainingDetected => exact kept_execPartnerTrainingDetected _ _ (.refl s) _ e
  case stopFrame => exact kept_execStopFrame _ _ _ (.refl s) _ e
  case packetHeaderArrival => exact kept_execPacketHeaderArrival _ _ _ (.refl s) _ e
  case combineRecordTimeout => exact kept_execCombineRecordTimeout _ _ (.refl s) _ e
  case revocation => exact kept_execRevocation _ _ _ _ _ _ (.refl s) _ e
  case writePacket => exact kept_execWritePacket _ _ _ (.refl s) _ e
  case addPacket h d => exact kept_execAddPacket h d _ (.refl s) _ e
  case readRequest => exact kept_execReadRequest _ _ (.refl s) _ e
  case readData => exact kept_execReadData _ _ _ (.refl s) _ e
  case addWriteArrival => exact kept_execAddWriteArrival _ _ _ _ (.refl s) _ e
  case reductionTimeout => exact kept_execReductionTimeout _ _ (.refl s) _ e
  case creditReq src window kind outstanding xfer chan => exact kept_execCreditReq src window kind outstanding xfer chan _ (.refl s) _ e
  case creditGrant => exact kept_execCreditGrant _ _ _ _ _ _ (.refl s) _ e
  case packetDone => exact kept_execPacketDone _ _ _ _ _ _ _ _ (.refl s) _ e
  case creditRelease src window n xfer chan => exact kept_execCreditRelease src window n xfer chan _ (.refl s) _ e
  case full => exact kept_execFull _ _ _ _ _ (.refl s) _ e
  case fullRetryTimer => exact kept_execFullRetryTimer _ _ (.refl s) _ e
  case creditReclaim => exact kept_execCreditReclaim _ _ _ _ (.refl s) _ e
  case lossLimit => exact kept_execLossLimit _ _ (.refl s) _ e
  case remoteGateOperation => exact kept_execRemoteGateOperation _ _ _ _ _ _ _ _ _ _ (.refl s) _ e
  case gateResult => exact kept_execGateResult _ _ _ _ (.refl s) _ e
  case holdProbeTimer => exact kept_execHoldProbeTimer _ (.refl s) _ e
  case holdProbe => exact kept_execHoldProbe _ _ _ _ _ _ (.refl s) _ e
  case holdAnswer => exact kept_execHoldAnswer _ _ _ _ (.refl s) _ e
  case waitProbeTimer => exact kept_execWaitProbeTimer _ (.refl s) _ e
  case waitProbe => exact kept_execWaitProbe _ _ _ _ (.refl s) _ e
  case waitAnswer => exact kept_execWaitAnswer _ _ _ _ (.refl s) _ e
  case waitSilenceTimeout => exact kept_execWaitSilenceTimeout _ _ (.refl s) _ e
  case withdraw => exact kept_execWithdraw _ _ _ _ (.refl s) _ e
  case poolFull => exact kept_execPoolFull _ _ _ _ (.refl s) _ e
  case poolFullRetry => exact kept_execPoolFullRetry _ _ (.refl s) _ e
  case leaseExpiry => exact kept_execLeaseExpiry _ _ (.refl s) _ e
  case reachabilityLimit => exact kept_execReachabilityLimit _ _ (.refl s) _ e
  case seizureQuiesced => exact kept_execSeizureQuiesced _ (.refl s) _ e
  case flumeFenceDone => exact kept_execFlumeFenceDone _ (.refl s) _ e
  case fabricFenceDone => exact kept_execFabricFenceDone _ (.refl s) _ e
  case seizureCommit => exact kept_execSeizureCommit _ (.refl s) _ e
  case windowCloseDrained => exact kept_execWindowCloseDrained _ _ (.refl s) _ e
  case bundleIssue => exact kept_execBundleIssue _ _ (.refl s) _ e
  case bundleSplitResume => exact kept_execBundleSplitResume _ _ (.refl s) _ e
  case ifetchMissFill => exact kept_execIfetchMissFill _ _ _ (.refl s) _ e
  case scoreboardRetire => exact kept_execScoreboardRetire _ _ _ (.refl s) _ e
  case stripStagingComplete => exact kept_execStripStagingComplete _ _ (.refl s) _ e
  case stripEnd => exact kept_execStripEnd _ _ (.refl s) _ e
  case vectorOpComplete => exact kept_execVectorOpComplete _ _ (.refl s) _ e
  case gateResultWrite => exact kept_execGateResultWrite _ _ _ (.refl s) _ e
  case idle => exact kept_execIdle _ _ _ (.refl s) _ e
  case turn => exact kept_execTurn _ _ _ (.refl s) _ e
  case turned => exact kept_execTurned _ _ _ (.refl s) _ e
  case sweepHead => exact kept_execSweepHead _ _ _ (.refl s) _ e
  case record => exact kept_execRecord _ _ _ (.refl s) _ e
  case sweepEnd => exact kept_execSweepEnd _ _ _ (.refl s) _ e
  case image => exact kept_execImage _ _ _ (.refl s) _ e
  case blockCheck => exact kept_execBlockCheck _ _ _ (.refl s) _ e
  case requestFirstHalf => exact kept_execRequestFirstHalf _ _ _ _ (.refl s) _ e
  case requestSecondHalf => exact kept_execRequestSecondHalf _ _ _ _ (.refl s) _ e
  case responseFrame => exact kept_execResponseFrame _ _ _ _ _ (.refl s) _ e
  case leatSearchTimeout => exact kept_execLeatSearchTimeout _ (.refl s) _ e
  case masterIdleTimer => exact kept_execMasterIdleTimer _ (.refl s) _ e
  case masteryTakeover => exact kept_execMasteryTakeover _ (.refl s) _ e
  case masterDrivePermitted => exact kept_execMasterDrivePermitted _ (.refl s) _ e
  case endOfLineTimeout => exact kept_execEndOfLineTimeout _ (.refl s) _ e
  case sweepPeriod => exact kept_execSweepPeriod _ (.refl s) _ e
  case sweepStall => exact kept_execSweepStall _ (.refl s) _ e
  case sweepCutTimeout => exact kept_execSweepCutTimeout _ (.refl s) _ e
  case heldRecordTimer => exact kept_execHeldRecordTimer _ (.refl s) _ e
  case refclkRestored => exact kept_execRefclkRestored _ (.refl s) _ e
  case fullFirmwareService => exact kept_execFullFirmwareService _ (.refl s) _ e
  case tapReset => exact kept_execTapReset _ (.refl s) _ e
  case tripComparatorSelfCheck => exact kept_execTripComparatorSelfCheck _ _ (.refl s) _ e
  case operandCacheRefilled => exact kept_execOperandCacheRefilled _ _ (.refl s) _ e
  case aonDomainFailure => exact kept_execAonDomainFailure _ (.refl s) _ e
  all_goals simp [slotRow, mailRow] at hs hm

/-- No command changes what is pinned. -/
theorem kept_exec (i : Instr) (s : State) {t : State} (e : exec i s = .next t) : Kept s t := by
  cases hs : slotRow i with
  | some x =>
    rw [exec_slotRow i _ _ _ _ s hs] at e
    exact Host.Outcome.next.inj e ▸ kept_issueOne _ _ _ _ (slotRow_keeps hs) _ (.refl s)
  | none =>
    cases hm : mailRow i with
    | some x =>
      rw [exec_mailRow i _ _ s hm] at e
      exact Host.Outcome.next.inj e ▸ kept_serveRow _ (mailRow_keeps hm) _ _ (.refl s)
    | none => exact kept_exec_other hs hm e

/-- Settles O3: the queue is one of the things that no command changes. -/
theorem commandsLeaveTheQueue : Obligations.CommandsLeaveTheQueue :=
  fun c s _ e => (kept_exec c s e).2.1

/-- A step runs a command or ticks, and neither changes the fuses or the form of the scratchpad. -/
theorem step_keeps (e : step s = .next t) : t.fuses = s.fuses ∧ (s.memOk → t.memOk) := by
  unfold step at e
  split at e
  · obtain ⟨hf, -, hm⟩ := kept_tick s (.refl s)
    exact Host.Outcome.next.inj e ▸ ⟨hf, hm⟩
  · obtain ⟨hf, -, hm⟩ := kept_exec _ _ e
    exact ⟨hf, hm⟩

/-- Settles O4, by the lemma on every step. -/
theorem fusesNeverChange : Obligations.FusesNeverChange := fun _ _ e => (step_keeps e).1

/-- Settles O5, by the lemma on every step. -/
theorem scratchpadStaysCanonical : Obligations.ScratchpadStaysCanonical := fun _ _ h e => (step_keeps e).2 h

end Sys2Proof.Machine
end

section
/-! PROOFS. The step and the idle machine, the reset, and the reads and writes of whole registers (R578 to R586). -/

namespace Sys2Proof.Machine

/-! ### The queue and the turn tick -/

/-- Settles O1: `step` matches on the queue, whose front is the command. -/
theorem stepRunsTheFrontCommand : Obligations.StepRunsTheFrontCommand := fun _ _ _ => rfl

theorem step_idle {s : State} (h : s.pending = []) : step s = .next (tick s) := by
  simp only [step, h]

/-- The end of a turn edge's holds is a matter of the cores. -/
theorem releaseEdges_fields (s : State) :
    (releaseEdges s).time = s.time ∧ (releaseEdges s).store = s.store ∧ (releaseEdges s).ledger = s.ledger
      ∧ (releaseEdges s).head = s.head := ⟨rfl, rfl, rfl, rfl⟩

/-- What a tick meets at its count takes neither time nor count. -/
theorem atTick_fields (s : State) :
    (atTick s).time.count = s.time.count ∧ (atTick s).time.elapsed = s.time.elapsed ∧ (atTick s).store = s.store
      ∧ (atTick s).ledger = s.ledger ∧ (atTick s).head = s.head := by
  unfold atTick
  split
  · dsimp only
    split
    · exact ⟨rfl, rfl, rfl, rfl, rfl⟩
    · split <;> exact ⟨rfl, rfl, rfl, rfl, rfl⟩
  · dsimp only
    split <;> exact ⟨rfl, rfl, rfl, rfl, rfl⟩

/-- Settles O2: the three branches of `tick`. -/
theorem emptyQueueIsOneTurnTick : Obligations.EmptyQueueIsOneTurnTick := by
  intro s hq
  rw [step_idle hq]
  refine ⟨fun hd => ?_, fun hd hr => ?_, fun hd hr => ⟨_, rfl, ?_⟩⟩
  · simp [tick, hd]
  · simp only [tick, hd, hr, Bool.false_eq_true, if_false, if_true]
    rfl
  · simp only [tick, hd, hr, Bool.false_eq_true, if_false]
    exact atTick_fields _

/-! ### The reset -/

/-- Settles O6: nothing is written in the scratchpad of the reset. -/
theorem resetScratchpadIsCanonical : Obligations.ResetScratchpadIsCanonical := by
  unfold Obligations.ResetScratchpadIsCanonical State.memOk
  decide

/-- Settles O7: the reset is one state, whose registers evaluate. -/
theorem registersReadTheirResetValues : Obligations.RegistersReadTheirResetValues := by
  unfold Obligations.RegistersReadTheirResetValues
  decide +kernel

/-! ### Counters (R331, R584, R585) -/

theorem exec_trnCountLo (via : Transport) {s : State} (h : reachableRegs s = true) :
    exec (.trnCountLo via) s = .next (answerRead (latchCount s via) via 0x050000) := onRegs_of_reachable h _

theorem exec_dbgSlcnCounterRead (via : Transport) (slice : Fin 64) (k : Fin 5) {s : State} (h : reachableRegs s = true) :
    exec (.dbgSlcnCounterRead via slice k) s
      = .next (answerRead (readConflicts s) via (0x0F1000 + 0x20 * (slice : Nat) + 4 * k)) := onRegs_of_reachable h _

/-- TRN_COUNT_HI reads the latch of its transport. -/
theorem readReg_countHi (s : State) (via : Transport) : (readReg s via 0x050004).1 = tget 0 s.time.latches (latchKey via) := rfl

/-- Each transport has its latch. -/
theorem latchKey_injective : Function.Injective latchKey := by
  intro a b h
  cases a <;> cases b <;> first | rfl | cases h

theorem w32_low (c : W64) : w32 c.toNat = c.setWidth 32 := rfl

theorem w32_high (c : W64) : w32 (c.toNat / 2 ^ 32) = (c >>> 32).setWidth 32 := by
  simp [w32, BitVec.toNat_eq, Nat.shiftRight_eq_div_pow]

/-- Settles O16: the latch is written under the key of its transport, and a conflict counter gives the next free value. -/
theorem counterReadsLatchOrClear : Obligations.CounterReadsLatchOrClear := by
  intro via slice k s hs
  refine ⟨⟨_, exec_trnCountLo via hs, ?_, ?_, ?_, ?_⟩, ⟨_, exec_dbgSlcnCounterRead via slice k hs, ?_, ?_⟩⟩
  · rfl
  · rw [readReg_countHi, ← w32_high]
    exact tget_tput_same _ _ _ _
  · intro o ho
    rw [readReg_countHi, readReg_countHi]
    exact tget_tput_ne _ _ (latchKey_injective.ne ho) _
  all_goals rfl

/-! ### REGISTER_WRITE (R580, R581) -/

theorem exec_registerWrite (via : Transport) (off : BitVec 24) (v : W32) {s : State} (h : reachableRegs s = true) :
    exec (.registerWrite via off v) s = .next (writeReg s via off.toNat v) := onRegs_of_reachable h _

/-- R580: the word of an offset is its upper 22 bits. -/
theorem wordOffset_masked (off : BitVec 24) : wordOffset (off &&& 0xFFFFFC).toNat = wordOffset off.toNat := by
  have hdiv : (off.toNat &&& 0xFFFFFC) / 2 ^ 2 = off.toNat / 2 ^ 2 := by
    rw [Nat.and_div_two_pow, show 0xFFFFFC / 2 ^ 2 = 2 ^ 22 - 1 from rfl, Nat.and_two_pow_sub_one_eq_mod]
    omega
  have hand : (off &&& 0xFFFFFC).toNat = off.toNat &&& 0xFFFFFC := BitVec.toNat_and _ _
  unfold wordOffset
  omega

/-- A write depends on the word of its offset alone. -/
theorem writeReg_congr (s : State) (via : Transport) (v : W32) {a b : Nat} (h : wordOffset a = wordOffset b) :
    writeReg s via a v = writeReg s via b v := by
  simp only [writeReg, h]

/-- R593: nothing in the headgate's block takes a write. -/
theorem writeReg_headgate (s : State) (via : Transport) (v : W32) (off : BitVec 24) (h : off.toNat / 0x10000 = 3) :
    writeReg s via off.toNat v = s := by
  have hw : wordOffset off.toNat / 0x10000 = 3 := by
    unfold wordOffset
    omega
  simp only [writeReg, hw]

/-- Bytes put at a place within a list are read back there. -/
theorem slice_patchBytes (l new : List Byte) (o : Nat) (h : o + new.length ≤ l.length) :
    slice (patchBytes l o new) o new.length = new := by
  have ho : (l.take o).length = o := by
    rw [List.length_take]
    omega
  have hdrop : (patchBytes l o new).drop o = new ++ l.drop (o + new.length) := by
    rw [patchBytes, List.append_assoc, List.drop_left' ho]
  simp [slice, hdrop]

theorem padTo_length (n : Nat) (l : List Byte) : (padTo n l).length = n := by
  simp only [padTo, List.length_append, List.length_take, List.length_replicate]
  omega

/-- A word put into a slot is the word that the slot holds. -/
theorem fieldAt_patchBytes (l : List Byte) (o : Nat) (v : W32) (h : o + 4 ≤ 128) :
    fieldAt (patchBytes (padTo 128 l) o (leBytes 4 v.toNat)) o 4 = v.toNat := by
  have hs := slice_patchBytes (padTo 128 l) (leBytes 4 v.toNat) o (by rw [padTo_length, leBytes_length]; exact h)
  rw [leBytes_length] at hs
  rw [fieldAt, hs, leNat_leBytes]
  exact Nat.mod_eq_of_lt v.isLt

/-- R97: the sideband's words of EP0's request ring. -/
theorem writeReg_requestSlot (s : State) (v : W32) (k w : Fin 32) :
    writeReg s .sideband (BitVec.ofNat 24 (0x018000 + 128 * (k : Nat) + 4 * (w : Nat))).toNat v
      = s.setEp 0 (writeSlot (s.ep 0) true k (4 * w) v) := by
  have hoff : (BitVec.ofNat 24 (0x018000 + 128 * (k : Nat) + 4 * (w : Nat))).toNat = 0x018000 + 128 * k + 4 * w := by
    rw [BitVec.toNat_ofNat]
    omega
  have hword : wordOffset (0x018000 + 128 * k + 4 * w) = 0x018000 + 128 * k + 4 * w := by
    unfold wordOffset
    omega
  have hblock : (0x018000 + 128 * (k : Nat) + 4 * w) / 0x10000 = 1 := by omega
  have hrel : (0x018000 + 128 * (k : Nat) + 4 * w) % 0x10000 = 0x8000 + 128 * k + 4 * w := by omega
  have hap : (0x8000 + 128 * (k : Nat) + 4 * w) / 0x1000 = 8 := by omega
  have hk : (0x8000 + 128 * (k : Nat) + 4 * w) % 0x1000 / 128 = k := by omega
  have hw : (0x8000 + 128 * (k : Nat) + 4 * w) % 128 = 4 * w := by omega
  rw [hoff]
  simp only [writeReg, hword, hblock, hrel, writeMailbox, apertureOf, hap, hk, hw]
  exact ownWrite_own s 0 _

/-- Settles O17: a write goes by its word, and a word of the aperture replaces four bytes of its slot. -/
theorem registerWritesReachWholeWords : Obligations.RegisterWritesReachWholeWords := by
  intro off v s hs
  refine ⟨fun via => ?_, exec_registerWrite _ _ v hs, fun via h3 => ?_, fun k w => ?_⟩
  · rw [exec_registerWrite _ _ v hs, exec_registerWrite _ _ v hs, writeReg_congr s via v (wordOffset_masked off)]
  · rw [exec_registerWrite _ _ v hs, writeReg_headgate s via v off h3]
  · refine ⟨_, (exec_registerWrite _ _ v hs).trans (congrArg _ (writeReg_requestSlot s v k w)), ?_, ?_, fun j hj => ?_⟩
    · rw [State.ep_setEp]
    · rw [State.ep_setEp]
      simp only [writeSlot, if_true, tget_tput_same]
      exact fieldAt_patchBytes _ _ v (by omega)
    · rw [State.ep_setEp]
      simp only [writeSlot, if_true]
      exact tget_tput_ne _ _ hj _

/-! ### JTAG (R49 to R52, R602) -/

/-- The cells that SAMPLE/PRELOAD and boundary scan capture are those shown, but for THERM_ALERT_N. -/
theorem captured_seen (s : State) (p : Cells) :
    (captured s p).tx = p.tx ∧ (captured s p).rx = p.rx
      ∧ ∀ i : Fin 16, i ≠ 2 → (captured s p).pins.getLsbD i = p.pins.getLsbD i := by
  have hmask : ∀ i : Fin 16, i ≠ 2 → (0xFFFB : W16).getLsbD i = true := by decide
  unfold captured
  split
  · exact ⟨rfl, rfl, fun i hi => by rw [BitVec.getLsbD_and, hmask i hi, Bool.and_true]⟩
  · exact ⟨rfl, rfl, fun _ _ => rfl⟩

/-- THERM_ALERT_N's cell captures the pin, which is low while the chiplet asserts it. -/
theorem captured_alert (s : State) (p : Cells) :
    (captured s p).pins.getLsbD 2 = (p.pins.getLsbD 2 && !thermAlert s) := by
  unfold captured
  split <;> simp_all

/-- A boundary-scan instruction lets its cell drive THERM_ALERT_N, which a cause of R45 still holds low. -/
theorem thermAlert_boundary (s : State) (code : Byte) (d c : Cells) (h : boundaryCodes.contains code = true) :
    thermAlert { s with tap := { s.tap with ir := code, drive := d, seen := c } } = (alertCause s || !d.pins.getLsbD 2) := by
  simp only [thermAlert, h, Bool.true_and]
  rfl

/-- What the cells drive: THERM_ALERT_N only high while no cause of R45 is present. -/
def driven (s : State) (d : Cells) : Cells := if alertCause s then { d with pins := d.pins &&& 0xFFFB } else d

theorem driven_spec (s : State) (d : Cells) :
    (driven s d).tx = d.tx ∧ (driven s d).pins.getLsbD 2 = (d.pins.getLsbD 2 && !alertCause s) := by
  unfold driven
  split <;> simp_all

/-- R52: where it runs, a boundary-scan instruction loads its code and cells, captures, and shifts both out. -/
theorem boundary_eq {s : State} (hd : s.boot.dead = false) (hst : s.boot.stage = 0 ∨ s.boot.stage = 8) (code : Byte) (d p : Cells) :
    let c := captured { s with tap := { s.tap with ir := code, drive := d } } p
    boundary s code d p = { s with tap := { s.tap with ir := code, drive := d, seen := c }
                                   sent := s.sent ++ [.tdo 112 (cellsValue c), .scan code (driven s d)] } := by
  simp only [boundary, if_pos hst, hd, scanDr, Bool.false_eq_true, if_false, State.emit, List.append_assoc, List.singleton_append]
  rfl

/-- R52: elsewhere it selects BYPASS and shows the refusal. -/
theorem boundary_refused {s : State} (hd : s.boot.dead = false) (h0 : s.boot.stage ≠ 0) (h8 : s.boot.stage ≠ 8) (code : Byte)
    (d p : Cells) :
    boundary s code d p
      = { s with tap := { s.tap with ir := 0xFF, bypass := false, refused := true, last := code }, sent := s.sent ++ [.tdo 1 0] } := by
  simp only [boundary, not_or.mpr ⟨h0, h8⟩, hd, scanDr, Bool.false_eq_true, if_false]
  rfl

/-- Boundary scan captures with its own cell on THERM_ALERT_N. -/
theorem boundary_runs {s : State} (hd : s.boot.dead = false) (hst : s.boot.stage = 0 ∨ s.boot.stage = 8)
    {i : Instr} {code : Byte} (d p : Cells) (hcode : boundaryCodes.contains code = true)
    (hi : exec i s = .next (boundary s code d p)) :
    Completes i s (fun t =>
      t.tap = { s.tap with ir := code, drive := d, seen := t.tap.seen }
      ∧ (t.tap.seen.tx = p.tx ∧ t.tap.seen.rx = p.rx ∧ ∀ i : Fin 16, i ≠ 2 → t.tap.seen.pins.getLsbD i = p.pins.getLsbD i)
      ∧ (thermAlert t = (alertCause s || !d.pins.getLsbD 2)) ∧ t.tap.seen.pins.getLsbD 2 = (p.pins.getLsbD 2 && !thermAlert t)
      ∧ t = { s with tap := t.tap, sent := t.sent }
      ∧ ∃ c, t.sent = s.sent ++ [.tdo 112 (cellsValue t.tap.seen), .scan code c] ∧ c.tx = d.tx
          ∧ c.pins.getLsbD 2 = (d.pins.getLsbD 2 && !alertCause s)) := by
  refine ⟨_, hi.trans (congrArg _ (boundary_eq hd hst code d p)), rfl, captured_seen _ p, ?_, captured_alert _ p, rfl,
    driven s d, rfl, driven_spec s d⟩
  exact thermAlert_boundary s code d _ hcode

theorem scanDr_alive {s : State} (hd : s.boot.dead = false) (t : Tap) (len v : Nat) :
    scanDr s t len v = { s with tap := t, sent := s.sent ++ [.tdo len v] } := by
  simp only [scanDr, hd, Bool.false_eq_true, if_false]
  rfl

theorem loadIr_alive {s : State} (hd : s.boot.dead = false) (code : Byte) : loadIr s code = { s with tap := { s.tap with ir := code } } := by
  simp only [loadIr, hd, Bool.false_eq_true, if_false]

theorem exec_samplePreload {s : State} (hd : s.boot.dead = false) (d p : Cells) :
    exec (.samplePreload d p) s = .next { s with
      tap := { s.tap with ir := 0x02, drive := d, seen := captured s p }
      sent := s.sent ++ [.tdo 112 (cellsValue (captured s p))] } :=
  congrArg Host.Outcome.next (scanDr_alive hd _ _ _)

/-- Settles O18: each row is a load or a scan of the TAP, and boundary scan splits by the stage. -/
theorem jtagInstructionsSelect : Obligations.JtagInstructionsSelect := by
  intro d p s hd
  refine ⟨congrArg _ (scanDr_alive hd _ _ _), congrArg _ (scanDr_alive hd _ _ _),
    ⟨_, exec_samplePreload hd d p, rfl, captured_seen s p, rfl, rfl⟩, congrArg _ (loadIr_alive hd _),
    congrArg _ (loadIr_alive hd _), fun hst => ⟨?_, ?_, ?_⟩, fun h0 h8 => ⟨?_, ?_, ?_⟩⟩
  · exact boundary_runs hd hst d p rfl rfl
  · exact boundary_runs hd hst d p rfl rfl
  · exact boundary_runs hd hst d p rfl rfl
  all_goals exact congrArg _ (boundary_refused hd h0 h8 _ d p)

/-! ### CFG_ACCESS (R602) -/

/-- The bits of a number put together of its fields. -/
theorem capturedWord_fields (data off : Nat) (w done : Bool) :
    (capturedWord data off w done).setWidth 32 = BitVec.ofNat 32 data
      ∧ ((capturedWord data off w done) >>> 32).setWidth 24 = BitVec.ofNat 24 off
      ∧ (capturedWord data off w done).getLsbD 56 = w ∧ (capturedWord data off w done).getLsbD 57 = done
      ∧ (capturedWord data off w done).getLsbD 58 = !done := by
  have hd := Nat.mod_lt data (Nat.two_pow_pos 32)
  have ho := Nat.mod_lt off (Nat.two_pow_pos 24)
  unfold capturedWord
  generalize hx : data % 2 ^ 32 = x at *
  generalize hy : off % 2 ^ 24 = y at *
  refine ⟨?_, ?_, ?_, ?_, ?_⟩
  · apply BitVec.eq_of_toNat_eq
    simp only [BitVec.toNat_setWidth, BitVec.toNat_ofNat, hx]
    cases w <;> cases done <;> simp only [boolNat] <;> omega
  · apply BitVec.eq_of_toNat_eq
    simp only [BitVec.toNat_setWidth, BitVec.toNat_ushiftRight, BitVec.toNat_ofNat, Nat.shiftRight_eq_div_pow, hy]
    cases w <;> cases done <;> simp [boolNat] <;> omega
  all_goals
    simp only [BitVec.getLsbD_ofNat, Nat.testBit_eq_decide_div_mod_eq]
    cases w <;> cases done <;> simp [boolNat] <;> omega

/-- A read of a register changes nothing of the TAP. -/
theorem readReg_tap (s : State) (via : Transport) (off : Nat) : (readReg s via off).2.tap = s.tap := by
  unfold readReg
  dsimp only
  split <;> (repeat' split) <;> rfl

/-- The data register as Update-DR leaves it. -/
def State.captureDr (s : State) (data off : Nat) (w done : Bool) : State :=
  { s with tap := { s.tap with dr := capturedWord data off w done } }

/-- R602: the branches of Update-DR on a chiplet whose TAP holds CFG_ACCESS. -/
theorem exec_cfgAccessUpdateDr {s : State} (hd : s.boot.dead = false) (hir : s.tap.ir = 0x20) (dr : W64) :
    let off := bits dr.toNat 55 32
    exec (.cfgAccessUpdateDr dr) s = .next (
      if dr.getLsbD 57 = false then s
      else if s.boot.rstLow = true then s.fresh.2.captureDr s.fresh.1 off (dr.getLsbD 56) false
      else if dr.getLsbD 56 = true then
        let u := writeReg s .jtag off (w32 dr.toNat)
        u.fresh.2.captureDr u.fresh.1 off true true
      else (readReg s .jtag off).2.captureDr (readReg s .jtag off).1.toNat off false true) := by
  have hbit : ∀ k, bit dr.toNat k = dr.getLsbD k := fun k => rfl
  change execCfgAccessUpdateDr dr s = _
  simp only [execCfgAccessUpdateDr, hbit, hd, hir, reachableRegs, sidebandUp]
  cases dr.getLsbD 57
  · simp
  · cases s.boot.rstLow
    · cases dr.getLsbD 56 <;> simp [State.captureDr]
    · simp [State.captureDr]

theorem bits_offset (dr : W64) : bits dr.toNat 55 32 = ((dr >>> 32).setWidth 24 : BitVec 24).toNat := by
  simp [bits, Nat.shiftRight_eq_div_pow]

/-- Settles O19: the four branches of Update-DR, with the captured word read by its fields. -/
theorem cfgAccessPerformsOneAccess : Obligations.CfgAccessPerformsOneAccess := by
  intro dr s hd hir
  have hrow := exec_cfgAccessUpdateDr hd hir dr
  rw [bits_offset, w32_low] at hrow
  refine ⟨fun hv => ?_, fun hv hr hw => ?_, fun hv hr hw => ?_, fun hv hr => ?_⟩
  · rw [hrow, if_pos hv]
  · simp only [hv, hr, hw, Bool.false_eq_true, Bool.true_eq_false, if_false] at hrow
    refine ⟨_, hrow, ?_⟩
    obtain ⟨hdata, hoff, -, hdone, herr⟩ :=
      capturedWord_fields (readReg s .jtag ((dr >>> 32).setWidth 24 : BitVec 24).toNat).1.toNat
        ((dr >>> 32).setWidth 24 : BitVec 24).toNat false true
    refine ⟨hdata.trans (BitVec.ofNat_toNat _ _), hoff.trans (BitVec.ofNat_toNat _ _), hdone, herr, ?_⟩
    rw [← readReg_tap s .jtag]
    rfl
  · simp only [hv, hr, hw, Bool.false_eq_true, Bool.true_eq_false, if_false, if_true] at hrow
    refine ⟨_, hrow, ?_⟩
    obtain ⟨-, hoff, hwr, hdone, -⟩ := capturedWord_fields (writeReg s .jtag ((dr >>> 32).setWidth 24 : BitVec 24).toNat
      (dr.setWidth 32)).fresh.1 ((dr >>> 32).setWidth 24 : BitVec 24).toNat true true
    have hup : reachableRegs s = true := by
      simp [reachableRegs, sidebandUp, hr, hd]
    refine ⟨hoff.trans (BitVec.ofNat_toNat _ _), hwr, hdone, _,
      exec_registerWrite .jtag ((dr >>> 32).setWidth 24) (dr.setWidth 32) hup, ?_⟩
    generalize writeReg s .jtag ((dr >>> 32).setWidth 24 : BitVec 24).toNat (dr.setWidth 32) = u
    rfl
  · simp only [hv, hr, Bool.true_eq_false, if_false, if_true] at hrow
    refine ⟨_, hrow, ?_⟩
    obtain ⟨-, -, -, hdone, herr⟩ :=
      capturedWord_fields s.fresh.1 ((dr >>> 32).setWidth 24 : BitVec 24).toNat (dr.getLsbD 56) false
    exact ⟨hdone, herr, rfl⟩

end Sys2Proof.Machine
end

section
/-! PROOFS. How a mailbox request is checked, served and answered (R88 to R121). -/

namespace Sys2Proof.Machine

/-! ### Service (R103, R112, R121) -/

/-- A request that nothing holds back is served to its end. -/
theorem exec_servedAtOnce {i : Instr} {c : Cmd} {r : Request} {s : State} (h : mailRow i = some (c, r)) (hs : ServedAtOnce s r) :
    exec i s = .next (serve c r (serviceStart c r s)) := by
  rw [exec_mailRow i c r s h, serveRow_of_servedAtOnce c r s hs]

/-- What passes its checks and is to be carried out commits, and is answered now or later. -/
theorem serve_of_passes {c : Cmd} {r : Request} {u : State} (hp : passes (replyTo c r u).status = true) (hk : r.checkOnly = false) :
    let a := replyTo c r u
    let x := commitStep u c r a
    serve c r u = if a.late then keepWaiting x.1 c r a x.2 else respond x.1 c.code r a.status a.result x.2 := by
  simp only [serve, serveWith, hp, hk, Bool.not_true, Bool.false_eq_true, if_false]

theorem serve_of_not_passes {c : Cmd} {r : Request} {u : State} (hp : passes (replyTo c r u).status = false) :
    serve c r u = respond u c.code r (replyTo c r u).status (replyTo c r u).result none := by
  simp only [serve, serveWith, hp, Bool.not_false, if_true, Option.getD_none, Option.isSome_none, Bool.false_eq_true, if_false]

theorem serve_of_checkOnly {c : Cmd} {r : Request} {u : State} (hp : passes (replyTo c r u).status = true)
    (hk : r.checkOnly = true) : serve c r u = respond u c.code r stOk [] none := by
  simp only [serve, serveWith, hp, hk, Bool.not_true, Bool.false_eq_true, if_false, if_true]

theorem commitStep_none {u : State} {c : Cmd} {r : Request} {a : Reply} (hd : a.detail = none) :
    commitStep u c r a = (a.commit (originOf u c r) u, none) := by
  simp only [commitStep, hd]

theorem commitStep_some {u : State} {c : Cmd} {r : Request} {a : Reply} {d : List Byte} (hd : a.detail = some d) :
    commitStep u c r a = (a.commit (originOf u c r) (append u (commitEntry u c r a d)), some u.ledger.head) := by
  simp only [commitStep, hd]
  rfl

/-- Settles O20: the two branches of the commit and the two ways of answering. -/
theorem mailboxCommandsCommitAndAnswer : Obligations.MailboxCommandsCommitAndAnswer := by
  intro i c r s hi hs
  dsimp only
  intro hp hk
  simp only [exec_servedAtOnce hi hs, serve_of_passes hp hk]
  refine ⟨fun hl hd => ?_, fun d hl hd => ?_, fun hl hd => ?_, fun d hl hd => ?_⟩
  · simp only [commitStep_none hd, hl, Bool.false_eq_true, if_false]
  · simp only [commitStep_some hd, hl, Bool.false_eq_true, if_false]
  · simp only [commitStep_none hd, hl, if_true]
  · simp only [commitStep_some hd, hl, if_true]

/-- Settles O21: the two branches of the service before the commit. -/
theorem refusedAndCheckOnlyCommandsDoNothing : Obligations.RefusedAndCheckOnlyCommandsDoNothing := by
  intro i c r s hi hs
  dsimp only
  rw [exec_servedAtOnce hi hs]
  exact ⟨fun hp => congrArg _ (serve_of_not_passes hp), fun hp hk => congrArg _ (serve_of_checkOnly hp hk)⟩

/-! ### The order of the checks (R88, R89, R91, R103, R112, R513) -/

/-- A check that all commands share and that fails gives the status alone, but for the stage's. -/
theorem replyTo_of_status {c : Cmd} {r : Request} {s : State} {st : W16} (h : generalStatus c r s = some st) (hst : st ≠ stStage) :
    replyTo c r s = Reply.no st := by
  simp only [replyTo, h, if_neg hst]

/-- Settles O22: `generalStatus` branch by branch. -/
theorem checksRunInTheirOrder : Obligations.ChecksRunInTheirOrder := by
  intro c r s
  dsimp only
  refine ⟨fun hw => ?_, fun hw hs => ?_, fun hw hs hu hc => ?_, fun hw hs hu => ?_⟩
  · have hg : generalStatus c r s = some stBadArg := by simp [generalStatus, hw]
    rw [replyTo_of_status hg (by decide)]
    exact ⟨rfl, rfl⟩
  · have hg : generalStatus c r s = some stStage := by simp [generalStatus, hw, hs]
    simp only [replyTo, hg, if_true]
    exact ⟨trivial, trivial⟩
  · have hg : generalStatus c r s = some stUnsupported := by simp [generalStatus, hw, hs, hu, hc]
    rw [replyTo_of_status hg (by decide)]
    rfl
  · have hlane : (r.urgent && !c.urgent) = false := by
      rcases hu with hu | hu <;> simp [hu]
    have hrest : generalStatus c r s = if s.boot.preparing && c.stage == 3 then some stBusy
        else if (stopped s || s.boot.ended) && !c.afterStop then some stConflict else none := by
      simp only [generalStatus, hw, hs, hlane, Bool.not_true, Bool.false_eq_true, if_false]
    have hopen : s.boot.preparing = false ∨ c.stage ≠ 3 → (s.boot.preparing && c.stage == 3) = false := by
      rintro (h | h) <;> simp [h]
    refine ⟨fun hp h3 => ?_, fun ho hst => ?_, fun ho hst => ?_⟩
    · have hg : generalStatus c r s = some stBusy := by rw [hrest]; simp [hp, h3]
      rw [replyTo_of_status hg (by decide)]
      rfl
    · have hg : generalStatus c r s = some stConflict := by
        rw [hrest, hopen ho, hst]
        rfl
      rw [replyTo_of_status hg (by decide)]
      rfl
    · have hg : generalStatus c r s = none := by
        rw [hrest, hopen ho, hst]
        rfl
      simp only [replyTo, hg]

end Sys2Proof.Machine
end

section
/-! PROOFS. What sending touches: the ports, the packets that wait, and what a frame that leaves completes (R376 to R382, R410). -/

namespace Sys2Proof.Machine

/-! ### The parts of the state that sending touches -/

/-- The state `s` with what sending touches as in `t`: the ports, the packets that wait for one, the windows and reads whose data
have left, the ledger with the events that count in it, and what has left. -/
def State.withNet (s t : State) : State :=
  { s with links := t.links, fabric := { s.fabric with waiting := t.fabric.waiting }
           dma := { s.dma with windows := t.dma.windows, reads := t.dma.reads }
           leat := { s.leat with events := t.leat.events }, fw := { s.fw with waiting := t.fw.waiting }
           ledger := t.ledger, sent := t.sent }

/-- A window with other credits: what they touch is its queue and what it remembers of channels that ended. -/
def Window.SameBut (v w : Window) : Prop := ∃ q e, w = { v with queue := q, ended := e }

theorem Window.SameBut.refl (v : Window) : v.SameBut v := ⟨_, _, rfl⟩

theorem Window.SameBut.trans {u v w : Window} (h : u.SameBut v) (k : v.SameBut w) : u.SameBut w := by
  obtain ⟨_, _, rfl⟩ := h
  obtain ⟨_, _, rfl⟩ := k
  exact ⟨_, _, rfl⟩

/-- A port that has sent: what sending touches are its queue, its frames to resend and its credits. -/
def Port.Alike (p p' : Port) : Prop :=
  p' = { p with queue := p'.queue, txSeq := p'.txSeq, credits := p'.credits, replay := p'.replay, owed := p'.owed
                ackDue := p'.ackDue, heard := p'.heard, spaced := p'.spaced, deficit := p'.deficit }

theorem Port.Alike.refl (p : Port) : p.Alike p := rfl

theorem Port.Alike.trans {p p' p'' : Port} (h : p.Alike p') (k : p'.Alike p'') : p.Alike p'' := by
  unfold Port.Alike at *
  rw [k, h]

/-- From `s` to `t` the chiplet has only sent, and changed its reads and the credits of its windows. -/
structure Granting (s t : State) : Prop where
  rest : t = s.withNet t
  sent : s.sent <+: t.sent
  window : ∀ k, (s.window k).SameBut (t.window k)
  port : ∀ k, (s.port k).Alike (t.port k)

/-- From `s` to `t` the chiplet has only sent; without read data that are still leaving no window is touched. -/
structure Sending (s t : State) : Prop extends Granting s t where
  dma : s.dma.reads = [] → t.dma = s.dma

namespace Granting

variable {s t u : State}

theorem refl (s : State) : Granting s s := ⟨rfl, List.prefix_rfl, fun _ => .refl _, fun _ => .refl _⟩

theorem trans (h : Granting s t) (k : Granting t u) : Granting s u where
  rest := by
    rw [k.rest, h.rest]
    rfl
  sent := h.sent.trans k.sent
  window := fun w => (h.window w).trans (k.window w)
  port := fun q => (h.port q).trans (k.port q)

theorem ite {p : Prop} [Decidable p] (h : Granting s t) (k : Granting s u) : Granting s (if p then t else u) := by
  split
  · exact h
  · exact k

/-! What it leaves alone. -/

section
variable (h : Granting s t)
include h

theorem fuses : t.fuses = s.fuses := (congrArg State.fuses h.rest :)
theorem aon : t.aon = s.aon := (congrArg State.aon h.rest :)
theorem boot : t.boot = s.boot := (congrArg State.boot h.rest :)
theorem settings : t.settings = s.settings := (congrArg State.settings h.rest :)
theorem eps : t.eps = s.eps := (congrArg State.eps h.rest :)
theorem svc : t.svc = s.svc := (congrArg State.svc h.rest :)
theorem head : t.head = s.head := (congrArg State.head h.rest :)
theorem tap : t.tap = s.tap := (congrArg State.tap h.rest :)
theorem time : t.time = s.time := (congrArg State.time h.rest :)
theorem die : t.die = s.die := (congrArg State.die h.rest :)
theorem store : t.store = s.store := (congrArg State.store h.rest :)
theorem gateUnit : t.gateUnit = s.gateUnit := (congrArg State.gateUnit h.rest :)
theorem seize : t.seize = s.seize := (congrArg State.seize h.rest :)
theorem free : t.free = s.free := (congrArg State.free h.rest :)
theorem pending : t.pending = s.pending := (congrArg State.pending h.rest :)
theorem fabric : t.fabric = { s.fabric with waiting := t.fabric.waiting } := (congrArg State.fabric h.rest :)
theorem dma_eq : t.dma = { s.dma with windows := t.dma.windows, reads := t.dma.reads } := (congrArg State.dma h.rest :)
theorem fw : t.fw = { s.fw with waiting := t.fw.waiting } := (congrArg State.fw h.rest :)
theorem leat : t.leat = { s.leat with events := t.leat.events } := (congrArg State.leat h.rest :)
theorem fa : t.fa = s.fa := (congrArg (fun u => u.fabric.fa) h.rest :)

end
end Granting

/-! ### The steps of sending -/

namespace Sending

variable {s t u : State}

theorem of_rest (h : t = s.withNet t) (hs : s.sent <+: t.sent) (hd : t.dma = s.dma) (hl : t.links = s.links) : Sending s t :=
  ⟨⟨h, hs, fun k => by rw [State.window, State.window, hd]; exact .refl _, fun k => by rw [State.port, State.port, hl]; exact .refl _⟩,
    fun _ => hd⟩

theorem refl (s : State) : Sending s s := of_rest rfl List.prefix_rfl rfl rfl

theorem trans (h : Sending s t) (k : Sending t u) : Sending s u where
  toGranting := h.toGranting.trans k.toGranting
  dma := fun hr => (k.dma ((congrArg Dma.reads (h.dma hr)).trans hr)).trans (h.dma hr)

theorem ite {p : Prop} [Decidable p] (h : Sending s t) (k : Sending s u) : Sending s (if p then t else u) := by
  split
  · exact h
  · exact k

theorem getD {o : Option State} (h : Sending s t) (k : ∀ v, o = some v → Sending s v) : Sending s (o.getD t) := by
  cases o with
  | none => exact h
  | some v => exact k v rfl

theorem foldl {α : Type} (f : State → α → State) (hf : ∀ s a, Sending s (f s a)) (l : List α) (s : State) :
    Sending s (l.foldl f s) := by
  induction l generalizing s with
  | nil => exact refl s
  | cons a l ih => exact (hf s a).trans (ih _)

theorem emit (s : State) (m : Sent) : Sending s (s.emit m) := of_rest rfl (List.prefix_append _ _) rfl rfl

theorem setPort (s : State) (q : Nat) {p : Port} (hp : (s.port q).Alike p) : Sending s (s.setPort q p) :=
  ⟨⟨rfl, List.prefix_rfl, fun _ => .refl _, fun k => by
    by_cases hk : k = q
    · rw [hk, State.port_setPort]
      exact hp
    · rw [State.port_setPort_ne _ hk]
      exact .refl _⟩, fun _ => rfl⟩

theorem modPort (s : State) (q : Nat) {f : Port → Port} (hf : ∀ p : Port, p.Alike (f p)) : Sending s (s.modPort q f) := setPort s q (hf _)

theorem waiting (s : State) (l : List OutPacket) : Sending s { s with fabric := { s.fabric with waiting := l } } :=
  of_rest rfl List.prefix_rfl rfl rfl

theorem append (s : State) (e : LedgerEntry) : Sending s (append s e) := by
  have hl : ∀ l : Ledger, Sending s (s.setLedger l) := fun l => of_rest rfl List.prefix_rfl rfl rfl
  unfold Machine.append
  exact ite ((hl _).trans (emit _ _)) (hl _)

theorem event (s : State) (c : W16) (d : List Byte) : Sending s (event s c d) := by
  have hc : Sending s (countEvent s) := of_rest rfl List.prefix_rfl rfl rfl
  unfold Machine.event appendLater
  exact hc.trans (ite (of_rest rfl List.prefix_rfl rfl rfl) (append _ _))

theorem discarded (s : State) (r a : Byte) (h : NetHdr) (n : Nat) : Sending s (discarded s r a h n) := event _ _ _

theorem bindTo (s : State) (o : OutPacket) (q vc : Nat) : Sending s (bindTo s o q vc) := modPort _ _ fun _ => rfl

theorem place {o : OutPacket} (h : place s o = some t) : Sending s t := by
  unfold Machine.place at h
  dsimp only at h
  split at h
  · cases h
  · split at h
    · obtain ⟨q, -, rfl⟩ := Option.map_eq_some_iff.mp h
      exact bindTo _ _ _ _
    · split at h
      · obtain ⟨q, -, rfl⟩ := Option.map_eq_some_iff.mp h
        exact bindTo _ _ _ _
      · cases h
        exact waiting _ _

theorem post (s : State) (p : Packet) : Sending s (s.post p) := by
  unfold State.post
  exact ite (refl s) (ite (emit s _) ((emit s _).trans (getD (discarded _ _ _ _ _) fun _ hv => place hv)))

theorem postControl (s : State) (dst : W16) (c : Byte) (b : List Byte) : Sending s (postControl s dst c b) := post _ _

theorem sendGrants (s : State) (k : Nat) (l : List Grant) : Sending s (sendGrants s k l) :=
  foldl _ (fun _ _ => postControl _ _ _ _) _ _

theorem postDone (s : State) (fa : W16) (w o : Byte) (x : W16) (c : Byte) (i : W16) (g : Byte) :
    Sending s (postDone s fa w o x c i g) := postControl _ _ _ _

end Sending

/-! ### Credits that come back -/

theorem Granting.setWindow {s : State} {k : Nat} {w : Window} (hw : (s.window k).SameBut w) : Granting s (s.setWindow k w) := by
  refine ⟨rfl, List.prefix_rfl, fun j => ?_, fun _ => .refl _⟩
  by_cases hj : j = k
  · rw [hj, State.window_setWindow]
    exact hw
  · rw [State.window_setWindow_ne _ hj]
    exact .refl _

theorem Window.sameBut_modEntry (w : Window) (fa : W16) (c : Byte) (f : Grant → Grant) : w.SameBut (w.modEntry fa c f) := ⟨_, _, rfl⟩

theorem Window.sameBut_grantOne (w : Window) : w.SameBut w.grantOne.1 := by
  unfold Window.grantOne
  split
  · exact .refl w
  · split
    · exact .refl w
    · exact ⟨_, _, rfl⟩

theorem Window.sameBut_grantAll (n : Nat) (w : Window) (l : List Grant) : w.SameBut (Window.grantAll n w l).1 := by
  induction n generalizing w l with
  | zero => exact .refl w
  | succ n ih =>
    have h1 := w.sameBut_grantOne
    unfold Window.grantAll
    split
    next v g hg =>
      rw [hg] at h1
      exact h1.trans (ih v _)
    next v hg =>
      rw [hg] at h1
      exact h1

theorem Granting.regrant (s : State) (k : Nat) : Granting s (regrant s k) :=
  (setWindow (Window.sameBut_grantAll _ _ _)).trans (Sending.sendGrants _ _ _).toGranting

theorem Granting.finishPacket (s : State) (h : XferHdr) (o : Byte) (b : Bool) : Granting s (finishPacket s h o b) := by
  have hfree : (s.window (gaWindow h.ga)).SameBut (freeCredit s h b).grantOne.1 :=
    (Window.sameBut_modEntry _ _ _ _).trans (Window.sameBut_grantOne _)
  have hdone : ∀ w g, (s.window (gaWindow h.ga)).SameBut w →
      Granting s (postDone (s.setWindow (gaWindow h.ga) w) h.src (byte (gaWindow h.ga)) o h.xfer h.chan h.index g) :=
    fun w g hw => (setWindow hw).trans (Sending.postDone _ _ _ _ _ _ _ _).toGranting
  unfold Machine.finishPacket
  dsimp only
  split
  next w g hg =>
    rw [hg] at hfree
    exact ite ((hdone _ _ hfree).trans (regrant _ _)) ((hdone _ _ hfree).trans (Sending.sendGrants _ _ _).toGranting)
  next w hg =>
    rw [hg] at hfree
    exact hdone _ _ hfree

theorem Granting.loseUse (s : State) (h : XferHdr) : Granting s (loseUse s h) :=
  (setWindow (Window.sameBut_modEntry _ _ _ _)).trans (regrant _ _)

/-! ### Frames and packets that begin -/

namespace Sending

variable {s t : State}

/-- The end of a read's data answers the read; without reads there is none. -/
theorem readSent (s : State) (p : Packet) : Sending s (readSent s p) := by
  unfold Machine.readSent
  split
  next e he =>
    have hreads : Granting s { s with dma := { s.dma with reads := s.dma.reads.erase e } } :=
      ⟨rfl, List.prefix_rfl, fun _ => .refl _, fun _ => .refl _⟩
    refine ⟨hreads.trans (Granting.finishPacket _ _ _ _), fun hr => ?_⟩
    simp only [readOf, hr, List.find?_nil] at he
    split at he <;> cases he
  next => exact refl s

theorem oweFor (s : State) (o : OutPacket) (n : Nat) : Sending s (oweFor s o n) := by
  unfold Machine.oweFor
  split
  · exact modPort _ _ fun _ => rfl
  · exact refl s

/-- A frame changes its port, leaves, and lets what it completes follow. -/
theorem sendFrame_eq (s : State) (q : Nat) (o : OutPacket) : ∃ p m, (s.port q).Alike p ∧
    let s1 := (s.setPort q p).emit m
    let s2 := if o.abort then s1 else Machine.oweFor s1 o 1
    sendFrame s q o = if o.atLast && !o.abort then Machine.readSent s2 o.pkt else s2 := by
  refine ⟨?p, ?m, ?alike, ?frame⟩
  case frame => exact rfl
  case alike => exact rfl

theorem sendFrame (s : State) (q : Nat) (o : OutPacket) : Sending s (sendFrame s q o) := by
  obtain ⟨p, m, hp, h⟩ := sendFrame_eq s q o
  have h1 : Sending s ((s.setPort q p).emit m) := (setPort _ _ hp).trans (emit _ _)
  have h2 := ite (p := o.abort = true) h1 (h1.trans (oweFor _ o 1))
  rw [h]
  exact ite (h2.trans (readSent _ _)) h2

theorem sendOne (h : sendOne s = some t) : Sending s t := by
  obtain ⟨q, -, hq⟩ := List.exists_of_findSome?_eq_some h
  split at hq
  · obtain ⟨o, -, rfl⟩ := Option.map_eq_some_iff.mp hq
    exact sendFrame _ _ _
  · cases hq

theorem offer {o : OutPacket} (h : offer s o = some t) : Sending s t := by
  unfold Machine.offer at h
  dsimp only at h
  split at h
  next e _ =>
    cases h
    have hbind := fun u => bindTo u o e.1 o.vc
    exact ((waiting _ _).trans (modPort _ _ (f := fun p => { p with deficit := e.2 }) fun _ => rfl)).trans (hbind _)
  next =>
    split at h
    · cases h
      exact (waiting _ _).trans (bindTo _ _ _ _)
    · cases h

theorem startOne (h : startOne s = some t) : Sending s t := by
  obtain ⟨o, -, ho⟩ := List.exists_of_findSome?_eq_some h
  exact offer ho

theorem flushN (n : Nat) (s : State) : Sending s (flushN n s) := by
  induction n generalizing s with
  | zero => exact refl s
  | succ n ih =>
    unfold Machine.flushN
    split
    next t ht => exact (sendOne ht).trans (ih t)
    next =>
      split
      next t ht => exact (startOne ht).trans (ih t)
      next => exact refl s

theorem flush (s : State) : Sending s (flush s) := flushN _ _

theorem send (s : State) (p : Packet) : Sending s (s.send p) := (post s p).trans (flush _)

theorem control (s : State) (dst : W16) (c : Byte) (b : List Byte) : Sending s (control s dst c b) := (postControl s dst c b).trans (flush _)

end Sending

/-- A packet for a chiplet in reach leaves, and it leaves first. -/
theorem post_sent {s : State} {p : Packet} (hfa : s.fa ≠ 0xFFFF) (hr : reachable s p.hdr.dst = true) :
    ∃ l, (s.post p).sent = s.sent ++ .packet p :: l := by
  have hpre : Sending (s.emit (.packet p)) (s.post p) := by
    simp only [State.post, hfa, hr, Bool.not_true, Bool.false_eq_true, or_self, if_false]
    exact Sending.ite (Sending.refl _) (Sending.getD (Sending.discarded _ _ _ _ _) fun _ hv => Sending.place hv)
  obtain ⟨l, hl⟩ := hpre.sent
  exact ⟨l, by rw [← hl, State.emit, List.append_assoc, List.singleton_append]⟩

theorem sends_of_prefix {s t u : State} {p : Packet} (h : Sends s t p) (k : t.sent <+: u.sent) : Sends s u p := by
  obtain ⟨l, hl⟩ := h
  obtain ⟨m, hm⟩ := k
  exact ⟨l ++ m, by rw [← hm, hl, List.append_assoc, List.cons_append]⟩

theorem sends_post {s : State} {p : Packet} (h : Reaches s p.hdr.dst) : Sends s (s.post p) p := post_sent h.1 h.2

theorem sends_send {s : State} {p : Packet} (h : Reaches s p.hdr.dst) : Sends s (s.send p) p :=
  sends_of_prefix (sends_post h) (Sending.flush _).sent

theorem sends_control {s : State} {dst : W16} (h : Reaches s dst) (c : Byte) (b : List Byte) :
    Sends s (control s dst c b) (packet s dst 0 0 (c :: b)) :=
  sends_send (p := packet s dst 0 0 (c :: b)) h

end Sys2Proof.Machine
end

section
/-! PROOFS. Fields of byte lists, and where a response stands (R104, R109 to R111). -/

namespace Sys2Proof.Machine

/-! ### Fields of byte lists -/

/-- The bytes of a slice, one by one: past the end they are zero. -/
theorem slice_eq_map (l : List Byte) (o n : Nat) : slice l o n = (List.range n).map (fun i => l.getD (o + i) 0) := by
  have hlen : (slice l o n).length = n := by
    simp only [slice, List.length_append, List.length_take, List.length_drop, List.length_replicate]
    omega
  apply List.ext_getElem
  · simp [hlen]
  · intro i h1 h2
    simp only [slice, List.getElem_append, List.getElem_map, List.getElem_range, List.length_take, List.length_drop]
    split
    next h => simp [List.getD, List.getElem?_eq_getElem (show o + i < l.length by omega)]
    next h => simp [List.getD, List.getElem?_eq_none (show l.length ≤ o + i by omega)]

theorem slice_congr {l m : List Byte} {o p n : Nat} (h : ∀ i < n, l.getD (o + i) 0 = m.getD (p + i) 0) : slice l o n = slice m p n := by
  rw [slice_eq_map, slice_eq_map]
  exact List.map_congr_left fun i hi => h i (List.mem_range.mp hi)

theorem fieldAt_append_right {l m : List Byte} {o n : Nat} (h : l.length ≤ o) : fieldAt (l ++ m) o n = fieldAt m (o - l.length) n := by
  refine congrArg leNat (slice_congr fun i _ => ?_)
  simp only [List.getD, List.getElem?_append_right (show l.length ≤ o + i by omega)]
  rw [show o + i - l.length = o - l.length + i by omega]

theorem fieldAt_append_left {l m : List Byte} {o n : Nat} (h : o + n ≤ l.length) : fieldAt (l ++ m) o n = fieldAt l o n := by
  refine congrArg leNat (slice_congr fun i hi => ?_)
  simp only [List.getD, List.getElem?_append_left (show o + i < l.length by omega)]

theorem padTo_getD {N i : Nat} (l : List Byte) (h : i < N) : (padTo N l).getD i 0 = l.getD i 0 := by
  simp only [padTo, List.getD]
  by_cases hl : i < l.length
  · rw [List.getElem?_append_left (by simp; omega), List.getElem?_take_of_lt h]
  · rw [List.getElem?_append_right (by simp; omega), List.getElem?_eq_none (Nat.le_of_not_lt hl)]
    rw [List.getElem?_replicate]
    split <;> rfl

/-- A pad only adds the zeros that a field past the end reads anyway. -/
theorem fieldAt_padTo {N o n : Nat} (l : List Byte) (h : o + n ≤ N) : fieldAt (padTo N l) o n = fieldAt l o n :=
  congrArg leNat (slice_congr fun _ _ => padTo_getD l (by omega))

theorem slice_self (l : List Byte) : slice l 0 l.length = l := by simp [slice]

theorem fieldAt_leBytes (n v : Nat) : fieldAt (leBytes n v) 0 n = v % 256 ^ n := by
  have h := slice_self (leBytes n v)
  rw [leBytes_length] at h
  rw [fieldAt, h, leNat_leBytes]

/-- The first field of a list that begins with it. -/
theorem fieldAt_leBytes_append (n v : Nat) (l : List Byte) : fieldAt (leBytes n v ++ l) 0 n = v % 256 ^ n := by
  rw [fieldAt_append_left (by rw [leBytes_length]; omega), fieldAt_leBytes]

/-- A later field of a list that begins with a number. -/
theorem fieldAt_leBytes_skip {k o n : Nat} (v : Nat) (l : List Byte) (h : k ≤ o) :
    fieldAt (leBytes k v ++ l) o n = fieldAt l (o - k) n := by
  rw [fieldAt_append_right (by rw [leBytes_length]; exact h), leBytes_length]

theorem fieldAt_byte (b : Byte) (l : List Byte) : fieldAt (b :: l) 0 1 = b.toNat := by
  simp [fieldAt, slice, leNat]

theorem fieldAt_cons_skip {o n : Nat} (b : Byte) (l : List Byte) (h : 1 ≤ o) : fieldAt (b :: l) o n = fieldAt l (o - 1) n :=
  fieldAt_append_right (l := [b]) h

theorem padTo_of_le {N : Nat} {l : List Byte} (h : l.length ≤ N) : padTo N l = l ++ List.replicate (N - l.length) 0 := by
  rw [padTo, List.take_of_length_le h]

/-! ### The response slot (R104) -/

theorem responseSlot_fields (cmd : W16) (r : Request) (st : W16) (result : List Byte) (q : Option W32) (h : result.length ≤ 112) :
    let l := responseSlot cmd r st result q
    l.length = 128 ∧ fieldAt l 0 2 = cmd.toNat ∧ fieldAt l 2 2 = r.seq.toNat ∧ fieldAt l 4 2 = r.tenant.toNat
    ∧ fieldAt l 6 2 = st.toNat ∧ fieldAt l 8 2 = result.length ∧ fieldAt l 10 4 = (q.getD 0xFFFFFFFF).toNat
    ∧ fieldAt l 14 1 = (if q.isSome then 1 else 0) ∧ (l.drop 16).take result.length = result := by
  have hc := cmd.isLt
  have hs := r.seq.isLt
  have ht := r.tenant.isLt
  have hst := st.isLt
  have hq := (q.getD 0xFFFFFFFF).isLt
  simp only [responseSlot, List.append_assoc]
  refine ⟨padTo_length _ _, ?_, ?_, ?_, ?_, ?_, ?_, ?_, ?_⟩
  case refine_8 =>
    rw [padTo_of_le (by simp [leBytes_length]; omega)]
    simp [leBytes]
  all_goals
    simp (disch := omega) only [fieldAt_padTo, fieldAt_leBytes_skip, fieldAt_leBytes_append, List.cons_append, Nat.reduceSub]
  case refine_7 =>
    rw [fieldAt_byte]
    cases q <;> rfl
  all_goals omega

/-! ### Answering (R109 to R111) -/

/-- An endpoint with the response in its slot: on the urgent lane the lane is free again; on a normal ring COMPLETION moves, and
on EP1 to EP4 the transport logic has acknowledged it (log 84). -/
def Endpoint.answered (p : Endpoint) (e : Nat) (urgent : Bool) (slot : List Byte) : Endpoint :=
  if urgent then { p with urgRsp := slot, busy := false, done := e == 0 || e == 5 }
  else { p with rsp := tput p.rsp (p.comp.toNat % 32) slot, comp := p.comp + 1, ack := if e = 0 ∨ e = 5 then p.ack else p.comp + 1 }

theorem Sending.leatSend (s : State) (k a : Byte) (tag : W16) (b : List Byte) : Sending s (leatSend s k a tag b) := by
  unfold Machine.leatSend
  split
  · exact emit s _
  · exact refl s

theorem Sending.sendLeat (s : State) (u : Bool) (tag : W16) (slot : List Byte) : Sending s (sendLeat s u tag slot) :=
  (leatSend _ _ _ _ _).trans (leatSend _ _ _ _ _)

theorem Sending.sendPeer (s : State) (dst : W16) (slot : List Byte) : Sending s (sendPeer s dst slot) := ite (send _ _) (refl s)

/-- What leaves with a response: the notice of EP0, the two halves on the leat chain, or a packet; EP5's stays for its reader. -/
def answerLeaves (s : State) (r : Request) (slot : List Byte) : State :=
  if r.ep.val = 0 then s.emit (.sideband 0x01 [0, if r.urgent then 1 else 0, byte (s.ep r.ep).comp.toNat])
  else if r.ep.val = 5 then s
  else if r.ep.val = 4 then sendLeat s r.urgent r.srcFa slot
  else sendPeer s r.srcFa slot

/-- A response is written into its endpoint, and then leaves. -/
theorem respond_eq (s : State) (cmd : W16) (r : Request) (st : W16) (result : List Byte) (q : Option W32) :
    let slot := responseSlot cmd r st result q
    respond s cmd r st result q = answerLeaves (s.setEp r.ep ((s.ep r.ep).answered r.ep r.urgent slot)) r slot := by
  dsimp only
  unfold respond answerLeaves Endpoint.answered
  simp only [State.ep_setEp]
  cases r.urgent
  · by_cases h0 : r.ep.val = 0
    · simp [h0]
    · by_cases h5 : r.ep.val = 5 <;> simp [h0, h5]
  · by_cases h0 : r.ep.val = 0
    · simp [h0]
    · by_cases h4 : r.ep.val = 4
      · simp [h4]
      · by_cases h5 : r.ep.val = 5 <;> simp [h0, h4, h5]

theorem Sending.answerLeaves (s : State) (r : Request) (slot : List Byte) : Sending s (answerLeaves s r slot) :=
  ite (emit _ _) (ite (refl s) (ite (sendLeat _ _ _ _) (sendPeer _ _ _)))

theorem respond_ep (s : State) (cmd : W16) (r : Request) (st : W16) (result : List Byte) (q : Option W32) :
    (respond s cmd r st result q).ep r.ep = (s.ep r.ep).answered r.ep r.urgent (responseSlot cmd r st result q) := by
  rw [respond_eq, State.ep, (Sending.answerLeaves _ _ _).eps]
  exact State.ep_setEp _ _ _

/-- Settles O23: the slot by its fields, and the answer as `Endpoint.answered` with what leaves. -/
theorem responsesStandInTheirSlots : Obligations.ResponsesStandInTheirSlots := by
  intro s cmd r st result q hres
  obtain ⟨h1, h2, h3, h4, h5, h6, h7, h8, h9⟩ := responseSlot_fields cmd r st result q hres
  refine ⟨h1, h2, h3, h4, h5, h6, h7, h8, h9, fun hu => ?_, fun hu => ?_, fun h0 => ?_, fun h5 => ?_⟩
  · simp only [respond_ep, Endpoint.answered, hu, Bool.false_eq_true, if_false, tget_tput_same, and_self]
  · simp only [respond_ep, Endpoint.answered, hu, if_true, true_and]
    rw [Bool.decide_or]
    rfl
  · dsimp only
    rw [respond_ep, respond_eq, answerLeaves, if_pos h0, State.ep_setEp]
    rfl
  · rw [respond_ep, respond_eq, answerLeaves, if_neg (by omega), if_pos h5]

end Sys2Proof.Machine
end

section
/-! PROOFS. The commands that only read (R129 to R140, R151, R155, R175, R189). -/

namespace Sys2Proof.Machine

/-! ### Answering with data alone -/

section
variable {i : Instr} {c : Cmd} {r : Request} {s : State}

/-- A command whose body depends on no endpoint and on nothing of the service is answered from the state that it met. -/
theorem answersOnly_of_reading (h : mailRow i = some (c, r)) (ha : Admitted c r s) {st : W16} {l : List Byte}
    (hb : ∀ e v, c.body r { s with eps := e, svc := v } = { status := st, result := l }) : AnswersOnly i c r s st l :=
  answersOnly_of_body i c r s h ha st l (by rw [serviceStart_frame]; exact hb _ _)

theorem wellFormed_of_admitted (ha : Admitted c r s) : wellFormed c r = true := by
  obtain ⟨-, hg, -⟩ := ha
  by_contra hw
  simp [generalStatus, Bool.eq_false_iff.mpr hw] at hg

theorem argLen_le_of_admitted (ha : Admitted c r s) : r.argLen.toNat ≤ 112 := by
  have hw := wellFormed_of_admitted ha
  simp only [wellFormed, Bool.and_eq_true, decide_eq_true_eq] at hw
  exact hw.1.1.1

end

/-! ### Tables within a result -/

theorem ofBits_lt (l : List Bool) : ofBits l < 2 ^ l.length := by
  induction l with
  | nil => decide
  | cons b l ih =>
    have hb : b.toNat ≤ 1 := Bool.toNat_le b
    simp only [ofBits, List.length_cons, pow_succ]
    omega

theorem length_flatMap_const {α : Type} {g : α → List Byte} {k : Nat} (hg : ∀ a, (g a).length = k) (l : List α) :
    (l.flatMap g).length = k * l.length := by
  induction l with
  | nil => rfl
  | cons a l ih => rw [List.flatMap_cons, List.length_append, hg, ih, List.length_cons, Nat.mul_succ, Nat.add_comm]

/-- A field of an entry in a table of entries of one size. -/
theorem fieldAt_flatMap {α : Type} {g : α → List Byte} {k : Nat} (hg : ∀ a, (g a).length = k) (l : List α) {i : Nat}
    (hi : i < l.length) {o n : Nat} (h : o + n ≤ k) : fieldAt (l.flatMap g) (k * i + o) n = fieldAt (g l[i]) o n := by
  induction l generalizing i with
  | nil => simp at hi
  | cons a l ih =>
    rw [List.flatMap_cons]
    cases i with
    | zero =>
      rw [fieldAt_append_left (by rw [hg]; omega)]
      simp
    | succ i =>
      rw [fieldAt_append_right (by rw [hg, Nat.mul_succ]; omega), hg, Nat.mul_succ, show k * i + k + o - k = k * i + o by omega]
      exact ih (Nat.lt_of_succ_lt_succ hi)

/-- A byte of a table of bytes. -/
theorem fieldAt_map_range (f : Nat → Byte) {n i : Nat} (l : List Byte) (h : i < n) :
    fieldAt ((List.range n).map f ++ l) i 1 = (f i).toNat := by
  rw [fieldAt_append_left (by simp; omega)]
  simp [fieldAt, slice_eq_map, leNat, h]

/-! ### Results by their fields -/

theorem pow_256 (n : Nat) : 256 ^ n = 2 ^ (8 * n) := (pow_mul 2 8 n).symm

section
variable (s : State)

theorem statusResult_fields :
    let l := statusResult s
    l.length = 24 ∧ fieldAt l 0 1 = s.boot.stage.toNat ∧ fieldAt l 2 2 = s.fabric.fa.toNat ∧ fieldAt l 4 4 = statusFlags s
      ∧ fieldAt l 16 8 = s.time.count.toNat := by
  have hf : statusFlags s < 2 ^ 12 := ofBits_lt _
  have hfa := s.fabric.fa.isLt
  have hc := s.time.count.isLt
  simp only [statusResult, List.append_assoc, List.cons_append, List.nil_append]
  refine ⟨by simp [leBytes_length], ?_, ?_, ?_, ?_⟩
  all_goals
    simp (disch := omega) only [fieldAt_leBytes_skip, fieldAt_cons_skip, Nat.reduceSub, fieldAt_leBytes_append, fieldAt_byte, fieldAt_leBytes]
  · exact Nat.mod_eq_of_lt hfa
  · omega
  · exact Nat.mod_eq_of_lt hc

theorem identResult_fields :
    let l := identResult s
    l.length = 28 ∧ fieldAt l 0 2 = 0xAB41 ∧ fieldAt l 2 1 = 0x42 ∧ fieldAt l 3 1 = s.fuses.grade.toNat
      ∧ fieldAt l 10 2 = s.fabric.fa.toNat ∧ fieldAt l 12 1 = s.boot.pins.slotId.toNat ∧ fieldAt l 13 1 = s.boot.stage.toNat
      ∧ fieldAt l 14 2 = s.boot.floor.toNat ∧ fieldAt l 16 8 = s.fuses.dieId.toNat ∧ fieldAt l 24 4 = 0x2AB4199B := by
  have hfa := s.fabric.fa.isLt
  have hslot := s.boot.pins.slotId.isLt
  have hfl := s.boot.floor.isLt
  have hd := s.fuses.dieId.isLt
  simp only [identResult, List.append_assoc, List.cons_append, List.nil_append]
  refine ⟨by simp [leBytes_length], ?_, ?_, ?_, ?_, ?_, ?_, ?_, ?_, ?_⟩
  all_goals
    simp (disch := omega) only [fieldAt_leBytes_skip, fieldAt_cons_skip, Nat.reduceSub, fieldAt_leBytes_append, fieldAt_byte, fieldAt_leBytes]
  · rfl
  · rfl
  · exact Nat.mod_eq_of_lt hfa
  · exact Nat.mod_eq_of_lt (show s.boot.pins.slotId.toNat < 2 ^ 8 by omega)
  · omega
  · exact Nat.mod_eq_of_lt hd
  · rfl

theorem opTableBytes_fields :
    let l := opTableBytes s
    l.length = 64 ∧ fieldAt l 0 2 = 600 ∧ fieldAt l 2 2 = 800 ∧ fieldAt l 36 2 = 750 ∧ fieldAt l 38 2 = 1600 ∧ fieldAt l 60 2 = 900
      ∧ fieldAt l 62 2 = 1900 := by
  have hlen : ∀ i, (leBytes 2 (opPoint s i).1 ++ leBytes 2 (opPoint s i).2).length = 4 := fun i => by simp [leBytes_length]
  have hv : ∀ i, i < 16 → fieldAt (opTableBytes s) (4 * i) 2 = (opPoint s i).1 % 256 ^ 2 := fun i hi => by
    rw [← Nat.add_zero (4 * i), opTableBytes, fieldAt_flatMap hlen _ (by simpa using hi) (by omega), fieldAt_leBytes_append,
      List.getElem_range]
  have hm : ∀ i, i < 16 → fieldAt (opTableBytes s) (4 * i + 2) 2 = (opPoint s i).2 % 256 ^ 2 := fun i hi => by
    rw [opTableBytes, fieldAt_flatMap hlen _ (by simpa using hi) (by omega), fieldAt_leBytes_skip _ _ (by omega), Nat.sub_self,
      fieldAt_leBytes, List.getElem_range]
  exact ⟨length_flatMap_const hlen _, hv 0 (by omega), hm 0 (by omega), hv 9 (by omega), hm 9 (by omega), hv 15 (by omega), hm 15 (by omega)⟩

theorem fuseResult_fields :
    let l := fuseResult s
    l.length = 25 ∧ fieldAt l 0 8 = s.fuses.fusedOff.toNat ∧ fieldAt l 8 1 = s.fuses.grade.toNat
      ∧ fieldAt l 16 8 = s.fuses.dieId.toNat := by
  have hf := s.fuses.fusedOff.isLt
  have hd := s.fuses.dieId.isLt
  simp only [fuseResult, List.append_assoc, List.cons_append, List.nil_append]
  refine ⟨by simp [leBytes_length], ?_, ?_, ?_⟩
  all_goals
    simp (disch := omega) only [fieldAt_leBytes_skip, fieldAt_cons_skip, Nat.reduceSub, fieldAt_leBytes_append, fieldAt_byte]
  · exact Nat.mod_eq_of_lt hf
  · exact Nat.mod_eq_of_lt hd

theorem linkResult_fields (p : Port) :
    let l := stateSummary p ++ leBytes 4 (stateTime s p) ++ leBytes 4 p.corr.toNat ++ leBytes 4 p.uncorr.toNat
      ++ leBytes 4 p.retry.toNat ++ leBytes 2 p.retrains.toNat ++ [0, 0]
    l.length = 24 ∧ fieldAt l 0 1 = p.state.toNat ∧ fieldAt l 1 1 = p.partnerPort.toNat ∧ fieldAt l 2 2 = p.partnerFa.toNat
      ∧ fieldAt l 8 4 = p.corr.toNat ∧ fieldAt l 12 4 = p.uncorr.toNat ∧ fieldAt l 16 4 = p.retry.toNat
      ∧ fieldAt l 20 2 = p.retrains.toNat := by
  have hfa := p.partnerFa.isLt
  have hc := p.corr.isLt
  have hu := p.uncorr.isLt
  have hr := p.retry.isLt
  have ht := p.retrains.isLt
  simp only [stateSummary, List.append_assoc, List.cons_append, List.nil_append]
  refine ⟨by simp [leBytes_length], ?_, ?_, ?_, ?_, ?_, ?_, ?_⟩
  all_goals
    simp (disch := omega) only [fieldAt_leBytes_skip, fieldAt_cons_skip, Nat.reduceSub, fieldAt_leBytes_append, fieldAt_byte]
  all_goals omega

theorem timeResult_fields :
    let l := timeResult s
    l.length = 28 ∧ fieldAt l 0 8 = s.time.count.toNat ∧ fieldAt l 8 2 = s.time.gmFa.toNat ∧ fieldAt l 11 1 = s.time.hops.toNat
      ∧ fieldAt l 16 4 = s.time.period.toNat := by
  have hc := s.time.count.isLt
  have hg := s.time.gmFa.isLt
  have hp := s.time.period.isLt
  simp only [timeResult, List.append_assoc, List.cons_append, List.nil_append]
  refine ⟨by simp [leBytes_length], ?_, ?_, ?_, ?_⟩
  all_goals
    simp (disch := omega) only [fieldAt_leBytes_skip, fieldAt_cons_skip, Nat.reduceSub, fieldAt_leBytes_append, fieldAt_byte]
  · exact Nat.mod_eq_of_lt hc
  · omega
  · omega

theorem fwStatusResult_fields :
    let l := fwStatusResult s
    l.length = 64 ∧ fieldAt l 0 1 = fwState s ∧ fieldAt l 8 56 = maskOf (missingBlocks s) % 2 ^ 448 := by
  have hf : fwState s < 7 := by
    unfold fwState
    (repeat' split) <;> omega
  simp only [fwStatusResult, List.append_assoc, List.cons_append, List.nil_append]
  refine ⟨by simp [leBytes_length], ?_, ?_⟩
  all_goals
    simp (disch := omega) only [fieldAt_leBytes_skip, fieldAt_cons_skip, Nat.reduceSub, fieldAt_byte, fieldAt_leBytes]
  · exact Nat.mod_eq_of_lt (show fwState s < 2 ^ 8 by omega)
  · simp only [pow_256, Nat.reduceMul]

end

/-! ### The bodies where they pass their checks -/

section
variable (r : Request) (s : State)

theorem echo_result (hl : r.args.length = 112) (hn : r.argLen.toNat ≤ 112) :
    r.argBytes 16 r.argLen.toNat = r.args.take r.argLen.toNat := by
  simp [Request.argBytes, slice, hl, hn]

/-- LEDGER.READ of one entry that the ring holds (R139). -/
theorem ledger_read_one {e : LedgerEntry} {q : W32} (he : s.ledger.held q = some e) (h0 : 0 < (s.ledger.head - q).toNat)
    (h31 : (s.ledger.head - q).toNat < 2 ^ 31) : s.ledger.read q 1 = ([e], false) := by
  have hd : ¬((s.ledger.head - q).toNat = 0 ∨ 2 ^ 31 ≤ (s.ledger.head - q).toNat) := by omega
  have hmin : min 1 (s.ledger.head - q).toNat = 1 := by omega
  simp only [Ledger.read, if_neg hd, hmin]
  simp [he]

theorem ledgerReadBody_one {e : LedgerEntry} (he : s.ledger.held (BitVec.ofNat 32 (r.arg 16 4)) = some e) (h1 : r.arg 20 1 = 1)
    (h0 : 0 < (s.ledger.head - BitVec.ofNat 32 (r.arg 16 4)).toNat)
    (h31 : (s.ledger.head - BitVec.ofNat 32 (r.arg 16 4)).toNat < 2 ^ 31) :
    ledgerReadBody r s = Reply.data ([1, 0, 0, 0] ++ leBytes 4 s.ledger.head.toNat ++ e.bytes) := by
  simp only [ledgerReadBody, h1, ledger_read_one s he h0 h31]
  simp [byte]

theorem routeReadBody_ok (ht : r.arg 16 1 ≤ 1) (h1 : 1 ≤ r.arg 17 1) (h12 : r.arg 17 1 ≤ 12) (h20 : r.arg 20 1 = 0)
    (hs : r.arg 18 2 + r.arg 17 1 ≤ tableSize (r.arg 16 1)) :
    routeReadBody r s = Reply.data (leBytes 2 s.fabric.generation.toNat ++ List.replicate 6 0
      ++ (List.range (r.arg 17 1)).flatMap (fun i => leBytes 8 (tget 0 (s.fabric.active.table (r.arg 16 1)) (r.arg 18 2 + i)).toNat)) := by
  have hok : ¬(1 < r.arg 16 1 ∨ r.arg 17 1 = 0 ∨ 12 < r.arg 17 1 ∨ 1 < r.arg 20 1 ∨ tableSize (r.arg 16 1) < r.arg 18 2 + r.arg 17 1) := by
    omega
  rw [routeReadBody, if_neg hok, if_pos h20]

theorem routeRead_fields (n f : Nat) (k : Tab W64) :
    let l := leBytes 2 s.fabric.generation.toNat ++ List.replicate 6 0 ++ (List.range n).flatMap (fun i => leBytes 8 (tget 0 k (f + i)).toNat)
    fieldAt l 0 2 = s.fabric.generation.toNat ∧ ∀ i, i < n → fieldAt l (8 + 8 * i) 8 = (tget 0 k (f + i)).toNat := by
  have hlen : ∀ i, (leBytes 8 (tget 0 k (f + i)).toNat).length = 8 := fun i => leBytes_length _ _
  refine ⟨?_, fun i hi => ?_⟩
  · rw [List.append_assoc, fieldAt_leBytes_append]
    exact Nat.mod_eq_of_lt s.fabric.generation.isLt
  · have hpre : (leBytes 2 s.fabric.generation.toNat ++ List.replicate 6 (0 : Byte)).length = 8 := by simp [leBytes_length]
    rw [fieldAt_append_right (by omega), hpre, Nat.add_sub_cancel_left, ← Nat.add_zero (8 * i), fieldAt_flatMap hlen _ (by simpa using hi) (by omega),
      fieldAt_leBytes, List.getElem_range]
    exact Nat.mod_eq_of_lt (tget 0 k (f + i)).isLt

theorem linkStateBody_port (h : r.arg 16 1 < 20) :
    let p := s.port (r.arg 16 1)
    linkStateBody r s = Reply.data (stateSummary p ++ leBytes 4 (stateTime s p) ++ leBytes 4 p.corr.toNat ++ leBytes 4 p.uncorr.toNat
      ++ leBytes 4 p.retry.toNat ++ leBytes 2 p.retrains.toNat ++ [0, 0]) := by
  simp only [linkStateBody, if_neg (show r.arg 16 1 ≠ 0xFF by omega), if_neg (show ¬20 ≤ r.arg 16 1 by omega)]

theorem sweepResultBody_own (h : r.arg 16 1 ≤ 19) (hm : s.leat.master = true ∨ r.arg 16 1 = (ownSlot s).toNat) :
    let e := tget ⟨0, 2, []⟩ s.leat.table (r.arg 16 1)
    sweepResultBody r s = Reply.data (leBytes 4 e.seq.toNat ++ [e.reach, 0, 0, 0] ++ padTo 64 e.bytes) := by
  have hno : ¬((!s.leat.master) = true ∧ r.arg 16 1 ≠ (ownSlot s).toNat) := by
    rintro ⟨h1, h2⟩
    rcases hm with hm | hm
    · simp [hm] at h1
    · exact h2 hm
  simp only [sweepResultBody, if_neg (show ¬19 < r.arg 16 1 by omega), if_neg hno]

theorem settingsGetBody_current {k : SettingKey} (hk : settingKey (BitVec.ofNat 16 (r.arg 16 2)) = some k) (h0 : r.arg 18 1 = 0) :
    settingsGetBody r s = Reply.data (leBytes 2 k.key.toNat
      ++ [byte k.size, if pendingIn s k = settingIn s.settings.current k then 0 else 1] ++ settingIn s.settings.current k) := by
  simp [settingsGetBody, hk, h0]

theorem peekBody_memory (hsp : r.arg 16 1 = 1) (hb : debugBad r 96 = false) (hp : poweredRange s (debugAddr r) (debugLength r) = true)
    (hf : firstBad s.mem (debugAddr r) (debugLength r) = none) :
    peekBody r s = Reply.data ([0, 0, 0, 0] ++ s.mem.read (debugAddr r) (debugLength r)) := by
  simp only [peekBody, hsp, hb, hp, hf, Bool.not_true, Bool.false_eq_true, if_false]

end

/-- Settles O24: each body by its own equation, and each result by its fields. -/
theorem readingCommandsReturnTheirFields : Obligations.ReadingCommandsReturnTheirFields := by
  intro r s
  refine ⟨fun ha => ?_, fun ha hl => ?_, fun ha => ?_, fun ha => ?_, fun ha => ?_, fun ha => ?_, fun ha hb => ?_, fun ha h0 => ?_,
    fun k hk ha h0 => ?_, fun e he ha h1 h0 h31 => ?_, fun ha ht h1 h12 h20 hs => ?_, fun ha hq => ?_, fun ha => ?_, fun ha hk hm => ?_,
    fun ha => ?_, fun ha hsp hb hp hf => ?_⟩
  · exact answersOnly_of_reading rfl ha fun _ _ => rfl
  · exact answersOnly_of_reading rfl ha fun _ _ => congrArg Reply.data (echo_result r hl (argLen_le_of_admitted ha))
  · exact ⟨_, answersOnly_of_reading rfl ha fun _ _ => rfl, statusResult_fields s⟩
  · exact ⟨_, answersOnly_of_reading rfl ha fun _ _ => rfl, identResult_fields s⟩
  · exact ⟨_, answersOnly_of_reading rfl ha fun _ _ => rfl, opTableBytes_fields s⟩
  · exact ⟨_, answersOnly_of_reading rfl ha fun _ _ => rfl, fuseResult_fields s⟩
  · refine ⟨(List.range 64).map (runCode s (r.arg 16 1)), answersOnly_of_reading rfl ha fun _ _ => if_neg (by omega), by simp, fun n => ?_⟩
    simpa using fieldAt_map_range (runCode s (r.arg 16 1)) [] n.isLt
  · refine ⟨gradeResult s 0, answersOnly_of_reading rfl ha fun _ _ => ?_, ?_, fun n => ?_⟩
    · exact (if_neg (by omega)).trans (by rw [h0]; rfl)
    · simp [gradeResult, leBytes_length]
    · simp only [gradeResult, if_true, List.append_assoc]
      exact fieldAt_map_range (gradeByte s) _ n.isLt
  · exact answersOnly_of_reading rfl ha fun _ _ => settingsGetBody_current r _ hk h0
  · exact answersOnly_of_reading rfl ha fun _ _ => ledgerReadBody_one r _ he h1 h0 h31
  · exact ⟨_, answersOnly_of_reading rfl ha fun _ _ => routeReadBody_ok r s ht h1 h12 h20 hs, routeRead_fields s _ _ _⟩
  · exact ⟨_, answersOnly_of_reading rfl ha fun _ _ => linkStateBody_port r s hq, linkResult_fields s _⟩
  · exact ⟨_, answersOnly_of_reading rfl ha fun _ _ => rfl, timeResult_fields s⟩
  · exact answersOnly_of_reading rfl ha fun _ _ => sweepResultBody_own r _ hk hm
  · exact ⟨_, answersOnly_of_reading rfl ha fun _ _ => rfl, fwStatusResult_fields s⟩
  · exact answersOnly_of_reading rfl ha fun _ _ => peekBody_memory r _ hsp hb hp hf

end Sys2Proof.Machine
end

section
/-! PROOFS. The settings, power and gate commands: what their commits leave (R136, R140, R182 to R184). -/

namespace Sys2Proof.Machine

/-! ### Commits with an entry, answered at once -/

/-- The state in which a commit runs: the request taken, and its entry appended. -/
def committing (c : Cmd) (r : Request) (s : State) (a : Reply) (d : List Byte) : State :=
  append (serviceStart c r s) (commitEntry (serviceStart c r s) c r a d)

/-- It differs from the state before in the endpoints, the service, the ledger and what has left. -/
theorem committing_eq (c : Cmd) (r : Request) (s : State) (a : Reply) (d : List Byte) :
    ∃ e v l m, committing c r s a d = { s with eps := e, svc := v, ledger := l, sent := m } ∧ l.head = s.ledger.head + 1 := by
  let u := serviceStart c r s
  let x := append u (commitEntry u c r a d)
  have hu : ({ u with ledger := x.ledger, sent := x.sent } : State) = { s with eps := u.eps, svc := u.svc, ledger := x.ledger, sent := x.sent } :=
    congrArg (fun w : State => { w with ledger := x.ledger, sent := x.sent }) (serviceStart_frame c r s)
  refine ⟨u.eps, u.svc, x.ledger, x.sent, (append_frame _ _).trans hu, ?_⟩
  exact (append_head _ _).trans (by simp [u])

section
variable {i : Instr} {c : Cmd} {r : Request} {s : State} {a : Reply} {d : List Byte}

/-- A command that passes its own checks in whatever the endpoints and the service hold, and what its commit leaves. -/
theorem answeredAfter_of_commit (h : mailRow i = some (c, r)) (ha : Admitted c r s)
    (hb : ∀ e v, c.body r { s with eps := e, svc := v } = a) (hl : a.late = false) (hd : a.detail = some d)
    (hp : passes a.status = true) {p : State → Prop}
    (hf : ∀ o e v l m, l.head = s.ledger.head + 1 → p (a.commit o { s with eps := e, svc := v, ledger := l, sent := m })) :
    AnsweredAfter i c r s a.status a.result (some s.ledger.head) p := by
  refine answeredAfter_of_body i c r s h ha a d p (by rw [serviceStart_frame]; exact hb _ _) hl hd hp ?_
  obtain ⟨e, v, l, m, heq, hl⟩ := committing_eq c r s a d
  rw [← committing, heq]
  exact hf _ e v l m hl

/-- The same, for a command whose commit is one function of the state. -/
theorem commitsWith_of_commit (h : mailRow i = some (c, r)) (ha : Admitted c r s) {st : W16} {result : List Byte}
    {g : Origin → State → State} {f : State → State}
    (hb : ∀ e v, c.body r { s with eps := e, svc := v } = { status := st, result := result, detail := some d, commit := g })
    (hp : passes st = true)
    (hf : ∀ o e v l m, g o { s with eps := e, svc := v, ledger := l, sent := m } = f { s with eps := e, svc := v, ledger := l, sent := m }) :
    CommitsWith i c r s st result d f := by
  have hbody : c.body r (serviceStart c r s) = { status := st, result := result, detail := some d, commit := g } := by
    rw [serviceStart_frame]
    exact hb _ _
  have hledger : (serviceStart c r s).ledger = s.ledger := by simp
  obtain ⟨e, v, l, m, heq, -⟩ := committing_eq c r s { status := st } d
  have hcommit : g (originOf (serviceStart c r s) c r) (committing c r s { status := st } d) = f (committing c r s { status := st } d) := by
    rw [heq]
    exact hf _ e v l m
  rw [CommitsWith, exec_admitted i c r s h ha, admittedState, hbody]
  simp only [hp, Bool.true_eq_false, if_false, commitStep_some (a := { status := st, result := result, detail := some d, commit := g }) rfl,
    Bool.false_eq_true, hledger]
  exact congrArg (fun t => Host.Outcome.next (respond t c.code r st result (some s.ledger.head))) hcommit

end

/-! ### Settings (R136, R140) -/

theorem settingsSetBody_ok {r : Request} {k : SettingKey} (s : State) (hk : settingKey (BitVec.ofNat 16 (r.arg 16 2)) = some k)
    (hw : k.writable = true) (hsize : r.arg 18 1 = k.size) (hlo : k.lo ≤ leNat (r.argBytes 20 k.size))
    (hhi : leNat (r.argBytes 20 k.size) ≤ k.hi) :
    settingsSetBody r s
      = { detail := some (leBytes 2 k.key.toNat ++ [byte k.size, 0] ++ leBytes 4 (crc32c (r.argBytes 20 k.size)))
          commit := fun _ t => setSettings t { t.settings with
            pending := setSetting t.settings.pending k.key (r.argBytes 20 k.size) } } := by
  have hok : (!k.writable || r.arg 18 1 != k.size || decide (leNat (r.argBytes 20 k.size) < k.lo)
      || decide (k.hi < leNat (r.argBytes 20 k.size))) = false := by
    simp only [hw, hsize, Nat.not_lt.mpr hlo, Nat.not_lt.mpr hhi, bne_self_eq_false, decide_false, Bool.not_true, Bool.or_self]
  simp only [settingsSetBody, hk, hok, Bool.false_eq_true, if_false]

/-- What SETTINGS.COMMIT does with the pending values, by its action. -/
def settleSettings (a : Nat) (t : State) : State :=
  if a = 0 then
    let u := writeBank t (mergedSettings t) (nextCommit t)
    setSettings u { u.settings with pending := [] }
  else if a = 1 then setSettings t { t.settings with pending := [] }
  else setSettings t { t.settings with pending := writableDefaults }

theorem settingsCommitBody_ok {r : Request} {s : State} (ha : r.arg 20 1 < 2) (hc : r.arg 21 1 = 0) (hh : s.fw.hand = none)
    (hp : s.settings.pending ≠ []) :
    ∃ d, settingsCommitBody r s = { detail := some d, commit := fun _ => settleSettings (r.arg 20 1) } := by
  have hargs : ¬(2 < r.arg 20 1 ∨ 1 < r.arg 21 1) := by omega
  have hhand : ¬s.fw.hand.isSome = true := by simp [hh]
  have hcheck : ¬(r.arg 21 1 = 1 ∧ lastSet s ≠ some (BitVec.ofNat 32 (r.arg 16 4))) := by omega
  have hempty : ¬(r.arg 20 1 < 2 ∧ s.settings.pending.isEmpty = true) := by simp [hp]
  exact ⟨_, (if_neg hargs).trans ((if_neg hhand).trans ((if_neg hcheck).trans (if_neg hempty)))⟩

/-- Settles O25: the bodies where they pass, and their commits on the state after the entry. -/
theorem settingsAreStagedAndThenCommitted : Obligations.SettingsAreStagedAndThenCommitted := by
  intro r s
  refine ⟨fun k hk hw ha hsize hlo hhi => ?_, fun ha h0 hc hh hp => ?_, fun ha h1 hc hh hp => ?_, fun ha => ?_⟩
  · exact commitsWith_of_commit rfl ha (fun _ _ => settingsSetBody_ok s hk hw hsize hlo hhi) rfl fun _ _ _ _ _ => rfl
  · obtain ⟨d, hd⟩ := settingsCommitBody_ok (by omega) hc hh hp
    refine answeredAfter_of_commit rfl ha (fun _ _ => hd) rfl rfl rfl fun o e v l m hl => ?_
    simp only [settleSettings, if_pos h0]
    exact ⟨rfl, rfl, hl, _, rfl, rfl, rfl, rfl⟩
  · obtain ⟨d, hd⟩ := settingsCommitBody_ok (by omega) hc hh hp
    refine answeredAfter_of_commit rfl ha (fun _ _ => hd) rfl rfl rfl fun o e v l m hl => ?_
    simp only [settleSettings, h1, Nat.one_ne_zero, if_false, if_true]
    exact ⟨rfl, hl⟩
  · refine answeredAfter_of_body _ _ _ _ rfl ha { detail := some (r.argBytes 16 8), mark := true } _ _ rfl rfl rfl rfl ?_
    have he := append_entry (serviceStart cmdLedgerMark r s)
      (commitEntry (serviceStart cmdLedgerMark r s) cmdLedgerMark r { detail := some (r.argBytes 16 8), mark := true } (r.argBytes 16 8))
    have hf := append_flag (serviceStart cmdLedgerMark r s)
      (commitEntry (serviceStart cmdLedgerMark r s) cmdLedgerMark r { detail := some (r.argBytes 16 8), mark := true } (r.argBytes 16 8)) 3
    simp only [serviceStart_fields] at he hf
    obtain ⟨hseq, -, -, -, hcmd, -, -, -, hdetail⟩ := he
    refine ⟨by simp, hdetail, hf ?_, hcmd, hseq, ?_, ?_, ?_, ?_⟩
    · cases hu : r.urgent <;> simp [commitEntry, hu]
    all_goals simp

end Sys2Proof.Machine
end

section
/-! PROOFS. The power commands and readings (R183, R184, R491, R494 to R499, R514 to R518). -/

namespace Sys2Proof.Machine

/-! ### The choice of an operating point after a command (R496) -/

/-- Choosing the operating point changes the headgate's reasons, its change in progress and its request number, and what leaves. -/
theorem evalPoint_eq (s : State) : ∃ q c n m,
    evalPoint s = { s with head := { s.head with reasons := q, change := c, reqNum := n }, sent := m } := by
  have hr : ∃ q, pointReasons s = { s with head := { s.head with reasons := q } } := ⟨_, rfl⟩
  obtain ⟨q, hq⟩ := hr
  unfold evalPoint
  rw [hq]
  dsimp only
  split
  · exact ⟨_, _, _, _, rfl⟩
  · split
    · split
      · exact ⟨_, _, _, _, rfl⟩
      · exact ⟨_, _, _, _, rfl⟩
    · split <;> exact ⟨_, _, _, _, rfl⟩

/-- A power command leaves what its change leaves, but for the reasons, the change of the point and what has left. -/
theorem powerEntry_commits {i : Instr} {c : Cmd} {r : Request} {s : State} {f : State → State} (h : mailRow i = some (c, r))
    (ha : Admitted c r s) (hb : ∀ e v, c.body r { s with eps := e, svc := v } = powerEntry r f) {p : State → Prop}
    (hf : ∀ e v l m, l.head = s.ledger.head + 1 →
      ∀ q g n k, let u := f { s with eps := e, svc := v, ledger := l, sent := m }
        p { u with head := { u.head with reasons := q, change := g, reqNum := n }, sent := k }) :
    AnsweredAfter i c r s stOk [] (some s.ledger.head) p :=
  answeredAfter_of_commit h ha hb rfl rfl rfl fun o e v l m hl => by
    obtain ⟨q, g, n, k, heq⟩ := evalPoint_eq (f { s with eps := e, svc := v, ledger := l, sent := m })
    change p (evalPoint (f { s with eps := e, svc := v, ledger := l, sent := m }))
    rw [heq]
    exact hf e v l m hl q g n k

/-! ### The bodies where they pass (R183, R184, R495 to R499) -/

section
variable {r : Request} {s : State}

theorem capBody_ok (hlo : 100 ≤ r.arg 16 2) (hhi : r.arg 16 2 ≤ 450) (hp : s.head.pace = none) :
    capBody r s = powerEntry r (fun s => modHead s (fun h => { h with cap := r.arg 16 2 })) := by
  simp only [capBody, if_neg (show ¬(r.arg 16 2 < 100 ∨ 450 < r.arg 16 2) by omega), hp, Option.any_none, Bool.false_eq_true, if_false]

theorem capBody_bad (h : r.arg 16 2 < 100 ∨ 450 < r.arg 16 2) : capBody r s = Reply.no stBadArg := if_pos h

theorem paceBody_on (hon : r.arg 16 1 = 1) (hop : r.arg 17 1 = 0 ∨ r.arg 17 1 = 9 ∨ r.arg 17 1 = 15)
    (hduty : 5 ≤ paceDuty s (r.arg 17 1) s.head.cap) :
    paceBody r s = powerEntry r (fun s => modHead s (fun h => { h with pace := some (r.arg 17 1), paceBudget := [], capCeil := 15 })) := by
  have hargs : ¬(1 < r.arg 16 1 ∨ 15 < r.arg 17 1 ∨ (r.arg 16 1 = 1 ∧ r.arg 17 1 ≠ 0 ∧ r.arg 17 1 ≠ 9 ∧ r.arg 17 1 ≠ 15)) := by omega
  have hslow : ¬(r.arg 16 1 = 1 ∧ paceDuty s (r.arg 17 1) s.head.cap < 5) := by omega
  rw [paceBody, if_neg hargs, if_neg hslow]
  simp only [hon, if_true]

theorem preferBody_ok (hb : r.arg 16 1 ≤ 31) (hph : r.arg 17 1 ≤ 3) (hop : r.arg 18 1 ≤ 15) (hex : (s.basin (r.arg 16 1)).state ≠ .free) :
    preferBody r s = powerEntry r (fun s => s.modBasin (r.arg 16 1) (fun v =>
      { v with prefer := tput v.prefer (r.arg 17 1) (byte (r.arg 18 1)) })) := by
  have hargs : ¬(31 < r.arg 16 1 ∨ 3 < r.arg 17 1 ∨ (15 < r.arg 18 1 ∧ r.arg 18 1 ≠ 0xFF)) := by omega
  have hno : ¬(!exists_ s (r.arg 16 1)) = true := by simp [exists_, hex]
  rw [preferBody, if_neg hargs, if_neg hno]
  simp only [if_neg (show r.arg 18 1 ≠ 0xFF by omega)]

/-- A point with the limits of the command 70, 80, 90. -/
theorem withLimits_const (ha : r.arg 17 1 = 70) (ht : r.arg 18 1 = 80) (hp : r.arg 19 1 = 90) (p : TempPoint) :
    withLimits r p = { p with alert := 70, throttle := 80, trip := 90 } := by
  simp only [withLimits, ha, ht, hp]
  rfl

theorem limitsBody_ok (hk : r.arg 16 1 ≤ 71) (ha : r.arg 17 1 = 70) (ht : r.arg 18 1 = 80) (hp : r.arg 19 1 = 90) :
    limitsBody r s = powerEntry r (setLimits r) := by
  have hpt : limitPoints (r.arg 16 1) = [r.arg 16 1] := if_neg (by omega)
  have hord : ∀ p : TempPoint, limitsOrdered (withLimits r p) = true := fun p => by
    rw [withLimits_const ha ht hp]
    rfl
  simp only [limitsBody, hpt]
  refine if_neg ?_
  simp only [List.any_cons, hord, ha, ht, hp, tripFused]
  simp
  omega

/-- The headgate with the limits 70, 80 and 90 at a point. -/
def Head.limitedAt (h : Head) (k : Nat) : Head :=
  let p : TempPoint := tget {} h.points k
  let h1 : Head := { h with points := tput h.points k { p with alert := 70, throttle := 80, trip := 90 } }
  { h1 with alerting := alertAfter h1 }

/-- A limit above the temperature trips nothing. -/
theorem setLimits_point (hk : r.arg 16 1 ≤ 71) (ha : r.arg 17 1 = 70) (ht : r.arg 18 1 = 80) (hp : r.arg 19 1 = 90)
    (hcool : (tget {} s.head.points (r.arg 16 1)).temp < 90) :
    setLimits r s = { s with head := s.head.limitedAt (r.arg 16 1) } := by
  have hpt : limitPoints (r.arg 16 1) = [r.arg 16 1] := if_neg (by omega)
  simp only [setLimits, hpt, List.foldl_cons, List.foldl_nil, withLimits_const ha ht hp, hp, if_neg (show (90 : Nat) ≠ 0 by decide),
    modHead, setHead, List.find?_cons, List.find?_nil, tget_tput_same, decide_eq_false (Int.not_le.mpr hcool)]
  rfl

end

theorem State.basin_modBasin (s : State) (b : Nat) (f : Basin → Basin) : (s.modBasin b f).basin b = f (s.basin b) :=
  State.basin_setBasin _ _ _

/-- A preference that is put in stands at its phase. -/
theorem prefer_put (s : State) (b ph : Nat) (op : Byte) :
    tget 0xFF ((s.modBasin b (fun v => { v with prefer := tput v.prefer ph op })).basin b).prefer ph = op := by
  rw [State.basin_modBasin]
  exact tget_tput_same _ _ _ _

/-- Settles O26: each body where it passes puts its argument in force, and the point chosen after it leaves that alone. -/
theorem powerCommandsSetTheirLimits : Obligations.PowerCommandsSetTheirLimits := by
  intro r s
  refine ⟨fun ha hlo hhi hp => ?_, fun ha hbad => ?_, fun ha h5 => ?_, fun ha h1 h50 => ?_, fun ha hbad => ?_, fun ha hon hop hd => ?_,
    fun ha hb hph hop hex => ?_, fun ha hk h70 h80 h90 hcool => ?_⟩
  · exact powerEntry_commits rfl ha (fun _ _ => capBody_ok hlo hhi hp) fun _ _ _ _ hl _ _ _ _ => ⟨rfl, rfl, hl, rfl, rfl, rfl⟩
  · exact answersOnly_of_reading rfl ha fun _ _ => capBody_bad (s := s) hbad
  · exact powerEntry_commits rfl ha (fun _ _ => if_neg (by omega)) fun _ _ _ _ hl _ _ _ _ => ⟨rfl, rfl, hl, rfl, rfl, rfl⟩
  · exact powerEntry_commits rfl ha (fun _ _ => if_neg (by omega)) fun _ _ _ _ hl _ _ _ _ => ⟨rfl, rfl, hl, rfl, rfl, rfl⟩
  · exact answersOnly_of_reading rfl ha fun _ _ => if_pos (by omega)
  · exact powerEntry_commits rfl ha (fun _ _ => paceBody_on hon hop hd) fun _ _ _ _ hl _ _ _ _ => ⟨rfl, rfl, hl, rfl, rfl, rfl⟩
  · exact powerEntry_commits rfl ha (fun _ _ => preferBody_ok hb hph hop hex) fun _ _ _ _ hl _ _ _ _ =>
      ⟨prefer_put _ _ _ _, rfl, hl, rfl, rfl, rfl⟩
  · refine powerEntry_commits rfl ha (fun _ _ => limitsBody_ok hk h70 h80 h90) fun e v l m hl _ _ _ _ => ?_
    rw [setLimits_point (s := { s with eps := e, svc := v, ledger := l, sent := m }) hk h70 h80 h90 hcool]
    exact ⟨tget_tput_same _ _ _ _, rfl, hl, rfl, rfl, rfl⟩

/-! ### Readings (R183, R491, R494, R514, R516) -/

theorem numbers_length (f n : Nat) : (numbers f n).length = n := by simp [numbers]

theorem numbers_getElem (f n k : Nat) (h : k < (numbers f n).length) : (numbers f n)[k] = f + k := by
  simp [numbers, Nat.add_comm]

/-- A table of readings under the turn count. -/
theorem reading_fields {g : Nat → List Byte} (hg : ∀ k, (g k).length = 8) (s : State) (f n : Nat) :
    let l := leBytes 8 s.time.count.toNat ++ (numbers f n).flatMap g
    l.length = 8 + 8 * n ∧ fieldAt l 0 8 = s.time.count.toNat
      ∧ ∀ k o m, k < n → o + m ≤ 8 → fieldAt l (8 + 8 * k + o) m = fieldAt (g (f + k)) o m := by
  refine ⟨?_, ?_, fun k o m hk h => ?_⟩
  · rw [List.length_append, leBytes_length, length_flatMap_const hg, numbers_length]
  · rw [fieldAt_leBytes_append]
    exact Nat.mod_eq_of_lt s.time.count.isLt
  · rw [fieldAt_leBytes_skip _ _ (by omega), show 8 + 8 * k + o - 8 = 8 * k + o by omega,
      fieldAt_flatMap hg _ (by rw [numbers_length]; exact hk) h, numbers_getElem]

theorem estimResult_fields (h : Head) :
    (estimResult h).length = 12 ∧ fieldAt (estimResult h) 8 4 = (if h.fitted then satTo 32 h.fitAge else 0xFFFFFFFF) := by
  have hsat : (if h.fitted then satTo 32 h.fitAge else 0xFFFFFFFF) < 256 ^ 4 := by
    unfold satTo
    (repeat' split) <;> omega
  simp only [estimResult, tenths, List.append_assoc, List.cons_append, List.nil_append]
  refine ⟨by simp [leBytes_length], ?_⟩
  simp (disch := omega) only [fieldAt_leBytes_skip, fieldAt_cons_skip, Nat.reduceSub, fieldAt_leBytes]
  exact Nat.mod_eq_of_lt hsat

theorem throttleBody_ok {r : Request} {s : State} (h1 : 1 ≤ r.arg 17 1) (h12 : r.arg 16 1 + r.arg 17 1 ≤ 12) :
    throttleBody r s = Reply.data (leBytes 8 s.time.count.toNat ++ (numbers (r.arg 16 1) (r.arg 17 1)).flatMap (fun k =>
      leBytes 4 (tget {} s.head.reasons k).us.toNat ++ leBytes 4 (tget {} s.head.reasons k).count.toNat)) :=
  if_neg (by omega)

theorem energyBody_ok {r : Request} {s : State} (h1 : 1 ≤ r.arg 17 1) (h12 : r.arg 17 1 ≤ 12) (h33 : r.arg 16 1 + r.arg 17 1 ≤ 33) :
    energyBody r s = Reply.data (leBytes 8 s.time.count.toNat
      ++ (numbers (r.arg 16 1) (r.arg 17 1)).flatMap (fun a => leBytes 8 (energyTotal s a))) :=
  if_neg (by omega)

/-- Settles O27: the readings are tables under the turn count; a dither command sets its switch. -/
theorem powerReadingsReturnTheTotals : Obligations.PowerReadingsReturnTheTotals := by
  intro r s
  refine ⟨fun ha h1 h12 => ?_, fun ha h1 h12 h33 => ?_, fun ha => ?_, fun ha h1 => ?_⟩
  · obtain ⟨hlen, hcount, hrow⟩ := reading_fields (g := fun k =>
      leBytes 4 (tget {} s.head.reasons k).us.toNat ++ leBytes 4 (tget {} s.head.reasons k).count.toNat)
      (fun k => by simp [leBytes_length]) s (r.arg 16 1) (r.arg 17 1)
    refine ⟨_, answersOnly_of_reading rfl ha fun _ _ => throttleBody_ok (s := s) h1 h12, hlen, hcount, fun k hk => ⟨?_, ?_⟩⟩
    · refine (hrow k 0 4 hk (by omega)).trans ((fieldAt_leBytes_append _ _ _).trans ?_)
      exact Nat.mod_eq_of_lt (BitVec.isLt _)
    · rw [show 12 + 8 * k = 8 + 8 * k + 4 by omega]
      refine (hrow k 4 4 hk (by omega)).trans ((fieldAt_leBytes_skip _ _ (by omega)).trans ((fieldAt_leBytes _ _).trans ?_))
      exact Nat.mod_eq_of_lt (BitVec.isLt _)
  · obtain ⟨hlen, hcount, hrow⟩ := reading_fields (g := fun a => leBytes 8 (energyTotal s a)) (fun k => leBytes_length _ _) s
      (r.arg 16 1) (r.arg 17 1)
    refine ⟨_, answersOnly_of_reading rfl ha fun _ _ => energyBody_ok (s := s) h1 h12 h33, hlen, hcount, fun k hk => ?_⟩
    refine (hrow k 0 8 hk (by omega)).trans ((fieldAt_leBytes _ _).trans (Nat.mod_eq_of_lt ?_))
    unfold energyTotal
    split <;> omega
  · exact ⟨_, answersOnly_of_reading rfl ha fun _ _ => rfl, estimResult_fields s.head⟩
  · refine powerEntry_commits rfl ha (fun _ _ => if_neg (by omega)) fun _ _ _ _ _ _ _ _ _ => ?_
    dsimp only [setHead]
    rw [if_neg (by omega)]
    exact ⟨rfl, rfl, rfl⟩

end Sys2Proof.Machine
end

section
/-! PROOFS. The gate commands (R182, R446, R447, R461). -/

namespace Sys2Proof.Machine

/-! ### Gates that nobody waits at -/

section
variable {s : State} {g : Nat}

theorem touchGate_unowned (h : (s.gate g).basin = none) (who : Option Nat) : touchGate s g who = s := by
  simp only [touchGate, h]

theorem State.setGate_setGate (s : State) (g : Nat) (v w : Gate) : (s.setGate g v).setGate g w = s.setGate g w := by
  simp [State.setGate]

/-- Waking at a gate without waiters leaves the gate as it is. -/
theorem wake_none (h : (s.gate g).waiters = []) (p : Waiter → Bool) (word : Waiter → W64) :
    wake s g p word = s.setGate g (s.gate g) := by
  have hg : ({ s.gate g with waiters := [] } : Gate) = s.gate g := by
    rw [← h]
  simp only [wake, h, List.filter_nil, List.foldl_nil, hg]

/-- The gate that GATE.INIT leaves: its epoch stays. -/
def initedGate (r : Request) (g : Gate) : Gate :=
  { g with kind := gateKindOf (r.arg 17 1), value := BitVec.ofNat 64 (r.arg 20 8), lease := none, reach := 30000 }

/-- GATE.INIT of a free gate without basin, lease and limit. -/
theorem initGate_free {r : Request} (h18 : r.arg 18 1 = 0xFF) (h19 : r.arg 19 1 = 0) (h32 : r.arg 32 4 = 0)
    (hd : (s.gate (r.arg 16 1)).dead = none) (hh : (s.gate (r.arg 16 1)).holder = none) (hw : (s.gate (r.arg 16 1)).waiters = [])
    (hb : (s.gate (r.arg 16 1)).basin = none) :
    initGate r s = s.setGate (r.arg 16 1) (initedGate r (s.gate (r.arg 16 1))) := by
  generalize hk : r.arg 16 1 = k at *
  generalize hg : s.gate k = g at *
  have hinit : ({ g with
      kind := gateKindOf (r.arg 17 1), value := BitVec.ofNat 64 (r.arg 20 8), basin := none, holder := none, dead := none
      lease := none, reach := 30000 } : Gate) = initedGate r g := by
    rw [initedGate, ← hd, ← hb, ← hh]
  have hinitw : (initedGate r g).waiters = [] := hw
  have hinitb : (initedGate r g).basin = none := hb
  have hwake : ∀ p word, wake (s.setGate k (initedGate r g)) k p word = s.setGate k (initedGate r g) := fun p word => by
    rw [wake_none (by rw [State.gate_setGate]; exact hinitw), State.gate_setGate, State.setGate_setGate]
  unfold initGate
  simp only [hk, touchGate_unowned (hg ▸ hb), h18, h19, h32, hg, if_true, if_neg (show (0 : Nat) ≠ 1 by decide)]
  have hs2 : ∀ p word, ((if g.kind = gateKindOf (r.arg 17 1) then s else wake s k p word).gate k = g)
      ∧ ∀ v, (if g.kind = gateKindOf (r.arg 17 1) then s else wake s k p word).setGate k v = s.setGate k v := fun p word => by
    split
    · exact ⟨hg, fun _ => rfl⟩
    · rw [wake_none (hg ▸ hw), hg]
      exact ⟨State.gate_setGate _ _ _, fun v => State.setGate_setGate _ _ _ _⟩
  simp only [(hs2 _ _).1, (hs2 _ _).2, hinit]
  rw [touchGate_unowned (by rw [State.gate_setGate]; exact hinitb)]
  split
  · exact hwake _ _
  · split
    · rfl
    · exact hwake _ _
  · rfl

end

/-! ### The bodies where they pass, and their results -/

theorem gateInitBody_ok {r : Request} {s : State} (hk : r.arg 16 1 ≤ 127) (h17 : r.arg 17 1 ≤ 3) (h18 : r.arg 18 1 = 0xFF)
    (h19 : r.arg 19 1 = 0) (h32 : r.arg 32 4 = 0) (hv : initOk (r.arg 17 1) (BitVec.ofNat 64 (r.arg 20 8)) = true)
    (hd : (s.gate (r.arg 16 1)).dead = none) (hh : (s.gate (r.arg 16 1)).holder = none) (hw : (s.gate (r.arg 16 1)).waiters = []) :
    gateInitBody r s = { detail := some (gateDetail (r.arg 16 1) (r.arg 17 1) 0xFF (s.gate (r.arg 16 1)).epoch)
                         commit := fun _ s => initGate r s } := by
  have hargs : ¬(127 < r.arg 16 1 ∨ 3 < r.arg 17 1 ∨ (31 < 0xFF ∧ (0xFF : Nat) ≠ 0xFF) ∨ 1 < 0
      ∨ (!initOk (r.arg 17 1) (BitVec.ofNat 64 (r.arg 20 8))) = true ∨ ((0 : Nat) = 1 ∧ r.arg 28 4 < 1000)
      ∨ ((0 : Nat) ≠ 0 ∧ 0 < 100)) := by
    simp only [hv]
    simp
    omega
  simp only [gateInitBody, h18, h19, h32, if_neg hargs, hd, hh, hw]
  simp

theorem gateReadBody_ok {r : Request} {s : State} (hk : r.arg 16 1 ≤ 127) :
    cmdGateRead.body r s = { status := if (s.gate (r.arg 16 1)).dead.isSome then stOrphaned else stOk
                             result := gateResult24 s (r.arg 16 1) } := if_neg (by omega)

theorem gateResult24_fields (s : State) (k : Nat) :
    (gateResult24 s k).length = 24 ∧ fieldAt (gateResult24 s k) 4 8 = (s.gate k).value.toNat
      ∧ fieldAt (gateResult24 s k) 0 1 = gateKindCode (s.gate k).kind := by
  have hcode : gateKindCode (s.gate k).kind < 256 := by
    cases (s.gate k).kind <;> decide
  simp only [gateResult24, List.append_assoc, List.cons_append, List.nil_append]
  refine ⟨by simp [leBytes_length], ?_, ?_⟩
  all_goals
    simp (disch := omega) only [fieldAt_cons_skip, Nat.reduceSub, fieldAt_leBytes_append, fieldAt_byte]
  · exact Nat.mod_eq_of_lt (s.gate k).value.isLt
  · exact Nat.mod_eq_of_lt hcode

/-- GATE.CLEAN of a lock in no basin that nobody waits at. -/
theorem cleanGate_free {s : State} {k : Nat} (hw : (s.gate k).waiters = []) (hb : (s.gate k).basin = none) :
    cleanGate k s = s.setGate k { s.gate k with dead := none, holder := none } := by
  simp only [cleanGate, touchGate_unowned hb, grantNext, State.gate_setGate, hw]

theorem gateCleanBody_ok {r : Request} {s : State} {d : DeadOwner} (hk : r.arg 16 1 ≤ 127) (hd : (s.gate (r.arg 16 1)).dead = some d)
    (he : d.epoch.toNat = r.arg 20 4) :
    cmdGateClean.body r s = { detail := some (gateDetail (r.arg 16 1) (gateKindCode (s.gate (r.arg 16 1)).kind)
                                ((s.gate (r.arg 16 1)).basin.getD 0xFF) d.epoch)
                              commit := fun _ s => cleanGate (r.arg 16 1) s } := by
  simp only [cmdGateClean, if_neg (show ¬127 < r.arg 16 1 by omega), hd, he, ne_eq, not_true_eq_false, if_false]

theorem gateCleanBody_none {r : Request} {s : State} (hk : r.arg 16 1 ≤ 127) (hd : (s.gate (r.arg 16 1)).dead = none) :
    cmdGateClean.body r s = Reply.no stConflict := by
  simp only [cmdGateClean, if_neg (show ¬127 < r.arg 16 1 by omega), hd]

/-- A gate that is set is the only one that changes. -/
theorem setGate_only (s : State) (k : Nat) (g : Gate) :
    (s.setGate k g).gate k = g ∧ (∀ j, j ≠ k → (s.setGate k g).gate j = s.gate j) :=
  ⟨State.gate_setGate _ _ _, fun _ hj => State.gate_setGate_ne _ hj _⟩

/-- Settles O29: each commit sets its gate. -/
theorem gateCommandsSetReadAndClean : Obligations.GateCommandsSetReadAndClean := by
  intro r s
  refine ⟨fun ha hk h17 h18 h19 h32 hv hd hh hw hb => ?_, fun ha hk => ?_, fun d ha hk hd he hw hb => ?_, fun ha hk hd => ?_⟩
  · refine answeredAfter_of_commit rfl ha (fun _ _ => gateInitBody_ok hk h17 h18 h19 h32 hv hd hh hw) rfl rfl rfl fun o e v l m hl => ?_
    have hinit := initGate_free (s := { s with eps := e, svc := v, ledger := l, sent := m }) h18 h19 h32 hd hh hw hb
    have honly := setGate_only { s with eps := e, svc := v, ledger := l, sent := m } (r.arg 16 1) (initedGate r (s.gate (r.arg 16 1)))
    dsimp only
    rw [hinit]
    exact ⟨honly.1, honly.2, rfl, rfl, hl⟩
  · exact ⟨_, answersOnly_of_reading rfl ha fun _ _ => gateReadBody_ok (s := s) hk, gateResult24_fields s _⟩
  · refine answeredAfter_of_commit rfl ha (fun _ _ => gateCleanBody_ok hk hd he) rfl rfl rfl fun o e v l m hl => ?_
    have hclean := cleanGate_free (s := { s with eps := e, svc := v, ledger := l, sent := m }) (k := r.arg 16 1) hw hb
    have honly := setGate_only { s with eps := e, svc := v, ledger := l, sent := m } (r.arg 16 1)
      { s.gate (r.arg 16 1) with dead := none, holder := none }
    dsimp only
    rw [hclean]
    exact ⟨honly.1, honly.2, rfl, rfl⟩
  · exact answersOnly_of_reading rfl ha fun _ _ => gateCleanBody_none (s := s) hk hd

end Sys2Proof.Machine
end

section
/-! PROOFS. What gate operations, resets, transfers and reductions touch, and what they leave (R60 to R66, R362 to R364, R441 to
R445, R455 to R462). -/

namespace Sys2Proof.Machine

/-- From `s` to `t` a window has at most been closed. -/
def Window.Down (v w : Window) : Prop := w.basin = v.basin ∧ (w.state = v.state ∨ w.state = .closed)

theorem Window.Down.refl (v : Window) : v.Down v := ⟨rfl, .inl rfl⟩

theorem Window.Down.trans {u v w : Window} (h : u.Down v) (k : v.Down w) : u.Down w := by
  obtain ⟨hb, hs⟩ := h
  obtain ⟨kb, ks⟩ := k
  refine ⟨kb.trans hb, ?_⟩
  rcases ks with ks | ks
  · rw [ks]
    exact hs
  · exact .inr ks

theorem Window.SameBut.down {v w : Window} (h : v.SameBut w) : v.Down w := by
  obtain ⟨_, _, rfl⟩ := h
  exact ⟨rfl, .inl rfl⟩

/-- From `s` to `t` only the dies' cores and gates, the transfers, the bytes of the scratchpad and what sending touches have changed,
and windows have at most been closed. -/
structure Acting (s t : State) : Prop where
  rest : t = { s.withNet t with
    die := t.die, gateUnit := t.gateUnit, dma := t.dma
    store := { s.store with mem := t.store.mem, found := t.store.found, gen := t.store.gen } }
  sent : s.sent <+: t.sent
  window : ∀ k, (s.window k).Down (t.window k)

theorem Granting.acting {s t : State} (h : Granting s t) : Acting s t where
  rest := by
    rw [h.rest]
    rfl
  sent := h.sent
  window := fun k => (h.window k).down

theorem Sending.acting {s t : State} (h : Sending s t) : Acting s t := h.toGranting.acting

namespace Acting

variable {s t u : State}

theorem refl (s : State) : Acting s s := ⟨rfl, List.prefix_rfl, fun _ => .refl _⟩

theorem trans (h : Acting s t) (k : Acting t u) : Acting s u where
  rest := by
    rw [k.rest, h.rest]
    rfl
  sent := h.sent.trans k.sent
  window := fun w => (h.window w).trans (k.window w)

/-- The later step first: what it begins from is known from what it ends in. -/
theorem after (k : Acting t u) (h : Acting s t) : Acting s u := h.trans k

theorem ite {p : Prop} [Decidable p] (h : Acting s t) (k : Acting s u) : Acting s (if p then t else u) := by
  split
  · exact h
  · exact k

theorem foldl {α : Type} (f : State → α → State) (hf : ∀ s a, Acting s (f s a)) (l : List α) (s : State) : Acting s (l.foldl f s) := by
  induction l generalizing s with
  | nil => exact refl s
  | cons a l ih => exact (hf s a).trans (ih _)

/-! What it leaves alone. -/

section
variable (h : Acting s t)
include h

theorem aon : t.aon = s.aon := (congrArg State.aon h.rest :)
theorem boot : t.boot = s.boot := (congrArg State.boot h.rest :)
theorem settings : t.settings = s.settings := (congrArg State.settings h.rest :)
theorem eps : t.eps = s.eps := (congrArg State.eps h.rest :)
theorem svc : t.svc = s.svc := (congrArg State.svc h.rest :)
theorem head : t.head = s.head := (congrArg State.head h.rest :)
theorem time : t.time = s.time := (congrArg State.time h.rest :)
theorem seize : t.seize = s.seize := (congrArg State.seize h.rest :)
theorem segs : t.store.segs = s.store.segs := (congrArg (fun u => u.store.segs) h.rest :)
theorem seg (k : Nat) : t.seg k = s.seg k := (congrArg (fun u => u.seg k) h.rest :)
theorem store : t.store = { s.store with mem := t.store.mem, found := t.store.found, gen := t.store.gen } :=
  (congrArg State.store h.rest :)
theorem fa : t.fa = s.fa := (congrArg (fun u => u.fabric.fa) h.rest :)
theorem fabric : t.fabric = { s.fabric with waiting := t.fabric.waiting } := (congrArg State.fabric h.rest :)

end

/-! ### One field at a time -/

theorem ofDie (s : State) (d : Die) : Acting s { s with die := d } := ⟨rfl, List.prefix_rfl, fun _ => .refl _⟩
theorem ofGates (s : State) (g : GateUnit) : Acting s { s with gateUnit := g } := ⟨rfl, List.prefix_rfl, fun _ => .refl _⟩
theorem ofDma (s : State) {d : Dma} (hw : d.windows = s.dma.windows) : Acting s { s with dma := d } :=
  ⟨rfl, List.prefix_rfl, fun k => by
    change (s.window k).Down (tget {} d.windows k)
    rw [hw]
    exact .refl _⟩
theorem ofReds (s : State) (l : List RedEntry) : Acting s { s with dma := { s.dma with reds := l } } := ofDma s rfl
theorem ofMem (s : State) (m : Memory) (f : List Found) (g : Nat) :
    Acting s { s with store := { s.store with mem := m, found := f, gen := g } } := ⟨rfl, List.prefix_rfl, fun _ => .refl _⟩

theorem setCore (s : State) (n : Nat) (c : Core) : Acting s (s.setCore n c) := ofDie s _
theorem modCore (s : State) (n : Nat) (f : Core → Core) : Acting s (s.modCore n f) := ofDie s _
theorem setBasin (s : State) (b : Nat) (v : Basin) : Acting s (s.setBasin b v) := ofDie s _
theorem modBasin (s : State) (b : Nat) (f : Basin → Basin) : Acting s (s.modBasin b f) := ofDie s _
theorem setNode (s : State) (n : Nat) (v : NodeState) : Acting s (s.setNode n v) := ofDie s _
theorem setGate (s : State) (g : Nat) (v : Gate) : Acting s (s.setGate g v) := ofGates s _
theorem setChan (s : State) (c : Nat) (v : Channel) : Acting s (s.setChan c v) := ofDma s rfl
theorem write (s : State) (a : Nat) (l : List Byte) : Acting s (s.write a l) := ofMem s _ _ _
theorem forget (s : State) (a n : Nat) : Acting s (s.forget a n) := ofMem s _ _ _
theorem note (s : State) (b : Option Nat) (c : Byte) (p : Nat → Bool) : Acting s (s.note b c p) := by
  unfold State.note
  split
  · exact ofMem s _ _ _
  · exact refl s
theorem noteRead (s : State) (b : Option Nat) (c : Byte) (a n : Nat) : Acting s (s.noteRead b c a n) := note _ _ _ _

theorem appendLater (s : State) (e : LedgerEntry) : Sending s (appendLater s e) := by
  unfold Machine.appendLater
  exact Sending.ite (Sending.of_rest rfl List.prefix_rfl rfl rfl) (Sending.append _ _)

theorem background (s : State) (o : Origin) (r : W16) (d : List Byte) : Acting s (background s o r d) := (appendLater _ _).acting
theorem event (s : State) (c : W16) (d : List Byte) : Acting s (event s c d) := (Sending.event _ _ _).acting
theorem control (s : State) (dst : W16) (c : Byte) (b : List Byte) : Acting s (control s dst c b) := (Sending.control _ _ _ _).acting
theorem send (s : State) (p : Packet) : Acting s (s.send p) := (Sending.send _ _).acting
theorem flush (s : State) : Acting s (flush s) := (Sending.flush _).acting
theorem postDone (s : State) (fa : W16) (w o : Byte) (x : W16) (c : Byte) (i : W16) (g : Byte) :
    Acting s (postDone s fa w o x c i g) := (Sending.postDone _ _ _ _ _ _ _ _).acting
theorem packetDone (s : State) (fa : W16) (w o : Byte) (x : W16) (c : Byte) (i : W16) (g : Byte) :
    Acting s (packetDone s fa w o x c i g) := (postDone _ _ _ _ _ _ _ _).trans (flush _)

/-! ### Gates -/

theorem deliverHere (s : State) (tag : W32) (w : W64) (d : Option W64) : Acting s (deliverHere s tag w d) := ofDie s _
theorem deliver (s : State) (w : Waiter) (v : W64) : Acting s (deliver s w v) := ite (deliverHere _ _ _ _) (send _ _)

theorem grantNext (s : State) (g : Nat) : Acting s (grantNext s g) := by
  unfold Machine.grantNext
  dsimp only
  split
  · exact (setGate _ _ _).trans (deliver _ _ _)
  · exact refl s

theorem orphan (s : State) (g : Nat) : Acting s (orphan s g) := by
  unfold Machine.orphan
  dsimp only
  split
  · exact refl s
  · exact (setGate _ _ _).trans (grantNext _ _)

theorem orphanAll (s : State) (p : Holder → Bool) : Acting s (orphanAll s p).1 := foldl _ orphan _ s
theorem endLife (s : State) (n : Nat) : Acting s (endLife s n).1 := (ofDie s _).trans (orphanAll _ _)
theorem removeWaiter (s : State) (g : Nat) (fa : W16) (tag : W32) (b : Bool) : Acting s (removeWaiter s g fa tag b) := setGate _ _ _

theorem withdrawOp (s : State) (o : GateOp) (b : Bool) : Acting s (withdrawOp s o b) := by
  unfold Machine.withdrawOp
  exact ite ((control _ _ _ _).trans (ofGates _ _)) (removeWaiter _ _ _ _ _)

theorem resetGates (s : State) (n : Nat) : Acting s (resetGates s n) := by
  unfold Machine.resetGates
  exact (modCore _ _ _).after (foldl _ (fun t o => withdrawOp t o true) _ s)

theorem stopGates (s : State) (n : Nat) : Acting s (stopGates s n) := by
  unfold Machine.stopGates
  exact (modCore _ _ _).after (foldl _ (fun t o => withdrawOp t o false) _ s)

/-! ### Transfers and resets -/

theorem releaseCredits (s : State) (c : Nat) (t : Transfer) : Acting s (releaseCredits s c t) := ite (refl s) (control _ _ _ _)

theorem cancelChannels (s : State) (p : Transfer → Bool) : Acting s (cancelChannels s p) := by
  refine foldl _ (fun t c => ?_) _ s
  dsimp only
  split
  · refine ite ?_ (refl t)
    split
    · exact ((releaseCredits _ _ _).trans (setChan _ _ _)).trans (background _ _ _ _)
    · exact (releaseCredits _ _ _).trans (setChan _ _ _)
  · exact refl t

theorem resetCore (s : State) (n : Nat) : Acting s (resetCore s n) :=
  (((resetGates _ _).trans (modCore _ _ _)).trans (endLife _ _)).trans (cancelChannels _ _)

theorem resetEvent (s : State) (k c w : Nat) : Acting s (resetEvent s k c w) := event _ _ _

theorem basinReset (s : State) (b c : Nat) : Acting s (basinReset s b c) :=
  (((foldl _ resetCore _ s).trans (cancelChannels _ _)).trans (modBasin _ _ _)).trans (resetEvent _ _ _ _)

theorem dropSaved (s : State) (b : Nat) : Acting s (dropSaved s b) := foldl _ (fun t o => withdrawOp t o true) _ s

/-! ### Reductions -/

end Acting

/-- From `s` to `t` neither a core nor a gate has changed, and otherwise what `Acting` allows. -/
structure Reducing (s t : State) : Prop extends Acting s t where
  die : t.die = s.die
  gateUnit : t.gateUnit = s.gateUnit

theorem Sending.reducing {s t : State} (h : Sending s t) : Reducing s t :=
  { h.acting with die := h.die, gateUnit := (congrArg State.gateUnit h.rest :) }

namespace Reducing

variable {s t u : State}

theorem refl (s : State) : Reducing s s := ⟨.refl s, rfl, rfl⟩

theorem trans (h : Reducing s t) (k : Reducing t u) : Reducing s u :=
  ⟨h.toActing.trans k.toActing, k.die.trans h.die, k.gateUnit.trans h.gateUnit⟩

/-- The later step first: what it begins from is known from what it ends in. -/
theorem after (k : Reducing t u) (h : Reducing s t) : Reducing s u := h.trans k

theorem foldl {α : Type} (f : State → α → State) (hf : ∀ s a, Reducing s (f s a)) (l : List α) (s : State) : Reducing s (l.foldl f s) := by
  induction l generalizing s with
  | nil => exact refl s
  | cons a l ih => exact (hf s a).trans (ih _)

theorem ofDma (s : State) {d : Dma} (hw : d.windows = s.dma.windows) : Reducing s { s with dma := d } := ⟨.ofDma s hw, rfl, rfl⟩
theorem ofReds (s : State) (l : List RedEntry) : Reducing s { s with dma := { s.dma with reds := l } } := ofDma s rfl
theorem write (s : State) (a : Nat) (l : List Byte) : Reducing s (s.write a l) := ⟨.write s a l, rfl, rfl⟩

theorem noteRead (s : State) (b : Option Nat) (c : Byte) (a n : Nat) : Reducing s (s.noteRead b c a n) := by
  refine ⟨.noteRead s b c a n, ?_, ?_⟩ <;> (simp only [State.noteRead, State.note]; split <;> rfl)

theorem event (s : State) (c : W16) (d : List Byte) : Reducing s (event s c d) := (Sending.event _ _ _).reducing
theorem packetDone (s : State) (fa : W16) (w o : Byte) (x : W16) (c : Byte) (i : W16) (g : Byte) :
    Reducing s (packetDone s fa w o x c i g) := ((Sending.postDone _ _ _ _ _ _ _ _).trans (Sending.flush _)).reducing

theorem ackAdds (s : State) (a : Nat) (p : AddPkt → Bool) (b : Bool) : Reducing s (ackAdds s a p b) :=
  (foldl _ (fun _ _ => packetDone _ _ _ _ _ _ _ _) _ _).after (ofDma s rfl)

theorem dropEntry (s : State) (e : RedEntry) : Reducing s (dropEntry s e) := ofDma s rfl

theorem abortEntry (s : State) (e : RedEntry) (c : Option Byte) : Reducing s (abortEntry s e c) := by
  have h := (dropEntry s e).trans (ackAdds _ e.granule (joinedEntry e) true)
  unfold Machine.abortEntry
  dsimp only
  split
  · exact h.trans (event _ _ _)
  · exact h

theorem finishEntry (s : State) (e : RedEntry) : Reducing s (finishEntry s e) := by
  unfold Machine.finishEntry
  split
  · exact (noteRead _ _ _ _ _).trans (abortEntry _ _ _)
  · exact ((write _ _ _).trans (dropEntry _ _)).trans (ackAdds _ _ _ _)

theorem giveAdds (s : State) (a : Nat) (l : List XferHdr) : Reducing s (giveAdds s a l) := ofDma s rfl

theorem acceptAdd {w : AddWrite} (h : acceptAdd s w = some t) : Reducing s t := by
  unfold Machine.acceptAdd at h
  dsimp only at h
  have hg := giveAdds s (addAddress s w) (broughtBy s (addAddress s w) w.hdr)
  have hnew := fun l => hg.trans (ofReds (Machine.giveAdds s (addAddress s w) (broughtBy s (addAddress s w) w.hdr)) l)
  split at h
  · cases h
    exact hg.trans (ackAdds _ _ _ _)
  · split at h
    · split at h
      · cases h
      · split at h
        · cases h
          exact (abortEntry _ _ _).after (hnew _)
        · split at h
          · cases h
            exact (finishEntry _ _).after (hnew _)
          · cases h
            exact hnew _
    · split at h
      · cases h
        exact (abortEntry _ _ _).after (hnew _)
      · split at h
        · cases h
          exact (finishEntry _ _).after (hnew _)
        · cases h
          exact hnew _

theorem retryOne {l : List AddWrite} (h : retryOne s l = some t) : Reducing s t := by
  obtain ⟨w, -, hw⟩ := List.exists_of_findSome?_eq_some h
  exact (acceptAdd hw).after (ofDma s rfl)

theorem retryLoop (n : Nat) (s : State) : Reducing s (retryLoop n s) := by
  induction n generalizing s with
  | zero => exact refl s
  | succ n ih =>
    unfold Machine.retryLoop
    split
    next t ht => exact (retryOne ht).trans (ih t)
    next => exact refl s

theorem retryAdds (s : State) : Reducing s (retryAdds s) := retryLoop _ _

theorem abortReds (s : State) (p : RedEntry → Bool) : Reducing s (abortReds s p) :=
  (foldl _ (fun _ _ => abortEntry _ _ _) _ s).trans (retryAdds _)

end Reducing

namespace Acting

variable {s t u : State}

theorem abortReds (s : State) (p : RedEntry → Bool) : Acting s (abortReds s p) := (Reducing.abortReds s p).toActing

/-! ### Windows that close -/

theorem setWindow {k : Nat} {w : Window} (hw : (s.window k).Down w) : Acting s (s.setWindow k w) := by
  refine ⟨rfl, List.prefix_rfl, fun j => ?_⟩
  by_cases hj : j = k
  · rw [hj, State.window_setWindow]
    exact hw
  · rw [State.window_setWindow_ne _ hj]
    exact .refl _

theorem answered (s : State) (k : Nat) (c : Byte) (l : List Grant) :
    Acting s (l.foldl (fun t g => Machine.postDone t g.fa (byte k) c g.xfer g.chan 0 0) s) := foldl _ (fun _ _ => postDone _ _ _ _ _ _ _ _) _ s

end Acting

/-- A window that closes is closed, whatever follows. -/
theorem stopWindow_closed (s : State) (k : Nat) (c : Byte) :
    Acting s (stopWindow s k .closed c) ∧ ((stopWindow s k .closed c).window k).state = .closed := by
  let v : Window := { s.window k with
    state := .closed, queue := [], ended := ((s.window k).queue.filter (fun g => g.held != 0)).map (fun g => (g.fa, g.chan, c)) ++ (s.window k).ended }
  have hset : Acting s (s.setWindow k v) := Acting.setWindow ⟨rfl, .inr rfl⟩
  have hrest : Acting (s.setWindow k v) (stopWindow s k .closed c) :=
    (Acting.flush _).after ((Acting.answered _ _ _ _).after (Acting.abortReds _ _))
  refine ⟨hset.trans hrest, ?_⟩
  obtain ⟨-, hst⟩ := hrest.window k
  rw [State.window_setWindow] at hst
  exact hst.elim id id

namespace Acting

theorem sendRevocation (s : State) (fa : W16) (a b m : Nat) : Acting s (sendRevocation s fa a b m) :=
  (send _ _).after (ofDma s rfl)

end Acting

/-- Windows that close are closed, whatever follows. -/
theorem stopWindows_closed (s : State) (b : Nat) (ks : List Nat) (a : Nat) (ha : a ≠ 1) :
    Acting s (stopWindows s b ks a).1 ∧ ∀ k ∈ ks, ((stopWindows s b ks a).1.window k).state = .closed := by
  have hstop : ∀ (l : List Nat) (t : State),
      let u := l.foldl (fun t k => if a = 1 then stopWindow t k .revoked dcRevoked else stopWindow t k .closed dcNoWindow) t
      Acting t u ∧ ∀ k, k ∈ l ∨ (t.window k).state = .closed → (u.window k).state = .closed := by
    intro l
    induction l with
    | nil =>
      intro t
      exact ⟨Acting.refl t, fun k hk => hk.elim (fun h => absurd h List.not_mem_nil) id⟩
    | cons j l ih =>
      intro t
      obtain ⟨hact, hclosed⟩ := stopWindow_closed t j dcNoWindow
      simp only [List.foldl_cons, if_neg ha] at ih ⊢
      obtain ⟨ihact, ihclosed⟩ := ih (stopWindow t j .closed dcNoWindow)
      refine ⟨hact.trans ihact, fun k hk => ihclosed k ?_⟩
      rcases hk with hk | hk
      · rcases List.mem_cons.mp hk with rfl | hk
        · exact .inr hclosed
        · exact .inl hk
      · obtain ⟨-, hst⟩ := hact.window k
        exact .inr (hst.elim (fun h => h.trans hk) id)
  obtain ⟨hact, hclosed⟩ := hstop ks s
  have hsend : Acting _ (stopWindows s b ks a).1 := Acting.foldl _ (fun _ _ => Acting.sendRevocation _ _ _ _ _) _ _
  refine ⟨hact.trans hsend, fun k hk => ?_⟩
  obtain ⟨-, hst⟩ := hsend.window k
  exact hst.elim (fun h => h.trans (hclosed k (.inl hk))) id

end Sys2Proof.Machine
end

section
/-! PROOFS. The basin, window and segment commands (R163 to R168, R177 to R180, R424). -/

namespace Sys2Proof.Machine

/-! ### Arguments -/

theorem leNat_lt (l : List Byte) : leNat l < 256 ^ l.length := by
  induction l with
  | nil => decide
  | cons b l ih =>
    have hb := b.isLt
    simp only [leNat, List.length_cons, pow_succ]
    omega

theorem slice_length (l : List Byte) (o n : Nat) : (slice l o n).length = n := by
  rw [slice_eq_map, List.length_map, List.length_range]

theorem fieldAt_lt (l : List Byte) (o n : Nat) : fieldAt l o n < 256 ^ n := by
  have h := leNat_lt (slice l o n)
  rwa [slice_length] at h

theorem Request.arg_lt (r : Request) (o n : Nat) : r.arg o n < 256 ^ n := fieldAt_lt _ _ _

/-! ### Segments, one after the other -/

/-- A step of a walk over segments that changes the one it is at. -/
def TouchesSeg (g : State → Nat → State) (f : Segment → Segment) : Prop :=
  ∀ t k j, (g t k).seg j = if j = k then f (t.seg k) else t.seg j

theorem touchesSeg_modSeg (f : Segment → Segment) : TouchesSeg (fun t k => t.modSeg k f) f := by
  intro t k j
  by_cases hj : j = k
  · rw [if_pos hj, hj]
    exact State.seg_setSeg _ _ _
  · rw [if_neg hj]
    exact State.seg_setSeg_ne _ hj _

/-- What follows a step and leaves the segments alone may stand beside it. -/
theorem TouchesSeg.then {g : State → Nat → State} {f : Segment → Segment} (h : TouchesSeg g f) {q : State → Nat → State}
    (hq : ∀ t k, (q t k).store.segs = t.store.segs) : TouchesSeg (fun t k => q (g t k) k) f := by
  intro t k j
  rw [← h t k j, State.seg, State.seg, hq]

/-- A walk over segments changes those that it names. -/
theorem TouchesSeg.foldl {g : State → Nat → State} {f : Segment → Segment} (h : TouchesSeg g f) (hf : ∀ x, f (f x) = f x)
    (l : List Nat) (s : State) (j : Nat) : (l.foldl g s).seg j = if j ∈ l then f (s.seg j) else s.seg j := by
  induction l generalizing s with
  | nil => simp
  | cons k l ih =>
    rw [List.foldl_cons, ih, h s k j]
    by_cases hj : j = k
    · rw [hj]
      by_cases hl : k ∈ l <;> simp [hl, hf]
    · simp [hj]

theorem setOwner_seg (s : State) (l : List Nat) (o : Option Nat) (j : Nat) :
    (setOwner s l o).seg j = if j ∈ l then { s.seg j with owner := o } else s.seg j :=
  (touchesSeg_modSeg _).foldl (f := fun g => { g with owner := o }) (fun _ => rfl) l s j

/-- A walk that only changes segments. -/
theorem foldl_modSeg_eq (f : Segment → Segment) (l : List Nat) (s : State) :
    ∃ m, l.foldl (fun t k => t.modSeg k f) s = { s with store := { s.store with segs := m } } := by
  induction l generalizing s with
  | nil => exact ⟨_, rfl⟩
  | cons k l ih => exact ih _

theorem setOwner_eq (s : State) (l : List Nat) (o : Option Nat) :
    ∃ m, setOwner s l o = { s with store := { s.store with segs := m } } := foldl_modSeg_eq _ l s

/-! ### BASIN.CREATE (R163, R164, R476) -/

theorem keptBy_unowned {s : State} {k : Nat} (h : (s.seg k).owner = none) : keptBy s k = none := by
  unfold keptBy
  split
  · rfl
  · exact h

/-- The basin that BASIN.CREATE makes. -/
def createdBasin (r : Request) : Basin :=
  { state := .active, lattice := r.arg 17 1 == 1, master := 8 * (rectArg r 20).y0 + (rectArg r 20).x0
    tenant := BitVec.ofNat 16 (r.arg 18 2), rect := rectArg r 20, save := saveOption (r.arg 24 2)
    powerWeight := byte (r.arg 26 1), linkWeights := r.argBytes 28 20 }

/-- A basin that is put in with the segments it owns and no energy used. -/
def putBasin (b : Nat) (v : Basin) (l : List Nat) (s : State) : State :=
  createBody.modBudget (setOwner (s.setBasin b v) l (some b)) b

theorem createBody_ok {r : Request} {s : State} (hb : r.arg 16 1 ≤ 31) (hm : r.arg 17 1 ≤ 1) (ht : r.arg 18 2 ≠ 0)
    (hr : rectOk (rectArg r 20) = true) (hp : r.arg 26 1 ≠ 0) (hw : (r.argBytes 28 20).contains 0 = false)
    (hfree : (s.basin (r.arg 16 1)).state = .free) (ho : overlapsOther s (r.arg 16 1) (rectArg r 20) = false)
    (hs : ∀ k ∈ segMask r 48, (s.seg k).owner = none ∧ (s.seg k).retired = false ∧ heldByWork s k = false)
    (hsave : saveOk (r.arg 24 2) (segMask r 48) = true) (hg : r.arg 17 1 = 1 → allGood s (rectArg r 20) = true) :
    createBody r s = { detail := some (basinDetail (r.arg 16 1) (r.arg 17 1 == 1) (rectArg r 20) (segMask r 48).length)
                       commit := fun _ => putBasin (r.arg 16 1) (createdBasin r) (segMask r 48) } := by
  have hargs : ¬(31 < r.arg 16 1 ∨ 1 < r.arg 17 1 ∨ r.arg 18 2 = 0 ∨ (!rectOk (rectArg r 20)) = true ∨ r.arg 26 1 = 0
      ∨ (r.argBytes 28 20).contains 0 = true) := by
    rw [hr, hw]
    simp
    omega
  have hkept : (segMask r 48).any (fun k => (keptBy s k).isSome || (s.seg k).retired) = false := by
    rw [List.any_eq_false]
    intro k hk
    obtain ⟨hown, hret, -⟩ := hs k hk
    simp [keptBy_unowned hown, hret]
  have hheld : (segMask r 48).any (heldByWork s) = false := by
    rw [List.any_eq_false]
    intro k hk
    simp [(hs k hk).2.2]
  have hlat : ¬((r.arg 17 1 == 1) = true ∧ (!allGood s (rectArg r 20)) = true) := by
    rintro ⟨h1, h2⟩
    rw [hg (by simpa using h1)] at h2
    cases h2
  have hclash : ¬(exists_ s (r.arg 16 1) = true ∨ overlapsOther s (r.arg 16 1) (rectArg r 20) = true
      ∨ (segMask r 48).any (fun k => (keptBy s k).isSome || (s.seg k).retired) = true ∨ (!saveOk (r.arg 24 2) (segMask r 48)) = true
      ∨ ((r.arg 17 1 == 1) = true ∧ (!allGood s (rectArg r 20)) = true)) := by
    rw [ho, hkept, hsave]
    simp only [exists_, hfree, hlat, bne_self_eq_false, Bool.not_true, Bool.false_eq_true, or_self, not_false_eq_true]
  have hbusy : ¬(segMask r 48).any (heldByWork s) = true := by rw [hheld]; exact Bool.false_ne_true
  exact (if_neg hargs).trans ((if_neg hclash).trans (if_neg hbusy))

theorem putBasin_spec (b : Nat) (v : Basin) (l : List Nat) (s : State) :
    let t := putBasin b v l s
    t.basin b = v ∧ (∀ k ∈ l, t.seg k = { s.seg k with owner := some b }) ∧ (∀ k, k ∉ l → t.seg k = s.seg k)
      ∧ (∀ c, c ≠ b → t.basin c = s.basin c) ∧ t.die.cores = s.die.cores ∧ t.store.mem = s.store.mem ∧ t.dma = s.dma
      ∧ t.gateUnit = s.gateUnit ∧ tget 0 t.head.energy b = 0 ∧ t.ledger = s.ledger := by
  have hseg : ∀ k, (putBasin b v l s).seg k = if k ∈ l then { s.seg k with owner := some b } else s.seg k :=
    fun k => setOwner_seg (s.setBasin b v) l (some b) k
  obtain ⟨m, hm⟩ := setOwner_eq (s.setBasin b v) l (some b)
  have ht : putBasin b v l s = createBody.modBudget { s.setBasin b v with store := { s.store with segs := m } } b :=
    congrArg (createBody.modBudget · b) hm
  refine ⟨?_, fun k hk => (hseg k).trans (if_pos hk), fun k hk => (hseg k).trans (if_neg hk), fun c hc => ?_, ?_⟩
  · rw [ht]
    exact State.basin_setBasin _ _ _
  · rw [ht]
    exact State.basin_setBasin_ne _ hc _
  · rw [ht]
    exact ⟨rfl, rfl, rfl, rfl, tget_tput_same _ _ _ _, rfl⟩

/-! ### BASIN.MODE, QUERY and RESIZE (R163, R165, R167, R168) -/

theorem settled_active {s : State} {b : Nat} (h : settled s b = true) : (s.basin b).state = .active ∧ seizing s b = false := by
  simpa [settled] using h

theorem modeBody_lattice {r : Request} {s : State} (hb : r.arg 16 1 ≤ 31) (h1 : r.arg 17 1 = 1) (hm : r.arg 18 1 = 0xFF)
    (hset : settled s (r.arg 16 1) = true) (hl : (s.basin (r.arg 16 1)).lattice = false)
    (hg : allGood s (s.basin (r.arg 16 1)).rect = true) (hi : (s.basin (r.arg 16 1)).rect.nodes.all (isIdle s) = true)
    (hload : (s.basin (r.arg 16 1)).load = none) :
    let m := 8 * (s.basin (r.arg 16 1)).rect.y0 + (s.basin (r.arg 16 1)).rect.x0
    modeBody r s = { detail := some [byte (r.arg 16 1), 1, byte m]
                     commit := fun _ t => t.modBasin (r.arg 16 1) (fun v => { v with lattice := true, master := m }) } := by
  obtain ⟨hact, -⟩ := settled_active hset
  have hargs : ¬(31 < r.arg 16 1 ∨ 1 < 1) := by omega
  have hgood : (s.basin (r.arg 16 1)).rect.nodes.find? (fun n => !goodNode s n) = none := by
    simpa [allGood] using hg
  have hidle : (s.basin (r.arg 16 1)).rect.nodes.find? (fun n => !isIdle s n) = none := by
    simpa using hi
  simp only [modeBody, h1, hm, hact, hset, hl, hload, if_neg hargs]
  simp [hgood, hidle]

theorem queryResult_tenant (s : State) (b : Nat) : fieldAt (queryResult s b) 2 2 = (s.basin b).tenant.toNat := by
  simp only [queryResult, List.append_assoc, List.cons_append, List.nil_append]
  simp (disch := omega) only [fieldAt_cons_skip, Nat.reduceSub, fieldAt_leBytes_append]
  exact Nat.mod_eq_of_lt (s.basin b).tenant.isLt

/-- The nodes of a rectangle within the mesh are in it. -/
theorem Rect.has_of_mem {r : Rect} (hr : rectOk r = true) {n : Nat} (h : n ∈ r.nodes) : r.has n = true := by
  simp only [rectOk, Bool.and_eq_true, decide_eq_true_eq] at hr
  obtain ⟨⟨⟨⟨⟨-, -⟩, -⟩, -⟩, hx⟩, hy⟩ := hr
  simp only [Rect.nodes, List.mem_flatMap, List.mem_range, List.mem_map] at h
  obtain ⟨j, hj, i, hi, rfl⟩ := h
  have hx8 : (8 * (r.y0 + j) + (r.x0 + i)) % 8 = r.x0 + i := by omega
  have hy8 : (8 * (r.y0 + j) + (r.x0 + i)) / 8 = r.y0 + j := by omega
  simp only [Rect.has, nodeX, nodeY, hx8, hy8]
  simp [hi, hj]

/-- The segments that a basin keeps. -/
def keptSegs (s : State) (b : Nat) : List Nat := (List.range 512).filter (fun k => keptBy s k == some b)

/-- The resize that flag 8 alone asks for: new weights, the rectangle, segments and save segment as they are. -/
def weightsOnly (r : Request) (s : State) (b : Nat) : Resize :=
  { rect := (s.basin b).rect, segs := keptSegs s b
    save := (s.basin b).save.getD 0xFFFF, weights := some (byte (r.arg 26 1), r.argBytes 28 20) }

theorem resizeOf_weights {r : Request} (s : State) (b : Nat) (hf : r.arg 17 1 = 8) : resizeOf r s b = weightsOnly r s b := by
  have h0 : bit 8 0 = false := by decide
  have h1 : bit 8 1 = false := by decide
  have h2 : bit 8 2 = false := by decide
  have h3 : bit 8 3 = true := by decide
  simp only [resizeOf, hf, h0, h1, h2, h3, Bool.false_eq_true, if_false, if_true]
  rfl

theorem filter_self_nil (l : List Nat) : l.filter (fun k => !l.contains k) = [] := by
  simp

theorem resizeBody_weights {r : Request} {s : State} (hb : r.arg 16 1 ≤ 31) (hset : settled s (r.arg 16 1) = true) (hf : r.arg 17 1 = 8)
    (hp : r.arg 26 1 ≠ 0) (hw : (r.argBytes 28 20).contains 0 = false) (hload : (s.basin (r.arg 16 1)).load = none)
    (hr : rectOk (s.basin (r.arg 16 1)).rect = true) (hl : (s.basin (r.arg 16 1)).lattice = false)
    (ho : overlapsOther s (r.arg 16 1) (s.basin (r.arg 16 1)).rect = false)
    (hsave : saveOk ((s.basin (r.arg 16 1)).save.getD 0xFFFF) (keptSegs s (r.arg 16 1)) = true) :
    let d := basinDetail (r.arg 16 1) false (s.basin (r.arg 16 1)).rect (keptSegs s (r.arg 16 1)).length
    resizeBody r s = { detail := some d
                       commit := fun o => applyResize (r.arg 16 1) (weightsOnly r s (r.arg 16 1)) [] [] d o } := by
  have hleft : (s.basin (r.arg 16 1)).rect.nodes.filter (fun n => !(s.basin (r.arg 16 1)).rect.has n) = [] := by
    rw [List.filter_eq_nil_iff]
    intro n hn
    simp [Rect.has_of_mem hr hn]
  have hargs : ¬(31 < r.arg 16 1 ∨ 15 < 8 ∨ (bit 8 0 = true ∧ (!rectOk (s.basin (r.arg 16 1)).rect) = true)
      ∨ (bit 8 3 = true ∧ (r.arg 26 1 = 0 ∨ (r.argBytes 28 20).contains 0 = true))) := by
    rw [hr, hw]
    simp [hp]
    omega
  simp only [resizeBody, resizeOf_weights s _ hf, hf, weightsOnly, ← keptSegs.eq_def, filter_self_nil, hleft, if_neg hargs]
  simp [hset, ho, hl, hsave, hload, stOk]

theorem windowsOver_nil (s : State) (b : Nat) : windowsOver s b [] = [] := by
  simp [windowsOver]

theorem stopWindows_nil (s : State) (b a : Nat) : (stopWindows s b [] a).1 = s := by
  simp [stopWindows]

/-- A resize that keeps every segment and the rectangle changes the basin alone. -/
theorem applyResize_weights (r : Request) (s u : State) (b : Nat) (d : List Byte) (o : Origin) :
    ∃ v, applyResize b (weightsOnly r s b) [] [] d o u = u.setBasin b v ∧ v.rect = (s.basin b).rect
      ∧ v.powerWeight = byte (r.arg 26 1) ∧ v.linkWeights = r.argBytes 28 20 := by
  simp only [applyResize, windowsOver_nil, stopWindows_nil, List.isEmpty_nil, if_true]
  exact ⟨_, rfl, rfl, rfl, rfl⟩

/-! ### BASIN.DESTROY (R168, R476) -/

/-- From `s` to `t` no core and no basin has changed, and windows have at most been closed. -/
structure Yielding (s t : State) : Prop where
  die : t.die = s.die
  window : ∀ k, (s.window k).Down (t.window k)

namespace Yielding

variable {s t u : State}

theorem trans (h : Yielding s t) (k : Yielding t u) : Yielding s u :=
  ⟨k.die.trans h.die, fun w => (h.window w).trans (k.window w)⟩

theorem ofStore (s : State) (v : Store) : Yielding s { s with store := v } := ⟨rfl, fun _ => .refl _⟩

theorem foldl {α : Type} (f : State → α → State) (hf : ∀ s a, Yielding s (f s a)) (l : List α) (s : State) : Yielding s (l.foldl f s) := by
  induction l generalizing s with
  | nil => exact ofStore s s.store
  | cons a l ih => exact (hf s a).trans (ih _)

theorem abortReds (s : State) (p : RedEntry → Bool) : Yielding s (abortReds s p) :=
  ⟨(Reducing.abortReds s p).die, (Reducing.abortReds s p).window⟩

theorem segOff (s : State) (k : Nat) : Yielding s (segOff s k) := by
  unfold Machine.segOff
  refine Yielding.trans ?_ (abortReds _ _)
  split
  · exact ofStore s _
  · exact ofStore s _

theorem setOwner (s : State) (l : List Nat) (o : Option Nat) : Yielding s (setOwner s l o) := foldl _ (fun t _ => ofStore t _) l s

theorem queueSegment (v : W64) (s : State) (k : Nat) : Yielding s (queueSegment v s k) := by
  unfold Machine.queueSegment
  dsimp only
  split <;> exact ofStore s _

end Yielding

theorem queueSegment_segs (v : W64) (s : State) (k : Nat) : (queueSegment v s k).store.segs = s.store.segs := by
  unfold queueSegment
  dsimp only
  split <;> rfl

theorem touchesSeg_segOff : TouchesSeg segOff (fun g => { g with power := .off, filled := false }) := by
  intro t k j
  rw [← touchesSeg_modSeg (fun g => { g with power := .off, filled := false }) t k j]
  unfold segOff
  rw [(Acting.abortReds _ _).seg]
  split <;> rfl

/-- The walk that marks segments busy and queues those that are ON. -/
def queueAll (v : W64) (on : Nat → Bool) (l : List Nat) (s : State) : State :=
  l.foldl (fun t k =>
    let u := t.modSeg k (fun g => { g with busy := true })
    if on k then queueSegment v u k else u) s

theorem queueAll_yielding (v : W64) (on : Nat → Bool) (l : List Nat) (s : State) : Yielding s (queueAll v on l s) := by
  refine Yielding.foldl _ (fun t k => ?_) l s
  dsimp only
  split
  · exact (Yielding.ofStore t _).trans (Yielding.queueSegment _ _ _)
  · exact Yielding.ofStore t _

theorem queueAll_seg (v : W64) (on : Nat → Bool) (l : List Nat) (s : State) (j : Nat) :
    (queueAll v on l s).seg j = if j ∈ l then { s.seg j with busy := true } else s.seg j := by
  refine TouchesSeg.foldl (f := fun g => { g with busy := true })
    (TouchesSeg.then (touchesSeg_modSeg _) (q := fun u k => if on k then queueSegment v u k else u) fun t k => ?_) (fun _ => rfl) l s j
  split
  · exact queueSegment_segs _ _ _
  · rfl

/-- What BASIN.DESTROY and a reset do with the segments that were the basin's: the good ones are no one's until they are zeroed. -/
theorem giveUp_destroyed (s : State) (b : Nat) (ks : List Nat) (d : List Byte) (o : Origin) :
    Yielding s (giveUp s b true ks d o)
      ∧ ∀ k ∈ ks, (s.seg k).retired = false → ((giveUp s b true ks d o).seg k).owner = some (destroyedOwner b)
        ∧ ((giveUp s b true ks d o).seg k).busy = true := by
  let gone := ks.filter (fun k => (s.seg k).retired)
  let rest := ks.filter (fun k => !(s.seg k).retired)
  let s1 := gone.foldl segOff (setOwner s gone none)
  let s2 := setOwner s1 rest (some (destroyedOwner b))
  let s3 := queueAll 0 (fun k => (s.seg k).power = .on) rest s2
  have heq : giveUp s b true ks d o
      = { s3 with store := { s3.store with zero := s3.store.zero ++ [⟨b, true, rest, d, o⟩] } } := by
    simp only [s3, queueAll, decide_eq_true_eq]
    rfl
  rw [heq]
  refine ⟨?_, fun k hk hr => ?_⟩
  · exact (((((Yielding.setOwner s gone none).trans (Yielding.foldl _ Yielding.segOff gone _)).trans (Yielding.setOwner s1 rest _)).trans
      (queueAll_yielding _ _ rest s2)).trans (Yielding.ofStore s3 _))
  · have hmem : k ∈ rest := by simp [rest, hk, hr]
    have hseg : s3.seg k = { s1.seg k with owner := some (destroyedOwner b), busy := true } := by
      rw [queueAll_seg, if_pos hmem, setOwner_seg, if_pos hmem]
    change (s3.seg k).owner = _ ∧ (s3.seg k).busy = _
    rw [hseg]
    exact ⟨rfl, rfl⟩

/-- Windows that a revocation closes are closed. -/
theorem destroyRevoked_closed (s : State) (b : Nat) :
    Acting s (destroyRevoked s b) ∧ ∀ k ∈ windowsOf s b (· == .revoked), ((destroyRevoked s b).window k).state = .closed := by
  have hclose : ∀ (l : List Nat) (t : State),
      let u := l.foldl (fun t w => t.setWindow w { t.window w with state := .closed }) t
      Acting t u ∧ ∀ k, k ∈ l ∨ (t.window k).state = .closed → (u.window k).state = .closed := by
    intro l
    induction l with
    | nil =>
      intro t
      exact ⟨Acting.refl t, fun k hk => hk.elim (fun h => absurd h List.not_mem_nil) id⟩
    | cons j l ih =>
      intro t
      have hset : Acting t (t.setWindow j { t.window j with state := .closed }) := Acting.setWindow ⟨rfl, .inr rfl⟩
      obtain ⟨ihact, ihclosed⟩ := ih (t.setWindow j { t.window j with state := .closed })
      refine ⟨hset.trans ihact, fun k hk => ihclosed k ?_⟩
      rcases hk with hk | hk
      · rcases List.mem_cons.mp hk with rfl | hk
        · exact .inr (by rw [State.window_setWindow])
        · exact .inl hk
      · obtain ⟨-, hst⟩ := hset.window k
        exact .inr (hst.elim (fun h => h.trans hk) id)
  have hsend : Acting s ((s.basin b).revoked.foldl (fun t fa => sendRevocation t fa 3 b (maskOf (windowsOf s b (· == .revoked)))) s) :=
    Acting.foldl _ (fun _ _ => Acting.sendRevocation _ _ _ _ _) _ _
  obtain ⟨hact, hclosed⟩ := hclose (windowsOf s b (· == .revoked)) _
  exact ⟨hsend.trans hact, fun k hk => hclosed k (.inl hk)⟩

theorem mem_windowsOf {s : State} {b k : Nat} {p : WinState → Bool} :
    k ∈ windowsOf s b p ↔ k < 64 ∧ (s.window k).basin = b ∧ p (s.window k).state = true := by
  simp [windowsOf]

/-- BASIN.DESTROY first ends what runs in the basin, ... -/
def haltBasin (s : State) (b : Nat) : State :=
  if (s.basin b).state = .active then basinReset s b 1 else cancelChannels (dropSaved s b) (fun t => t.basin == b)

/-- ... then closes its windows, ... -/
def closeWindows (s : State) (b : Nat) : State := destroyRevoked (stopWindows s b (windowsOf s b (· == .opened)) 3).1 b

/-- ... and then the basin is gone: from its gates, its bad lines and its place. -/
def dropBasin (s : State) (b : Nat) : State :=
  let s3 := (gatesOf s b).foldl (fun t g => t.setGate g { t.gate g with basin := none }) s
  let s4 := { s3 with die := { s3.die with badLines := s3.die.badLines.filter (fun e => e.2.1 != b) } }
  s4.setBasin b {}

theorem destroyBasin_eq (s : State) (b : Nat) (d : List Byte) (o : Origin) :
    destroyBasin b d o s = giveUp (dropBasin (closeWindows (haltBasin s b) b) b) b true (keptSegs s b) d o := by
  simp only [destroyBasin, haltBasin, closeWindows, dropBasin, keptSegs]

theorem closeWindows_acting (s : State) (b : Nat) : Acting s (closeWindows s b) :=
  (stopWindows_closed s b (windowsOf s b (· == .opened)) 3 (by decide)).1.trans (destroyRevoked_closed _ b).1

/-- Once its opened and its revoked windows are closed, a basin has no other. -/
theorem closeWindows_closed (s : State) (b : Nat) (k : Fin 64) (hk : (s.window k).basin = b) :
    ((closeWindows s b).window k).state = .closed := by
  obtain ⟨hstop, hopened⟩ := stopWindows_closed s b (windowsOf s b (· == .opened)) 3 (by decide)
  obtain ⟨hrev, hrevoked⟩ := destroyRevoked_closed (stopWindows s b (windowsOf s b (· == .opened)) 3).1 b
  obtain ⟨hbasin, -⟩ := hstop.window k
  obtain ⟨-, hlater⟩ := hrev.window k
  cases hst : ((stopWindows s b (windowsOf s b (· == .opened)) 3).1.window k).state with
  | closed => exact hlater.elim (fun h => h.trans hst) id
  | revoked => exact hrevoked k (mem_windowsOf.mpr ⟨k.isLt, hbasin.trans hk, by rw [hst]; rfl⟩)
  | opened =>
    obtain ⟨-, hfirst⟩ := hstop.window k
    rcases hfirst with h | h
    · have hc := hopened k (mem_windowsOf.mpr ⟨k.isLt, hk, by rw [← h, hst]; rfl⟩)
      exact hlater.elim (fun h => h.trans hc) id
    · exact hlater.elim (fun h' => h'.trans h) id

theorem haltBasin_acting (s : State) (b : Nat) : Acting s (haltBasin s b) :=
  Acting.ite (Acting.basinReset s b 1) ((Acting.dropSaved s b).trans (Acting.cancelChannels _ _))

theorem dropBasin_spec (s : State) (b : Nat) : Acting s (dropBasin s b) ∧ (dropBasin s b).basin b = {} := by
  have hgates : Acting s ((gatesOf s b).foldl (fun t g => t.setGate g { t.gate g with basin := none }) s) :=
    Acting.foldl _ (fun t g => Acting.setGate t g _) _ s
  exact ⟨(hgates.trans (Acting.ofDie _ _)).trans (Acting.setBasin _ b {}), State.basin_setBasin _ b {}⟩

theorem destroyBasin_spec (s : State) (b : Nat) (d : List Byte) (o : Origin) :
    let t := destroyBasin b d o s
    (t.basin b).state = .free
      ∧ (∀ k ∈ keptSegs s b, (s.seg k).retired = false → (t.seg k).owner = some (destroyedOwner b) ∧ (t.seg k).busy = true)
      ∧ ∀ w : Fin 64, (s.window w).basin = b → (t.window w).state = .closed := by
  obtain ⟨hdrop, hbasin⟩ := dropBasin_spec (closeWindows (haltBasin s b) b) b
  have hhalt := haltBasin_acting s b
  have hact := (hhalt.trans (closeWindows_acting _ b)).trans hdrop
  obtain ⟨hyield, hown⟩ := giveUp_destroyed (dropBasin (closeWindows (haltBasin s b) b) b) b (keptSegs s b) d o
  intro t
  have ht : t = giveUp (dropBasin (closeWindows (haltBasin s b) b) b) b true (keptSegs s b) d o := destroyBasin_eq s b d o
  rw [ht]
  refine ⟨?_, fun k hk hr => hown k hk ?_, fun w hw => ?_⟩
  · rw [State.basin, hyield.die, ← State.basin, hbasin]
  · rw [hact.seg]
    exact hr
  · have hclosed := closeWindows_closed (haltBasin s b) b w ((hhalt.window w).1.trans hw)
    exact ((hdrop.window w).trans (hyield.window w)).2.elim (fun h => h.trans hclosed) id

theorem mem_keptSegs {s : State} {b k : Nat} (hk : k ∈ ownedSegs s b) (hz : (ownedSegs s b).any (heldByWork s) = false) :
    k ∈ keptSegs s b := by
  have hheld : heldByWork s k = false := by simpa using List.any_eq_false.mp hz k hk
  have hzero : zeroing s k = false := by
    unfold heldByWork at hheld
    simp only [Bool.or_eq_false_iff] at hheld
    exact hheld.1.1
  unfold ownedSegs at hk
  unfold keptSegs keptBy
  rw [List.mem_filter] at hk ⊢
  simpa [hzero] using hk

/-- What a resize of the weights answers and commits. -/
def weightsReply (r : Request) (s : State) : Reply :=
  let b := r.arg 16 1
  let d := basinDetail b false (s.basin b).rect (keptSegs s b).length
  { detail := some d, commit := fun o => applyResize b (weightsOnly r s b) [] [] d o }

section
variable {r : Request} {s : State} (hb : r.arg 16 1 ≤ 31) (he : exists_ s (r.arg 16 1) = true) (hz : seizing s (r.arg 16 1) = false)
  (hg : gangOf s (r.arg 16 1) = none)
include hb he hz hg

theorem destroyBody_busy (hbusy : (s.basin (r.arg 16 1)).load.isSome = true ∨ (ownedSegs s (r.arg 16 1)).any (heldByWork s) = true) :
    destroyBody r s = Reply.no stBusy := by
  have hconflict : ¬((!exists_ s (r.arg 16 1)) = true ∨ seizing s (r.arg 16 1) = true ∨ (gangOf s (r.arg 16 1)).isSome = true) := by
    rw [he, hz, hg]
    simp
  exact (if_neg (Nat.not_lt.mpr hb)).trans ((if_neg hconflict).trans (if_pos hbusy))

theorem destroyBody_ok (hl : (s.basin (r.arg 16 1)).load = none) (hw : (ownedSegs s (r.arg 16 1)).any (heldByWork s) = false) :
    ∃ d, destroyBody r s = { status := stAccepted, detail := some d, commit := fun o => destroyBasin (r.arg 16 1) d o } := by
  have hconflict : ¬((!exists_ s (r.arg 16 1)) = true ∨ seizing s (r.arg 16 1) = true ∨ (gangOf s (r.arg 16 1)).isSome = true) := by
    rw [he, hz, hg]
    simp
  have hfree : ¬((s.basin (r.arg 16 1)).load.isSome = true ∨ (ownedSegs s (r.arg 16 1)).any (heldByWork s) = true) := by
    rw [hl, hw]
    simp
  exact ⟨_, (if_neg (Nat.not_lt.mpr hb)).trans ((if_neg hconflict).trans (if_neg hfree))⟩

end

/-- Settles O28: a resize of the weights alone changes the basin alone, and a destroyed basin's windows are closed one after the other. -/
theorem basinsAreCreatedAndChangeMode : Obligations.BasinsAreCreatedAndChangeMode := by
  unfold Obligations.BasinsAreCreatedAndChangeMode
  intro r s
  refine ⟨fun ha hb hm ht hr hp hw hfree ho hs hsave hg => ?_, fun ha hb hm h18 hset hl hgood hidle hload => ?_, fun ha hb => ?_,
    fun ha hb hset hf hp hw hload hred hr hl ho hsave => ?_, fun ha hb he hz hg => ⟨fun hbusy => ?_, fun hl hw => ?_⟩⟩
  · refine answeredAfter_of_commit rfl ha (fun e v => createBody_ok (s := { s with eps := e, svc := v }) hb hm ht hr hp hw hfree ho hs hsave hg)
      rfl rfl rfl fun o e v l m hl => ?_
    obtain ⟨hbasin, hin, hout, hother, hcores, hmem, hdma, hgates, henergy, hledger⟩ :=
      putBasin_spec (r.arg 16 1) (createdBasin r) (segMask r 48) { s with eps := e, svc := v, ledger := l, sent := m }
    have htenant : (createdBasin r).tenant.toNat = r.arg 18 2 := Nat.mod_eq_of_lt (Request.arg_lt r 18 2)
    dsimp only
    rw [hbasin, hledger]
    exact ⟨rfl, rfl, rfl, htenant, rfl, hin, hout, hother, hcores, hmem, hdma, hgates, henergy, hl⟩
  · exact commitsWith_of_commit rfl ha (g := fun _ t => t.modBasin (r.arg 16 1) (fun v => { v with
        lattice := true, master := 8 * (s.basin (r.arg 16 1)).rect.y0 + (s.basin (r.arg 16 1)).rect.x0 }))
      (fun e v => modeBody_lattice (s := { s with eps := e, svc := v }) hb hm h18 hset hl hgood hidle hload) rfl fun _ _ _ _ _ => rfl
  · exact ⟨queryResult s (r.arg 16 1), answersOnly_of_reading rfl ha fun e v => (if_neg (Nat.not_lt.mpr hb)), queryResult_tenant s _⟩
  · refine answeredAfter_of_commit rfl ha (a := weightsReply r s)
      (fun e v => resizeBody_weights (s := { s with eps := e, svc := v }) hb hset hf hp hw hload hr hl ho hsave)
      rfl rfl rfl fun o e v l m _ => ?_
    obtain ⟨w, heq, hrect, hpow, hlink⟩ := applyResize_weights r s { s with eps := e, svc := v, ledger := l, sent := m } (r.arg 16 1)
      (basinDetail (r.arg 16 1) false (s.basin (r.arg 16 1)).rect (keptSegs s (r.arg 16 1)).length) o
    simp only [weightsReply]
    rw [heq, State.basin_setBasin]
    exact ⟨hrect, hpow, hlink, rfl, fun k hk => State.basin_setBasin_ne _ hk _⟩
  · exact answersOnly_of_reading rfl ha fun e v => destroyBody_busy (s := { s with eps := e, svc := v }) hb he hz hg hbusy
  · obtain ⟨d, hd⟩ := destroyBody_ok hb he hz hg hl hw
    refine answeredAfter_of_commit rfl ha (fun e v => hd) rfl rfl rfl fun o e v l m _ => ?_
    obtain ⟨hfree, hown, hclosed⟩ := destroyBasin_spec { s with eps := e, svc := v, ledger := l, sent := m } (r.arg 16 1) d o
    exact ⟨hfree, fun k hk => hown k (mem_keptSegs hk hw), hclosed⟩

end Sys2Proof.Machine
end

section
/-! PROOFS. The window and segment commands (R177 to R180). -/

namespace Sys2Proof.Machine

/-- What every step of a walk leaves alone, the walk leaves alone. -/
theorem foldl_keeps {α β γ : Type} (g : β → α → β) (f : β → γ) (h : ∀ b a, f (g b a) = f b) (l : List α) (b : β) :
    f (l.foldl g b) = f b := by
  induction l generalizing b with
  | nil => rfl
  | cons a l ih => exact (ih _).trans (h b a)

/-! ### Windows -/

section
variable {r : Request} {s : State}

theorem openBody_ok (hk : r.arg 16 1 ≤ 63) (hb : (windowOf r).basin ≤ 31) (hr : r.arg 18 1 ≤ 7) (h16 : 16 ≤ (windowOf r).size)
    (h29 : (windowOf r).size ≤ 29) (hal : (windowOf r).base % 2 ^ (windowOf r).size = 0)
    (hin : (windowOf r).base + 2 ^ (windowOf r).size ≤ 0x20000000) (hc1 : 1 ≤ (windowOf r).credits) (hc32 : (windowOf r).credits ≤ 32)
    (hn1 : 1 ≤ r.arg 25 1) (hn8 : r.arg 25 1 ≤ 8) (hcl : (s.window (r.arg 16 1)).state = .closed)
    (hset : settled s (windowOf r).basin = true)
    (hkept : ∀ g ∈ segsOf (windowOf r).base ((windowOf r).base + 2 ^ (windowOf r).size), keptBy s g = some (windowOf r).basin) :
    openBody r s = { detail := some (windowDetail (r.arg 16 1) (windowOf r))
                     commit := fun _ t => t.setWindow (r.arg 16 1) { windowOf r with ended := (t.window (r.arg 16 1)).ended } } := by
  have hsize : Memory.size = 0x20000000 := rfl
  have hargs : ¬(63 < r.arg 16 1 ∨ 31 < (windowOf r).basin ∨ 7 < r.arg 18 1 ∨ (windowOf r).size < 16 ∨ 29 < (windowOf r).size
      ∨ (windowOf r).base % 2 ^ (windowOf r).size ≠ 0 ∨ Memory.size < (windowOf r).base + 2 ^ (windowOf r).size
      ∨ (windowOf r).credits < 1 ∨ 32 < (windowOf r).credits ∨ r.arg 25 1 < 1 ∨ 8 < r.arg 25 1) := by
    rw [hsize]
    omega
  have hconflict : ¬((s.window (r.arg 16 1)).state ≠ .closed ∨ (!settled s (windowOf r).basin) = true
      ∨ (segsOf (windowOf r).base ((windowOf r).base + 2 ^ (windowOf r).size)).any (fun g => keptBy s g != some (windowOf r).basin) = true) := by
    rw [hset]
    rintro (h | h | h)
    · exact h hcl
    · cases h
    · obtain ⟨g, hg, hne⟩ := List.any_eq_true.mp h
      rw [hkept g hg] at hne
      simp at hne
  exact (if_neg hargs).trans (if_neg hconflict)

theorem windowRaw_length (s : State) (k : Nat) : (windowRaw s k).length = 80 := by
  unfold windowRaw
  dsimp only
  split
  · simp
  · rw [lset, List.length_set, padTo_length]

theorem listBody_raw (hk : r.arg 16 1 ≤ 63) (h1 : r.arg 17 1 = 1) :
    cmdWindowList.body r s = Reply.data (windowRaw s (r.arg 16 1)) := by
  have hargs : ¬(63 < r.arg 16 1 ∨ 1 < r.arg 17 1) := by omega
  exact (if_neg hargs).trans (congrArg Reply.data (if_neg (by omega)))

theorem closeBody_closed (hk : r.arg 16 1 ≤ 63) (hc : (s.window (r.arg 16 1)).state = .closed) :
    closeBody r s = Reply.no stConflict := (if_neg (Nat.not_lt.mpr hk)).trans (if_pos hc)

/-! ### Segments -/

/-- SEG.FILL at one segment: busy, its bytes undefined, and a filling queued at its slice. -/
def fillSegment (v : W64) (t : State) (k : Nat) : State :=
  queueSegment v ((t.modSeg k (fun g => { g with busy := true })).forget (0x100000 * k) 0x100000) k

theorem touchesSeg_fillSegment (v : W64) : TouchesSeg (fillSegment v) (fun g => { g with busy := true }) :=
  (touchesSeg_modSeg _).then (q := fun u k => queueSegment v (u.forget (0x100000 * k) 0x100000) k) fun _ _ => queueSegment_segs _ _ _

theorem fillSegment_keeps (v : W64) (t : State) (k : Nat) :
    (fillSegment v t k).die = t.die ∧ (fillSegment v t k).store.fills = t.store.fills := by
  unfold fillSegment queueSegment
  dsimp only
  split <;> exact ⟨rfl, rfl⟩

/-- SEG.FILL on the segments `l`. -/
def fillSegments (v : W64) (l : List Nat) (d : List Byte) (o : Origin) (s : State) : State :=
  let s1 := l.foldl (fillSegment v) s
  { s1 with store := { s1.store with fills := s1.store.fills ++ [⟨v, l, d, o⟩] } }

theorem fillSegments_spec (v : W64) (l : List Nat) (d : List Byte) (o : Origin) (s : State) :
    let t := fillSegments v l d o s
    (∀ j ∈ l, (t.seg j).busy = true) ∧ (∀ j, j ∉ l → t.seg j = s.seg j) ∧ t.die = s.die
      ∧ t.store.fills.length = s.store.fills.length + 1 := by
  have hseg : ∀ j, (fillSegments v l d o s).seg j = if j ∈ l then { s.seg j with busy := true } else s.seg j :=
    (touchesSeg_fillSegment v).foldl (fun _ => rfl) l s
  have hdie : (l.foldl (fillSegment v) s).die = s.die := foldl_keeps _ State.die (fun t k => (fillSegment_keeps v t k).1) l s
  have hfills : (l.foldl (fillSegment v) s).store.fills = s.store.fills :=
    foldl_keeps _ (fun t => t.store.fills) (fun t k => (fillSegment_keeps v t k).2) l s
  refine ⟨fun j hj => ?_, fun j hj => ?_, hdie, ?_⟩
  · rw [hseg, if_pos hj]
  · rw [hseg, if_neg hj]
  · simp [fillSegments, hfills]

/-- What SEG.FILL answers and commits where it passes. -/
def segFillReply (r : Request) : Reply :=
  { status := stAccepted, detail := some (segDetail r 0 (segMask r 24).length)
    commit := fillSegments (BitVec.ofNat 64 (r.arg 16 8)) (segMask r 24) (segDetail r 0 (segMask r 24).length) }

theorem segFillBody_ok (hl : ∀ j ∈ segMask r 24, (s.seg j).power = .on ∧ (s.seg j).retired = false ∧ (s.seg j).busy = false ∧ savesSeized s j = false) :
    segFillBody r s = segFillReply r := by
  have hconflict : ¬(segMask r 24).any (fun k => (s.seg k).power == .off || (s.seg k).retired || savesSeized s k) = true := by
    rw [List.any_eq_true]
    rintro ⟨k, hk, h⟩
    obtain ⟨hpow, hret, -, hsave⟩ := hl k hk
    rw [hpow, hret, hsave] at h
    cases h
  have hbusy : ¬(segMask r 24).any (fun k => (s.seg k).power == .waking || (s.seg k).busy) = true := by
    rw [List.any_eq_true]
    rintro ⟨k, hk, h⟩
    obtain ⟨hpow, -, hb, -⟩ := hl k hk
    rw [hpow, hb] at h
    cases h
  unfold segFillBody segFillReply fillSegments
  generalize segMask r 24 = l at *
  exact (if_neg hconflict).trans (if_neg hbusy)

theorem segPowerBody_nothing (ha : r.arg 16 1 ≤ 1) (hl : segMask r 24 = []) :
    segPowerBody r s = { result := [0, 0], commit := fun _ t => if r.arg 16 1 = 0 then t else t } := by
  have hargs : ¬1 < r.arg 16 1 := by omega
  simp only [segPowerBody, hl, List.filter_nil, List.any_nil, if_neg hargs, List.isEmpty_nil, Bool.not_true, Bool.and_false,
    Bool.false_eq_true, and_false, if_false, if_true, List.foldl_nil, List.length_nil]
  rfl

/-- A body that only returns data and whose commit changes nothing. -/
theorem answersOnly_of_idle {i : Instr} {c : Cmd} (h : mailRow i = some (c, r)) (ha : Admitted c r s) {l : List Byte}
    {g : Origin → State → State} (hg : ∀ o t, g o t = t)
    (hb : ∀ e v, c.body r { s with eps := e, svc := v } = { result := l, commit := g }) : AnswersOnly i c r s stOk l := by
  have hbody : c.body r (serviceStart c r s) = { result := l, commit := g } := by
    rw [serviceStart_frame]
    exact hb _ _
  rw [AnswersOnly, exec_admitted i c r s h ha, admittedState, hbody]
  simp [commitStep, hg, passes, stOk]

end

/-- Settles O30: a fill walks over its segments, each step marking one and queueing its filling. -/
theorem windowAndSegmentCommandsTakeEffect : Obligations.WindowAndSegmentCommandsTakeEffect := by
  unfold Obligations.WindowAndSegmentCommandsTakeEffect
  intro r s
  refine ⟨fun ha hk hb hr h16 h29 hal hin hc1 hc32 hn1 hn8 hcl hset hkept => ?_, fun ha hk h1 => ?_, fun ha hk hc => ?_, fun ha hl => ?_,
    fun ha hk hl => ?_⟩
  · exact commitsWith_of_commit rfl ha
      (fun e v => openBody_ok (s := { s with eps := e, svc := v }) hk hb hr h16 h29 hal hin hc1 hc32 hn1 hn8 hcl hset hkept)
      rfl fun _ _ _ _ _ => rfl
  · exact ⟨windowRaw s (r.arg 16 1), answersOnly_of_reading rfl ha fun _ _ => listBody_raw hk h1, windowRaw_length _ _⟩
  · exact answersOnly_of_reading rfl ha fun e v => closeBody_closed (s := { s with eps := e, svc := v }) hk hc
  · have hsame : ∀ e v j, savesSeized { s with eps := e, svc := v } j = savesSeized s j := fun _ _ _ => rfl
    have hbody : ∀ e v, cmdSegFill.body r { s with eps := e, svc := v } = segFillReply r := by
      intro e v
      simp only [cmdSegFill]
      exact segFillBody_ok fun j hj => by rw [hsame]; exact hl j hj
    refine answeredAfter_of_commit rfl ha hbody rfl rfl rfl fun o e v l m _ => ?_
    simp only [segFillReply]
    generalize segMask r 24 = ks
    exact fillSegments_spec _ ks _ o { s with eps := e, svc := v, ledger := l, sent := m }
  · exact answersOnly_of_idle rfl ha (fun _ _ => ite_self _) fun _ _ => segPowerBody_nothing hk hl

end Sys2Proof.Machine
end

section
/-! PROOFS. The service rows take requests in their order (R106, R107, R111 to R116). -/

namespace Sys2Proof.Machine

variable {s : State}

/-- The first that is ready is found. -/
theorem find?_first {α : Type} {p : α → Bool} {l m : List α} {e : α} (hl : l.all (fun f => !p f) = true) (he : p e = true) :
    (l ++ e :: m).find? p = some e := by
  have hnone : l.find? p = none := by simpa [List.find?_eq_none] using hl
  rw [List.find?_append, hnone, Option.none_or, List.find?_cons_of_pos he]

/-- The state in which a request taken from its ring is served. -/
theorem requestServiceStart_found {e : Fin 6} {l m : List (Fin 6)} (hf : normalFree s = true) (hr : roundRobin s.svc.last = l ++ e :: m)
    (hl : l.all (fun f => !ready s f) = true) (he : ready s e = true) (commit : Bool) :
    exec (.requestServiceStart commit) s = .next (
      if commit then serveCode (takeRequest s e).1.1 (takeRequest s e).1.2 (takeRequest s e).2
      else preempt (takeRequest s e).1.1 (takeRequest s e).1.2 (takeRequest s e).2) := by
  change execRequestServiceStart commit s = _
  have hfirst : (roundRobin s.svc.last).find? (ready s) = some e := hr ▸ find?_first hl he
  simp only [execRequestServiceStart, hf, hfirst, Bool.not_true, Bool.false_eq_true, if_false]

theorem requestServiceStart_idle (b : Bool) (h : (∀ e, ready s e = false) ∨ normalFree s = false) :
    exec (.requestServiceStart b) s = .next s := by
  change execRequestServiceStart b s = _
  unfold execRequestServiceStart
  rcases h with h | h
  · have hnone : (roundRobin s.svc.last).find? (ready s) = none := by simp [List.find?_eq_none, h]
    rw [hnone]
    exact congrArg _ (ite_self _)
  · rw [h]
    rfl

theorem serveCode_some {code : W16} {c : Cmd} (h : commandOf code = some c) (r : Request) : serveCode code r s = serve c r s := by
  rw [serveCode, h]

theorem serveCode_none {code : W16} (h : commandOf code = none) (r : Request) : serveCode code r s = respond s code r stBadArg [] none := by
  rw [serveCode, h]

theorem preempt_passes {code : W16} {c : Cmd} (h : commandOf code = some c) {r : Request} (hp : passes (replyTo c r s).status = true) :
    preempt code r s = { s with svc := { s.svc with normal := some { req := r, cmd := code, passed := true } } } := by
  simp only [preempt, h, hp, if_true]

theorem urgentServiceStart_found {e : Fin 6} {r : List Nat} (hq : s.svc.urgentQ = (e : Nat) :: r) (ht : transportUp s e = true)
    (hu : s.svc.urgent = none) (hm : s.svc.muted = false) (hz : s.seize = none) :
    exec .urgentServiceStart s = .next (serveCode (parseSlot e true (s.ep e).urgSrc (s.ep e).urgReq).1
      (parseSlot e true (s.ep e).urgSrc (s.ep e).urgReq).2 { s with svc := { s.svc with urgentQ := r } }) := by
  change execUrgentServiceStart s = _
  have he : Fin.ofNat 6 (e : Nat) = e := Fin.ofNat_val_eq_self e
  simp only [execUrgentServiceStart, hq, hu, hm, List.find?_cons_of_pos ht, he, List.erase_cons_head, besideSeizure, hz,
    Option.isSome_none, Bool.or_self, Bool.false_eq_true, if_false]

/-- A request that still passes its checks is carried out, however it came back. -/
theorem serveWith_of_passes {c : Cmd} {r : Request} (h : passes (replyTo c r s).status = true) (st : Option W16) :
    serveWith c r s st = serve c r s := by
  simp only [serve, serveWith, h, Bool.not_true, Bool.false_eq_true, if_false]

theorem serveWith_of_not_passes {c : Cmd} {r : Request} (h : passes (replyTo c r s).status = false) (st : W16) :
    serveWith c r s (some st) = respond s c.code r st [] none := by
  simp [serveWith, h]

theorem preemptedCommandResume_found {k : InService} {c : Cmd} (hn : s.svc.normal = some k) (hw : k.waiting = false) (hu : s.svc.urgent = none)
    (hq : s.svc.urgentQ = []) (hp : s.svc.paused = false) (hi : inPause s = false) (ht : transportUp s k.req.ep = true)
    (hc : commandOf k.cmd = some c) :
    exec .preemptedCommandResume s = .next (serveWith c k.req { s with svc := { s.svc with normal := none } } (some stConflict)) := by
  change execPreemptedCommandResume s = _
  simp only [execPreemptedCommandResume, hn, hw, hu, hq, hp, hi, ht, hc]
  rfl

/-- Settles O32: each row comes to the service of the request that it takes. -/
theorem serviceRowsTakeRequestsInTheirOrder : Obligations.ServiceRowsTakeRequestsInTheirOrder := by
  unfold Obligations.ServiceRowsTakeRequestsInTheirOrder
  intro s
  refine ⟨fun e l m hf hr hl he => ⟨fun c hc => ?_, fun hc => ?_, fun c hc hp => ?_⟩, fun b h => requestServiceStart_idle b h,
    fun e r hq ht hu hm hz => ⟨fun c hc => ?_, fun hc => ?_⟩, fun hq => ?_, fun k c hn hw hu hq hp hi ht hc => ⟨fun h => ?_, fun h => ?_⟩⟩
  · exact (requestServiceStart_found hf hr hl he true).trans (congrArg Host.Outcome.next (serveCode_some hc _))
  · exact (requestServiceStart_found hf hr hl he true).trans (congrArg Host.Outcome.next (serveCode_none hc _))
  · exact (requestServiceStart_found hf hr hl he false).trans (congrArg Host.Outcome.next (preempt_passes hc hp))
  · rw [urgentServiceStart_found hq ht hu hm hz, serveCode_some hc]
  · rw [urgentServiceStart_found hq ht hu hm hz, serveCode_none hc]
  · change execUrgentServiceStart s = _
    simp [execUrgentServiceStart, hq]
  · rw [preemptedCommandResume_found hn hw hu hq hp hi ht hc, serveWith_of_passes h]
  · rw [preemptedCommandResume_found hn hw hu hq hp hi ht hc, serveWith_of_not_passes h]

end Sys2Proof.Machine
end

section
/-! PROOFS. The resets of the whole chiplet (R28, R36 to R41, R60 to R66). -/

namespace Sys2Proof.Machine

/-! ### Entries that waited for the end of a pause (R66) -/

/-- Appends touch the ledger and what leaves the chiplet alone. -/
theorem foldl_append_frame (l : List LedgerEntry) (s : State) :
    l.foldl append s = { s with ledger := (l.foldl append s).ledger, sent := (l.foldl append s).sent } := by
  induction l generalizing s with
  | nil => rfl
  | cons e l ih =>
    rw [List.foldl_cons, ih, append_frame s e]

theorem foldl_append_head (l : List LedgerEntry) (s : State) :
    (l.foldl append s).ledger.head = s.ledger.head + BitVec.ofNat 32 l.length := by
  induction l generalizing s with
  | nil => simp
  | cons e l ih =>
    rw [List.foldl_cons, ih, append_head, List.length_cons]
    bv_omega

theorem flushWaiting_frame (s : State) :
    flushWaiting s = { s with fw := { s.fw with waiting := [] }, ledger := (flushWaiting s).ledger, sent := (flushWaiting s).sent } :=
  foldl_append_frame _ _

theorem flushWaiting_head (s : State) : (flushWaiting s).ledger.head = s.ledger.head + BitVec.ofNat 32 s.fw.waiting.length :=
  foldl_append_head _ _

theorem flushWaiting_nothing {s : State} (h : s.fw.waiting = []) :
    (flushWaiting s).ledger = s.ledger ∧ (flushWaiting s).sent = s.sent := by
  rw [flushWaiting, h]
  exact ⟨rfl, rfl⟩

/-! ### CHIP_RST_N asserted (R36, R62, R394) -/

/-- A table made over a range holds what it was made of. -/
theorem tget_map_range {α : Type} (d : α) (f : Nat → α) {n k : Nat} (h : k < n) :
    tget d ((List.range n).map (fun l => (l, f l))) k = f k := by
  have hgen : ∀ l : List Nat, k ∈ l → tget d (l.map (fun l => (l, f l))) k = f k := by
    intro l
    induction l with
    | nil => exact fun hk => absurd hk List.not_mem_nil
    | cons j l ih =>
      intro hk
      rw [List.map_cons, tget]
      split
      next heq => rw [heq]
      next hne => exact ih ((List.mem_cons.mp hk).resolve_left fun h => hne h.symm)
  exact hgen _ (List.mem_range.mpr h)

theorem nextLives_life (t : Tab W16) (l : Fin 64) : tget 0 (nextLives t) l = tget 0 t l + 1 := tget_map_range _ _ l.isLt

/-- STOP on every port that is UP, and STOP_NOTICE. -/
def announceReset (s : State) : State :=
  (((List.range 20).filter (portUp s)).foldl (fun t q => (List.range 3).foldl (fun u _ => u.emit (.stop q 4)) t) s).emit
    (.sideband 0x05 [4, 0])

theorem foldl_emit_frame {α : Type} (f : α → Sent) (l : List α) (s : State) :
    ∃ m, l.foldl (fun u a => u.emit (f a)) s = { s with sent := m } := by
  induction l generalizing s with
  | nil => exact ⟨_, rfl⟩
  | cons a l ih => exact ih _

theorem announceReset_frame (s : State) : ∃ l, announceReset s = { s with sent := l ++ [.sideband 0x05 [4, 0]] } := by
  have h : ∀ (l : List Nat) (t : State),
      ∃ m, l.foldl (fun t q => (List.range 3).foldl (fun u _ => u.emit (.stop q 4)) t) t = { t with sent := m } := by
    intro l
    induction l with
    | nil => exact fun t => ⟨_, rfl⟩
    | cons q l ih =>
      intro t
      obtain ⟨m, hm⟩ := foldl_emit_frame (fun _ => Sent.stop q 4) (List.range 3) t
      obtain ⟨n, hn⟩ := ih { t with sent := m }
      exact ⟨n, by rw [List.foldl_cons, hm, hn]⟩
  obtain ⟨m, hm⟩ := h ((List.range 20).filter (portUp s)) s
  exact ⟨m, by rw [announceReset, hm, State.emit]⟩

theorem assertReset_eq (s : State) : assertReset s = warmState (releaseAlerts (announceReset s)) 1 true := rfl

/-- Settles O34: an assertion announces itself, appends what waited, and clears. -/
theorem resetPulsesClearAllButTheKept : Obligations.ResetPulsesClearAllButTheKept := by
  unfold Obligations.ResetPulsesClearAllButTheKept
  intro ns s
  have hexec : ∀ n, exec (.chipRstNAssert n) s = execChipRstNAssert n s := fun _ => rfl
  simp only [hexec]
  refine ⟨fun h => if_pos h, fun h1 h2 => ?_, fun h hr => ?_, fun h hr hd => ?_⟩
  · exact (if_neg (Nat.not_lt.mpr h1)).trans (if_pos h2)
  · simp [execChipRstNAssert, Nat.not_lt.mpr h, show ¬ns < 200 by omega, hr]
  · obtain ⟨l, hl⟩ := announceReset_frame s
    have hx : execChipRstNAssert ns s = .next (warmState (releaseAlerts { s with sent := l ++ [.sideband 0x05 [4, 0]] }) 1 true) := by
      simp [execChipRstNAssert, Nat.not_lt.mpr h, show ¬ns < 200 by omega, hr, hd, assertReset_eq, hl]
    refine ⟨_, (hexec ns).trans hx, ?_⟩
    let u := releaseAlerts { s with sent := l ++ [.sideband 0x05 [4, 0]] }
    have hhead : (flushWaiting u).ledger.head = s.ledger.head + BitVec.ofNat 32 s.fw.waiting.length := flushWaiting_head u
    have hnone : s.fw.waiting = [] → (flushWaiting u).ledger = s.ledger ∧ (flushWaiting u).sent = u.sent :=
      fun hw => flushWaiting_nothing (s := u) hw
    change (fun t : State => _) (warmState u 1 true)
    unfold warmState
    dsimp only
    rw [flushWaiting_frame u]
    exact ⟨rfl, rfl, rfl, rfl, rfl, rfl, rfl, nextLives_life _, rfl, rfl, fun hw => by dsimp only; rw [(hnone hw).1], hhead, rfl, rfl, rfl, rfl,
      rfl, rfl, rfl, rfl, rfl, rfl, rfl, fun hw => ⟨l, (hnone hw).2⟩⟩

/-! ### Device events (R66, R117) -/

/-- A device event is an entry, now or at the end of a pause. -/
theorem event_frame (s : State) (c : W16) (d : List Byte) :
    event s c d = { s with leat := { s.leat with events := s.leat.events + 1 }
                           fw := { s.fw with waiting := (event s c d).fw.waiting }
                           ledger := (event s c d).ledger, sent := (event s c d).sent } := by
  unfold event appendLater
  split
  · rfl
  · rw [append_frame]
    rfl

theorem event_eq {s : State} (h : inPause s = false) (c : W16) (d : List Byte) :
    event s c d = append (countEvent s) (eventEntry s c d) := by
  have hp : inPause (countEvent s) = false := h
  simp [event, appendLater, hp]

theorem event_head {s : State} (h : inPause s = false) (c : W16) (d : List Byte) : (event s c d).ledger.head = s.ledger.head + 1 := by
  rw [event_eq h, append_head]
  rfl

/-! ### The entry to stage 0 (R38, R66, R385) -/

/-- A walk over different places changes each as its step does, and no other; the step may rest on what the walk keeps. -/
theorem walk_get {σ α : Type} (get : σ → Nat → α) (g : σ → Nat → σ) (f : Nat → α → α) (keep : σ → Prop) (l : List Nat)
    (hk : ∀ t, ∀ k ∈ l, keep t → keep (g t k)) (hg : ∀ t, ∀ k ∈ l, ∀ j, keep t → get (g t k) j = if j = k then f k (get t k) else get t j)
    (hl : l.Nodup) (t : σ) (ht : keep t) (j : Nat) :
    get (l.foldl g t) j = if j ∈ l then f j (get t j) else get t j := by
  induction l generalizing t with
  | nil => simp
  | cons k l ih =>
    obtain ⟨hkl, hnd⟩ := List.nodup_cons.mp hl
    rw [List.foldl_cons, ih (fun t i hi => hk t i (List.mem_cons_of_mem _ hi)) (fun t i hi => hg t i (List.mem_cons_of_mem _ hi)) hnd _
      (hk t k List.mem_cons_self ht), hg t k List.mem_cons_self j ht]
    by_cases hj : j = k
    · rw [hj]
      simp [hkl]
    · simp [hj]

theorem restPorts_port (s : State) (q : Nat) :
    (restPorts s).port q = if q < 8 then { state := lnBase, since := s.time.elapsed } else s.port q := by
  have h := walk_get State.port (fun t q => t.setPort q { state := lnBase, since := s.time.elapsed })
    (fun _ _ => { state := lnBase, since := s.time.elapsed }) (fun _ => True) (List.range 8) (fun _ _ _ _ => trivial)
    (fun t k _ j _ => ?_) List.nodup_range s trivial q
  · simpa [restPorts] using h
  · by_cases hj : j = k
    · rw [hj, if_pos rfl, State.port_setPort]
    · rw [if_neg hj, State.port_setPort_ne _ hj]

theorem restPorts_frame (s : State) : ∃ l, restPorts s = { s with links := l } := by
  have h : ∀ (l : List Nat) (t : State), ∃ m,
      l.foldl (fun t q => t.setPort q { state := lnBase, since := s.time.elapsed }) t = { t with links := m } := by
    intro l
    induction l with
    | nil => exact fun t => ⟨_, rfl⟩
    | cons q l ih => exact fun t => ih _
  exact h _ s

/-- The entry of a warm reset is appended as stage 0 is entered. -/
def enterEvent (s : State) : State :=
  match s.aon.entry with
  | some c => resetEvent { s with aon := { s.aon with entry := none } } 1 c.toNat 0xFF
  | none => s

theorem enterEvent_frame (s : State) :
    enterEvent s = { s with aon := { s.aon with entry := none }, leat := (enterEvent s).leat
                            fw := { s.fw with waiting := (enterEvent s).fw.waiting }
                            ledger := (enterEvent s).ledger, sent := (enterEvent s).sent } := by
  unfold enterEvent
  split
  · rw [resetEvent, event_frame]
  next h =>
    have ha : { s.aon with entry := none } = s.aon := by rw [← h]
    rw [ha]

theorem enterEvent_head {s : State} (h : s.fw.hand = none) :
    (enterEvent s).ledger.head = s.ledger.head + (if s.aon.entry.isSome then 1 else 0) := by
  unfold enterEvent
  split
  next c hc =>
    rw [resetEvent, event_head (by simp [inPause, h]), hc]
    rfl
  next hc =>
    rw [hc]
    simp

theorem enterStage0_eq (s : State) :
    enterStage0 s = { restPorts (enterEvent (endStops s)) with
      fabric := { (restPorts (enterEvent (endStops s))).fabric with shape := proposedShape (restPorts (enterEvent (endStops s))) } } := rfl

/-- The state with which stage 0 is entered at a release. -/
def released (p : Straps) (s : State) : State :=
  { s with boot := { s.boot with rstLow := false, pins := p }, aon := { s.aon with rails := 0x3F }, leat := clearLeat s.leat }

theorem chipRstNRelease_eq {s : State} (hr : s.boot.rstLow = true) (hd : s.boot.dead = false) (p : Straps) :
    exec (.chipRstNRelease p) s = .next (enterStage0 (released p s)) := by
  change execChipRstNRelease p s = _
  simp only [execChipRstNRelease, hr, hd, Bool.not_true, Bool.or_self, Bool.false_eq_true, if_false]
  rfl

/-- Settles O35: the parts of the entry to stage 0, one after the other. -/
theorem releaseSamplesTheStraps : Obligations.ReleaseSamplesTheStraps := by
  unfold Obligations.ReleaseSamplesTheStraps
  intro p s
  refine ⟨fun hr hd hl hh => ⟨_, chipRstNRelease_eq hr hd p, ?_⟩, fun hr => ?_⟩
  · let v := endStops (released p s)
    have hport : ∀ q, (restPorts (enterEvent v)).port q = if q < 8 then { state := lnBase, since := (enterEvent v).time.elapsed } else {} := by
      intro q
      rw [restPorts_port, enterEvent_frame v]
      change (if q < 8 then _ else tget {} s.links q) = _
      rw [hl]
      rfl
    have hhead : (enterEvent v).ledger.head = s.ledger.head + (if s.aon.entry.isSome then 1 else 0) := enterEvent_head (s := v) hh
    obtain ⟨l, hrest⟩ := restPorts_frame (enterEvent v)
    have hports : ∀ q : Fin 20, ((enterStage0 (released p s)).port q).state = if q.val < 8 then lnBase else lnDown := by
      intro q
      change ((restPorts (enterEvent v)).port q).state = _
      rw [hport]
      split <;> rfl
    rw [enterStage0_eq, hrest] at hports ⊢
    rw [enterEvent_frame v] at hhead hports ⊢
    exact ⟨rfl, rfl, rfl, hports, rfl, rfl, rfl, rfl, rfl, hhead⟩
  · change execChipRstNRelease p s = _
    simp [execChipRstNRelease, hr]

/-! ### Cold resets (R28, R32, R90) -/

theorem transportUp_of_dead {s : State} (h : s.boot.dead = true) (e : Nat) : transportUp s e = false := by
  simp [transportUp, h]

/-- Settles O36: a cold reset makes the state anew. -/
theorem coldResetKeepsOnlyTheFuses : Obligations.ColdResetKeepsOnlyTheFuses := by
  unfold Obligations.ColdResetKeepsOnlyTheFuses
  intro s
  refine ⟨⟨coldState s, rfl, ?_⟩, ⟨_, rfl, ?_⟩, ⟨_, rfl, rfl, transportUp_of_dead rfl⟩⟩
  · exact ⟨⟨rfl, rfl, rfl, rfl, rfl, rfl, rfl, rfl, rfl, rfl, rfl, rfl, rfl, rfl, rfl, rfl⟩, rfl⟩
  · exact ⟨⟨rfl, rfl, rfl, rfl, rfl, rfl, rfl, rfl, rfl, rfl, rfl, rfl, rfl, rfl, rfl, rfl⟩, rfl, transportUp_of_dead rfl⟩

end Sys2Proof.Machine
end

section
/-! PROOFS. What a port that loses its link touches, and what it leaves (R384, R387, R394). -/

namespace Sys2Proof.Machine

/-- From `s` to `t` the chiplet has only sent, changed its ports, its reads and the credits of its windows, and forgotten partners in
time. -/
structure Losing (s t : State) : Prop where
  rest : t = { s.withNet t with time := t.time }
  sent : s.sent <+: t.sent
  window : ∀ k, (s.window k).SameBut (t.window k)
  time : t.time = { s.time with partners := t.time.partners, parent := t.time.parent, holdover := t.time.holdover }

theorem Granting.losing {s t : State} (h : Granting s t) : Losing s t where
  rest := by
    rw [h.time]
    exact h.rest
  sent := h.sent
  window := h.window
  time := by rw [h.time]

namespace Losing

variable {s t u : State}

theorem refl (s : State) : Losing s s := (Granting.refl s).losing

theorem trans (h : Losing s t) (k : Losing t u) : Losing s u where
  rest := by
    rw [k.rest, h.rest]
    rfl
  sent := h.sent.trans k.sent
  window := fun w => (h.window w).trans (k.window w)
  time := by
    rw [k.time, h.time]

/-- The later step first: what it begins from is known from what it ends in. -/
theorem after (k : Losing t u) (h : Losing s t) : Losing s u := h.trans k

theorem ite {p : Prop} [Decidable p] (h : Losing s t) (k : Losing s u) : Losing s (if p then t else u) := by
  split
  · exact h
  · exact k

theorem foldl {α : Type} (f : State → α → State) (hf : ∀ s a, Losing s (f s a)) (l : List α) (s : State) : Losing s (l.foldl f s) := by
  induction l generalizing s with
  | nil => exact refl s
  | cons a l ih => exact (hf s a).trans (ih _)

/-! What it leaves alone. -/

section
variable (h : Losing s t)
include h

theorem fuses : t.fuses = s.fuses := (congrArg State.fuses h.rest :)
theorem aon : t.aon = s.aon := (congrArg State.aon h.rest :)
theorem boot : t.boot = s.boot := (congrArg State.boot h.rest :)
theorem settings : t.settings = s.settings := (congrArg State.settings h.rest :)
theorem eps : t.eps = s.eps := (congrArg State.eps h.rest :)
theorem svc : t.svc = s.svc := (congrArg State.svc h.rest :)
theorem head : t.head = s.head := (congrArg State.head h.rest :)
theorem die : t.die = s.die := (congrArg State.die h.rest :)
theorem store : t.store = s.store := (congrArg State.store h.rest :)
theorem gateUnit : t.gateUnit = s.gateUnit := (congrArg State.gateUnit h.rest :)
theorem seize : t.seize = s.seize := (congrArg State.seize h.rest :)
theorem fabric : t.fabric = { s.fabric with waiting := t.fabric.waiting } := (congrArg State.fabric h.rest :)
theorem fw : t.fw = { s.fw with waiting := t.fw.waiting } := (congrArg State.fw h.rest :)

end

theorem setPort (s : State) (q : Nat) (p : Port) : Losing s (s.setPort q p) := ⟨rfl, List.prefix_rfl, fun _ => .refl _, rfl⟩
theorem modPort (s : State) (q : Nat) (f : Port → Port) : Losing s (s.modPort q f) := setPort s q _

theorem forgetPartner (s : State) (q : Nat) : Losing s (forgetPartner s q) := ⟨rfl, List.prefix_rfl, fun _ => .refl _, rfl⟩

theorem oweFor (s : State) (o : OutPacket) (n : Nat) : Losing s (oweFor s o n) := (Sending.oweFor s o n).losing

theorem cutForward (s : State) (q vc : Nat) : Losing s (cutForward s q vc) :=
  (foldl _ (fun t o => oweFor t o _) _ _).after ((foldl _ (fun t k => modPort t k _) _ _).after (Sending.waiting s _).losing)

theorem cutIncoming (s : State) (q vc : Nat) : Losing s (cutIncoming s q vc) := by
  unfold Machine.cutIncoming
  split
  · exact refl s
  next x _ =>
    have h := modPort s q (fun p => { p with incoming := tdel p.incoming vc })
    dsimp only
    split
    · exact h.trans (cutForward _ _ _)
    · exact ite ((Granting.loseUse _ _).losing.after h) h
    · exact h

theorem loseRead (s : State) (p : Packet) : Losing s (loseRead s p) := by
  unfold Machine.loseRead
  split
  next e _ =>
    have h : Granting s { s with dma := { s.dma with reads := s.dma.reads.erase e } } := ⟨rfl, List.prefix_rfl, fun _ => .refl _, fun _ => .refl _⟩
    exact (Granting.loseUse _ _).losing.after h.losing
  · exact refl s

theorem tellUnreachable (s : State) (p : Packet) : Losing s (tellUnreachable s p) := by
  unfold Machine.tellUnreachable
  dsimp only
  exact ite (ite (refl s) (Sending.postDone _ _ _ _ _ _ _ _).losing) (ite (ite (refl s) (Sending.postDone _ _ _ _ _ _ _ _).losing) (refl s))

theorem offerAgain {o : OutPacket} (h : offerAgain s o = some t) : Losing s t := (Sending.place h).losing

theorem discarded (s : State) (r a : Byte) (h : NetHdr) (n : Nat) : Losing s (discarded s r a h n) := (Sending.discarded _ _ _ _ _).losing

theorem offerAll (s : State) (l : List OutPacket) : Losing s (offerAll s l) := by
  unfold Machine.offerAll
  dsimp only
  generalize hf : (fun (t : State × List OutPacket) o => match Machine.offerAgain t.1 o with
    | some s' => (s', t.2)
    | none => (Machine.tellUnreachable (Machine.oweFor t.1 o o.kept) o.pkt, t.2 ++ [o])) = f
  have hstep : ∀ t o, Losing t.1 (f t o).1 := by
    intro t o
    rw [← hf]
    dsimp only
    split
    next s' hs => exact offerAgain hs
    next => exact (oweFor _ _ _).trans (tellUnreachable _ _)
  have hwalk : ∀ (l : List OutPacket) (t : State × List OutPacket), Losing t.1 (l.foldl f t).1 := by
    intro l
    induction l with
    | nil => exact fun t => refl _
    | cons o l ih => exact fun t => (hstep t o).trans (ih _)
  split
  · exact hwalk l (s, [])
  · exact (hwalk l (s, [])).trans (discarded _ _ _ _ _)

theorem loseLink (s : State) (q : Nat) (st : Byte) : Losing s (loseLink s q st) := by
  unfold Machine.loseLink
  dsimp only
  refine Losing.trans ?_ (Sending.flush _).losing
  refine Losing.trans ?_ (offerAll _ _)
  refine Losing.trans ?_ (foldl _ (fun t o => (oweFor t o _).trans (loseRead _ _)) _ _)
  refine Losing.trans ?_ (Sending.event _ _ _).losing
  refine Losing.trans ?_ (forgetPartner _ _)
  exact (foldl _ (fun t vc => cutIncoming t q vc) _ s).trans (modPort _ _ _)

theorem portDown (s : State) (q : Nat) (st : Byte) : Losing s (portDown s q st) :=
  ite (loseLink s q st) (setPort s q _)

theorem stopPorts (s : State) (c : Byte) (stop : Bool) : Losing s (stopPorts s c stop) := by
  unfold Machine.stopPorts
  dsimp only
  refine Losing.trans ?_ (foldl _ (fun t q => loseLink t q _) _ _)
  refine Losing.trans ?_ (foldl _ (fun t q => modPort t q _) _ _)
  exact ite (foldl _ (fun t q => foldl _ (fun u _ => (Sending.emit u _).losing) _ t) _ s) (refl s)

end Losing

/-! ### The ports while one loses its link -/

/-- From `s` to `t` every port has at most sent. -/
def Portwise (s t : State) : Prop := ∀ k, (s.port k).Alike (t.port k)

namespace Portwise

variable {s t u : State}

theorem refl (s : State) : Portwise s s := fun _ => .refl _
theorem trans (h : Portwise s t) (k : Portwise t u) : Portwise s u := fun q => (h q).trans (k q)

theorem foldl {α : Type} (f : State → α → State) (hf : ∀ s a, Portwise s (f s a)) (l : List α) (s : State) : Portwise s (l.foldl f s) := by
  induction l generalizing s with
  | nil => exact refl s
  | cons a l ih => exact (hf s a).trans (ih _)

theorem ofLinks (h : t.links = s.links) : Portwise s t := fun k => by
  rw [State.port, State.port, h]
  exact .refl _

theorem ofSending (h : Sending s t) : Portwise s t := h.port

theorem oweFor (s : State) (o : OutPacket) (n : Nat) : Portwise s (oweFor s o n) := ofSending (Sending.oweFor s o n)

theorem loseRead (s : State) (p : Packet) : Portwise s (loseRead s p) := by
  unfold Machine.loseRead
  split
  next e _ => exact (ofLinks (t := { s with dma := { s.dma with reads := s.dma.reads.erase e } }) rfl).trans (Granting.loseUse _ _).port
  · exact refl s

theorem tellUnreachable (s : State) (p : Packet) : Portwise s (tellUnreachable s p) := by
  have hdone : ∀ fa w x c i, Portwise s (Machine.postDone s fa w dcUnreachable x c i 0) := fun _ _ _ _ _ => (Sending.postDone _ _ _ _ _ _ _ _).port
  unfold Machine.tellUnreachable
  dsimp only
  split
  · split
    · exact refl s
    · exact hdone _ _ _ _ _
  · split
    · split
      · exact refl s
      · exact hdone _ _ _ _ _
    · exact refl s

theorem offerAll (s : State) (l : List OutPacket) : Portwise s (offerAll s l) := by
  unfold Machine.offerAll
  dsimp only
  generalize hf : (fun (t : State × List OutPacket) o => match Machine.offerAgain t.1 o with
    | some s' => (s', t.2)
    | none => (Machine.tellUnreachable (Machine.oweFor t.1 o o.kept) o.pkt, t.2 ++ [o])) = f
  have hstep : ∀ t o, Portwise t.1 (f t o).1 := by
    intro t o
    rw [← hf]
    dsimp only
    split
    next s' hs => exact (Sending.place hs).port
    next => exact (oweFor _ _ _).trans (tellUnreachable _ _)
  have hwalk : ∀ (l : List OutPacket) (t : State × List OutPacket), Portwise t.1 (l.foldl f t).1 := by
    intro l
    induction l with
    | nil => exact fun t => refl _
    | cons o l ih => exact fun t => (hstep t o).trans (ih _)
  split
  · exact hwalk l (s, [])
  · exact (hwalk l (s, [])).trans (Sending.discarded _ _ _ _ _).port

theorem cutForward (s : State) (q vc : Nat) : Portwise s (cutForward s q vc) := by
  have hqueue : ∀ (f : Port → List OutPacket) (t : State) (k : Nat), Portwise t (t.modPort k (fun p => { p with queue := f p })) :=
    fun f t k => ofSending (Sending.modPort t k (f := fun p => { p with queue := f p }) fun _ => rfl)
  exact ((ofSending (Sending.waiting s _)).trans (foldl _ (fun t k => hqueue _ t k) _ _)).trans (foldl _ (fun t o => oweFor t o _) _ _)

end Portwise

/-- What a port that is cut off leaves the other ports. -/
theorem cutIncoming_port (s : State) (q vc k : Nat) (hk : k ≠ q) : (s.port k).Alike ((cutIncoming s q vc).port k) := by
  unfold cutIncoming
  split
  · exact .refl _
  next x _ =>
    have h : (s.port k).Alike ((s.modPort q (fun p => { p with incoming := tdel p.incoming vc })).port k) := by
      rw [State.modPort, State.port_setPort_ne _ hk]
      exact .refl _
    dsimp only
    split
    · exact h.trans (Portwise.cutForward _ _ _ k)
    · split
      · exact h.trans ((Granting.loseUse _ _).port k)
      · exact h
    · exact h

/-- A port without its link. -/
def Port.unlinked (p : Port) (st : Byte) (now : Nat) : Port :=
  { p.fresh with state := st, since := now, step := 0, session := none, resume := false, reset := false, removed := true }

/-- The state in which a port has lost its link, before its packets find another way. -/
def cutOff (s : State) (q : Nat) (st : Byte) : State :=
  forgetPartner (((List.range 4).foldl (fun t vc => cutIncoming t q vc) s).modPort q (fun p => p.unlinked st s.time.elapsed)) q

theorem cutOff_port (s : State) (q : Nat) (st : Byte) (k : Nat) :
    if k = q then ∃ p : Port, (cutOff s q st).port q = p.unlinked st s.time.elapsed else (s.port k).Alike ((cutOff s q st).port k) := by
  have hwalk : ∀ (l : List Nat) (t : State), k ≠ q → (t.port k).Alike ((l.foldl (fun t vc => cutIncoming t q vc) t).port k) := by
    intro l
    induction l with
    | nil => exact fun t _ => .refl _
    | cons vc l ih => exact fun t hk => (cutIncoming_port t q vc k hk).trans (ih _ hk)
  have hports : ∀ t : State, ∀ j, (forgetPartner t q).port j = t.port j := fun _ _ => rfl
  split
  · exact ⟨_, (hports _ _).trans (State.port_setPort _ _ _)⟩
  next hk =>
    rw [cutOff, hports, State.modPort, State.port_setPort_ne _ hk]
    exact hwalk _ s hk

theorem loseLink_portwise (s : State) (q : Nat) (st : Byte) : Portwise (cutOff s q st) (loseLink s q st) :=
  (((Portwise.ofSending (Sending.event _ _ _)).trans (Portwise.foldl _ (fun t o => (Portwise.oweFor t o _).trans (Portwise.loseRead _ _)) _ _)).trans
    (Portwise.offerAll _ _)).trans (Portwise.ofSending (Sending.flush _))

/-- The port that loses its link is in its new state; every other has at most sent. -/
theorem loseLink_port (s : State) (q : Nat) (st : Byte) (k : Nat) :
    if k = q then ((loseLink s q st).port q).state = st ∧ ((loseLink s q st).port q).resume = false
    else (s.port k).Alike ((loseLink s q st).port k) := by
  have h := cutOff_port s q st k
  have hlater := loseLink_portwise s q st
  split
  next hk =>
    rw [if_pos hk] at h
    obtain ⟨p, hp⟩ := h
    have hq := hlater q
    rw [hp] at hq
    rw [hq]
    exact ⟨rfl, rfl⟩
  next hk =>
    rw [if_neg hk] at h
    exact h.trans (hlater k)

end Sys2Proof.Machine
end

section
/-! PROOFS. Every stop is latched, recorded and announced (R27, R35, R42, R43, R70, R511, R587). -/

namespace Sys2Proof.Machine

theorem mem_tput {α : Type} (t : Tab α) (k : Nat) (v : α) : (k, v) ∈ tput t k v := by
  induction t with
  | nil => exact List.mem_cons_self
  | cons e t ih =>
    obtain ⟨j, w⟩ := e
    rw [tput]
    split
    · exact List.mem_cons_self
    · split
      · exact List.mem_cons_self
      · exact List.mem_cons_of_mem _ ih

/-- The entry that an append makes is in the ledger, before its head. -/
theorem append_mem (s : State) (e : LedgerEntry) :
    ∃ f : Nat × LedgerEntry, f ∈ (append s e).ledger.entries ∧ f.2.cmd = e.cmd ∧ f.2.detail = e.detail
      ∧ f.2.seq + 1 = (append s e).ledger.head := by
  rw [append_ledger]
  exact ⟨_, mem_tput _ _ _, rfl, rfl, rfl⟩

/-- What a stop does beyond its latches: its notice, its entry, and the ports it takes down. -/
def Announced (s t : State) (cause item : Byte) (drop : Bool) : Prop :=
  t.aon = s.aon ∧ t.boot = s.boot ∧ t.die = s.die ∧ t.store = s.store
    ∧ (∃ l m, t.sent = l ++ .sideband 0x05 [cause, if drop then 1 else 0] :: m)
    ∧ ∃ e : Nat × LedgerEntry, e ∈ t.ledger.entries ∧ e.2.cmd = 0xE080 ∧ e.2.detail = padTo 8 [cause, item] ∧ e.2.seq + 1 = t.ledger.head

theorem stopLines_announced {s : State} (hd : s.boot.dead = false) (hr : s.boot.rstLow = false) (hz : s.seize = none)
    (cause item : Byte) (links drop : Bool) : Announced s (stopLines s cause item links drop) cause item drop := by
  have habort : abortSeizure s = s := by rw [abortSeizure, hz]
  have hside : sidebandUp s = true := by rw [sidebandUp, hd, hr]; rfl
  let u := (stopPorts s cause links).emit (.sideband 0x05 [cause, if drop then 1 else 0])
  have hu : Losing s u := (Losing.stopPorts s cause links).trans (Sending.emit _ _).losing
  have ht : Sending (countEvent u) (append (countEvent u) (eventEntry u 0xE080 [cause, item])) := Sending.append _ _
  have heq : stopLines s cause item links drop = append (countEvent u) (eventEntry u 0xE080 [cause, item]) := by
    simp only [stopLines, habort, hside, if_true]
    rfl
  rw [heq]
  refine ⟨ht.aon.trans hu.aon, ht.boot.trans hu.boot, ht.die.trans hu.die, ht.store.trans hu.store, ?_, append_mem _ _⟩
  obtain ⟨m, hm⟩ := ht.sent
  exact ⟨(stopPorts s cause links).sent, m, by rw [← hm]; exact List.append_assoc _ _ _⟩

/-- A row that latches, and then announces. -/
theorem latched {i : Instr} {s u : State} {cause item : Byte} {links : Bool} (hex : exec i s = .next (stopLines u cause item links (cause = 1)))
    (hd : s.boot.dead = false) (hr : s.boot.rstLow = false) (hboot : u.boot = s.boot) (hdie : u.die = s.die) (hstore : u.store = s.store)
    (hz : u.seize = none) (hstop : stopped u = true) :
    ∃ t, exec i s = .next t ∧ t.aon = u.aon ∧ stopped t = true
      ∧ (∃ l m, t.sent = l ++ .sideband 0x05 [cause, if cause = 1 then 1 else 0] :: m)
      ∧ (∃ e : Nat × LedgerEntry, e ∈ t.ledger.entries ∧ e.2.cmd = 0xE080 ∧ e.2.detail = padTo 8 [cause, item] ∧ e.2.seq + 1 = t.ledger.head)
      ∧ t.die = s.die ∧ t.store.mem = s.store.mem ∧ t.boot = s.boot := by
  obtain ⟨haon, hboot', hdie', hstore', hsent, hentry⟩ :=
    stopLines_announced (s := u) (hboot ▸ hd) (hboot ▸ hr) hz cause item links (cause = 1)
  refine ⟨_, hex, haon, ?_, ?_, hentry, hdie'.trans hdie, ?_, hboot'.trans hboot⟩
  · rw [stopped, haon]
    exact hstop
  · simpa using hsent
  · rw [hstore', hstore]

/-- Settles O37: each row is its latches and then `stopLines`. -/
theorem stopsAreLatched : Obligations.StopsAreLatched := by
  unfold Obligations.StopsAreLatched
  intro rail k s hd hr hz after
  refine ⟨fun hg => ?_, fun hg => ?_, fun hg => ?_, fun hg i hi => ?_, fun hg => ?_, fun hh => ?_⟩
  · have hbit : bit s.aon.rails.toNat rail = true := hg
    have hoff : (s.aon.rails &&& ~~~(BitVec.ofNat 6 (2 ^ (rail : Nat)))).getLsbD rail = false := by
      rw [BitVec.getLsbD_and, BitVec.getLsbD_not, BitVec.getLsbD_ofNat, Nat.testBit_two_pow_self]
      simp
    have hrow : exec (.railFault rail) s = .next (stopLines (modHead (modAon s (fun a => { a with
        stop := { a.stop with rail := true }, latch := { a.latch with rail := true }, alert := { a.alert with rail := true }
        railNum := rail, rails := a.rails &&& ~~~(BitVec.ofNat 6 (2 ^ (rail : Nat))) })) (fun h => setReason h trRailClock true))
        2 (byte rail) (rail.val != 3) (2 = (1 : Byte))) := by
      change execRailFault rail s = _
      simp only [execRailFault, hd, hbit]
      rfl
    obtain ⟨t, ht, haon, hs, hrest⟩ := latched hrow hd hr rfl rfl rfl hz (by simp [stopped, modHead, setHead, modAon])
    exact ⟨t, ht, hs, haon ▸ ⟨rfl, rfl, rfl, hoff, rfl⟩, hrest⟩
  · have hrow : exec .refclkLoss s = .next (stopLines (modHead (modAon s (fun a => { a with
        stop := { a.stop with refclk := true }, latch := { a.latch with refclk := true }, alert := { a.alert with refclk := true }
        refclkOk := false })) (fun h => setReason h trRailClock true))
        3 0xFF true (3 = (1 : Byte))) := by
      change execRefclkLoss s = _
      simp only [execRefclkLoss, hd, hg]
      rfl
    obtain ⟨t, ht, haon, hs, hrest⟩ := latched hrow hd hr rfl rfl rfl hz (by simp [stopped, modHead, setHead, modAon])
    exact ⟨t, ht, hs, haon ▸ ⟨rfl, rfl, rfl, rfl⟩, hrest⟩
  · have hrow : exec .coolantLoss s = .next (stopLines (modHead (modAon s (fun a => { a with
        coolantLevel := false, coolantGood := false, stop := { a.stop with coolant := true }, latch := { a.latch with coolant := true }
        alert := { a.alert with coolant := true } })) (fun h => setReason h trCoolant true))
        1 0xFF true (1 = (1 : Byte))) := by
      change execCoolantLoss s = _
      simp only [execCoolantLoss, hd, hg]
      rfl
    obtain ⟨t, ht, haon, hs, hrest⟩ := latched hrow hd hr rfl rfl rfl hz (by simp [stopped, modHead, setHead, modAon])
    exact ⟨t, ht, hs, haon ▸ ⟨rfl, rfl, rfl, rfl⟩, hrest⟩
  · have htrip : exec i s = .next (tripNow s (byte k)) := by
      rcases List.mem_pair.mp hi with rfl | rfl <;> rfl
    have hrow : exec i s = .next (stopLines (modHead { s with aon := { s.aon with
        stop := { s.aon.stop with trip := true }, latch := { s.aon.latch with trip := true }, alert := { s.aon.alert with trip := true }
        tripPoint := byte k } } (fun h => setReason h trTrip true))
        5 (byte k) true (5 = (1 : Byte))) := by
      rw [htrip]
      simp only [tripNow, hd, hg]
      rfl
    obtain ⟨t, ht, haon, hs, hrest⟩ := latched hrow hd hr rfl rfl rfl hz (by simp [stopped, modHead, setHead])
    exact ⟨t, ht, hs, haon ▸ ⟨rfl, rfl, rfl, rfl⟩, hrest⟩
  · change execRefclkRestored s = _
    simp only [execRefclkRestored, hd, hg]
    rfl
  · change execCoolantRestored s = _
    simp only [execCoolantRestored, hd, modAon, hh, Bool.false_and, Bool.false_eq_true, if_false]

end Sys2Proof.Machine
end

section
/-! PROOFS. Leaving stage 0, ROM recovery and the state below the floor (R73 to R76, R80, R90, R91, R93). -/

namespace Sys2Proof.Machine

/-! ### What rests while a stage changes -/

/-- No port is UP or in training. -/
def NoLink (s : State) : Prop := ∀ q : Fin 20, (s.port q).state ≠ lnUp ∧ (s.port q).state ≠ lnTraining

/-- From `s` to `t` cores, scratchpad and fuses are the same, and without a link the transfers too. -/
structure Resting (s t : State) : Prop where
  die : t.die = s.die
  store : t.store = s.store
  fuses : t.fuses = s.fuses
  dma : NoLink s → t.dma = s.dma
  noLink : NoLink s → NoLink t

namespace Resting

variable {s t u : State}

theorem refl (s : State) : Resting s s := ⟨rfl, rfl, rfl, fun _ => rfl, id⟩

theorem trans (h : Resting s t) (k : Resting t u) : Resting s u where
  die := k.die.trans h.die
  store := k.store.trans h.store
  fuses := k.fuses.trans h.fuses
  dma := fun hn => (k.dma (h.noLink hn)).trans (h.dma hn)
  noLink := fun hn => k.noLink (h.noLink hn)

theorem event (s : State) (c : W16) (d : List Byte) : Resting s (event s c d) := by
  rw [event_frame]
  exact ⟨rfl, rfl, rfl, fun _ => rfl, id⟩

theorem setPort (s : State) (q : Nat) (p : Port) (hp : p.state ≠ lnUp ∧ p.state ≠ lnTraining) : Resting s (s.setPort q p) where
  die := rfl
  store := rfl
  fuses := rfl
  dma := fun _ => rfl
  noLink := fun hn k => by
    by_cases hk : (k : Nat) = q
    · rw [hk, State.port_setPort]
      exact hp
    · rw [State.port_setPort_ne _ hk]
      exact hn k

end Resting

/-! ### Lane tests end (R392, R595) -/

theorem leaveTest_frame (s : State) (q : Nat) :
    leaveTest s q = { s with
      links := (leaveTest s q).links, leat := { s.leat with events := (leaveTest s q).leat.events }
      fw := { s.fw with waiting := (leaveTest s q).fw.waiting }, ledger := (leaveTest s q).ledger
      sent := (leaveTest s q).sent, free := (leaveTest s q).free } := by
  unfold leaveTest
  dsimp only
  rw [resetEvent, event_frame]
  rfl

theorem endTests_frame (s : State) :
    endTests s = { s with
      links := (endTests s).links, leat := { s.leat with events := (endTests s).leat.events }
      fw := { s.fw with waiting := (endTests s).fw.waiting }, ledger := (endTests s).ledger
      sent := (endTests s).sent, free := (endTests s).free } := by
  unfold endTests
  generalize (List.range 20).filter (fun q => (s.port q).testRun) = l
  induction l generalizing s with
  | nil => rfl
  | cons q l ih =>
    rw [List.foldl_cons, ih, leaveTest_frame s q]

theorem Resting.leaveTest (s : State) (q : Nat) : Resting s (leaveTest s q) := by
  have hcall : Resting s (resetEvent { s with free := s.free + 1 } 5 (Config.freeNat s.free) q) :=
    Resting.trans (t := { s with free := s.free + 1 }) ⟨rfl, rfl, rfl, fun _ => rfl, id⟩ (Resting.event _ _ _)
  exact hcall.trans (Resting.setPort _ _ _ (show lnBase ≠ lnUp ∧ lnBase ≠ lnTraining by decide))

theorem Resting.endTests (s : State) : Resting s (endTests s) := by
  unfold Machine.endTests
  generalize (List.range 20).filter (fun q => (s.port q).testRun) = l
  induction l generalizing s with
  | nil => exact Resting.refl s
  | cons q l ih => exact (Resting.leaveTest s q).trans (ih _)

/-! ### The links go down (R91) -/

theorem Resting.portDown (s : State) (q : Fin 20) (st : Byte) (hst : st ≠ lnUp ∧ st ≠ lnTraining) (hn : NoLink s) : Resting s (portDown s q st) := by
  have hnot : ¬((s.port q).state = lnUp ∨ (s.port q).state = lnTraining) := fun h => h.elim (hn q).1 (hn q).2
  rw [Machine.portDown]
  rw [if_neg hnot]
  exact Resting.setPort _ _ _ hst

/-- Every port goes down. -/
def allDown (s : State) : State := (List.range 20).foldl (fun t q => portDown t q lnDown) s

theorem Losing.allDown (s : State) : Losing s (allDown s) := Losing.foldl _ (fun t q => Losing.portDown t q _) _ s

theorem Resting.allDown (s : State) : Resting s (allDown s) := by
  have hl := Losing.allDown s
  have hwalk : ∀ (l : List Nat), (∀ q ∈ l, q < 20) → ∀ t, NoLink t → Resting t (l.foldl (fun t q => Machine.portDown t q lnDown) t) := by
    intro l
    induction l with
    | nil => exact fun _ t _ => Resting.refl t
    | cons q l ih =>
      intro hq t hn
      have h1 := Resting.portDown t ⟨q, hq q List.mem_cons_self⟩ lnDown (by decide) hn
      exact h1.trans (ih (fun k hk => hq k (List.mem_cons_of_mem _ hk)) _ (h1.noLink hn))
  have hrest := fun hn => hwalk (List.range 20) (fun q hq => List.mem_range.mp hq) s hn
  exact ⟨hl.die, hl.store, hl.fuses, fun hn => (hrest hn).dma hn, fun hn => (hrest hn).noLink hn⟩

/-! ### Stage events, ROM recovery, below the floor (R91, R93) -/

theorem stageEvent_frame (s : State) (c : Byte) (e : Bool) :
    stageEvent s c e = { s with leat := { s.leat with events := s.leat.events + 1 }
                                fw := { s.fw with waiting := (stageEvent s c e).fw.waiting }
                                ledger := (stageEvent s c e).ledger, sent := (stageEvent s c e).sent } := event_frame _ _ _

theorem stageEvent_keeps (s : State) (c : Byte) (e : Bool) :
    (stageEvent s c e).boot = s.boot ∧ (stageEvent s c e).fw.image = s.fw.image ∧ (stageEvent s c e).fw.hand = s.fw.hand
      ∧ (stageEvent s c e).aon = s.aon := by
  rw [stageEvent_frame]
  exact ⟨rfl, rfl, rfl, rfl⟩

theorem Resting.stageEvent (s : State) (c : Byte) (e : Bool) : Resting s (stageEvent s c e) := Resting.event _ _ _

theorem Resting.modBoot (s : State) (f : Boot → Boot) : Resting s (modBoot s f) := ⟨rfl, rfl, rfl, fun _ => rfl, id⟩

theorem Resting.dropImage (s : State) : Resting s (dropImage s) := ⟨rfl, rfl, rfl, fun _ => rfl, id⟩

theorem endBoundary_frame (s : State) : endBoundary s = { s with tap := (endBoundary s).tap } := by
  unfold endBoundary
  split <;> rfl

theorem Resting.endBoundary (s : State) : Resting s (endBoundary s) := by
  rw [endBoundary_frame]
  exact ⟨rfl, rfl, rfl, fun _ => rfl, id⟩

/-- ROM recovery: no image, the stage and its cause, and all that rests. -/
theorem enterRecovery_spec (s : State) (c : Nat) :
    let t := enterRecovery s c
    t.boot = { s.boot with stage := 0x8, recovery := c, hold := false } ∧ t.fw.image = none ∧ t.fw.booting = false ∧ t.aon = s.aon
      ∧ Resting s t := by
  have hr : Resting s (enterRecovery s c) :=
    (((Resting.dropImage s).trans (Resting.endTests _)).trans (Resting.trans (t := { endTests (dropImage s) with
      boot := { (endTests (dropImage s)).boot with stage := 0x8, recovery := c, hold := false } })
      ⟨rfl, rfl, rfl, fun _ => rfl, id⟩ (Resting.stageEvent _ _ _)))
  have heq : ∃ l v f g m n, enterRecovery s c = { dropImage s with
      boot := { s.boot with stage := 0x8, recovery := c, hold := false }
      links := l, leat := v, fw := { (dropImage s).fw with waiting := f }, ledger := g, sent := m, free := n } := by
    unfold enterRecovery
    dsimp only
    rw [stageEvent_frame, endTests_frame]
    exact ⟨_, _, _, _, _, _, rfl⟩
  obtain ⟨l, v, f, g, m, n, heq⟩ := heq
  refine ⟨?_, ?_, ?_, ?_, hr⟩ <;> rw [heq] <;> rfl

/-- Lane tests, boundary scan and the image end. -/
def halted (s : State) : State := dropImage (endBoundary (endTests s))

theorem halted_spec (s : State) :
    (halted s).boot = s.boot ∧ (halted s).fw.image = none ∧ (halted s).fw.hand = s.fw.hand ∧ (halted s).aon = s.aon ∧ Resting s (halted s) := by
  have hr : Resting s (halted s) := ((Resting.endTests s).trans (Resting.endBoundary _)).trans (Resting.dropImage _)
  have hb : (endBoundary (endTests s)).boot = s.boot ∧ (endBoundary (endTests s)).fw.hand = s.fw.hand
      ∧ (endBoundary (endTests s)).aon = s.aon := by
    rw [endBoundary_frame, endTests_frame]
    exact ⟨rfl, rfl, rfl⟩
  exact ⟨hb.1, rfl, hb.2.1, hb.2.2, hr⟩

/-- The stage and the floor bit below the floor. -/
def atFloor (b : Boot) (e : Nat) : Boot :=
  { b with stage := 0xF, floor := b.floor ||| BitVec.ofNat 16 (2 ^ e), preparing := false, hold := false }

theorem belowFloor_eq (s : State) (e : Nat) :
    belowFloor s e = stageEvent (allDown (halted { s with boot := atFloor s.boot e })) 0xF true := rfl

/-- Below the floor: no image, the stage and the floor bit, and all that rests. -/
theorem belowFloor_spec (s : State) (e : Nat) :
    let t := belowFloor s e
    t.boot = atFloor s.boot e ∧ t.fw.image = none ∧ t.fw.hand = s.fw.hand ∧ t.aon = s.aon ∧ Resting s t := by
  obtain ⟨hboot, himage, hhand, haon, hrest⟩ := halted_spec { s with boot := atFloor s.boot e }
  have hw : Resting s (halted { s with boot := atFloor s.boot e }) :=
    Resting.trans (t := { s with boot := atFloor s.boot e }) ⟨rfl, rfl, rfl, fun _ => rfl, id⟩ hrest
  rw [belowFloor_eq]
  generalize halted { s with boot := atFloor s.boot e } = w at *
  have hl := Losing.allDown w
  obtain ⟨hb, hi, hh, ha⟩ := stageEvent_keeps (allDown w) 0xF true
  have hfw : (allDown w).fw.image = w.fw.image ∧ (allDown w).fw.hand = w.fw.hand := by
    rw [hl.fw]
    exact ⟨rfl, rfl⟩
  exact ⟨hb.trans (hl.boot.trans hboot), hi.trans (hfw.1.trans himage), hh.trans (hfw.2.trans hhand), ha.trans (hl.aon.trans haon),
    (hw.trans (Resting.allDown w)).trans (Resting.stageEvent _ _ _)⟩

/-! ### Leaving stage 0 (R73 to R76) -/

/-- Lane tests and the hold end, and the end of stage 0 is recorded. -/
def stage0Ended (s : State) : State := stageEvent (modBoot (endTests s) (fun b => { b with hold := false })) 0 false

theorem stage0Ended_spec (s : State) :
    (stage0Ended s).boot = { s.boot with hold := false } ∧ (stage0Ended s).aon = s.aon ∧ Resting s (stage0Ended s) := by
  have hr : Resting s (stage0Ended s) :=
    ((Resting.endTests s).trans (Resting.modBoot _ _)).trans (Resting.stageEvent (modBoot (endTests s) (fun b => { b with hold := false })) 0 false)
  have hb : (endTests s).boot = s.boot ∧ (endTests s).aon = s.aon := by
    rw [endTests_frame]
    exact ⟨rfl, rfl⟩
  obtain ⟨hboot, -, -, haon⟩ := stageEvent_keeps (modBoot (endTests s) (fun b => { b with hold := false })) 0 false
  refine ⟨hboot.trans ?_, haon.trans hb.2, hr⟩
  rw [modBoot, hb.1]

/-- The chiplet leaves stage 0 for stage 1, or for ROM recovery by the strap or after two failed confirmations. -/
theorem leaveStage0_spec (s : State) :
    let t := leaveStage0 s
    Resting s t ∧ t.boot.passed = s.boot.passed
      ∧ (s.boot.pins.recovery = true → t.boot.stage = 8 ∧ t.boot.recovery = 1)
      ∧ (s.boot.pins.recovery = false → 2 ≤ s.aon.failed → t.boot.stage = 8 ∧ t.boot.recovery = 2)
      ∧ (s.boot.pins.recovery = false → s.aon.failed < 2 → t.boot.stage = 1) := by
  obtain ⟨hboot, haon, hrest⟩ := stage0Ended_spec s
  have heq : leaveStage0 s = if (stage0Ended s).boot.pins.recovery then enterRecovery (stage0Ended s) 1
      else if 2 ≤ (stage0Ended s).aon.failed then enterRecovery (stage0Ended s) 2
      else modBoot (endBoundary (stage0Ended s)) (fun b => { b with stage := 1 }) := rfl
  rw [hboot, haon] at heq
  intro t
  rw [show t = _ from heq]
  cases hrec : s.boot.pins.recovery with
  | true =>
    obtain ⟨hb, -, -, -, hr⟩ := enterRecovery_spec (stage0Ended s) 1
    rw [if_pos rfl, hb, hboot]
    exact ⟨hrest.trans hr, rfl, fun _ => ⟨rfl, rfl⟩, nofun, nofun⟩
  | false =>
    rw [if_neg Bool.false_ne_true]
    by_cases hf : 2 ≤ s.aon.failed
    · obtain ⟨hb, -, -, -, hr⟩ := enterRecovery_spec (stage0Ended s) 2
      rw [if_pos hf, hb, hboot]
      exact ⟨hrest.trans hr, rfl, nofun, fun _ _ => ⟨rfl, rfl⟩, fun _ h => absurd hf (Nat.not_le.mpr h)⟩
    · have hbound : (endBoundary (stage0Ended s)).boot = { s.boot with hold := false } := by
        rw [endBoundary_frame]
        exact hboot
      have hr : Resting s (endBoundary (stage0Ended s)) := hrest.trans (Resting.endBoundary _)
      rw [if_neg hf, modBoot, hbound]
      exact ⟨hr.trans ⟨rfl, rfl, rfl, fun _ => rfl, id⟩, rfl, nofun, fun _ h => absurd h hf, fun _ _ => rfl⟩

theorem thermalPathOk_of_all {temps : List Int} {trips : BitVec 72} (hl : temps.length = 72)
    (h : ∀ k : Fin 72, -10 ≤ temps.getD k 0 ∧ temps.getD k 0 ≤ 125 ∧ trips.getLsbD k = true) : thermalPathOk temps trips = true := by
  unfold thermalPathOk
  rw [List.all_eq_true]
  intro k hk
  have hk72 : k < 72 := by simpa [numbers] using hk
  obtain ⟨hlo, hhi, htrip⟩ := h ⟨k, hk72⟩
  have hlt : k < temps.length := hl.symm ▸ hk72
  rw [List.getD_eq_getElem _ _ hlt] at hlo hhi
  rw [List.getElem?_eq_getElem hlt]
  simp only [htrip, hlo, hhi, decide_true, Bool.and_self]

theorem thermalPathOk_of_failing {temps : List Int} {trips : BitVec 72} {k : Fin 72}
    (h : temps.getD k 0 < -10 ∨ 125 < temps.getD k 0 ∨ trips.getLsbD k = false) : thermalPathOk temps trips = false := by
  by_contra hok
  have hall := List.all_eq_true.mp (Bool.eq_true_of_not_eq_false hok) k (by simp [numbers])
  cases ht : temps[(k : Nat)]? with
  | none => simp [ht] at hall
  | some x =>
    have hx : temps.getD k 0 = x := by rw [List.getD_eq_getElem?_getD, ht, Option.getD_some]
    simp only [ht, Bool.and_eq_true, decide_eq_true_eq] at hall
    obtain ⟨htrip, hlo, hhi⟩ := hall
    rw [hx, htrip] at h
    rcases h with h | h | h
    · omega
    · omega
    · cases h

/-- STAGE0_COMPLETE where it is due. -/
theorem stage0Complete_eq {s : State} (hs : s.boot.stage = 0) (hr : s.boot.rstLow = false) (hd : s.boot.dead = false) (hp : s.boot.passed = false)
    (a b c : Bool) (temps : List Int) (trips : BitVec 72) :
    exec (.stage0Complete a b c temps trips) s = .next (
      let s1 := modBoot s (fun b => { b with passed := true })
      if !a then belowFloor s1 0
      else if !b then belowFloor s1 1
      else if !thermalPathOk temps trips then belowFloor s1 3
      else if !c then belowFloor s1 2
      else if slotInvalid s1 || stopped s1 then s1
      else if !s1.aon.coolantGood then modBoot s1 (fun b => { b with hold := true })
      else leaveStage0 s1) := by
  change execStage0Complete a b c temps trips s = _
  simp only [execStage0Complete, hs, hr, hd, hp, ne_eq, not_true_eq_false, decide_false, Bool.or_self, Bool.false_eq_true, if_false]

theorem bootConfirmTimeout_spec {s : State} (hb : s.fw.booting = true) (hs : s.boot.stage = 1) :
    ∃ t, exec .bootConfirmTimeout s = .next t ∧ t.fw.image = none ∧ t.fw.booting = false ∧ t.aon.failed = min 2 (s.aon.failed + 1)
      ∧ Resting s t ∧ t.boot.stage = (if s.aon.failed = 0 then 1 else 8) := by
  let u : State := { dropImage s with aon := { s.aon with failed := min 2 (s.aon.failed + 1) } }
  have hu : Resting s u := ⟨rfl, rfl, rfl, fun _ => rfl, id⟩
  have heq : exec .bootConfirmTimeout s = .next (if min 2 (s.aon.failed + 1) = 2 then enterRecovery u 2 else u) := by
    change execBootConfirmTimeout s = _
    simp only [execBootConfirmTimeout, hb, hs, ne_eq, not_true_eq_false, if_false, Bool.not_true, Bool.false_eq_true]
    rfl
  refine ⟨_, heq, ?_⟩
  by_cases hf : s.aon.failed = 0
  · rw [if_neg (by omega), if_pos hf]
    exact ⟨rfl, rfl, rfl, hu, hs⟩
  · obtain ⟨hboot, himage, hbooting, haon, hr⟩ := enterRecovery_spec u 2
    rw [if_pos (by omega), if_neg hf, hboot, haon]
    exact ⟨himage, hbooting, rfl, hu.trans hr, rfl⟩

/-- Settles O38: each way out of stage 0 rests what the statement names. -/
theorem stageZeroIsLeftOrHeld : Obligations.StageZeroIsLeftOrHeld := by
  unfold Obligations.StageZeroIsLeftOrHeld
  intro s idle
  have hidle : ∀ t, Resting s t → idle t := fun t h => ⟨h.die, h.store, h.fuses, h.dma⟩
  have hpassed : Resting s (modBoot s (fun b => { b with passed := true })) := Resting.modBoot _ _
  /- A failing check. -/
  have hfloor : ∀ (i : Instr) (e : Nat) (m : W16), BitVec.ofNat 16 (2 ^ e) = m →
      exec i s = .next (belowFloor (modBoot s (fun b => { b with passed := true })) e) →
      Completes i s (fun t => t.boot.stage = 0xF ∧ t.boot.floor = s.boot.floor ||| m ∧ t.fw.image = none ∧ idle t) := by
    intro i e m hm hex
    obtain ⟨hboot, himage, -, -, hr⟩ := belowFloor_spec (modBoot s (fun b => { b with passed := true })) e
    refine ⟨_, hex, ?_, ?_, himage, hidle _ (hpassed.trans hr)⟩ <;> rw [hboot, atFloor]
    rw [hm]
    rfl
  refine ⟨fun hs hr hd hp => ?_, fun hb hs => ?_, fun hb => ?_⟩
  · have hrow := stage0Complete_eq hs hr hd hp
    refine ⟨fun b c temps trips => hfloor _ 0 1 rfl ?_, fun c temps trips => hfloor _ 1 2 rfl ?_,
      fun c temps trips ⟨k, hk⟩ => hfloor _ 3 8 rfl ?_, fun temps trips hl hall => ?_⟩
    · rw [hrow]
      simp only [Bool.not_false, if_true]
    · rw [hrow]
      simp only [Bool.not_false, Bool.not_true, Bool.false_eq_true, if_true, if_false]
    · rw [hrow, thermalPathOk_of_failing hk]
      simp only [Bool.not_false, Bool.not_true, Bool.false_eq_true, if_true, if_false]
    · have hok := thermalPathOk_of_all hl hall
      refine ⟨hfloor _ 2 4 rfl ?_, fun hv hst hc => ?_, fun hv => ?_, fun hv hst hc => ?_⟩
      · rw [hrow, hok]
        simp only [Bool.not_false, Bool.not_true, Bool.false_eq_true, if_true, if_false]
      · have hv' : slotInvalid (modBoot s (fun b => { b with passed := true })) = false := hv
        have hst' : stopped (modBoot s (fun b => { b with passed := true })) = false := hst
        have hc' : (modBoot s (fun b => { b with passed := true })).aon.coolantGood = false := hc
        rw [hrow, hok]
        simp only [hv', hst', hc', Bool.not_false, Bool.not_true, Bool.or_self, Bool.false_eq_true, if_true, if_false]
        rfl
      · have hv' : (slotInvalid (modBoot s (fun b => { b with passed := true })) || stopped (modBoot s (fun b => { b with passed := true }))) = true := by
          rw [Bool.or_eq_true]
          exact hv
        rw [hrow, hok]
        simp only [hv', Bool.not_true, Bool.false_eq_true, if_true, if_false]
        rfl
      · have hv' : slotInvalid (modBoot s (fun b => { b with passed := true })) = false := hv
        have hst' : stopped (modBoot s (fun b => { b with passed := true })) = false := hst
        have hc' : (modBoot s (fun b => { b with passed := true })).aon.coolantGood = true := hc
        obtain ⟨hrest, hpass, hstrap, htwice, hone⟩ := leaveStage0_spec (modBoot s (fun b => { b with passed := true }))
        refine ⟨_, (hrow _ _ _ _ _).trans ?_, hidle _ (hpassed.trans hrest), hpass, hstrap, htwice, hone⟩
        simp only [hok, hv', hst', hc', Bool.not_true, Bool.or_self, Bool.false_eq_true, if_false]
  · obtain ⟨t, hex, himage, hbooting, hfailed, hrest, hstage⟩ := bootConfirmTimeout_spec hb hs
    exact ⟨t, hex, himage, hbooting, hfailed, hidle t hrest, hstage⟩
  · change execBootConfirmTimeout s = _
    simp [execBootConfirmTimeout, hb]

end Sys2Proof.Machine
end

section
/-! PROOFS. Delivery, verification and confirmation of images (R77 to R80, R94, R186 to R188, R539 to R546). -/

namespace Sys2Proof.Machine

/-! ### Settings and background entries touch little (R108, R133 to R138) -/

/-- From `s` to `t` only the settings, the ledger and what leaves the chiplet have changed. -/
def Files (s t : State) : Prop :=
  t = { s with settings := t.settings, leat := { s.leat with events := t.leat.events }
               fw := { s.fw with waiting := t.fw.waiting }, ledger := t.ledger, sent := t.sent, free := t.free }

namespace Files

variable {s t u : State}

theorem refl (s : State) : Files s s := rfl

theorem trans (h : Files s t) (k : Files t u) : Files s u := by
  unfold Files at *
  rw [k, h]

theorem ofSettings (s : State) (v : Settings) : Files s { s with settings := v } := rfl

theorem writeBank (s : State) (v : List (W16 × List Byte)) (c : W32) : Files s (writeBank s v c) := rfl

theorem append (s : State) (e : LedgerEntry) : Files s (append s e) := by
  rw [append_frame]
  rfl

theorem event (s : State) (c : W16) (d : List Byte) : Files s (event s c d) := by
  rw [event_frame]
  rfl

theorem background (s : State) (o : Origin) (r : W16) (d : List Byte) : Files s (background s o r d) := by
  unfold Machine.background appendLater
  split
  · rfl
  · exact append _ _

theorem selectSettings (s : State) : Files s (selectSettings s) := by
  unfold Machine.selectSettings
  dsimp only
  split
  · exact ofSettings s _
  · split
    · exact (ofSettings s _).trans (writeBank _ _ _)
    · exact (ofSettings s _).trans (event _ _ _)

theorem discardBanks (s : State) : Files s (discardBanks s) := by
  unfold Machine.discardBanks
  dsimp only
  split
  · exact (ofSettings s _).trans (writeBank _ _ _)
  · exact ofSettings s _

section
variable (h : Files s t)
include h

theorem fuses : t.fuses = s.fuses := (congrArg State.fuses h :)
theorem aon : t.aon = s.aon := (congrArg State.aon h :)
theorem boot : t.boot = s.boot := (congrArg State.boot h :)
theorem svc : t.svc = s.svc := (congrArg State.svc h :)
theorem die : t.die = s.die := (congrArg State.die h :)
theorem store : t.store = s.store := (congrArg State.store h :)
theorem dma : t.dma = s.dma := (congrArg State.dma h :)
theorem time : t.time = s.time := (congrArg State.time h :)
theorem fw : t.fw = { s.fw with waiting := t.fw.waiting } := (congrArg State.fw h :)

end
end Files

theorem selectSettings_pending (s : State) : (selectSettings s).settings.pending = [] := by
  unfold selectSettings
  dsimp only
  split
  · rfl
  · split
    · rfl
    · rw [event_frame]
      rfl

/-! ### The end of a verification (R79, R94, R187, R546) -/

/-- The background entry that ends a verification. -/
def verified (s : State) (d : Delivery) (v : W16 × Byte) : State :=
  match d.origin with
  | some o => background s o v.1 (fwDetail v.2 1 d.version.toNat (imageVersion s))
  | none => s

theorem Files.verified (s : State) (d : Delivery) (v : W16 × Byte) : Files s (verified s d v) := by
  unfold Machine.verified
  split
  · exact Files.background _ _ _ _
  · exact Files.refl s

section
variable {s : State} {d : Delivery} (hd : s.fw.delivery = some d) (hp : d.phase = .verifying)
include hd hp

theorem fwVerifyComplete_boot (hs : stopped s = false) (hstage : s.boot.stage = 1) :
    let v := verdict s d (imageBytes s.fw.running d.blocks)
    let u := setDelivery (verified s d v) none
    exec .fwVerifyComplete s = .next (if v.2 = 0 then startImage u (headerInfo (imageBytes s.fw.running d.blocks)) else enterRecovery u 3) := by
  have hrom : byRom s = true := by rw [byRom, hstage]; rfl
  change execFwVerifyComplete s = _
  simp only [execFwVerifyComplete, hd, hp, hrom, hs, hstage, ne_eq, not_true_eq_false, if_false, if_true, Bool.false_eq_true]
  rfl

theorem fwVerifyComplete_service (hstage : s.boot.stage = 3) :
    let v := verdict s d (imageBytes s.fw.alternate d.blocks)
    exec .fwVerifyComplete s = .next (setDelivery (verified s d v)
      (if v.2 = 0 then some { d with phase := .verified, key := [], origin := none } else none)) := by
  have hrom : byRom s = false := by rw [byRom, hstage]; rfl
  change execFwVerifyComplete s = _
  simp only [execFwVerifyComplete, hd, hp, hrom, ne_eq, not_true_eq_false, if_false, Bool.false_eq_true]
  change Host.Outcome.next (ite _ (setDelivery (verified s d _) _) (setDelivery (verified s d _) _)) = _
  split <;> rfl

end

theorem startImage_spec (s : State) (i : ImageInfo) :
    let t := startImage s i
    t.fw.image = some i ∧ t.fw.booting = true ∧ t.fw.delivery = none ∧ t.boot = s.boot ∧ t.svc.kick = s.time.elapsed
      ∧ t.die = s.die ∧ t.store = s.store := by
  have h := Files.selectSettings (setFw (kickWatchdog s) { s.fw with image := some i, booting := true, delivery := none })
  intro t
  have ht : Files _ t := h
  refine ⟨?_, ?_, ?_, ht.boot, ?_, ht.die, ht.store⟩
  · rw [ht.fw]; rfl
  · rw [ht.fw]; rfl
  · rw [ht.fw]; rfl
  · rw [ht.svc]; rfl

/-! ### The boot confirmation (R80, R81, R94) -/

/-- An attempt on every port. -/
def attemptAll (s : State) : State := (List.range 20).foldl attempt s

theorem attemptAll_frame (s : State) : ∃ l, attemptAll s = { s with links := l } := by
  unfold attemptAll
  generalize List.range 20 = l
  induction l generalizing s with
  | nil => exact ⟨_, rfl⟩
  | cons q l ih =>
    obtain ⟨m, hm⟩ := ih (attempt s q)
    exact ⟨m, hm⟩

theorem attempt_port (s : State) (q k : Nat) :
    (attempt s q).port k = if k = q then { s.port q with state := lnTraining, since := s.time.elapsed, step := 1 } else s.port k := by
  simp only [attempt, enter, State.modPort]
  by_cases hk : k = q
  · rw [if_pos hk, hk, State.port_setPort, State.port_setPort]
  · rw [if_neg hk, State.port_setPort_ne _ hk, State.port_setPort_ne _ hk]

theorem attemptAll_port (s : State) (q : Fin 20) :
    (attemptAll s).port q = { s.port q with state := lnTraining, since := s.time.elapsed, step := 1 } := by
  have h := walk_get State.port attempt (fun _ p => { p with state := lnTraining, since := s.time.elapsed, step := 1 })
    (fun t => t.time.elapsed = s.time.elapsed) (List.range 20) (fun _ _ _ ht => ht) (fun t k _ j ht => by rw [attempt_port, ht])
    List.nodup_range s rfl q
  rwa [if_pos (List.mem_range.mpr q.isLt)] at h

theorem enterStage2_spec (s : State) :
    let t := enterStage2 s
    t.boot = { s.boot with stage := 2, recovery := 0 } ∧ t.fw.booting = s.fw.booting ∧ t.fw.image = s.fw.image ∧ t.aon = s.aon
      ∧ t.die = s.die ∧ t.store = s.store ∧ ∀ q : Fin 20, (t.port q).state = lnTraining ∧ (t.port q).step = 1 := by
  let u := applySettings (endBoundary (endTests { s with boot := { s.boot with stage := 2, recovery := 0 } }))
  have hu : u.boot = { s.boot with stage := 2, recovery := 0 } ∧ u.fw.booting = s.fw.booting ∧ u.fw.image = s.fw.image
      ∧ u.aon = s.aon ∧ u.die = s.die ∧ u.store = s.store := by
    simp only [u, applySettings]
    rw [endBoundary_frame, endTests_frame]
    exact ⟨rfl, rfl, rfl, rfl, rfl, rfl⟩
  have heq : enterStage2 s = attemptAll u := rfl
  rw [heq]
  generalize u = u at *
  obtain ⟨l, hl⟩ := attemptAll_frame u
  have hports : ∀ q : Fin 20, ((attemptAll u).port q).state = lnTraining ∧ ((attemptAll u).port q).step = 1 := by
    intro q
    rw [attemptAll_port]
    exact ⟨rfl, rfl⟩
  rw [hl] at hports ⊢
  obtain ⟨h1, h2, h3, h4, h5, h6⟩ := hu
  exact ⟨h1, h2, h3, h4, h5, h6, hports⟩

/-- What the image's own confirmation does before stage 2 begins. -/
def bootConfirmed (s : State) (i : ImageInfo) : State :=
  let s1 := discardBanks (setFw { s with aon := { s.aon with failed := 0 } } { s.fw with booting := false })
  let s2 := imageEntry s1 0x1604 (fwDetail 0 0 i.version.toNat 0)
  if s.boot.stage = 1 then stageEvent s2 1 false else s2

theorem Files.bootConfirmed (s : State) (i : ImageInfo) :
    Files { s with aon := { s.aon with failed := 0 }, fw := { s.fw with booting := false } } (bootConfirmed s i) := by
  have h : Files { s with aon := { s.aon with failed := 0 }, fw := { s.fw with booting := false } }
      (imageEntry (Machine.discardBanks (setFw { s with aon := { s.aon with failed := 0 } } { s.fw with booting := false }))
        0x1604 (fwDetail 0 0 i.version.toNat 0)) := (Files.discardBanks _).trans (Files.append _ _)
  unfold Machine.bootConfirmed
  dsimp only
  split
  · exact h.trans (Files.event _ _ _)
  · exact h

theorem fwConfirm_boot {s : State} {i : ImageInfo} (hs : stopped s = false) (hb : s.fw.booting = true) (hi : s.fw.image = some i)
    (hp : s.svc.paused = false) (r : Request) : exec (.fwConfirm true r) s = .next (enterStage2 (bootConfirmed s i)) := by
  have hconfirm : confirmBoot s = enterStage2 (bootConfirmed s i) := by
    unfold confirmBoot
    split
    next j hj =>
      cases hi.symm.trans hj
      rfl
    next hn => cases hi.symm.trans hn
  change execFwConfirm true r s = _
  simp only [execFwConfirm, hs, hb, hp, if_true, Bool.not_false, Bool.and_self, hconfirm]

/-! ### The update commands (R77, R78, R186 to R188) -/

section
variable {r : Request} {s : State} {d : Delivery} {i : ImageInfo}

/-- A body that commits without an entry and is answered at once. -/
theorem answeredAfter_of_silent {k : Instr} {c : Cmd} {a : Reply} (h : mailRow k = some (c, r)) (ha : Admitted c r s)
    (hb : ∀ e v, c.body r { s with eps := e, svc := v } = a) (hl : a.late = false) (hd : a.detail = none) (hp : passes a.status = true)
    {p : State → Prop} (hf : ∀ o e v, p (a.commit o { s with eps := e, svc := v })) : AnsweredAfter k c r s a.status a.result none p := by
  have hbody : c.body r (serviceStart c r s) = a := by
    rw [serviceStart_frame]
    exact hb _ _
  refine ⟨a.commit (originOf (serviceStart c r s) c r) (serviceStart c r s), ?_, ?_⟩
  · rw [exec_admitted k c r s h ha, admittedState, hbody]
    simp only [hp, commitStep_none hd, hl, Bool.true_eq_false, Bool.false_eq_true, if_false]
  · rw [serviceStart_frame]
    exact hf _ _ _

/-- Of 64 fragments one is not a block. -/
theorem blockData_one (d : Delivery) (b f : Nat) (data : List Byte) :
    Delivery.blockData { d with frags := [(64 * b + f, data)] } b = none := by
  have hlen : ((numbers (64 * b) 64).filterMap (fun k =>
      (([(64 * b + f, data)] : Tab (List Byte)).find? (fun e => e.1 == k)).map (fun e => e.2))).length ≠ 64 := by
    intro h
    rw [List.length_filterMap_eq_countP] at h
    have hall := List.countP_eq_length.mp (h.trans (by simp [numbers]))
    have h0 := hall (64 * b) (by simp [numbers])
    have h1 := hall (64 * b + 1) (by simp [numbers, Nat.add_comm])
    rw [Option.isSome_map] at h0 h1
    simp only [List.find?_singleton] at h0 h1
    split at h0
    · split at h1
      · simp_all
      · cases h1
    · cases h0
  simp only [Delivery.blockData, if_neg hlen]

theorem blockBody_first (hd : s.fw.delivery = some d) (hp : d.phase = .receiving) (he : d.ep = (r.ep : Nat)) (hb : r.arg 16 2 < d.blocks)
    (h448 : r.arg 16 2 < 448) (h64 : r.arg 18 1 < 64) (hn : d.present.contains (r.arg 16 2) = false) (hf : d.frags = []) :
    blockBody r s = { commit := fun _ t => setDelivery t (some { d with
      checks := tput d.checks (r.arg 16 2) (BitVec.ofNat 32 (r.arg 20 4)), frags := [(64 * r.arg 16 2 + r.arg 18 1, r.argBytes 24 64)] }) } := by
  have hargs : ¬(448 ≤ r.arg 16 2 ∨ 64 ≤ r.arg 18 1) := by omega
  have htake : ∀ t, takeFragment t { d with checks := tput d.checks (r.arg 16 2) (BitVec.ofNat 32 (r.arg 20 4)) } (r.arg 16 2) (r.arg 18 1)
      (r.argBytes 24 64) = setDelivery t (some { d with
        checks := tput d.checks (r.arg 16 2) (BitVec.ofNat 32 (r.arg 20 4)), frags := [(64 * r.arg 16 2 + r.arg 18 1, r.argBytes 24 64)] }) := by
    intro t
    have hnone := blockData_one { d with checks := tput d.checks (r.arg 16 2) (BitVec.ofNat 32 (r.arg 20 4)) } (r.arg 16 2) (r.arg 18 1)
      (r.argBytes 24 64)
    simp only [takeFragment, hn, hf, List.any_nil, Bool.false_eq_true, if_false, tput, checkBlock]
    rw [hnone]
  have hbusy : ¬(d.ep ≠ (r.ep : Nat) ∧ d.phase ≠ .verified) := fun h => h.1 he
  simp only [blockBody, if_neg hargs, hd, if_neg (Nat.not_le.mpr hb), if_neg hbusy, if_neg (not_not.mpr hp), hn, htake, if_false,
    Bool.false_eq_true]

/-- What FW.VERIFY answers and commits where it passes. -/
def verifyReply (s : State) (d : Delivery) : Reply :=
  { status := stAccepted, detail := some (fwDetail 0 1 d.version.toNat (imageVersion s))
    commit := fun o t => setDelivery t (some { d with phase := .verifying, origin := some o }) }

/-- What FW.ABORT of a delivery answers and commits. -/
def abortReply (s : State) (d : Delivery) : Reply :=
  { detail := some (fwDetail 4 1 d.version.toNat (imageVersion s)), commit := fun _ t => discardDelivery t }

theorem verifyBody_whole (hh : s.fw.hand = none) (hd : s.fw.delivery = some d) (hp : d.phase = .receiving) (hw : d.whole = true) :
    verifyBody r s = verifyReply s d := by
  simp [verifyBody, verifyReply, hh, hd, hp, hw]

theorem abortBody_delivery (hh : s.fw.hand = none) (hd : s.fw.delivery = some d) :
    abortBody r s = abortReply s d := by
  simp only [abortBody, abortReply, hh, hd]

theorem discardDelivery_delivery (hd : s.fw.delivery = some d) : (discardDelivery s).fw.delivery = none := by
  rw [discardDelivery, hd]
  rfl

theorem handoverBody_accepted (hlo : 100 ≤ r.arg 16 4) (hhi : r.arg 16 4 ≤ 30000) (hh : s.fw.hand = none) (hd : s.fw.delivery = some d)
    (hi : s.fw.image = some i) (hp : d.phase = .verified) (hset : s.settings.pending = []) (hw : firmwareWork s = false) :
    ∃ l, handoverBody r s = {
      status := stAccepted, detail := some l
      commit := fun o t => setHand (setDelivery t none)
        (some { window := r.arg 16 4, old := i, new := headerInfo (tget [] s.fw.alternate 0), origin := o }) } := by
  have hargs : ¬(r.arg 16 4 ≠ 0 ∧ (r.arg 16 4 < 100 ∨ 30000 < r.arg 16 4)) := by omega
  have h0 : ¬r.arg 16 4 = 0 := by omega
  refine ⟨fwDetail 0 1 (headerInfo (tget [] s.fw.alternate 0)).version.toNat i.version.toNat, ?_⟩
  simp only [handoverBody, if_neg hargs, hh, hd, hi, hp, hset, hw, if_neg h0]
  rfl

/-- What FW.BEGIN answers and commits where it passes. -/
def beginReply (r : Request) (key : List Byte) : Reply :=
  { detail := some (leBytes 2 (r.arg 22 2) ++ leBytes 2 (r.arg 20 2))
    commit := fun _ t => setDelivery (discardDelivery t)
      (some { ep := r.ep, size := r.arg 16 4, blocks := r.arg 20 2, version := BitVec.ofNat 16 (r.arg 22 2), key := key }) }

theorem beginBody_ok (hz : sizeOk (r.arg 16 4) = true) (hb : r.arg 20 2 = r.arg 16 4 / 4096) (hs : s.boot.stage ≠ 0x8) (hh : s.fw.hand = none)
    (hbt : s.fw.booting = false) (hd : s.fw.delivery = none) :
    (∀ key, aesUnwrap s.fuses.uniqueKey (r.argBytes 24 48) = some key → beginBody r s = beginReply r key)
      ∧ (aesUnwrap s.fuses.uniqueKey (r.argBytes 24 48) = none → beginBody r s = Reply.no stBadArg) := by
  have hargs : ¬((!sizeOk (r.arg 16 4)) = true ∨ r.arg 20 2 ≠ r.arg 16 4 / 4096) := by
    rw [hz]
    simp [hb]
  have hv : (BitVec.ofNat 16 (r.arg 22 2)).toNat = r.arg 22 2 := Nat.mod_eq_of_lt (Request.arg_lt r 22 2)
  refine ⟨fun key hk => ?_, fun hk => ?_⟩
  · simp only [beginBody, if_neg hargs, hk, hs, hh, hbt, hd, hv, false_and, if_false]
    rfl
  · simp only [beginBody, if_neg hargs, hk]

end

/-- Settles O39: a verification is its entry and then its outcome; the confirmation at boot is its entries and then stage 2. -/
theorem verifiedImagesStartAndConfirm : Obligations.VerifiedImagesStartAndConfirm := by
  unfold Obligations.VerifiedImagesStartAndConfirm
  intro d i r s hs rom alt
  refine ⟨fun hd hp => ⟨fun h1 => ?_, fun h3 => ?_⟩, fun hb hi hp => ?_, fun ha hz hb h8 hh hbt hd => ?_, fun ha hd hp he hb h448 h64 hn hf => ?_,
    fun ha hh hd hp hw => ?_, fun ha hh hd => ?_, fun ha hh hd ho => ?_, fun ha hlo hhi hh hd hi hp hset hw => ?_⟩
  · have hrow := fwVerifyComplete_boot hd hp hs h1
    have hf := Files.verified s d (verdict s d rom)
    have hboot : (setDelivery (verified s d (verdict s d rom)) none).boot = s.boot := hf.boot
    have hdie : (setDelivery (verified s d (verdict s d rom)) none).die = s.die := hf.die
    have hstore : (setDelivery (verified s d (verdict s d rom)) none).store = s.store := hf.store
    have htime : (setDelivery (verified s d (verdict s d rom)) none).time = s.time := hf.time
    by_cases hv : (verdict s d rom).2 = 0
    · obtain ⟨himage, hbooting, hdel, hb, hkick, hd', hs'⟩ := startImage_spec (setDelivery (verified s d (verdict s d rom)) none) (headerInfo rom)
      refine ⟨_, hrow.trans (congrArg Host.Outcome.next (if_pos hv)), ?_⟩
      dsimp only
      rw [if_pos hv]
      exact ⟨hd'.trans hdie, hs'.trans hstore, himage, hbooting, hdel, hb.trans hboot, hkick.trans (congrArg TimeState.elapsed htime)⟩
    · obtain ⟨hb, himage, -, -, hrest⟩ := enterRecovery_spec (setDelivery (verified s d (verdict s d rom)) none) 3
      refine ⟨_, hrow.trans (congrArg Host.Outcome.next (if_neg hv)), ?_⟩
      dsimp only
      rw [if_neg hv]
      refine ⟨hrest.die.trans hdie, hrest.store.trans hstore, ?_, ?_, himage⟩ <;> rw [hb]
  · have hrow := fwVerifyComplete_service hd hp h3
    change exec .fwVerifyComplete s = .next (setDelivery (verified s d (verdict s d alt))
      (if (verdict s d alt).2 = 0 then some { d with phase := .verified, key := [], origin := none } else none)) at hrow
    generalize verdict s d alt = v at hrow ⊢
    have hf := Files.verified s d v
    exact ⟨_, hrow, (congrArg Firmware.image hf.fw :), hf.boot, rfl⟩
  · obtain ⟨hboot, hbooting, himage, haon, hdie, hstore, hports⟩ := enterStage2_spec (bootConfirmed s i)
    have hf := Files.bootConfirmed s i
    refine ⟨_, fwConfirm_boot hs hb hi hp r, ?_, ?_, ?_, ?_, hdie.trans hf.die, hstore.trans hf.store, hports⟩
    · rw [hboot]
    · rw [hbooting, hf.fw]
    · rw [himage, hf.fw]
      exact hi
    · rw [haon, hf.aon]
  · have hbegin : ∀ e v, _ := fun e v => beginBody_ok (s := { s with eps := e, svc := v }) hz hb h8 hh hbt hd
    cases hkey : aesUnwrap s.fuses.uniqueKey (r.argBytes 24 48) with
    | none => exact answersOnly_of_reading rfl ha fun e v => (hbegin e v).2 hkey
    | some key =>
      refine commitsWith_of_commit rfl ha (fun e v => (hbegin e v).1 key hkey) rfl fun o e v l m => ?_
      simp only [discardDelivery, hd]
  · exact answeredAfter_of_silent rfl ha (fun e v => blockBody_first (s := { s with eps := e, svc := v }) hd hp he hb h448 h64 hn hf)
      rfl rfl rfl fun _ _ _ => rfl
  · refine answeredAfter_of_commit rfl ha (a := verifyReply s d)
      (fun e v => verifyBody_whole (r := r) (s := { s with eps := e, svc := v }) hh hd hp hw) rfl rfl rfl fun o e v l m hl => ⟨o, rfl, hl⟩
  · refine answeredAfter_of_commit rfl ha (a := abortReply s d) (fun e v => abortBody_delivery (r := r) (s := { s with eps := e, svc := v }) hh hd)
      rfl rfl rfl fun o e v l m _ => discardDelivery_delivery (s := { s with eps := e, svc := v, ledger := l, sent := m }) hd
  · refine commitsWith_of_commit rfl ha (g := fun _ t => discardDelivery t) (fun e v => abortBody_delivery (r := r) (s := { s with eps := e, svc := v }) hh hd)
      rfl fun o e v l m => ?_
    simp only [discardDelivery, hd, ho]
  · obtain ⟨l, hl⟩ := handoverBody_accepted (s := s) hlo hhi hh hd hi hp hset hw
    exact answeredAfter_of_commit rfl ha (fun e v => hl) rfl rfl rfl fun o e v l m _ => ⟨rfl, _, rfl, rfl, rfl, rfl, rfl⟩

end Sys2Proof.Machine
end

section
/-! PROOFS. Stage 2 and the preparation of stage 3 (R82 to R86, R89, R90, R143, R349). -/

namespace Sys2Proof.Machine

/-! ### STAGE2_MARK_DOWN (R82, R384, R387) -/

/-- A port is left as it is: UP or disabled. -/
def leftAlone (st : Byte) : Prop := st = lnUp ∨ st = lnDisabled

/-- STAGE2_MARK_DOWN at one port. -/
def markDown (t : State) (q : Nat) : State :=
  let p := t.port q
  if p.state = lnUp ∨ p.state = lnDisabled then t
  else if p.resume then loseLink t q lnMarked
  else t.setPort q { p with state := lnMarked, since := t.time.elapsed, step := 0, reset := false }

/-- STAGE2_MARK_DOWN at every port. -/
def markAll (s : State) : State := (List.range 20).foldl markDown s

theorem stage2MarkDown_eq {s : State} (h2 : s.boot.stage = 2) (hs : stopped s = false) (hm : s.boot.marked = false) :
    exec .stage2MarkDown s = .next (modBoot (markAll s) (fun b => { b with marked := true })) := by
  change execStage2MarkDown s = _
  simp only [execStage2MarkDown, h2, hs, hm, ne_eq, not_true_eq_false, decide_false, Bool.or_self, Bool.false_eq_true, if_false]
  rfl

theorem Losing.markDown (t : State) (q : Nat) : Losing t (markDown t q) := by
  unfold Machine.markDown
  dsimp only
  exact ite (refl t) (ite (loseLink t q _) (setPort t q _))

theorem Losing.markAll (s : State) : Losing s (markAll s) := Losing.foldl _ Losing.markDown _ s

/-- What a port shows of its link. -/
def linkOf (s : State) (q : Nat) : Byte × Bool := ((s.port q).state, (s.port q).resume)

theorem Port.Alike.link {s t : State} {q : Nat} (h : (s.port q).Alike (t.port q)) : linkOf t q = linkOf s q := by
  rw [linkOf, h]
  rfl

/-- What marking makes of a port's link. -/
def markedLink (l : Byte × Bool) : Byte × Bool := if l.1 = lnUp ∨ l.1 = lnDisabled then l else (lnMarked, false)

theorem markedLink_alone {l : Byte × Bool} (h : leftAlone l.1) : markedLink l = l := if_pos h

theorem markedLink_other {l : Byte × Bool} (h : ¬leftAlone l.1) : markedLink l = (lnMarked, false) := if_neg h

theorem markDown_alone {t : State} {q : Nat} (h : leftAlone (t.port q).state) : markDown t q = t := if_pos h

theorem markDown_link (t : State) (q j : Nat) :
    linkOf (markDown t q) j = if j = q then markedLink (linkOf t q) else linkOf t j := by
  unfold markDown
  dsimp only
  split
  next h =>
    split
    next hj => rw [hj, markedLink_alone (l := linkOf t q) h]
    next => rfl
  next h =>
    split
    next hr =>
      have hl := loseLink_port t q lnMarked j
      split at hl
      next hj =>
        rw [if_pos hj, hj, markedLink_other (l := linkOf t q) h, linkOf, hl.1, hl.2]
      next hj => rw [if_neg hj, hl.link]
    next hr =>
      by_cases hj : j = q
      · rw [if_pos hj, hj, markedLink_other (l := linkOf t q) h, linkOf, State.port_setPort]
        simp only [Bool.not_eq_true] at hr
        rw [hr]
      · rw [if_neg hj, linkOf, State.port_setPort_ne _ hj]
        rfl

theorem markAll_link (s : State) (q : Fin 20) : linkOf (markAll s) q = markedLink (linkOf s q) := by
  have h := walk_get linkOf markDown (fun _ => markedLink) (fun _ => True) (List.range 20) (fun _ _ _ _ => trivial)
    (fun t k _ j _ => markDown_link t k j) List.nodup_range s trivial q
  rwa [if_pos (List.mem_range.mpr q.isLt)] at h

/-- A port after marking, without a link reset in progress. -/
def Port.marked (p : Port) (now : Nat) : Port :=
  if p.state = lnUp ∨ p.state = lnDisabled then p else { p with state := lnMarked, since := now, step := 0, reset := false }

theorem Port.marked_alone {p : Port} (h : leftAlone p.state) {now : Nat} : p.marked now = p := if_pos h

theorem Port.marked_other {p : Port} (h : ¬leftAlone p.state) {now : Nat} :
    p.marked now = { p with state := lnMarked, since := now, step := 0, reset := false } := if_neg h

/-- Without a link reset in progress marking only writes the ports. -/
theorem markAll_quiet {s : State} (hr : ∀ q : Fin 20, (s.port q).resume = false) :
    markAll s = { s with links := (markAll s).links }
      ∧ ∀ q : Fin 20, leftAlone (s.port q).state → (markAll s).port q = s.port q := by
  let keep : State → Prop := fun t => (∀ q : Fin 20, (t.port q).resume = false) ∧ t = { s with links := t.links }
  have hset : ∀ t, ∀ k ∈ List.range 20, keep t → ¬leftAlone (t.port k).state →
      markDown t k = t.setPort k { t.port k with state := lnMarked, since := t.time.elapsed, step := 0, reset := false } := by
    intro t k hk ht hst
    have hres : ¬(t.port k).resume = true := by
      rw [ht.1 ⟨k, List.mem_range.mp hk⟩]
      exact Bool.false_ne_true
    exact (if_neg hst).trans (if_neg hres)
  have hkeep : ∀ t, ∀ k ∈ List.range 20, keep t → keep (markDown t k) := by
    intro t k hk ht
    by_cases hst : leftAlone (t.port k).state
    · rw [markDown_alone hst]
      exact ht
    · rw [hset t k hk ht hst]
      refine ⟨fun q => ?_, ?_⟩
      · by_cases hq : (q : Nat) = k
        · rw [hq, State.port_setPort]
          exact ht.1 ⟨k, List.mem_range.mp hk⟩
        · rw [State.port_setPort_ne _ hq]
          exact ht.1 q
      · rw [ht.2]
        rfl
  have hwalk : ∀ l : List Nat, (∀ k ∈ l, k ∈ List.range 20) → ∀ t, keep t → keep (l.foldl markDown t) := by
    intro l
    induction l with
    | nil => exact fun _ t ht => ht
    | cons k l ih =>
      exact fun hl t ht => ih (fun j hj => hl j (List.mem_cons_of_mem _ hj)) _ (hkeep t k (hl k List.mem_cons_self) ht)
  have hall : keep (markAll s) := hwalk _ (fun _ hk => hk) s ⟨hr, rfl⟩
  have hport := walk_get State.port markDown
    (fun _ p => p.marked s.time.elapsed)
    keep (List.range 20) hkeep (fun t k hk j ht => by
      have htime : t.time.elapsed = s.time.elapsed := by rw [ht.2]
      by_cases hst : leftAlone (t.port k).state
      · rw [markDown_alone hst, Port.marked_alone hst]
        split
        next hj => rw [hj]
        next => rfl
      · rw [hset t k hk ht hst, Port.marked_other hst, htime]
        by_cases hj : j = k
        · rw [hj, if_pos rfl, State.port_setPort]
        · rw [if_neg hj, State.port_setPort_ne _ hj]) List.nodup_range s ⟨hr, rfl⟩
  refine ⟨hall.2, fun q hq => ?_⟩
  have h := hport q
  rw [if_pos (List.mem_range.mpr q.isLt), Port.marked_alone hq] at h
  exact h

/-- Settles O40: the marking walks over the ports, of which each step changes its own link alone. -/
theorem stageTwoSettlesThePorts : Obligations.StageTwoSettlesThePorts := by
  unfold Obligations.StageTwoSettlesThePorts
  intro s h2 hs
  refine ⟨fun hm => ⟨_, stage2MarkDown_eq h2 hs hm, ?_⟩, fun hd => ?_, fun hd => ?_⟩
  · have hl := Losing.markAll s
    have hlink := markAll_link s
    have hquiet := fun hr => markAll_quiet (s := s) hr
    generalize markAll s = u at hl hlink hquiet ⊢
    refine ⟨?_, hl.die, hl.store, fun q hst => ?_, fun q hu hd => ?_, fun hr => ?_⟩
    · rw [modBoot, hl.boot]
    · have h := hlink q
      rw [markedLink_alone (l := linkOf s q) hst] at h
      exact congrArg Prod.fst h
    · have h := hlink q
      rw [markedLink_other (l := linkOf s q) (not_or.mpr ⟨hu, hd⟩)] at h
      exact ⟨congrArg Prod.fst h, congrArg Prod.snd h⟩
    · obtain ⟨heq, hports⟩ := hquiet hr
      refine ⟨?_, hports⟩
      rw [modBoot, heq]
  · refine ⟨{ modBoot (stageEvent s 2 false) (fun b => { b with stage := 3, preparing := true }) with
        fabric := { s.fabric with fixed := true } }, ?_, ?_⟩
    · change execStage2Complete s = _
      simp only [execStage2Complete, h2, hs, hd, ne_eq, not_true_eq_false, decide_false, Bool.not_true, Bool.or_self, Bool.false_eq_true, if_false]
      rw [stageEvent_frame]
      rfl
    · rw [stageEvent_frame]
      exact ⟨rfl, rfl, rfl, rfl, rfl⟩
  · change execStage2Complete s = _
    simp [execStage2Complete, hd]

end Sys2Proof.Machine
end

section
/-! PROOFS. The preparation of stage 3 (R83 to R86, R89, R90, R349). -/

namespace Sys2Proof.Machine

/-! ### SCRATCHPAD_TEST_COMPLETE (R83, R349) -/

theorem Files.recordRetired (s : State) (k : Nat) : Files s (recordRetired s k) := by
  unfold Machine.recordRetired
  split
  · exact Files.writeBank _ _ _
  · rfl

/-- Each newly retired segment is recorded. -/
def recordAll (l : List Nat) (s : State) : State :=
  l.foldl (fun t k => event (recordRetired t k) 0xE013 (leBytes 2 k ++ [0xFF])) s

theorem Files.recordAll (l : List Nat) (s : State) : Files s (recordAll l s) := by
  induction l generalizing s with
  | nil => exact Files.refl s
  | cons k l ih => exact ((Files.recordRetired s k).trans (Files.event _ _ _)).trans (ih _)

/-- The segments that this test retires. -/
def newlyRetired (s : State) (failing : List Nat) : List Nat :=
  (List.range 512).filter (fun k => failing.contains k && !(recordedRetired s).contains k)

/-- All that are retired then. -/
def allRetired (s : State) (failing : List Nat) : List Nat := recordedRetired s ++ newlyRetired s failing

theorem allRetired_contains (s : State) (failing : List Nat) (k : Fin 512) :
    (allRetired s failing).contains (k : Nat) = (failing.contains (k : Nat) || (recordedRetired s).contains (k : Nat)) := by
  have hnew : (newlyRetired s failing).contains (k : Nat) = (failing.contains (k : Nat) && !(recordedRetired s).contains (k : Nat)) := by
    have h := k.isLt
    rw [Bool.eq_iff_iff, List.contains_iff_mem, newlyRetired, List.mem_filter, List.mem_range]
    exact ⟨fun h => h.2, fun h' => ⟨h, h'⟩⟩
  rw [allRetired, List.contains_append, hnew]
  cases failing.contains (k : Nat) <;> cases (recordedRetired s).contains (k : Nat) <;> rfl

theorem scratchpadTestComplete_eq {s : State} (h3 : s.boot.stage = 3) (hp : s.boot.preparing = true) (hs : stopped s = false)
    (ht : s.boot.tested = false) (failing : List Nat) :
    exec (.scratchpadTestComplete failing) s = .next (recordAll (newlyRetired s failing)
      { s with store := filledStore s (allRetired s failing), boot := { s.boot with tested := true } }) := by
  change execScratchpadTestComplete failing s = _
  simp only [execScratchpadTestComplete, h3, hp, hs, ht, ne_eq, not_true_eq_false, decide_false, Bool.not_true, Bool.or_self, Bool.false_eq_true,
    if_false]
  rfl

/-- The scratchpad from which segments have been forgotten. -/
def blankBut (l : List Nat) (gen : Nat) : Memory := l.foldl (fun m k => m.forget (0x100000 * k) 0x100000 gen) {}

theorem forget_undefAt {m : Memory} {a n gen b : Nat} (h : b < a ∨ a + n ≤ b) (hm : m.undefAt b = none) :
    (m.forget a n gen).undefAt b = none := by
  have hr := (undefAt_replace m a n b [] h).mpr hm
  have hout : ¬((decide (a ≤ b) && decide (b < a + n)) = true) := by
    simp only [Bool.and_eq_true, decide_eq_true_eq]
    omega
  rw [Memory.undefAt] at hr ⊢
  exact (List.find?_cons_of_neg (p := fun u : URange => decide (u.lo ≤ b) && decide (b < u.hi)) (a := ⟨a, a + n, gen⟩) hout).trans hr

theorem blankBut_spec (l : List Nat) (gen : Nat) :
    (blankBut l gen).cells = [] ∧ (blankBut l gen).flips = []
      ∧ ∀ a, a / 0x100000 ∉ l → (blankBut l gen).undefAt a = none := by
  have hwalk : ∀ (l : List Nat) (m : Memory), m.cells = [] → m.flips = [] →
      let m' := l.foldl (fun m k => m.forget (0x100000 * k) 0x100000 gen) m
      m'.cells = [] ∧ m'.flips = [] ∧ ∀ a, a / 0x100000 ∉ l → m.undefAt a = none → m'.undefAt a = none := by
    intro l
    induction l with
    | nil => exact fun m hc hf => ⟨hc, hf, fun _ _ hm => hm⟩
    | cons k l ih =>
      intro m hc hf
      have hc' : (m.forget (0x100000 * k) 0x100000 gen).cells = [] := by simp [Memory.forget, Memory.replace, hc]
      have hf' : (m.forget (0x100000 * k) 0x100000 gen).flips = [] := by simp [Memory.forget, Memory.replace, hf]
      obtain ⟨ihc, ihf, ihu⟩ := ih _ hc' hf'
      refine ⟨ihc, ihf, fun a ha hm => ihu a (fun h => ha (List.mem_cons_of_mem _ h)) (forget_undefAt ?_ hm)⟩
      have hne : a / 0x100000 ≠ k := fun h => ha (h ▸ List.mem_cons_self)
      omega
  obtain ⟨hc, hf, hu⟩ := hwalk l {} rfl rfl
  exact ⟨hc, hf, fun a ha => hu a ha rfl⟩

theorem filledStore_seg (s : State) (l : List Nat) (k : Fin 512) :
    tget {} (filledStore s l).segs k = { tget {} s.store.segs k with
      power := if l.contains (k : Nat) then .off else .on, filled := !l.contains (k : Nat), retired := l.contains (k : Nat) } := by
  simp only [filledStore]
  rw [tget_map_range _ _ k.isLt]

theorem filledStore_mem (s : State) (l : List Nat) : (filledStore s l).mem = blankBut l s.store.gen := rfl

/-! ### CORE_SELF_TEST_COMPLETE (R84 to R86, R90) -/

/-- Numbers along a rising list rise. -/
theorem zipIdx_rises (d : Nat) (l : List Nat) (hl : l.Pairwise (· < ·)) (i : Nat) :
    (∀ m ∈ l, i ≤ tget d (l.zipIdx i) m ∧ tget d (l.zipIdx i) m < i + l.length)
      ∧ ∀ m ∈ l, ∀ n ∈ l, m < n → tget d (l.zipIdx i) m < tget d (l.zipIdx i) n := by
  induction l generalizing i with
  | nil => exact ⟨nofun, nofun⟩
  | cons a l ih =>
    obtain ⟨ha, hl⟩ := List.pairwise_cons.mp hl
    obtain ⟨hrange, hrise⟩ := ih hl (i + 1)
    have hfirst : tget d ((a :: l).zipIdx i) a = i := by simp [List.zipIdx_cons, tget]
    have hlater : ∀ m ∈ l, tget d ((a :: l).zipIdx i) m = tget d (l.zipIdx (i + 1)) m := by
      intro m hm
      have hne : a ≠ m := Nat.ne_of_lt (ha m hm)
      simp [List.zipIdx_cons, tget, hne]
    refine ⟨fun m hm => ?_, fun m hm n hn hmn => ?_⟩
    · rw [List.length_cons]
      rcases List.mem_cons.mp hm with rfl | hm
      · rw [hfirst]
        omega
      · rw [hlater m hm]
        have := hrange m hm
        omega
    · rcases List.mem_cons.mp hm with rfl | hm
      · have hn : n ∈ l := (List.mem_cons.mp hn).resolve_left (Nat.ne_of_gt hmn)
        rw [hfirst, hlater n hn]
        have := hrange n hn
        omega
      · have hn : n ∈ l := (List.mem_cons.mp hn).resolve_left (fun h => by have := ha m hm; omega)
        rw [hlater m hm, hlater n hn]
        exact hrise m hm n hn hmn

/-- The nodes that are good, in rising order. -/
def goodNodes (f : Nat → NodeState) : List Nat :=
  (((List.range 64).map (fun n => (n, f n))).filter (fun e => e.2 == .good)).map (fun e => e.1)

theorem goodNodes_eq (f : Nat → NodeState) : goodNodes f = (List.range 64).filter (fun n => f n == .good) := by
  rw [goodNodes, List.filter_map, List.map_map]
  exact List.map_id _

theorem goodNodes_logical (f : Nat → NodeState) {m n : Fin 64} (hmn : m < n) (hm : f m = .good) (hn : f n = .good) :
    tget 0xFF (goodNodes f).zipIdx m < tget 0xFF (goodNodes f).zipIdx n ∧ tget 0xFF (goodNodes f).zipIdx n < 64 := by
  have hmem : ∀ k : Fin 64, f k = .good → (k : Nat) ∈ goodNodes f := by
    intro k hk
    rw [goodNodes_eq, List.mem_filter, List.mem_range]
    exact ⟨k.isLt, by rw [hk]; rfl⟩
  have hsorted : (goodNodes f).Pairwise (· < ·) := by
    rw [goodNodes_eq]
    exact List.pairwise_lt_range.filter _
  have hlen : (goodNodes f).length ≤ 64 := by
    rw [goodNodes_eq]
    exact (List.length_filter_le _ _).trans_eq List.length_range
  obtain ⟨hrange, hrise⟩ := zipIdx_rises 0xFF (goodNodes f) hsorted 0
  have hlt := (hrange n (hmem n hn)).2
  exact ⟨hrise m (hmem m hm) n (hmem n hn) hmn, by omega⟩

/-- The state with the nodes of a self-test. -/
def withNodes (s : State) (f : Nat → NodeState) : State :=
  let s1 := { s with die := { s.die with nodes := (List.range 64).map (fun n => (n, f n)), logical := (goodNodes f).zipIdx } }
  modBoot s1 (fun b => { b with mapSet := true, shortfall := decide (goodCount s1 < s.fuses.grade.toNat) })

theorem withNodes_node (s : State) (f : Nat → NodeState) (n : Fin 64) : (withNodes s f).node n = f n := tget_map_range _ _ n.isLt

theorem withNodes_boot (s : State) (f : Nat → NodeState) :
    (withNodes s f).boot = { s.boot with mapSet := true, shortfall := decide (goodCount (withNodes s f) < (withNodes s f).fuses.grade.toNat) } := rfl

theorem coreSelfTestComplete_eq {s : State} (h3 : s.boot.stage = 3) (hp : s.boot.preparing = true) (hs : stopped s = false)
    (ht : s.boot.tested = true) (bad path : BitVec 64) :
    let u := withNodes s (testedNode s bad)
    exec (.coreSelfTestComplete bad path) s = .next (if (List.range 64).any (floorNode u path)
      then stageEvent (modBoot u (fun b => { b with preparing := false })) 3 false else belowFloor u 4) := by
  change execCoreSelfTestComplete bad path s = _
  simp only [execCoreSelfTestComplete, h3, hp, hs, ht, ne_eq, not_true_eq_false, decide_false, Bool.not_true, Bool.or_self, Bool.false_eq_true,
    if_false]
  rfl

/-- Settles O41: a scratchpad filled anew, and the nodes of the self-test with what they come to. -/
theorem preparationTestsSegmentsAndCores : Obligations.PreparationTestsSegmentsAndCores := by
  unfold Obligations.PreparationTestsSegmentsAndCores
  intro failing bad path s h3 hp hs
  refine ⟨fun ht => ⟨_, scratchpadTestComplete_eq h3 hp hs ht failing, ?_⟩, fun ht => ?_⟩
  · let u : State := { s with store := filledStore s (allRetired s failing), boot := { s.boot with tested := true } }
    have hf := Files.recordAll (newlyRetired s failing) u
    generalize recordAll (newlyRetired s failing) u = t at hf ⊢
    have hcontains := allRetired_contains s failing
    have hstore : t.store = filledStore s (allRetired s failing) := hf.store
    have hdie : t.die = s.die := hf.die
    have hboot : t.boot = { s.boot with tested := true } := hf.boot
    clear hf
    generalize allRetired s failing = l at hcontains hstore
    obtain ⟨hcells, hflips, hundef⟩ := blankBut_spec l s.store.gen
    have hseg : ∀ k : Fin 512, t.seg k = { s.seg k with
        power := if l.contains (k : Nat) then .off else .on, filled := !l.contains (k : Nat), retired := l.contains (k : Nat) } := by
      intro k
      rw [State.seg, hstore]
      exact filledStore_seg s l k
    have hmem : t.mem = blankBut l s.store.gen := by rw [State.mem, hstore, filledStore_mem]
    refine ⟨by rw [hboot], by rw [hboot]; exact h3, hdie, fun k => ?_, ?_, ?_, fun k hr a ha => ?_⟩
    · rw [hseg k]
      exact ⟨hcontains k, rfl, rfl⟩
    · exact (congrArg Memory.cells hmem).trans hcells
    · exact (congrArg Memory.flips hmem).trans hflips
    · have hnot : a / 0x100000 ∉ l := by
        rw [hseg k] at hr
        rw [ha]
        exact fun h => Bool.noConfusion ((List.contains_iff_mem.mpr h).symm.trans hr)
      rw [hmem, Memory.byteAt, hundef a hnot, hcells]
      rfl
  · let u := withNodes s (testedNode s bad)
    have hu : u.fuses = s.fuses ∧ u.die.cores = s.die.cores ∧ u.store = s.store := ⟨rfl, rfl, rfl⟩
    have hnode := withNodes_node s (testedNode s bad)
    /- What both outcomes share. -/
    have hboth : ∀ t : State, t.die = u.die → t.store = u.store → t.fuses = u.fuses →
        (∀ n : Fin 64, t.node n = if s.fuses.fusedOff.getLsbD n then .fusedOff else if bad.getLsbD n then .failedTest else .good)
        ∧ (∀ m n : Fin 64, m < n → t.node m = .good → t.node n = .good → t.logical m < t.logical n ∧ t.logical n < 64)
        ∧ decide (goodCount u < u.fuses.grade.toNat) = decide (goodCount t < s.fuses.grade.toNat) ∧ t.die.cores = s.die.cores ∧ t.store = s.store
        ∧ ∀ n, floorNode t path n = floorNode u path n := by
      intro t hd hst hfu
      have hn : ∀ n : Fin 64, t.node n = testedNode s bad n := fun n => by rw [State.node, hd]; exact hnode n
      refine ⟨hn, fun m n hmn hm hn' => ?_, ?_, ?_, hst, fun n => ?_⟩
      · rw [hn] at hm hn'
        rw [State.logical, State.logical, hd]
        exact goodNodes_logical (testedNode s bad) hmn hm hn'
      · have hgood : goodNode t = goodNode u := funext fun k => by simp only [goodNode, State.node, hd]
        rw [goodCount, goodCount, hgood, hu.1]
      · rw [hd]
        exact hu.2.1
      · simp only [floorNode, goodNode, State.node, State.seg, hd, hst]
    have hrow := coreSelfTestComplete_eq h3 hp hs ht bad path
    have hboot : u.boot = { s.boot with mapSet := true, shortfall := decide (goodCount u < u.fuses.grade.toNat) } := withNodes_boot s _
    change exec (.coreSelfTestComplete bad path) s = .next (if (List.range 64).any (floorNode u path)
      then stageEvent (modBoot u (fun b => { b with preparing := false })) 3 false else belowFloor u 4) at hrow
    by_cases hany : (List.range 64).any (floorNode u path) = true
    · obtain ⟨hb, -, -, -⟩ := stageEvent_keeps (modBoot u (fun b => { b with preparing := false })) 3 false
      have hr := (Resting.modBoot u (fun b => { b with preparing := false })).trans (Resting.stageEvent _ 3 false)
      obtain ⟨hn, hl, hs, hc, hst, hfl⟩ := hboth _ hr.die hr.store hr.fuses
      refine ⟨_, hrow.trans (congrArg Host.Outcome.next (if_pos hany)), hn, hl, ?_, ?_, hc, hst, fun _ => ?_, fun hnone => ?_⟩
      · rw [hb, modBoot, hboot]
      · rw [← hs, hb, modBoot, hboot]
      · rw [hb, modBoot, hboot]
        exact ⟨h3, rfl⟩
      · obtain ⟨n, hn64, hfn⟩ := List.any_eq_true.mp hany
        have h := hnone ⟨n, List.mem_range.mp hn64⟩
        rw [hfl] at h
        exact Bool.noConfusion (h.symm.trans hfn)
    · obtain ⟨hb, -, -, -, hr⟩ := belowFloor_spec u 4
      obtain ⟨hn, hl, hs, hc, hst, hfl⟩ := hboth _ hr.die hr.store hr.fuses
      refine ⟨_, hrow.trans (congrArg Host.Outcome.next (if_neg hany)), hn, hl, ?_, ?_, hc, hst, fun ⟨n, hfn⟩ => ?_, fun _ => ?_⟩
      · rw [hb, atFloor, hboot]
      · rw [← hs, hb, atFloor, hboot]
      · rw [hfl] at hfn
        exact (hany (List.any_eq_true.mpr ⟨(n : Nat), List.mem_range.mpr n.isLt, hfn⟩)).elim
      · rw [hb, atFloor, hboot]
        exact ⟨rfl, rfl⟩

end Sys2Proof.Machine
end

section
/-! PROOFS. The handover of images and the steward's watchdog (R60 to R66, R80, R548 to R561, R570). -/

namespace Sys2Proof.Machine

/-! ### The exchange of the images (R549) -/

/-- What a walk of writes leaves in a table: of different keys each has the value it was written. -/
theorem tget_foldl_tput {α : Type} (d : α) (l : Tab α) (hl : (l.map Prod.fst).Nodup) (w : Tab α) (b : Nat) :
    tget d (l.foldl (fun w e => tput w e.1 e.2) w) b = if b ∈ l.map Prod.fst then tget d l b else tget d w b := by
  induction l generalizing w with
  | nil => simp
  | cons e l ih =>
    obtain ⟨k, v⟩ := e
    obtain ⟨hk, hnd⟩ := List.nodup_cons.mp hl
    rw [List.foldl_cons, ih hnd, List.map_cons, tget]
    by_cases hb : k = b
    · subst hb
      rw [if_neg hk, if_pos List.mem_cons_self, if_pos rfl, tget_tput_same]
    · have hne : b ≠ k := fun h => hb h.symm
      have hin : b ∈ k :: l.map Prod.fst ↔ b ∈ l.map Prod.fst := by simp [hne]
      dsimp only
      rw [tget_tput_ne _ _ hne, if_neg hb]
      simp only [hin]

/-- Entries are chosen by their keys. -/
theorem tget_filter_key {α : Type} (d : α) (t : Tab α) (p : Nat → Bool) (b : Nat) :
    tget d (t.filter (fun e => p e.1)) b = if p b then tget d t b else d := by
  induction t with
  | nil => simp [tget]
  | cons e t ih =>
    obtain ⟨k, v⟩ := e
    rw [List.filter_cons, tget]
    by_cases hk : k = b
    · subst hk
      by_cases hp : p k = true
      · rw [if_pos hp, if_pos hp, if_pos rfl, tget, if_pos rfl]
      · rw [if_neg hp, ih, if_neg hp, if_neg hp]
    · rw [if_neg hk]
      split
      · rw [tget, if_neg hk, ih]
      · exact ih

theorem tget_absent {α : Type} (d : α) (t : Tab α) (b : Nat) (h : b ∉ t.map Prod.fst) : tget d t b = d := by
  induction t with
  | nil => rfl
  | cons e t ih =>
    obtain ⟨k, v⟩ := e
    rw [List.map_cons, List.mem_cons, not_or] at h
    rw [tget, if_neg fun hk => h.1 hk.symm]
    exact ih h.2

/-- The blocks of `u` that a predicate names, in the place of those of `t`. -/
def replaced {α : Type} (p : Nat → Bool) (t u : Tab α) : Tab α :=
  (u.filter (fun e => p e.1)).foldl (fun w e => tput w e.1 e.2) (t.filter (fun e => !p e.1))

theorem tget_replaced {α : Type} (d : α) (p : Nat → Bool) (t u : Tab α) (hu : (u.map Prod.fst).Nodup) (b : Nat) :
    tget d (replaced p t u) b = tget d (if p b then u else t) b := by
  have hnd : ((u.filter (fun e => p e.1)).map Prod.fst).Nodup := hu.sublist (List.filter_sublist.map _)
  have hkey : b ∈ (u.filter (fun e => p e.1)).map Prod.fst ↔ b ∈ u.map Prod.fst ∧ p b = true := by
    simp only [List.mem_map, List.mem_filter]
    exact ⟨fun ⟨e, ⟨he, hp⟩, hb⟩ => ⟨⟨e, he, hb⟩, hb ▸ hp⟩, fun ⟨⟨e, he, hb⟩, hp⟩ => ⟨e, ⟨he, hb.symm ▸ hp⟩, hb⟩⟩
  rw [replaced, tget_foldl_tput d _ hnd, tget_filter_key, tget_filter_key d t (fun k => !p k)]
  cases hp : p b with
  | false => simp [hkey, hp]
  | true =>
    by_cases hb : b ∈ u.map Prod.fst
    · simp [hkey, hp, hb]
    · simp [hkey, hp, hb, tget_absent d u b hb]

/-- The blocks that an exchange moves. -/
def movedBlock (h : Handover) (b : Nat) : Bool := 16 ≤ b && b < max h.old.size h.new.size / 4096

theorem exchange_eq (s : State) (h : Handover) :
    exchange s h = { s with fw := { s.fw with
      running := replaced (movedBlock h) s.fw.running s.fw.alternate, alternate := replaced (movedBlock h) s.fw.alternate s.fw.running } } := rfl

/-- The regions have changed places. -/
def Swapped (h : Handover) (s t : State) : Prop :=
  t.fw.running = replaced (movedBlock h) s.fw.running s.fw.alternate ∧ t.fw.alternate = replaced (movedBlock h) s.fw.alternate s.fw.running

theorem Swapped.blocks {h : Handover} {s t : State} (hs : Swapped h s t) (hr : (s.fw.running.map Prod.fst).Nodup)
    (ha : (s.fw.alternate.map Prod.fst).Nodup) (b : Nat) :
    let last := max h.old.size h.new.size / 4096
    tget [] t.fw.running b = tget [] (if 16 ≤ b ∧ b < last then s.fw.alternate else s.fw.running) b
      ∧ tget [] t.fw.alternate b = tget [] (if 16 ≤ b ∧ b < last then s.fw.running else s.fw.alternate) b := by
  obtain ⟨hrun, halt⟩ := hs
  rw [hrun, halt, tget_replaced [] _ _ _ ha, tget_replaced [] _ _ _ hr]
  simp only [movedBlock, Bool.and_eq_true, decide_eq_true_eq, and_self]

/-! ### The rows of a handover (R549 to R556) -/

theorem dropNormal_none {s : State} (h : s.svc.normal = none) (st : W16) : dropNormal s st = s := by
  rw [dropNormal, h]

theorem resumeReruns_none {s : State} (h : s.fw.reruns = []) : resumeReruns s = flushWaiting { s with fw := { s.fw with reruns := [] } } := by
  rw [resumeReruns, h]
  rfl

/-- What both ends of an exchange keep, whatever is filed in between. -/
structure Exchanged (h : Handover) (s t : State) : Prop where
  swapped : Swapped h s t
  pending : t.settings.pending = []
  die : t.die = s.die
  store : t.store = s.store

/-- The state in which a fall-back has exchanged the regions back, before its entry. -/
def restored (s : State) (h : Handover) : State :=
  let s1 := retireTranslated (setSettings (exchange s h) { (exchange s h).settings with pending := [] }) h
  setHand (selectSettings (setFw (kickWatchdog { s1 with svc := { s1.svc with paused := false } }) { s1.fw with image := some h.old })) none

theorem retireTranslated_frame (s : State) (h : Handover) : ∃ b, retireTranslated s h = { s with settings := { s.settings with banks := b } } := by
  unfold retireTranslated
  split
  · exact ⟨s.settings.banks, rfl⟩
  · exact ⟨_, rfl⟩

theorem restored_spec (s : State) (h : Handover) :
    Exchanged h s (restored s h) ∧ (restored s h).fw.image = some h.old ∧ (restored s h).fw.hand = none ∧ (restored s h).svc.paused = false
      ∧ (restored s h).fw.reruns = s.fw.reruns := by
  obtain ⟨b, hb⟩ := retireTranslated_frame (setSettings (exchange s h) { (exchange s h).settings with pending := [] }) h
  let s1 : State := { exchange s h with settings := { (exchange s h).settings with pending := [], banks := b } }
  let u := setFw (kickWatchdog { s1 with svc := { s1.svc with paused := false } }) { s1.fw with image := some h.old }
  have hf : Files u (selectSettings u) := Files.selectSettings u
  have heq : restored s h = setHand (selectSettings u) none := by
    rw [restored, hb]
    rfl
  have hfw : (setHand (selectSettings u) none).fw = { u.fw with waiting := (selectSettings u).fw.waiting, hand := none } :=
    congrArg (fun f : Firmware => { f with hand := none }) hf.fw
  have hkeep : (setHand (selectSettings u) none).settings.pending = [] ∧ (setHand (selectSettings u) none).die = s.die
      ∧ (setHand (selectSettings u) none).store = s.store ∧ (setHand (selectSettings u) none).svc.paused = false :=
    ⟨selectSettings_pending u, hf.die, hf.store, (congrArg Service.paused hf.svc :)⟩
  rw [heq]
  exact ⟨⟨⟨(congrArg Firmware.running hfw :), (congrArg Firmware.alternate hfw :)⟩, hkeep.1, hkeep.2.1, hkeep.2.2.1⟩,
    (congrArg Firmware.image hfw :), (congrArg Firmware.hand hfw :), hkeep.2.2.2, (congrArg Firmware.reruns hfw :)⟩

theorem background_frame (s : State) (o : Origin) (r : W16) (d : List Byte) :
    background s o r d = { s with fw := { s.fw with waiting := (background s o r d).fw.waiting }
                                  ledger := (background s o r d).ledger, sent := (background s o r d).sent } := by
  unfold background appendLater
  split
  · rfl
  · rw [append_frame]

theorem discardBanks_ledger (s : State) : (discardBanks s).ledger = s.ledger := by
  unfold discardBanks
  dsimp only
  split <;> rfl

theorem background_head {s : State} (h : inPause s = false) (o : Origin) (r : W16) (d : List Byte) :
    (background s o r d).ledger.head = s.ledger.head + 1 := by
  simp only [background, appendLater, h, Bool.false_eq_true, if_false, append_head]

section
variable {h : Handover} {s : State} (hh : s.fw.hand = some h)
include hh

theorem exchangeComplete_started (hp : h.phase = .exchanging) (hr : s.fw.reruns = []) :
    ∃ t, exec .exchangeComplete s = .next t ∧ Exchanged h s t ∧ t.fw.image = some h.new
      ∧ t.fw.hand = some { h with phase := .started, start := s.time.elapsed } := by
  let s1 := exchange s h
  let u : State := { s1 with settings := { s1.settings with pending := [] }, fw := { s1.fw with image := some h.new } }
  let v := setHand (kickWatchdog (selectSettings u)) (some { h with phase := .started, start := s.time.elapsed })
  have hf : Files u (selectSettings u) := Files.selectSettings u
  have hfw : v.fw = { u.fw with waiting := (selectSettings u).fw.waiting, hand := some { h with phase := .started, start := s.time.elapsed } } :=
    congrArg (fun f : Firmware => { f with hand := some { h with phase := .started, start := s.time.elapsed } }) hf.fw
  have hkeep : v.settings.pending = [] ∧ v.die = s.die ∧ v.store = s.store := ⟨selectSettings_pending u, hf.die, hf.store⟩
  have hexec : exec .exchangeComplete s = .next (resumeReruns v) := by
    change execExchangeComplete s = _
    simp only [execExchangeComplete, hh, hp, if_true]
    rfl
  have hreruns : v.fw.reruns = [] := by
    rw [hfw]
    exact hr
  rw [resumeReruns_none hreruns, flushWaiting_frame] at hexec
  refine ⟨_, hexec, ⟨⟨?_, ?_⟩, hkeep.1, hkeep.2.1, hkeep.2.2⟩, ?_, ?_⟩
  · exact (congrArg Firmware.running hfw :)
  · exact (congrArg Firmware.alternate hfw :)
  · exact (congrArg Firmware.image hfw :)
  · exact (congrArg Firmware.hand hfw :)

theorem exchangeComplete_restored (hp : h.phase = .restoring) (hr : s.fw.reruns = []) :
    ∃ t, exec .exchangeComplete s = .next t ∧ Exchanged h s t ∧ t.fw.image = some h.old ∧ t.fw.hand = none ∧ t.svc.paused = false := by
  obtain ⟨⟨⟨hrun, halt⟩, hpend, hdie, hstore⟩, himage, hhand, hpaused, hreruns⟩ := restored_spec s h
  have hexec : exec .exchangeComplete s = .next (endHandover (resumeReruns (restored s h)) h h.back.1 h.back.2) := by
    change execExchangeComplete s = _
    simp only [execExchangeComplete, hh, hp]
    rfl
  rw [resumeReruns_none (hreruns.trans hr), flushWaiting_frame] at hexec
  generalize restored s h = v at *
  rw [endHandover, background_frame] at hexec
  exact ⟨_, hexec, ⟨⟨hrun, halt⟩, hpend, hdie, hstore⟩, himage, rfl, hpaused⟩

theorem handoverPauseBegin_accepted (hp : h.phase = .accepted) (hn : s.svc.normal = none) :
    exec .handoverPauseBegin s = .next { s with fw := { s.fw with hand := some { h with phase := .exchanging } } } := by
  change execHandoverPauseBegin s = _
  simp only [execHandoverPauseBegin, hh, hp, if_true]
  exact congrArg Host.Outcome.next (dropNormal_none (s := setHand s (some { h with phase := .exchanging })) hn _)

theorem handoverPauseBegin_falling (hp : h.phase = .falling) (hn : s.svc.normal = none) :
    exec .handoverPauseBegin s = .next { s with fw := { s.fw with hand := some { h with phase := .restoring } } } := by
  change execHandoverPauseBegin s = _
  simp only [execHandoverPauseBegin, hh, hp, reduceCtorEq, if_false, if_true]
  exact congrArg Host.Outcome.next (dropNormal_none (s := setHand s (some { h with phase := .restoring })) hn _)

theorem startChecksPass_started (hp : h.phase = .started) :
    exec .startChecksPass s = .next { s with fw := { s.fw with hand := some { h with phase := .awaiting, passed := true } } } := by
  change execStartChecksPass s = _
  simp only [execStartChecksPass, hh, hp, if_true]
  rfl

theorem selfConfirm_awaiting (hp : h.phase = .awaiting) :
    ∃ t, exec .selfConfirm s = .next t ∧ t.fw.hand = none ∧ t.aon.failed = 0 ∧ t.fw.image = s.fw.image
        ∧ t.ledger.head = s.ledger.head + 2 ∧ t.die = s.die ∧ t.store = s.store := by
  let u := imageEntry s 0x1604 (fwDetail 0 0 h.new.version.toNat h.old.version.toNat)
  let v := discardBanks { u with aon := { u.aon with failed := 0 } }
  have hu : Files s u := Files.append s _
  have hv : Files { u with aon := { u.aon with failed := 0 } } v := Files.discardBanks _
  have hexec : exec .selfConfirm s = .next (endHandover v h 0 1) := by
    change execSelfConfirm s = _
    simp only [execSelfConfirm, hh, hp, if_true]
    rfl
  have hled : v.ledger.head = s.ledger.head + 1 := (congrArg Ledger.head (discardBanks_ledger _)).trans (append_head _ _)
  have hkeep : v.aon.failed = 0 ∧ v.fw.image = s.fw.image ∧ v.die = s.die ∧ v.store = s.store :=
    ⟨(congrArg Aon.failed hv.aon :), (congrArg Firmware.image hv.fw :).trans (congrArg Firmware.image hu.fw :), hv.die.trans hu.die,
      hv.store.trans hu.store⟩
  clear_value v
  obtain ⟨hfailed, himage, hdie, hstore⟩ := hkeep
  have hback := background_head (s := setHand v none) rfl h.origin stOk (fwDetail 0 1 h.new.version.toNat h.old.version.toNat)
  have hlast : (background (setHand v none) h.origin stOk (fwDetail 0 1 h.new.version.toNat h.old.version.toNat)).ledger.head
      = s.ledger.head + 2 := by
    rw [hback, show (setHand v none).ledger = v.ledger from rfl, hled]
    bv_omega
  rw [endHandover, background_frame] at hexec
  exact ⟨_, hexec, rfl, hfailed, himage, hlast, hdie, hstore⟩

theorem confirmWindowEnd_fallBack (hp : h.phase = .awaiting ∨ h.phase = .started) : exec .confirmWindowEnd s = .next (fallBack s h 2 0 true) := by
  have hnew : newRuns h = true := by
    rcases hp with hp | hp <;> rw [newRuns, hp] <;> rfl
  change execConfirmWindowEnd s = _
  simp only [execConfirmWindowEnd, hh, hnew, if_true]

end

/-! ### Resets that the chiplet starts itself (R60, R62, R66) -/

theorem enterStage0_keeps (s : State) :
    let t := enterStage0 s
    t.boot = s.boot ∧ t.die = s.die ∧ t.fuses = s.fuses ∧ t.dma = s.dma ∧ t.gateUnit = s.gateUnit ∧ t.svc = s.svc ∧ t.settings = s.settings
      ∧ t.fw.hand = s.fw.hand ∧ t.aon.failed = s.aon.failed ∧ t.aon.cause = s.aon.cause ∧ t.aon.warm = s.aon.warm := by
  obtain ⟨l, hl⟩ := restPorts_frame (enterEvent (endStops s))
  intro t
  have ht : t = _ := enterStage0_eq s
  rw [hl, enterEvent_frame] at ht
  rw [ht]
  exact ⟨rfl, rfl, rfl, rfl, rfl, rfl, rfl, rfl, rfl, rfl, rfl⟩

/-- An inner warm reset clears what a warm reset clears and says its cause. -/
theorem innerReset_spec (s : State) (c : Byte) :
    let t := innerReset s c
    t.boot = { rstLow := false, pins := s.boot.pins } ∧ t.die.cores = [] ∧ t.fuses = s.fuses ∧ t.dma = {} ∧ t.gateUnit = {} ∧ t.svc = {}
      ∧ t.settings.banks = s.settings.banks ∧ t.fw.hand = none ∧ t.aon.failed = s.aon.failed ∧ t.aon.cause = c.toNat ∧ t.aon.warm = true := by
  obtain ⟨hboot, hdie, hfuses, hdma, hgates, hsvc, hsettings, hhand, hfailed, hcause, hwarm⟩ :=
    enterStage0_keeps (warmState (releaseAlerts s) c false)
  have hw : (warmState (releaseAlerts s) c false).boot = { rstLow := false, pins := s.boot.pins } ∧ (warmState (releaseAlerts s) c false).fuses = s.fuses
      ∧ (warmState (releaseAlerts s) c false).settings.banks = s.settings.banks
      ∧ (warmState (releaseAlerts s) c false).aon.failed = s.aon.failed := by
    unfold warmState
    dsimp only
    rw [flushWaiting_frame]
    exact ⟨rfl, rfl, rfl, rfl⟩
  obtain ⟨wboot, wfuses, wbanks, wfailed⟩ := hw
  exact ⟨hboot.trans wboot, (congrArg Die.cores hdie).trans rfl, hfuses.trans wfuses, hdma.trans rfl, hgates.trans rfl, hsvc.trans rfl,
    (congrArg Settings.banks hsettings).trans wbanks, hhand.trans rfl, hfailed.trans wfailed, hcause.trans rfl, hwarm.trans rfl⟩

/-- Settles O42: a handover exchanges tables of blocks, and files its entries. -/
theorem handoversExchangeAndConfirm : Obligations.HandoversExchangeAndConfirm := by
  unfold Obligations.HandoversExchangeAndConfirm
  intro h s hh last swapped
  refine ⟨handoverPauseBegin_accepted hh, handoverPauseBegin_falling hh, fun hp hr hrun halt => ?_, fun hp hr hrun halt => ?_,
    startChecksPass_started hh, selfConfirm_awaiting hh, fun hp => ⟨fun h0 => ?_, fun h1 => ?_⟩⟩
  · obtain ⟨t, hexec, hx, himage, hhand⟩ := exchangeComplete_started hh hp hr
    exact ⟨t, hexec, fun b => hx.swapped.blocks hrun halt b, himage, hx.pending, hhand, hx.die, hx.store⟩
  · obtain ⟨t, hexec, hx, himage, hhand, hpaused⟩ := exchangeComplete_restored hh hp hr
    exact ⟨t, hexec, fun b => hx.swapped.blocks hrun halt b, himage, hx.pending, hhand, hpaused, hx.die, hx.store⟩
  · have hnot : ¬h.phase = .accepted := by rcases hp with hp | hp <;> rw [hp] <;> decide
    rw [confirmWindowEnd_fallBack hh hp]
    simp only [fallBack, h0, if_true, if_neg hnot]
    rfl
  · have hfall : fallBack s h 2 0 true = innerReset { s with aon := { s.aon with failed := 2 } } 3 := by
      simp only [fallBack, h1, if_true]
      rfl
    obtain ⟨hboot, hcores, hfuses, -, -, -, -, hhand, hfailed, hcause, -⟩ := innerReset_spec { s with aon := { s.aon with failed := 2 } } 3
    exact ⟨_, (confirmWindowEnd_fallBack hh hp).trans (congrArg Host.Outcome.next hfall), by rw [hboot], hfailed, hcause, hhand, hcores, hfuses⟩

end Sys2Proof.Machine
end

section
/-! PROOFS. The steward's watchdog and its faults (R60 to R66, R570). -/

namespace Sys2Proof.Machine

/-- What the loader's recovery comes to, with `n` more entries. -/
def Recovered (s : State) (n : W32) (t : State) : Prop :=
  t.svc.paused = true ∧ t.svc.expiries = [s.time.elapsed] ∧ t.settings.pending = []
    ∧ t.ledger.head = s.ledger.head + n ∧ t.die = s.die ∧ t.store = s.store ∧ t.dma = s.dma ∧ t.head = s.head ∧ t.boot = s.boot

theorem inPause_none {s : State} (h : s.fw.hand = none) : inPause s = false := by
  rw [inPause, h]
  rfl

section
variable {s : State} (hh : s.fw.hand = none) (hn : s.svc.normal = none) (hz : s.seize = none) (he : recentExpiries s = [])
include hh

/-- A first expiry: the loader serves, and one entry says so. -/
theorem expire_first (hn : s.svc.normal = none) (hz : s.seize = none) (he : recentExpiries s = []) (c : Byte) :
    Recovered s 1 (expire s c) ∧ (expire s c).svc.noReturn = s.svc.noReturn := by
  let u : State := { s with
    svc := { s.svc with paused := true, expiries := [s.time.elapsed], kick := s.time.elapsed }, settings := { s.settings with pending := [] } }
  have hhead := event_head (s := u) (inPause_none hh) 0xE001 [byte 2, byte c.toNat, byte 0xFF, 0]
  have hu : expire s c = resetEvent u 2 c.toNat 0xFF := by
    have hhand : (resetEvent u 2 c.toNat 0xFF).fw.hand = none := by
      rw [resetEvent, event_frame]
      exact hh
    have hdrop : restartSeizure (dropNormal s stBusy) = s := by rw [dropNormal_none hn, restartSeizure, hz]
    simp only [expire, he, List.isEmpty_nil, Bool.not_true, Bool.false_eq_true, if_false, hdrop]
    change (match (resetEvent u 2 c.toNat 0xFF).fw.hand with
      | some h => if inPause (resetEvent u 2 c.toNat 0xFF) || h.phase == HandPhase.falling then resetEvent u 2 c.toNat 0xFF
        else fallBack (resetEvent u 2 c.toNat 0xFF) h 2 0 true
      | none => resetEvent u 2 c.toNat 0xFF) = _
    rw [hhand]
  rw [hu, resetEvent]
  rw [event_frame] at hhead ⊢
  exact ⟨⟨rfl, rfl, rfl, hhead, rfl, rfl, rfl, rfl, rfl⟩, rfl⟩

omit hh in
/-- A second expiry within the second is a warm reset. -/
theorem expire_second (he : recentExpiries s ≠ []) (c : Byte) :
    ∃ n, expire s c = innerReset { s with aon := { s.aon with failed := n } } 2 := by
  have hne : (!(recentExpiries s).isEmpty) = true := by
    cases h : recentExpiries s with
    | nil => exact absurd h he
    | cons => rfl
  rw [expire, if_pos hne]
  exact ⟨_, rfl⟩

theorem stewardWatchdogExpiry_eq (hw : watchdogRuns s = true) :
    exec .stewardWatchdogExpiry s = .next (expire s (if s.svc.muted then 5 else 1)) := by
  change execStewardWatchdogExpiry s = _
  simp only [execStewardWatchdogExpiry, hw, inPause_none hh, Bool.not_true, Bool.false_and, Bool.or_self, Bool.false_eq_true, if_false]

end

/-- The entry of a fault of the steward. -/
def faultEntry (s : State) (cause : StewardCause) (pc : W32) : State :=
  event s 0xE060 ([stewardCode cause, 0, 0, 0] ++ leBytes 4 pc.toNat)

theorem faultEntry_frame (s : State) (cause : StewardCause) (pc : W32) :
    faultEntry s cause pc = { s with leat := { s.leat with events := s.leat.events + 1 }
                                     fw := { s.fw with waiting := (faultEntry s cause pc).fw.waiting }
                                     ledger := (faultEntry s cause pc).ledger, sent := (faultEntry s cause pc).sent } := event_frame _ _ _

theorem faultEntry_head {s : State} (hh : s.fw.hand = none) (cause : StewardCause) (pc : W32) :
    (faultEntry s cause pc).ledger.head = s.ledger.head + 1 := event_head (inPause_none hh) _ _

/-- A fault outside the loader: its entry, and then an expiry. -/
theorem expire_faulted {s u : State} {b : Bool} (hh : s.fw.hand = none) (hn : s.svc.normal = none) (hz : s.seize = none)
    (he : recentExpiries s = []) (hhead : u.ledger.head = s.ledger.head + 1)
    (hu : u = { s with leat := { s.leat with events := s.leat.events + 1 }, fw := { s.fw with waiting := u.fw.waiting }
                       ledger := u.ledger, sent := u.sent, svc := { s.svc with noReturn := b } }) (c : Byte) :
    Recovered s 2 (expire u c) ∧ (expire u c).svc.noReturn = b := by
  have hkeep : u.fw.hand = none ∧ u.svc.normal = none ∧ u.seize = none ∧ recentExpiries u = [] ∧ u.time = s.time ∧ u.die = s.die
      ∧ u.store = s.store ∧ u.dma = s.dma ∧ u.head = s.head ∧ u.boot = s.boot ∧ u.svc.noReturn = b := by
    rw [hu]
    exact ⟨hh, hn, hz, he, rfl, rfl, rfl, rfl, rfl, rfl, rfl⟩
  obtain ⟨uh, un, uz, ue, utime, udie, ustore, udma, uhead, uboot, uno⟩ := hkeep
  obtain ⟨⟨hp, hx, hs, hl, hdie, hstore, hdma, hhd, hboot⟩, hno⟩ := expire_first uh un uz ue c
  rw [utime] at hx
  refine ⟨⟨hp, hx, hs, ?_, hdie.trans udie, hstore.trans ustore, hdma.trans udma, hhd.trans uhead, hboot.trans uboot⟩, hno.trans uno⟩
  rw [hl, hhead]
  bv_omega

theorem urgentServiceStart_muted {u : State} (h : u.svc.muted = true) : exec .urgentServiceStart u = .next u := by
  change execUrgentServiceStart u = _
  simp [execUrgentServiceStart, h]

/-- A fault after which firmware does not come back. -/
def lastFault (s : State) (c : StewardCause) (pc : W32) : State :=
  { faultEntry s c pc with svc := { (faultEntry s c pc).svc with noReturn := true } }

theorem lastFault_frame (s : State) (c : StewardCause) (pc : W32) :
    lastFault s c pc = { s with leat := { s.leat with events := s.leat.events + 1 }, fw := { s.fw with waiting := (lastFault s c pc).fw.waiting }
                                ledger := (lastFault s c pc).ledger, sent := (lastFault s c pc).sent, svc := { s.svc with noReturn := true } } := by
  unfold lastFault
  rw [faultEntry_frame]

/-- What a fault of the steward comes to after its entry. -/
def faultOutcome (u : State) : StewardCause → State
  | .loader => { u with svc := { u.svc with paused := true, muted := true, noReturn := true } }
  | .keepSram => expire { u with svc := { u.svc with noReturn := true } } 4
  | c => expire u (stewardCode c)

theorem stewardFault_eq {s : State} (hw : watchdogRuns s = true) (c : StewardCause) (pc : W32) :
    exec (.stewardFault c pc) s = .next (faultOutcome (faultEntry s c pc) c) := by
  change execStewardFault c pc s = _
  simp only [execStewardFault, hw, Bool.not_true, Bool.false_eq_true, if_false]
  cases c <;> rfl

/-- Settles O43: an expiry is a recovery or a warm reset, and a fault is its entry and then an expiry or silence. -/
theorem watchdogExpiriesRecoverThenReset : Obligations.WatchdogExpiriesRecoverThenReset := by
  unfold Obligations.WatchdogExpiriesRecoverThenReset
  intro pc s hw recovered
  refine ⟨fun hh hn hz he hm => ⟨?_, ?_, ?_, ?_⟩, fun hh he => ?_, fun hh => ?_, fun hp hr hh => ?_⟩
  · exact ⟨_, stewardWatchdogExpiry_eq hh hw, (expire_first hh hn hz he _).1⟩
  · exact ⟨_, stewardFault_eq hw .dataSram pc, (expire_faulted hh hn hz he (faultEntry_head hh _ _) (faultEntry_frame _ _ _) _).1⟩
  · exact ⟨_, stewardFault_eq hw .exception pc, (expire_faulted hh hn hz he (faultEntry_head hh _ _) (faultEntry_frame _ _ _) _).1⟩
  · exact ⟨_, stewardFault_eq hw .keepSram pc, expire_faulted (u := lastFault s .keepSram pc) hh hn hz he (faultEntry_head hh .keepSram pc)
      (lastFault_frame s .keepSram pc) 4⟩
  · obtain ⟨n, hx⟩ := expire_second he (if s.svc.muted then 5 else 1)
    obtain ⟨hboot, hcores, hfuses, hdma, hgates, hsvc, hbanks, -, -, hcause, hwarm⟩ :=
      innerReset_spec { s with aon := { s.aon with failed := n } } 2
    exact ⟨_, (stewardWatchdogExpiry_eq hh hw).trans (congrArg Host.Outcome.next hx), by rw [hboot], hcause, hwarm, hcores, hdma, hgates, hsvc,
      hfuses, hbanks⟩
  · have hf := faultEntry_frame s .loader pc
    have hkeep : (faultEntry s .loader pc).die = s.die ∧ (faultEntry s .loader pc).store = s.store := by
      rw [hf]
      exact ⟨rfl, rfl⟩
    exact ⟨_, stewardFault_eq hw .loader pc, rfl, rfl, hkeep.1, hkeep.2, fun u => urgentServiceStart_muted rfl⟩
  · let u : State := kickWatchdog { s with svc := { s.svc with paused := false } }
    have hrow : exec .fullFirmwareService s = .next (selectSettings u) := by
      change execFullFirmwareService s = _
      have hserves : ¬ (!s.svc.paused || s.svc.noReturn || s.fw.hand.any (fun h => h.phase == .falling || h.phase == .restoring)) = true := by
        rw [hp, hr, hh]
        decide
      exact congrArg Host.Outcome.next (if_neg hserves)
    have hf : Files u (selectSettings u) := Files.selectSettings u
    exact ⟨_, hrow, hf.svc, selectSettings_pending u, hf.die, hf.store⟩

end Sys2Proof.Machine
end

section
/-! PROOFS. The operating point (R25, R26, R495 to R497). -/

namespace Sys2Proof.Machine

/-! ### The choice of a point leaves the point in force (R496) -/

theorem evalPoint_frame (s : State) :
    (evalPoint s).head.op = s.head.op ∧ (evalPoint s).head.ackMv = s.head.ackMv ∧ (evalPoint s).head.holdoff = s.head.holdoff
      ∧ (evalPoint s).die = s.die ∧ (evalPoint s).store = s.store ∧ (evalPoint s).ledger = s.ledger ∧ (evalPoint s).boot = s.boot := by
  obtain ⟨q, c, n, m, h⟩ := evalPoint_eq s
  rw [h]
  exact ⟨rfl, rfl, rfl, rfl, rfl, rfl, rfl⟩

/-- While no raise may follow, no change begins but a lowering below the point in force. -/
theorem evalPoint_held {s : State} (hc : s.head.change = none) (hh : s.head.holdoff ≠ 0) :
    (s.head.op ≤ chosenPoint s → (evalPoint s).head.change = none) ∧ ∀ d, (evalPoint s).head.change = some d → d.raise = false := by
  have hp : chosenPoint (pointReasons s) = chosenPoint s := rfl
  have hrc : (pointReasons s).head.change = none := hc
  have hrh : (pointReasons s).head.holdoff ≠ 0 := hh
  have hro : (pointReasons s).head.op = s.head.op := rfl
  simp only [evalPoint, hp, hro, if_pos hrh]
  split
  · exact ⟨fun _ => hrc, fun d h => by simp [hrc] at h⟩
  · split
    · exact ⟨fun _ => hrc, fun d h => by simp [hrc] at h⟩
    · split
      next hlow =>
        refine ⟨fun h => absurd hlow (Nat.not_lt.mpr h), fun d h => ?_⟩
        cases h
        rfl
      next => exact ⟨fun _ => hrc, fun d h => by simp [hrc] at h⟩

/-! ### The rows (R25, R26, R497) -/

section
variable {s : State} {c : OpChange} {num : Byte} {mv : W16} (hc : s.head.change = some c)
include hc

theorem vddAck_ignored (h : c.requested = false ∨ num ≠ s.head.reqNum ∨ mv.toNat ≠ pointMv s c.target) :
    exec (.vddAck num mv) s = .next s := by
  change execVddAck num mv s = _
  simp only [execVddAck, hc]
  refine congrArg Host.Outcome.next (if_pos ?_)
  simpa [or_assoc] using h

theorem vddAck_taken (hr : c.requested = true) (hn : num = s.head.reqNum) (hm : mv.toNat = pointMv s c.target) :
    exec (.vddAck num mv) s = .next (
      if c.raise && !c.pllLocked then { s with head := { s.head with ackMv := mv.toNat, change := some { c with acked := true } } }
      else evalPoint { s with head := { s.head with ackMv := mv.toNat, op := c.target, change := none } }) := by
  change execVddAck num mv s = _
  simp only [execVddAck, hc]
  exact congrArg Host.Outcome.next (if_neg (by simp [hr, hn, hm]))

theorem corePllLocked_taken (hl : c.pllLocked = false) :
    exec .corePllLocked s = .next (
      if c.raise then
        if c.acked then evalPoint { s with head := { s.head with op := c.target, change := none } }
        else { s with head := { s.head with change := some { c with pllLocked := true } } }
      else sendVddReq { s with head := { s.head with op := c.target, change := some { c with pllLocked := true } } } c.target) := by
  change execCorePllLocked s = _
  simp only [execCorePllLocked, hc, hl]
  rfl

theorem corePllLocked_ignored (hl : c.pllLocked = true) : exec .corePllLocked s = .next s := by
  change execCorePllLocked s = _
  simp only [execCorePllLocked, hc, hl, if_true]

theorem vddAckTimeout_taken (hr : c.requested = true) (ha : c.acked = false) :
    exec .vddAckTimeout s = .next (evalPoint (setHead s (setReason { s.head with change := none, holdoff := 500 } trVddAck true))) := by
  change execVddAckTimeout s = _
  simp only [execVddAckTimeout, hc, hr, ha]
  rfl

end

/-- A change that ends puts its point in force. -/
theorem evalPoint_switched (s : State) (op mv : Nat) :
    let t := evalPoint { s with head := { s.head with ackMv := mv, op := op, change := none } }
    t.head.op = op ∧ t.head.ackMv = mv ∧ t.die = s.die ∧ t.store = s.store ∧ t.ledger = s.ledger ∧ t.boot = s.boot := by
  obtain ⟨hop, hmv, -, hrest⟩ := evalPoint_frame { s with head := { s.head with ackMv := mv, op := op, change := none } }
  exact ⟨hop, hmv, hrest⟩

/-- Settles O44: each row by the change in progress, and the choice after it leaves the point in force. -/
theorem operatingPointsChangeInOrder : Obligations.OperatingPointsChangeInOrder := by
  unfold Obligations.OperatingPointsChangeInOrder
  intro c num mv s hc other
  refine ⟨fun hr hn hm hup hl => ?_, fun hr hn hm hup hl => ?_, fun hr hn hm hdown => ?_, vddAck_ignored hc, fun hl hup ha => ?_,
    fun hl hup ha => ?_, fun hl hdown => ?_, corePllLocked_ignored hc, fun hr ha => ?_⟩
  · rw [vddAck_taken hc hr hn hm, hup, hl]
    rfl
  · refine ⟨_, vddAck_taken hc hr hn hm, ?_⟩
    rw [hup, hl]
    exact evalPoint_switched s c.target mv.toNat
  · refine ⟨_, vddAck_taken hc hr hn hm, ?_⟩
    rw [hdown]
    exact evalPoint_switched s c.target mv.toNat
  · rw [corePllLocked_taken hc hl, hup, ha]
    rfl
  · refine ⟨_, corePllLocked_taken hc hl, ?_⟩
    rw [hup, ha]
    exact evalPoint_switched s c.target s.head.ackMv
  · refine ⟨_, corePllLocked_taken hc hl, ?_⟩
    rw [hdown]
    exact ⟨rfl, rfl, rfl, rfl, rfl, rfl, rfl⟩
  · refine ⟨_, vddAckTimeout_taken hc hr ha, ?_⟩
    let u := setHead s (setReason { s.head with change := none, holdoff := 500 } trVddAck true)
    obtain ⟨hop, -, hhold, hrest⟩ := evalPoint_frame u
    have hu : u.head.change = none ∧ u.head.holdoff = 500 := ⟨rfl, rfl⟩
    obtain ⟨hnone, hlower⟩ := evalPoint_held hu.1 (by rw [hu.2]; decide)
    exact ⟨hnone, hlower, hop, hhold, hrest⟩

end Sys2Proof.Machine
end

section
/-! PROOFS. The limiters: ramp, droop, stalls and the cap ceiling (R496, R501 to R504, R571). -/

namespace Sys2Proof.Machine

/-! ### Sums over the nodes -/

theorem sum_range_getD (k : Nat) (f : List Nat) : ((List.range k).map (fun n => f.getD n 0)).sum = (f.take k).sum := by
  induction f generalizing k with
  | nil => simp
  | cons x f ih =>
    cases k with
    | zero => rfl
    | succ k =>
      rw [List.range_succ_eq_map]
      simpa [Function.comp_def] using ih k

theorem sum_range_getD_le (k : Nat) (f : List Nat) : ((List.range k).map (fun n => f.getD n 0)).sum ≤ f.sum :=
  (sum_range_getD k f).trans_le ((List.take_sublist k f).sum_le_sum fun _ _ => Nat.zero_le _)

theorem tget_map_values {α : Type} {d : α} {g : α → α} (hd : g d = d) (t : Tab α) (k : Nat) :
    tget d (t.map (fun e => (e.1, g e.2))) k = g (tget d t k) := by
  induction t with
  | nil => exact hd.symm
  | cons e t ih =>
    obtain ⟨j, v⟩ := e
    simp only [List.map_cons, tget]
    split
    · rfl
    · exact ih

theorem tget_of_forall {α : Type} {p : α → Prop} {d : α} (hd : p d) {t : Tab α} (h : ∀ e ∈ t, p e.2) (k : Nat) : p (tget d t k) := by
  induction t with
  | nil => exact hd
  | cons e t ih =>
    obtain ⟨j, v⟩ := e
    rw [tget]
    split
    · exact h _ List.mem_cons_self
    · exact ih fun e he => h e (List.mem_cons_of_mem _ he)

theorem testBit_maskOf (l : List Nat) (n : Nat) : (maskOf l).testBit n = decide (n ∈ l) := by
  have h : ∀ (l : List Nat) (m : Nat), (l.foldl (fun m i => m ||| 2 ^ i) m).testBit n = (m.testBit n || decide (n ∈ l)) := by
    intro l
    induction l with
    | nil => simp
    | cons i l ih =>
      intro m
      rw [List.foldl_cons, ih, Nat.testBit_or, Nat.testBit_two_pow]
      simp [Bool.or_assoc, eq_comm]
  simpa [maskOf] using h l 0

/-! ### The cores that the ramp shaper withholds (R501) -/

/-- One core more is withheld while what is left does not fit. -/
def withholdNext (forecast : List Nat) (limit : Nat) (acc : Nat × List Nat) (n : Nat) : Nat × List Nat :=
  if acc.1 ≤ limit then acc else (acc.1 - forecast.getD n 0, n :: acc.2)

theorem withholdNext_fits {forecast : List Nat} {limit : Nat} {acc : Nat × List Nat} (h : acc.1 ≤ limit) (l : List Nat) :
    l.foldl (withholdNext forecast limit) acc = acc := by
  induction l with
  | nil => rfl
  | cons n l ih => rw [List.foldl_cons, withholdNext, if_pos h, ih]

/-- The withheld cores stand first in the order, and either the rest fits or there is no rest. -/
theorem withholdNext_split (forecast : List Nat) (limit : Nat) (l : List Nat) (acc : Nat × List Nat) :
    ∃ held rest, l = held ++ rest ∧ (l.foldl (withholdNext forecast limit) acc).2 = held.reverse ++ acc.2
      ∧ (acc.1 - (held.map (fun n => forecast.getD n 0)).sum ≤ limit ∨ rest = []) := by
  induction l generalizing acc with
  | nil => exact ⟨[], [], rfl, rfl, Or.inr rfl⟩
  | cons n l ih =>
    by_cases h : acc.1 ≤ limit
    · exact ⟨[], n :: l, rfl, by rw [withholdNext_fits h]; rfl, Or.inl (by simpa using h)⟩
    · obtain ⟨held, rest, hl, hheld, hfit⟩ := ih (acc.1 - forecast.getD n 0, n :: acc.2)
      refine ⟨n :: held, rest, by rw [hl]; rfl, ?_, ?_⟩
      · rw [List.foldl_cons, withholdNext, if_neg h, hheld]
        simp
      · simpa [Nat.sub_sub] using hfit

/-- What the cores that are not withheld forecast fits the limit. -/
theorem holdHighest_fits (forecast : List Nat) (turn limit : Nat) :
    (((List.range 64).filter (fun n => !(holdHighest forecast turn limit).getLsbD n)).map (fun n => forecast.getD n 0)).sum ≤ limit := by
  let order := ((List.range 64).map (fun i => (i + turn) % 64)).mergeSort (fun a b => forecast.getD b 0 ≤ forecast.getD a 0)
  obtain ⟨held, rest, horder, hheld, hfit⟩ := withholdNext_split forecast limit order (forecast.sum, [])
  have hbit : ∀ n < 64, (holdHighest forecast turn limit).getLsbD n = decide (n ∈ held) := by
    intro n hn
    change (BitVec.ofNat 64 (maskOf (order.foldl (withholdNext forecast limit) (forecast.sum, [])).2)).getLsbD n = _
    rw [hheld, BitVec.getLsbD_ofNat, testBit_maskOf]
    simp [hn]
  have hperm : (List.range 64).Perm (held ++ rest) := by
    rw [← horder]
    refine List.Perm.trans ?_ (List.mergeSort_perm _ _).symm
    refine List.perm_of_nodup_nodup_toFinset_eq List.nodup_range ?_ ?_
    · refine List.Nodup.map_on ?_ List.nodup_range
      intro a ha b hb h
      rw [List.mem_range] at ha hb
      omega
    · ext n
      simp only [List.mem_toFinset, List.mem_range, List.mem_map]
      exact ⟨fun hn => ⟨(n + 64 - turn % 64) % 64, by omega, by omega⟩, fun ⟨i, _, hi⟩ => by omega⟩
  have hfree : (((List.range 64).filter (fun n => !(holdHighest forecast turn limit).getLsbD n)).map (fun n => forecast.getD n 0)).sum
      ≤ (rest.map (fun n => forecast.getD n 0)).sum := by
    have hsame : (List.range 64).filter (fun n => !(holdHighest forecast turn limit).getLsbD n)
        = (List.range 64).filter (fun n => !decide (n ∈ held)) :=
      List.filter_congr fun n hn => by rw [hbit n (List.mem_range.mp hn)]
    have hnone : held.filter (fun n => !decide (n ∈ held)) = [] := by simp
    rw [hsame, ((hperm.filter _).map _).sum_eq, List.filter_append, hnone, List.nil_append]
    exact ((List.filter_sublist).map _).sum_le_sum fun _ _ => Nat.zero_le _
  have htotal : (held.map (fun n => forecast.getD n 0)).sum + (rest.map (fun n => forecast.getD n 0)).sum ≤ forecast.sum := by
    rw [← List.sum_append, ← List.map_append, ← (hperm.map _).sum_eq]
    exact sum_range_getD_le 64 forecast
  refine hfree.trans ?_
  rcases hfit with h | h
  · dsimp only at h
    omega
  · simp [h]

/-! ### An interval of the ramp shaper (R501 to R504) -/

theorem passHints_hint (s : State) (n : Nat) :
    (passHints s).core n = { s.core n with hint := (s.core n).hint.bind (fun k => k.pass (opPoint s s.head.op).2) } :=
  tget_map_values (d := ({} : Core)) (g := fun c => { c with hint := c.hint.bind (fun k => k.pass (opPoint s s.head.op).2) }) rfl _ _

section
variable {f quiet : List Nat} {s : State}

theorem setReason_eq (h : Head) (k : Nat) (on : Bool) : ∃ q, setReason h k on = { h with reasons := q } := ⟨_, rfl⟩

theorem rampShaperInterval_rise (hl : loops s = true) (h : s.head.floor + (rampSteps s).1 < f.sum) :
    ∃ q, exec (.rampShaperInterval f quiet) s = .next { passHints s with head := { s.head with
      rampHold := holdHighest f s.head.rampTurn (s.head.floor + (rampSteps s).1)
      rampTurn := (s.head.rampTurn + 1) % 64
      floor := s.head.floor + (rampSteps s).1
      reasons := q } } := by
  obtain ⟨q, hq⟩ := setReason_eq { s.head with
    rampHold := holdHighest f s.head.rampTurn (s.head.floor + (rampSteps s).1)
    rampTurn := (s.head.rampTurn + 1) % 64
    floor := s.head.floor + (rampSteps s).1 } trRampRise (s.head.floor + 50 * s.head.ramp < f.sum)
  refine ⟨q, ?_⟩
  change execRampShaperInterval f quiet s = _
  simp only [execRampShaperInterval, hl, Bool.not_true, Bool.false_eq_true, if_false, if_pos h]
  rw [hq]
  rfl

theorem rampShaperInterval_fits (hl : loops s = true) (h : f.sum ≤ s.head.floor + (rampSteps s).1) :
    ∃ q, exec (.rampShaperInterval f quiet) s = .next { passHints s with head := { s.head with
      rampHold := 0, floor := nextFloor s f quiet, reasons := q } } := by
  obtain ⟨q, hq⟩ := setReason_eq { s.head with rampHold := 0, floor := nextFloor s f quiet } trRampRise false
  refine ⟨q, ?_⟩
  change execRampShaperInterval f quiet s = _
  simp only [execRampShaperInterval, hl, Bool.not_true, Bool.false_eq_true, if_false, if_neg (Nat.not_lt.mpr h)]
  rw [hq]
  rfl

/-- The floor covers the forecast, and rises within the ramp. -/
theorem nextFloor_bounds (h : f.sum ≤ s.head.floor + (rampSteps s).1) :
    f.sum ≤ nextFloor s f quiet ∧ nextFloor s f quiet ≤ s.head.floor + (rampSteps s).1 := by
  simp only [nextFloor]
  split <;> omega

theorem coreWant_unhinted {n : Nat} (h : (s.core n).hint = none) : coreWant s f quiet n = f.getD n 0 := by
  rw [coreWant, h]

/-- Without a hint the floor decays at the ramp rate, where spill may fill it. -/
theorem nextFloor_unhinted (hd : s.head.droop = false) (hs : stopped s = false) (hlen : f.length = 64)
    (hn : ∀ e ∈ s.die.cores, e.2.hint = none) (hfit : f.sum ≤ s.head.floor + 50 * s.head.ramp) :
    nextFloor s f quiet ≤ max f.sum (s.head.floor - 50 * s.head.ramp)
      ∧ (s.head.floor - 50 * s.head.ramp ≤ f.sum + spillRoom s f quiet → s.head.floor - 50 * s.head.ramp ≤ limitCurrent s.head →
        nextFloor s f quiet = max f.sum (s.head.floor - 50 * s.head.ramp)) := by
  have hwant : ((List.range 64).map (coreWant s f quiet)).sum = f.sum := by
    have hcore : ∀ n, (s.core n).hint = none := tget_of_forall (p := fun c : Core => c.hint = none) rfl hn
    rw [List.map_congr_left fun n _ => coreWant_unhinted (hcore n), sum_range_getD, ← hlen, List.take_length]
  simp only [nextFloor, hwant, rampSteps, hd, hs, Bool.or_self, Bool.false_eq_true, if_false]
  omega

end

/-! ### Stalls and the cap ceiling (R496, R571, R572) -/

theorem withheld_of_droop {s : State} (h : s.head.droop = true) (n : Nat) : withheld s n = true := by
  simp only [withheld, h, Bool.true_or]

theorem withheld_of_stalled {s : State} (h : s.head.stalled = true) (n : Nat) : withheld s n = true := by
  simp only [withheld, h, Bool.or_true, Bool.true_or]

/-- An answer that comes late changes only the endpoints, the service and what leaves. -/
theorem finishLate_sending (s : State) (urgent : Bool) (st : W16) (result : Option (List Byte)) :
    ∃ e v, Sending { s with eps := e, svc := v } (finishLate s urgent st result) := by
  unfold finishLate
  split
  · rw [respond_eq]
    exact ⟨_, _, Sending.answerLeaves _ _ _⟩
  · exact ⟨s.eps, s.svc, Sending.refl s⟩

theorem abortSeizure_keeps (s : State) : (abortSeizure s).aon = s.aon ∧ (abortSeizure s).store = s.store
    ∧ (abortSeizure s).boot = s.boot := by
  unfold abortSeizure
  split
  · obtain ⟨e, v, h⟩ := finishLate_sending _ _ stConflict (some [])
    exact ⟨h.aon, h.store, h.boot⟩
  · exact ⟨rfl, rfl, rfl⟩

theorem Sending.eventNow (s : State) (c : W16) (d : List Byte) : Sending s (eventNow s c d) :=
  (Sending.of_rest rfl List.prefix_rfl rfl rfl : Sending s (countEvent s)).trans (Sending.append _ _)

theorem Losing.stopLines (s : State) (cause item : Byte) (links drop : Bool) :
    Losing (abortSeizure s) (stopLines s cause item links drop) := by
  unfold Machine.stopLines
  dsimp only
  have hports := Losing.stopPorts (abortSeizure s) cause links
  generalize Machine.stopPorts (abortSeizure s) cause links = u at hports ⊢
  exact (Losing.ite (hports.trans (Sending.emit _ _).losing) hports).trans (Sending.eventNow _ _ _).losing

theorem stopLines_keeps (s : State) (cause item : Byte) (links drop : Bool) :
    (stopLines s cause item links drop).aon = s.aon ∧ (stopLines s cause item links drop).store = s.store := by
  obtain ⟨haon, hstore, -⟩ := abortSeizure_keeps s
  have h := Losing.stopLines s cause item links drop
  exact ⟨h.aon.trans haon, h.store.trans hstore⟩

/-- A trip is latched, and the scratchpad stays. -/
theorem tripNow_latches {s : State} (hd : s.boot.dead = false) (p : Byte) :
    (tripNow s p).aon.stop.trip = true ∧ (tripNow s p).store = s.store := by
  unfold tripNow
  split
  next h => simpa [hd] using h
  next =>
    dsimp only
    obtain ⟨haon, hstore⟩ := stopLines_keeps (modHead { s with aon := { s.aon with
      stop := { s.aon.stop with trip := true }, latch := { s.aon.latch with trip := true }, alert := { s.aon.alert with trip := true }
      tripPoint := p } } (fun h => setReason h trTrip true)) 5 p true false
    exact ⟨by rw [haon]; rfl, hstore⟩

/-- The headgate with one stall more. -/
def stalledAgain (s : State) : State :=
  modHead s (fun h => { h with
    stalled := true, stalls := s.time.elapsed :: s.head.stalls.filter (fun t => s.time.elapsed < t + 1000000000) })

/-- The detail of a stall's entry. -/
def stallDetail (s : State) (missed : W32) : List Byte :=
  [byte (stalledAgain s).head.stalls.length, 0, 0, 0] ++ leBytes 4 missed.toNat

theorem headgateStall_eq (missed : W32) (s : State) :
    exec (.headgateStall missed) s = .next (
      if 2 ≤ (stalledAgain s).head.stalls.length then tripNow (event (stalledAgain s) 0xE071 (stallDetail s missed)) 0xFF
      else event (stalledAgain s) 0xE071 (stallDetail s missed)) := rfl

/-- The cap ceiling after a loop (R496). -/
def ceilingAfter (h : Head) (d w : Nat) : Nat :=
  let hist := ((d, w) :: h.capHist).take 10
  if h.pace.isSome then 15
  else if d < 4 * w then h.capCeil - 1
  else if hist.length = 10 ∧ (20 * (hist.map (fun e => e.2)).sum < (hist.map (fun e => e.1)).sum ∨ (hist.map (fun e => e.2)).sum = 0) then
    min 15 (h.capCeil + 1)
  else h.capCeil

theorem opLoop_eq {s : State} (hl : loops s = true) (d w : Nat) :
    ∃ q c n m, exec (.opLoop d w) s = .next { s with
      head := { s.head with
        capHist := ((d, w) :: s.head.capHist).take 10, capCeil := ceilingAfter s.head d w, reasons := q, change := c, reqNum := n }
      sent := m } := by
  obtain ⟨q, c, n, m, heq⟩ := evalPoint_eq (setHead s { s.head with
    capHist := ((d, w) :: s.head.capHist).take 10, capCeil := ceilingAfter s.head d w })
  refine ⟨q, c, n, m, Eq.trans ?_ (congrArg Host.Outcome.next heq)⟩
  change execOpLoop d w s = _
  rw [execOpLoop, if_neg (by simp [hl])]
  rfl

/-- Settles O45: each limiter by the fields of the headgate that its row sets. -/
theorem limitersWithholdMatrixIssue : Obligations.LimitersWithholdMatrixIssue := by
  unfold Obligations.LimitersWithholdMatrixIssue
  intro f quiet below missed d w s only hints
  refine ⟨fun hl hd => ⟨fun hup => ?_, fun hfit => ?_⟩, fun hl hd => ?_, fun hl => ⟨?_, ?_⟩, fun hb => ?_, fun hb => ?_, ?_,
    fun hs hh => ?_, fun hrecent hd => ?_, fun hl hp hcut => ?_, fun hl hp => ?_⟩
  · have hstep : (rampSteps s).1 = 50 * s.head.ramp := by simp [rampSteps, hd]
    obtain ⟨q, hrow⟩ := rampShaperInterval_rise (quiet := quiet) hl (by rwa [hstep])
    rw [hstep] at hrow
    exact ⟨_, hrow, rfl, ⟨rfl, rfl, passHints_hint s⟩, holdHighest_fits _ _ _⟩
  · have hstep : (rampSteps s).1 = 50 * s.head.ramp := by simp [rampSteps, hd]
    have hfits : f.sum ≤ s.head.floor + (rampSteps s).1 := by rwa [hstep]
    obtain ⟨q, hrow⟩ := rampShaperInterval_fits (quiet := quiet) hl hfits
    obtain ⟨hlow, hhigh⟩ := nextFloor_bounds (quiet := quiet) hfits
    rw [hstep] at hhigh
    exact ⟨_, hrow, rfl, hlow, hhigh, ⟨rfl, rfl, passHints_hint s⟩, fun hlen hs hn => nextFloor_unhinted hd hs hlen hn hfit⟩
  · have hstep : (rampSteps s).1 = 0 := by simp [rampSteps, hd]
    rcases Nat.lt_or_ge (s.head.floor + (rampSteps s).1) f.sum with hup | hfit
    · obtain ⟨q, hrow⟩ := rampShaperInterval_rise (quiet := quiet) hl hup
      rw [hstep] at hrow
      exact ⟨_, hrow, Nat.le_refl _, rfl, rfl, passHints_hint s⟩
    · obtain ⟨q, hrow⟩ := rampShaperInterval_fits (quiet := quiet) hl hfit
      have hhigh := (nextFloor_bounds (quiet := quiet) hfit).2
      rw [hstep] at hhigh
      exact ⟨_, hrow, hhigh, rfl, rfl, passHints_hint s⟩
  · change execRampShaperInterval f quiet s = _
    rw [execRampShaperInterval, if_pos (by simp [hl])]
  · change execOpLoop d w s = _
    rw [execOpLoop, if_pos (by simp [hl])]
  · refine ⟨modHead s (fun h => setReason { h with droop := true, below := below } trDroop true), ?_, rfl, rfl, rfl, withheld_of_droop rfl⟩
    change execDroopDetect below s = _
    rw [execDroopDetect, if_neg hb]
  · change execDroopDetect below s = _
    rw [execDroopDetect, if_pos hb]
  · exact ⟨_, rfl, rfl, rfl, rfl⟩
  · have hone : (stalledAgain s).head.stalls = [s.time.elapsed] := by simp [stalledAgain, modHead, setHead, hs]
    have hrow := headgateStall_eq missed s
    rw [hone, if_neg (by simp)] at hrow
    have hf := event_frame (stalledAgain s) 0xE071 (stallDetail s missed)
    have hhead : (event (stalledAgain s) 0xE071 (stallDetail s missed)).head = (stalledAgain s).head := (congrArg State.head hf :)
    refine ⟨_, hrow, by rw [hhead]; rfl, by rw [hhead, hone], event_head (s := stalledAgain s) (inPause_none hh) _ _, (congrArg State.aon hf :),
      (congrArg State.die hf :), withheld_of_stalled (by rw [hhead]; rfl)⟩
  · obtain ⟨a, ha, hnear⟩ := hrecent
    have hmem : a ∈ s.head.stalls.filter (fun t => s.time.elapsed < t + 1000000000) := List.mem_filter.mpr ⟨ha, by simpa using hnear⟩
    have htwo : 2 ≤ (stalledAgain s).head.stalls.length := Nat.succ_le_succ (List.length_pos_of_mem hmem)
    have hf := event_frame (stalledAgain s) 0xE071 (stallDetail s missed)
    obtain ⟨htrip, hstore⟩ := tripNow_latches (s := event (stalledAgain s) 0xE071 (stallDetail s missed))
      ((congrArg (·.boot.dead) hf).trans hd) 0xFF
    refine ⟨_, (headgateStall_eq missed s).trans (congrArg Host.Outcome.next (if_pos htwo)), htrip, ?_⟩
    rw [hstore]
    exact (congrArg (·.store.mem) hf :)
  · obtain ⟨q, c, n, m, hrow⟩ := opLoop_eq hl d w
    exact ⟨_, hrow, by simp only [ceilingAfter, hp, hcut, Option.isSome_none, Bool.false_eq_true, if_false, if_true], rfl⟩
  · obtain ⟨q, c, n, m, hrow⟩ := opLoop_eq hl d w
    exact ⟨_, hrow, if_pos hp, rfl⟩

end Sys2Proof.Machine
end

section
/-! PROOFS. Estimates, reports, dithers, pace windows and temperatures (R487 to R493, R498, R505 to R510, R519). -/

namespace Sys2Proof.Machine

/-! ### The rows while the loops run -/

section
variable {s : State}

theorem share_bounds {p : Prop} [Decidable p] (x : Rat) :
    0 ≤ (if p then 1 else max 0 (min 1 x)) ∧ (if p then 1 else max 0 (min 1 x)) ≤ 1 := by
  split
  · exact ⟨by norm_num, le_refl _⟩
  · exact ⟨le_max_left _ _, max_le (by norm_num) (min_le_left _ _)⟩

theorem ditherAt_eq (h : Head) (slot : Nat) (v : BitVec 7) :
    ∃ q, ditherAt h slot v = { h with
      dither := some { slot := slot, prbs := v, high := v.getLsbD 0, spill := spillForm h }, reasons := q } := ⟨_, rfl⟩

/-- What a report sets stands, whether or not it starts a dither. -/
theorem completes_reported {i : Instr} {h : Head} {c : Prop} [Decidable c] {p : State → Prop}
    (hrow : exec i s = .next (setHead s (if c then startDither s h else h)))
    (hp : ∀ g d q, p (setHead s { h with ditherAge := g, dither := d, reasons := q })) : Completes i s p := by
  refine ⟨_, hrow, ?_⟩
  split
  · exact hp _ _ _
  · exact hp h.ditherAge h.dither h.reasons

/-- The measured power of a report in W. -/
theorem sumRat_measured (c m a b d : Rat) :
    sumRat [c / 10 * m / 1000, a / 10 * 8 / 10, b / 10 * 75 / 100, d / 10 * 85 / 100]
      = c * m / 10000 + a * 8 / 100 + b * 75 / 1000 + d * 85 / 1000 := by
  simp only [sumRat, List.foldl_cons, List.foldl_nil]
  ring

theorem railReport_taken (hl : loops s = true) (n core sram flume link : W16) :
    Completes (.railReport n core sram flume link) s (fun t => t.head.stale = false ∧ t.head.sample = n ∧ t.head.reportAge = 0
        ∧ t.head.lastRails = (core.toNat : Rat) * (s.head.ackMv : Rat) / 10000 + (sram.toNat : Rat) * 8 / 100
            + (flume.toNat : Rat) * 75 / 1000 + (link.toNat : Rat) * 85 / 1000
        ∧ t.head.reports.tail = (s.head.reports.filter (fun q => q.age ≤ 50000)).take 199 ∧ t = { s with head := t.head }) := by
  have hrails := sumRat_measured core.toNat s.head.ackMv sram.toNat flume.toNat link.toNat
  exact completes_reported (if_neg (by simp [hl])) fun _ _ _ => ⟨rfl, rfl, rfl, hrails, rfl, rfl⟩

theorem tickReasons_eq (h : Head) (us : Nat) : ∃ q, tickReasons h us = { h with reasons := q } := ⟨_, rfl⟩

theorem pointReasons_eq (s : State) : ∃ q, pointReasons s = { s with head := { s.head with reasons := q } } := ⟨_, rfl⟩

/-- What a period sets in the headgate stands, whatever reasons it gives. -/
theorem completes_period {i : Instr} {h : Head} {j k l m : Nat} {a b c d : Bool} {p : State → Prop}
    (hrow : exec i s = .next (pointReasons (setHead s
      (setReason (setReason (setReason (setReason (tickReasons h 2) j a) k b) l c) m d))))
    (hp : ∀ q, p { s with head := { h with reasons := q } }) : Completes i s p := by
  obtain ⟨q0, h0⟩ := tickReasons_eq h 2
  rw [h0] at hrow
  obtain ⟨q1, h1⟩ := setReason_eq { h with reasons := q0 } j a
  rw [h1] at hrow
  obtain ⟨q2, h2⟩ := setReason_eq { h with reasons := q1 } k b
  rw [h2] at hrow
  obtain ⟨q3, h3⟩ := setReason_eq { h with reasons := q2 } l c
  rw [h3] at hrow
  obtain ⟨q4, h4⟩ := setReason_eq { h with reasons := q3 } m d
  rw [h4] at hrow
  obtain ⟨q, hq⟩ := pointReasons_eq (setHead s { h with reasons := q4 })
  rw [hq] at hrow
  exact ⟨_, hrow, hp q⟩

theorem estimatorPeriod_taken (hl : loops s = true) (a : Activity) :
    Completes (.estimatorPeriod a) s (fun t => 0 ≤ t.head.share ∧ t.head.share ≤ 1 ∧ t.head.stalled = false
        ∧ t.head.fitAge = s.head.fitAge + 2 ∧ t.head.reportAge = s.head.reportAge + 2 ∧ t.head.holdoff = s.head.holdoff - 1
        ∧ t.head.op = s.head.op ∧ t = { s with head := t.head }) := by
  exact completes_period (if_neg (by simp [hl])) fun _ => ⟨(share_bounds _).1, (share_bounds _).2, rfl, rfl, rfl, rfl, rfl, rfl⟩

theorem ditherSlot_none (hd : s.head.dither = none) : exec .ditherSlot s = .next s := by
  change execDitherSlot s = _
  unfold execDitherSlot
  split
  · rfl
  · simp only [modHead, hd]
    rfl

theorem ditherSlot_next {d : Dither} (hl : loops s = true) (hd : s.head.dither = some d) (h : d.slot < 39) (hon : s.head.ditherOn = true) :
    exec .ditherSlot s = .next (setHead s (ditherAt s.head (d.slot + 1) (prbsNext d.prbs))) := by
  change execDitherSlot s = _
  rw [execDitherSlot, if_neg (by simp [hl])]
  simp only [modHead, hd, hon, Bool.and_true, decide_eq_true_eq]
  rw [if_pos (by omega)]

theorem ditherSlot_ends {d : Dither} (hl : loops s = true) (hd : s.head.dither = some d) (h : 39 ≤ d.slot ∨ s.head.ditherOn = false) :
    exec .ditherSlot s = .next (setHead s (setReason { s.head with dither := none } trDither false)) := by
  change execDitherSlot s = _
  rw [execDitherSlot, if_neg (by simp [hl])]
  simp only [modHead, hd, Bool.and_eq_true, decide_eq_true_eq]
  rw [if_neg]
  rcases h with h | h
  · omega
  · simp [h]

/-- A pace window in which nothing executed gives every core the base budget. -/
theorem paceWindow_quiet {op : Nat} (hl : loops s = true) (hp : s.head.pace = some op) :
    ∃ q, exec (.paceWindow (List.replicate 64 0)) s = .next { s with head := { s.head with
      paceBudget := (List.range 64).map (fun n => (n, ((paceDuty s op s.head.cap * 4096 / 100 : Nat) : Int))), reasons := q } } := by
  have hnone : ((List.replicate 64 0).filter (fun x : Nat => x != 0)).length = 0 := by decide
  have hzero : ∀ n, (List.replicate 64 0).getD n 0 = 0 := fun n => by
    rw [List.getD_eq_getElem?_getD, List.getElem?_replicate]
    split <;> rfl
  have hstay : ∀ x y : Int, x - max 0 (((0 : Nat) : Int) - max 0 y) = x := by omega
  have hrow : ∃ b, exec (.paceWindow (List.replicate 64 0)) s = .next (setHead s (setReason { s.head with
      paceBudget := (List.range 64).map (fun n => (n, ((paceDuty s op s.head.cap * 4096 / 100 : Nat) : Int))) } trPace b)) := by
    refine ⟨?held, ?row⟩
    case row =>
      change execPaceWindow (List.replicate 64 0) s = _
      simp only [execPaceWindow, hl, hp, if_true, hnone, Nat.not_lt_zero, if_false, modHead, hzero, hstay]
      rfl
  obtain ⟨b, hrow⟩ := hrow
  exact ⟨_, hrow⟩

theorem loops_rest (hl : loops s = false) (a : Activity) (n core sram flume link : W16) (l : List Nat) :
    exec (.estimatorPeriod a) s = .next s ∧ exec (.railReport n core sram flume link) s = .next s ∧ exec .railStaleTimeout s = .next s
      ∧ exec .ditherSlot s = .next s ∧ exec (.paceWindow l) s = .next s := by
  have hrest : (!loops s) = true := by rw [hl]; rfl
  refine ⟨if_pos hrest, if_pos hrest, congrArg Host.Outcome.next (if_pos hrest), if_pos hrest, ?_⟩
  change execPaceWindow l s = _
  simp only [execPaceWindow, hl, Bool.false_eq_true, if_false]

end

/-! ### A conversion (R505 to R510) -/

/-- Without a seizure a trip changes the reasons of the headgate, and leaves cores, scratchpad and stage. -/
theorem tripNow_frame {s : State} (hz : s.seize = none) (p : Byte) :
    ∃ q, (tripNow s p).head = { s.head with reasons := q } ∧ (tripNow s p).die = s.die ∧ (tripNow s p).store = s.store
      ∧ (tripNow s p).boot = s.boot := by
  unfold tripNow
  split
  · exact ⟨_, rfl, rfl, rfl, rfl⟩
  next =>
    dsimp only
    generalize hu : modHead { s with aon := { s.aon with
      stop := { s.aon.stop with trip := true }, latch := { s.aon.latch with trip := true }, alert := { s.aon.alert with trip := true }
      tripPoint := p } } (fun h => setReason h trTrip true) = u
    have h := Losing.stopLines u 5 p true false
    have hnone : u.seize = none := by rw [← hu]; exact hz
    rw [show abortSeizure u = u by rw [abortSeizure, hnone]] at h
    obtain ⟨q, hq⟩ := setReason_eq s.head trTrip true
    have hhead : u.head = { s.head with reasons := q } := by rw [← hu, ← hq]; rfl
    refine ⟨q, h.head.trans hhead, h.die.trans ?_, h.store.trans ?_, h.boot.trans ?_⟩ <;> rw [← hu] <;> rfl

theorem numbers_zero (n : Nat) : numbers 0 n = List.range n := by simp [numbers]

/-- The points after a conversion. -/
def converted (temps : List Int) (s : State) (k : Nat) : TempPoint := (convertPoint temps k (tget {} s.head.points k)).1

/-- Each point with what its conversion makes of it, and whether it has just failed. -/
def conversions (temps : List Int) (s : State) : List (Nat × TempPoint × Bool) :=
  (numbers 0 72).map (fun k => (k, convertPoint temps k (tget {} s.head.points k)))

/-- The headgate with its points converted. -/
def convertedHead (r : List (Nat × TempPoint × Bool)) (s : State) : Head := { s.head with points := r.map (fun e => (e.1, e.2.1)) }

theorem convertedHead_points (temps : List Int) (s : State) :
    (convertedHead (conversions temps s) s).points = (List.range 72).map (fun k => (k, converted temps s k)) := by
  simp only [convertedHead, conversions, numbers_zero, List.map_map, Function.comp_def, converted]

theorem convertedHead_point (temps : List Int) (s : State) {k : Nat} (hk : k < 72) :
    tget {} (convertedHead (conversions temps s) s).points k = converted temps s k := by
  rw [convertedHead_points]
  exact tget_map_range _ _ hk

theorem converted_temp {temps : List Int} (hlen : temps.length = 72) (s : State) {k : Nat} (hk : k < 72) :
    (converted temps s k).temp = temps.getD k 0 := by
  rw [converted, convertPoint, List.getD_eq_getElem _ _ (by omega), List.getD_eq_getElem _ _ (by omega)]

theorem converted_failed {temps : List Int} (hlen : temps.length = 72) (s : State) {k : Nat} (hk : k < 72)
    (h : temps.getD k 0 < -10 ∨ 125 < temps.getD k 0) : (converted temps s k).failed = true := by
  have ht : temps.getD k (tget {} s.head.points k : TempPoint).temp = temps.getD k 0 := converted_temp hlen s hk
  simp only [converted, convertPoint, ht, Bool.or_eq_true, decide_eq_true_eq]
  exact Or.inr (Or.inl h)

/-- A point that reads at its alert limit asserts the alert. -/
theorem alertAfter_of_point {h : Head} {k : Nat} (hk : k < 72) (hf : (tget {} h.points k : TempPoint).failed = false)
    (hhot : (tget {} h.points k : TempPoint).alert ≤ (tget {} h.points k : TempPoint).temp) : alertAfter h = true := by
  have hused : usedTemp h k = (tget {} h.points k : TempPoint).temp := by simp only [usedTemp, hf, Bool.false_eq_true, if_false]
  rw [alertAfter, Bool.or_eq_true, List.any_eq_true]
  refine Or.inl ⟨k, ?_, by simpa [hused] using hhot⟩
  simpa [numbers] using hk

/-- The headgate's limiters after a conversion of its points (R507, R508). -/
def limitedHead (active : Bool) (h : Head) : Head :=
  let coolNow := (numbers 0 72).all (fun k => usedTemp h k ≤ (tget {} h.points k).throttle - 5)
  let points := h.points.map (fun e => (e.1, { e.2 with hot := if e.2.throttle ≤ usedTemp h e.1 then e.2.hot + 1 else 0 }))
  let held := points.any (fun e => 251 ≤ e.2.hot)
  let hot := if held then h.hot + 1 else 0
  let cool := if coolNow then h.cool + 1 else 0
  let ceil := if held && h.hot % 250 == 0 then h.thermCeil - 1 else if cool = 2501 then min 15 (h.thermCeil + 1) else h.thermCeil
  let h2 := { h with alerting := alertAfter h }
  if active then { h2 with
    points := points, thermal := (numbers 0 72).map (fun k => (k, thermalStep h k)), thermCeil := ceil
    hot := hot, cool := if cool = 2501 then 1 else cool } else h2

theorem limitedHead_alerting (active : Bool) (h : Head) : (limitedHead active h).alerting = alertAfter h := by
  unfold limitedHead
  dsimp only
  split <;> rfl

/-- The limiters change of a point only how long it has been hot. -/
theorem limitedHead_point (active : Bool) (temps : List Int) (s : State) {k : Nat} (hk : k < 72) :
    ∃ n, tget {} (limitedHead active (convertedHead (conversions temps s) s)).points k = { converted temps s k with hot := n } := by
  unfold limitedHead
  dsimp only
  split
  · simp only [convertedHead_points, List.map_map, Function.comp_def]
    exact ⟨_, tget_map_range _ _ hk⟩
  · exact ⟨(converted temps s k).hot, convertedHead_point temps s hk⟩

/-- The entries of the points that have just failed. -/
def failedEntries (r : List (Nat × TempPoint × Bool)) (s : State) : State :=
  (r.filter (fun e => e.2.2)).foldl (fun t e =>
    event t 0xE070 [byte e.1, BitVec.ofInt 8 e.2.1.temp, byte ((convertedHead r s).points.filter (fun e => e.2.failed)).length])
    (setHead s (convertedHead r s))

theorem failedEntries_sending (r : List (Nat × TempPoint × Bool)) (s : State) : Sending (setHead s (convertedHead r s)) (failedEntries r s) :=
  Sending.foldl _ (fun t _ => Sending.event t _ _) _ _

/-- A conversion: the entries, the limiters, and a trip where more than four points have failed. -/
def settleConversion (r : List (Nat × TempPoint × Bool)) (s : State) : State :=
  let u := failedEntries r s
  let v := setHead u (limitedHead (loops s) u.head)
  evalPoint (if 4 < ((convertedHead r s).points.filter (fun e => e.2.failed)).length then tripNow v 0xFF else v)

theorem thermalConversion_eq (temps : List Int) (s : State) :
    exec (.thermalConversion temps) s = .next (settleConversion (conversions temps s) s) := by
  change execThermalConversion temps s = _
  unfold execThermalConversion conversions
  generalize (numbers 0 72).map (fun k => (k, convertPoint temps k (tget {} s.head.points k))) = r
  rfl

/-- Without a seizure a conversion changes the headgate and what leaves, and nothing of cores, scratchpad and stage. -/
theorem settleConversion_leaves {s : State} (hz : s.seize = none) (r : List (Nat × TempPoint × Bool)) :
    ∃ active q c n, (settleConversion r s).head = { limitedHead active (convertedHead r s) with reasons := q, change := c, reqNum := n }
      ∧ (settleConversion r s).die = s.die ∧ (settleConversion r s).store = s.store ∧ (settleConversion r s).boot = s.boot := by
  have hu := failedEntries_sending r s
  have hhead : (failedEntries r s).head = convertedHead r s := hu.head
  unfold settleConversion
  generalize failedEntries r s = u at hu hhead ⊢
  dsimp only
  split
  · obtain ⟨q, hq, hdie, hstore, hboot⟩ := tripNow_frame (s := setHead u (limitedHead (loops s) u.head)) (hu.seize.trans hz) 0xFF
    obtain ⟨q', c, n, m, heq⟩ := evalPoint_eq (tripNow (setHead u (limitedHead (loops s) u.head)) 0xFF)
    rw [heq, ← hhead]
    exact ⟨loops s, q', c, n, congrArg (fun h : Head => { h with reasons := q', change := c, reqNum := n }) hq,
      hdie.trans hu.die, hstore.trans hu.store, hboot.trans hu.boot⟩
  · obtain ⟨q', c, n, m, heq⟩ := evalPoint_eq (setHead u (limitedHead (loops s) u.head))
    rw [heq, ← hhead]
    exact ⟨loops s, q', c, n, rfl, hu.die, hu.store, hu.boot⟩

/-- Settles O46: each row by what it puts into the headgate. -/
theorem estimatesReportsAndTemperaturesAreTaken : Obligations.EstimatesReportsAndTemperaturesAreTaken := by
  unfold Obligations.EstimatesReportsAndTemperaturesAreTaken
  intro a n core sram flume link temps d op s only h
  refine ⟨fun hl => estimatorPeriod_taken hl a, fun hl => railReport_taken hl n core sram flume link, fun hl => ?_, ditherSlot_none,
    fun hl hd hslot hon => ⟨_, ditherSlot_next hl hd hslot hon, ⟨_, rfl, rfl, rfl, rfl⟩, rfl⟩,
    fun hl hd hend => ⟨_, ditherSlot_ends hl hd hend, rfl, rfl⟩, fun hlen hz => ?_, fun hl hp => ?_, fun hp l => ?_,
    fun hl l => loops_rest hl a n core sram flume link l⟩
  · exact ⟨_, congrArg Host.Outcome.next (if_neg (by simp [hl])), rfl, rfl⟩
  · obtain ⟨active, q, c, m, hhead, hdie, hstore, hboot⟩ := settleConversion_leaves hz (conversions temps s)
    have hrow := thermalConversion_eq temps s
    generalize settleConversion (conversions temps s) s = t at hhead hdie hstore hboot hrow
    have hpoint : ∀ k : Fin 72, ∃ n, tget {} t.head.points k = { converted temps s k with hot := n } := fun k => by
      rw [hhead]
      exact limitedHead_point active temps s k.isLt
    refine ⟨t, hrow, fun k => ?_, fun k hf hhot => ?_, fun k hbad => ?_, hdie, hstore, hboot⟩
    · obtain ⟨x, hx⟩ := hpoint k
      rw [hx]
      exact converted_temp hlen s k.isLt
    · obtain ⟨x, hx⟩ := hpoint k
      rw [hx] at hf hhot
      have hsame := convertedHead_point temps s k.isLt
      rw [hhead]
      refine (limitedHead_alerting active _).trans (alertAfter_of_point k.isLt ?_ ?_)
      · rw [hsame]
        exact hf
      · rw [hsame, converted_temp hlen s k.isLt]
        exact hhot
    · obtain ⟨x, hx⟩ := hpoint k
      rw [hx]
      exact converted_failed hlen s k.isLt hbad
  · obtain ⟨q, hrow⟩ := paceWindow_quiet hl hp
    exact ⟨_, hrow, fun k => tget_map_range _ _ k.isLt, rfl⟩
  · change execPaceWindow l s = _
    have hnone : (if loops s then s.head.pace else none) = none := by
      rw [show s.head.pace = none from hp, ite_self]
    simp only [execPaceWindow, hnone]

end Sys2Proof.Machine
end

section
/-! PROOFS. The bytes that a write or a loss leaves alone, the parity of a word, and the map of banks and rows (R325, R338, R339). -/

namespace Sys2Proof.Machine

/-! ### Banks and rows (R325) -/

theorem xor_left_inj {a b c : Nat} (h : a ^^^ c = b ^^^ c) : a = b := by
  have := congrArg (· ^^^ c) h
  simpa [Nat.xor_assoc] using this

/-- The granules of an aligned 8 KiB lie in different banks. -/
theorem granule_of_bank {a b : Nat} (hrow : a / 0x2000 = b / 0x2000) (hbank : bankOf a = bankOf b) : a / 0x100 = b / 0x100 := by
  simp only [bankOf, hrow] at hbank
  have h := xor_left_inj hbank
  omega

/-- Slice, bank and row name one granule. -/
theorem granule_of_place {a b : Nat} (hslice : sliceOf a = sliceOf b) (hbank : bankOf a = bankOf b) (hrow : rowOf a = rowOf b) :
    a / 0x100 = b / 0x100 := by
  simp only [sliceOf, rowOf] at hslice hrow
  exact granule_of_bank (by omega) hbank

/-! ### What a replaced run leaves -/

/-- The occasion on which a byte became undefined, if it is. -/
def Memory.genAt (m : Memory) (b : Nat) : Option Nat := (m.undefAt b).map (·.gen)

theorem Memory.byteAt_eq (m : Memory) (b : Nat) :
    m.byteAt b = match m.genAt b with | some g => Config.freeByte g b | none => cellAt m.cells b := by
  unfold Memory.byteAt Memory.genAt
  cases m.undefAt b <;> rfl

/-- Each part of a range from which a run is taken is of the same occasion and in the range. -/
theorem URange.part_of_minus {u v : URange} {a c : Nat} (hv : v ∈ URange.minus a c u) : v.gen = u.gen ∧ u.lo ≤ v.lo ∧ v.hi ≤ u.hi := by
  unfold URange.minus at hv
  split at hv
  · rw [List.mem_singleton.mp hv]
    exact ⟨rfl, Nat.le_refl _, Nat.le_refl _⟩
  · rename_i hc
    simp only [Bool.or_eq_true, decide_eq_true_eq, not_or, Nat.not_le] at hc
    rcases List.mem_append.1 hv with hv | hv <;> split at hv <;> simp only [List.mem_singleton, List.not_mem_nil] at hv
    · rw [hv]
      exact ⟨rfl, Nat.le_refl _, by simp only; omega⟩
    · rw [hv]
      exact ⟨rfl, by simp only; omega, Nat.le_refl _⟩

/-- A byte outside the run stays in a part. -/
theorem URange.minus_covers {u : URange} {a n b : Nat} (h : b < a ∨ a + n ≤ b) (hu : u.lo ≤ b ∧ b < u.hi) :
    ∃ v ∈ URange.minus a (a + n) u, v.lo ≤ b ∧ b < v.hi := by
  by_cases hc : u.hi ≤ a ∨ a + n ≤ u.lo
  · exact ⟨u, by simp [URange.minus, hc], hu⟩
  · rcases h with h | h
    · exact ⟨{ u with hi := a }, by simp [URange.minus, hc, show u.lo < a by omega], hu.1, h⟩
    · exact ⟨{ u with lo := a + n }, by simp [URange.minus, hc, show a + n < u.hi by omega], h, hu.2⟩

theorem URange.minus_gen (u : URange) {a n b : Nat} (h : b < a ∨ a + n ≤ b) :
    ((URange.minus a (a + n) u).find? (fun v => v.lo ≤ b && b < v.hi)).map (·.gen)
      = if (decide (u.lo ≤ b) && decide (b < u.hi)) = true then some u.gen else none := by
  simp only [Bool.and_eq_true, decide_eq_true_eq]
  cases hf : (URange.minus a (a + n) u).find? (fun v => v.lo ≤ b && b < v.hi) with
  | none =>
    refine (if_neg fun hu => ?_).symm
    obtain ⟨v, hv, hb⟩ := URange.minus_covers h hu
    have := List.find?_eq_none.mp hf v hv
    simp [hb] at this
  | some v =>
    obtain ⟨hg, hlo, hhi⟩ := URange.part_of_minus (List.mem_of_find?_eq_some hf)
    have hb := List.find?_some hf
    simp only [Bool.and_eq_true, decide_eq_true_eq] at hb
    rw [if_pos (by omega), ← hg]
    rfl

theorem Memory.genAt_replace (m : Memory) {a n b : Nat} (new : List (Nat × Byte)) (h : b < a ∨ a + n ≤ b) :
    (m.replace a n new).genAt b = m.genAt b := by
  simp only [Memory.genAt, Memory.undefAt, Memory.replace]
  induction m.undef with
  | nil => rfl
  | cons u l ih =>
    have hu := u.minus_gen h
    rw [List.flatMap_cons, List.find?_append, List.find?_cons]
    cases hx : decide (u.lo ≤ b) && decide (b < u.hi)
    · rw [hx, if_neg (by decide), Option.map_eq_none_iff] at hu
      rw [hu]
      exact ih
    · rw [hx, if_pos rfl, Option.map_eq_some_iff] at hu
      obtain ⟨v, hv, hg⟩ := hu
      rw [hv]
      exact congrArg some hg

/-- The cells of a memory outside a run that is replaced stay. -/
theorem cellAt_replace (l new : List (Nat × Byte)) {a n b : Nat} (hnew : ∀ c ∈ new, a ≤ c.1 ∧ c.1 < a + n) (h : b < a ∨ a + n ≤ b) :
    cellAt (l.filter (fun c => c.1 < a) ++ new ++ l.filter (fun c => a + n ≤ c.1)) b = cellAt l b := by
  rcases h with h | h
  · rw [List.append_assoc, cellAt_append_self, cellAt_filter]
    · intro c _ hc
      simp
      omega
    · intro c hc
      rcases List.mem_append.1 hc with hc | hc
      · have := hnew c hc
        omega
      · have := of_decide_eq_true (List.mem_filter.1 hc).2
        omega
  · rw [cellAt_append, cellAt_filter]
    · intro c _ hc
      simp
      omega
    · intro c hc
      rcases List.mem_append.1 hc with hc | hc
      · have := of_decide_eq_true (List.mem_filter.1 hc).2
        omega
      · have := hnew c hc
        omega

theorem Memory.byteAt_replace (m : Memory) {a n b : Nat} {new : List (Nat × Byte)} (hnew : ∀ c ∈ new, a ≤ c.1 ∧ c.1 < a + n)
    (h : b < a ∨ a + n ≤ b) : (m.replace a n new).byteAt b = m.byteAt b := by
  rw [Memory.byteAt_eq, Memory.byteAt_eq, m.genAt_replace new h]
  have hcell : cellAt (m.replace a n new).cells b = cellAt m.cells b := cellAt_replace m.cells new hnew h
  rw [hcell]

theorem Memory.byteAt_forget (m : Memory) {a n b : Nat} (gen : Nat) (h : b < a ∨ a + n ≤ b) : (m.forget a n gen).byteAt b = m.byteAt b := by
  have hout : ¬((decide (a ≤ b) && decide (b < a + n)) = true) := by
    simp only [Bool.and_eq_true, decide_eq_true_eq]
    omega
  have hgen : (m.forget a n gen).genAt b = (m.replace a n []).genAt b := by
    simp only [Memory.genAt, Memory.undefAt]
    exact congrArg _ (List.find?_cons_of_neg (p := fun u : URange => decide (u.lo ≤ b) && decide (b < u.hi)) (a := ⟨a, a + n, gen⟩) hout)
  rw [← m.byteAt_replace (new := []) (by simp) h, Memory.byteAt_eq, Memory.byteAt_eq, hgen]
  rfl

/-! ### A word that fails its parity (R338, R339) -/

/-- A word whose parity bits are off fails. -/
theorem Memory.fails_flipped (m : Memory) {w : Nat} {f : BitVec 2} (hf : f ≠ 0) :
    ({ m with flips := tput m.flips w f } : Memory).fails w = true := by
  have hword : ({ m with flips := tput m.flips w f } : Memory).word w = m.word w := rfl
  rw [Memory.fails, Memory.parityBits, hword, tget_tput_same, bne_iff_ne]
  intro h
  have := congrArg (wordParity (m.word w) ^^^ ·) h
  simp only [← BitVec.xor_assoc, BitVec.xor_self, BitVec.zero_xor] at this
  exact hf this

/-- A word that is upset fails its parity; every other word stays. -/
theorem upset_spec (s : State) (w : Nat) :
    (upset s w).store.mem.fails w = true ∧ (∀ b, b < w ∨ w + 4 ≤ b → (upset s w).store.mem.byteAt b = s.store.mem.byteAt b)
      ∧ ∃ m g n, upset s w = { s with store := { s.store with mem := m, gen := g }, free := n } := by
  unfold upset
  split
  next h => exact ⟨h, fun _ _ => rfl, _, _, _, rfl⟩
  next =>
    refine ⟨Memory.fails_flipped _ ?_, fun b hb => ?_, _, _, _, rfl⟩
    · intro h
      have h0 : (1 + s.fresh.1 % 3) % 2 ^ 2 = 0 := (BitVec.toNat_ofNat _ _).symm.trans (congrArg BitVec.toNat h)
      omega
    · exact s.store.mem.byteAt_forget s.store.gen hb

end Sys2Proof.Machine
end

section
/-! PROOFS. What answers, withdrawals and resets leave of the cores, and the faults of the hardware (R60 to R63, R165, R166, R345,
R456 to R459, R564 to R569). -/

namespace Sys2Proof.Machine

/-! ### Answers to cores -/

/-- From `c` to `d` a core has at most had answers to its gate operations. -/
def Core.Answered (c d : Core) : Prop := ∃ l, d = { c with gops := l } ∧ (c.gops = [] → l = [])

theorem Core.Answered.refl (c : Core) : c.Answered c := ⟨c.gops, rfl, id⟩

theorem Core.Answered.trans {c d e : Core} (h : c.Answered d) (k : d.Answered e) : c.Answered e := by
  obtain ⟨l, rfl, hl⟩ := h
  obtain ⟨m, rfl, hm⟩ := k
  exact ⟨m, rfl, fun hc => hm (hl hc)⟩

theorem Core.Answered.deliver (c : Core) (tag : W32) (w : W64) (due : Option W64) : c.Answered (c.deliver tag w due) :=
  ⟨_, rfl, fun h => by rw [h]; rfl⟩

/-- A core without state: nothing runs on it and nothing of it is outstanding. -/
def Core.Blank (c : Core) : Prop := c.run = .idle ∧ c.s = [] ∧ c.sb = [] ∧ c.gops = []

theorem Core.Answered.blank {c d : Core} (h : c.Answered d) (hc : c.Blank) : d.Blank := by
  obtain ⟨l, rfl, hl⟩ := h
  obtain ⟨hrun, hs, hsb, hg⟩ := hc
  exact ⟨hrun, hs, hsb, hl hg⟩

/-- From `s` to `t` cores have at most had answers, gates and transfers have changed, lives have ended, and otherwise the chiplet has
only sent. -/
structure Relaying (s t : State) : Prop where
  rest : t = { s.withNet t with die := t.die, gateUnit := t.gateUnit, dma := t.dma }
  sent : s.sent <+: t.sent
  window : ∀ k, (s.window k).SameBut (t.window k)
  die : t.die = { s.die with cores := t.die.cores, basins := t.die.basins, lives := t.die.lives }
  core : ∀ n, (s.core n).Answered (t.core n)
  basin : ∀ b, ∃ l, t.basin b = { s.basin b with saved := l }

theorem Granting.relaying {s t : State} (h : Granting s t) : Relaying s t where
  rest := by
    rw [h.rest]
    rfl
  sent := h.sent
  window := h.window
  die := by rw [h.die]
  core := fun n => by
    rw [State.core, State.core, h.die]
    exact .refl _
  basin := fun b => ⟨(s.basin b).saved, by rw [State.basin, h.die]; rfl⟩

theorem Sending.relaying {s t : State} (h : Sending s t) : Relaying s t := h.toGranting.relaying

namespace Relaying

variable {s t u : State}

theorem refl (s : State) : Relaying s s := (Granting.refl s).relaying

theorem trans (h : Relaying s t) (k : Relaying t u) : Relaying s u where
  rest := by
    rw [k.rest, h.rest]
    rfl
  sent := h.sent.trans k.sent
  window := fun w => (h.window w).trans (k.window w)
  die := by
    rw [k.die, h.die]
  core := fun n => (h.core n).trans (k.core n)
  basin := fun b => by
    obtain ⟨l, hl⟩ := h.basin b
    obtain ⟨m, hm⟩ := k.basin b
    exact ⟨m, by rw [hm, hl]⟩

/-- The later step first: what it begins from is known from what it ends in. -/
theorem after (k : Relaying t u) (h : Relaying s t) : Relaying s u := h.trans k

theorem ite {p : Prop} [Decidable p] (h : Relaying s t) (k : Relaying s u) : Relaying s (if p then t else u) := by
  split
  · exact h
  · exact k

theorem foldl {α : Type} (f : State → α → State) (hf : ∀ s a, Relaying s (f s a)) (l : List α) (s : State) :
    Relaying s (l.foldl f s) := by
  induction l generalizing s with
  | nil => exact refl s
  | cons a l ih => exact (hf s a).trans (ih _)

/-! What it leaves alone. -/

section
variable (h : Relaying s t)
include h

theorem aon : t.aon = s.aon := (congrArg State.aon h.rest :)
theorem boot : t.boot = s.boot := (congrArg State.boot h.rest :)
theorem store : t.store = s.store := (congrArg State.store h.rest :)
theorem time : t.time = s.time := (congrArg State.time h.rest :)
theorem seize : t.seize = s.seize := (congrArg State.seize h.rest :)
theorem head : t.head = s.head := (congrArg State.head h.rest :)
theorem fa : t.fa = s.fa := (congrArg (fun u => u.fabric.fa) h.rest :)
theorem fabric : t.fabric = { s.fabric with waiting := t.fabric.waiting } := (congrArg State.fabric h.rest :)
theorem node (n : Nat) : t.node n = s.node n := by
  rw [State.node, h.die]
  rfl
theorem logical (n : Nat) : t.logical n = s.logical n := by
  rw [State.logical, h.die]
  rfl

end

theorem ofGates (s : State) (g : GateUnit) : Relaying s { s with gateUnit := g } :=
  ⟨rfl, List.prefix_rfl, fun _ => .refl _, rfl, fun _ => .refl _, fun _ => ⟨_, rfl⟩⟩

theorem ofDma (s : State) {d : Dma} (hw : d.windows = s.dma.windows) : Relaying s { s with dma := d } :=
  ⟨rfl, List.prefix_rfl, fun k => by
    change (s.window k).SameBut (tget {} d.windows k)
    rw [hw]
    exact .refl _, rfl, fun _ => .refl _, fun _ => ⟨_, rfl⟩⟩

theorem ofLives (s : State) (l : Tab W16) : Relaying s { s with die := { s.die with lives := l } } :=
  ⟨rfl, List.prefix_rfl, fun _ => .refl _, rfl, fun _ => .refl _, fun _ => ⟨_, rfl⟩⟩

theorem setGate (s : State) (g : Nat) (v : Gate) : Relaying s (s.setGate g v) := ofGates s _
theorem setChan (s : State) (c : Nat) (v : Channel) : Relaying s (s.setChan c v) := ofDma s rfl
theorem background (s : State) (o : Origin) (r : W16) (d : List Byte) : Relaying s (background s o r d) :=
  (Acting.appendLater _ _).relaying
theorem event (s : State) (c : W16) (d : List Byte) : Relaying s (event s c d) := (Sending.event _ _ _).relaying
theorem control (s : State) (dst : W16) (c : Byte) (b : List Byte) : Relaying s (control s dst c b) :=
  (Sending.control _ _ _ _).relaying

theorem deliverHere (s : State) (tag : W32) (w : W64) (d : Option W64) : Relaying s (deliverHere s tag w d) :=
  ⟨rfl, List.prefix_rfl, fun _ => .refl _, rfl,
    fun n => ⟨_, tget_map_values (d := ({} : Core)) (g := fun c => c.deliver tag w d) rfl s.die.cores n, fun h => by
      change (s.core n).gops.map _ = []
      rw [h]
      rfl⟩,
    fun b => ⟨_, tget_map_values (d := ({} : Basin))
      (g := fun e => { e with saved := e.saved.map (fun v => { v with core := v.core.deliver tag w d }) }) rfl s.die.basins b⟩⟩

theorem deliver (s : State) (w : Waiter) (v : W64) : Relaying s (deliver s w v) :=
  ite (deliverHere _ _ _ _) (Sending.send _ _).relaying

theorem grantNext (s : State) (g : Nat) : Relaying s (grantNext s g) := by
  unfold Machine.grantNext
  dsimp only
  split
  · exact (setGate _ _ _).trans (deliver _ _ _)
  · exact refl s

theorem orphan (s : State) (g : Nat) : Relaying s (orphan s g) := by
  unfold Machine.orphan
  dsimp only
  split
  · exact refl s
  · exact (setGate _ _ _).trans (grantNext _ _)

theorem orphanAll (s : State) (p : Holder → Bool) : Relaying s (orphanAll s p).1 := foldl _ orphan _ s
theorem endLife (s : State) (n : Nat) : Relaying s (endLife s n).1 := (ofLives s _).trans (orphanAll _ _)

theorem withdrawOp (s : State) (o : GateOp) (b : Bool) : Relaying s (withdrawOp s o b) := by
  unfold Machine.withdrawOp
  exact ite ((control _ _ _ _).trans (ofGates _ _)) (setGate _ _ _)

theorem releaseCredits (s : State) (c : Nat) (t : Transfer) : Relaying s (releaseCredits s c t) := ite (refl s) (control _ _ _ _)

theorem cancelChannels (s : State) (p : Transfer → Bool) : Relaying s (cancelChannels s p) := by
  refine foldl _ (fun t c => ?_) _ s
  dsimp only
  split
  · refine ite ?_ (refl t)
    split
    · exact ((releaseCredits _ _ _).trans (setChan _ _ _)).trans (background _ _ _ _)
    · exact (releaseCredits _ _ _).trans (setChan _ _ _)
  · exact refl t

theorem dropSaved (s : State) (b : Nat) : Relaying s (dropSaved s b) := foldl _ (fun t o => withdrawOp t o true) _ s

end Relaying

/-! ### Resets (R60, R62, R63) -/

/-- From `s` to `t` cores have been reset, or have had answers; the steps of basins may have ended, and otherwise what `Relaying`
allows. -/
structure Clearing (s t : State) : Prop where
  rest : t = { s.withNet t with die := t.die, gateUnit := t.gateUnit, dma := t.dma }
  nodes : t.die.nodes = s.die.nodes
  basin : ∀ b, ∃ l k m, t.basin b = { s.basin b with saved := l, step := k, rerunMark := m }
  core : ∀ n, (s.core n).Blank → (t.core n).Blank

namespace Clearing

variable {s t u : State}

theorem refl (s : State) : Clearing s s := ⟨rfl, rfl, fun _ => ⟨_, _, _, rfl⟩, fun _ h => h⟩

theorem trans (h : Clearing s t) (k : Clearing t u) : Clearing s u where
  rest := by
    rw [k.rest, h.rest]
    rfl
  nodes := k.nodes.trans h.nodes
  basin := fun b => by
    obtain ⟨_, _, _, hl⟩ := h.basin b
    obtain ⟨_, _, _, hm⟩ := k.basin b
    exact ⟨_, _, _, by rw [hm, hl]⟩
  core := fun n hn => k.core n (h.core n hn)

theorem foldl {α : Type} (f : State → α → State) (hf : ∀ s a, Clearing s (f s a)) (l : List α) (s : State) :
    Clearing s (l.foldl f s) := by
  induction l generalizing s with
  | nil => exact refl s
  | cons a l ih => exact (hf s a).trans (ih _)

theorem ofRelaying (h : Relaying s t) : Clearing s t where
  rest := h.rest
  nodes := (congrArg Die.nodes h.die :)
  basin := fun b => by
    obtain ⟨l, hl⟩ := h.basin b
    exact ⟨l, _, _, hl⟩
  core := fun n => (h.core n).blank

theorem node (h : Clearing s t) (n : Nat) : t.node n = s.node n := by
  rw [State.node, h.nodes]
  rfl

theorem store (h : Clearing s t) : t.store = s.store := (congrArg State.store h.rest :)
theorem boot (h : Clearing s t) : t.boot = s.boot := (congrArg State.boot h.rest :)

theorem hasCore (h : Clearing s t) (n : Nat) : hasCore t n = hasCore s n := by
  rw [Machine.hasCore, h.node]
  rfl

/-- A core that is changed stays blank if the change keeps it so. -/
theorem modCore (s : State) (n : Nat) {f : Core → Core} (hf : ∀ c : Core, c.Blank → (f c).Blank) : Clearing s (s.modCore n f) where
  rest := rfl
  nodes := rfl
  basin := fun _ => ⟨_, _, _, rfl⟩
  core := fun m hm => by
    rcases eq_or_ne m n with rfl | hne
    · rw [State.modCore, State.core_setCore]
      exact hf _ hm
    · rw [State.modCore, State.core_setCore_ne _ hne]
      exact hm

theorem resetGates (s : State) (n : Nat) : Clearing s (resetGates s n) :=
  (ofRelaying (Relaying.foldl _ (fun t o => Relaying.withdrawOp t o true) _ s)).trans
    (modCore _ n (f := fun c => { c with gops := [] }) fun _ ⟨hrun, hs, hsb, _⟩ => ⟨hrun, hs, hsb, rfl⟩)

theorem resetCore (s : State) (n : Nat) : Clearing s (resetCore s n) :=
  (((resetGates _ _).trans (modCore _ n (f := fun c => { blankCore c with stalls := c.stalls }) fun _ _ => ⟨rfl, rfl, rfl, rfl⟩)).trans (ofRelaying (Relaying.endLife _ _))).trans
    (ofRelaying (Relaying.cancelChannels _ _))

theorem modBasin (s : State) (b : Nat) {f : Basin → Basin}
    (hf : ∀ v : Basin, ∃ l k m, f v = { v with saved := l, step := k, rerunMark := m }) : Clearing s (s.modBasin b f) where
  rest := rfl
  nodes := rfl
  basin := fun a => by
    rcases eq_or_ne a b with rfl | hne
    · obtain ⟨l, k, m, h⟩ := hf (s.basin a)
      exact ⟨l, k, m, (State.basin_modBasin _ _ _).trans h⟩
    · exact ⟨_, _, _, State.basin_setBasin_ne _ hne _⟩
  core := fun _ h => h

end Clearing

theorem resetCore_blank (s : State) (n : Nat) : ((resetCore s n).core n).Blank := by
  have h : ((resetGates s n).modCore n (fun c => { blankCore c with stalls := c.stalls })).core n
      = { blankCore ((resetGates s n).core n) with stalls := ((resetGates s n).core n).stalls } := State.core_setCore _ _ _
  have hblank : (((resetGates s n).modCore n (fun c => { blankCore c with stalls := c.stalls })).core n).Blank := by
    rw [h]
    exact ⟨rfl, rfl, rfl, rfl⟩
  exact ((Relaying.endLife _ _).core n |>.trans ((Relaying.cancelChannels _ _).core n)).blank hblank

/-- A walk that resets each of its cores leaves them all blank. -/
theorem resetCores_blank (l : List Nat) (s : State) {n : Nat} (hn : n ∈ l) : ((l.foldl resetCore s).core n).Blank := by
  induction l generalizing s with
  | nil => exact absurd hn List.not_mem_nil
  | cons a l ih =>
    rw [List.foldl_cons]
    rcases List.mem_cons.mp hn with rfl | hn
    · exact (Clearing.foldl resetCore Clearing.resetCore l (resetCore s n)).core n (resetCore_blank s n)
    · exact ih _ hn

theorem Clearing.basinReset (s : State) (b c : Nat) : Clearing s (basinReset s b c) := by
  unfold Machine.basinReset
  dsimp only
  have hcores := foldl Machine.resetCore resetCore (if (s.basin b).state = .active then (s.basin b).rect.nodes.filter (Machine.hasCore s) else []) s
  generalize List.foldl Machine.resetCore s _ = u at hcores ⊢
  exact ((hcores.trans (ofRelaying (Relaying.cancelChannels u _))).trans
    (modBasin _ b (f := fun v => { v with step := none, rerunMark := false }) fun _ => ⟨_, _, _, rfl⟩)).trans
    (ofRelaying (Relaying.event _ _ _))

/-- The cores of an active basin that is reset are blank. -/
theorem basinReset_blank {s : State} {b c n : Nat} (ha : (s.basin b).state = .active) (hn : n ∈ (s.basin b).rect.nodes)
    (hc : hasCore s n = true) : ((basinReset s b c).core n).Blank := by
  have hreset : ((((s.basin b).rect.nodes.filter (hasCore s)).foldl resetCore s).core n).Blank :=
    resetCores_blank _ _ (List.mem_filter.mpr ⟨hn, hc⟩)
  unfold basinReset
  dsimp only
  rw [if_pos ha]
  generalize ((s.basin b).rect.nodes.filter (hasCore s)).foldl resetCore s = u at hreset ⊢
  exact ((Clearing.ofRelaying (Relaying.cancelChannels u _)).trans ((Clearing.modBasin _ b (f := fun v => { v with step := none, rerunMark := false }) fun _ => ⟨_, _, _, rfl⟩).trans
    (Clearing.ofRelaying (Relaying.event _ _ _)))).core n hreset

/-- A walk that resets basins leaves every core of each active one blank. -/
theorem basinResets_blank (l : List Nat) (c : Nat) {s : State} {b n : Nat} (hb : b ∈ l) (ha : (s.basin b).state = .active)
    (hn : n ∈ (s.basin b).rect.nodes) (hc : hasCore s n = true) :
    ((l.foldl (fun t b => basinReset t b c) s).core n).Blank := by
  induction l generalizing s with
  | nil => exact absurd hb List.not_mem_nil
  | cons a l ih =>
    rw [List.foldl_cons]
    rcases List.mem_cons.mp hb with rfl | hb
    · exact (Clearing.foldl (fun t b => basinReset t b c) (fun t b => Clearing.basinReset t b c) l (basinReset s b c)).core n (basinReset_blank ha hn hc)
    · have h := Clearing.basinReset s a c
      obtain ⟨_, _, _, hbasin⟩ := h.basin b
      refine ih hb ?_ ?_ ?_
      · rw [hbasin]
        exact ha
      · rw [hbasin]
        exact hn
      · rw [h.hasCore]
        exact hc

end Sys2Proof.Machine
end

section
/-! PROOFS. The faults of the hardware and the detections of the scratchpad (R165, R325, R339, R348, R564 to R569). -/

namespace Sys2Proof.Machine

/-! ### A core whose node faults (R564) -/

theorem stopGates_nothing {s : State} {n : Nat} (h : (s.core n).gops = []) : stopGates s n = s.setCore n (s.core n) := by
  simp only [stopGates, h, List.filter_nil, List.foldl_nil]
  rfl

theorem locksHeld_nothing {s : State} (h : ∀ g, (s.gate g).holder = none) (p : Holder → Bool) : locksHeld s p = [] := by
  simp [locksHeld, h]

theorem endLife_nothing {s : State} (h : ∀ g, (s.gate g).holder = none) (n : Nat) :
    (endLife s n).1 = { s with die := { s.die with lives := tput s.die.lives (s.logical n) (s.life (s.logical n) + 1) } } := by
  have hg : ∀ l, locksHeld { s with die := { s.die with lives := l } } (fun h => h.fa == s.fa && h.core.toNat == s.logical n
      && h.life == s.life (s.logical n)) = [] := fun l => locksHeld_nothing h _
  simp only [endLife, orphanAll, hg, List.foldl_nil]

theorem basinOf_congr {s t : State} (h : ∀ b, t.basin b = s.basin b) (n : Nat) : basinOf t n = basinOf s n := by
  simp only [basinOf, h]

/-- A core of a basin that faults with nothing outstanding and no lock held: its record is on it, and its basin's step is over. -/
theorem faultCore_alone {s : State} {n b : Nat} (hb : basinOf s n = some b) (hg : (s.core n).gops = [])
    (hh : ∀ g, (s.gate g).holder = none) (f : BundleFault) (flags : Byte) (pc : BitVec 14) :
    ∃ u d, faultCore s n f flags pc = event u 0xE003 d ∧ u = { s with die := u.die } ∧ u.die.nodes = s.die.nodes
      ∧ (u.core n).run = .faulted
      ∧ (u.core n).fault = some ⟨f.cause, byte f.slot, flags, pc, f.addr, BitVec.ofNat 32 s.time.count.toNat⟩
      ∧ (u.basin b).step = none := by
  let c : Core := { s.core n with
    run := .faulted, fault := some ⟨f.cause, byte f.slot, flags, pc, f.addr, BitVec.ofNat 32 s.time.count.toNat⟩
    held := none, staged := [], miss := none, edge := false }
  have hgops : ((s.setCore n c).core n).gops = [] := by
    rw [State.core_setCore]
    exact hg
  have hlife : ∀ u : State, u.gateUnit = s.gateUnit → ∀ g, (u.gate g).holder = none := fun u hu g => by
    rw [State.gate, hu]
    exact hh g
  let w : State := (s.setCore n c).setCore n ((s.setCore n c).core n)
  have hend : (endLife (stopGates (s.setCore n c) n) n).1
      = { w with die := { w.die with lives := tput w.die.lives (w.logical n) (w.life (w.logical n) + 1) } } := by
    rw [stopGates_nothing hgops]
    exact endLife_nothing (hlife w rfl) n
  generalize hx : ({ w with die := { w.die with lives := tput w.die.lives (w.logical n) (w.life (w.logical n) + 1) } } : State) = x at hend
  have hstep : endStepOf x n = x.modBasin b (fun v => { v with step := none, rerunMark := false }) := by
    have hxb : basinOf x n = some b := by
      rw [← hx]
      exact hb
    simp only [endStepOf, hxb]
  have hcore : x.core n = c := by
    rw [← hx]
    exact (State.core_setCore _ _ _).trans (State.core_setCore _ _ _)
  have hrow : ∃ d, faultCore s n f flags pc = event (x.modBasin b (fun v => { v with step := none, rerunMark := false })) 0xE003 d := by
    unfold faultCore
    dsimp only
    rw [← hstep, ← hend]
    exact ⟨_, rfl⟩
  obtain ⟨d, hd⟩ := hrow
  refine ⟨_, d, hd, ?_, ?_, congrArg Core.run hcore, congrArg Core.fault hcore, ?_⟩
  · rw [← hx]
    rfl
  · rw [← hx]
    rfl
  · rw [State.basin_modBasin]

/-- A running core of a cluster basin that no seizure touches meets a fault. -/
theorem hardwareFault_alone {s : State} {n : Fin 64} {b : Nat} (hb : basinOf s n = some b) (hl : (s.basin b).lattice = false)
    (hz : seizing s b = false) (hr : (s.core n).run = .running) (cause : HwCause) :
    exec (.hardwareFault n cause 1) s
      = .next (nodeFault (faultCore (s.setCore n (s.core n)) n ⟨hwCode cause, 1, 0⟩ 0x01 (s.core n).pc) n (hwCode cause)) := by
  have hgroup : issueGroup s n = [(n : Nat)] := by simp only [issueGroup, hb, hl, Bool.false_eq_true, if_false]
  have hactive : ¬((s.core n).run = .idle ∨ (s.core n).run = .faulted) := by simp [hr]
  have hsame : s.modCore n (fun c => dropFaulting c 1) = s.setCore n (s.core n) := rfl
  change execHardwareFault n cause 1 s = _
  simp only [execHardwareFault, if_neg hactive, hgroup, hb, Option.getD_some, hz, Bool.false_eq_true, if_false, List.foldl_cons, List.foldl_nil,
    hsame, ne_eq, not_true_eq_false, false_and]
  rfl

/-- What a fault of a node leaves: its entry, the node, and perhaps the shortfall. -/
theorem nodeFault_eq (s : State) (n : Nat) (cause : Byte) :
    ∃ k d, nodeFault s n cause = event { s.setNode n .faulted with boot := k } 0xE004 d := ⟨_, _, rfl⟩

/-! ### The flume (R568, R569) -/

theorem Losing.cutTransit (s : State) : Losing s (cutTransit s).1 :=
  (Sending.flush _).losing.after ((foldl _ (fun t o => (Sending.oweFor t o o.kept).losing) _ _).after
    (foldl _ (fun t k => modPort t k _) _ s))

/-- The flume faults of the last hour, with this one. -/
def faultsNow (s : State) : List Nat := s.time.elapsed :: s.die.flumeFaults.filter (fun a => s.time.elapsed ≤ a + flumeHour)

/-- The active basins. -/
def activeBasins (s : State) : List Nat := (List.range 32).filter (fun b => (s.basin b).state == .active)

/-- A flume fault: its entry after what was in transit is cut, and the reset of every active basin. -/
theorem flumeFault_eq {s : State} (hz : s.seize = none) (node : Fin 64) (plane : BitVec 3) :
    ∃ u, u.die = { s.die with flumeFaults := faultsNow s } ∧ u.store = s.store ∧ u.boot = s.boot
      ∧ exec (.flumeFault node plane) s = .next (
        if 3 ≤ (faultsNow s).length then
          { (activeBasins s).foldl (fun t b => basinReset t b 4) u with
            boot := { ((activeBasins s).foldl (fun t b => basinReset t b 4) u).boot with ended := true } }
        else (activeBasins s).foldl (fun t b => basinReset t b 4) u) := by
  let x : State := { s with die := { s.die with flumeFaults := faultsNow s } }
  have hx : abortSeizure x = x := by rw [abortSeizure, show x.seize = none from hz]
  have hcut := Losing.cutTransit x
  have hsent : ∀ d, Losing (cutTransit x).1 (event (cutTransit x).1 0xE020 d) := fun d => (Sending.event _ _ _).losing
  have hrow : ∃ d, exec (.flumeFault node plane) s = .next (
      if 3 ≤ (faultsNow s).length then
        { (activeBasins s).foldl (fun t b => basinReset t b 4) (event (cutTransit x).1 0xE020 d) with
          boot := { ((activeBasins s).foldl (fun t b => basinReset t b 4) (event (cutTransit x).1 0xE020 d)).boot with ended := true } }
      else (activeBasins s).foldl (fun t b => basinReset t b 4) (event (cutTransit x).1 0xE020 d)) := by
    rw [← hx]
    exact ⟨_, rfl⟩
  obtain ⟨d, hrow⟩ := hrow
  have hu := hcut.trans (hsent d)
  exact ⟨_, hu.die, hu.store, hu.boot, hrow⟩

/-! ### Detections (R348, R349) -/

/-- A word that fails in a segment without earlier hits is upset, and at most its segment's hit is noted. -/
theorem countHit_first {s : State} {w : Nat} (h : (s.seg (segOf w)).hits = []) :
    (countHit s w).store.mem = (upset s w).store.mem ∧ (countHit s w).die = s.die ∧ (countHit s w).dma = s.dma
      ∧ (countHit s w).ledger = s.ledger := by
  obtain ⟨-, -, m, g, n, hup⟩ := upset_spec s w
  simp only [countHit, h, List.head?_nil, Option.any_none, Bool.false_and, Bool.or_false, List.filter_nil, List.length_singleton]
  rw [hup]
  split
  · exact ⟨rfl, rfl, rfl, rfl⟩
  · rw [if_neg (by omega)]
    exact ⟨rfl, rfl, rfl, rfl⟩

/-- A detection outside a step, in a good segment, is recorded. -/
theorem detect_outside {s : State} {w : Nat} (hr : (s.seg (segOf w)).retired = false) {code : Byte} (hc : code ≠ readerReduction) :
    ∃ d, detect s w none code = countHit (event s 0xE012 d) w := by
  have hn : retiredOwner s w = none := by simp only [retiredOwner, hr, Bool.false_eq_true, if_false]
  refine ⟨leBytes 2 (segOf w) ++ leBytes 4 (w % 0x100000) ++ [code], ?_⟩
  simp only [detect, if_neg hc, hn]

/-- Settles O47: each fault by what it stops, a detection by its entry and its word, and the map by its numbers. -/
theorem detectionsStopWhatTheyMust : Obligations.DetectionsStopWhatTheyMust := by
  unfold Obligations.DetectionsStopWhatTheyMust
  intro n cause plane addr s hhand
  refine ⟨fun b hb hl hz hr hg hh => ?_, fun hidle => ?_, fun hz => ?_, fun hret hhits v hv => ?_, fun _ _ => granule_of_bank,
    fun _ _ => granule_of_place⟩
  · obtain ⟨u, d, hfault, hrest, hnodes, hrun, hrec, hstep⟩ := faultCore_alone (s := s.setCore n (s.core n)) (b := b) (n := n)
      hb (by rw [State.core_setCore]; exact hg) hh ⟨hwCode cause, 1, 0⟩ 0x01 (s.core n).pc
    obtain ⟨k, e, hnode⟩ := nodeFault_eq (event u 0xE003 d) n (hwCode cause)
    have hrow := hardwareFault_alone hb hl hz hr cause
    rw [hfault, hnode] at hrow
    have h1 := event_frame u 0xE003 d
    have h1head := event_head (s := u) (inPause_none (by rw [hrest]; exact hhand)) 0xE003 d
    generalize event u 0xE003 d = x at h1 h1head hrow
    have h2 := event_frame { x.setNode n .faulted with boot := k } 0xE004 e
    have h2head := event_head (s := { x.setNode n .faulted with boot := k }) (inPause_none (by rw [h1, hrest]; exact hhand)) 0xE004 e
    generalize event { x.setNode n .faulted with boot := k } 0xE004 e = y at h2 h2head hrow
    have hdie : y.die = { u.die with nodes := tput u.die.nodes n .faulted } := by
      rw [h2, h1]
      rfl
    refine ⟨y, hrow, ?_, ?_, ?_, ?_, ?_, ?_, fun m hm => ?_⟩
    · rw [State.core, hdie]
      exact hrun
    · rw [State.core, hdie]
      exact ⟨_, hrec, rfl, rfl, rfl⟩
    · rw [State.node, hdie]
      exact tget_tput_same _ _ _ _
    · rw [State.basin, hdie]
      exact hstep
    · rw [h2, h1, hrest]
      rfl
    · rw [h2head]
      change x.ledger.head + 1 = _
      rw [h1head, hrest]
      change s.ledger.head + 1 + 1 = s.ledger.head + 2
      rw [BitVec.add_assoc]
      rfl
    · rw [State.node, hdie]
      refine (tget_tput_ne _ _ hm _).trans ?_
      rw [hnodes]
      rfl
  · change execHardwareFault n cause 1 s = _
    exact congrArg Host.Outcome.next (if_pos hidle)
  · obtain ⟨u, hdie, hstore, hboot, hrow⟩ := flumeFault_eq hz n plane
    have hbasin : ∀ b, u.basin b = s.basin b := fun b => by
      rw [State.basin, hdie]
      rfl
    have hnode : ∀ k, hasCore u k = hasCore s k := fun k => by
      rw [hasCore, State.node, hdie]
      rfl
    have hclear := Clearing.foldl (fun t b => basinReset t b 4) (fun t b => Clearing.basinReset t b 4) (activeBasins s) u
    have hblank : ∀ b : Fin 32, (s.basin b).state = .active → ∀ k ∈ (s.basin b).rect.nodes, hasCore s k = true →
        (((activeBasins s).foldl (fun t b => basinReset t b 4) u).core k).Blank := fun b ha k hk hc => by
      have hmem : (b : Nat) ∈ activeBasins s := List.mem_filter.mpr ⟨List.mem_range.mpr b.isLt, by simpa using ha⟩
      exact basinResets_blank _ 4 hmem (by rwa [hbasin]) (by rwa [hbasin]) (by rwa [hnode])
    generalize (activeBasins s).foldl (fun t b => basinReset t b 4) u = v at hrow hclear hblank
    have hlen : 3 ≤ (faultsNow s).length ↔ 2 ≤ (s.die.flumeFaults.filter (fun a => s.time.elapsed ≤ a + flumeHour)).length :=
      Nat.succ_le_succ_iff
    have hmem : v.store.mem = s.store.mem := by rw [hclear.store, hstore]
    have hended : v.boot.ended = s.boot.ended := by rw [hclear.boot, hboot]
    by_cases h3 : 3 ≤ (faultsNow s).length
    · rw [if_pos h3] at hrow
      exact ⟨_, hrow, hblank, ⟨fun _ => Or.inr (hlen.mp h3), fun _ => rfl⟩, hmem⟩
    · rw [if_neg h3] at hrow
      exact ⟨_, hrow, hblank, ⟨fun h => Or.inl (hended ▸ h), fun h => hended.trans (h.resolve_right fun h2 => h3 (hlen.mpr h2))⟩, hmem⟩
  · have hrow : ∃ code, code ≠ readerReduction ∧ exec (.parityDetection addr v) s = .next (detect s (addr.toNat / 4 * 4) none code) := by
      simp only [List.mem_cons, List.not_mem_nil, or_false] at hv
      rcases hv with rfl | rfl | rfl | rfl | rfl <;> exact ⟨_, by decide, rfl⟩
    obtain ⟨code, hcode, hrow⟩ := hrow
    obtain ⟨d, hdet⟩ := detect_outside hret hcode
    rw [hdet] at hrow
    have hf := event_frame s 0xE012 d
    have hhead := event_head (inPause_none hhand) 0xE012 d
    generalize event s 0xE012 d = u at hf hhead hrow
    obtain ⟨hmem, hdie, hdma, hledger⟩ := countHit_first (s := u) (w := addr.toNat / 4 * 4) (by rw [hf]; exact hhits)
    obtain ⟨hfails, hother, -⟩ := upset_spec u (addr.toNat / 4 * 4)
    have hstore : u.store = s.store := (congrArg State.store hf :)
    refine ⟨_, hrow, ?_, hdie.trans (congrArg State.die hf :), ?_, fun a ha => ?_, hdma.trans (congrArg State.dma hf :)⟩
    · rw [hledger, hhead]
    · rw [hmem, hfails]
    · rw [hmem, hother a ha, hstore]

end Sys2Proof.Machine
end

section
/-! PROOFS. The ends of background work: waking, zeroing, filling, loading and in-memory operations (R173, R177, R212, R332 to R338). -/

namespace Sys2Proof.Machine

/-! ### Waking (R177) -/

theorem touchesSeg_waking : TouchesSeg (fun t k => (t.modSeg k (fun g => { g with power := .waking, filled := false })).forget (0x100000 * k) 0x100000)
    (fun g => { g with power := .waking, filled := false }) :=
  (touchesSeg_modSeg _).then (q := fun u k => u.forget (0x100000 * k) 0x100000) fun _ _ => rfl

theorem segWakeGroup_next {s : State} {j : WakeJob} (hw : s.store.wake = some j) (hne : j.waiting ≠ []) :
    exec .segWakeGroup s = .next (wakeGroup (j.waking.foldl (fun t k => t.modSeg k (fun g => { g with power := .on })) s) j) := by
  change execSegWakeGroup s = _
  have hmore : j.waiting.isEmpty = false := by simpa using hne
  simp only [execSegWakeGroup, hw, hmore, Bool.false_eq_true, if_false]

theorem wakeGroup_seg (s : State) (j : WakeJob) (k : Nat) :
    (wakeGroup s j).seg k = if k ∈ j.waiting.take 64 then { s.seg k with power := .waking, filled := false } else s.seg k :=
  touchesSeg_waking.foldl (fun _ => rfl) _ _ _

theorem wakeGroup_die (s : State) (j : WakeJob) : (wakeGroup s j).die = s.die := by
  have h := foldl_keeps (fun (t : State) k => (t.modSeg k (fun g => { g with power := .waking, filled := false })).forget (0x100000 * k) 0x100000)
    (fun t : State => t.die) (fun _ _ => rfl) (j.waiting.take 64) s
  exact h

/-! ### Zeroing and filling (R177, R178) -/

theorem background_keeps {s : State} (hh : s.fw.hand = none) (o : Origin) (r : W16) (d : List Byte) :
    (background s o r d).die = s.die ∧ (background s o r d).store = s.store ∧ (background s o r d).ledger.head = s.ledger.head + 1 := by
  have hf := background_frame s o r d
  exact ⟨(congrArg State.die hf :), (congrArg State.store hf :), background_head (inPause_none hh) _ _ _⟩

theorem find?_only {α : Type} (a : α) (p : α → Bool) : [a].find? p = if p a = true then some a else none := List.find?_singleton

section
variable {s : State} {k : Nat} {d : List Byte} {o : Origin}

theorem zeroingComplete_waits {b : Fin 32} (hz : s.store.zero = [⟨b, true, [k], d, o⟩]) (hq : segmentQueued s k = true) :
    exec (.zeroingComplete b) s = .next s := by
  change execZeroingComplete b s = _
  simp only [execZeroingComplete, hz, find?_only, List.any_cons, hq, Bool.true_or, Bool.not_true, Bool.and_false, Bool.false_eq_true, if_false]

theorem zeroingComplete_ends {b : Fin 32} (hz : s.store.zero = [⟨b, true, [k], d, o⟩]) (hq : segmentQueued s k = false)
    (hr : (s.seg k).retired = false) :
    exec (.zeroingComplete b) s = .next (background
      (({ s with store := { s.store with zero := [] } } : State).modSeg k (fun g => { g with owner := none, busy := false })) o stOk d) := by
  change execZeroingComplete b s = _
  have hgood : zeroSeg { s with store := { s.store with zero := [] } } k
      = ({ s with store := { s.store with zero := [] } } : State).modSeg k (fun g => { g with owner := none, busy := false }) :=
    if_neg (by rw [show (({ s with store := { s.store with zero := [] } } : State).seg k).retired = false from hr]; decide)
  simp only [execZeroingComplete, hz, find?_only, List.any_cons, List.any_nil, hq, Bool.or_self, Bool.not_false, Bool.and_true, beq_self_eq_true,
    if_true, List.erase_cons_head, List.foldl_cons, List.foldl_nil, hgood]

theorem segFillComplete_waits {v : W64} (hz : s.store.fills = [⟨v, [k], d, o⟩]) (hq : segmentQueued s k = true) :
    exec .segFillComplete s = .next s := by
  change execSegFillComplete s = _
  simp only [execSegFillComplete, hz, find?_only, List.any_cons, hq, Bool.true_or, Bool.not_true, Bool.false_eq_true, if_false]

theorem segFillComplete_ends {v : W64} (hz : s.store.fills = [⟨v, [k], d, o⟩]) (hq : segmentQueued s k = false) :
    exec .segFillComplete s = .next (background
      (({ s with store := { s.store with fills := [] } } : State).modSeg k (fun g => { g with busy := false })) o stOk d) := by
  change execSegFillComplete s = _
  simp only [execSegFillComplete, hz, find?_only, List.any_cons, List.any_nil, hq, Bool.or_self, Bool.not_false, if_true,
    List.erase_cons_head, List.foldl_cons, List.foldl_nil]

end

/-- A segment whose work has ended, with the entry of the work. -/
theorem background_modSeg {u : State} (hh : u.fw.hand = none) (k : Nat) (f : Segment → Segment) (o : Origin) (d : List Byte) :
    let t := background (u.modSeg k f) o stOk d
    t.seg k = f (u.seg k) ∧ t.store = (u.modSeg k f).store ∧ (∀ j, j ≠ k → t.seg j = u.seg j) ∧ t.die = u.die
      ∧ t.ledger.head = u.ledger.head + 1 := by
  obtain ⟨hdie, hstore, hhead⟩ := background_keeps (s := u.modSeg k f) hh o stOk d
  have hseg : ∀ j, (background (u.modSeg k f) o stOk d).seg j = (u.modSeg k f).seg j := fun j => by
    rw [State.seg, hstore]
    rfl
  refine ⟨(hseg k).trans (State.seg_setSeg _ _ _), hstore, fun j hj => (hseg j).trans (State.seg_setSeg_ne _ hj _), hdie, hhead⟩

/-! ### Loading (R173, R207) -/

theorem flushBuffers_frame (s : State) (b : Nat) :
    ∃ l, flushBuffers s b = { s with die := { s.die with cores := l } } := by
  have hwalk : ∀ (ns : List Nat) (u : State), ∃ l,
      ns.foldl (fun t n => t.modCore n (fun c => { c with ibuf := [], fetching := [], miss := none })) u
        = { u with die := { u.die with cores := l } } := by
    intro ns
    induction ns with
    | nil => exact fun u => ⟨u.die.cores, rfl⟩
    | cons n ns ih => exact fun u => ih _
  unfold flushBuffers
  split
  · exact hwalk _ s
  · exact ⟨s.die.cores, rfl⟩

section
variable {s : State} {b : Nat} {j : LoadJob}

/-- A load whose check agrees puts its image in the basin; the buffers of its cores are empty. -/
theorem finishLoad_good (hf : firstBad s.mem j.src j.len = none) (hc : crc32c (s.mem.read j.src j.len) = j.check.toNat) :
    ∃ u d, finishLoad s b j = background u j.origin stOk d ∧ u = { s with die := u.die }
      ∧ u.basin b = { s.basin b with load := none, image := some ⟨j.lattice, s.mem.read j.src j.len, j.entry, j.clusters⟩ }
      ∧ ∀ c, c ≠ b → u.basin c = s.basin c := by
  let x : State := (s.modBasin b (fun v => { v with load := none })).modBasin b (fun v =>
    { v with image := some ⟨j.lattice, s.mem.read j.src j.len, j.entry, j.clusters⟩ })
  obtain ⟨l, hl⟩ := flushBuffers_frame { x with die := { x.die with badLines := x.die.badLines.filter (fun e => e.2.1 != b) } } b
  have hrow : ∃ d, finishLoad s b j = background
      (flushBuffers { x with die := { x.die with badLines := x.die.badLines.filter (fun e => e.2.1 != b) } } b) j.origin stOk d := by
    unfold finishLoad
    simp only [hf, if_pos hc]
    exact ⟨_, rfl⟩
  obtain ⟨d, hd⟩ := hrow
  refine ⟨_, d, hd, ?_, ?_, fun c hcb => ?_⟩
  · rw [hl]
    rfl
  · rw [hl]
    have hx : x.basin b = { s.basin b with
        load := none, image := some ⟨j.lattice, s.mem.read j.src j.len, j.entry, j.clusters⟩ } := by
      simp only [x, State.basin_modBasin]
    exact hx
  · rw [hl]
    exact (State.basin_setBasin_ne _ hcb _).trans (State.basin_setBasin_ne _ hcb _)

theorem progLoadComplete_eq {b : Fin 32} (hj : (s.basin b).load = some j) : exec (.progLoadComplete b) s = .next (finishLoad s b j) := by
  change execProgLoadComplete b s = _
  simp only [execProgLoadComplete, hj]

theorem finishLoad_bad (hf : firstBad s.mem j.src j.len = none) (hc : crc32c (s.mem.read j.src j.len) ≠ j.check.toNat) :
    ∃ d, finishLoad s b j = background (s.modBasin b (fun v => { v with load := none })) j.origin stBadArg d := by
  unfold finishLoad
  simp only [hf, if_neg hc]
  exact ⟨_, rfl⟩

end

/-! ### In-memory operations (R212, R332, R333) -/

/-- The end of a part touches the operation, what it fills, and the scoreboard of the core that gave it. -/
theorem endPart_frame (s : State) (op : Nat) (p : MemPart) :
    ∃ m q l, endPart s op p = { s with store := { s.store with segs := m, ops := q }, die := { s.die with cores := l } }
      ∧ ∀ n, ∃ b, (endPart s op p).core n = { s.core n with sb := b } := by
  unfold endPart
  split
  · exact ⟨_, _, _, rfl, fun n => ⟨_, rfl⟩⟩
  next o _ =>
    dsimp only
    obtain ⟨m, hm⟩ := foldl_modSeg_eq (fun g => { g with filled := g.power == .on }) ((wholeSegs o.dst o.len).filter (fun k =>
      overlap p.dst p.len (0x100000 * k) 0x100000 && !partQueued s op k)) s
    rw [hm]
    split
    · exact ⟨_, _, _, rfl, fun n => ⟨_, rfl⟩⟩
    · refine ⟨_, _, _, rfl, fun n => ?_⟩
      rcases eq_or_ne n o.node with rfl | hne
      · exact ⟨_, State.core_setCore _ _ _⟩
      · exact ⟨_, State.core_setCore_ne _ hne _⟩

/-- With no read to act on, what follows a row changes nothing. -/
theorem settleReads_nothing {s : State} (h : s.store.found = []) : settleReads s = s := by
  rw [settleReads, h, List.foldl_nil, ← h]

section
variable {s : State} {k : Fin 64} {p : MemPart} {r : List MemPart} (hq : sliceQueue s k = p :: r)
include hq

theorem inMemoryOpComplete_eq (hw : tget [] s.store.waiting k = []) :
    exec (.inMemoryOpComplete k) s = .next (settleReads (finishPart (setSliceQueue s k r) p)) := by
  change execInMemoryOpComplete k s = _
  simp only [execInMemoryOpComplete, nextPart, hq, List.tail_cons, hw]

end

/-- A part that ends: the memory that it makes, the queue behind it, and registers and counters of cores as they were. -/
theorem endPart_ends {s u : State} {k : Fin 64} {r : List MemPart} (m : Memory) (op : Nat) (p : MemPart)
    (hu : u = ({ setSliceQueue s k r with store := { (setSliceQueue s k r).store with mem := m } } : State)) (hf : s.store.found = []) :
    let t := settleReads (endPart u op p)
    t.store.mem = m ∧ sliceQueue t k = r ∧ t.ledger = s.ledger ∧ t.dma = s.dma
      ∧ ∀ n, (t.core n).s = (s.core n).s ∧ (t.core n).a = (s.core n).a ∧ (t.core n).pc = (s.core n).pc := by
  obtain ⟨g, q, l, heq, hcore⟩ := endPart_frame u op p
  have hnone : (endPart u op p).store.found = [] := by
    rw [heq, hu]
    exact hf
  dsimp only
  rw [settleReads_nothing hnone]
  refine ⟨?_, ?_, ?_, ?_, fun n => ?_⟩
  · rw [heq, hu]
  · rw [heq, hu]
    exact tget_tput_same _ _ _ _
  · rw [heq, hu]
    rfl
  · rw [heq, hu]
    rfl
  · obtain ⟨b, hb⟩ := hcore n
    have hsame : u.core n = s.core n := by
      rw [hu]
      rfl
    rw [hb, hsame]
    exact ⟨rfl, rfl, rfl⟩

/-- Settles O48: each row by the job at its head. -/
theorem backgroundWorkEndsInItsEffect : Obligations.BackgroundWorkEndsInItsEffect := by
  unfold Obligations.BackgroundWorkEndsInItsEffect
  intro s hh
  refine ⟨fun j hw hne => ?_, fun hw => ?_, fun b k d o hz hr => ⟨zeroingComplete_waits hz, fun hq => ?_⟩,
    fun v k d o hz => ⟨segFillComplete_waits hz, fun hq => ?_⟩, fun b j hj hf => ⟨fun hc => ?_, fun hc => ?_⟩,
    fun k p r hq hfound hw => ⟨fun op v hwork => ?_, fun op src hwork hf => ?_, fun v hwork hon => ?_⟩, fun k hq => ?_⟩
  · have hon : ∀ k, (j.waking.foldl (fun t k => t.modSeg k (fun g => { g with power := .on })) s).seg k
        = if k ∈ j.waking then { s.seg k with power := .on } else s.seg k :=
      (touchesSeg_modSeg _).foldl (f := fun g => { g with power := .on }) (fun _ => rfl) j.waking s
    refine ⟨_, segWakeGroup_next hw hne, fun k hk hnk => ?_, fun k hk => ?_, fun k hk hnk => ?_, ?_⟩
    · rw [wakeGroup_seg, if_neg (fun h => hnk (List.mem_of_mem_take h)), hon, if_pos hk]
    · rw [wakeGroup_seg, if_pos hk]
    · rw [wakeGroup_seg, if_neg (fun h => hnk (List.mem_of_mem_take h)), hon, if_neg hk]
    · exact (wakeGroup_die _ j).trans
        (foldl_keeps (fun t k => t.modSeg k (fun g => { g with power := .on })) (fun t : State => t.die) (fun _ _ => rfl) _ s)
  · change execSegWakeGroup s = _
    simp only [execSegWakeGroup, hw]
  · obtain ⟨hseg, hstore, hother, hdie, hhead⟩ := background_modSeg (u := { s with store := { s.store with zero := [] } }) hh k
      (fun g => { g with owner := none, busy := false }) o d
    exact ⟨_, zeroingComplete_ends hz hq hr, hseg, by rw [hstore]; rfl, by rw [hstore]; rfl, hother, hdie, hhead⟩
  · obtain ⟨hseg, hstore, hother, hdie, hhead⟩ := background_modSeg (u := { s with store := { s.store with fills := [] } }) hh k
      (fun g => { g with busy := false }) o d
    exact ⟨_, segFillComplete_ends hz hq, hseg, by rw [hstore]; rfl, by rw [hstore]; rfl, hother, hdie, hhead⟩
  · obtain ⟨u, d, heq, hu, hbasin, hother⟩ := finishLoad_good (b := b) hf hc
    have hrow : exec (.progLoadComplete b) s = .next (background u j.origin stOk d) := (progLoadComplete_eq hj).trans (congrArg _ heq)
    obtain ⟨hdie, hstore, hhead⟩ := background_keeps (s := u) (by rw [hu]; exact hh) j.origin stOk d
    have hsame : ∀ c, (background u j.origin stOk d).basin c = u.basin c := fun c => by
      rw [State.basin, hdie]
      rfl
    refine ⟨_, hrow, ?_, ?_, ?_, fun c hcb => (hsame c).trans (hother c hcb), ?_⟩
    · rw [hsame, hbasin]
    · rw [hsame, hbasin]
    · rw [hstore, hu]
    · rw [hhead, hu]
  · obtain ⟨d, heq⟩ := finishLoad_bad (b := b) hf hc
    obtain ⟨hdie, hstore, -⟩ := background_keeps (s := s.modBasin b (fun v => { v with load := none })) hh j.origin stBadArg d
    have hbasin : (background (s.modBasin b (fun v => { v with load := none })) j.origin stBadArg d).basin b = { s.basin b with load := none } := by
      rw [State.basin, hdie]
      exact State.basin_modBasin _ _ _
    exact ⟨_, (progLoadComplete_eq hj).trans (congrArg _ heq), by rw [hbasin], by rw [hbasin], hstore, by rw [hdie]; rfl⟩
  · have hrow := inMemoryOpComplete_eq hq hw
    simp only [finishPart, hwork] at hrow
    exact ⟨_, hrow, endPart_ends _ op p rfl hfound⟩
  · have hrow := inMemoryOpComplete_eq hq hw
    have hnote : (setSliceQueue s k r).noteCore (opCore (setSliceQueue s k r) op) src p.len = setSliceQueue s k r := by
      have hnone : (setSliceQueue s k r).mem.firstFailing (fun w => src < w + 4 && w < src + p.len) = none := hf
      simp only [State.noteCore, State.noteRead, State.note, hnone]
    simp only [finishPart, hwork, hnote] at hrow
    exact ⟨_, hrow, endPart_ends _ op p rfl hfound⟩
  · have hrow := inMemoryOpComplete_eq hq hw
    have hpower : ((setSliceQueue s k r).seg (segOf p.dst)).power = .on := hon
    simp only [finishPart, hwork, if_pos hpower] at hrow
    rw [settleReads_nothing (by exact hfound)] at hrow
    exact ⟨_, hrow, ⟨rfl, tget_tput_same _ _ _ _, rfl, rfl, fun _ => ⟨rfl, rfl, rfl⟩⟩, State.seg_setSeg _ _ _,
      fun j hj => State.seg_setSeg_ne _ hj _⟩
  · change execInMemoryOpComplete k s = _
    simp only [execInMemoryOpComplete, hq]

end Sys2Proof.Machine
end

section
/-! PROOFS. Discovery, its replies and withdrawals, and the routing commands (R141 to R150, R402, R404 to R408). -/

namespace Sys2Proof.Machine

/-! ### What new routes touch -/

/-- From `s` to `t` the chiplet has only sent, offered its packets by other ports, and followed a grandmaster. -/
structure Routing (s t : State) : Prop where
  rest : t = { s.withNet t with time := t.time }
  dma : s.dma.reads = [] → t.dma = s.dma
  count : t.time.count = s.time.count

namespace Routing

variable {s t u : State}

theorem ofSending (h : Sending s t) : Routing s t where
  rest := by
    rw [h.time]
    exact h.rest
  dma := h.dma
  count := by rw [h.time]

theorem refl (s : State) : Routing s s := ofSending (Sending.refl s)

theorem trans (h : Routing s t) (k : Routing t u) : Routing s u where
  rest := by
    rw [k.rest, h.rest]
    rfl
  dma := fun hr => by
    have ht := h.dma hr
    exact (k.dma (by rw [ht]; exact hr)).trans ht
  count := k.count.trans h.count

/-- The later step first: what it begins from is known from what it ends in. -/
theorem after (k : Routing t u) (h : Routing s t) : Routing s u := h.trans k

theorem ite {p : Prop} [Decidable p] (h : Routing s t) (k : Routing s u) : Routing s (if p then t else u) := by
  split
  · exact h
  · exact k

theorem foldl {α : Type} (f : State → α → State) (hf : ∀ s a, Routing s (f s a)) (l : List α) (s : State) : Routing s (l.foldl f s) := by
  induction l generalizing s with
  | nil => exact refl s
  | cons a l ih => exact (hf s a).trans (ih _)

/-! What it leaves alone. -/

section
variable (h : Routing s t)
include h

theorem die : t.die = s.die := (congrArg State.die h.rest :)
theorem store : t.store = s.store := (congrArg State.store h.rest :)
theorem gateUnit : t.gateUnit = s.gateUnit := (congrArg State.gateUnit h.rest :)
theorem boot : t.boot = s.boot := (congrArg State.boot h.rest :)
theorem fabric : t.fabric = { s.fabric with waiting := t.fabric.waiting } := (congrArg State.fabric h.rest :)

end

theorem modPort (s : State) (q : Nat) (f : Port → Port) : Routing s (s.modPort q f) := ⟨rfl, fun _ => rfl, rfl⟩
theorem waiting (s : State) (l : List OutPacket) : Routing s { s with fabric := { s.fabric with waiting := l } } :=
  ofSending (Sending.waiting s l)

theorem tellUnreachable (s : State) (p : Packet) : Routing s (tellUnreachable s p) := by
  unfold Machine.tellUnreachable
  dsimp only
  exact ite (ite (refl s) (ofSending (Sending.postDone _ _ _ _ _ _ _ _)))
    (ite (ite (refl s) (ofSending (Sending.postDone _ _ _ _ _ _ _ _))) (refl s))

theorem discardTell (s : State) (r : Byte) (q : Nat) (p : Packet) : Routing s (discardTell s r q p) :=
  (ofSending (Sending.discarded _ _ _ _ _)).trans (tellUnreachable _ _)

theorem offerByRoutes (s : State) : Routing s (offerByRoutes s) := by
  unfold Machine.offerByRoutes
  dsimp only
  refine (ofSending (Sending.flush _)).after ((foldl _ (fun t o => ?_) _ _).after ((waiting _ _).after (foldl _ (fun t q => ?_) _ s)))
  · exact (ofSending (Sending.oweFor _ _ _)).trans (discardTell _ _ _ _)
  · exact ite (modPort _ _ _) (refl t)

theorem requestTime (s : State) : Routing s (requestTime s) := by
  exact foldl (fun t q => t.emit (.time q false (timeFrame t t.time.count 0 0))) (fun t q => ofSending (Sending.emit _ _)) _ s

theorem refreshGm (s : State) : Routing s (refreshGm s) := by
  unfold Machine.refreshGm followGm
  exact ite (refl s) ((requestTime _).after ⟨rfl, fun _ => rfl, rfl⟩)

theorem installRoutes (s : State) (k : Routes) :
    Routing (modFabric s (fun f => { f with active := k, shadow := k, generation := f.generation + 1 })) (installRoutes s k) :=
  (offerByRoutes _).after ((refreshGm _).after ⟨rfl, fun _ => rfl, rfl⟩)

theorem sendDisc (s : State) (q : Nat) (dst : W16) (l : List Byte) : Routing s (sendDisc s q dst l) :=
  ofSending (((Sending.emit _ _).trans (Sending.bindTo _ _ _ _)).trans (Sending.flush _))

theorem flood (s : State) (d : Disc) (e : Option Nat) : Routing s (flood s d e) := foldl _ (fun t _ => sendDisc t _ _ _) _ s

theorem discEvent (s : State) (d : Disc) (o : Byte) : Routing s (discEvent s d o) := ofSending (Sending.event _ _ _)

end Routing

/-- Cores, scratchpad, transfers, gates and stage are as they were. -/
def Apart (s t : State) : Prop := t.die = s.die ∧ t.store = s.store ∧ t.dma = s.dma ∧ t.gateUnit = s.gateUnit ∧ t.boot = s.boot

theorem Apart.trans {s t u : State} (h : Apart s t) (k : Apart t u) : Apart s u := by
  obtain ⟨h1, h2, h3, h4, h5⟩ := h
  obtain ⟨k1, k2, k3, k4, k5⟩ := k
  exact ⟨k1.trans h1, k2.trans h2, k3.trans h3, k4.trans h4, k5.trans h5⟩

theorem Routing.apart {s t : State} (h : Routing s t) (hr : s.dma.reads = []) : Apart s t :=
  ⟨h.die, h.store, h.dma hr, h.gateUnit, h.boot⟩

/-- A state that differs from `s` only outside, and what it leads to. -/
theorem Routing.apart_after {s t u : State} (k : Routing t u) (h : Apart s t) (hr : s.dma.reads = []) : Apart s u :=
  h.trans (k.apart (by rw [h.2.2.1]; exact hr))

/-! ### Floods (R143, R146, R404, R405) -/

section
variable {s : State} {d : Disc} {q : Fin 20} {sf : W16} {sp : Byte}

theorem discoveryFlood_dropped (h : dropsFlood s d = true) : exec (.discoveryFlood q sf sp d) s = .next s := by
  change execDiscoveryFlood q sf sp d s = _
  rw [execDiscoveryFlood, floodBy, if_pos h]

/-- Whom a flood came from. -/
def floodSender (sf : W16) (sp : Byte) : Option (W16 × Nat) := if sf = 0xFFFF then none else some (sf, sp.toNat)

/-- The discovery is served and applied; what follows is sent. -/
theorem discoveryFlood_served (hc : s.fabric.current = none) :
    ∃ t, exec (.discoveryFlood q sf sp d) s = .next t
      ∧ Routing (applyDisc (serveDisc s d (some (q : Nat))) d (floodSender sf sp)).1 t := by
  have hdrop : ¬dropsFlood s d = true := by simp [dropsFlood, hc]
  have habandon : abandon s = s := by rw [abandon, hc]
  have hrow : ∃ l, exec (.discoveryFlood q sf sp d) s = .next (flood
      (sendDisc (applyDisc (serveDisc s d (some (q : Nat))) d (floodSender sf sp)).1 q d.orig l) d (some (q : Nat))) := by
    change ∃ l, execDiscoveryFlood q sf sp d s = _
    rw [execDiscoveryFlood, floodBy, if_neg hdrop, habandon]
    exact ⟨_, rfl⟩
  obtain ⟨l, hrow⟩ := hrow
  exact ⟨_, hrow, (Routing.sendDisc _ _ _ _).trans (Routing.flood _ _ _)⟩

theorem serveDisc_apart (s : State) (d : Disc) (p : Option Nat) : Apart s (serveDisc s d p) := ⟨rfl, rfl, rfl, rfl, rfl⟩

/-- The discovery that is served: its parent, the routes before it, and an end within 200 µs. -/
theorem serveDisc_current (s : State) (d : Disc) (p : Option Nat) :
    ∃ u, u ≤ s.time.elapsed + 200000
      ∧ (serveDisc s d p).fabric = { s.fabric with current := some { d := d, parent := p, before := s.fabric.active, busyTo := u } } :=
  ⟨s.time.elapsed + Config.freeNat s.free % 200001, by omega, rfl⟩

/-- The FA that an application gives the chiplet. -/
def givenFa (s : State) (d : Disc) (x : Option (W16 × Nat)) : Option W16 :=
  if d.mode = 2 ∧ s.fa = 0xFFFF then x.bind (fun x => derivedFa d x.1 x.2) else none

theorem applyDisc_refused {x : Option (W16 × Nat)}
    (h : (s.fabric.fixed && formOf d != s.fabric.shape) || (givenFa s d x).any (fun f => faSlot f != s.boot.pins.slotId.toNat)) :
    applyDisc s d x = (discEvent s d 1, true) := if_pos h

theorem givenFa_flood {f : W16} (hm : d.mode = 2) (hfa : s.fabric.fa = 0xFFFF) (hsf : sf ≠ 0xFFFF) (hd : derivedFa d sf sp.toNat = some f) :
    givenFa s d (floodSender sf sp) = some f := by
  rw [givenFa, if_pos ⟨hm, hfa⟩, floodSender, if_neg hsf]
  exact hd

/-- A discovery that is taken: its shape, the FA that it gives, and new routes. -/
theorem applyDisc_taken {x : Option (W16 × Nat)}
    (h : ¬((s.fabric.fixed && formOf d != s.fabric.shape) || (givenFa s d x).any (fun f => faSlot f != s.boot.pins.slotId.toNat)) = true) :
    applyDisc s d x =
      let s1 := modFabric s (fun f => { f with shape := formOf d })
      let s2 := match givenFa s d x with | some f => takeFa s1 f | none => s1
      let s3 := if s2.fa = 0xFFFF then s2 else installRoutes s2 (computeRoutes s2 (formOf d) s2.fa)
      (discEvent s3 d 0, false) := if_neg h

/-- The routes that are in force after an installation. -/
theorem installRoutes_fabric (s : State) (k : Routes) :
    ∃ w, (installRoutes s k).fabric = { s.fabric with active := k, shadow := k, generation := s.fabric.generation + 1, waiting := w } :=
  ⟨_, (Routing.installRoutes s k).fabric⟩

theorem installRoutes_apart (s : State) (k : Routes) (hr : s.dma.reads = []) : Apart s (installRoutes s k) :=
  (Routing.installRoutes s k).apart hr

theorem faPod_eq (x : W16) : faPod x = (x.extractLsb' 11 5).toNat := by
  simp only [faPod, bits, BitVec.extractLsb'_toNat, Nat.shiftRight_eq_div_pow]

theorem faPod_given (x y : W16) : faPod ((x &&& 0x07FF) ||| (y &&& 0xF800)) = faPod y := by
  have hx : (x &&& 0x07FF).extractLsb' 11 5 = 0#5 := by
    rw [BitVec.extractLsb'_and, show (0x07FF : W16).extractLsb' 11 5 = 0#5 by decide, BitVec.and_zero]
  have hy : (y &&& 0xF800).extractLsb' 11 5 = y.extractLsb' 11 5 := by
    rw [BitVec.extractLsb'_and, show (0xF800 : W16).extractLsb' 11 5 = BitVec.allOnes 5 by decide, BitVec.and_allOnes]
  rw [faPod_eq, faPod_eq, BitVec.extractLsb'_or, hx, hy, BitVec.zero_or]

/-- A derived FA lies in the originator's pod. -/
theorem derivedFa_pod {p : Nat} {f : W16} (h : derivedFa d sf p = some f) : faPod f = faPod d.orig := by
  unfold derivedFa at h
  split at h
  · split at h
    · cases h
      exact faPod_given _ _
    · cases h
  · cases h

/-- The chiplet with the routes of a shape, where it has an FA. -/
def withRoutes (s : State) (h : Shape) : State := if s.fa = 0xFFFF then s else installRoutes s (computeRoutes s h s.fa)

theorem withRoutes_apart (hr : s.dma.reads = []) (h : Shape) : Apart s (withRoutes s h) := by
  unfold withRoutes
  split
  · exact ⟨rfl, rfl, rfl, rfl, rfl⟩
  · exact installRoutes_apart _ _ hr

theorem withRoutes_fabric (s : State) (h : Shape) :
    ∃ a b g w, (withRoutes s h).fabric = { s.fabric with active := a, shadow := b, generation := g, waiting := w } := by
  unfold withRoutes
  split
  · exact ⟨_, _, _, _, rfl⟩
  · obtain ⟨w, hw⟩ := installRoutes_fabric s (computeRoutes s h s.fa)
    exact ⟨_, _, _, w, hw⟩

/-- A chiplet with an FA that takes a discovery without being given one has its shape and new routes. -/
theorem applyDisc_adopted (hr : s.dma.reads = []) (hfix : s.fabric.fixed = false) (hm : d.mode ≠ 2) (hfa : s.fabric.fa ≠ 0xFFFF)
    (x : Option (W16 × Nat)) :
    ∃ k w, (applyDisc s d x).1.fabric = { s.fabric with
      shape := formOf d, active := k, shadow := k, generation := s.fabric.generation + 1, waiting := w }
      ∧ Apart s (applyDisc s d x).1 := by
  have hgiven : givenFa s d x = none := if_neg (fun h => hm h.1)
  rw [applyDisc_taken (by simp [hfix, hgiven]), hgiven]
  let u : State := modFabric s (fun f => { f with shape := formOf d })
  have hu : ¬u.fa = 0xFFFF := hfa
  dsimp only
  rw [if_neg hu]
  obtain ⟨w, hw⟩ := installRoutes_fabric u (computeRoutes u (formOf d) u.fa)
  have hi : Apart s (installRoutes u (computeRoutes u (formOf d) u.fa)) := installRoutes_apart u _ hr
  generalize installRoutes u (computeRoutes u (formOf d) u.fa) = v at hw hi
  have hev := Routing.discEvent v d 0
  refine ⟨computeRoutes u (formOf d) u.fa, (discEvent v d 0).fabric.waiting, ?_, hev.apart_after hi hr⟩
  rw [hev.fabric, hw]
  rfl

/-- A chiplet without an FA that a discovery gives its own slot's takes it, with the shape. -/
theorem applyDisc_given (hr : s.dma.reads = []) (hfix : s.fabric.fixed = false) {x : Option (W16 × Nat)} {f : W16}
    (hg : givenFa s d x = some f) (hf : f ≠ 0xFFFF) (hslot : faSlot f = s.boot.pins.slotId.toNat) :
    (applyDisc s d x).1.fabric.fa = f ∧ (applyDisc s d x).1.fabric.shape = formOf d ∧ Apart s (applyDisc s d x).1 := by
  rw [applyDisc_taken (by simp [hfix, hg, hslot]), hg]
  have hgm := Routing.refreshGm (modFabric (modFabric s (fun f => { f with shape := formOf d })) (fun k => { k with fa := f }))
  have hu : Apart s (takeFa (modFabric s (fun f => { f with shape := formOf d })) f) := hgm.apart hr
  have hfab : (takeFa (modFabric s (fun f => { f with shape := formOf d })) f).fabric.fa = f
      ∧ (takeFa (modFabric s (fun f => { f with shape := formOf d })) f).fabric.shape = formOf d :=
    ⟨(congrArg Fabric.fa hgm.fabric :), (congrArg Fabric.shape hgm.fabric :)⟩
  change (discEvent (withRoutes (takeFa (modFabric s (fun f => { f with shape := formOf d })) f) (formOf d)) d 0).fabric.fa = f
    ∧ (discEvent (withRoutes (takeFa (modFabric s (fun f => { f with shape := formOf d })) f) (formOf d)) d 0).fabric.shape = formOf d
    ∧ Apart s (discEvent (withRoutes (takeFa (modFabric s (fun f => { f with shape := formOf d })) f) (formOf d)) d 0)
  generalize takeFa (modFabric s (fun f => { f with shape := formOf d })) f = u at hu hfab
  obtain ⟨hfa, hshape⟩ := hfab
  have hset : ¬u.fa = 0xFFFF := by rwa [State.fa, hfa]
  rw [withRoutes, if_neg hset]
  obtain ⟨w, hw⟩ := installRoutes_fabric u (computeRoutes u (formOf d) u.fa)
  have hi := hu.trans (installRoutes_apart u (computeRoutes u (formOf d) u.fa) (by rw [hu.2.2.1]; exact hr))
  generalize installRoutes u (computeRoutes u (formOf d) u.fa) = v at hw hi
  have hev := Routing.discEvent v d 0
  refine ⟨?_, ?_, hev.apart_after hi hr⟩
  · rw [hev.fabric, hw]
    exact hfa
  · rw [hev.fabric, hw]
    exact hshape

/-- An application leaves cores, memory and transfers, and the discovery that is served. -/
theorem applyDisc_apart (hr : s.dma.reads = []) (d : Disc) (x : Option (W16 × Nat)) :
    Apart s (applyDisc s d x).1 ∧ (applyDisc s d x).1.fabric.current = s.fabric.current := by
  by_cases h : ((s.fabric.fixed && formOf d != s.fabric.shape) || (givenFa s d x).any (fun f => faSlot f != s.boot.pins.slotId.toNat)) = true
  · rw [applyDisc_refused h]
    exact ⟨(Routing.discEvent s d 1).apart hr, (congrArg Fabric.current (Routing.discEvent s d 1).fabric :)⟩
  · rw [applyDisc_taken h]
    have hgiven : Apart s (match givenFa s d x with
        | some f => takeFa (modFabric s (fun f => { f with shape := formOf d })) f
        | none => modFabric s (fun f => { f with shape := formOf d }))
        ∧ (match givenFa s d x with
        | some f => takeFa (modFabric s (fun f => { f with shape := formOf d })) f
        | none => modFabric s (fun f => { f with shape := formOf d })).fabric.current = s.fabric.current := by
      split
      next f _ =>
        have hgm := Routing.refreshGm (modFabric (modFabric s (fun f => { f with shape := formOf d })) (fun k => { k with fa := f }))
        exact ⟨hgm.apart_after ⟨rfl, rfl, rfl, rfl, rfl⟩ hr, (congrArg Fabric.current hgm.fabric :)⟩
      next => exact ⟨⟨rfl, rfl, rfl, rfl, rfl⟩, rfl⟩
    obtain ⟨hu, hcur⟩ := hgiven
    dsimp only
    generalize (match givenFa s d x with
        | some f => takeFa (modFabric s (fun f => { f with shape := formOf d })) f
        | none => modFabric s (fun f => { f with shape := formOf d })) = u at hu hcur ⊢
    change Apart s (discEvent (withRoutes u (formOf d)) d 0) ∧ (discEvent (withRoutes u (formOf d)) d 0).fabric.current = _
    have hrout := hu.trans (withRoutes_apart (by rw [hu.2.2.1]; exact hr) (formOf d))
    obtain ⟨_, _, _, _, hfab⟩ := withRoutes_fabric u (formOf d)
    refine ⟨(Routing.discEvent _ d 0).apart_after hrout hr, ?_⟩
    rw [(Routing.discEvent (withRoutes u (formOf d)) d 0).fabric, hfab]
    exact hcur

end

/-! ### Replies, withdrawals and timers (R148, R404, R406) -/

section
variable {s : State} {d : Disc} {q : Fin 20} {f : W16}

theorem discoveryReply_counted {refused : Bool} {down : Byte} {die : W64} (ho : d.orig = s.fabric.fa) (hfa : s.fabric.fa ≠ 0xFFFF)
    (hn : d.num = s.fabric.last.num) (hl : s.fabric.last.origin.isSome = true) (hnew : ∀ e ∈ s.fabric.last.replies, e.1 ≠ f) :
    exec (.discoveryReply q d f refused down die) s = .next { s with fabric := { s.fabric with last := { s.fabric.last with
      replies := (f, die) :: s.fabric.last.replies, reached := s.fabric.last.reached + 1
      down := s.fabric.last.down + down.toNat, refused := s.fabric.last.refused + (if refused then 1 else 0) } } } := by
  have hsame : s.fabric.last.replies.filter (fun e => e.1 == f) = [] := by
    rw [List.filter_eq_nil_iff]
    exact fun e he => by simpa using hnew e he
  change execDiscoveryReply q d f refused down die s = _
  have hmine : d.orig = s.fa ∧ s.fa ≠ 0xFFFF := ⟨ho, hfa⟩
  rw [execDiscoveryReply, replyBy, if_pos hmine, if_pos ⟨hn, hl⟩]
  simp only [countReply, hsame, List.any_nil, Bool.and_false, Bool.false_eq_true, if_false]
  rfl

theorem discoveryReply_stale {refused : Bool} {down : Byte} {die : W64} (ho : d.orig = s.fabric.fa) (hfa : s.fabric.fa ≠ 0xFFFF)
    (hs : d.num ≠ s.fabric.last.num ∨ s.fabric.last.origin = none) :
    exec (.discoveryReply q d f refused down die) s = .next s := by
  have hmine : d.orig = s.fa ∧ s.fa ≠ 0xFFFF := ⟨ho, hfa⟩
  have hold : ¬(d.num = s.fabric.last.num ∧ s.fabric.last.origin.isSome = true) := by
    rintro ⟨hn, hl⟩
    rcases hs with hs | hs
    · exact hs hn
    · simp [hs] at hl
  change execDiscoveryReply q d f refused down die s = _
  rw [execDiscoveryReply, replyBy, if_pos hmine, if_neg hold]

/-- Bit 25 of an entry is its validity. -/
theorem entry_invalid (t : Tab W64) (i : Nat) :
    (tget 0 (tput t i (tget 0 t i &&& ~~~(BitVec.ofNat 64 (2 ^ 25)))) i).getLsbD 25 = false := by
  rw [tget_tput_same, BitVec.getLsbD_and, show (~~~(BitVec.ofNat 64 (2 ^ 25))).getLsbD 25 = false by decide, Bool.and_false]

/-- A withdrawal of another chiplet's FA that has not been seen: the entry is invalid in both copies, and it goes on. -/
theorem discoveryWithdrawal_taken {c : CurrentDisc} (hc : s.fabric.current = some c) (hd : c.d = d) (hs : c.seen.contains f = false)
    (hf : f ≠ s.fabric.fa) :
    ∃ t, exec (.discoveryWithdrawal q d f) s = .next t
      ∧ Routing (invalidate (modFabric s (fun k => { k with current := some { c with seen := f :: c.seen } })) f) t := by
  have hother : f ≠ s.fa := hf
  have hrow : ∃ g : Nat → List Byte, exec (.discoveryWithdrawal q d f) s = .next
      ((floodPorts (discEvent (invalidate (modFabric s (fun k => { k with current := some { c with seen := f :: c.seen } })) f) d 3) d
        (some (q : Nat))).foldl (fun t q => sendDisc t q 0xFFFF (g q))
        (discEvent (invalidate (modFabric s (fun k => { k with current := some { c with seen := f :: c.seen } })) f) d 3)) := by
    change ∃ g : Nat → List Byte, execDiscoveryWithdrawal q d f s = _
    simp only [execDiscoveryWithdrawal, withdrawalBy, withdraw, hc, hd, hs, ne_eq, not_true_eq_false, Bool.false_eq_true, or_self, if_false,
      if_neg hother]
    exact ⟨fun q => discContent 2 d (byte q) f 0 0 0, rfl⟩
  obtain ⟨g, hrow⟩ := hrow
  exact ⟨_, hrow, (Routing.foldl _ (fun t q => Routing.sendDisc t q _ _) _ _).after (Routing.discEvent _ _ _)⟩

theorem discoveryQuietTimer_ends {o : Origin} (hl : s.fabric.last.origin = some o) :
    ∃ l, exec .discoveryQuietTimer s = .next (background
      { s with fabric := { s.fabric with last := { s.fabric.last with status := stOk, origin := none } } } o stOk l) := by
  change ∃ l, execDiscoveryQuietTimer s = _
  simp only [execDiscoveryQuietTimer, endDisc, hl]
  exact ⟨_, rfl⟩

end

theorem discoveryForget_eq (s : State) : exec .discoveryForget s = .next { s with fabric := { s.fabric with current := none } } := rfl

/-! ### The commands (R141 to R150) -/

section
variable {r : Request} {s : State}

/-- The FA that FABRIC.ADDR.SET names. -/
def addrOf (r : Request) : W16 := BitVec.ofNat 16 (r.arg 16 2)

/-- The shape that FABRIC.SHAPE.SET names. -/
def shapeOf (r : Request) : Shape := ⟨byte (r.arg 16 1), byte (r.arg 17 1), BitVec.ofNat 16 (r.arg 18 2)⟩

/-- What FABRIC.ADDR.SET answers and commits where it passes. -/
def addrReply (r : Request) (s : State) : Reply :=
  { detail := some (leBytes 2 s.fabric.fa.toNat ++ leBytes 2 (addrOf r).toNat), commit := fun _ t => takeFa t (addrOf r) }

theorem addrSetBody_ok (h16 : faSlot (addrOf r) < 16) (hslot : faSlot (addrOf r) = s.boot.pins.slotId.toNat) (h2 : s.boot.stage = 2) :
    addrSetBody r s = addrReply r s := by
  have hstage : ¬(s.boot.stage = 3 ∧ (anyBasin s ∨ s.fabric.gangs ≠ [])) := by
    rintro ⟨h3, -⟩
    rw [h2] at h3
    exact absurd h3 (by decide)
  exact (if_neg (Nat.not_le.mpr h16)).trans ((if_neg (fun h => h hslot)).trans (if_neg hstage))

/-- What the detail of FABRIC.SHAPE.SET shows of the shape proposed before. -/
def shapeDetail (r : Request) (s : State) : List Byte :=
  [(proposedShape s).shape, (proposedShape s).layout, (shapeOf r).shape, (shapeOf r).layout] ++ leBytes 2 (shapeOf r).twist.toNat

/-- What FABRIC.SHAPE.SET answers and commits where it passes. -/
def shapeReply (r : Request) (s : State) : Reply :=
  { detail := some (shapeDetail r s), commit := fun _ t => modFabric t (fun k => { k with proposed := some (shapeOf r), shape := shapeOf r }) }

theorem shapeSetBody_ok (hok : shapeOk (shapeOf r) = true) (hfix : s.fabric.fixed = false) :
    shapeSetBody r s = shapeReply r s := by
  have hbad : ¬(!shapeOk (shapeOf r)) = true := by simp [hok]
  exact (if_neg hbad).trans (if_neg (by simp [hfix]))

theorem discoverBody_read (h0 : r.arg 16 1 = 0) (h2 : r.arg 17 1 ≤ 2) : discoverBody r s = Reply.data (discResult s) := by
  have hargs : ¬(2 < r.arg 16 1 ∨ 2 < r.arg 17 1) := by omega
  exact (if_neg hargs).trans (if_pos h0)

/-- The discovery that FABRIC.DISCOVER originates. -/
def originated (r : Request) (s : State) : Disc :=
  { orig := s.fa, num := s.fabric.last.num + 1, mode := byte (r.arg 16 1), scope := byte (r.arg 17 1), shape := (proposedShape s).shape
    layout := (proposedShape s).layout, twist := (proposedShape s).twist }

/-- The detail of FABRIC.DISCOVER. -/
def discDetail (d : Disc) : List Byte := [d.mode, d.shape] ++ leBytes 2 d.num.toNat ++ leBytes 2 d.orig.toNat ++ [d.scope]

/-- What FABRIC.DISCOVER commits for a discovery. -/
def discoverCommit (d : Disc) (o : Origin) (t : State) : State :=
  if t.fabric.current.any (fun c => c.d.orig.toNat < d.orig.toNat) then
    endDisc (modFabric t (fun f => { f with last := { num := d.num, shape := d.shape, layout := d.layout, origin := some o } })) stConflict
  else originate t d o

/-- What FABRIC.DISCOVER answers and commits where it passes. -/
def discReply (r : Request) (s : State) : Reply :=
  { status := stAccepted, result := leBytes 2 (originated r s).num.toNat
    detail := some (discDetail (originated r s)), commit := discoverCommit (originated r s) }

theorem discoverBody_ok (h1 : r.arg 16 1 = 1) (h2 : r.arg 17 1 ≤ 2) (hfa : s.fabric.fa ≠ 0xFFFF) (hsh : (proposedShape s).shape ≠ 0)
    (hl : s.fabric.last.origin = none) :
    discoverBody r s = discReply r s := by
  have hargs : ¬(2 < r.arg 16 1 ∨ 2 < r.arg 17 1) := by omega
  have hset : ¬(s.fa = 0xFFFF ∨ (proposedShape s).shape = 0) := fun h => h.elim hfa hsh
  have hfree : ¬s.fabric.last.origin.isSome = true := by simp [hl]
  exact (if_neg hargs).trans ((if_neg (by omega)).trans ((if_neg hset).trans (if_neg hfree)))

/-- A discovery of its own that the chiplet serves: it counts itself, and its outcome is awaited. -/
theorem originate_spec (hc : s.fabric.current = none) (hr : s.dma.reads = []) (d : Disc) (o : Origin) :
    Apart s (originate s d o) ∧ (originate s d o).fabric.last.num = d.num ∧ (originate s d o).fabric.last.status = stAccepted
      ∧ (originate s d o).fabric.last.reached = 1 ∧ (originate s d o).fabric.last.origin.isSome = true
      ∧ (originate s d o).fabric.current.isSome = true := by
  have habandon : abandon s = s := by rw [abandon, hc]
  have hserve := serveDisc_apart s d none
  obtain ⟨u, -, hu⟩ := serveDisc_current s d none
  obtain ⟨hx, hcur⟩ := applyDisc_apart (s := serveDisc s d none) (by rw [hserve.2.2.1]; exact hr) d none
  unfold originate
  rw [habandon]
  generalize applyDisc (serveDisc s d none) d none = x at hx hcur
  have hflood := fun l => Routing.flood (modFabric x.1 (fun f => { f with last := l })) d none
  have hlast := fun l => (congrArg Fabric.last (hflood l).fabric :)
  refine ⟨(hflood _).apart_after ((hserve.trans hx).trans ⟨rfl, rfl, rfl, rfl, rfl⟩) hr, by rw [hlast]; rfl, by rw [hlast]; rfl, by rw [hlast]; rfl,
    by rw [hlast]; rfl, ?_⟩
  rw [(hflood _).fabric]
  change x.1.fabric.current.isSome = true
  rw [hcur, hu]
  rfl

/-- The entries of a ROUTE.LOAD stand where it puts them. -/
theorem writtenEntries_get (l : List Nat) (first n : Nat) (w : Tab W64) (i : Nat) :
    tget 0 ((l.zipIdx n).foldl (fun k e => tput k (first + e.2) (BitVec.ofNat 64 e.1)) w) (first + i)
      = if n ≤ i ∧ i < n + l.length then BitVec.ofNat 64 (l.getD (i - n) 0) else tget 0 w (first + i) := by
  induction l generalizing n w with
  | nil =>
    rw [if_neg (by simp)]
    rfl
  | cons v l ih =>
    rw [List.zipIdx_cons, List.foldl_cons, ih, List.length_cons]
    by_cases hi : i = n
    · subst hi
      rw [if_neg (by omega), if_pos (by omega), tget_tput_same, Nat.sub_self]
      rfl
    · rw [tget_tput_ne _ _ (by omega)]
      by_cases hin : n + 1 ≤ i ∧ i < n + 1 + l.length
      · rw [if_pos hin, if_pos (by omega), show i - n = (i - (n + 1)) + 1 by omega]
        rfl
      · rw [if_neg hin, if_neg (by omega)]

theorem Routes.table_setTable {t : Nat} (ht : t ≤ 1) (k : Routes) (v : Tab W64) : (k.setTable t v).table t = v := by
  interval_cases t <;> rfl

theorem Routes.setTable_table {t : Nat} (ht : t ≤ 1) (k : Routes) : k.setTable t (k.table t) = k := by
  interval_cases t <;> rfl

/-- The detail of a ROUTE.LOAD. -/
def routeDetail (r : Request) (s : State) : List Byte :=
  [byte (r.arg 16 1), byte (r.arg 17 1)] ++ leBytes 2 (r.arg 18 2) ++ [if r.arg 20 1 == 1 then 1 else 0, 0]
    ++ leBytes 2 (s.fabric.generation + if r.arg 20 1 == 1 then 1 else 0).toNat

/-- What a ROUTE.LOAD commits. -/
def routeCommit (r : Request) (k : State) : State :=
  if r.arg 20 1 == 1 then activateRoutes (writeShadow k (r.arg 16 1) (r.arg 18 2) (loadEntries r))
  else writeShadow k (r.arg 16 1) (r.arg 18 2) (loadEntries r)

/-- The arguments of a ROUTE.LOAD are in range. -/
def RouteArgs (r : Request) : Prop :=
  r.arg 16 1 ≤ 1 ∧ r.arg 17 1 ≤ 12 ∧ r.arg 20 1 ≤ 1 ∧ (r.arg 17 1 = 0 → r.arg 20 1 = 1)
    ∧ r.arg 18 2 + r.arg 17 1 ≤ tableSize (r.arg 16 1) ∧ (loadEntries r).all (entryOk (r.arg 16 1)) = true

/-- What ROUTE.LOAD answers and commits where it passes. -/
def routeReply (r : Request) (s : State) : Reply := { detail := some (routeDetail r s), commit := fun _ k => routeCommit r k }

theorem routeLoadBody_eq (h : RouteArgs r) :
    routeLoadBody r s = if applying s then Reply.no stConflict else routeReply r s := by
  obtain ⟨ht, hn, ha, h0, hsize, hok⟩ := h
  have hentries : (loadEntries r).any (fun v => !entryOk (r.arg 16 1) v) = false := by
    rw [List.any_eq_false]
    intro v hv
    simp [List.all_eq_true.mp hok v hv]
  have hargs : ¬(1 < r.arg 16 1 ∨ 12 < r.arg 17 1 ∨ 1 < r.arg 20 1 ∨ (r.arg 17 1 = 0 ∧ (!(r.arg 20 1 == 1)) = true)
      ∨ tableSize (r.arg 16 1) < r.arg 18 2 + r.arg 17 1 ∨ (loadEntries r).any (fun v => !entryOk (r.arg 16 1) v) = true) := by
    rw [hentries]
    simp only [Bool.not_eq_true', beq_eq_false_iff_ne, Bool.false_eq_true, or_false]
    omega
  exact if_neg hargs

end

/-- Settles O49: a flood by what it is applied to, a withdrawal by its entry, and the commands by their commits. -/
theorem discoveryRowsTakeEffect : Obligations.DiscoveryRowsTakeEffect := by
  unfold Obligations.DiscoveryRowsTakeEffect
  intro q sf sp d f refused down die s hh hr rest
  refine ⟨discoveryFlood_dropped, fun hc hfix hm hfa hsf hd hf => ⟨fun hslot => ?_, fun hslot => ?_⟩, fun hc hfix hm hfa => ?_,
    fun hc hfix hne => ?_, fun ho hfa hn hl hnew => discoveryReply_counted ho hfa hn hl hnew,
    fun ho hfa hstale => discoveryReply_stale ho hfa hstale, fun c hc hcd hseen hf => ?_, fun hc => ?_,
    fun hl => ?_, fun hl => ?_, discoveryForget_eq s, fun r => ?_⟩
  · obtain ⟨t, hrow, ht⟩ := discoveryFlood_served (q := q) (sf := sf) (sp := sp) (d := d) hc
    have hserve := serveDisc_apart s d (some (q : Nat))
    obtain ⟨hfa', hshape, hapart⟩ := applyDisc_given (s := serveDisc s d (some (q : Nat))) hr hfix
      (givenFa_flood (s := serveDisc s d (some (q : Nat))) hm hfa hsf hd) hf hslot
    refine ⟨t, hrow, ?_, derivedFa_pod hd, ?_, ht.apart_after (hserve.trans hapart) hr⟩
    · rw [ht.fabric]
      exact hfa'
    · rw [ht.fabric]
      exact hshape
  · obtain ⟨t, hrow, ht⟩ := discoveryFlood_served (q := q) (sf := sf) (sp := sp) (d := d) hc
    have hserve := serveDisc_apart s d (some (q : Nat))
    have hboot : (serveDisc s d (some (q : Nat))).boot = s.boot := rfl
    rw [applyDisc_refused (by rw [givenFa_flood (s := serveDisc s d (some (q : Nat))) hm hfa hsf hd]; simp [hboot, hslot])] at ht
    have hall := (Routing.discEvent _ d 1).trans ht
    refine ⟨t, hrow, ?_, ?_, ?_, hall.apart_after hserve hr⟩
    · rw [hall.fabric]
      exact hfa
    · rw [hall.fabric]
      rfl
    · rw [hall.fabric]
      rfl
  · obtain ⟨t, hrow, ht⟩ := discoveryFlood_served (q := q) (sf := sf) (sp := sp) (d := d) hc
    have hserve := serveDisc_apart s d (some (q : Nat))
    obtain ⟨u, hu, hcur⟩ := serveDisc_current s d (some (q : Nat))
    obtain ⟨k, w, hfab, hapart⟩ := applyDisc_adopted (s := serveDisc s d (some (q : Nat))) hr hfix hm hfa (floodSender sf sp)
    rw [hcur] at hfab
    have hlast := ht.fabric.trans (congrArg (fun f => { f with waiting := t.fabric.waiting }) hfab)
    refine ⟨t, hrow, ⟨u, hu, ?_⟩, ?_, ?_, ?_, ?_, ht.apart_after (hserve.trans hapart) hr⟩ <;> rw [hlast]
  · obtain ⟨t, hrow, ht⟩ := discoveryFlood_served (q := q) (sf := sf) (sp := sp) (d := d) hc
    have hserve := serveDisc_apart s d (some (q : Nat))
    obtain ⟨u, hu, hcur⟩ := serveDisc_current s d (some (q : Nat))
    rw [applyDisc_refused (by rw [hcur]; simp [hfix, hne])] at ht
    have hall := (Routing.discEvent _ d 1).trans ht
    have hlast := hall.fabric.trans (congrArg (fun f => { f with waiting := t.fabric.waiting }) hcur)
    refine ⟨t, hrow, ⟨u, hu, ?_⟩, ?_, ?_, ?_, hall.apart_after hserve hr⟩ <;> rw [hlast]
  · obtain ⟨t, hrow, ht⟩ := discoveryWithdrawal_taken (q := q) hc hcd hseen hf
    refine ⟨t, hrow, ?_, ?_, ?_, ht.apart_after ⟨rfl, rfl, rfl, rfl, rfl⟩ hr⟩
    · rw [ht.fabric]
      exact entry_invalid _ _
    · rw [ht.fabric]
      exact entry_invalid _ _
    · rw [ht.fabric]
      rfl
  · change execDiscoveryWithdrawal q d f s = _
    simp only [execDiscoveryWithdrawal, withdrawalBy, withdraw, hc]
  · obtain ⟨o, ho⟩ := Option.isSome_iff_exists.mp hl
    obtain ⟨l, hrow⟩ := discoveryQuietTimer_ends ho
    have hf := background_frame { s with fabric := { s.fabric with last := { s.fabric.last with status := stOk, origin := none } } } o stOk l
    have hhead := background_head (s := { s with fabric := { s.fabric with last := { s.fabric.last with status := stOk, origin := none } } })
      (inPause_none hh) o stOk l
    exact ⟨_, hrow, (congrArg State.fabric hf :), hhead, (congrArg State.links hf :), (congrArg State.die hf :), (congrArg State.store hf :),
      (congrArg State.dma hf :), (congrArg State.gateUnit hf :), (congrArg State.boot hf :)⟩
  · change execDiscoveryQuietTimer s = _
    simp only [execDiscoveryQuietTimer, endDisc, hl]
  · refine ⟨fun ha h16 hslot h2 => ?_, fun ha hok hfix => ?_, fun ha h0 h2 => ?_, fun ha h1 h2 hfa hsh hl hc => ?_,
      fun ha happ ht hlo hhi hact hsize hok => ?_, fun ha happ ht hn hact hsize => ?_, fun ha happ ht hn hact hsize => ?_⟩
    · refine answeredAfter_of_commit (a := addrReply r s) rfl ha
        (fun e v => addrSetBody_ok (s := { s with eps := e, svc := v }) h16 hslot h2) rfl rfl rfl fun o e v l m _ => ?_
      have hgm := Routing.refreshGm (modFabric { s with eps := e, svc := v, ledger := l, sent := m } (fun k => { k with fa := addrOf r }))
      exact ⟨(congrArg Fabric.fa hgm.fabric :), (congrArg Fabric.active hgm.fabric :)⟩
    · exact answeredAfter_of_commit (a := shapeReply r s) rfl ha
        (fun e v => shapeSetBody_ok (s := { s with eps := e, svc := v }) hok hfix) rfl rfl rfl
        fun o e v l m hl => ⟨rfl, hl, rfl, rfl, rfl, rfl, rfl⟩
    · exact answersOnly_of_reading rfl ha fun e v => discoverBody_read (s := { s with eps := e, svc := v }) h0 h2
    · refine answeredAfter_of_commit (a := discReply r s) rfl ha
        (fun e v => discoverBody_ok (s := { s with eps := e, svc := v }) h1 h2 hfa hsh hl) rfl rfl rfl fun o e v l m _ => ?_
      have hlow : ¬(({ s with eps := e, svc := v, ledger := l, sent := m } : State).fabric.current.any (fun c =>
          c.d.orig.toNat < (originated r s).orig.toNat)) = true := by
        simp [hc]
      obtain ⟨hapart, hnum, hst, hreach, horig, hcur⟩ := originate_spec (s := { s with eps := e, svc := v, ledger := l, sent := m }) hc hr
        (originated r s) o
      have hcommit : (discReply r s).commit o { s with eps := e, svc := v, ledger := l, sent := m }
          = originate { s with eps := e, svc := v, ledger := l, sent := m } (originated r s) o := if_neg hlow
      rw [hcommit]
      exact ⟨hnum, hst, hreach, horig, hcur, hapart⟩
    · have hargs : RouteArgs r := ⟨ht, hhi, by omega, by omega, hsize, hok⟩
      refine answeredAfter_of_commit (a := routeReply r s) rfl ha
        (fun e v => (routeLoadBody_eq (s := { s with eps := e, svc := v }) hargs).trans (if_neg (ne_true_of_eq_false happ))) rfl rfl rfl
        fun o e v l m _ => ?_
      have hcommit : (routeReply r s).commit o { s with eps := e, svc := v, ledger := l, sent := m }
          = writeShadow { s with eps := e, svc := v, ledger := l, sent := m } (r.arg 16 1) (r.arg 18 2) (loadEntries r) :=
        if_neg (by rw [hact]; decide)
      rw [hcommit]
      refine ⟨rfl, rfl, ⟨rfl, rfl, rfl, rfl, rfl⟩, fun i hi => ?_⟩
      change tget 0 ((s.fabric.shadow.setTable (r.arg 16 1) ((loadEntries r).zipIdx.foldl (fun k e =>
        tput k (r.arg 18 2 + e.2) (BitVec.ofNat 64 e.1)) (s.fabric.shadow.table (r.arg 16 1)))).table (r.arg 16 1)) (r.arg 18 2 + i) = _
      rw [Routes.table_setTable ht, writtenEntries_get, if_pos (by simpa [loadEntries] using hi)]
      simp [loadEntries, hi]
    · have hargs : RouteArgs r := ⟨ht, by omega, by omega, fun _ => hact, by omega, by simp [loadEntries, hn]⟩
      exact answersOnly_of_reading rfl ha fun e v =>
        (routeLoadBody_eq (s := { s with eps := e, svc := v }) hargs).trans (if_pos happ)
    · have hargs : RouteArgs r := ⟨ht, by omega, by omega, fun _ => hact, by omega, by simp [loadEntries, hn]⟩
      refine answeredAfter_of_commit (a := routeReply r s) rfl ha
        (fun e v => (routeLoadBody_eq (s := { s with eps := e, svc := v }) hargs).trans (if_neg (ne_true_of_eq_false happ))) rfl rfl rfl
        fun o e v l m _ => ?_
      have hempty : loadEntries r = [] := by simp [loadEntries, hn]
      have hsame : writeShadow { s with eps := e, svc := v, ledger := l, sent := m } (r.arg 16 1) (r.arg 18 2) (loadEntries r)
          = { s with eps := e, svc := v, ledger := l, sent := m } := by
        rw [hempty]
        simp only [writeShadow, modFabric, List.zipIdx_nil, List.foldl_nil, Routes.setTable_table ht]
        rfl
      have hcommit : (routeReply r s).commit o { s with eps := e, svc := v, ledger := l, sent := m }
          = installRoutes { s with eps := e, svc := v, ledger := l, sent := m } s.fabric.shadow := by
        refine (if_pos (by rw [hact]; decide)).trans ?_
        rw [hsame]
        rfl
      obtain ⟨w, hw⟩ := installRoutes_fabric { s with eps := e, svc := v, ledger := l, sent := m } s.fabric.shadow
      rw [hcommit, hw]
      exact ⟨rfl, rfl, rfl⟩

end Sys2Proof.Machine
end

section
/-! PROOFS. Turn edges, the grandmaster and the time exchange (R153 to R155, R460, R465 to R471). -/

namespace Sys2Proof.Machine

/-! ### What the rows of time touch -/

/-- From `s` to `t` the chiplet has only recorded, sent, and learnt of time; its clock stands. -/
structure Timing (s t : State) : Prop where
  rest : t = { s with leat := { s.leat with events := t.leat.events }, fw := { s.fw with waiting := t.fw.waiting }
                      ledger := t.ledger, sent := t.sent, time := t.time }
  count : t.time.count = s.time.count
  elapsed : t.time.elapsed = s.time.elapsed

namespace Timing

variable {s t u : State}

theorem refl (s : State) : Timing s s := ⟨rfl, rfl, rfl⟩

theorem trans (h : Timing s t) (k : Timing t u) : Timing s u where
  rest := by
    rw [k.rest, h.rest]
  count := k.count.trans h.count
  elapsed := k.elapsed.trans h.elapsed

/-- The later step first: what it begins from is known from what it ends in. -/
theorem after (k : Timing t u) (h : Timing s t) : Timing s u := h.trans k

theorem ite {p : Prop} [Decidable p] (h : Timing s t) (k : Timing s u) : Timing s (if p then t else u) := by
  split
  · exact h
  · exact k

/-! What it leaves alone. -/

section
variable (h : Timing s t)
include h

theorem die : t.die = s.die := (congrArg State.die h.rest :)
theorem store : t.store = s.store := (congrArg State.store h.rest :)
theorem dma : t.dma = s.dma := (congrArg State.dma h.rest :)
theorem links : t.links = s.links := (congrArg State.links h.rest :)
theorem boot : t.boot = s.boot := (congrArg State.boot h.rest :)
theorem fabric : t.fabric = s.fabric := (congrArg State.fabric h.rest :)

end

theorem emit (s : State) (m : Sent) : Timing s (s.emit m) := ⟨rfl, rfl, rfl⟩

/-- What the chiplet knows of time changes, but for its clock. -/
theorem modTime (s : State) {f : TimeState → TimeState} (hc : (f s.time).count = s.time.count) (he : (f s.time).elapsed = s.time.elapsed) :
    Timing s (modTime s f) := ⟨rfl, hc, he⟩

theorem background (s : State) (o : Origin) (r : W16) (d : List Byte) : Timing s (background s o r d) := by
  have h := background_frame s o r d
  refine ⟨?_, (congrArg (fun u : State => u.time.count) h :), (congrArg (fun u : State => u.time.elapsed) h :)⟩
  rw [h]

theorem event (s : State) (c : W16) (d : List Byte) : Timing s (event s c d) := by
  have h := event_frame s c d
  refine ⟨?_, (congrArg (fun u : State => u.time.count) h :), (congrArg (fun u : State => u.time.elapsed) h :)⟩
  rw [h]

end Timing

/-- The requests for time of every port that is UP. -/
def timeRequests (s : State) : List Sent :=
  ((List.range 20).filter (portUp s)).map (fun q => Sent.time q false (timeFrame s s.time.count 0 0))

theorem requestTime_eq (s : State) : requestTime s = { s with sent := s.sent ++ timeRequests s } := by
  have hwalk : ∀ (l : List Nat) (m : List Sent),
      l.foldl (fun (t : State) q => t.emit (.time q false (timeFrame t t.time.count 0 0))) { s with sent := m }
        = { s with sent := m ++ l.map (fun q => Sent.time q false (timeFrame s s.time.count 0 0)) } := by
    intro l
    induction l with
    | nil =>
      intro m
      rw [List.map_nil, List.append_nil]
      rfl
    | cons q l ih =>
      intro m
      rw [List.foldl_cons, List.map_cons, List.append_cons]
      exact ih _
  exact hwalk _ s.sent

/-- What a chiplet that follows a grandmaster knows of time: what it was, but for the grandmaster and its own place. -/
def TimeState.Follows (t u : TimeState) : Prop :=
  u = { t with gmFa := u.gmFa, parent := u.parent, near := u.near, locked := u.locked, holdover := u.holdover, hops := u.hops, offset := u.offset }

/-- A chiplet that follows a grandmaster has only learnt of time and sent requests. -/
theorem followGm_spec (s : State) (f : W16) :
    ∃ tm m, followGm s f = { s with time := tm, sent := m } ∧ s.time.Follows tm := by
  unfold followGm
  split
  · exact ⟨s.time, s.sent, rfl, rfl⟩
  · dsimp only
    rw [requestTime_eq]
    exact ⟨_, _, rfl, rfl⟩

/-- It follows the one it is told to. -/
theorem followGm_taken {s : State} {f : W16} (h : f ≠ s.time.gmFa) :
    ∃ tm m, followGm s f = { s with time := tm, sent := m } ∧ s.time.Follows tm ∧ tm.gmFa = f ∧ tm.parent = none := by
  unfold followGm
  rw [if_neg h]
  dsimp only
  rw [requestTime_eq]
  exact ⟨_, _, rfl, rfl, rfl, rfl⟩

theorem Timing.followGm (s : State) (f : W16) : Timing s (followGm s f) := by
  obtain ⟨tm, m, h, hf⟩ := followGm_spec s f
  rw [h]
  exact ⟨rfl, by rw [hf], by rw [hf]⟩

theorem Timing.refreshGm (s : State) : Timing s (refreshGm s) := followGm _ _

/-- The end of a nomination withdraws it, with its entry. -/
theorem endNomination_spec {s : State} {n : Nomination} {o : Origin} (h : s.time.nominated = some (n, o)) (st : W16) :
    ∃ d, endNomination s st = background { s with time := { s.time with nominated := none } } o st d := by
  simp only [endNomination, h]
  exact ⟨_, rfl⟩

theorem endNomination_none {s : State} (h : s.time.nominated = none) (st : W16) : endNomination s st = s := by
  rw [endNomination, h]

theorem Timing.endNomination (s : State) (st : W16) : Timing s (endNomination s st) := by
  unfold Machine.endNomination
  split
  · exact (background _ _ _ _).after (modTime s rfl rfl)
  · exact refl s

theorem Timing.adopt (s : State) (n : Nomination) : Timing s (adopt s n) := by
  unfold Machine.adopt
  dsimp only
  have h1 : Timing s (if (s.time.nominated.any (fun k => k.1 != n)) = true then Machine.endNomination s stConflict else s) :=
    ite (endNomination _ _) (refl s)
  exact (event _ _ _).after ((refreshGm _).after ((modTime _ rfl rfl).after h1))

/-- A definition that is adopted with no nomination open is in force, and recorded. -/
theorem adopt_spec {s : State} (hn : s.time.nominated = none) (hh : s.fw.hand = none) (n : Nomination) :
    (adopt s n).time.definition = some n ∧ (adopt s n).ledger.head = s.ledger.head + 1 := by
  have hnone : (s.time.nominated.any (fun k => k.1 != n)) = false := by rw [hn]; rfl
  unfold adopt
  simp only [hnone, Bool.false_eq_true, if_false]
  generalize hu : (modTime s (fun t => { t with
    definition := some n, fellBack := false
    nextPeriod := if n.period = 0 ∨ n.period = t.period then none else some n.period })) = u
  have hdef : u.time.definition = some n := by rw [← hu]; rfl
  have hledger : u.ledger.head = s.ledger.head := by rw [← hu]; rfl
  have hhand : u.fw.hand = none := by rw [← hu]; exact hh
  obtain ⟨tm, m, hgm, hf⟩ := followGm_spec u (chooseGm u)
  have hr : refreshGm u = { u with time := tm, sent := m } := hgm
  rw [hr]
  have hev := event_frame { u with time := tm, sent := m } 0xE041 ([n.mode, 0] ++ leBytes 2 tm.gmFa.toNat ++ leBytes 4 n.period.toNat)
  have hhead := event_head (s := { u with time := tm, sent := m }) (inPause_none hhand) 0xE041
    ([n.mode, 0] ++ leBytes 2 tm.gmFa.toNat ++ leBytes 4 n.period.toNat)
  refine ⟨?_, ?_⟩
  · rw [hev]
    change tm.definition = some n
    rw [hf]
    exact hdef
  · rw [hhead]
    change u.ledger.head + 1 = _
    rw [hledger]

/-! ### What a partner's frame says (R466 to R469) -/

theorem Timing.learn (s : State) (m : TimeMsg) : Timing s (learn s m) := by
  unfold Machine.learn
  dsimp only
  exact ite (refl s) (ite (adopt _ _) (refl s))

theorem Timing.hear (s : State) (q : Nat) (m : TimeMsg) : Timing s (hear s q m) := by
  unfold Machine.hear
  dsimp only
  refine Timing.after (t := Machine.refreshGm _) (ite (modTime _ rfl rfl) (refl _))
    ((refreshGm _).after (Timing.after (t := Machine.learn s m) ?_ (learn s m)))
  exact ⟨rfl, rfl, rfl⟩

/-- The partner stands as its frame says. -/
theorem hear_partner (s : State) (q : Nat) (m : TimeMsg) :
    tget {} (hear s q m).time.partners q = { locked := m.locked, holdover := m.holdover, gmFa := m.gmFa, hops := m.hops } := by
  unfold hear
  dsimp only
  generalize hu : modTime (learn s m) _ = u
  have hpart : tget {} u.time.partners q = ({ locked := m.locked, holdover := m.holdover, gmFa := m.gmFa, hops := m.hops } : PartnerTime) := by
    rw [← hu]
    exact tget_tput_same _ _ _ _
  obtain ⟨tm, l, hgm, hf⟩ := followGm_spec u (chooseGm u)
  have hr : refreshGm u = { u with time := tm, sent := l } := hgm
  have hkeep : tm.partners = u.time.partners := by rw [hf]
  rw [hr]
  split
  · exact hkeep ▸ hpart
  · exact hkeep ▸ hpart

/-! ### Turn edges (R246, R471) -/

theorem releaseEdges_core (s : State) (n : Nat) : (releaseEdges s).core n = { s.core n with edge := false } :=
  tget_map_values (d := ({} : Core)) (g := fun c => { c with edge := false }) rfl s.die.cores n

/-- A turn edge: the next multiple of the period. -/
theorem turnEdge_eq {s : State} (hr : s.boot.rstLow = false) (hd : s.boot.dead = false) (hp : s.time.nextPeriod = none)
    (h0 : s.time.period ≠ 0) (hfit : s.time.count.toNat + s.time.period.toNat < 2 ^ 64) :
    ∃ c k e, exec .turnEdge s = .next (releaseEdges { s with time := { s.time with count := c, ticks := k, elapsed := e } })
      ∧ c.toNat = (s.time.count.toNat / s.time.period.toNat + 1) * s.time.period.toNat := by
  have hpos : s.time.period.toNat ≠ 0 := fun h => h0 (BitVec.eq_of_toNat_eq h)
  have hedge : nextEdge s.time = (s.time.count.toNat / s.time.period.toNat + 1) * s.time.period.toNat := by
    simp only [nextEdge, hp, nextMultiple, if_neg hpos]
  have hle : nextEdge s.time < 2 ^ 64 := by
    have := Nat.div_mul_le_self s.time.count.toNat s.time.period.toNat
    rw [hedge, Nat.add_mul, Nat.one_mul]
    omega
  have hcount : (BitVec.ofNat 64 (nextEdge s.time)).toNat = nextEdge s.time := by
    rw [BitVec.toNat_ofNat, Nat.mod_eq_of_lt hle]
  refine ⟨BitVec.ofNat 64 (nextEdge s.time), s.time.ticks + BitVec.ofNat 64 (nextEdge s.time - s.time.count.toNat),
    s.time.elapsed + (nextEdge s.time - s.time.count.toNat), ?_, hcount.trans hedge⟩
  change execTurnEdge s = _
  have hmul : (nextEdge s.time) % s.time.period.toNat = 0 := by rw [hedge, Nat.mul_mod_left]
  simp only [execTurnEdge, hr, hd, Bool.or_self, Bool.false_eq_true, if_false, atTick, modTime, setTime, hp, hcount, hmul, if_true]

/-! ### The discipline of the clock (R468) -/

theorem loadCount_spec (s : State) (d : Int) :
    (loadCount s d).time = { s.time with count := s.time.count + BitVec.ofInt 64 d } ∧ (loadCount s d).store = s.store
      ∧ (loadCount s d).dma = s.dma ∧ (loadCount s d).links = s.links ∧ (loadCount s d).boot = s.boot := by
  unfold loadCount
  dsimp only
  split <;> exact ⟨rfl, rfl, rfl, rfl, rfl⟩

section
variable {s : State} {q : Fin 20} {m : TimeMsg} {t4 : W64}

theorem timeRsp_disciplines (hup : portUp s q = true) (hgm : (hear s q m).time.gmFa ≠ (hear s q m).fabric.fa)
    (hb : bestParent (hear s q m) = some (q : Nat)) :
    exec (.timeRsp q m t4) s = .next (discipline (hear s q m) q m (twiceOffset m t4)) := by
  change execTimeRsp q m t4 s = _
  have hother : ¬((hear s q m).time.gmFa = (hear s q m).fa ∧ (hear s q m).fa ≠ 0xFFFF) := fun h => hgm h.1
  simp only [execTimeRsp, hup, if_true, if_neg hother, if_pos hb]

/-- The discipline takes the parent, and moves the clock only of a chiplet that is not locked, or that a new parent finds far off. -/
theorem discipline_spec (s : State) (q : Nat) (m : TimeMsg) (x : Int) :
    let t := discipline s q m x
    t.time.parent = some q ∧ t.time.hops = m.hops + 1 ∧ t.time.holdover = false ∧ t.time.lastExchange = s.time.elapsed
      ∧ (s.time.locked = true → s.time.parent = some q → t.time.locked = true ∧ t.time.count = s.time.count)
      ∧ (s.time.locked = false → x.natAbs ≤ 4 → t.time.count = s.time.count ∧ t.time.near = s.time.near + 1
          ∧ t.time.locked = decide (2 ≤ s.time.near + 1))
      ∧ (s.time.locked = false → 4 < x.natAbs → t.time.count = s.time.count + BitVec.ofInt 64 (x / 2) ∧ t.time.near = 0
          ∧ t.time.locked = false)
      ∧ t.store = s.store ∧ t.dma = s.dma ∧ t.links = s.links ∧ t.boot = s.boot := by
  unfold discipline
  dsimp only
  generalize hu : modTime s (fun t => { t with
    parent := some q, hops := m.hops + 1, offset := 500 * x, lastExchange := t.elapsed, holdover := false }) = u
  have htime : u.time = { s.time with
      parent := some q, hops := m.hops + 1, offset := 500 * x, lastExchange := s.time.elapsed, holdover := false } := by
    rw [← hu]
    rfl
  have hrest : u.store = s.store ∧ u.dma = s.dma ∧ u.links = s.links ∧ u.boot = s.boot := by
    rw [← hu]
    exact ⟨rfl, rfl, rfl, rfl⟩
  obtain ⟨hlt, hls, hld, hll, hlb⟩ := loadCount_spec u (x / 2)
  obtain ⟨hs, hd, hl, hb⟩ := hrest
  cases hlock : s.time.locked
  · rw [if_neg (by simp), if_neg (by simp)]
    by_cases hnear : x.natAbs ≤ 4
    · rw [if_pos hnear]
      refine ⟨?_, ?_, ?_, ?_, nofun, fun _ _ => ⟨?_, ?_, ?_⟩, fun _ hfar => absurd hnear (Nat.not_le.mpr hfar), hs, hd, hl, hb⟩ <;>
        simp only [modTime, setTime, htime]
    · rw [if_neg hnear]
      refine ⟨?_, ?_, ?_, ?_, nofun, fun _ h => absurd h hnear, fun _ _ => ⟨?_, rfl, ?_⟩, hls.trans hs, hld.trans hd, hll.trans hl, hlb.trans hb⟩ <;>
        simp only [modTime, setTime, hlt, htime, hlock]
  · by_cases hkeep : (true && !((s.time.parent != some q) && decide (2000 < x.natAbs))) = true
    · rw [if_pos hkeep]
      refine ⟨?_, ?_, ?_, ?_, fun _ _ => ⟨?_, ?_⟩, nofun, nofun, hs, hd, hl, hb⟩ <;> simp only [htime, hlock]
    · rw [if_neg hkeep, if_pos rfl]
      refine ⟨?_, ?_, ?_, ?_, fun _ hp => absurd ?_ hkeep, nofun, nofun, hls.trans hs, hld.trans hd, hll.trans hl, hlb.trans hb⟩
      · simp only [modTime, setTime, hlt, htime]
      · simp only [modTime, setTime, hlt, htime]
      · simp only [modTime, setTime, hlt, htime]
      · simp only [modTime, setTime, hlt, htime]
      · simp [hp]

end

/-! ### TIME.MASTER (R153, R154) -/

section
variable {r : Request} {s : State}

/-- The nomination that TIME.MASTER makes in mode 0 with the period in force. -/
def ownNomination (s : State) : Nomination :=
  { mode := 0, ts := stamp s, nomFa := s.fabric.fa, gmFa := s.fabric.fa, period := s.time.period }

/-- What TIME.MASTER commits for a nomination. -/
def nominate (n : Nomination) (o : Origin) (t : State) : State :=
  let t1 := modTime (endNomination t stConflict) (fun k => { k with nominated := some (n, o) })
  (if prevails n t.time then adopt t1 n else endNomination t1 stConflict).emit (.nomination n)

theorem Timing.nominate (s : State) (n : Nomination) (o : Origin) : Timing s (nominate n o s) := by
  unfold Machine.nominate
  dsimp only
  have h1 : Timing s (Machine.modTime (Machine.endNomination s stConflict) (fun k => { k with nominated := some (n, o) })) :=
    (modTime _ rfl rfl).after (endNomination s stConflict)
  exact (emit _ _).after (ite (h1.trans (adopt _ _)) (h1.trans (endNomination _ _)))

/-- A nomination that does not prevail ends at once: the definition in force stays. -/
theorem nominate_refused {n : Nomination} {k : Nomination} (hn : s.time.nominated = none) (hh : s.fw.hand = none)
    (hk : s.time.definition = some k) (hlt : n.ts.toNat < k.ts.toNat) (o : Origin) :
    ∃ l m w, nominate n o s = { s with ledger := l, sent := m, fw := { s.fw with waiting := w } } ∧ l.head = s.ledger.head + 1 := by
  have hlost : prevails n s.time = false := by
    have hne : (k.ts == n.ts) = false := beq_eq_false_iff_ne.mpr fun h => by
      rw [h] at hlt
      exact Nat.lt_irrefl _ hlt
    simp only [prevails, hk, hne, Bool.false_and, Bool.or_false, decide_eq_false_iff_not]
    omega
  obtain ⟨d, hd⟩ := endNomination_spec (s := modTime s (fun k => { k with nominated := some (n, o) })) (n := n) (o := o) rfl stConflict
  have hsame : ({ modTime s (fun k => { k with nominated := some (n, o) }) with
      time := { (modTime s (fun k => { k with nominated := some (n, o) })).time with nominated := none } } : State) = s := by
    have htime : ({ s.time with nominated := none } : TimeState) = s.time := by rw [← hn]
    change ({ s with time := { s.time with nominated := none } } : State) = s
    rw [htime]
  rw [hsame] at hd
  have hleft : nominate n o s = (background s o stConflict d).emit (.nomination n) := by
    simp only [nominate, endNomination_none hn, hlost, Bool.false_eq_true, if_false, hd]
  rw [hleft, background_frame]
  exact ⟨_, _, _, rfl, background_head (inPause_none hh) o stConflict d⟩

/-- What TIME.MASTER answers and commits in mode 0. -/
def masterReply (s : State) : Reply :=
  { status := stAccepted, detail := some (timeDetail s 0 s.fabric.fa s.time.period), commit := nominate (ownNomination s) }

theorem timeMasterBody_own (h0 : r.arg 16 1 = 0) (hp : r.arg 20 4 = 0) : timeMasterBody r s = masterReply s := by
  have hargs : ¬(2 < r.arg 16 1 ∨ (r.arg 20 4 ≠ 0 ∧ r.arg 20 4 < 1000)) := by omega
  have hmode : ¬(r.arg 16 1 = 1 ∧ (!reachable s (BitVec.ofNat 16 (r.arg 18 2))) = true) := by
    rintro ⟨h1, -⟩
    omega
  refine (if_neg hargs).trans ((if_neg hmode).trans ?_)
  simp only [h0, hp, if_true]
  rfl

end

/-- Settles O50: an edge by the counter and the holds, the grandmaster's rows by what is adopted, an exchange by its discipline. -/
theorem timeFollowsTheGrandmaster : Obligations.TimeFollowsTheGrandmaster := by
  unfold Obligations.TimeFollowsTheGrandmaster
  intro q n o m t4 low s hh rest u x
  refine ⟨fun hr hd hp h0 hfit => ?_, fun hp hn => ?_, fun hp => ?_, fun hn hl hm => ?_, fun hn => ?_, ?_, fun hup => ?_, fun hup => ⟨?_, ?_⟩,
    fun hup hgm hb => ?_, fun hho hp => ?_, fun hno => ?_, fun hgm => ?_, fun hgm hlow => ?_, fun r ha h0 hp hn => ⟨fun k hk hlt => ?_, ?_⟩⟩
  · obtain ⟨c, k, e, hrow, hc⟩ := turnEdge_eq hr hd hp h0 hfit
    have hpos : 0 < s.time.period.toNat := Nat.pos_of_ne_zero fun h => h0 (BitVec.eq_of_toNat_eq h)
    have hlt := Nat.lt_div_mul_add hpos (a := s.time.count.toNat)
    have hle := Nat.div_mul_le_self s.time.count.toNat s.time.period.toNat
    rw [Nat.add_mul, Nat.one_mul] at hc
    refine ⟨_, hrow, ?_, ?_, ?_, releaseEdges_core _, rfl, rfl, rfl, rfl, rfl⟩
    · change s.time.count.toNat < c.toNat
      omega
    · change c.toNat ≤ _
      omega
    · change c.toNat % _ = 0
      rw [hc, ← Nat.succ_mul, Nat.mul_mod_left]
  · have hadopt := Timing.adopt s n
    obtain ⟨hdef, hhead⟩ := adopt_spec hn hh n
    have hall := (Timing.emit (adopt s n) (.nomination n)).after hadopt
    exact ⟨(adopt s n).emit (.nomination n), congrArg Host.Outcome.next (if_pos hp), hdef, ⟨_, rfl⟩, hhead, hall.count, hall.die, hall.store,
      hall.dma, hall.links, hall.boot⟩
  · exact congrArg Host.Outcome.next (if_neg (by simp [hp]))
  · have hend := Timing.endNomination s stOk
    obtain ⟨d, hd⟩ := endNomination_spec hn stOk
    have hrow : exec .timeMasterLocked s = .next (endNomination s stOk) := by
      change execTimeMasterLocked s = _
      simp only [execTimeMasterLocked, hn, hl, hm, beq_self_eq_true, Bool.true_or, Bool.true_and, if_true]
    have hf := background_frame { s with time := { s.time with nominated := none } } o stOk d
    have hhead := background_head (s := { s with time := { s.time with nominated := none } }) (inPause_none hh) o stOk d
    refine ⟨_, hrow, ?_, ?_, hend.die, hend.store, hend.dma, hend.links, hend.boot⟩
    · rw [hd, hf]
    · rw [hd, hhead]
  · change execTimeMasterLocked s = _
    simp only [execTimeMasterLocked, hn]
  · refine ⟨_, congrArg Host.Outcome.next (requestTime_eq s), rfl, fun p hp => ⟨timeFrame s s.time.count 0 0, ?_, rfl⟩⟩
    refine List.mem_append_right _ (List.mem_map.mpr ⟨p, List.mem_filter.mpr ⟨List.mem_range.mpr p.isLt, hp⟩, rfl⟩)
  · have hhear := Timing.hear s q m
    refine ⟨_, congrArg Host.Outcome.next (if_pos hup), ⟨_, _, rfl, rfl, hhear.count, hhear.count⟩, hear_partner s q m, hhear.count,
      hhear.die, hhear.store, hhear.dma, hhear.links, hhear.boot⟩
  · exact congrArg Host.Outcome.next (if_neg (by simp [hup]))
  · exact congrArg Host.Outcome.next (if_neg (by simp [hup]))
  · have hhear := Timing.hear s q m
    obtain ⟨hpar, hhops, hhold, hlast, hkeep, hnear, hfar, hs, hd, hl, hbt⟩ := discipline_spec u q m x
    refine ⟨_, timeRsp_disciplines hup hgm hb, hpar, hhops, hhold, hlast.trans hhear.elapsed, fun h1 h2 => ?_, fun h1 h2 => ?_, fun h1 h2 => ?_,
      hs.trans hhear.store, hd.trans hhear.dma, hl.trans hhear.links, hbt.trans hhear.boot⟩
    · exact ⟨(hkeep h1 h2).1, (hkeep h1 h2).2.trans hhear.count⟩
    · exact ⟨(hnear h1 h2).1.trans hhear.count, (hnear h1 h2).2⟩
    · exact ⟨(hfar h1 h2).1.trans (congrArg (· + BitVec.ofInt 64 (x / 2)) hhear.count), (hfar h1 h2).2⟩
  · exact congrArg Host.Outcome.next (if_pos ⟨hho, hp⟩)
  · refine congrArg Host.Outcome.next (if_neg ?_)
    rintro ⟨h1, h2⟩
    rcases hno with h | h
    · exact absurd h1 (by simp [h])
    · exact h h2
  · exact congrArg Host.Outcome.next (if_pos hgm)
  · obtain ⟨tm, l, heq, hf, hfa, hpar⟩ := followGm_taken (s := modTime s (fun t => { t with fellBack := true })) (f := low) hlow
    have hrow : exec (.grandmasterFallback low) s = .next (followGm (modTime s (fun t => { t with fellBack := true })) low) :=
      congrArg Host.Outcome.next (if_neg (by simp [hgm]))
    rw [heq] at hrow
    refine ⟨_, hrow, hfa, ?_, hpar, ?_, rfl, rfl, rfl, rfl, rfl⟩
    · change tm.fellBack = true
      rw [hf]
      rfl
    · change tm.count = _
      rw [hf]
      rfl
  · refine answeredAfter_of_commit (a := masterReply s) rfl ha
      (fun e v => timeMasterBody_own (s := { s with eps := e, svc := v }) h0 hp) rfl rfl rfl fun o e v l m hl => ?_
    obtain ⟨l', m', w, hleft, hhead⟩ := nominate_refused (s := { s with eps := e, svc := v, ledger := l, sent := m }) hn hh hk
      (show (ownNomination s).ts.toNat < k.ts.toNat from hlt) o
    have hcommit : (masterReply s).commit o { s with eps := e, svc := v, ledger := l, sent := m }
        = nominate (ownNomination s) o { s with eps := e, svc := v, ledger := l, sent := m } := rfl
    rw [hcommit, hleft]
    refine ⟨hk, hn, rfl, ?_⟩
    change l'.head = s.ledger.head + 2
    rw [hhead]
    change l.head + 1 = _
    rw [hl, BitVec.add_assoc]
    rfl
  · refine answeredAfter_of_commit (a := masterReply s) rfl ha
      (fun e v => timeMasterBody_own (s := { s with eps := e, svc := v }) h0 hp) rfl rfl rfl fun o e v l m hl => ?_
    have htime := Timing.nominate { s with eps := e, svc := v, ledger := l, sent := m } (ownNomination s) o
    exact ⟨⟨htime.store, htime.dma, htime.links, htime.boot⟩, _, rfl⟩

end Sys2Proof.Machine
end

section
/-! PROOFS. GANG.DISSOLVE at a chiplet with two member basins of the gang (R156, R159). -/

namespace Sys2Proof.Machine

/-- An answer leaves the gangs. -/
theorem respond_gangs (s : State) (cmd : W16) (r : Request) (st : W16) (l : List Byte) (q : Option W32) :
    (respond s cmd r st l q).fabric.gangs = s.fabric.gangs := by
  rw [respond_eq]
  exact (congrArg Fabric.gangs (Sending.answerLeaves _ _ _).fabric :)

/-- What a row leaves of the gangs is one list. -/
theorem answeredAfter_gangs {i : Instr} {c : Cmd} {r : Request} {s : State} {st : W16} {l : List Byte} {q : Option W32} {a b : List Gang}
    {p : State → Prop} (ha : AnsweredAfter i c r s st l q (fun t => t.fabric.gangs = a))
    (hb : AnsweredAfter i c r s st l q (fun t => t.fabric.gangs = b ∧ p t)) : a = b := by
  obtain ⟨v, hv, rfl⟩ := ha
  obtain ⟨w, hw, rfl, -⟩ := hb
  rw [hv, Host.Outcome.next.injEq] at hw
  rw [← respond_gangs v c.code r st l q, hw, respond_gangs]

/-- What GANG.DISSOLVE answers and commits away from the master: every halted record of the gang is dropped. -/
def dissolveReply (m : W16) (g : Gang) : Reply :=
  { status := stAccepted, detail := some (dissolveDetail g 0)
    commit := fun o t => background (onGang t m g.num (· == .halted) dropGang) o stOk (dissolveDetail g 0) }

theorem dissolveBody_member {r : Request} {s : State} {g : Gang} (hn : r.arg 16 1 ≤ 15) (hm : BitVec.ofNat 16 (r.arg 18 2) ≠ s.fabric.fa)
    (hg : findGang s (BitVec.ofNat 16 (r.arg 18 2)) (byte (r.arg 16 1)) = some g) (hh : g.phase = .halted) :
    dissolveBody r s = dissolveReply (BitVec.ofNat 16 (r.arg 18 2)) g := by
  have hother : ¬BitVec.ofNat 16 (r.arg 18 2) = s.fa := hm
  simp only [dissolveBody, if_neg (Nat.not_lt.mpr hn), hg, if_neg hother, hh, ne_eq, not_true_eq_false, if_false]
  rfl

/-! ### A chiplet with two halted records of one gang -/

/-- The record of a member basin of gang 0 of chiplet 5, which has halted. -/
def haltedRecord (b : Nat) : Gang := { num := 0, master := 5, kind := 0, tenant := 0, basin := b, phase := .halted }

/-- A chiplet in stage 3 whose basins 0 and 1 are members of the gang. -/
def twoRecords : State :=
  { aon := { rails := 0x3F, refclkOk := true }, boot := { stage := 3, rstLow := false }
    fabric := { gangs := [haltedRecord 0, haltedRecord 1] } }

/-- A gate operation, of which the refuted row does not speak. -/
def haltedGateOp : GateOp :=
  { tag := 0, sd := 0, op := 0, gate := 0, fa := 0, remote := false, sv := 0, acquire := false }

/-- GANG.DISSOLVE of the gang, on EP0. -/
def dissolveRequest : Request :=
  { ep := 0, urgent := false, srcFa := 0, seq := 0, tenant := 0, flags := 0, argLen := 4, resv := 0, args := [0, 0, 5, 0] }

theorem dissolveRequest_admitted : Admitted cmdGangDissolve dissolveRequest twoRecords :=
  ⟨⟨by decide, by decide, by decide⟩, by decide, by decide⟩

theorem twoRecords_body (e : Tab Endpoint) (v : Service) :
    cmdGangDissolve.body dissolveRequest { twoRecords with eps := e, svc := v } = dissolveReply 5 (haltedRecord 0) := by
  have hmaster : BitVec.ofNat 16 (dissolveRequest.arg 18 2) = 5 := by decide
  have hnum : byte (dissolveRequest.arg 16 1) = 0 := by decide
  rw [← hmaster]
  simp only [cmdGangDissolve]
  refine dissolveBody_member (by decide) ?_ ?_ rfl
  · rw [hmaster]
    show ¬(5 : W16) = 0xFFFF
    decide
  · rw [hmaster, hnum]
    rfl

/-- Both records go. -/
theorem twoRecords_dissolved :
    AnsweredAfter (.gangDissolve dissolveRequest) cmdGangDissolve dissolveRequest twoRecords stAccepted [] (some twoRecords.ledger.head)
      (fun t => t.fabric.gangs = []) := by
  refine answeredAfter_of_commit (a := dissolveReply 5 (haltedRecord 0)) rfl dissolveRequest_admitted twoRecords_body rfl rfl rfl
    fun o e v l m _ => ?_
  have hdrop : (onGang { twoRecords with eps := e, svc := v, ledger := l, sent := m } 5 0 (· == .halted) dropGang).fabric.gangs = [] :=
    rfl
  have hf := background_frame (onGang { twoRecords with eps := e, svc := v, ledger := l, sent := m } 5 0 (· == .halted) dropGang) o stOk
    (dissolveDetail (haltedRecord 0) 0)
  exact (congrArg (fun u : State => u.fabric.gangs) hf).trans hdrop

/-- Refutes O51: GANG.DISSOLVE drops every halted record of the gang, so where two basins of the chiplet are members, and not only
where `g` is the gang's single record, more than `g` goes. -/
theorem not_gangRowsFollowTheProtocol : ¬ Obligations.GangRowsFollowTheProtocol := by
  unfold Obligations.GangRowsFollowTheProtocol
  intro h
  obtain ⟨-, -, -, -, -, -, -, -, -, -, -, -, -, -, -, -, -, -, hcommands⟩ := h 5 0 0 0 0 0 0 0 0 0 0 0 haltedGateOp (haltedRecord 0) twoRecords rfl rfl
  have hdissolve := (hcommands dissolveRequest).2 dissolveRequest_admitted (by decide) (by decide) (by decide) rfl rfl
  have hgangs : [] = twoRecords.fabric.gangs.filter (fun x => x != haltedRecord 0) := answeredAfter_gangs twoRecords_dissolved hdissolve
  exact absurd hgangs (by decide)

end Sys2Proof.Machine
end

section
/-! PROOFS. A slot row on a ready core: checked, held, or issued (R201, R202, R215). -/

namespace Sys2Proof.Machine

variable {s : State} {n b k : Nat} {i : Instr} {p : Pred} {op : Op}

/-- The context in which a slot row's operation finds itself. -/
def rowCtx (s : State) (n k : Nat) : Ctx := ctxOf s n n k (s.core n).capture (s.core n).pc

/-- A slot row is checked as R201 checks a bundle of one operation. -/
theorem Ready.exec_row (hr : Ready s n b) (hi : slotRow i = some (n, k, p, op)) :
    exec i s = .next (
      match (if predBad p || op.bad (rowCtx s n k) s then some ⟨fcBadEncoding, k, 0⟩
        else if (s.core n).capture.pred p then (addressFault s (rowCtx s n k) op).map (fun f => (⟨f.1, k, f.2⟩ : BundleFault)) else none) with
      | some f => faultBundle s [n] (s.core n).pc [(n, f)]
      | none => match issueSlots n [n] (s.core n).pc [⟨k, p, op⟩] (atIssue s n) 0 with
        | (t, _, none) => settleReads (finishBundle t n [n])
        | (_, _, some (k, h)) => s.modCore k (countStall h)) := by
  rw [exec_slotRow i n k p op s hi, hr.issueOne, checkNode_one s n k p op _ _ hr.captured]
  simp only [rowCtx]
  split <;> split <;> simp_all

/-- An illegal slot faults the core. -/
theorem Ready.exec_illegal (hr : Ready s n b) (hi : slotRow i = some (n, k, p, op)) (h : ¬(predBad p = false ∧ op.bad (rowCtx s n k) s = false)) :
    exec i s = .next (faultBundle s [n] (s.core n).pc [(n, ⟨fcBadEncoding, k, 0⟩)]) := by
  have hbad : (predBad p || op.bad (rowCtx s n k) s) = true := by
    by_contra hno
    exact h (by simpa using hno)
  rw [hr.exec_row hi, if_pos hbad]

/-- What captures its operands on one core takes part by its predicate. -/
theorem actors_atIssue (s : State) (n k : Nat) (p : Pred) (op : Op) :
    actors (atIssue s n) n [n] ⟨k, p, op⟩ = if (s.core n).capture.pred p then [n] else [] :=
  actors_one _ n _ _ (by simp [capturedOf, atIssue])

/-- A legal slot with a false predicate only moves the program counter. -/
theorem Ready.exec_skipped (hr : Ready s n b) (hi : slotRow i = some (n, k, p, op)) (hp : predBad p = false)
    (hb : op.bad (rowCtx s n k) s = false) (hv : (s.core n).capture.pred p = false) :
    exec i s = .next (s.setCore n (s.core n).stepped) := by
  have hslots : issueSlots n [n] (s.core n).pc [⟨k, p, op⟩] (atIssue s n) 0 = (atIssue s n, 0 ||| BitVec.ofNat 8 (2 ^ (k - 1)), none) := by
    simp only [issueSlots, actors_atIssue, hv, Bool.false_eq_true, if_false, List.findSome?_nil, List.foldl_nil]
  have hfinish := finishBundle_next s n { s.core n with held := some { raw := 0, snap := (s.core n).capture } } hr.running hr.outer hr.inner
    hr.stepping rfl
  have hstrip : (retireStrip { s.core n with held := some { raw := 0, snap := (s.core n).capture } }).stepped = (s.core n).stepped := by
    simp [retireStrip, hr.entries, Core.stepped, Core.steppedTo]
  rw [hr.exec_row hi]
  simp only [hp, hb, hv, Bool.or_self, Bool.false_eq_true, if_false, hslots]
  rw [show atIssue s n = s.setCore n { s.core n with held := some { raw := 0, snap := (s.core n).capture } } from rfl, hfinish, hstrip,
    settleReads_none (s.setCore n _) hr.reads]

/-- A failing address check faults the core. -/
theorem Ready.exec_addressFault (hr : Ready s n b) (hi : slotRow i = some (n, k, p, op)) (hp : predBad p = false)
    (hb : op.bad (rowCtx s n k) s = false) (hv : (s.core n).capture.pred p = true) {e : Byte × W32}
    (ha : addressFault s (rowCtx s n k) op = some e) :
    exec i s = .next (faultBundle s [n] (s.core n).pc [(n, ⟨e.1, k, e.2⟩)]) := by
  rw [hr.exec_row hi]
  simp only [hp, hb, hv, ha, Bool.or_self, Bool.false_eq_true, if_false, if_true, Option.map_some]

/-- A slot that something holds counts one stall. -/
theorem Ready.exec_heldBack (hr : Ready s n b) (hi : slotRow i = some (n, k, p, op)) (hp : predBad p = false)
    (hb : op.bad (rowCtx s n k) s = false) (hv : (s.core n).capture.pred p = true) (ha : addressFault s (rowCtx s n k) op = none) {h : Stall}
    (hh : slotHold (atIssue s n) (rowCtx s n k) op = some h) :
    exec i s = .next (s.setCore n (countStall h (s.core n))) := by
  have hx : ctxOf (atIssue s n) n n k (capturedOf (atIssue s n) n) (s.core n).pc = rowCtx s n k := by
    simp [capturedOf, atIssue, rowCtx]
    rfl
  have hslots : issueSlots n [n] (s.core n).pc [⟨k, p, op⟩] (atIssue s n) 0 = (atIssue s n, 0, some (n, h)) := by
    simp only [issueSlots, actors_atIssue, hv, if_true, List.findSome?_cons, hx, hh, Option.map_some]
  rw [hr.exec_row hi]
  simp only [hp, hb, hv, ha, Bool.or_self, Bool.false_eq_true, if_false, if_true, Option.map_none, hslots]
  rfl

/-- Settles O57: the row is a bundle of one operation, and each clause is one branch of its checks, holds and issue. -/
theorem slotRowsAreCheckedHeldOrIssued : Obligations.SlotRowsAreCheckedHeldOrIssued := by
  unfold Obligations.SlotRowsAreCheckedHeldOrIssued
  intro i n k b p op s hi hr
  refine ⟨fun hbad => hr.exec_illegal hi hbad, ?_, ?_, ?_, ?_⟩
  · rintro ⟨hp, hb⟩ hv
    exact hr.exec_skipped hi hp hb hv
  · rintro ⟨hp, hb⟩ hv e ha
    exact hr.exec_addressFault hi hp hb hv ha
  · rintro ⟨hp, hb⟩ hv ha h hh
    exact hr.exec_heldBack hi hp hb hv ha hh
  · rintro ⟨hp, hb⟩ hv ha hh
    exact hr.issues hi hp hv hb ha hh

end Sys2Proof.Machine
end

section
/-! PROOFS. The scalar rows on a ready core (R227 to R233, R248 to R267). -/

namespace Sys2Proof.Machine

/-! ### Writes of registers -/

/-- A change of a core's registers: it leaves what decides the end of a bundle, and does not look at the captured operands. -/
structure RegWrite (f : Core → Core) : Prop where
  held : ∀ (c : Core) (h : Option HeldBundle), f { c with held := h } = { f c with held := h }
  kept : ∀ c : Core, (f c).held = c.held
  run : ∀ c : Core, (f c).run = c.run
  outer : ∀ c : Core, (f c).lc0 = c.lc0
  inner : ∀ c : Core, (f c).lc1 = c.lc1
  stepping : ∀ c : Core, (f c).stepping = c.stepping
  entries : ∀ c : Core, (f c).sb = c.sb
  counter : ∀ c : Core, (f c).pc = c.pc
  stages : ∀ c : Core, (f c).staged = c.staged

theorem RegWrite.setS (r : Nat) (v : W64) : RegWrite (fun c => c.setS r v) := by
  constructor <;> intro c <;> unfold Core.setS <;> split <;> intros <;> rfl

theorem RegWrite.setP (r : Nat) (v : Bool) : RegWrite (fun c => c.setP r v) := by
  constructor <;> intro c <;> unfold Core.setP <;> split <;> intros <;> rfl

theorem RegWrite.setA (r : Nat) (v : W32) : RegWrite (fun c => c.setA r v) := by
  constructor <;> intros <;> rfl

theorem RegWrite.setD (r : Nat) (v : Core → BitVec 128) (h : ∀ (c : Core) (x : Option HeldBundle), v { c with held := x } = v c) :
    RegWrite (fun c => c.setD r (v c)) := by
  constructor
  · intro c x
    simp only [Core.setD, h]
  all_goals
    intros
    rfl

theorem RegWrite.nothing : RegWrite (fun c => c) := by
  constructor <;> intros <;> rfl

/-- The core with its operands captured. -/
def Core.captured (c : Core) : Core := { c with held := some { raw := 0, snap := c.capture } }

/-- The core of a bundle that leads to bundle `t`. -/
def Core.branching (c : Core) (v : Snap) (t : BitVec 14) : Core := { c with held := some { raw := 0, snap := v, branch := some t } }

theorem RegWrite.captured {f : Core → Core} (hf : RegWrite f) (c : Core) :
    f c.captured = { f c with held := some { raw := 0, snap := c.capture } } :=
  hf.held c _

/-! ### What an issuing slot sees and leaves -/

section Issue
variable {s : State} {n b k : Nat} {i : Instr} {p : Pred} {op : Op}

@[simp] theorem atIssue_core (s : State) (n : Nat) : (atIssue s n).core n = (s.core n).captured := by simp [atIssue, Core.captured]

theorem atIssue_modCore (s : State) (n : Nat) (f : Core → Core) : (atIssue s n).modCore n f = s.setCore n (f (s.core n).captured) := by
  rw [State.modCore, atIssue_core]
  simp [atIssue]

theorem atIssue_unchanged (s : State) (n : Nat) : (atIssue s n).modCore n (fun c => c) = atIssue s n :=
  atIssue_modCore s n _

@[simp] theorem rowCtx_node (s : State) (n k : Nat) : (rowCtx s n k).node = n := rfl
@[simp] theorem rowCtx_snap (s : State) (n k : Nat) : (rowCtx s n k).snap = (s.core n).capture := rfl
@[simp] theorem rowCtx_slot (s : State) (n k : Nat) : (rowCtx s n k).slot = k := rfl
@[simp] theorem rowCtx_pc (s : State) (n k : Nat) : (rowCtx s n k).pc = (s.core n).pc := rfl
@[simp] theorem rowCtx_master (s : State) (n k : Nat) : (rowCtx s n k).master = true := by simp [rowCtx, ctxOf]

/-- Where no gate result is outstanding, a scalar source is the register. -/
theorem Ready.readS_getS (hr : Ready s n b) (c : Core) (r : Nat) : readS (s.core n).capture c r = (s.core n).getS r := by
  simp [readS, Core.capture, hr.gops, Snap.getS, Core.getS]

theorem Ready.srcS_row (hr : Ready s n b) (k : Nat) (t : State) (r : BitVec 5) :
    srcS (rowCtx s n k) t r = ((s.core n).getS r.toNat).toNat :=
  congrArg BitVec.toNat (hr.readS_getS _ _)

/-- A slot that leaves the running core `c`, outside loops and without a branch, leaves it one bundle further. -/
theorem Ready.exec_next (hr : Ready s n b) (hi : slotRow i = some (n, k, p, op)) (hp : predBad p = false)
    (hv : (s.core n).capture.pred p = true) (hb : op.bad (rowCtx s n k) s = false) (ha : addressFault s (rowCtx s n k) op = none)
    (hh : slotHold (atIssue s n) (rowCtx s n k) op = none) {u : State} {c : Core} (hu : u.store.found = [])
    (heff : issueSlot (atIssue s n) (rowCtx s n k) op = u.setCore n c) (hrun : c.run = .running) (ho : c.lc0.count = 0)
    (hn : c.lc1.count = 0) (hs : c.stepping = false) (hbranch : c.held.bind (fun x => x.branch) = none) :
    exec i s = .next (u.setCore n (retireStrip c).stepped) := by
  have hexec := hr.issues hi hp hv hb ha hh
  have hslot : issueSlot (atIssue s n) (ctxOf s n n k (s.core n).capture (s.core n).pc) op = u.setCore n c := heff
  rw [hslot, finishBundle_next u n c hrun ho hn hs hbranch, settleReads_none (u.setCore n _) hu] at hexec
  exact hexec

/-- A slot that takes no entries has only its effect. -/
theorem issueSlot_eff (s : State) (n k : Nat) (h : op.ranges (rowCtx s n k) (atIssue s n) = []) :
    issueSlot (atIssue s n) (rowCtx s n k) op = op.eff (rowCtx s n k) (atIssue s n) := by
  have hnone : (atIssue s n).modCore n (fun c => { c with sb := c.sb ++ [] }) = atIssue s n := by
    simp [State.modCore, atIssue]
  unfold issueSlot
  simp only [h, List.map_nil, rowCtx_node, hnone]

/-- A slot that declares no range passes the address checks. -/
theorem addressFault_none (s : State) (x : Ctx) (h0 : op.badLength x s = none) (h1 : op.ranges x s = []) : addressFault s x op = none := by
  simp [addressFault, h0, h1]

/-- A row whose operation declares no memory and writes registers writes them. -/
theorem Ready.writes (hr : Ready s n b) (hi : slotRow i = some (n, k, p, op)) (hp : predBad p = false)
    (hv : (s.core n).capture.pred p = true) (hb : op.bad (rowCtx s n k) s = false) (hlen : op.badLength (rowCtx s n k) s = none)
    (hranges : ∀ t, op.ranges (rowCtx s n k) t = []) (hhold : op.hold (rowCtx s n k) (atIssue s n) = none) {f : Core → Core} (hf : RegWrite f)
    (heff : op.eff (rowCtx s n k) (atIssue s n) = (atIssue s n).modCore n f) : Steps i s n f := by
  have hcore : issueSlot (atIssue s n) (rowCtx s n k) op = s.setCore n (f (s.core n).captured) := by
    rw [issueSlot_eff s n k (hranges _), heff, atIssue_modCore]
  have hentries : (retireStrip (f (s.core n).captured)).stepped = (f (s.core n)).stepped := by
    rw [hf.captured]
    simp [retireStrip, Core.stepped, Core.steppedTo, hf.entries, hr.entries]
  have hexec := hr.exec_next hi hp hv hb (addressFault_none s _ hlen (hranges s))
    (hr.free _ op rfl (hranges _) hhold) hr.reads hcore ((hf.run _).trans hr.running) ?_ ?_ ?_ ?_
  · unfold Steps
    rw [hexec, hentries]
  · rw [hf.outer]
    exact hr.outer
  · rw [hf.inner]
    exact hr.inner
  · rw [hf.stepping]
    exact hr.stepping
  · rw [hf.kept]
    rfl

end Issue

/-! ### Numbers -/

theorem signed_eq (w v : Nat) (hw : w ≠ 0) : signed w v = if v % 2 ^ w < 2 ^ (w - 1) then ((v % 2 ^ w : Nat) : Int) else ((v % 2 ^ w : Nat) : Int) - 2 ^ w := by
  simp only [signed, if_neg hw]

/-- A number of 64 bits is found again in its representation. -/
theorem signed_low (x : Int) (hlo : -(2 ^ 63) ≤ x) (hhi : x < 2 ^ 63) : signed 64 (low 64 x) = x := by
  rw [signed_eq 64 _ (by decide), low]
  split <;> omega

theorem signed25_bounds (v : Nat) : -(2 ^ 63) ≤ signed 25 v ∧ signed 25 v < 2 ^ 63 := by
  rw [signed_eq 25 _ (by decide)]
  split <;> omega

/-- An immediate is taken as it is. -/
theorem intAdd_imm (sat : Bool) (a v : Nat) : intAdd 64 true sat a (low 64 (signed 25 v)) = narrow 64 true sat (signed 64 a + signed 25 v) := by
  obtain ⟨hlo, hhi⟩ := signed25_bounds v
  simp only [intAdd, operand, if_true, signed_low _ hlo hhi]

/-! ### Rows that write one register -/

section Rows
variable {s : State} {n b k : Nat} {i : Instr} {p : Pred} {op : Op}

/-- A row that puts a value into a scalar register. -/
theorem Ready.putS_row (hr : Ready s n b) (hp : predBad p = false) (hv : (s.core n).capture.pred p = true) {r : BitVec 5} {v : Nat}
    (hi : slotRow i = some (n, k, p, op)) (heff : op.eff (rowCtx s n k) (atIssue s n) = putS (rowCtx s n k) r v (atIssue s n))
    (hb : op.bad (rowCtx s n k) s = false := by rfl) (hlen : op.badLength (rowCtx s n k) s = none := by rfl)
    (hranges : ∀ t, op.ranges (rowCtx s n k) t = [] := by intro; rfl) (hhold : op.hold (rowCtx s n k) (atIssue s n) = none := by rfl) :
    Steps i s n (fun c => c.setS r.toNat (BitVec.ofNat 64 v)) :=
  hr.writes hi hp hv hb hlen hranges hhold (.setS _ _) heff

/-- A row that puts a value into a predicate register. -/
theorem Ready.putP_row (hr : Ready s n b) (hp : predBad p = false) (hv : (s.core n).capture.pred p = true) {r : BitVec 3} {v : Bool}
    (hi : slotRow i = some (n, k, p, op)) (heff : op.eff (rowCtx s n k) (atIssue s n) = putP (rowCtx s n k) r v (atIssue s n))
    (hb : op.bad (rowCtx s n k) s = false := by rfl) (hlen : op.badLength (rowCtx s n k) s = none := by rfl)
    (hranges : ∀ t, op.ranges (rowCtx s n k) t = [] := by intro; rfl) (hhold : op.hold (rowCtx s n k) (atIssue s n) = none := by rfl) :
    Steps i s n (fun c => c.setP r.toNat v) :=
  hr.writes hi hp hv hb hlen hranges hhold (.setP _ _) heff

/-- An integer row of format R. -/
theorem Ready.int_row (hr : Ready s n b) (hp : predBad p = false) (hv : (s.core n).capture.pred p = true) {f : FmtR} {hasSat rbZero : Bool}
    {g : Nat → Bool → Bool → Nat → Nat → Nat × Conds} (hi : slotRow i = some (n, k, p, opInt f hasSat g rbZero))
    (hb : ((!hasSat && f.sat) || (rbZero && f.rb != 0)) = false := by rfl) :
    Steps i s n (fun c => c.setS f.rd.toNat (BitVec.ofNat 64 (extend 64 (widthOf f.w) f.sgn
      (g (widthOf f.w) f.sgn f.sat ((s.core n).getS f.ra.toNat).toNat ((s.core n).getS f.rb.toNat).toNat).1))) := by
  refine hr.putS_row hp hv hi ?_ hb
  simp only [opInt, hr.srcS_row]

/-- A floating-point row of format R. -/
theorem Ready.flt_row (hr : Ready s n b) (hp : predBad p = false) (hv : (s.core n).capture.pred p = true) {f : FmtR} {hasFin readsRd rbZero : Bool}
    {g : Bool → Nat → Nat → Nat → Nat × Conds} (hi : slotRow i = some (n, k, p, opFlt f hasFin g readsRd rbZero)) (hflt : f.w = 2 ∧ f.sgn = false)
    (hb : ((!hasFin && f.sat) || (rbZero && f.rb != 0)) = false := by rfl) :
    Steps i s n (fun c => c.setS f.rd.toNat (BitVec.ofNat 64 (g f.sat (((s.core n).getS f.ra.toNat).toNat % 2 ^ 32)
      (((s.core n).getS f.rb.toNat).toNat % 2 ^ 32) (((s.core n).getS f.rd.toNat).toNat % 2 ^ 32)).1)) := by
  refine hr.putS_row hp hv hi ?_ ?_
  · simp only [opFlt, hr.srcS_row]
  · obtain ⟨hw, hg⟩ := hflt
    simpa [opFlt, hw, hg] using hb

/-- A branch of S0 that is taken, after which the core is `f` of what it was. -/
theorem Ready.jump_row (hr : Ready s n b) (hp : predBad p = false) (hv : (s.core n).capture.pred p = true) {f : Core → Core} (hf : RegWrite f)
    {t : BitVec 14} (hi : slotRow i = some (n, k, p, op))
    (heff : op.eff (rowCtx s n k) (atIssue s n) = branchTo (rowCtx s n k) t ((atIssue s n).modCore n f))
    (hb : op.bad (rowCtx s n k) s = false := by rfl) (hlen : op.badLength (rowCtx s n k) s = none := by rfl)
    (hranges : ∀ t, op.ranges (rowCtx s n k) t = [] := by intro; rfl) (hhold : op.hold (rowCtx s n k) (atIssue s n) = none := by rfl) :
    exec i s = .next (s.setCore n ((f (s.core n)).steppedTo t)) := by
  have hexec := hr.issues hi hp hv hb (addressFault_none s _ hlen (hranges s)) (hr.free _ op rfl (hranges _) hhold)
  have hslot : issueSlot (atIssue s n) (rowCtx s n k) op
      = s.setCore n ((f (s.core n)).branching (s.core n).capture t) := by
    rw [issueSlot_eff s n k (hranges _), heff, branchTo, if_pos (rowCtx_master s n k), writeCore, rowCtx_node, atIssue_modCore, hf.captured]
    simp [State.modCore, Core.branching]
  have hend : (retireStrip ((f (s.core n)).branching (s.core n).capture t)).steppedTo t
      = (f (s.core n)).steppedTo t := by
    simp [Core.branching, retireStrip, Core.steppedTo, hf.entries, hr.entries]
  refine hexec.trans ?_
  rw [show issueSlot (atIssue s n) (ctxOf s n n k (s.core n).capture (s.core n).pc) op = _ from hslot,
    finishBundle_branch s n ((f (s.core n)).branching (s.core n).capture t) t ((hf.run _).trans hr.running) ((hf.stepping _).trans hr.stepping) rfl,
    settleReads_none (s.setCore n _) hr.reads, hend]

end Rows

/-! ### Rows that declare memory -/

section Ranges
variable {s : State} {n b k : Nat} {i : Instr} {p : Pred} {op : Op}

/-- Nothing holds a slot of a ready core that reads no summary, declares at most 32 ranges and has no hold of its own. -/
theorem Ready.freeRanges (hr : Ready s n b) (x : Ctx) (op : Op) (hn : x.node = n) (h0 : (op.ranges x (atIssue s n)).length ≤ 32)
    (h1 : op.hold x (atIssue s n) = none) : slotHold (atIssue s n) x op = none := by
  have hg : (s.core n).captured.gops = [] := hr.gops
  have hq : (s.core n).captured.qPend = 0 := hr.summaries
  have hs : (s.core n).captured.sb = [] := hr.entries
  have hd : op.dests.any (destAwaits x.snap (s.core n).captured) = false := by
    rw [List.any_eq_false]
    intro d _
    cases d <;> simp [destAwaits, awaits, hg, hq, bit]
  have hsr : op.srcs.any (awaits x.snap (s.core n).captured) = false := by simp [awaits, hg]
  have hfew : ¬32 < ((op.ranges x (atIssue s n)).map (fun r => r.entry .done)).length := by simpa using h0
  unfold slotHold
  simp only [hn, atIssue_core, hd, hsr, hg, hq, hs, List.any_nil, Bool.and_false, Bool.or_self, List.length_nil, Nat.zero_add, hfew, h1]
  cases op.qsrc <;> simp [bit]

/-- A slot whose ranges all pass faults on none. -/
theorem addressFault_clear {x : Ctx} (h0 : op.badLength x s = none) (h1 : ∀ q ∈ op.ranges x s, rangeFault s x.node q = none) :
    addressFault s x op = none := by
  have hfs : (op.ranges x s).filterMap (rangeFault s x.node) = [] := List.filterMap_eq_nil_iff.mpr h1
  simp [addressFault, h0, hfs]

/-- The checks of a range in segments that are owned and ON, at an aligned address. -/
theorem rangeFault_accessible {lo len al : Nat} {w : Bool} (hb : basinOf s n = some b) (h : Accessible s b lo len) (hal : lo % al = 0) :
    rangeFault s n { lo := lo, hi := lo + len, write := w, align := al, at_ := lo } = none := by
  obtain ⟨hsize, hsegs⟩ := h
  have hwithin : ¬((lo : Int) < 0 ∨ (Memory.size : Int) < (lo : Int) + len) := by omega
  have hend : ((lo : Int) + len).toNat = lo + len := by omega
  have howned : (segsOf lo (lo + len)).find? (fun k => (s.seg k).owner != basinOf s n || (s.seg k).owner.isNone) = none := by
    rw [List.find?_eq_none]
    intro k hk
    simp [(hsegs k hk).1, hb]
  have hon : (segsOf lo (lo + len)).find? (fun k => (s.seg k).power != .on) = none := by
    rw [List.find?_eq_none]
    intro k hk
    simp [(hsegs k hk).2]
  have haligned : (lo : Int) % (al : Int) = 0 := by exact_mod_cast hal
  unfold rangeFault
  simp only [hwithin, if_false, Int.toNat_natCast, hend, howned, hon, haligned, if_true, ite_self]

/-- The core with the entries of a slot that is issuing. -/
def Core.entering (c : Core) (es : List SbEntry) : Core := { c.captured with sb := es }

/-- What a slot with ranges issues on: the core holds its entries. -/
theorem issueSlot_enters (hr : Ready s n b) (op : Op) (k : Nat) : issueSlot (atIssue s n) (rowCtx s n k) op
    = op.eff (rowCtx s n k) (s.setCore n ((s.core n).entering
        ((op.ranges (rowCtx s n k) (atIssue s n)).map (fun r => r.entry (op.use (rowCtx s n k) (atIssue s n)))))) := by
  simp only [issueSlot, rowCtx_node, atIssue_modCore]
  simp [Core.entering, Core.captured, hr.entries]

/-- The memory of a slot that reads nothing that fails its parity. -/
theorem noteCore_nothing {a len : Nat} (h : firstBad s.mem a len = none) (t : State) (ht : t.store = s.store) (m : Nat) : t.noteCore m a len = t := by
  have hmem : t.mem = s.mem := congrArg Store.mem ht
  have hnone : t.mem.firstFailing (fun w => a < w + 4 && w < a + len) = none := hmem ▸ h
  simp only [State.noteCore, State.noteRead, State.note, hnone]

end Ranges

/-! ### The narrow load and store -/

section Narrow
variable {s : State} {n : Fin 64} {b : Nat} {sl : Side} {p : Pred} {f : FmtL}

/-- The entry of the narrow access at `a`. -/
def narrowEntry (a : Nat) (w : Bool) : SbEntry := ⟨a / 256 * 256, (a + 263) / 256 * 256, w, .done⟩

theorem narrowRange_entry (x : Ctx) (f : FmtL) (w : Bool) : (narrowRange x f w).entry .done = narrowEntry (narrowAddr x.snap f).toNat w := by
  simp only [narrowRange, RangeReq.entry, granules, narrowEntry, SbEntry.mk.injEq, and_true]
  omega

theorem narrowRange_clear {k : Nat} (hb : basinOf s n = some b) (w : Bool) (hal : (narrowAddr (s.core n).capture f).toNat % 8 = 0)
    (ha : Accessible s b (narrowAddr (s.core n).capture f).toNat 8) : rangeFault s n (narrowRange (rowCtx s n k) f w) = none :=
  rangeFault_accessible hb ha hal

/-- ld reads its 8 bytes and takes its entry. -/
theorem Ready.ld_row (hr : Ready s n b) (hp : predBad p = false) (hv : (s.core n).capture.pred p = true)
    (hal : (narrowAddr (s.core n).capture f).toNat % 8 = 0) (ha : Accessible s b (narrowAddr (s.core n).capture f).toNat 8)
    (hf : firstBad s.mem (narrowAddr (s.core n).capture f).toNat 8 = none) :
    Steps (.ld n sl p f) s n (fun c => { c.setS f.r.toNat (BitVec.ofNat 64 (leNat (s.mem.read (narrowAddr (s.core n).capture f).toNat 8)))
      with sb := [narrowEntry (narrowAddr (s.core n).capture f).toNat false] }) := by
  have hentry : ((opLd f).ranges (rowCtx s n (sideS sl)) (atIssue s n)).map (fun r => r.entry .done)
      = [narrowEntry (narrowAddr (s.core n).capture f).toNat false] := by
    simp only [opLd, List.map_cons, List.map_nil, narrowRange_entry, rowCtx_snap]
  have hslot := issueSlot_enters hr (opLd f) (sideS sl)
  have hset := RegWrite.setS f.r.toNat (BitVec.ofNat 64 (leNat (s.mem.read (narrowAddr (s.core n).capture f).toNat 8)))
  have heff : issueSlot (atIssue s n) (rowCtx s n (sideS sl)) (opLd f) = s.setCore n (((s.core n).entering
      [narrowEntry (narrowAddr (s.core n).capture f).toNat false]).setS f.r.toNat
        (BitVec.ofNat 64 (leNat (s.mem.read (narrowAddr (s.core n).capture f).toNat 8)))) := by
    rw [hslot, show (opLd f).use (rowCtx s n (sideS sl)) (atIssue s n) = .done from rfl, hentry]
    simp only [opLd, rowCtx_snap, rowCtx_node, noteCore_nothing hf (s.setCore n _) rfl, putS, writeCore, State.modCore, State.core_setCore,
      State.setCore_setCore]
    rfl
  have hexec := hr.exec_next (i := .ld n sl p f) rfl hp hv rfl
    (addressFault_clear rfl fun q hq => by
      rw [List.mem_singleton.mp hq]
      exact narrowRange_clear hr.basin false hal ha)
    (hr.freeRanges _ _ rfl (by simp [opLd]) rfl) hr.reads heff ((hset.run _).trans hr.running) ((congrArg LoopReg.count (hset.outer _)).trans hr.outer)
    ((congrArg LoopReg.count (hset.inner _)).trans hr.inner) ((hset.stepping _).trans hr.stepping) (by rw [hset.kept]; rfl)
  refine hexec.trans (congrArg (fun c => Host.Outcome.next (s.setCore n c)) ?_)
  unfold Core.setS
  split <;> rfl

/-- st writes its 8 bytes and takes its entry. -/
theorem Ready.st_row (hr : Ready s n b) (hp : predBad p = false) (hv : (s.core n).capture.pred p = true)
    (hal : (narrowAddr (s.core n).capture f).toNat % 8 = 0) (ha : Accessible s b (narrowAddr (s.core n).capture f).toNat 8) :
    exec (.st n sl p f) s = .next ((s.write (narrowAddr (s.core n).capture f).toNat (leBytes 8 ((s.core n).getS f.r.toNat).toNat)).setCore n
      ({ s.core n with sb := [narrowEntry (narrowAddr (s.core n).capture f).toNat true] } : Core).stepped) := by
  have hentry : ((opSt f).ranges (rowCtx s n (sideS sl)) (atIssue s n)).map (fun r => r.entry .done)
      = [narrowEntry (narrowAddr (s.core n).capture f).toNat true] := by
    simp only [opSt, List.map_cons, List.map_nil, narrowRange_entry, rowCtx_snap]
  have heff : issueSlot (atIssue s n) (rowCtx s n (sideS sl)) (opSt f)
      = (s.write (narrowAddr (s.core n).capture f).toNat (leBytes 8 ((s.core n).getS f.r.toNat).toNat)).setCore n ((s.core n).entering
        [narrowEntry (narrowAddr (s.core n).capture f).toNat true]) := by
    rw [issueSlot_enters hr (opSt f) (sideS sl), show (opSt f).use (rowCtx s n (sideS sl)) (atIssue s n) = .done from rfl, hentry]
    simp only [opSt, rowCtx_snap, hr.srcS_row]
    rfl
  exact hr.exec_next (i := .st n sl p f) (u := s.write _ _) rfl hp hv rfl
    (addressFault_clear rfl fun q hq => by
      rw [List.mem_singleton.mp hq]
      exact narrowRange_clear hr.basin true hal ha)
    (hr.freeRanges _ _ rfl (by simp [opSt]) rfl) hr.reads heff hr.running hr.outer hr.inner hr.stepping rfl

end Narrow

/-! ### The rows -/

/-- Settles O58: each row is its operation's effect on a ready core, read off from the operation. -/
theorem scalarRowsWriteTheirResults : Obligations.ScalarRowsWriteTheirResults := by
  unfold Obligations.ScalarRowsWriteTheirResults
  intro n b sl p f fi fc fci fl fb fq rd ra rb ps pd pa pb rnd q kind inv half likely ad d s hr hp hv
  refine ⟨?_, ?_, ?_, fun hsat => ?_, fun hB => ?_, fun hB => ?_, fun hsat => ?_, fun hrb => ?_, fun hsat => ?_, ?_, fun hsat hw => ?_, ?_,
    fun hsat => ?_, fun hg => ?_, ?_, fun hc => ?_, fun hw hg => ?_, ?_, ?_, ?_, ?_, ?_, fun hflt => ?_, ?_, fun hok hf => ?_, fun hok => ?_, ?_,
    fun hq => ?_, ?_, fun hsat hra hrb => ?_, fun hsl => ?_⟩
  · exact hr.int_row (g := intAdd) hp hv rfl
  · exact hr.int_row (g := intSub) hp hv rfl
  · exact hr.int_row (g := intMul) hp hv rfl
  · exact hr.int_row (g := fun w g _ => intMulh w g) hp hv rfl (by simp [hsat])
  · have hdiv := hr.int_row (f := f) (i := .div n sl p f) (g := intDiv) hp hv rfl
    simpa only [intDiv, if_neg hB] using hdiv
  · have hdiv := hr.int_row (f := f) (i := .div n sl p f) (g := intDiv) hp hv rfl
    simpa only [intDiv, if_pos hB, Bool.and_eq_true, Bool.decide_and] using hdiv
  · have hrem := hr.int_row (f := f) (i := .rem n sl p f) (g := fun w g _ => intRem w g) hp hv rfl (by simp [hsat])
    simpa only [intRem, apply_ite Prod.fst, ← apply_ite (low (widthOf f.w))] using hrem
  · exact hr.int_row (g := fun w g t a _ => intNeg w g t a) hp hv rfl (by simp [hrb])
  · have hlegal : (!false && f.sat || false && f.rb != 0) = false := by simp [hsat]
    refine ⟨?_, ?_, ?_, ?_, ?_, ?_, ?_, ?_, ?_, ?_, fun hrb => ?_⟩
    · exact hr.int_row (g := fun w g _ => intLesser w g) hp hv rfl hlegal
    · exact hr.int_row (g := fun w g _ => intGreater w g) hp hv rfl hlegal
    · exact hr.int_row (g := fun w _ _ => intAnd w) hp hv rfl hlegal
    · exact hr.int_row (g := fun w _ _ => intOr w) hp hv rfl hlegal
    · exact hr.int_row (g := fun w _ _ => intXor w) hp hv rfl hlegal
    · exact hr.int_row (g := fun w _ _ => intShr w) hp hv rfl hlegal
    · exact hr.int_row (g := fun w _ _ => intSar w) hp hv rfl hlegal
    · exact hr.int_row (g := fun w _ _ => intRol w) hp hv rfl hlegal
    · exact hr.int_row (g := fun w _ _ => intRor w) hp hv rfl hlegal
    · exact hr.int_row (g := fun w _ _ a _ => (leadZeros w a, 0)) hp hv rfl hlegal
    · exact hr.int_row (g := fun w _ _ a _ => (popCount w a, 0)) hp hv rfl (by simp [hsat, hrb])
  · exact hr.int_row (g := intShl) hp hv rfl
  · refine ⟨hr.putS_row hp hv rfl ?_ (by simp [opExt, hsat, hw]), hr.putS_row hp hv rfl ?_ (by simp [opIns, hsat, hw])⟩
    · simp only [opExt, hr.srcS_row]
    · simp only [opIns, hr.srcS_row]
  · refine hr.putS_row hp hv rfl ?_
    simp only [opAddi, hr.srcS_row, intAdd_imm]
  · refine ⟨hr.putS_row hp hv rfl ?_ (by simp [opLic, hsat]), fun hra => hr.putS_row hp hv rfl rfl (by simp [opLi, hsat, hra])⟩
    simp only [opLic, hr.srcS_row]
  · refine hr.putP_row hp hv rfl ?_ (by simp [opCmp, hg])
    simp only [opCmp, hr.srcS_row]
  · refine hr.putP_row hp hv rfl ?_
    simp only [opCmpi, hr.srcS_row]
  · refine hr.putP_row hp hv rfl ?_ (by simpa [opChk] using hc)
    simp only [opChk, hr.srcS_row]
  · refine hr.putP_row hp hv rfl ?_ (by simp [opFcmp, hw, hg])
    simp only [opFcmp, hr.srcS_row]
  · exact hr.putP_row hp hv rfl rfl
  · exact hr.putP_row hp hv rfl rfl
  · exact hr.putP_row hp hv rfl rfl
  · exact hr.putP_row hp hv rfl rfl
  · refine hr.putS_row hp hv rfl ?_
    simp only [opSel, hr.srcS_row, rowCtx_snap]
  · refine ⟨?_, ?_, ?_, ?_, fun hsat => ⟨?_, ?_⟩, fun hrb => ?_⟩
    · exact hr.flt_row (g := fun t a b _ => fAdd .fp32 0 t a b) hp hv rfl hflt
    · exact hr.flt_row (g := fun t a b _ => fSub .fp32 0 t a b) hp hv rfl hflt
    · exact hr.flt_row (g := fun t a b _ => fMul .fp32 0 t a b) hp hv rfl hflt
    · exact hr.flt_row (g := fun t a b d => fFma .fp32 0 t a b d) hp hv rfl hflt
    · exact hr.flt_row (g := fun _ a b _ => FFmt.fp32.extremum false a b) hp hv rfl hflt (by simp [hsat])
    · exact hr.flt_row (g := fun _ a b _ => FFmt.fp32.extremum true a b) hp hv rfl hflt (by simp [hsat])
    · exact hr.flt_row (g := fun t a _ _ => fRsqrt .fp32 0 t a) hp hv rfl hflt (by simp [hrb])
  · refine hr.putS_row hp hv rfl ?_
    simp only [opCvt, hr.srcS_row]
  · obtain ⟨hal, ha⟩ := hok
    exact hr.ld_row hp hv hal ha hf
  · obtain ⟨hal, ha⟩ := hok
    exact hr.st_row hp hv hal ha
  · refine hr.writes rfl hp hv rfl rfl (fun _ => rfl) rfl (.setA _ _) ?_
    simp only [opMova, hr.srcS_row]
    rfl
  · have hrdq := hr.putS_row (i := .rdq n sl p rd q) (r := rd) (v := ((s.core n).getQ q.toNat).toNat) hp hv rfl
      (by simp only [opRdq, rowCtx_node, atIssue_core]; rfl) (by simpa [opRdq] using hq)
    simpa only [Steps, BitVec.ofNat_toNat, BitVec.setWidth_eq] using hrdq
  · have hidle : (opDset d half ra).hold (rowCtx s n (sideS sl)) (atIssue s n) = none := by
      simp only [opDset, rowCtx_node, atIssue_core, show (s.core n).captured.v = [] from hr.vector]
      rfl
    have hdset := hr.writes (i := .dset n sl p d half ra) rfl hp hv rfl rfl (fun _ => rfl) hidle
      (.setD d.toNat (fun c => dsetValue (tget 0 c.d d.toNat) half ((s.core n).getS ra.toNat)) fun _ _ => rfl)
      (by simp only [opDset, hr.srcS_row, BitVec.ofNat_toNat, BitVec.setWidth_eq]; rfl)
    exact hdset
  · refine ⟨?_, ?_⟩
    · have hwho := hr.putS_row (i := .whoami n sl p f) (r := f.rd) (v := (identity s n).toNat) hp hv rfl rfl (by simp [opWhoami, hsat, hra, hrb])
      simpa only [Steps, BitVec.ofNat_toNat, BitVec.setWidth_eq] using hwho
    · have hturn := hr.putS_row (i := .rdturn n sl p f) (r := f.rd) (v := s.time.count.toNat) hp hv rfl rfl (by simp [opRdturn, hsat, hra, hrb])
      simpa only [Steps, BitVec.ofNat_toNat, BitVec.setWidth_eq] using hturn
  · subst hsl
    refine ⟨fun hlink => ?_, ?_, ?_, fun hq htaken => ?_, fun hq hnot => ?_⟩
    · exact hr.jump_row hp hv .nothing rfl (by rw [atIssue_unchanged]; rfl) (by simp [opBr, hlink, notS0, sideS])
    · refine hr.jump_row hp hv (.setS _ _) rfl ?_ (by simp [opBl, notS0, sideS])
      simp only [opBl, putS, rowCtx_pc, ← BitVec.ofNat_toNat]
      rfl
    · refine hr.jump_row hp hv .nothing rfl ?_ (by simp [opJr, notS0, sideS])
      simp only [opJr, hr.srcS_row, atIssue_unchanged]
    · refine hr.jump_row hp hv .nothing rfl ?_ (by simpa [opBrq, notS0, sideS] using hq)
      simp only [opBrq, rowCtx_node, rowCtx_snap, atIssue_core, hr.readS_getS, atIssue_unchanged]
      exact if_pos htaken
    · refine hr.writes rfl hp hv (by simpa [opBrq, notS0, sideS] using hq) rfl (fun _ => rfl) rfl .nothing ?_
      simp only [opBrq, rowCtx_node, rowCtx_snap, atIssue_core, hr.readS_getS, atIssue_unchanged]
      exact if_neg (Bool.eq_false_iff.mp hnot)

end Sys2Proof.Machine
end

section
/-! PROOFS. The A, M, V and H rows of one ready core (R234 to R241, R246, R247). -/

namespace Sys2Proof.Machine

section Rows
variable {s : State} {n b k : Nat} {i : Instr} {p : Pred} {op : Op}

/-- A row that puts an address into its register. -/
theorem Ready.putA_row (hr : Ready s n b) (hp : predBad p = false) (hv : (s.core n).capture.pred p = true) {r : BitVec 4} {v : W32}
    (hi : slotRow i = some (n, k, p, op)) (heff : op.eff (rowCtx s n k) (atIssue s n) = putA (rowCtx s n k) r v (atIssue s n))
    (hb : op.bad (rowCtx s n k) s = false := by rfl) (hlen : op.badLength (rowCtx s n k) s = none := by rfl)
    (hranges : ∀ t, op.ranges (rowCtx s n k) t = [] := by intro; rfl) (hhold : op.hold (rowCtx s n k) (atIssue s n) = none := by rfl) :
    Steps i s n (fun c => c.setA r.toNat v) :=
  hr.writes hi hp hv hb hlen hranges hhold (.setA _ _) heff

/-- A row that changes its core without declaring memory: the core is `f` of what it was. -/
theorem Ready.core_row (hr : Ready s n b) (hp : predBad p = false) (hv : (s.core n).capture.pred p = true) {f : Core → Core}
    (hi : slotRow i = some (n, k, p, op)) (heff : op.eff (rowCtx s n k) (atIssue s n) = writeCore (rowCtx s n k) f (atIssue s n))
    (hf : RegWrite f) (hb : op.bad (rowCtx s n k) s = false := by rfl) (hlen : op.badLength (rowCtx s n k) s = none := by rfl)
    (hranges : ∀ t, op.ranges (rowCtx s n k) t = [] := by intro; rfl) (hhold : op.hold (rowCtx s n k) (atIssue s n) = none := by rfl) :
    Steps i s n f :=
  hr.writes hi hp hv hb hlen hranges hhold hf heff

/-- Entries that a strip does not take stay when the bundle ends. -/
theorem retireStrip_map (c : Core) (l : List RangeReq) {u : EntryUse} (hu : u ≠ .instant) (hc : c.sb = l.map (fun r => r.entry u)) :
    retireStrip c = c :=
  retireStrip_none c (by
    rw [hc]
    intro e he
    obtain ⟨r, -, rfl⟩ := List.mem_map.mp he
    exact hu)

/-- An anchor of an engine that holds nothing is held by group 0 of the first operation. -/
theorem holdAnchor_first (c : Core) (h : c.v = []) (d cls ops : Nat) :
    holdAnchor c d cls ops = { c with d := tput c.d d (dSet (dSet (dSet (dSet (tget 0 c.d d) 84 83 1) 98 85 0) 100 99 cls) 127 101 ops) } := by
  simp [holdAnchor, Core.setD, h]

/-- A vector operation takes the first place of an engine that holds nothing, with the entries of its ranges. -/
theorem Ready.vector_row (hr : Ready s n b) (hp : predBad p = false) (hv : (s.core n).capture.pred p = true) {l : List RangeReq} {g : Core → Core}
    {q : VKind} (hi : slotRow i = some (n, k, p, op)) (hb : op.bad (rowCtx s n k) s = false) (hlen : op.badLength (rowCtx s n k) s = none)
    (hranges : ∀ t, op.ranges (rowCtx s n k) t = l) (hclear : ∀ r ∈ l, rangeFault s n r = none) (hfew : l.length ≤ 32)
    (huse : l ≠ [] → ∀ t, op.use (rowCtx s n k) t = vUse (rowCtx s n k) t) (hhold : op.hold (rowCtx s n k) (atIssue s n) = none)
    (heff : ∀ (t : State) (es : List SbEntry), t.core n = (s.core n).entering es →
      op.eff (rowCtx s n k) t = writeCore (rowCtx s n k) (fun c => enqueueV (g c) q) t)
    {c' : Core} (hrun : c'.run = .running) (ho : c'.lc0.count = 0) (hn : c'.lc1.count = 0) (hs : c'.stepping = false)
    (hvec : c'.v = []) (hnext : c'.vNext = (s.core n).vNext)
    (hg : g ((s.core n).entering (l.map (fun r => r.entry (.vector (s.core n).vNext))))
      = { c' with held := (s.core n).captured.held, sb := l.map (fun r => r.entry (.vector (s.core n).vNext)) }) :
    exec i s = .next (s.setCore n { c'.stepped with v := [{ id := (s.core n).vNext, kind := q }], vNext := (s.core n).vNext + 1
                                                    sb := l.map (fun r => r.entry (.vector (s.core n).vNext)) }) := by
  have hentries : (op.ranges (rowCtx s n k) (atIssue s n)).map (fun r => r.entry (op.use (rowCtx s n k) (atIssue s n)))
      = l.map (fun r => r.entry (.vector (s.core n).vNext)) := by
    rw [hranges]
    by_cases hl : l = []
    · rw [hl, List.map_nil, List.map_nil]
    · rw [huse hl, vUse, rowCtx_node, atIssue_core]
      rfl
  have hslot : issueSlot (atIssue s n) (rowCtx s n k) op
      = s.setCore n (enqueueV { c' with held := (s.core n).captured.held
                                        sb := l.map (fun r => r.entry (.vector (s.core n).vNext)) } q) := by
    rw [issueSlot_enters hr op k, hentries, heff _ _ (State.core_setCore _ _ _), ← hg]
    simp [writeCore, State.modCore]
  have hexec := hr.exec_next hi hp hv hb (addressFault_clear hlen (by rw [hranges]; exact hclear))
    (hr.freeRanges _ op rfl (by rw [hranges]; exact hfew) hhold) hr.reads hslot hrun ho hn hs rfl
  rw [hexec, retireStrip_map _ l (u := .vector (s.core n).vNext) (by simp) rfl]
  simp [enqueueV, Core.stepped, Core.steppedTo, Core.captured, hvec, hnext]

/-! ### Strips -/

/-- The panels of a slot row's strip are read as it issues: its cache operands from the cache, its memory operands from memory. -/
theorem operandBytes_issue {t : State} {es : List SbEntry} (hh : (s.core n).held = none) (hmem : t.mem = s.mem) (hc : t.core n = (s.core n).entering es)
    (pc : BitVec 14) (os : List Operand) (j : Nat) : operandBytes t n pc os j = operandBytes s n pc os j := by
  have hcache : ∀ o len, cacheRead ((s.core n).entering es) n o len = cacheRead (s.core n) n o len := fun _ _ => rfl
  have hdirect : direct (s.core n) = true := by simp [direct, hh]
  have hdirect' : direct ((s.core n).entering es) = true := by simp [direct, Core.entering, Core.captured]
  unfold operandBytes
  rw [hc, hmem]
  simp only [hcache, hdirect, hdirect', if_true]

/-- Operands that do not fail their parity are read without a detection. -/
theorem noteOperands_whole {os : List Operand} (hw : ∀ q ∈ operandStage os, firstBad s.mem q.1 q.2 = none) {t : State} (ht : t.store = s.store)
    (m : Nat) : noteOperands t m os = t := by
  have hfold : ∀ l : List (Nat × Nat), (∀ q ∈ l, firstBad s.mem q.1 q.2 = none) → l.foldl (fun t e => t.noteCore m e.1 e.2) t = t := by
    intro l
    induction l with
    | nil => exact fun _ => rfl
    | cons e l ih =>
      intro h
      rw [List.foldl_cons, noteCore_nothing (h e (by simp)) t ht]
      exact ih fun q hq => h q (by simp [hq])
  unfold noteOperands
  split
  · exact hfold _ hw
  · rfl

/-- What no strip, no token and no vector operation holds, and the headgate does not withhold, begins. -/
theorem stripHold_idle {t : State} {es : List SbEntry} (hc : t.core n = (s.core n).entering es) (hhead : t.head = s.head)
    (hstrip : (s.core n).strip = none) (htok : (s.core n).tokens = []) (hvec : (s.core n).v = []) (hw : withheld s n = false)
    (pc : BitVec 14) (tiles : List Nat) (os : List Operand) : stripHold t n pc tiles os = none := by
  have hgo : withheld t n = false := by
    unfold withheld at hw ⊢
    rw [hhead]
    exact hw
  have hdirect : direct ((s.core n).entering es) = true := by simp [direct, Core.entering, Core.captured]
  have hfree : ∀ c : Core, c.tokens = [] → c.v = [] → tiles.any (fun t => c.tokens.any (fun k => k.tile.toNat == t) || vTouchesTile c t) = false := by
    intro c h1 h2
    simp [h1, vTouchesTile, h2]
  have hfill : ∀ (c : Core) (rs : List Nat), c.v = [] → fillPending c rs = false := by
    intro c rs h
    simp [fillPending, h]
  unfold stripHold
  simp only [hc, hdirect, hfree ((s.core n).entering es) htok hvec, hfill ((s.core n).entering es) _ hvec,
    show ((s.core n).entering es).strip = none from hstrip, hgo, Option.isSome_none, Bool.not_true, Bool.false_and, Bool.or_self,
    Bool.false_eq_true, if_false]

/-- The entries of a strip retire as it issues. -/
theorem retireStrip_instant (c : Core) (l : List RangeReq) (hc : c.sb = l.map (fun r => r.entry .instant)) : retireStrip c = { c with sb := [] } := by
  have hnone : c.sb.filter (fun e => e.use != .instant) = [] := by
    rw [hc, List.filter_eq_nil_iff]
    intro e he
    obtain ⟨r, -, rfl⟩ := List.mem_map.mp he
    simp [RangeReq.entry]
  simp [retireStrip, hnone]

/-- A strip begins on its core, and its entries retire at once. -/
theorem Ready.strip_row (hr : Ready s n b) (hp : predBad p = false) (hv : (s.core n).capture.pred p = true) {l : List RangeReq} {st : StripRun}
    {fmt : Nat} (hi : slotRow i = some (n, k, p, op)) (hb : op.bad (rowCtx s n k) s = false) (hlen : op.badLength (rowCtx s n k) s = none)
    (hranges : ∀ t, op.ranges (rowCtx s n k) t = l) (hclear : ∀ r ∈ l, rangeFault s n r = none) (hfew : l.length ≤ 32)
    (huse : ∀ t, op.use (rowCtx s n k) t = .instant) (hhold : op.hold (rowCtx s n k) (atIssue s n) = none)
    (heff : ∀ (t : State) (es : List SbEntry), t.store = s.store → t.core n = (s.core n).entering es →
      op.eff (rowCtx s n k) t = writeCore (rowCtx s n k) (fun c => { c with strip := some st, lastFmt := some fmt }) t) :
    Steps i s n (fun c => { c with strip := some st, lastFmt := some fmt }) := by
  have hslot : issueSlot (atIssue s n) (rowCtx s n k) op
      = s.setCore n { (s.core n).captured with sb := l.map (fun r => r.entry .instant), strip := some st, lastFmt := some fmt } := by
    rw [issueSlot_enters hr op k, hranges, huse, heff (s.setCore n _) _ rfl (State.core_setCore _ _ _)]
    simp [writeCore, State.modCore, Core.entering]
  have hexec := hr.exec_next hi hp hv hb (addressFault_clear hlen (by rw [hranges]; exact hclear))
    (hr.freeRanges _ op rfl (by rw [hranges]; exact hfew) hhold) hr.reads hslot hr.running hr.outer hr.inner hr.stepping rfl
  unfold Steps
  rw [hexec, retireStrip_instant _ l rfl]
  simp [Core.stepped, Core.steppedTo, Core.captured, hr.entries]

/-- At most two ranges of an MS strip, and four of mmulbs. -/
theorem operandRanges_few (os : List Operand) (h : os.length ≤ 32) : (operandRanges os).length ≤ 32 := by
  unfold operandRanges
  rw [List.length_map]
  exact (List.length_filter_le _ _).trans h

/-- The matrix unit is free, and the headgate does not withhold. -/
structure Idle (s : State) (n : Nat) : Prop where
  strip : (s.core n).strip = none
  tokens : (s.core n).tokens = []
  issue : withheld s n = false

/-- A strip of one core (R237 to R239). -/
theorem Ready.ms_row (hr : Ready s n b) (hp : predBad p = false) (hv : (s.core n).capture.pred p = true) {f : FmtMS} {codes : List Nat}
    {even : Bool} {run : MFmt → Ctx → State → List Byte → List Byte → List (Nat × Tile) × Bool} {m : MFmt}
    (hi : slotRow i = some (n, slotM, p, opStrip f codes even run)) (hm : msFormat f codes = some m) (heven : (even && f.td.toNat % 2 == 1) = false)
    (hidle : Idle s n) (hclear : ∀ r ∈ operandRanges (msOperands (rowCtx s n slotM) f m), rangeFault s n r = none)
    (hw : ∀ q ∈ operandStage (msOperands (rowCtx s n slotM) f m), firstBad s.mem q.1 q.2 = none)
    (hrun : ∀ (t : State) (es : List SbEntry) (pa pb : List Byte), t.core n = (s.core n).entering es →
      run m (rowCtx s n slotM) t pa pb = run m (rowCtx s n slotM) s pa pb) {out : List (Nat × Tile) × Bool}
    (hout : run m (rowCtx s n slotM) s (operandBytes s n (s.core n).pc (msOperands (rowCtx s n slotM) f m) 0)
      (operandBytes s n (s.core n).pc (msOperands (rowCtx s n slotM) f m) 1) = out) :
    Steps i s n (fun c => { c with strip := some ⟨out.1, m.isInt, out.2⟩, lastFmt := some f.fmt.toNat }) := by
  have hlat : (rowCtx s n slotM).lattice = false := by simp [rowCtx, ctxOf, hr.basin, hr.cluster]
  have hhold : (opStrip f codes even run).hold (rowCtx s n slotM) (atIssue s n) = none := by
    have hcore : (atIssue s n).core n = (s.core n).entering (s.core n).sb := atIssue_core s n
    simp only [opStrip, hm]
    exact stripHold_idle hcore rfl hidle.strip hidle.tokens hr.vector hidle.issue _ _ _
  refine hr.strip_row hp hv (l := operandRanges (msOperands (rowCtx s n slotM) f m)) hi ?_ rfl ?_ hclear (operandRanges_few _ (by simp [msOperands]))
    (fun _ => rfl) hhold fun t es hstore hc => ?_
  · simp only [opStrip, hlat, hm, heven, Option.isNone_some, Bool.or_self]
  · intro t
    simp only [opStrip, hm]
  · have hmem : t.mem = s.mem := congrArg Store.mem hstore
    simp only [opStrip, hm, rowCtx_node, rowCtx_pc, noteOperands_whole hw hstore, operandBytes_issue hr.held hmem hc, hrun t es _ _ hc, hout]
    rfl

/-- mmulbs on one core (R235, R272). -/
theorem Ready.mb_row (hr : Ready s n b) (hp : predBad p = false) (hv : (s.core n).capture.pred p = true) {f : FmtMB} {m : MFmt}
    (hi : slotRow i = some (n, slotM, p, opMmulbs f)) (hm : mbFormat f = some m)
    (hidle : Idle s n) (hclear : ∀ r ∈ operandRanges (mbOperands (rowCtx s n slotM) f m), rangeFault s n r = none)
    (hw : ∀ q ∈ operandStage (mbOperands (rowCtx s n slotM) f m), firstBad s.mem q.1 q.2 = none) :
    Steps i s n (fun c => { c with
      strip := some ⟨[(f.td.toNat, scaledStrip m (stripK f.kc) f.acc f.sat f.sfmt f.dirA f.dirB (blockSize f.bs.toNat) ((s.core n).tile f.td.toNat)
        (operandBytes s n (s.core n).pc (mbOperands (rowCtx s n slotM) f m) 0) (operandBytes s n (s.core n).pc (mbOperands (rowCtx s n slotM) f m) 1)
        (operandBytes s n (s.core n).pc (mbOperands (rowCtx s n slotM) f m) 2)
        (operandBytes s n (s.core n).pc (mbOperands (rowCtx s n slotM) f m) 3))], false, false⟩
      lastFmt := some f.fmt.toNat }) := by
  have hlat : (rowCtx s n slotM).lattice = false := by simp [rowCtx, ctxOf, hr.basin, hr.cluster]
  have hhold : (opMmulbs f).hold (rowCtx s n slotM) (atIssue s n) = none := by
    have hcore : (atIssue s n).core n = (s.core n).entering (s.core n).sb := atIssue_core s n
    simp only [opMmulbs, hm]
    exact stripHold_idle hcore rfl hidle.strip hidle.tokens hr.vector hidle.issue _ _ _
  refine hr.strip_row hp hv (l := operandRanges (mbOperands (rowCtx s n slotM) f m)) hi ?_ rfl ?_ hclear (operandRanges_few _ (by simp [mbOperands]))
    (fun _ => rfl) hhold fun t es hstore hc => ?_
  · simp only [opMmulbs, hlat, hm, Option.isNone_some, Bool.or_self]
  · intro t
    simp only [opMmulbs, hm]
  · have hmem : t.mem = s.mem := congrArg Store.mem hstore
    have htile : (t.core n).tile f.td.toNat = (s.core n).tile f.td.toNat := by
      rw [hc]
      rfl
    simp only [opMmulbs, hm, rowCtx_node, rowCtx_pc, noteOperands_whole hw hstore, operandBytes_issue hr.held hmem hc, htile]
    rfl

/-- A row that stores what its registers hold: one wide range written, its entry done. -/
theorem Ready.store_row (hr : Ready s n b) (hp : predBad p = false) (hv : (s.core n).capture.pred p = true) {r : RangeReq} {a : Nat} {bs : List Byte}
    (hi : slotRow i = some (n, k, p, op)) (hb : op.bad (rowCtx s n k) s = false) (hlen : op.badLength (rowCtx s n k) s = none)
    (hranges : ∀ t, op.ranges (rowCtx s n k) t = [r]) (hclear : rangeFault s n r = none) (huse : ∀ t, op.use (rowCtx s n k) t = .done)
    (hhold : op.hold (rowCtx s n k) (atIssue s n) = none)
    (heff : ∀ (t : State) (es : List SbEntry), t.core n = (s.core n).entering es → op.eff (rowCtx s n k) t = t.write a bs) :
    exec i s = .next ((s.write a bs).setCore n ({ s.core n with sb := [r.entry .done] } : Core).stepped) := by
  have hslot : issueSlot (atIssue s n) (rowCtx s n k) op = (s.write a bs).setCore n ((s.core n).entering [r.entry .done]) := by
    rw [issueSlot_enters hr op k, hranges, huse, heff (s.setCore n _) _ (State.core_setCore _ _ _)]
    rfl
  have hexec := hr.exec_next (u := s.write a bs) hi hp hv hb
    (addressFault_clear hlen (by rw [hranges]; intro q hq; rw [List.mem_singleton.mp hq]; exact hclear))
    (hr.freeRanges _ op rfl (by rw [hranges]; simp) hhold) hr.reads hslot hr.running hr.outer hr.inner hr.stepping rfl
  exact hexec

end Rows

/-! ### Loops (R205, R246) -/

/-- The end of a bundle whose loop levels fall through. -/
theorem finishBundle_fallthrough (s : State) (n : Nat) (c : Core) (hr : c.run = .running) (ho : loopEnd c.lc0 c.pc = (c.lc0, none))
    (hi : loopEnd c.lc1 c.pc = (c.lc1, none)) (hs : c.stepping = false) (h0 : c.held.bind (fun x => x.branch) = none) :
    finishBundle (s.setCore n c) n [n] = s.setCore n (retireStrip c).stepped := by
  simp [finishBundle, State.modCore, hr, hs, nextBundle, ho, hi, h0, Core.stepped, Core.steppedTo, retireStrip]

/-- A level whose end lies after the bundle falls through. -/
theorem loopEnd_later (l : LoopReg) {pc : BitVec 14} (h : l.count = 0 ∨ l.stop ≠ pc) : loopEnd l pc = (l, none) := if_pos h

/-- The core after a loop operation at its program counter. -/
def Core.looped (c : Core) (level : Bool) (v : W32) (stop : BitVec 14) : Core :=
  let l : LoopReg := ⟨v, c.pc + 1, stop⟩
  let c1 := c.steppedTo (if v = 0 then stop + 1 else c.pc + 1)
  if level then { c1 with lc1 := l } else { c1 with lc0 := l }

/-- A loop level is set; a count of 0 continues after the end. -/
theorem Ready.loop_row {s : State} {n b : Nat} {i : Instr} {p : Pred} {op : Op} (hr : Ready s n b) (hp : predBad p = false)
    (hv : (s.core n).capture.pred p = true) {level : Bool} {v : W32} {stop : BitVec 14} (hi : slotRow i = some (n, slotH, p, op))
    (hlater : (s.core n).pc.toNat + 1 ≤ stop.toNat) (hb : op.bad (rowCtx s n slotH) s = false)
    (heff : op.eff (rowCtx s n slotH) (atIssue s n) = setLoop (rowCtx s n slotH) level v stop (atIssue s n))
    (hlen : op.badLength (rowCtx s n slotH) s = none := by rfl) (hranges : ∀ t, op.ranges (rowCtx s n slotH) t = [] := by intro; rfl)
    (hhold : op.hold (rowCtx s n slotH) (atIssue s n) = none := by rfl) :
    exec i s = .next (s.setCore n ((s.core n).looped level v stop)) := by
  have hexec := hr.issues hi hp hv hb (addressFault_none s _ hlen (hranges s)) (hr.free _ op rfl (hranges _) hhold)
  have hne : stop ≠ (s.core n).pc := by
    rintro rfl
    omega
  have hslot := (issueSlot_eff s n slotH (op := op) (hranges _)).trans heff
  have hfinish : finishBundle (setLoop (rowCtx s n slotH) level v stop (atIssue s n)) n [n] = s.setCore n ((s.core n).looped level v stop) := by
    rw [setLoop, writeCore, rowCtx_node, atIssue_modCore, rowCtx_pc]
    by_cases hz : v = 0
    · cases level
      · simp only [hz, if_true, if_false, Bool.false_eq_true]
        rw [finishBundle_branch s n _ (stop + 1)]
        · simp [Core.looped, Core.steppedTo, Core.captured, retireStrip, hr.entries]
        · exact hr.running
        · exact hr.stepping
        · rfl
      · simp only [hz, if_true]
        rw [finishBundle_branch s n _ (stop + 1)]
        · simp [Core.looped, Core.steppedTo, Core.captured, retireStrip, hr.entries]
        · exact hr.running
        · exact hr.stepping
        · rfl
    · cases level
      · simp only [hz, if_false, Bool.false_eq_true]
        rw [finishBundle_fallthrough s n _]
        · simp [Core.looped, Core.stepped, Core.steppedTo, Core.captured, retireStrip, hr.entries, show ¬v = 0#32 from hz]
        · exact hr.running
        · exact loopEnd_later _ (.inr hne)
        · exact loopEnd_later _ (.inl hr.inner)
        · exact hr.stepping
        · rfl
      · simp only [hz, if_false, if_true]
        rw [finishBundle_fallthrough s n _]
        · simp [Core.looped, Core.stepped, Core.steppedTo, Core.captured, retireStrip, hr.entries, show ¬v = 0#32 from hz]
        · exact hr.running
        · exact loopEnd_later _ (.inl hr.outer)
        · exact loopEnd_later _ (.inr hne)
        · exact hr.stepping
        · rfl
  refine hexec.trans ?_
  rw [show issueSlot (atIssue s n) (ctxOf s n n slotH (s.core n).capture (s.core n).pc) op = _ from hslot, hfinish,
    settleReads_none (s.setCore n _) hr.reads]

/-! ### A change of phase (R246, R495) -/

/-- The requested point is a matter of what runs, in which phase, and of the preferences in force. -/
theorem requestedPoint_congr {s t : State} (hd : t.die = s.die) (hp : t.head.pace = s.head.pace) : requestedPoint t = requestedPoint s := by
  simp only [requestedPoint, corePreference, basinOf, State.basin, State.core, hd, hp]
  rfl

theorem requestedPoint_setCore (s : State) (n : Nat) {c : Core} (hrun : c.run = (s.core n).run) (hphase : c.phase = (s.core n).phase) :
    requestedPoint (s.setCore n c) = requestedPoint s := by
  have hcore : ∀ m, ((s.setCore n c).core m).run = (s.core m).run ∧ ((s.setCore n c).core m).phase = (s.core m).phase := by
    intro m
    by_cases hm : m = n
    · subst hm
      rw [State.core_setCore]
      exact ⟨hrun, hphase⟩
    · rw [State.core_setCore_ne _ hm]
      exact ⟨rfl, rfl⟩
  have hpref : ∀ m, corePreference (s.setCore n c) m = corePreference s m := by
    intro m
    have hbasin : basinOf (s.setCore n c) m = basinOf s m := rfl
    have hrec : ∀ b, (s.setCore n c).basin b = s.basin b := fun _ => rfl
    simp only [corePreference, hbasin, hrec, (hcore m).2]
  simp only [requestedPoint, (hcore _).1, hpref, State.setCore_head]

/-- The choice of the operating point at the requested point `q`, once the reasons are up to date. -/
def choosePoint (q : Nat) (s : State) : State :=
  if !loops s || s.head.change.isSome || stopped s then s
  else if s.head.op < min q (min s.head.thermCeil s.head.capCeil) then
    if s.head.holdoff ≠ 0 then s
    else sendVddReq (modHead s (fun h => { h with change := some ⟨min q (min s.head.thermCeil s.head.capCeil), true, false, false, false⟩ }))
      (min q (min s.head.thermCeil s.head.capCeil))
  else if min q (min s.head.thermCeil s.head.capCeil) < s.head.op then
    modHead s (fun h => { h with change := some ⟨min q (min s.head.thermCeil s.head.capCeil), false, false, false, false⟩ })
  else s

/-- The reasons that depend on the requested point `q`. -/
def reasonsAt (q : Nat) (h : Head) : Head :=
  setReason (setReason h trCap (h.capCeil < q || h.share < 1)) trThermal (h.thermCeil < q || h.thermal.any (fun e => e.2 < 16))

theorem evalPoint_at (s : State) : evalPoint s = choosePoint (requestedPoint s) (modHead s (reasonsAt (requestedPoint s))) := by
  have hsame : requestedPoint (pointReasons s) = requestedPoint s := requestedPoint_congr rfl rfl
  unfold evalPoint chosenPoint
  simp only [hsame]
  rfl

/-- Apart from the requested point, a core has no part in the evaluation. -/
theorem choosePoint_setCore (q : Nat) (s : State) (n : Nat) (c : Core) : choosePoint q (s.setCore n c) = (choosePoint q s).setCore n c := by
  unfold choosePoint
  simp only [apply_ite (State.setCore · n c)]
  rfl

theorem evalPoint_setCore (s : State) (n : Nat) {c : Core} (hrun : c.run = (s.core n).run) (hphase : c.phase = (s.core n).phase) :
    evalPoint (s.setCore n c) = (evalPoint s).setCore n c := by
  rw [evalPoint_at, evalPoint_at, requestedPoint_setCore s n hrun hphase,
    ← choosePoint_setCore]
  rfl

/-- A change of phase: the preferences of the basin come into force, and the operating point is evaluated. -/
theorem Ready.phase_row {s : State} {n : Fin 64} {b : Nat} {p : Pred} (hr : Ready s n b) (hp : predBad p = false)
    (hv : (s.core n).capture.pred p = true) (ph : BitVec 2) :
    exec (.phase n p ph) s = .next (evalPoint ((s.setCore n ({ s.core n with phase := ph } : Core).stepped).modBasin b
      (fun v => { v with preferNow := v.prefer }))) := by
  obtain ⟨c1, hc1⟩ : ∃ c : Core, c = { (s.core n).captured with phase := ph } := ⟨_, rfl⟩
  obtain ⟨u, hu⟩ : ∃ u : State, u = (s.modBasin b (fun v => { v with preferNow := v.prefer })).setCore n c1 := ⟨_, rfl⟩
  have hcore : u.core n = c1 := by rw [hu, State.core_setCore]
  have hself : evalPoint u = (evalPoint u).setCore n c1 := by
    rw [← evalPoint_setCore u n (by rw [hcore]) (by rw [hcore]), hu, State.setCore_setCore]
  have hslot : issueSlot (atIssue s n) (rowCtx s n slotH) (opPhase ph) = (evalPoint u).setCore n c1 := by
    rw [issueSlot_eff s n slotH rfl, ← hself, hu, hc1]
    simp only [opPhase, rowCtx_node, show basinOf (atIssue s n) n = some b from hr.basin, writeCore, atIssue_modCore]
    rfl
  have hfound : (evalPoint u).store.found = [] := by
    obtain ⟨-, -, -, -, hstore, -⟩ := evalPoint_frame u
    rw [hstore, hu]
    exact hr.reads
  have hexec := hr.exec_next (i := .phase n p ph) rfl hp hv rfl (addressFault_none s _ rfl rfl) (hr.free _ (opPhase ph) rfl rfl rfl) hfound hslot
    (by rw [hc1]; exact hr.running) (by rw [hc1]; exact hr.outer) (by rw [hc1]; exact hr.inner) (by rw [hc1]; exact hr.stepping) (by rw [hc1]; rfl)
  have hend : (retireStrip c1).stepped = ({ s.core n with phase := ph } : Core).stepped := by
    rw [hc1]
    simp [retireStrip, Core.stepped, Core.steppedTo, Core.captured, hr.entries]
  rw [hexec, hend, ← evalPoint_setCore u n (by rw [hcore, hc1]; rfl) (by rw [hcore, hc1]; rfl), hu, State.setCore_setCore]
  rfl

/-! ### The end of a core's program (R246, R455) -/

theorem deliver_lives (s : State) (w : Waiter) (v : W64) : (deliver s w v).die.lives = s.die.lives := by
  unfold deliver
  split
  · rfl
  · exact congrArg Die.lives (Sending.send _ _).die

theorem orphan_lives (s : State) (g : Nat) : (orphan s g).die.lives = s.die.lives := by
  unfold orphan
  dsimp only
  split
  · rfl
  · unfold grantNext
    dsimp only
    split
    · exact (deliver_lives _ _ _).trans rfl
    · rfl

/-- The end of a life raises its number by one. -/
theorem endLife_life (s : State) (n : Nat) : (endLife s n).1.life (s.logical n) = s.life (s.logical n) + 1 := by
  have hfold : ∀ (l : List Nat) (t : State), (l.foldl orphan t).die.lives = t.die.lives := by
    intro l
    induction l with
    | nil => exact fun _ => rfl
    | cons g l ih =>
      intro t
      rw [List.foldl_cons, ih, orphan_lives]
  unfold endLife
  dsimp only [orphanAll, State.life]
  rw [hfold, tget_tput_same]

/-- The bundle of a core that runs no more, with nothing in flight, leaves it as it is. -/
theorem finishBundle_ended (t : State) (n : Nat) (c : Core) (hc : t.core n = c) (hrun : c.run ≠ .running) (hsb : c.sb = []) (hh : c.held = none)
    (hg : c.staged = []) : finishBundle t n [n] = t.setCore n c := by
  have hsame : { retireStrip c with held := none, staged := [] } = c := by
    cases c
    simp_all [retireStrip]
  simp only [finishBundle, State.modCore, hc, List.foldl_cons, List.foldl_nil, State.core_setCore, State.setCore_setCore]
  exact (if_neg (show ¬(retireStrip c).run = .running from hrun)).trans (congrArg (t.setCore n) hsame)

/-- The core that end leaves. -/
def Core.idled (c : Core) : Core := { cache := c.cache, ibuf := c.ibuf, stalls := c.stalls, vNext := c.vNext }

/-- end leaves the core idle without state, and its life over. -/
theorem Ready.end_row {s : State} {n : Fin 64} {b : Nat} {p : Pred} (hr : Ready s n b) (hp : predBad p = false)
    (hv : (s.core n).capture.pred p = true) (hstrip : (s.core n).strip = none) :
    Completes (.endOp n p) s (fun t => t.store = s.store ∧ t.life (s.logical n) = s.life (s.logical n) + 1
      ∧ t.core n = (s.core n).idled) := by
  have hquiet : quiet (s.core n).captured = true := by
    simp [quiet, Core.captured, hr.entries, hr.gops, hr.summaries, hstrip, hr.vector]
  have hhold : opEnd.hold (rowCtx s n slotH) (atIssue s n) = none := by
    simp only [opEnd, rowCtx_node, atIssue_core, hquiet, if_true]
  have hexec := hr.issues (i := .endOp n p) rfl hp hv rfl (addressFault_none s _ rfl rfl) (hr.free _ opEnd rfl rfl hhold)
  have hidle : (atIssue s n).modCore n Core.idled = s.setCore n (s.core n).idled := atIssue_modCore s n _
  obtain ⟨u, hu⟩ : ∃ u : State, u = (endLife (s.setCore n (s.core n).idled) n).1 := ⟨_, rfl⟩
  have hslot : issueSlot (atIssue s n) (rowCtx s n slotH) opEnd = leaveStep u b n := by
    rw [issueSlot_eff s n slotH rfl]
    simp only [opEnd, rowCtx_node, show basinOf (atIssue s n) n = some b from hr.basin, idleCore]
    rw [hu, ← hidle]
    rfl
  have hrel : Relaying (s.setCore n (s.core n).idled) u := hu ▸ Relaying.endLife _ n
  have hlife : u.life (s.logical n) = s.life (s.logical n) + 1 := hu ▸ endLife_life (s.setCore n (s.core n).idled) n
  have hcore : u.core n = (s.core n).idled := by
    obtain ⟨l, hl, hnil⟩ := hrel.core n
    rw [State.core_setCore] at hl hnil
    rw [hl, hnil rfl]
    rfl
  have hfinish : finishBundle (leaveStep u b n) n [n] = (leaveStep u b n).setCore n (s.core n).idled :=
    finishBundle_ended (leaveStep u b n) n _ hcore (by simp [Core.idled]) rfl rfl rfl
  have hstore : u.store = s.store := hrel.store
  refine ⟨(leaveStep u b n).setCore n (s.core n).idled, ?_, hstore, hlife, State.core_setCore _ _ _⟩
  refine hexec.trans ?_
  rw [show issueSlot (atIssue s n) (ctxOf s n n slotH (s.core n).capture (s.core n).pc) opEnd = _ from hslot, hfinish,
    settleReads_none ((leaveStep u b n).setCore n _) ((congrArg Store.found hstore).trans hr.reads)]

end Sys2Proof.Machine
end

section
/-! PROOFS. The rows of the D slot on one ready core (R242 to R245, R332, R448 to R454). -/

namespace Sys2Proof.Machine

/-! ### Gates of this chiplet -/

/-- From `u` to `v` gate `g` has become `k` and nothing else has changed. -/
structure GateSet (u v : State) (g : Nat) (k : Gate) : Prop where
  rest : v = { u with gateUnit := v.gateUnit }
  gate : v.gate g = k
  others : ∀ j, j ≠ g → v.gate j = u.gate j

theorem GateSet.same (u : State) (g : Nat) : GateSet u u g (u.gate g) := ⟨rfl, rfl, fun _ _ => rfl⟩

theorem GateSet.setGate (u : State) (g : Nat) (k : Gate) : GateSet u (u.setGate g k) g k :=
  ⟨rfl, tget_tput_same _ _ _ _, fun _ hj => tget_tput_ne _ _ hj _⟩

theorem GateSet.trans {u v w : State} {g : Nat} {k l : Gate} (h : GateSet u v g k) (h2 : GateSet v w g l) : GateSet u w g l where
  rest := by
    rw [h2.rest, h.rest]
  gate := h2.gate
  others := fun j hj => (h2.others j hj).trans (h.others j hj)

/-- Where nothing waits, nothing is woken. -/
theorem GateSet.wake {u : State} {g : Nat} (h : (u.gate g).waiters = []) (q : Waiter → Bool) (word : Waiter → W64) :
    GateSet u (wake u g q word) g (u.gate g) :=
  (wake_none h q word).symm ▸ .setGate u g (u.gate g)

/-- Where nothing waits, no one is granted the lock. -/
theorem grantNext_nothing (u : State) (g : Nat) (h : (u.gate g).waiters = []) : grantNext u g = u := by
  unfold grantNext
  dsimp only
  rw [h]
  split
  · simp_all
  · rfl

/-- The state in which an operation of core `n` reaches its gate, apart from its basins' marks. -/
structure AtGate (s u : State) (n : Nat) (o : GateOp) : Prop where
  gates : u.gateUnit.gates = s.gateUnit.gates
  store : u.store = s.store
  time : u.time = s.time
  fabric : u.fabric = s.fabric
  core : u.core n = { (s.core n).captured with gops := [o] }
  tenant : ∀ b, (u.basin b).tenant = (s.basin b).tenant

theorem markExternal_tenant (u : State) (b c : Nat) : ((markExternal u b).basin c).tenant = (u.basin c).tenant := by
  unfold markExternal
  by_cases h : c = b
  · subst h
    simp [State.modBasin]
  · rw [State.modBasin, State.basin_setBasin_ne _ h]

theorem AtGate.gate {s u : State} {n : Nat} {o : GateOp} (h : AtGate s u n o) (g : Nat) : u.gate g = s.gate g :=
  congrArg (fun t : Tab Gate => tget ({} : Gate) t g) h.gates

theorem AtGate.markExternal {s u : State} {n : Nat} {o : GateOp} (h : AtGate s u n o) (b : Nat) : AtGate s (markExternal u b) n o :=
  ⟨h.gates, h.store, h.time, h.fabric, h.core, fun c => (markExternal_tenant u b c).trans (h.tenant c)⟩

theorem AtGate.markOwn {s u : State} {n : Nat} {o : GateOp} (h : AtGate s u n o) (m : Nat) : AtGate s (markOwn u m) n o := by
  unfold Machine.markOwn
  split
  · exact h.markExternal _
  · exact h

theorem AtGate.touchGate {s u : State} {n : Nat} {o : GateOp} (h : AtGate s u n o) (g : Nat) (w : Option Nat) :
    AtGate s (touchGate u g w) n o := by
  unfold Machine.touchGate
  split
  · split
    · exact h
    · exact h.markExternal _
  · exact h

/-- The result of an operation whose gate has answered at once reaches it. -/
theorem deliver_own_gops (c : Core) (o : GateOp) (w : W64) :
    (({ c with gops := [o] } : Core).deliver o.tag w none).gops = [{ o with result := some w, due := none }] := by
  simp [Core.deliver]

/-- The operation that a gate row of this chiplet makes. -/
def gateOpHere (s : State) (n b : Nat) (op : Byte) (f : FmtG) : GateOp :=
  { tag := s.gateUnit.tag + 1
    sd := f.sd
    op := op
    gate := f.gate
    fa := s.fa
    remote := false
    sv := (s.core n).getS f.sv.toNat
    acquire := f.acquire
    core := byte (s.logical n)
    life := s.life (s.logical n)
    tenant := (s.basin b).tenant
    since := s.time.elapsed }

/-- The name under which it reaches its gate. -/
def gateWaiter (s : State) (n : Nat) (op : Byte) (f : FmtG) : Waiter :=
  localWaiter s n (s.gateUnit.tag + 1) op ((s.core n).getS f.sv.toNat)

/-- What becomes of a core whose operation has reached its gate. -/
def answerCore (n : Nat) (tag : W32) (r : State × Option W64) : State :=
  match r.2 with
  | some w => r.1.modCore n (fun c => c.deliver tag w none)
  | none => r.1

section
variable {s : State} {n b : Nat} {i : Instr} {p : Pred} {op : Byte} {f : FmtG}

/-- A gate row of this chiplet reaches its gate with its operation outstanding. -/
theorem Ready.issueGate_here (hr : Ready s n b) (hrem : f.rem = false) : ∃ u, AtGate s u n (gateOpHere s n b op f)
    ∧ issueGate f op (rowCtx s n slotD) (atIssue s n)
      = answerCore n (s.gateUnit.tag + 1) (gateOperate u f.gate.toNat op.toNat (gateWaiter s n op f) (some b) (s.basin b).tenant) := by
  have hown : basinOf (atIssue s n) n = some b := hr.basin
  have htenant : tenantOf (atIssue s n) n = (s.basin b).tenant := by
    simp only [tenantOf, hown]
    rfl
  obtain ⟨u0, hu0⟩ : ∃ u0, u0 = (nextTag (atIssue s n)).1 := ⟨_, rfl⟩
  have hcore : ∀ u : State, u = u0 ∨ u = markOwn u0 n → u.core n = (s.core n).captured ∧ u.gateUnit.gates = s.gateUnit.gates
      ∧ u.store = s.store ∧ u.time = s.time ∧ u.fabric = s.fabric ∧ ∀ c, (u.basin c).tenant = (s.basin c).tenant := by
    rintro u (rfl | rfl)
    · rw [hu0]
      exact ⟨atIssue_core s n, rfl, rfl, rfl, rfl, fun _ => rfl⟩
    · rw [hu0, Machine.markOwn, show basinOf (nextTag (atIssue s n)).1 n = some b from hown]
      exact ⟨atIssue_core s n, rfl, rfl, rfl, rfl, markExternal_tenant _ b⟩
  have hat : ∀ u : State, u = u0 ∨ u = markOwn u0 n →
      AtGate s (writeCore (rowCtx s n slotD) (fun c => { c with gops := c.gops ++ [gateOpHere s n b op f] }) u) n (gateOpHere s n b op f) := by
    intro u hu
    obtain ⟨hc, hgates, hstore, htime, hfabric, htenants⟩ := hcore u hu
    refine ⟨hgates, hstore, htime, hfabric, ?_, htenants⟩
    simp [writeCore, State.modCore, hc, show (s.core n).captured.gops = [] from hr.gops]
  refine ⟨_, hat (if ((atIssue s n).gate f.gate.toNat).basin.isNone || ((atIssue s n).gate f.gate.toNat).basin != some b then markOwn u0 n else u0)
    (by split <;> simp), ?_⟩
  unfold issueGate
  simp only [hrem, Bool.false_eq_true, if_false, bne_self_eq_false, Bool.false_and, nextTag, srcD, hr.readS_getS, rowCtx_snap, rowCtx_node, hown, htenant]
  rw [hu0]
  rfl

/-- The end of a bundle without branch, off the end of every loop, whatever else has changed. -/
theorem finishBundle_core {t : State} {c : Core} (hc : t.core n = c) (hrun : c.run = .running) (ho : c.lc0.count = 0) (hi : c.lc1.count = 0)
    (hs : c.stepping = false) (h0 : c.held.bind (fun x => x.branch) = none) : finishBundle t n [n] = t.setCore n (retireStrip c).stepped := by
  simp [finishBundle, State.modCore, hc, hrun, hs, nextBundle, loopEnd, ho, hi, h0, Core.stepped, Core.steppedTo, retireStrip]

/-- A slot that leaves the running core `c`, outside loops and without a branch, leaves it one bundle further. -/
theorem Ready.exec_core (hr : Ready s n b) {k : Nat} {o : Op} (hi : slotRow i = some (n, k, p, o)) (hp : predBad p = false)
    (hv : (s.core n).capture.pred p = true) (hb : o.bad (rowCtx s n k) s = false) (ha : addressFault s (rowCtx s n k) o = none)
    (hh : slotHold (atIssue s n) (rowCtx s n k) o = none) {t : State} {c : Core} (ht : t.store.found = [])
    (heff : issueSlot (atIssue s n) (rowCtx s n k) o = t) (hc : t.core n = c) (hrun : c.run = .running) (ho : c.lc0.count = 0)
    (hn : c.lc1.count = 0) (hs : c.stepping = false) (hbranch : c.held.bind (fun x => x.branch) = none) :
    exec i s = .next (t.setCore n (retireStrip c).stepped) := by
  have hexec := hr.issues hi hp hv hb ha hh
  rw [show issueSlot (atIssue s n) (ctxOf s n n k (s.core n).capture (s.core n).pc) o = t from heff,
    finishBundle_core hc hrun ho hn hs hbranch, settleReads_none (t.setCore n _) ht] at hexec
  exact hexec

/-- Nothing holds a gate operation of a ready core. -/
theorem Ready.gate_free (hr : Ready s n b) : slotHold (atIssue s n) (rowCtx s n slotD) (opGate op f) = none := by
  refine hr.free _ _ rfl rfl ?_
  simp only [opGate, rowCtx_node, atIssue_core, show (s.core n).captured.gops = [] from hr.gops, show (s.core n).captured.sb = [] from hr.entries]
  simp

/-- A gate row of this chiplet on a ready core: what its gate leaves decides the result. -/
theorem Ready.answered_row (hr : Ready s n b) (hp : predBad p = false) (hv : (s.core n).capture.pred p = true)
    (hi : slotRow i = some (n, slotD, p, opGate op f)) (hrem : f.rem = false) (hsf : f.sf = 0) {k' : Gate} {res : Option W64} {u v : State}
    (hu : AtGate s u n (gateOpHere s n b op f)) (hset : GateSet u v f.gate.toNat k')
    (heff : issueGate f op (rowCtx s n slotD) (atIssue s n) = answerCore n (s.gateUnit.tag + 1) (v, res)) :
    Completes i s (fun t => GateIssued s t n f k' res) := by
  have hbad : (opGate op f).bad (rowCtx s n slotD) s = false := by simp [opGate, hrem, hsf]
  have hvcore : v.core n = { (s.core n).captured with gops := [gateOpHere s n b op f] } := by
    rw [hset.rest]
    exact hu.core
  have hvstore : v.store = s.store := by
    rw [hset.rest]
    exact hu.store
  have hslot : issueSlot (atIssue s n) (rowCtx s n slotD) (opGate op f) = answerCore n (s.gateUnit.tag + 1) (v, res) := by
    rw [issueSlot_eff s n slotD rfl]
    exact heff
  have hothers : ∀ j, j ≠ f.gate.toNat → v.gate j = s.gate j := fun j hj => (hset.others j hj).trans (hu.gate j)
  cases res with
  | some w =>
    have hexec := hr.exec_core hi hp hv hbad (addressFault_none s _ rfl rfl) hr.gate_free
      (t := v.modCore n (fun c => c.deliver (s.gateUnit.tag + 1) w none)) ((congrArg Store.found hvstore).trans hr.reads) hslot
      (State.core_setCore _ _ _) (by rw [hvcore]; exact hr.running) (by rw [hvcore]; exact hr.outer) (by rw [hvcore]; exact hr.inner)
      (by rw [hvcore]; exact hr.stepping) (by rw [hvcore]; rfl)
    refine ⟨_, hexec, hset.gate, hothers, hvstore, ?_⟩
    rw [State.core_setCore, hvcore]
    exact ⟨rfl, rfl, _, deliver_own_gops (s.core n).captured (gateOpHere s n b op f) w, rfl, rfl, rfl, rfl, rfl⟩
  | none =>
    have hexec := hr.exec_core hi hp hv hbad (addressFault_none s _ rfl rfl) hr.gate_free (t := v)
      ((congrArg Store.found hvstore).trans hr.reads) hslot hvcore hr.running hr.outer hr.inner hr.stepping rfl
    refine ⟨_, hexec, hset.gate, hothers, hvstore, ?_⟩
    rw [State.core_setCore]
    exact ⟨rfl, rfl, _, rfl, rfl, rfl, rfl, rfl, rfl⟩

/-- A gate that serves the requester takes the operation. -/
theorem AtGate.serves {u : State} {o : GateOp} (hu : AtGate s u n o) (g : Nat) (own : Option Nat) (x : W16) :
    gateServes u g own x = gateServes s g own x := by
  unfold gateServes
  rw [hu.gate]
  split
  · rfl
  · rw [hu.tenant]

/-- A gate row of this chiplet whose gate serves it. -/
theorem Ready.effect_row (hr : Ready s n b) (hp : predBad p = false) (hv : (s.core n).capture.pred p = true)
    (hi : slotRow i = some (n, slotD, p, opGate op f)) (hrem : f.rem = false) (hsf : f.sf = 0)
    (hserves : gateServes s f.gate.toNat (some b) (s.basin b).tenant = true) {k' : Gate} {res : Option W64}
    (heff : ∀ u : State, AtGate s u n (gateOpHere s n b op f) → ∃ v, GateSet u v f.gate.toNat k'
      ∧ gateEffect u f.gate.toNat op.toNat (gateWaiter s n op f) = (v, res)) :
    Completes i s (fun t => GateIssued s t n f k' res) := by
  obtain ⟨u, hu, heq⟩ := hr.issueGate_here (op := op) hrem
  have hserves' : gateServes u f.gate.toNat (some b) (s.basin b).tenant = true := (hu.serves _ _ _).trans hserves
  obtain ⟨v, hset, hop⟩ := heff _ (hu.touchGate f.gate.toNat (some b))
  exact hr.answered_row hp hv hi hrem hsf (hu.touchGate _ _) hset (heq.trans (congrArg _ ((if_pos hserves').trans hop)))

end

/-! ### The effect of each operation (R242, R243, R450, R459 to R462) -/

section Effects
variable {u : State} {g : Nat} {w : Waiter} {k : Gate}

theorem gateEffect_add (hk : u.gate g = k) (hkind : k.kind = .counter) : gateEffect u g 0 w
    = (wakeCounter (u.setGate g { k with value := BitVec.ofNat 64 ((k.value.toNat + w.sv.toNat) % 2 ^ 63) }) g, some k.value) := by
  simp only [gateEffect, hk, hkind]

theorem gateEffect_wait (hk : u.gate g = k) (hkind : k.kind = .counter) : gateEffect u g 1 w
    = if bits w.sv.toNat 62 0 ≤ k.value.toNat then (u, some k.value) else (u.setGate g { k with waiters := k.waiters ++ [w] }, none) := by
  simp only [gateEffect, hk, hkind]

theorem gateEffect_lock (hk : u.gate g = k) (hkind : k.kind = .lock) : gateEffect u g 2 w
    = if k.holder.isSome then (u.setGate g { k with waiters := k.waiters ++ [w] }, none)
      else (u.setGate g (grantLock u.time.count k w).1, some (grantLock u.time.count k w).2) := by
  simp only [gateEffect, hk, hkind]

theorem gateEffect_try (hk : u.gate g = k) (hkind : k.kind = .lock) : gateEffect u g 3 w
    = if k.holder.isSome then (u, some (holderWord gsBusy k))
      else (u.setGate g (grantLock u.time.count k w).1, some (grantLock u.time.count k w).2) := by
  simp only [gateEffect, hk, hkind]

theorem gateEffect_unlock (hk : u.gate g = k) (hkind : k.kind = .lock) : gateEffect u g 4 w
    = if heldBy k w then (grantNext (u.setGate g { k with holder := none }) g, some (plainStatus gsOk)) else (u, some (holderWord gsNotOwner k)) := by
  simp only [gateEffect, hk, hkind]

theorem gateEffect_clean (hk : u.gate g = k) (hkind : k.kind = .lock) : gateEffect u g 5 w
    = if heldBy k w then
        match k.dead with
        | some d => if d.epoch = BitVec.ofNat 32 w.sv.toNat then (u.setGate g { k with dead := none }, some (holderWord gsOk k))
          else (u, some (holderWord gsStale k))
        | none => (u, some (holderWord gsStale k))
      else (u, some (holderWord gsNotOwner k)) := by
  simp only [gateEffect, hk, hkind] <;> rfl

theorem gateEffect_barrier (hk : u.gate g = k) (hkind : k.kind = .barrier) : gateEffect u g 6 w = arriveBarrier u g w := by
  simp only [gateEffect, hk, hkind]

theorem gateEffect_signal (hk : u.gate g = k) (hkind : k.kind = .event) : gateEffect u g 7 w
    = (wake (u.setGate g { k with value := 1 }) g (fun _ => true) (fun _ => plainStatus gsOk), some (plainStatus gsOk)) := by
  simp only [gateEffect, hk, hkind]

theorem gateEffect_await (hk : u.gate g = k) (hkind : k.kind = .event) : gateEffect u g 8 w
    = if k.value = 0 then (u.setGate g { k with waiters := k.waiters ++ [w] }, none) else (u, some (plainStatus gsOk)) := by
  simp only [gateEffect, hk, hkind]

theorem gateEffect_clear (hk : u.gate g = k) (hkind : k.kind = .event) : gateEffect u g 9 w
    = (u.setGate g { k with value := 0 }, some (plainStatus gsOk)) := by
  simp only [gateEffect, hk, hkind]

theorem gateEffect_read_lock (hk : u.gate g = k) (hkind : k.kind = .lock) : gateEffect u g 10 w = (u, some (lockRead k)) := by
  simp only [gateEffect, hk, hkind]

theorem gateEffect_read (hk : u.gate g = k) (hkind : k.kind ≠ .lock) : gateEffect u g 10 w = (u, some k.value) := by
  cases h : k.kind with
  | lock => exact absurd h hkind
  | counter => simp only [gateEffect, hk, h]
  | barrier => simp only [gateEffect, hk, h]
  | event => simp only [gateEffect, hk, h]

theorem gateEffect_add_wrong (hk : u.gate g = k) (hkind : k.kind ≠ .counter) : gateEffect u g 0 w = (u, some (failWord 0 gsWrongKind)) := by
  cases h : k.kind with
  | counter => exact absurd h hkind
  | lock => simp only [gateEffect, hk, h]
  | barrier => simp only [gateEffect, hk, h]
  | event => simp only [gateEffect, hk, h]

theorem gateEffect_lock_wrong (hk : u.gate g = k) (hkind : k.kind ≠ .lock) : gateEffect u g 2 w = (u, some (failWord 2 gsWrongKind)) := by
  cases h : k.kind with
  | lock => exact absurd h hkind
  | counter => simp only [gateEffect, hk, h]
  | barrier => simp only [gateEffect, hk, h]
  | event => simp only [gateEffect, hk, h]

end Effects

/-! ### A gate at which nothing waits -/

section Quiet
variable {s u : State} {n b : Nat} {i : Instr} {p : Pred} {op : Byte} {f : FmtG} {o : GateOp}

/-- The gate has become `k` and then lost no waiter: it is `k`. -/
theorem GateSet.woken (u : State) {g : Nat} {k : Gate} (h : k.waiters = []) (q : Waiter → Bool) (word : Waiter → W64) :
    GateSet u (Machine.wake (u.setGate g k) g q word) g k := by
  have hk : (u.setGate g k).gate g = k := State.gate_setGate _ _ _
  have hw := GateSet.wake (u := u.setGate g k) (g := g) (by rw [hk]; exact h) q word
  rw [hk] at hw
  exact (GateSet.setGate u g k).trans hw

theorem AtGate.same (hu : AtGate s u n o) (g : Nat) : GateSet u u g (s.gate g) := by
  have hsame := GateSet.same u g
  rw [hu.gate] at hsame
  exact hsame

/-- A counter with no waiter takes the sum. -/
theorem GateSet.counted (u : State) {g : Nat} {k : Gate} (h : k.waiters = []) : GateSet u (wakeCounter (u.setGate g k) g) g k :=
  .woken u h _ _

/-- A lock with no waiter that is released is free. -/
theorem GateSet.released (u : State) {g : Nat} {k : Gate} (h : k.waiters = []) : GateSet u (Machine.grantNext (u.setGate g k) g) g k := by
  rw [grantNext_nothing _ _ (by rw [State.gate_setGate]; exact h)]
  exact .setGate u g k

theorem barrierParties_value (x y z : Nat) : barrierParties (barrierValue x y z) = x % 2 ^ 24 := by
  simp only [barrierParties, barrierValue, bits, BitVec.toNat_ofNat]
  omega

theorem barrierGen_value (x y z : Nat) : barrierGen (barrierValue x y z) = z % 2 ^ 16 := by
  simp only [barrierGen, barrierValue, bits, BitVec.toNat_ofNat]
  omega

theorem barrierParties_lt (v : W64) : barrierParties v < 2 ^ 24 := by
  simp only [barrierParties, bits]
  omega

theorem barrierGen_lt (v : W64) : barrierGen v < 2 ^ 16 := by
  simp only [barrierGen, bits]
  omega

/-- The gang of a barrier is named by its basin. -/
theorem barrierGang_setGate {g : Nat} {k : Gate} (hk : k.basin = (u.gate g).basin) : barrierGang (u.setGate g k) g = barrierGang u g := by
  have hfa : (u.setGate g k).fa = u.fa := rfl
  simp only [barrierGang, State.gate_setGate, State.setGate_fabric, hk, hfa]

theorem AtGate.barrierGang (hu : AtGate s u n o) (g : Nat) : barrierGang u g = barrierGang s g := by
  have hfa : u.fa = s.fa := congrArg Fabric.fa hu.fabric
  simp only [Machine.barrierGang, hu.gate, hu.fabric, hfa]

/-- A party that is not the last waits at its barrier. -/
theorem arriveBarrier_waits {g : Nat} {w : Waiter} {k : Gate} (hk : u.gate g = k) (hg : Machine.barrierGang u g = none)
    (h : barrierArrived k.value + 1 < barrierParties k.value) : arriveBarrier u g w
      = (u.setGate g { k with value := barrierValue (barrierParties k.value) (barrierArrived k.value + 1) (barrierGen k.value), waiters := k.waiters ++ [w] },
        none) := by
  have hnot : ¬(barrierParties k.value ≤ barrierArrived k.value + 1) := by omega
  unfold arriveBarrier
  simp only [hk, hnot, false_and, if_false, dueBarrier]
  rw [barrierGang_setGate (by rw [hk]), hg]

/-- The last party of a barrier of no gang releases it. -/
theorem arriveBarrier_releases {g : Nat} {w : Waiter} {k : Gate} (hk : u.gate g = k) (hw : k.waiters = []) (hg : Machine.barrierGang u g = none)
    (h : barrierParties k.value ≤ barrierArrived k.value + 1) : ∃ v,
      GateSet u v g { k with value := barrierValue (barrierParties k.value) 0 (barrierGen k.value + 1) }
      ∧ arriveBarrier u g w = (v, some (plainStatus gsOk)) := by
  have hp := barrierParties_lt k.value
  have hgen : barrierValue (barrierParties k.value) 0 (barrierGen k.value % 2 ^ 16 + 1) = barrierValue (barrierParties k.value) 0 (barrierGen k.value + 1) := by
    rw [Nat.mod_eq_of_lt (barrierGen_lt k.value)]
  have harrive : arriveBarrier u g w = (releaseBarrier (u.setGate g
      { k with value := barrierValue (barrierParties k.value) (barrierArrived k.value + 1) (barrierGen k.value) }) g, some (plainStatus gsOk)) := by
    unfold arriveBarrier
    simp only [hk, h, hg, Option.isNone_none, and_self, if_true]
  refine ⟨_, ?_, harrive⟩
  unfold releaseBarrier
  simp only [State.gate_setGate, barrierParties_value, barrierGen_value, Nat.mod_eq_of_lt hp, hgen]
  rw [State.setGate_setGate]
  refine GateSet.woken u ?_ _ _
  exact hw

end Quiet

end Sys2Proof.Machine
end

section
/-! PROOFS. In-memory operations, posts and remote gate operations of a ready core (R245, R332, R333, R427 to R432, R453). -/

namespace Sys2Proof.Machine

/-! ### Reads that detect nothing -/

theorem foldl_min_isSome (l : List Nat) (r : Option Nat) (h : r.isSome) : (l.foldl (fun r w => some (min w (r.getD w))) r).isSome := by
  induction l generalizing r with
  | nil => exact h
  | cons w l ih => exact ih _ rfl

/-- Nothing fails among the words of `p` exactly where no word of `p` does. -/
theorem Memory.firstFailing_none {m : Memory} {p : Nat → Bool} :
    m.firstFailing p = none ↔ ∀ w ∈ m.flips.map (fun e => e.1), (p w && m.fails w) = false := by
  unfold Memory.firstFailing
  generalize hl : (m.flips.map (fun e => e.1)).filter (fun w => p w && m.fails w) = l
  have hnil : l = [] ↔ ∀ w ∈ m.flips.map (fun e => e.1), (p w && m.fails w) = false := by
    rw [← hl, List.filter_eq_nil_iff]
    simp only [Bool.not_eq_true]
  rw [← hnil]
  cases l with
  | nil => simp
  | cons w l =>
    have hsome := foldl_min_isSome l (some (min w ((none : Option Nat).getD w))) rfl
    constructor
    · intro h
      rw [List.foldl_cons] at h
      rw [h] at hsome
      cases hsome
    · exact fun h => nomatch h

/-- A part of a range that does not fail does not fail. -/
theorem firstBad_part {m : Memory} {a n c k : Nat} (h : firstBad m a n = none) (hlo : a ≤ c) (hhi : c + k ≤ a + n) : firstBad m c k = none := by
  rw [firstBad, Memory.firstFailing_none] at h ⊢
  intro w hw
  have hwhole := h w hw
  by_contra hfails
  rw [Bool.not_eq_false] at hfails
  simp only [Bool.and_eq_true, decide_eq_true_eq] at hfails
  obtain ⟨⟨h1, h2⟩, h3⟩ := hfails
  have hin : (decide (a < w + 4) && decide (w < a + n)) = true := by
    simp only [Bool.and_eq_true, decide_eq_true_eq]
    omega
  rw [hin, h3] at hwhole
  cases hwhole

/-! ### In-memory operations (R332, R333) -/

section
variable {s : State} {n b : Nat} {i : Instr} {p : Pred} {op : Op}

/-- A part enters its slice's queue whatever else the chiplet holds. -/
theorem enterQueue_setCore (s : State) (n : Nat) (c : Core) (k : Nat) (q : MemPart) :
    enterQueue (s.setCore n c) k q = (enterQueue s k q).setCore n c := rfl

theorem foldl_enterQueue_setCore (n : Nat) (c : Core) (l : List (Nat × MemPart)) : ∀ s : State,
    l.foldl (fun t p => enterQueue t p.1 p.2) (s.setCore n c) = (l.foldl (fun t p => enterQueue t p.1 p.2) s).setCore n c := by
  induction l with
  | nil => exact fun _ => rfl
  | cons q l ih =>
    intro s
    rw [List.foldl_cons, List.foldl_cons, enterQueue_setCore, ih]

theorem startMemOp_setCore (s : State) (n m : Nat) (c : Core) (dst src len : Nat) (l : List (Nat × MemPart)) :
    startMemOp (s.setCore n c) m dst src len l = (startMemOp s m dst src len l).setCore n c := by
  unfold startMemOp
  rw [foldl_enterQueue_setCore]
  rfl

theorem startMemOp_found (s : State) (m dst src len : Nat) (l : List (Nat × MemPart)) :
    (startMemOp s m dst src len l).store.found = s.store.found := by
  have hfold : ∀ (l : List (Nat × MemPart)) (s : State), (l.foldl (fun t p => enterQueue t p.1 p.2) s).store.found = s.store.found := by
    intro l
    induction l with
    | nil => exact fun _ => rfl
    | cons q l ih =>
      intro s
      rw [List.foldl_cons, ih]
      rfl
  exact hfold l s

/-- With nothing queued no slice's queue is full. -/
theorem queueFull_empty {t : State} (h : t.store.queues = []) (a len : Nat) : queueFull t a len = false := by
  simp [queueFull, sliceQueue, h, tget]

/-- An in-memory operation of a ready core enters its slices' queues, with its entries. -/
theorem Ready.memory_row (hr : Ready s n b) (hp : predBad p = false) (hv : (s.core n).capture.pred p = true) {l : List RangeReq}
    {dst src len : Nat} {parts : List (Nat × MemPart)} (hi : slotRow i = some (n, slotD, p, op)) (hb : op.bad (rowCtx s n slotD) s = false)
    (hlen : op.badLength (rowCtx s n slotD) s = none) (hranges : ∀ t, op.ranges (rowCtx s n slotD) t = l)
    (hclear : ∀ q ∈ l, rangeFault s n q = none) (hfew : l.length ≤ 32) (huse : op.use (rowCtx s n slotD) (atIssue s n) = .memory s.store.nextOp)
    (hhold : op.hold (rowCtx s n slotD) (atIssue s n) = none)
    (heff : ∀ c, op.eff (rowCtx s n slotD) (s.setCore n c) = startMemOp (s.setCore n c) n dst src len parts) :
    exec i s = .next ((startMemOp s n dst src len parts).setCore n
      ({ s.core n with sb := l.map (fun q => q.entry (.memory s.store.nextOp)) } : Core).stepped) := by
  have hslot : issueSlot (atIssue s n) (rowCtx s n slotD) op
      = (startMemOp s n dst src len parts).setCore n ((s.core n).entering (l.map (fun q => q.entry (.memory s.store.nextOp)))) := by
    rw [issueSlot_enters hr op slotD, hranges, huse, heff, startMemOp_setCore]
  have hexec := hr.exec_next (u := startMemOp s n dst src len parts) hi hp hv hb (addressFault_clear hlen (by rw [hranges]; exact hclear))
    (hr.freeRanges _ op rfl (by rw [hranges]; exact hfew) hhold) ((startMemOp_found _ _ _ _ _ _).trans hr.reads) hslot hr.running hr.outer hr.inner
    hr.stepping rfl
  rw [hexec, retireStrip_map _ l (u := .memory s.store.nextOp) (by simp) rfl]
  rfl

end

/-! ### Gates of other chiplets (R453) -/

section
variable {s : State} {n b : Nat} {i : Instr} {p : Pred} {op : Byte} {f : FmtG}

/-- A gate operation on another chiplet in reach leaves as a packet, outstanding with no result. -/
theorem Ready.remote_row (hr : Ready s n b) (hp : predBad p = false) (hv : (s.core n).capture.pred p = true)
    (hi : slotRow i = some (n, slotD, p, opGate op f)) (hrem : f.rem = true) {fa : W16} (hfa : ((s.core n).getS f.sf.toNat).setWidth 16 = fa)
    (hne : fa ≠ s.fa) (hreach : Reaches s fa) :
    Completes i s (fun t => t.gateUnit.gates = s.gateUnit.gates
      ∧ (∃ o : GateOp, (t.core n).gops = [o] ∧ o.remote = true ∧ o.fa = fa ∧ o.result = none)
      ∧ Sends s t (gatePacket s fa (s.basin b).tenant op f.gate ((s.core n).getS f.sv.toNat) (byte (s.logical n)) (s.life (s.logical n))
        (s.gateUnit.tag + 1))) := by
  have hown : basinOf (atIssue s n) n = some b := hr.basin
  have htenant : tenantOf (atIssue s n) n = (s.basin b).tenant := by
    simp only [tenantOf, hown]
    rfl
  obtain ⟨u, hu⟩ : ∃ u, u = (nextTag (markExternal (atIssue s n) b)).1 := ⟨_, rfl⟩
  obtain ⟨o, ho⟩ : ∃ o : GateOp, o = { gateOpHere s n b op f with fa := fa, remote := true } := ⟨_, rfl⟩
  obtain ⟨P, hP⟩ : ∃ P, P = gatePacket s fa (s.basin b).tenant op f.gate ((s.core n).getS f.sv.toNat) (byte (s.logical n)) (s.life (s.logical n))
    (s.gateUnit.tag + 1) := ⟨_, rfl⟩
  have hfa' : BitVec.ofNat 16 ((s.core n).getS f.sf.toNat).toNat = fa := hfa
  have hslot : issueSlot (atIssue s n) (rowCtx s n slotD) (opGate op f) = (u.modCore n (fun c => { c with gops := c.gops ++ [o] })).send P := by
    rw [issueSlot_eff s n slotD rfl]
    simp only [opGate]
    unfold issueGate
    simp only [hrem, if_true, srcD, rowCtx_snap, rowCtx_node, hr.readS_getS, hfa', htenant, markOwn, hown, nextTag]
    have hremote : (fa != (atIssue s n).fa) = true := bne_iff_ne.mpr hne
    have hin : reachable (atIssue s n) fa = true := hreach.2
    simp only [hremote, hin, Bool.not_true, Bool.and_false, Bool.false_eq_true, if_false, if_true]
    rw [hu, ho, hP]
    rfl
  obtain ⟨v, hvdef⟩ : ∃ v, v = u.modCore n (fun c => { c with gops := c.gops ++ [o] }) := ⟨_, rfl⟩
  rw [← hvdef] at hslot
  have hsend := Sending.send v P
  have hucore : u.core n = (s.core n).captured := by
    rw [hu]
    exact atIssue_core s n
  have hvcore : v.core n = { (s.core n).captured with gops := [o] } := by
    rw [hvdef, State.modCore, State.core_setCore, hucore]
    simp [show (s.core n).captured.gops = [] from hr.gops]
  have hcore : (v.send P).core n = { (s.core n).captured with gops := [o] } := by
    rw [State.core, hsend.die]
    exact hvcore
  have hstore : (v.send P).store = s.store := by
    rw [hsend.store, hvdef, hu]
    rfl
  have hbad : (opGate op f).bad (rowCtx s n slotD) s = false := by simp [opGate, hrem]
  have hexec := hr.exec_core hi hp hv hbad (addressFault_none s _ rfl rfl) hr.gate_free ((congrArg Store.found hstore).trans hr.reads) hslot hcore
    hr.running hr.outer hr.inner hr.stepping rfl
  refine ⟨_, hexec, ?_, ⟨o, by rw [State.core_setCore]; rfl, by rw [ho], by rw [ho], by rw [ho]; rfl⟩, ?_⟩
  · rw [State.setCore_gateUnit, hsend.gateUnit, hvdef, hu]
    rfl
  · have hsent : v.sent = s.sent := by
      rw [hvdef, hu]
      rfl
    have hreaches : Reaches v P.hdr.dst := by
      rw [hvdef, hu, hP]
      exact hreach
    rw [← hP]
    obtain ⟨l, hl⟩ := sends_send hreaches
    exact ⟨l, by rw [State.setCore_sent, hl, hsent]⟩

end

/-! ### The start of a transfer (R427 to R432) -/

section
variable {s : State} {c : Nat} {t t0 : Transfer}

/-- The bytes that enter the buffer next detect nothing: nothing else happens as they are read. -/
theorem loadBuffer_whole (h : ∀ k ∈ toLoad t, firstBad s.mem (t.laddr + t.unit * k) (t.bytesOf k) = none) : (loadBuffer s t).1 = s := by
  have hfold : ∀ l : List Nat, (∀ k ∈ l, firstBad s.mem (t.laddr + t.unit * k) (t.bytesOf k) = none) →
      l.foldl (fun u k => u.noteRead (if t.node.isSome then some t.basin else none) (if t.node.isSome then 0 else 3)
        (t.laddr + t.unit * k) (t.bytesOf k)) s = s := by
    intro l
    induction l with
    | nil => exact fun _ => rfl
    | cons k l ih =>
      intro h
      have hk : s.mem.firstFailing (fun w => t.laddr + t.unit * k < w + 4 && w < t.laddr + t.unit * k + t.bytesOf k) = none := h k (by simp)
      rw [List.foldl_cons, State.noteRead, State.note, hk]
      exact ih fun j hj => h j (by simp [hj])
  exact hfold _ fun k hk => h k (List.mem_filter.mp hk).1

theorem Transfer.mem_todo {k : Nat} (h : k ∈ t.todo) : k < t.pkts.length := by
  unfold Transfer.todo at h
  rcases List.mem_append.mp h with h | h
  · have hk := (List.mem_filter.mp h).2
    rw [List.contains_iff_mem] at hk
    exact List.mem_range.mp (List.mem_filter.mp hk).1
  · exact List.mem_range.mp (List.mem_filter.mp (List.mem_filter.mp h).1).1

theorem mem_toLoad {k : Nat} (h : k ∈ toLoad t) : k < t.pkts.length := by
  unfold toLoad at h
  split at h
  · exact Transfer.mem_todo (List.mem_filter.mp (List.mem_of_mem_take h)).1
  · cases h

theorem Transfer.unit_pos (t : Transfer) : 0 < t.unit := by
  unfold Transfer.unit
  split <;> omega

/-- A packet of a transfer lies in its local range. -/
theorem Transfer.packet_within {k : Nat} (h : k < t.packets) : t.unit * k + t.bytesOf k ≤ t.len := by
  have hpos := t.unit_pos
  have hk : t.unit * k ≤ t.len := by
    have hmul : (k + 1) * t.unit ≤ t.len + t.unit - 1 := (Nat.le_div_iff_mul_le hpos).mp h
    have hdist : (k + 1) * t.unit = t.unit * k + t.unit := by rw [Nat.succ_mul, Nat.mul_comm]
    omega
  unfold Transfer.bytesOf
  omega

/-- The packets of a range that does not fail are read without a detection. -/
theorem toLoad_whole (hf : firstBad s.mem t.laddr t.len = none) (hp : t.pkts.length ≤ t.packets) :
    ∀ k ∈ toLoad t, firstBad s.mem (t.laddr + t.unit * k) (t.bytesOf k) = none := by
  intro k hk
  have hin := Transfer.packet_within (Nat.lt_of_lt_of_le (mem_toLoad hk) hp)
  exact firstBad_part hf (by omega) (by omega)

/-- A channel without credits loads its buffer and sends nothing. -/
theorem pump_waits (n : Nat) (hx : (s.chan c).xfer = some t) (hs : t.suspended = false) (hc : t.cause = 0) (hk : t.kind = 0)
    (hcr : t.credits = 0) : pump (n + 1) s c = setXfer (loadBuffer s t).1 c (loadBuffer s t).2 := by
  have hgo : (((loadBuffer s t).2.isAdd || decide (0 < (loadBuffer s t).2.credits)) : Bool) = false := by
    have hadd : (loadBuffer s t).2.isAdd = false := by simp [Transfer.isAdd, loadBuffer, hk]
    have hnone : (loadBuffer s t).2.credits = 0 := hcr
    rw [hadd, hnone]
    rfl
  simp only [pump, hx, hs, hc, bne_self_eq_false, Bool.or_self, Bool.false_eq_true, if_false, hgo, Bool.false_and]
  split <;> rfl

/-- The local read of a transfer over: its core's entry may retire, and nothing else changes. -/
theorem retireDma_frame (s : State) (c : Nat) (node : Option Nat) : (retireDma s c node).store = s.store ∧ (retireDma s c node).dma = s.dma
    ∧ (retireDma s c node).gateUnit = s.gateUnit ∧ (node = none → (retireDma s c node).die = s.die)
    ∧ ∀ m, ∃ sb, (retireDma s c node).core m = { s.core m with sb := sb } := by
  cases node with
  | none => exact ⟨rfl, rfl, rfl, fun _ => rfl, fun _ => ⟨_, rfl⟩⟩
  | some n =>
    refine ⟨rfl, rfl, rfl, nofun, fun m => ?_⟩
    by_cases hm : m = n
    · subst hm
      exact ⟨_, State.core_setCore _ _ _⟩
    · exact ⟨(s.core m).sb, State.core_setCore_ne _ hm _⟩

/-- A transfer as it starts: the next number of its channel, and every packet still to be sent. -/
def startedXfer (s : State) (c : Nat) (t0 : Transfer) : Transfer :=
  { t0 with
    xfer := (s.chan c).number + 1
    pkts := List.replicate ({ t0 with xfer := (s.chan c).number + 1 } : Transfer).packets .todo }

/-- A copy that passes the origin's checks asks for its credits, and waits for them. -/
theorem startTransfer_asks {bad : Bool} (hcause : originCause s (startedXfer s c t0) bad = 0) (hlen : t0.len ≠ 0) (hkind : t0.kind = 0)
    (hs : t0.suspended = false) (hc : t0.cause = 0) (hcr : t0.credits = 0) (hf : firstBad s.mem t0.laddr t0.len = none) :
    ∃ l h, ((startTransfer s c t0 bad).chan c).xfer = some { startedXfer s c t0 with asked := true, full := false, buffer := l, held := h }
      ∧ (startTransfer s c t0 bad).store = s.store ∧ (t0.node = none → (startTransfer s c t0 bad).die = s.die)
      ∧ ∀ m, ∃ sb, (startTransfer s c t0 bad).core m = { s.core m with sb := sb } := by
  obtain ⟨e, he⟩ : ∃ e : Transfer, e = { startedXfer s c t0 with asked := true, full := false } := ⟨_, rfl⟩
  obtain ⟨v, hv⟩ : ∃ v, v = requestCredits (s.setChan c { s.chan c with number := (s.chan c).number + 1, xfer := some (startedXfer s c t0) }) c
    (startedXfer s c t0) := ⟨_, rfl⟩
  have hrun : startTransfer s c t0 bad = run v c := by
    have hadd : (startedXfer s c t0).isAdd = false := by simp [Transfer.isAdd, startedXfer, hkind]
    rw [hv]
    unfold startTransfer
    change (if originCause s (startedXfer s c t0) bad ≠ 0 then _ else if (startedXfer s c t0).len = 0 then _
      else if (startedXfer s c t0).isAdd = true then _ else _) = _
    rw [if_neg (not_not_intro hcause), if_neg (show ¬(startedXfer s c t0).len = 0 from hlen), hadd, if_neg Bool.false_ne_true]
    rfl
  have hsend : Sending (setXfer (s.setChan c { s.chan c with number := (s.chan c).number + 1, xfer := some (startedXfer s c t0) }) c e) v := by
    rw [hv, he]
    exact Sending.control _ _ _ _
  have hx : (v.chan c).xfer = some e := by
    rw [State.chan, hsend.dma_eq]
    exact congrArg Channel.xfer (tget_tput_same _ _ _ _)
  have hstore : v.store = s.store := hsend.store
  have hdie : v.die = s.die := hsend.die
  have hmem : v.mem = s.mem := congrArg Store.mem hstore
  have hpk : e.pkts.length ≤ e.packets := by
    rw [he]
    exact (List.length_replicate (a := PktState.todo)).le
  have hload : (loadBuffer v e).1 = v := loadBuffer_whole (toLoad_whole (by rw [hmem, he]; exact hf) hpk)
  have hpump : pump (e.pkts.length + 1) v c = setXfer v c (loadBuffer v e).2 := by
    rw [pump_waits _ hx (by rw [he]; exact hs) (by rw [he]; exact hc) (by rw [he]; exact hkind) (by rw [he]; exact hcr), hload]
  have hgo : run v c = if (loadBuffer v e).2.toRemote && loadedAll (loadBuffer v e).2
      then retireDma (setXfer v c (loadBuffer v e).2) c (loadBuffer v e).2.node else setXfer v c (loadBuffer v e).2 := by
    unfold run
    simp only [hx, hpump, setXfer, State.chan_setChan]
  obtain ⟨l, h, hbuf⟩ : ∃ l h, (loadBuffer v e).2 = { startedXfer s c t0 with asked := true, full := false, buffer := l, held := h } := by
    rw [he]
    exact ⟨_, _, rfl⟩
  have hnode : (loadBuffer v e).2.node = t0.node := by rw [hbuf]; rfl
  obtain ⟨hrstore, hrdma, -, hrdie, hrcore⟩ := retireDma_frame (setXfer v c (loadBuffer v e).2) c (loadBuffer v e).2.node
  have hchan : ((setXfer v c (loadBuffer v e).2).chan c).xfer = some (loadBuffer v e).2 := congrArg Channel.xfer (State.chan_setChan _ _ _)
  have hcores : ∀ m, (setXfer v c (loadBuffer v e).2).core m = s.core m := fun m => congrArg (fun d : Die => tget ({} : Core) d.cores m) hdie
  refine ⟨l, h, ?_⟩
  rw [hrun, hgo, ← hbuf]
  split
  · refine ⟨?_, hrstore.trans hstore, fun hn => (hrdie (hnode.trans hn)).trans hdie, fun m => ?_⟩
    · rw [State.chan, hrdma]
      exact hchan
    · obtain ⟨sb, hsb⟩ := hrcore m
      exact ⟨sb, hsb.trans (by rw [hcores])⟩
  · exact ⟨hchan, hstore, fun _ => hdie, fun m => ⟨(s.core m).sb, hcores m⟩⟩

end

/-! ### dpost (R245, R429) -/

section
variable {s : State} {n : Fin 64} {b : Nat} {p : Pred} {ad : BitVec 4} {r3 r2 : BitVec 5} {ch : BitVec 2} {dir : Bool} {g7 : BitVec 7}

/-- The transfer that a dpost starts. -/
def postedXfer (s : State) (n b : Nat) (ad : BitVec 4) (r3 r2 : BitVec 5) (dir : Bool) (g7 : BitVec 7) : Transfer :=
  { node := some n
    basin := b
    tenant := (s.basin b).tenant
    kind := byte (bits ((s.core n).getS (r3 + 1).toNat).toNat 7 0)
    toRemote := !dir
    laddr := (tget 0 (s.core n).a ad.toNat).toNat
    ga := (s.core n).getS r3.toNat
    len := ((s.core n).getS r2.toNat).toNat
    gate := some (s.fa, g7)
    tag := BitVec.ofNat 16 (bits ((s.core n).getS (r3 + 1).toNat).toNat 31 16)
    rank := BitVec.ofNat 32 (bits ((s.core n).getS (r3 + 1).toNat).toNat 47 32)
    count := BitVec.ofNat 32 (bits ((s.core n).getS (r3 + 1).toNat).toNat 63 48 + 1)
    xfer := 0
    pkts := [] }

/-- The state as a dpost begins: a step of its basin that writes to another chiplet has external effects. -/
def postMark (s : State) (b : Nat) (dir : Bool) : State := if dir then s else markExternal s b

theorem markExternal_basin (u : State) (b c : Nat) : ∃ k, (markExternal u b).basin c = { u.basin c with step := k } := by
  unfold markExternal
  by_cases h : c = b
  · subst h
    exact ⟨_, State.basin_setBasin _ _ _⟩
  · exact ⟨(u.basin c).step, State.basin_setBasin_ne _ h _⟩

theorem postMark_basin (u : State) (b c : Nat) (dir : Bool) : ∃ k, (postMark u b dir).basin c = { u.basin c with step := k } := by
  unfold postMark
  split
  · exact ⟨_, rfl⟩
  · exact markExternal_basin u b c

/-- A mark of a step changes the state, rectangle and tenant of no basin. -/
theorem basinOf_postMark (u : State) (m : Nat) : basinOf (postMark u b dir) m = basinOf u m := by
  have hsame : ∀ c, ((postMark u b dir).basin c).state = (u.basin c).state ∧ ((postMark u b dir).basin c).rect = (u.basin c).rect := by
    intro c
    obtain ⟨k, hk⟩ := postMark_basin u b c dir
    rw [hk]
    exact ⟨rfl, rfl⟩
  simp only [basinOf, hsame]

theorem tenantOf_postMark {u : State} (hb : basinOf u n = some b) : tenantOf (postMark u b dir) n = (u.basin b).tenant := by
  obtain ⟨k, hk⟩ := postMark_basin u b b dir
  simp only [tenantOf, basinOf_postMark, hb, hk]

theorem postMark_frame (u : State) (b : Nat) (dir : Bool) : (postMark u b dir).store = u.store ∧ (postMark u b dir).dma = u.dma
    ∧ (postMark u b dir).gateUnit = u.gateUnit ∧ (postMark u b dir).fabric = u.fabric ∧ (postMark u b dir).time = u.time
    ∧ ∀ m, (postMark u b dir).core m = u.core m := by
  unfold postMark
  split <;> exact ⟨rfl, rfl, rfl, rfl, rfl, fun _ => rfl⟩

/-- What a dpost does once its entries are taken. -/
theorem Ready.dpost_eff (hr : Ready s n b) (c : Core) : (opDpost ad r3 r2 ch dir g7).eff (rowCtx s n slotD) (s.setCore n c)
    = if ((s.core n).getS r2.toNat).toNat = 0 then
        gateIncrement (postMark (s.setCore n c) b dir) s.fa g7 b (s.basin b).tenant false 1
      else startTransfer (postMark (s.setCore n c) b dir) (4 * clusterOf n + ch.toNat) (postedXfer s n b ad r3 r2 dir g7)
        (wordBad ((s.core n).getS (r3 + 1).toNat) dir) := by
  have hown : basinOf (s.setCore n c) n = some b := hr.basin
  have htenant : tenantOf (postMark (s.setCore n c) b dir) n = (s.basin b).tenant := tenantOf_postMark hown
  have hfa : (postMark (s.setCore n c) b dir).fa = s.fa := congrArg Fabric.fa (postMark_frame _ _ _).2.2.2.1
  simp only [opDpost, srcD, rowCtx_snap, rowCtx_node, hr.readS_getS, hown, Option.getD_some]
  have hmark : (if dir = true then s.setCore n c else markExternal (s.setCore n c) b) = postMark (s.setCore n c) b dir := rfl
  rw [hmark, htenant, hfa]
  rfl

/-- A control word of which only rank, count and tag are set asks for a copy, and is no bad one. -/
theorem wordBad_low {w : W64} (h : bits w.toNat 15 0 = 0) (toLocal : Bool) : bits w.toNat 7 0 = 0 ∧ wordBad w toLocal = false := by
  have hlow : bits w.toNat 7 0 = 0 := by
    simp only [bits] at h ⊢
    omega
  have hmid : bits w.toNat 15 8 = 0 := by
    simp only [bits] at h ⊢
    omega
  exact ⟨hlow, by simp [wordBad, hlow, hmid]⟩

/-- Where the checks and holds of a post pass, it is issued on a core that its entries `es` have entered. -/
theorem Ready.post_row (hr : Ready s n b) (hp : predBad p = false) (hv : (s.core n).capture.pred p = true) (hr3 : r3 ≠ 31) {l : List RangeReq}
    (hlen : lengthBad ((s.core n).getS r2.toNat).toNat = false)
    (hl : (if ((s.core n).getS r2.toNat).toNat = 0 then [] else [wideRange (tget 0 (s.core n).a ad.toNat) ((s.core n).getS r2.toNat).toNat dir]) = l)
    (hclear : ∀ q ∈ l, rangeFault s n q = none)
    (hidle : ((s.core n).getS r2.toNat).toNat ≠ 0 → (s.chan (4 * clusterOf n + ch.toNat)).xfer = none) {t : State} {sb : List SbEntry}
    (heff : (opDpost ad r3 r2 ch dir g7).eff (rowCtx s n slotD)
      (s.setCore n ((s.core n).entering (l.map (fun q => q.entry (.dma (4 * clusterOf n + ch.toNat)))))) = t)
    (hcore : t.core n = (s.core n).entering sb) (hstore : t.store = s.store) :
    exec (.dpost n p ad r3 r2 ch dir g7) s = .next (t.setCore n (retireStrip ((s.core n).entering sb)).stepped) := by
  have hsrc : ∀ (u : State) (r : BitVec 5), srcD (rowCtx s n slotD) u r = (s.core n).getS r.toNat := fun u r => by
    simp only [srcD, rowCtx_snap, rowCtx_node, hr.readS_getS]
  have hranges : ∀ u, (opDpost ad r3 r2 ch dir g7).ranges (rowCtx s n slotD) u = l := fun u => by
    rw [← hl]
    simp only [opDpost, hsrc]
    rfl
  have hfew : l.length ≤ 32 := by
    rw [← hl]
    split
    · exact Nat.zero_le _
    · exact Nat.le_of_ble_eq_true rfl
  have hslot : issueSlot (atIssue s n) (rowCtx s n slotD) (opDpost ad r3 r2 ch dir g7) = t := by
    rw [issueSlot_enters hr _ slotD, hranges]
    exact heff
  have hbad : (opDpost ad r3 r2 ch dir g7).badLength (rowCtx s n slotD) s = none := by
    simp only [opDpost, hsrc, hlen, Bool.false_eq_true, if_false]
  have hhold : (opDpost ad r3 r2 ch dir g7).hold (rowCtx s n slotD) (atIssue s n) = none := by
    simp only [opDpost, hsrc]
    refine if_neg fun h => ?_
    have hnone := hidle h.1
    have hsome : (s.chan (4 * clusterOf n + ch.toNat)).xfer.isSome = true := h.2
    rw [hnone] at hsome
    cases hsome
  exact hr.exec_core rfl hp hv (beq_false_of_ne hr3) (addressFault_clear hbad (by rw [hranges]; exact hclear))
    (hr.freeRanges _ _ rfl (by rw [hranges]; exact hfew) hhold) ((congrArg Store.found hstore).trans hr.reads) hslot hcore hr.running hr.outer hr.inner
    hr.stepping rfl

/-- A post of no bytes adds one into its counter and starts no transfer. -/
theorem Ready.empty_post (hr : Ready s n b) (hp : predBad p = false) (hv : (s.core n).capture.pred p = true) (hr3 : r3 ≠ 31)
    (hlen : ((s.core n).getS r2.toNat).toNat = 0) (hkind : (s.gate g7.toNat).kind = .counter) (hwait : (s.gate g7.toNat).waiters = [])
    (hserves : gateServes s g7.toNat (some b) (s.basin b).tenant = true) :
    Completes (.dpost n p ad r3 r2 ch dir g7) s (fun t => (t.gate g7.toNat).value = BitVec.ofNat 64 (((s.gate g7.toNat).value.toNat + 1) % 2 ^ 63)
      ∧ t.dma = s.dma ∧ t.store = s.store ∧ (t.core n).pc = (s.core n).pc + 1) := by
  obtain ⟨u, hu⟩ : ∃ u, u = postMark (s.setCore n ((s.core n).entering [])) b dir := ⟨_, rfl⟩
  obtain ⟨hustore, hudma, hugates, hufabric, -, hucore⟩ := postMark_frame (s.setCore n ((s.core n).entering [])) b dir
  have hubasin : ∀ c, (u.basin c).tenant = (s.basin c).tenant := fun c => by
    obtain ⟨k, hk⟩ := postMark_basin (s.setCore n ((s.core n).entering [])) b c dir
    rw [hu, hk]
    rfl
  rw [← hu] at hustore hudma hugates hufabric hucore
  have hgate : u.gate g7.toNat = s.gate g7.toNat := congrArg (fun x : GateUnit => tget ({} : Gate) x.gates g7.toNat) hugates
  have hfa : u.fa = s.fa := congrArg Fabric.fa hufabric
  have hserves' : gateServes u g7.toNat (some b) (s.basin b).tenant = true := by
    simp only [gateServes, hgate, hubasin] at hserves ⊢
    exact hserves
  obtain ⟨v, hv'⟩ : ∃ v, v = touchGate u g7.toNat (some b) := ⟨_, rfl⟩
  obtain ⟨hvstore, hvdma, hvgates, hvcore⟩ : v.store = u.store ∧ v.dma = u.dma ∧ v.gateUnit = u.gateUnit ∧ ∀ m, v.core m = u.core m := by
    rw [hv']
    unfold touchGate
    split
    · split <;> exact ⟨rfl, rfl, rfl, fun _ => rfl⟩
    · exact ⟨rfl, rfl, rfl, fun _ => rfl⟩
  have hvgate : v.gate g7.toNat = s.gate g7.toNat := (congrArg (fun x : GateUnit => tget ({} : Gate) x.gates g7.toNat) hvgates).trans hgate
  obtain ⟨k, hk⟩ : ∃ k : Gate, k = { s.gate g7.toNat with value := BitVec.ofNat 64 (((s.gate g7.toNat).value.toNat + (1 : W64).toNat) % 2 ^ 63) } :=
    ⟨_, rfl⟩
  have hset := GateSet.counted v (g := g7.toNat) (k := k) (by rw [hk]; exact hwait)
  obtain ⟨t, ht⟩ : ∃ t, t = wakeCounter (v.setGate g7.toNat k) g7.toNat := ⟨_, rfl⟩
  rw [← ht] at hset
  have heff : (opDpost ad r3 r2 ch dir g7).eff (rowCtx s n slotD) (s.setCore n ((s.core n).entering [])) = t := by
    rw [hr.dpost_eff, if_pos hlen, ← hu]
    unfold gateIncrement gateOperate
    simp only [hfa, hserves', Bool.false_eq_true, if_false, if_true]
    rw [← hv', gateEffect_add hvgate hkind, ht, hk]
  have hcore : t.core n = (s.core n).entering [] := by
    rw [hset.rest]
    exact (hvcore n).trans ((hucore n).trans (State.core_setCore _ _ _))
  have hstore : t.store = s.store := by
    rw [hset.rest]
    exact hvstore.trans hustore
  have hdma : t.dma = s.dma := by
    rw [hset.rest]
    exact hvdma.trans hudma
  refine ⟨_, hr.post_row hp hv hr3 (by rw [hlen]; rfl) (if_pos hlen) nofun (fun h => absurd hlen h) heff hcore hstore, ?_, hdma, hstore,
    by rw [State.core_setCore]; rfl⟩
  exact (congrArg Gate.value hset.gate).trans (by rw [hk]; rfl)

/-- A copy whose range is clear starts on its channel, asks for its credits and waits for them. -/
theorem Ready.full_post (hr : Ready s n b) (hp : predBad p = false) (hv : (s.core n).capture.pred p = true) (hr3 : r3 ≠ 31)
    (hbad : lengthBad ((s.core n).getS r2.toNat).toNat = false) (hlen : ((s.core n).getS r2.toNat).toNat ≠ 0)
    (hclear : ∀ q ∈ [wideRange (tget 0 (s.core n).a ad.toNat) ((s.core n).getS r2.toNat).toNat dir], rangeFault s n q = none)
    (hwhole : firstBad s.mem (tget 0 (s.core n).a ad.toNat).toNat ((s.core n).getS r2.toNat).toNat = none)
    (hidle : (s.chan (4 * clusterOf n + ch.toNat)).xfer = none) (hword : bits ((s.core n).getS (r3 + 1).toNat).toNat 15 0 = 0)
    (hreach : reachable s (gaFa ((s.core n).getS r3.toNat)) = true) (hal : gaOffset ((s.core n).getS r3.toNat) % 256 = 0)
    (hsize : gaOffset ((s.core n).getS r3.toNat) + ((s.core n).getS r2.toNat).toNat ≤ 2 ^ 42) :
    Completes (.dpost n p ad r3 r2 ch dir g7) s (fun t => t.store = s.store ∧ (t.core n).pc = (s.core n).pc + 1
      ∧ ∃ e, (t.chan (4 * clusterOf n + ch.toNat)).xfer = some e ∧ e.ga = (s.core n).getS r3.toNat ∧ e.len = ((s.core n).getS r2.toNat).toNat
        ∧ e.laddr = (tget 0 (s.core n).a ad.toNat).toNat ∧ e.toRemote = !dir ∧ e.asked = true ∧ e.credits = 0
        ∧ e.xfer = (s.chan (4 * clusterOf n + ch.toNat)).number + 1 ∧ e.gate = some (s.fa, g7) ∧ ∀ q ∈ e.pkts, q = .todo) := by
  obtain ⟨es, hes⟩ : ∃ es, es = [wideRange (tget 0 (s.core n).a ad.toNat) ((s.core n).getS r2.toNat).toNat dir].map
    (fun q => q.entry (.dma (4 * clusterOf n + ch.toNat))) := ⟨_, rfl⟩
  obtain ⟨u, hu⟩ : ∃ u, u = postMark (s.setCore n ((s.core n).entering es)) b dir := ⟨_, rfl⟩
  obtain ⟨hustore, hudma, -, hufabric, -, hucore⟩ := postMark_frame (b := b) (dir := dir) (s.setCore n ((s.core n).entering es))
  rw [← hu] at hustore hudma hufabric hucore
  obtain ⟨hlow, hgood⟩ := wordBad_low hword dir
  have hchan : u.chan (4 * clusterOf n + ch.toNat) = s.chan (4 * clusterOf n + ch.toNat) :=
    congrArg (fun d : Dma => tget ({} : Channel) d.chans (4 * clusterOf n + ch.toNat)) hudma
  obtain ⟨t0, ht0⟩ : ∃ t0, t0 = postedXfer s n b ad r3 r2 dir g7 := ⟨_, rfl⟩
  have hcause : originCause u (startedXfer u (4 * clusterOf n + ch.toNat) t0) (wordBad ((s.core n).getS (r3 + 1).toNat) dir) = 0 := by
    have hreach' : reachable u (gaFa ((s.core n).getS r3.toNat)) = true := by
      simp only [reachable, State.destEntry, State.fa] at hreach ⊢
      rw [hufabric]
      exact hreach
    have hfits : ¬(gaOffset ((s.core n).getS r3.toNat) % 256 ≠ 0 ∨ 2 ^ 42 < gaOffset ((s.core n).getS r3.toNat) + ((s.core n).getS r2.toNat).toNat) := by
      omega
    rw [hgood, ht0]
    unfold originCause
    simp only [startedXfer, postedXfer, hreach', hfits, Bool.not_true, Bool.false_eq_true, if_false]
  have hmem : u.mem = s.mem := congrArg Store.mem hustore
  obtain ⟨l, h, hx, hstore, -, hcores⟩ := startTransfer_asks hcause (by rw [ht0]; exact hlen)
    (by rw [ht0]; exact congrArg byte hlow) (by rw [ht0]; rfl) (by rw [ht0]; rfl) (by rw [ht0]; rfl) (by rw [hmem, ht0]; exact hwhole)
  obtain ⟨sb, hsb⟩ := hcores n
  have hcore : (startTransfer u (4 * clusterOf n + ch.toNat) t0 (wordBad ((s.core n).getS (r3 + 1).toNat) dir)).core n = (s.core n).entering sb := by
    rw [hsb, hucore, State.core_setCore]
    rfl
  have heff : (opDpost ad r3 r2 ch dir g7).eff (rowCtx s n slotD) (s.setCore n ((s.core n).entering es))
      = startTransfer u (4 * clusterOf n + ch.toNat) t0 (wordBad ((s.core n).getS (r3 + 1).toNat) dir) := by
    rw [hr.dpost_eff, if_neg hlen, hu, ht0]
  refine ⟨_, hr.post_row hp hv hr3 hbad (if_neg hlen) hclear (fun _ => hidle) (by rw [← hes]; exact heff) hcore (hstore.trans hustore), hstore.trans hustore,
    by rw [State.core_setCore]; rfl, _, hx, ?_⟩
  rw [ht0]
  exact ⟨rfl, rfl, rfl, rfl, rfl, rfl, by rw [← hchan]; rfl, rfl, fun q hq => List.eq_of_mem_replicate hq⟩

end

end Sys2Proof.Machine
end

section
/-! PROOFS. A strip of a lattice: its master's predicate leads every core (R288, R289). -/

namespace Sys2Proof.Machine

/-- `t` is `s` with other cores. -/
def CoresOnly (s t : State) : Prop := ∃ cs, t = { s with die := { s.die with cores := cs } }

theorem CoresOnly.refl (s : State) : CoresOnly s s := ⟨s.die.cores, rfl⟩

theorem CoresOnly.trans {s t u : State} (h : CoresOnly s t) (h2 : CoresOnly t u) : CoresOnly s u := by
  obtain ⟨cs, rfl⟩ := h
  obtain ⟨cs2, rfl⟩ := h2
  exact ⟨cs2, rfl⟩

theorem CoresOnly.modCore (s : State) (n : Nat) (f : Core → Core) : CoresOnly s (s.modCore n f) := ⟨_, rfl⟩

theorem State.core_modCore_same (s : State) (n : Nat) (f : Core → Core) : (s.modCore n f).core n = f (s.core n) := State.core_setCore _ _ _

theorem State.core_modCore_ne (s : State) {m n : Nat} (h : m ≠ n) (f : Core → Core) : (s.modCore n f).core m = s.core m := State.core_setCore_ne _ h _

/-- A change of each core of a group, that a second time changes nothing more. -/
theorem foldl_modCore_core (f : Core → Core) (hf : ∀ c, f (f c) = f c) (l : List Nat) (s : State) (j : Nat) :
    (l.foldl (fun t n => t.modCore n f) s).core j = if j ∈ l then f (s.core j) else s.core j := by
  induction l generalizing s with
  | nil => simp
  | cons n l ih =>
    rw [List.foldl_cons, ih]
    by_cases hj : j = n
    · subst hj
      simp [State.core_modCore_same, hf]
    · simp [State.core_modCore_ne _ hj, hj]

theorem foldl_modCore_only (f : Core → Core) (l : List Nat) (s : State) : CoresOnly s (l.foldl (fun t n => t.modCore n f) s) := by
  induction l generalizing s with
  | nil => exact .refl s
  | cons n l ih => exact (CoresOnly.modCore s n f).trans (ih _)

/-- What a strip's issue leaves of a core: its operands, and what its group's bundle is. -/
structure Begun (c d : Core) : Prop where
  tiles : d.t = c.t
  cache : d.cache = c.cache
  staged : d.staged = c.staged
  snap : (match d.held with | some h => h.snap | none => d.capture) = (match c.held with | some h => h.snap | none => c.capture)
  direct : direct d = direct c
  branch : d.held.bind (fun h => h.branch) = c.held.bind (fun h => h.branch)
  run : d.run = c.run
  pc : d.pc = c.pc
  outer : d.lc0 = c.lc0
  inner : d.lc1 = c.lc1
  stepping : d.stepping = c.stepping

theorem Begun.refl (c : Core) : Begun c c := ⟨rfl, rfl, rfl, rfl, rfl, rfl, rfl, rfl, rfl, rfl, rfl⟩

theorem Begun.trans {c d e : Core} (h : Begun c d) (h2 : Begun d e) : Begun c e where
  tiles := h2.tiles.trans h.tiles
  cache := h2.cache.trans h.cache
  staged := h2.staged.trans h.staged
  snap := h2.snap.trans h.snap
  direct := h2.direct.trans h.direct
  branch := h2.branch.trans h.branch
  run := h2.run.trans h.run
  pc := h2.pc.trans h.pc
  outer := h2.outer.trans h.outer
  inner := h2.inner.trans h.inner
  stepping := h2.stepping.trans h.stepping

/-- What is captured at the issue of a slot row is what the core holds. -/
theorem Begun.captured {c : Core} (h : c.held = none) : Begun c c.captured where
  tiles := rfl
  cache := rfl
  staged := rfl
  snap := by rw [h]; rfl
  direct := by simp [Machine.direct, h, Core.captured]
  branch := by rw [h]; rfl
  run := rfl
  pc := rfl
  outer := rfl
  inner := rfl
  stepping := rfl

/-- `t` is `s` with strips begun on some of its cores. -/
structure Leading (s t : State) : Prop where
  only : CoresOnly s t
  cores : ∀ j, Begun (s.core j) (t.core j)

section
variable {s t : State}

theorem Leading.store (h : Leading s t) : t.store = s.store := by
  obtain ⟨cs, rfl⟩ := h.only
  rfl

theorem Leading.head (h : Leading s t) : t.head = s.head := by
  obtain ⟨cs, rfl⟩ := h.only
  rfl

theorem Leading.basin (h : Leading s t) (b : Nat) : t.basin b = s.basin b := by
  obtain ⟨cs, rfl⟩ := h.only
  rfl

theorem Leading.basinOf (h : Leading s t) (n : Nat) : Machine.basinOf t n = Machine.basinOf s n := by
  obtain ⟨cs, rfl⟩ := h.only
  rfl

theorem Leading.rectOf (h : Leading s t) (n : Nat) : Machine.rectOf t n = Machine.rectOf s n := by
  obtain ⟨cs, rfl⟩ := h.only
  rfl

theorem Leading.ctxOf (h : Leading s t) (m n k : Nat) (v : Snap) (pc : BitVec 14) : Machine.ctxOf t m n k v pc = Machine.ctxOf s m n k v pc := by
  obtain ⟨cs, rfl⟩ := h.only
  rfl

theorem Leading.capturedOf (h : Leading s t) (j : Nat) : Machine.capturedOf t j = Machine.capturedOf s j := (h.cores j).snap

theorem Leading.latOperands (h : Leading s t) (x : Ctx) (f : FmtMS) (m : MFmt) : Machine.latOperands t x f m = Machine.latOperands s x f m := by
  unfold Machine.latOperands
  rw [h.rectOf]

theorem Leading.operandBytes (h : Leading s t) (n : Nat) (pc : BitVec 14) (os : List Operand) (i : Nat) :
    Machine.operandBytes t n pc os i = Machine.operandBytes s n pc os i := by
  have hcore := h.cores n
  have hmem : t.mem = s.mem := congrArg Store.mem h.store
  have hcache : ∀ o len, cacheRead (t.core n) n o len = cacheRead (s.core n) n o len := fun o len => by
    simp only [cacheRead, cacheByteAt, hcore.cache]
  have hstaged : stagedPanels (t.core n) pc = stagedPanels (s.core n) pc := by
    simp only [stagedPanels, hcore.staged]
  unfold Machine.operandBytes
  simp only [hcache, hmem, hstaged, hcore.direct]

theorem Leading.latPanel (h : Leading s t) (x : Ctx) (f : FmtMS) (m : MFmt) (w : Bool) : Machine.latPanel t x f m w = Machine.latPanel s x f m w := by
  unfold Machine.latPanel
  simp only [h.rectOf, h.capturedOf, h.latOperands, h.operandBytes]

theorem Leading.trans {u : State} (h : Leading s t) (h2 : Leading t u) : Leading s u :=
  ⟨h.only.trans h2.only, fun j => (h.cores j).trans (h2.cores j)⟩

theorem Leading.modCore (s : State) (n : Nat) {f : Core → Core} (hf : ∀ c, Begun c (f c)) : Leading s (s.modCore n f) where
  only := .modCore s n f
  cores := fun j => by
    by_cases hj : j = n
    · subst hj
      rw [State.core_modCore_same]
      exact hf _
    · rw [State.core_modCore_ne _ hj]
      exact .refl _

/-- The strip that mlat begins on core `j` in `s`, in the context `x`. -/
def latStrip (s : State) (x : Ctx) (f : FmtMS) (m : MFmt) : StripRun :=
  ⟨[(f.td.toNat, strip m (stripK f.kc) f.acc f.sat ((s.core x.node).tile f.td.toNat) (latPanel s x f m false) (latPanel s x f m true))], m.isInt, false⟩

/-- One core's part of an mlat: its entries, and its strip. -/
theorem issueSlot_mlat {f : FmtMS} {m : MFmt} (hm : msFormat f [0, 1, 2, 3, 4, 5, 6] = some m) (h : Leading s t) (x : Ctx)
    (hw : ∀ q ∈ operandStage (latOperands s x f m), firstBad s.mem q.1 q.2 = none) :
    ∃ es, issueSlot t x (opMlat f) = t.modCore x.node
      (fun c => { c with sb := c.sb ++ es, strip := some (latStrip s x f m), lastFmt := some f.fmt.toNat }) := by
  obtain ⟨es, hes⟩ : ∃ es, es = ((opMlat f).ranges x t).map (fun r => r.entry ((opMlat f).use x t)) := ⟨_, rfl⟩
  obtain ⟨u, hu⟩ : ∃ u, u = t.modCore x.node (fun c => { c with sb := c.sb ++ es }) := ⟨_, rfl⟩
  have hl : Leading s u := h.trans (hu ▸ Leading.modCore t x.node fun c => ⟨rfl, rfl, rfl, rfl, rfl, rfl, rfl, rfl, rfl, rfl, rfl⟩)
  have htile : (u.core x.node).tile f.td.toNat = (s.core x.node).tile f.td.toNat := by
    simp only [Core.tile, (hl.cores x.node).tiles]
  refine ⟨es, ?_⟩
  unfold issueSlot
  simp only [← hes, ← hu]
  simp only [opMlat, hm, hl.latOperands, hl.latPanel, htile, noteOperands_whole hw hl.store]
  rw [hu]
  simp only [beginStrip, writeCore, State.modCore, State.core_setCore, State.setCore_setCore]
  rfl

end

/-! ### The rows of the group -/

section
variable {s t : State} {n b : Nat} {ns : List Nat} {p : Pred} {f : FmtMS} {m : MFmt}

/-- The context of node `j`'s part of a slot row on a lattice. -/
def latCtx (s : State) (n j : Nat) : Ctx := ctxOf s n j slotM (s.core j).capture (s.core n).pc

theorem Core.captured_captured (c : Core) : c.captured.captured = c.captured := rfl

/-- The group as it issues: the operands of each core captured. -/
def latIssue (s : State) (ns : List Nat) : State := ns.foldl (fun t k => t.modCore k Core.captured) s

theorem latIssue_core (s : State) (ns : List Nat) {j : Nat} (h : j ∈ ns) : (latIssue s ns).core j = (s.core j).captured := by
  rw [latIssue, foldl_modCore_core _ Core.captured_captured, if_pos h]

theorem latIssue_leading (h : ∀ j ∈ ns, (s.core j).held = none) : Leading s (latIssue s ns) where
  only := foldl_modCore_only _ _ _
  cores := fun j => by
    rw [latIssue, foldl_modCore_core _ Core.captured_captured]
    split
    · exact .captured (h j (by assumption))
    · exact .refl _

/-- Each core of the group begins its strip, whatever those before it began. -/
theorem latStrips (hm : msFormat f [0, 1, 2, 3, 4, 5, 6] = some m) (hheld : ∀ j ∈ ns, (s.core j).held = none)
    (hw : ∀ j ∈ ns, ∀ q ∈ operandStage (latOperands s (latCtx s n j) f m), firstBad s.mem q.1 q.2 = none) :
    ∀ l : List Nat, (∀ j ∈ l, j ∈ ns) → ∀ t, Leading s t → ∃ u,
      l.foldl (fun t k => issueSlot t (ctxOf t n k slotM (capturedOf t k) (s.core n).pc) (opMlat f)) t = u ∧ Leading s u
      ∧ ∀ j, (j ∈ l → (u.core j).strip = some (latStrip s (latCtx s n j) f m)) ∧ (j ∉ l → u.core j = t.core j) := by
  intro l
  induction l with
  | nil => exact fun _ t ht => ⟨t, rfl, ht, fun j => ⟨nofun, fun _ => rfl⟩⟩
  | cons k l ih =>
    intro hin t ht
    have hk := hin k (by simp)
    have hx : ctxOf t n k slotM (capturedOf t k) (s.core n).pc = latCtx s n k := by
      rw [ht.capturedOf, ht.ctxOf, latCtx, capturedOf, hheld k hk]
    obtain ⟨es, hes⟩ := issueSlot_mlat hm ht (latCtx s n k) (hw k hk)
    obtain ⟨v, hv⟩ : ∃ v, v = t.modCore k (fun c => { c with sb := c.sb ++ es, strip := some (latStrip s (latCtx s n k) f m), lastFmt := some f.fmt.toNat }) :=
      ⟨_, rfl⟩
    have hlead : Leading s v := by
      rw [hv]
      exact ht.trans (.modCore t k fun c => ⟨rfl, rfl, rfl, rfl, rfl, rfl, rfl, rfl, rfl, rfl, rfl⟩)
    obtain ⟨u, hu, hul, hcores⟩ := ih (fun j hj => hin j (by simp [hj])) v hlead
    refine ⟨u, ?_, hul, fun j => ⟨fun hj => ?_, fun hj => ?_⟩⟩
    · rw [List.foldl_cons, hx, hes.trans (show _ = v from hv.symm), hu]
    · by_cases hjl : j ∈ l
      · exact (hcores j).1 hjl
      · obtain rfl : j = k := by simpa [hjl] using hj
        rw [(hcores j).2 hjl, hv, State.core_modCore_same]
    · rw [List.mem_cons, not_or] at hj
      rw [(hcores j).2 hj.2, hv, State.core_modCore_ne _ hj.1]

/-- The end of the group's bundle: the master is one further, and no core loses its strip. -/
theorem finishBundle_group (hn : n ∈ ns) (hrun : (t.core n).run = .running) (ho : (t.core n).lc0.count = 0) (hi : (t.core n).lc1.count = 0)
    (hs : (t.core n).stepping = false) (hb : (t.core n).held.bind (fun h => h.branch) = none) :
    (finishBundle t n ns).store = t.store ∧ ((finishBundle t n ns).core n).pc = (t.core n).pc + 1
    ∧ ∀ j, ((finishBundle t n ns).core j).strip = (t.core j).strip := by
  obtain ⟨g, hg⟩ : ∃ g : Core → Core, g = fun c => { retireStrip c with held := none } := ⟨_, rfl⟩
  have hgg : ∀ c, g (g c) = g c := fun c => by
    rw [hg]
    simp [retireStrip]
  obtain ⟨u, hu⟩ : ∃ u, u = ns.foldl (fun t n => t.modCore n g) t := ⟨_, rfl⟩
  have hucore : ∀ j, u.core j = if j ∈ ns then g (t.core j) else t.core j := fun j => by rw [hu, foldl_modCore_core g hgg]
  have hun : u.core n = g (t.core n) := by rw [hucore, if_pos hn]
  obtain ⟨v, hv⟩ : ∃ v, v = u.modCore n (fun c => nextBundle c none) := ⟨_, rfl⟩
  have hnext : nextBundle (u.core n) none = { u.core n with pc := (t.core n).pc + 1 } := by
    rw [hun, hg]
    simp [nextBundle, loopEnd, retireStrip, ho, hi]
  have hvn : v.core n = { u.core n with pc := (t.core n).pc + 1 } := by rw [hv, State.core_modCore_same, hnext]
  obtain ⟨h, hh⟩ : ∃ h : Core → Core, h = fun c => { c with staged := c.staged.filter (fun g => g.pc != (t.core n).pc && g.pc == (v.core n).pc) } :=
    ⟨_, rfl⟩
  have hhh : ∀ c, h (h c) = h c := fun c => by
    rw [hh]
    simp
  have hfinish : finishBundle t n ns = ns.foldl (fun t n => t.modCore n h) v := by
    have hurun : (u.core n).run = .running := by rw [hun, hg]; exact hrun
    have hvs : (v.core n).stepping = false := by rw [hvn, hun, hg]; exact hs
    unfold finishBundle
    simp only [hb, ← hg, ← hu, hurun, if_true, ← hv, hvs, Bool.false_eq_true, if_false, hh]
  have hlast : ∀ j, (finishBundle t n ns).core j = if j ∈ ns then h (v.core j) else v.core j := fun j => by
    rw [hfinish, foldl_modCore_core h hhh]
  have hstrip : ∀ j, (u.core j).strip = (t.core j).strip := fun j => by
    rw [hucore]
    split
    · rw [hg]; rfl
    · rfl
  have hstripv : ∀ j, (v.core j).strip = (t.core j).strip := fun j => by
    by_cases hj : j = n
    · subst hj
      rw [hvn]
      exact hstrip j
    · rw [hv, State.core_modCore_ne _ hj]
      exact hstrip j
  refine ⟨?_, ?_, fun j => ?_⟩
  · obtain ⟨cs, hcs⟩ := foldl_modCore_only h ns v
    obtain ⟨cs2, hcs2⟩ := foldl_modCore_only g ns t
    rw [hfinish, hcs, hv, hu, hcs2]
    rfl
  · rw [hlast, if_pos hn, hh, hvn]
  · rw [hlast]
    split
    · rw [hh]
      exact hstripv j
    · exact hstripv j

/-- Nothing holds a slot on a core with nothing in flight, where the operation has no hold of its own. -/
theorem slotHold_quiet {x : Ctx} {op : Op} (hg : (t.core x.node).gops = []) (hq : (t.core x.node).qPend = 0) (hsb : (t.core x.node).sb = [])
    (hfew : (op.ranges x t).length ≤ 32) (hh : op.hold x t = none) : slotHold t x op = none := by
  have hd : op.dests.any (destAwaits x.snap (t.core x.node)) = false := by
    rw [List.any_eq_false]
    intro d _
    cases d <;> simp [destAwaits, awaits, hg, hq, bit]
  have hsr : op.srcs.any (awaits x.snap (t.core x.node)) = false := by simp [awaits, hg]
  have hroom : ¬32 < ((op.ranges x t).map (fun r => r.entry .done)).length := by simpa using hfew
  unfold slotHold
  simp only [hd, hsr, hg, hq, hsb, List.any_nil, Bool.and_false, Bool.or_self, List.length_nil, Nat.zero_add, hroom, hh]
  cases op.qsrc <;> simp [bit]

/-- A strip of a lattice begins on every core of it, each with the panels of its row and its column. -/
theorem LatticeReady.mlat (hr : LatticeReady s n b ns) (hp : predBad p = false) (hv : (s.core n).capture.pred p = true)
    (hm : msFormat f [0, 1, 2, 3, 4, 5, 6] = some m)
    (hidle : ∀ j ∈ ns, Idle s j ∧ ∀ q ∈ operandStage (latOperands s (latCtx s n j) f m), firstBad s.mem q.1 q.2 = none)
    (hclear : ∀ j ∈ ns, ∀ q ∈ operandRanges (latOperands s (latCtx s n j) f m), rangeFault s j q = none) :
    ∃ t, issueOne n slotM p (opMlat f) s = t ∧ t.store = s.store ∧ (t.core n).pc = (s.core n).pc + 1
      ∧ ∀ j ∈ ns, (t.core j).strip = some (latStrip s (latCtx s n j) f m) := by
  have hheld : ∀ j ∈ ns, (s.core j).held = none := fun j hj => (hr.quiet j hj).1
  have hcap : ∀ j ∈ ns, capturedOf s j = (s.core j).capture := fun j hj => by rw [capturedOf, hheld j hj]
  have hlead : Leading s (latIssue s ns) := latIssue_leading hheld
  have hlat : ∀ j ∈ ns, (latCtx s n j).lattice = true := fun j hj => by simp [latCtx, ctxOf, hr.members j hj, hr.lattice]
  have hact : ∀ t, Leading s t → actors t n ns ⟨slotM, p, opMlat f⟩ = ns := fun t ht => by
    have hpred : (capturedOf t n).pred p = true := by rw [ht.capturedOf, hcap n hr.mem, hv]
    exact if_pos hpred
  have hranges : ∀ j ∈ ns, ∀ t, Leading s t → (opMlat f).ranges (latCtx s n j) t = operandRanges (latOperands s (latCtx s n j) f m) := by
    intro j _ t ht
    simp only [opMlat, hm, ht.latOperands]
  have hfew : ∀ j, (latOperands s (latCtx s n j) f m).length ≤ 32 := fun j => by
    simp only [latOperands]
    split <;> split <;> simp [msOperands]
  have hcheck : ∀ k ∈ ns, checkNode s n ns (s.core n).pc k [⟨slotM, p, opMlat f⟩] = none := fun k hk => by
    have hlegal : (opMlat f).bad (latCtx s n k) s = false := by simp [opMlat, hlat k hk, hm]
    have hfault : addressFault s (latCtx s n k) (opMlat f) = none := addressFault_clear rfl (by rw [hranges k hk s ⟨.refl s, fun _ => .refl _⟩]; exact hclear k hk)
    have hx : ctxOf s n k slotM (s.core k).capture (s.core n).pc = latCtx s n k := rfl
    unfold checkNode
    simp only [hcap k hk, hx, List.find?_cons, List.find?_nil, hp, hlegal, Bool.or_self, dualWrite, List.findSome?_cons, List.findSome?_nil, hfault,
      Option.map_none, ite_self]
  have hhold : ∀ k ∈ ns, slotHold (latIssue s ns) (latCtx s n k) (opMlat f) = none := fun k hk => by
    obtain ⟨-, hgops, hsb, hvec, hq⟩ := hr.quiet k hk
    have hcore := latIssue_core s ns hk
    have hfree : (opMlat f).hold (latCtx s n k) (latIssue s ns) = none := by
      simp only [opMlat, hm]
      exact stripHold_idle (es := (s.core k).sb) hcore hlead.head (hidle k hk).1.strip (hidle k hk).1.tokens hvec (hidle k hk).1.issue _ _ _
    refine slotHold_quiet ((congrArg Core.gops hcore).trans hgops) ((congrArg Core.qPend hcore).trans hq) ((congrArg Core.sb hcore).trans hsb) ?_ hfree
    rw [hranges k hk _ hlead]
    exact operandRanges_few _ (hfew k)
  have hctx : ∀ t, Leading s t → ∀ k ∈ ns, ctxOf t n k slotM (capturedOf t k) (s.core n).pc = latCtx s n k := fun t ht k hk => by
    rw [ht.capturedOf, ht.ctxOf, latCtx, hcap k hk]
  obtain ⟨u, hu, hul, hstrips⟩ := latStrips hm hheld (fun j hj => (hidle j hj).2) ns (fun _ h => h) (latIssue s ns) hlead
  have hslots : issueSlots n ns (s.core n).pc [⟨slotM, p, opMlat f⟩] (latIssue s ns) 0 = (u, 0 ||| BitVec.ofNat 8 (2 ^ (slotM - 1)), none) := by
    have hnone : ns.findSome? (fun k => (slotHold (latIssue s ns) (ctxOf (latIssue s ns) n k slotM (capturedOf (latIssue s ns) k) (s.core n).pc)
        (opMlat f)).map (fun h => (k, h))) = none := by
      rw [List.findSome?_eq_none_iff]
      intro k hk
      rw [hctx _ hlead k hk, hhold k hk]
      rfl
    simp only [issueSlots, hact _ hlead, hnone, hu]
  have hchecks : ns.filterMap (fun k => (checkNode s n ns (s.core n).pc k [⟨slotM, p, opMlat f⟩]).map (fun f => (k, f))) = [] :=
    List.filterMap_eq_nil_iff.mpr fun k hk => by rw [hcheck k hk]; rfl
  have hgroup : issueGroup s n = ns := by simp [issueGroup, hr.basin, hr.lattice, hr.cores]
  have hrun : (s.core n).run = .running := by
    have hmay := hr.may
    simp [mayIssue, leads] at hmay
    simp_all
  have hissue : issueOne n slotM p (opMlat f) s = settleReads (finishBundle u n ns) := by
    unfold issueOne
    simp only [hr.may, hheld n hr.mem, hgroup, show (opMlat f).checkSrcs = [] from rfl, List.any_nil, Option.isSome_none, Bool.not_true, Bool.or_self,
      Bool.false_eq_true, if_false, hchecks]
    change (match issueSlots n ns (s.core n).pc [⟨slotM, p, opMlat f⟩] (latIssue s ns) 0 with
      | (t, _, none) => settleReads (finishBundle t n ns)
      | (_, _, some (k, h)) => s.modCore k (countStall h)) = _
    rw [hslots]
  have hun := hul.cores n
  obtain ⟨hstore, hpc, hkeep⟩ := finishBundle_group hr.mem (hun.run.trans hrun) ((congrArg LoopReg.count hun.outer).trans hr.outer)
    ((congrArg LoopReg.count hun.inner).trans hr.inner) (hun.stepping.trans hr.stepping) (hun.branch.trans (by rw [hheld n hr.mem]; rfl))
  have hsettle : settleReads (finishBundle u n ns) = finishBundle u n ns :=
    settleReads_none _ (by rw [hstore, hul.store]; exact hr.reads)
  refine ⟨_, hissue, ?_, ?_, fun j hj => ?_⟩
  · rw [hsettle, hstore, hul.store]
  · rw [hsettle, hpc, hun.pc]
  · rw [hsettle, hkeep, (hstrips j).1 hj]

end

end Sys2Proof.Machine
end

section
/-! PROOFS. The rows of the A, M and V slots, one by one (R236 to R241). -/

namespace Sys2Proof.Machine

section
variable {s : State} {n : Fin 64} {b : Nat} {p : Pred}

/-! ### Address rows -/

theorem Ready.aadd_row (hr : Ready s n b) (hp : predBad p = false) (hv : (s.core n).capture.pred p = true) (sl : Side) (ad aa : BitVec 4)
    (rb : BitVec 5) (sh : BitVec 3) : Steps (.aadd n sl p ad aa rb sh) s n
      (fun c => c.setA ad.toNat (tget 0 (s.core n).a aa.toNat + (((s.core n).getS rb.toNat).setWidth 32 <<< sh.toNat))) := by
  refine hr.putA_row hp hv rfl ?_
  simp only [opAadd, rowCtx_snap, rowCtx_node, hr.readS_getS]
  rfl

theorem Ready.acirc_row (hr : Ready s n b) (hp : predBad p = false) (hv : (s.core n).capture.pred p = true) (sl : Side) {ad aa : BitVec 4}
    {lg : BitVec 5} {stride : BitVec 23} (h8 : 8 ≤ lg.toNat) (h29 : lg.toNat ≤ 29) : Steps (.acirc n sl p ad aa lg stride) s n
      (fun c => c.setA ad.toNat (tget 0 (s.core n).a aa.toNat + BitVec.ofNat 32 ((tget 0 (s.core n).a ad.toNat - tget 0 (s.core n).a aa.toNat
        + BitVec.ofInt 32 (signed 23 stride.toNat)).toNat % 2 ^ lg.toNat))) := by
  refine hr.putA_row hp hv rfl rfl (hb := ?_)
  simp only [opAcirc, Bool.or_eq_false_iff, decide_eq_false_iff_not]
  omega

/-! ### Matrix rows -/

theorem Core.tile_entering (c : Core) (es : List SbEntry) (t : Nat) : (c.entering es).tile t = c.tile t := rfl

theorem Ready.mmul_row (hr : Ready s n b) (hp : predBad p = false) (hv : (s.core n).capture.pred p = true) {f : FmtMS} {m : MFmt}
    (hm : msFormat f [0, 1, 2, 3, 4, 5, 6] = some m) (hi : Idle s n)
    (hc : ∀ r ∈ operandRanges (msOperands (rowCtx s n slotM) f m), rangeFault s n r = none)
    (hw : ∀ q ∈ operandStage (msOperands (rowCtx s n slotM) f m), firstBad s.mem q.1 q.2 = none) :
    Steps (.mmul n p f) s n (fun c => { c with
      strip := some ⟨[(f.td.toNat, strip m (stripK f.kc) f.acc f.sat ((s.core n).tile f.td.toNat)
        (operandBytes s n (s.core n).pc (msOperands (rowCtx s n slotM) f m) 0)
        (operandBytes s n (s.core n).pc (msOperands (rowCtx s n slotM) f m) 1))], m.isInt, false⟩
      lastFmt := some f.fmt.toNat }) :=
  hr.ms_row hp hv (show slotRow (.mmul n p f) = some ((n : Nat), slotM, p, opMmul f) from rfl) hm rfl hi hc hw
    (fun t es pa pb ht => by simp only [rowCtx_node, ht, Core.tile_entering]) rfl

theorem Ready.mmulp_row (hr : Ready s n b) (hp : predBad p = false) (hv : (s.core n).capture.pred p = true) {f : FmtMS} {m : MFmt}
    (hm : msFormat f [1, 2, 4, 5, 6] = some m) (heven : f.td.toNat % 2 = 0) (hi : Idle s n)
    (hc : ∀ r ∈ operandRanges (msOperands (rowCtx s n slotM) f m), rangeFault s n r = none)
    (hw : ∀ q ∈ operandStage (msOperands (rowCtx s n slotM) f m), firstBad s.mem q.1 q.2 = none) {z : Tile × Tile}
    (hz : pairStrip m (stripK f.kc) f.acc f.sat ((s.core n).tile f.td.toNat) ((s.core n).tile (f.td.toNat + 1))
      (operandBytes s n (s.core n).pc (msOperands (rowCtx s n slotM) f m) 0)
      (operandBytes s n (s.core n).pc (msOperands (rowCtx s n slotM) f m) 1) = z) :
    Steps (.mmulp n p f) s n (fun c => { c with
      strip := some ⟨[(f.td.toNat, z.1), (f.td.toNat + 1, z.2)], m.isInt, true⟩
      lastFmt := some f.fmt.toNat }) := by
  subst hz
  exact hr.ms_row hp hv (show slotRow (.mmulp n p f) = some ((n : Nat), slotM, p, opMmulp f) from rfl) hm (by simp [heven]) hi hc hw
    (fun t es pa pb ht => by simp only [rowCtx_node, ht, Core.tile_entering]) rfl

theorem Ready.mmul3_row (hr : Ready s n b) (hp : predBad p = false) (hv : (s.core n).capture.pred p = true) {f : FmtMS} {m : MFmt}
    (hm : msFormat f [7] = some m) (hi : Idle s n)
    (hc : ∀ r ∈ operandRanges (msOperands (rowCtx s n slotM) f m), rangeFault s n r = none)
    (hw : ∀ q ∈ operandStage (msOperands (rowCtx s n slotM) f m), firstBad s.mem q.1 q.2 = none) :
    Steps (.mmul3 n p f) s n (fun c => { c with
      strip := some ⟨[(f.td.toNat, splitStrip (stripK f.kc) f.acc f.sat ((s.core n).tile f.td.toNat)
        (operandBytes s n (s.core n).pc (msOperands (rowCtx s n slotM) f m) 0)
        (operandBytes s n (s.core n).pc (msOperands (rowCtx s n slotM) f m) 1))], m.isInt, false⟩
      lastFmt := some f.fmt.toNat }) :=
  hr.ms_row hp hv (show slotRow (.mmul3 n p f) = some ((n : Nat), slotM, p, opMmul3 f) from rfl) hm rfl hi hc hw
    (fun t es pa pb ht => by simp only [rowCtx_node, ht, Core.tile_entering]) rfl

theorem Ready.tileBusy_idle (hr : Ready s n b) (hs : (s.core n).strip = none) (t : Nat) : tileBusy (s.core n).captured t = false := by
  simp [tileBusy, vTouchesTile, Core.captured, hs, hr.vector]

/-- A row of an idle matrix unit that no register holds is not held. -/
theorem matrix_free (hi : Idle s n) {q : Bool} (hq : q = false) :
    (if q then some Stall.register else if withheld (atIssue s n) n then some Stall.matrix else none) = none := by
  have hgo : withheld (atIssue s n) n = false := hi.issue
  simp [hq, hgo]

/-- A tile is stored. -/
theorem Ready.mst_row (hr : Ready s n b) (hp : predBad p = false) (hv : (s.core n).capture.pred p = true) {f : FmtMT} (hi : Idle s n)
    (hout : f.out.toNat ≤ 5) (hc : rangeFault s n (wideRange (tget 0 (s.core n).a f.a.toNat) (1024 * outBytes f.out.toNat) true) = none) :
    exec (.mst n p f) s = .next
      ((s.write (tget 0 (s.core n).a f.a.toNat).toNat (tileBytes f.out.toNat f.rnd.toNat f.sat ((s.core n).tile f.ts.toNat))).setCore n
        ({ s.core n with sb := [(wideRange (tget 0 (s.core n).a f.a.toNat) (1024 * outBytes f.out.toNat) true).entry .done] } : Core).stepped) := by
  have hstrip : (s.core n).captured.strip = none := hi.strip
  refine hr.store_row hp hv rfl (decide_eq_false (by omega)) rfl (fun _ => rfl) hc (fun _ => rfl) ?_ fun t es ht => ?_
  · simp only [opMst, rowCtx_node, atIssue_core]
    exact matrix_free hi (by simp [hr.tileBusy_idle hi.strip, hstrip])
  · simp only [opMst, rowCtx_node, ht]
    rfl

/-- A pair of tiles is stored. -/
theorem Ready.mstp_row (hr : Ready s n b) (hp : predBad p = false) (hv : (s.core n).capture.pred p = true) {f : FmtMT} (hi : Idle s n)
    (hout : f.out = 0) (hsat : f.sat = false) (heven : f.ts.toNat % 2 = 0)
    (hc : rangeFault s n (wideRange (tget 0 (s.core n).a f.a.toNat) 8192 true) = none) :
    exec (.mstp n p f) s = .next
      ((s.write (tget 0 (s.core n).a f.a.toNat).toNat (pairBytes ((s.core n).tile f.ts.toNat) ((s.core n).tile (f.ts.toNat + 1)))).setCore n
        ({ s.core n with sb := [(wideRange (tget 0 (s.core n).a f.a.toNat) 8192 true).entry .done] } : Core).stepped) := by
  have hstrip : (s.core n).captured.strip = none := hi.strip
  refine hr.store_row hp hv rfl ?_ rfl (fun _ => rfl) hc (fun _ => rfl) ?_ fun t es ht => ?_
  · simp [opMstp, hout, hsat, heven]
  · simp only [opMstp, rowCtx_node, atIssue_core]
    exact matrix_free hi (by simp [hr.tileBusy_idle hi.strip, hstrip])
  · simp only [opMstp, rowCtx_node, ht]
    rfl

/-- A token is pushed. -/
theorem Ready.mfin_row (hr : Ready s n b) (hp : predBad p = false) (hv : (s.core n).capture.pred p = true) (hi : Idle s n) (tl : BitVec 2) :
    Steps (.mfin n p tl) s n (fun c => { c with
      mfins := c.mfins + 1
      tokens := [⟨tl, bit (s.core n).tileInt.toNat tl.toNat, bit (s.core n).tilePair.toNat tl.toNat, (s.core n).mfins, false⟩] }) := by
  have hstrip : (s.core n).captured.strip = none := hi.strip
  have htok : (s.core n).captured.tokens = [] := hi.tokens
  refine hr.core_row hp hv rfl ?_ (by constructor <;> intros <;> rfl) (hhold := ?_)
  · simp only [opMfin, writeCore, rowCtx_node, State.modCore, atIssue_core, htok]
    rfl
  · simp only [opMfin, rowCtx_node, atIssue_core]
    exact matrix_free hi (by simp [hr.tileBusy_idle hi.strip, hstrip, htok])

/-! ### Vector rows -/

/-- Row `i` takes the first place of the vector engine: the core is `c'`, one bundle further, with the entries of `l`. -/
def TakesVector (i : Instr) (s : State) (n : Nat) (c' : Core) (l : List RangeReq) (k : VKind) : Prop :=
  exec i s = .next (s.setCore n { c'.stepped with
    v := [{ id := (s.core n).vNext, kind := k }]
    vNext := (s.core n).vNext + 1
    sb := l.map (fun q => q.entry (.vector (s.core n).vNext)) })

/-- The descriptors of a core as an operation of class `cls` with these operands holds `d`. -/
def Core.anchored (c : Core) (d : BitVec 4) (cls ops : Nat) : Tab (BitVec 128) :=
  tput c.d d.toNat (dSet (dSet (dSet (dSet (tget 0 c.d d.toNat) 84 83 1) 98 85 0) 100 99 cls) 127 101 ops)

/-- An engine that holds nothing takes an operation on any descriptor. -/
theorem vHold_first {c : Core} (hv : c.v = []) (d : Option Nat) : vHold c d = none := by
  cases d <;> simp [vHold, hv]

theorem tileHold_first {c : Core} (hv : c.v = []) (hs : c.strip = none) (t : Nat) : tileHold c t = none := by
  simp [tileHold, vHold_first hv, hs]

/-- A vector operation declares at most four streams. -/
theorem streams_few (x : Snap) (f : FmtV) (w : Bool) :
    ((vSources f).map (fun d => streamRange x d false) ++ [streamRange x f.dd.toNat w]).length ≤ 32 := by
  have hsources : (vSources f).length ≤ 3 := List.length_take_le' _ _
  rw [List.length_append, List.length_map]
  exact (Nat.add_le_add_right hsources 1).trans (by decide)

/-- The streams of a vector operation. -/
def streamsOf (x : Snap) (f : FmtV) : List RangeReq := (vSources f).map (fun d => streamRange x d false) ++ [streamRange x f.dd.toNat true]

theorem Ready.vbath_row (hr : Ready s n b) (hp : predBad p = false) (hv : (s.core n).capture.pred p = true) {f : FmtV}
    (ht : (f.dd.toNat :: vSources f).any (typeBad (s.core n).capture) = false) (hn : f.nsrc ≠ 0)
    (hc : ∀ q ∈ streamsOf (s.core n).capture f, rangeFault s n q = none) :
    TakesVector (.vbath n p f) s n { s.core n with d := (s.core n).anchored f.dd 0 (vOperands f) } (streamsOf (s.core n).capture f) (.bath f) := by
  have hd : ∀ es, ((s.core n).entering es).v = [] := fun _ => hr.vector
  refine hr.vector_row (c' := { s.core n with d := (s.core n).anchored f.dd 0 (vOperands f) }) hp hv
    (g := fun c => holdAnchor c f.dd.toNat 0 (vOperands f)) rfl ?_ rfl (fun _ => rfl) hc (streams_few _ _ _) (fun _ _ => rfl) ?_ (fun _ _ _ => rfl)
    hr.running hr.outer hr.inner hr.stepping hr.vector rfl ?_
  · simp only [opVbath]
    rw [Bool.or_eq_false_iff]
    exact ⟨beq_false_of_ne hn, ht⟩
  · simp only [opVbath, rowCtx_node, atIssue_core]
    exact vHold_first hr.vector _
  · rw [holdAnchor_first _ (hd _)]
    rfl

theorem Ready.vtpop_row (hr : Ready s n b) (hp : predBad p = false) (hv : (s.core n).capture.pred p = true) {f : FmtV} {tok : Token}
    (ht : (f.dd.toNat :: vSources f).any (typeBad (s.core n).capture) = false) (hn : f.nsrc ≠ 3)
    (hc : ∀ q ∈ streamsOf (s.core n).capture f, rangeFault s n q = none) (htok : (s.core n).tokens = [tok]) (hfree : tok.bound = false) :
    TakesVector (.vtpop n p f) s n { s.core n with
      d := (s.core n).anchored f.dd 1 (vOperands f)
      tokens := [{ tok with bound := true }] } (streamsOf (s.core n).capture f) (.pop f tok.tile tok.pair tok.seq) := by
  have hd : ∀ es, ((s.core n).entering es).v = [] := fun _ => hr.vector
  have hfirst : ∀ c : Core, c.tokens = [tok] → freeToken c = some tok ∧ bindToken c.tokens = [{ tok with bound := true }] := fun c h => by
    simp [freeToken, bindToken, h, hfree]
  refine hr.vector_row (c' := { s.core n with
      d := (s.core n).anchored f.dd 1 (vOperands f)
      tokens := [{ tok with bound := true }] }) hp hv
    (g := fun c => { holdAnchor c f.dd.toNat 1 (vOperands f) with tokens := bindToken c.tokens }) rfl ?_ rfl (fun _ => rfl) hc
    (streams_few _ _ _) (fun _ _ => rfl) ?_ (fun t es hcore => ?_) hr.running hr.outer hr.inner hr.stepping hr.vector rfl ?_
  · simp only [opVtpop]
    rw [Bool.or_eq_false_iff]
    exact ⟨beq_false_of_ne hn, ht⟩
  · simp only [opVtpop, rowCtx_node, atIssue_core, (hfirst (s.core n).captured htok).1, Option.isNone_some, Bool.false_eq_true, if_false]
    exact vHold_first hr.vector _
  · have hpop : freeToken (t.core n) = some tok := by
      rw [hcore]
      exact (hfirst _ htok).1
    simp only [opVtpop, writeCore, rowCtx_node, State.modCore, hpop]
  · rw [holdAnchor_first _ (hd _), (hfirst ((s.core n).entering _) htok).2]
    rfl

theorem Ready.vred_row (hr : Ready s n b) (hp : predBad p = false) (hv : (s.core n).capture.pred p = true) {qd : BitVec 2} {ad : BitVec 4}
    {kind : BitVec 3} {typ : Bool} (hq : qd ≠ 3) (ht : typeBad (s.core n).capture ad.toNat = false) (hk : kind.toNat < 5)
    (htyp : typ = true → kind.toNat < 3) (hc : ∀ q ∈ [streamRange (s.core n).capture ad.toNat false], rangeFault s n q = none) :
    TakesVector (.vred n p qd ad kind typ) s n { s.core n with
      d := (s.core n).anchored ad 2 (qd.toNat * 2 ^ 4 + kind.toNat * 2 + typ.toNat)
      qPend := putBit 0 qd.toNat true } [streamRange (s.core n).capture ad.toNat false] (.red qd ad kind typ) := by
  have hd : ∀ es, ((s.core n).entering es).v = [] := fun _ => hr.vector
  have hpend : ∀ es, ((s.core n).entering es).qPend = 0 := fun _ => hr.summaries
  have hne : kind ≠ 5 := fun h => by simp [h] at hk
  refine hr.vector_row (c' := { s.core n with
      d := (s.core n).anchored ad 2 (qd.toNat * 2 ^ 4 + kind.toNat * 2 + typ.toNat)
      qPend := putBit 0 qd.toNat true }) hp hv
    (g := fun c => { holdAnchor c ad.toNat 2 (qd.toNat * 2 ^ 4 + kind.toNat * 2 + typ.toNat) with qPend := putBit c.qPend qd.toNat true })
    rfl ?_ ?_ (fun t => ?_) hc (by simp) (fun _ _ => rfl) ?_ (fun _ _ _ => rfl) hr.running hr.outer hr.inner hr.stepping hr.vector rfl ?_
  · have hlow : (typ && decide (3 ≤ kind.toNat)) = false := by
      cases typ with
      | false => rfl
      | true => simpa using htyp rfl
    simp only [opVred, rowCtx_snap, ht, hlow, beq_false_of_ne hq, Bool.or_false, Bool.false_or]
    exact decide_eq_false (by omega)
  · simp only [opVred, hne, false_and, if_false]
  · simp only [opVred, hne, if_false]
    rfl
  · simp only [opVred, rowCtx_node, atIssue_core]
    exact vHold_first hr.vector _
  · simp only [holdAnchor_first _ (hd _), hpend]
    rfl

theorem Ready.vred_anchor_row (hr : Ready s n b) (hp : predBad p = false) (hv : (s.core n).capture.pred p = true) {qd : BitVec 2} {ad : BitVec 4}
    (hq : qd ≠ 3) (ht : typeBad (s.core n).capture ad.toNat = false) (hal : baseMisaligned (tget 0 (s.core n).d ad.toNat) = false) :
    TakesVector (.vred n p qd ad 5 false) s n { s.core n with
      d := (s.core n).anchored ad 2 (qd.toNat * 2 ^ 4 + 10)
      qPend := putBit 0 qd.toNat true } [] (.red qd ad 5 false) := by
  have hd : ∀ es, ((s.core n).entering es).v = [] := fun _ => hr.vector
  have hpend : ∀ es, ((s.core n).entering es).qPend = 0 := fun _ => hr.summaries
  refine hr.vector_row (c' := { s.core n with
      d := (s.core n).anchored ad 2 (qd.toNat * 2 ^ 4 + 10)
      qPend := putBit 0 qd.toNat true }) hp hv
    (g := fun c => { holdAnchor c ad.toNat 2 (qd.toNat * 2 ^ 4 + 10) with qPend := putBit c.qPend qd.toNat true })
    (l := []) rfl ?_ ?_ ?_ nofun (by simp) (fun h => absurd rfl h) ?_ (fun _ _ _ => rfl) hr.running hr.outer hr.inner hr.stepping hr.vector rfl ?_
  · simp only [opVred, rowCtx_snap, ht, beq_false_of_ne hq]
    rfl
  · have hal' : baseMisaligned ((s.core n).capture.getD ad.toNat) = false := hal
    simp only [opVred, rowCtx_snap, hal', Bool.false_eq_true, and_false, if_false]
  · intro t
    simp only [opVred, if_true]
  · simp only [opVred, rowCtx_node, atIssue_core]
    exact vHold_first hr.vector _
  · simp only [holdAnchor_first _ (hd _), hpend]
    rfl

theorem Ready.vtclr_row (hr : Ready s n b) (hp : predBad p = false) (hv : (s.core n).capture.pred p = true) (hs : (s.core n).strip = none) (tl : BitVec 2) :
    TakesVector (.vtclr n p tl) s n (s.core n) [] (.clear tl) := by
  refine hr.vector_row (c' := s.core n) (l := []) (g := fun c => c) hp hv rfl rfl rfl (fun _ => rfl) nofun (by simp)
    (fun h => absurd rfl h) ?_
    (fun _ _ _ => rfl) hr.running hr.outer hr.inner hr.stepping hr.vector rfl rfl
  simp only [opVtclr, rowCtx_node, atIssue_core]
  exact tileHold_first hr.vector hs _

theorem Ready.vtld_row (hr : Ready s n b) (hp : predBad p = false) (hv : (s.core n).capture.pred p = true) (hs : (s.core n).strip = none) (tl : BitVec 2)
    {aa : BitVec 4} (hc : ∀ q ∈ [wideRange (tget 0 (s.core n).a aa.toNat) 4096 false], rangeFault s n q = none) :
    TakesVector (.vtld n p tl aa) s n (s.core n) [wideRange (tget 0 (s.core n).a aa.toNat) 4096 false] (.load tl (tget 0 (s.core n).a aa.toNat)) := by
  refine hr.vector_row (c' := s.core n) (g := fun c => c) hp hv rfl rfl rfl (fun _ => rfl) hc (by simp) (fun _ _ => rfl) ?_
    (fun _ _ _ => rfl) hr.running hr.outer hr.inner hr.stepping hr.vector rfl rfl
  simp only [opVtld, rowCtx_node, atIssue_core]
  exact tileHold_first hr.vector hs _

theorem Ready.vcfill_row (hr : Ready s n b) (hp : predBad p = false) (hv : (s.core n).capture.pred p = true) (ad : BitVec 4)
    {aa : BitVec 4} (hc : ∀ q ∈ [wideRange (tget 0 (s.core n).a aa.toNat) 4096 false], rangeFault s n q = none) :
    TakesVector (.vcfill n p ad aa) s n (s.core n) [wideRange (tget 0 (s.core n).a aa.toNat) 4096 false] (.fill ad (tget 0 (s.core n).a aa.toNat)) := by
  refine hr.vector_row (c' := s.core n) (g := fun c => c) hp hv rfl rfl rfl (fun _ => rfl) hc (by simp) (fun _ _ => rfl) ?_
    (fun _ _ _ => rfl) hr.running hr.outer hr.inner hr.stepping hr.vector rfl rfl
  simp only [opVcfill, rowCtx_node, atIssue_core]
  exact vHold_first hr.vector _

end

end Sys2Proof.Machine
end

section
/-! PROOFS. The gate rows of this chiplet, and the in-memory rows of the D slot, one by one (R242, R243, R332, R333, R449, R450). -/

namespace Sys2Proof.Machine

section
variable {s : State} {n : Fin 64} {b : Nat} {p : Pred}

/-- Gate `f.gate` of this chiplet serves core `n` of basin `b`, and nothing waits there. -/
structure GateHere (s : State) (b : Nat) (f : FmtG) : Prop where
  own : f.rem = false
  chiplet : f.sf = 0
  serves : gateServes s f.gate.toNat (some b) (s.basin b).tenant = true
  waiters : (s.gate f.gate.toNat).waiters = []

/-- A gate row leaves the gate as `k`, with its result. -/
def Gives (i : Instr) (s : State) (n : Nat) (f : FmtG) (k : Gate) (w : W64) : Prop := Completes i s (fun t => GateIssued s t n f k (some w))

/-- A gate row leaves its waiter at the gate, which else is `k`. -/
def Waits (i : Instr) (s : State) (n : Nat) (f : FmtG) (k : Gate) : Prop :=
  ∃ t q, exec i s = .next t ∧ GateIssued s t n f { k with waiters := [q] } none

/-- Gate `k` with another value. -/
def atValue (k : Gate) (v : W64) : Gate := { k with value := v }

variable {f : FmtG} {i : Instr} {op : Byte}

/-- A row that neither changes the gate nor waits gives its word. -/
theorem Ready.gives_same (hr : Ready s n b) (hp : predBad p = false) (hv : (s.core n).capture.pred p = true) (h : GateHere s b f)
    (hi : slotRow i = some ((n : Nat), slotD, p, opGate op f)) {w : W64}
    (heff : ∀ u : State, u.gate f.gate.toNat = s.gate f.gate.toNat → gateEffect u f.gate.toNat op.toNat (gateWaiter s n op f) = (u, some w)) :
    Gives i s n f (s.gate f.gate.toNat) w :=
  hr.effect_row hp hv hi h.own h.chiplet h.serves fun u hu => ⟨u, hu.same _, heff u (hu.gate _)⟩

/-- A row that sets the gate gives its word. -/
theorem Ready.gives_set (hr : Ready s n b) (hp : predBad p = false) (hv : (s.core n).capture.pred p = true) (h : GateHere s b f)
    (hi : slotRow i = some ((n : Nat), slotD, p, opGate op f)) {k : Gate} {w : W64}
    (heff : ∀ u : State, u.gate f.gate.toNat = s.gate f.gate.toNat →
      gateEffect u f.gate.toNat op.toNat (gateWaiter s n op f) = (u.setGate f.gate.toNat k, some w)) :
    Gives i s n f k w :=
  hr.effect_row hp hv hi h.own h.chiplet h.serves fun u hu => ⟨_, .setGate u _ k, heff u (hu.gate _)⟩

/-- A row that must wait leaves its waiter. -/
theorem Ready.waits_at (hr : Ready s n b) (hp : predBad p = false) (hv : (s.core n).capture.pred p = true) (h : GateHere s b f)
    (hi : slotRow i = some ((n : Nat), slotD, p, opGate op f)) {k : Gate} (hk : k.waiters = [])
    (heff : ∀ u : State, AtGate s u n (gateOpHere s n b op f) → gateEffect u f.gate.toNat op.toNat (gateWaiter s n op f)
      = (u.setGate f.gate.toNat { k with waiters := k.waiters ++ [gateWaiter s n op f] }, none)) :
    Waits i s n f k := by
  obtain ⟨t, ht, hissued⟩ := hr.effect_row hp hv hi h.own h.chiplet h.serves (k' := { k with waiters := [gateWaiter s n op f] }) (res := none)
    fun u hu => ⟨_, .setGate u _ _, (heff u hu).trans (by rw [hk]; rfl)⟩
  exact ⟨t, _, ht, hissued⟩

/-- The rows of a counter. -/
theorem Ready.counter_rows (hr : Ready s n b) (hp : predBad p = false) (hv : (s.core n).capture.pred p = true) (h : GateHere s b f)
    (hk : (s.gate f.gate.toNat).kind = .counter) :
    Gives (.gadd n p f) s n f (atValue (s.gate f.gate.toNat)
        (BitVec.ofNat 64 (((s.gate f.gate.toNat).value.toNat + ((s.core n).getS f.sv.toNat).toNat) % 2 ^ 63))) (s.gate f.gate.toNat).value
      ∧ (bits ((s.core n).getS f.sv.toNat).toNat 62 0 ≤ (s.gate f.gate.toNat).value.toNat →
          Gives (.gwait n p f) s n f (s.gate f.gate.toNat) (s.gate f.gate.toNat).value)
      ∧ ((s.gate f.gate.toNat).value.toNat < bits ((s.core n).getS f.sv.toNat).toNat 62 0 → Waits (.gwait n p f) s n f (s.gate f.gate.toNat)) := by
  refine ⟨?_, fun hle => ?_, fun hlt => ?_⟩
  · refine hr.effect_row hp hv (op := 0x00) rfl h.own h.chiplet h.serves fun u hu => ?_
    exact ⟨_, GateSet.counted u (k := atValue (s.gate f.gate.toNat) _) h.waiters, gateEffect_add (hu.gate _) hk⟩
  · exact hr.gives_same hp hv h (op := 0x01) rfl fun u hu => (gateEffect_wait hu hk).trans (if_pos hle)
  · exact hr.waits_at hp hv h (op := 0x01) rfl h.waiters fun u hu => (gateEffect_wait (hu.gate _) hk).trans (if_neg (Nat.not_le.mpr hlt))

/-- The lock is granted to its issuer. -/
theorem Ready.granted (hr : Ready s n b) (hp : predBad p = false) (hv : (s.core n).capture.pred p = true) (h : GateHere s b f)
    (hi : slotRow i = some ((n : Nat), slotD, p, opGate op f))
    (heff : ∀ u : State, AtGate s u n (gateOpHere s n b op f) → gateEffect u f.gate.toNat op.toNat (gateWaiter s n op f)
      = (u.setGate f.gate.toNat (grantLock u.time.count (s.gate f.gate.toNat) (gateWaiter s n op f)).1,
        some (grantLock u.time.count (s.gate f.gate.toNat) (gateWaiter s n op f)).2)) :
    Completes i s (fun t => ∃ q : Waiter, q.fa = s.fa ∧ q.core = byte (s.logical n) ∧ q.life = s.life (s.logical n)
      ∧ GateIssued s t n f (grantLock s.time.count (s.gate f.gate.toNat) q).1 (some (grantLock s.time.count (s.gate f.gate.toNat) q).2)) := by
  obtain ⟨t, ht, hissued⟩ := hr.effect_row hp hv hi h.own h.chiplet h.serves fun u hu =>
    ⟨_, .setGate u _ (grantLock s.time.count (s.gate f.gate.toNat) (gateWaiter s n op f)).1, by rw [heff u hu, hu.time]⟩
  exact ⟨t, ht, gateWaiter s n op f, rfl, rfl, rfl, hissued⟩

/-- The rows of a free lock. -/
theorem Ready.free_lock_rows (hr : Ready s n b) (hp : predBad p = false) (hv : (s.core n).capture.pred p = true) (h : GateHere s b f)
    (hk : (s.gate f.gate.toNat).kind = .lock) (hh : (s.gate f.gate.toNat).holder = none) :
    (∀ i, i = .glock n p f ∨ i = .gtry n p f → Completes i s (fun t => ∃ q : Waiter, q.fa = s.fa ∧ q.core = byte (s.logical n)
      ∧ q.life = s.life (s.logical n)
      ∧ GateIssued s t n f (grantLock s.time.count (s.gate f.gate.toNat) q).1 (some (grantLock s.time.count (s.gate f.gate.toNat) q).2)))
    ∧ Gives (.gunlock n p f) s n f (s.gate f.gate.toNat) (plainStatus gsNotOwner)
    ∧ Gives (.gclean n p f) s n f (s.gate f.gate.toNat) (plainStatus gsNotOwner) := by
  have hfree : ¬((s.gate f.gate.toNat).holder.isSome = true) := by simp [hh]
  have hnot : ∀ w, ¬(heldBy (s.gate f.gate.toNat) w = true) := fun w => by simp [heldBy, hh]
  have hword : holderWord gsNotOwner (s.gate f.gate.toNat) = plainStatus gsNotOwner := by simp [holderWord, hh]
  refine ⟨fun i hi => ?_, ?_, ?_⟩
  · obtain rfl | rfl := hi
    · exact hr.granted hp hv h (op := 0x02) rfl fun u hu => (gateEffect_lock (hu.gate _) hk).trans (if_neg hfree)
    · exact hr.granted hp hv h (op := 0x03) rfl fun u hu => (gateEffect_try (hu.gate _) hk).trans (if_neg hfree)
  · exact hr.gives_same hp hv h (op := 0x04) rfl fun u hu => by rw [← hword]; exact (gateEffect_unlock hu hk).trans (if_neg (hnot _))
  · exact hr.gives_same hp hv h (op := 0x05) rfl fun u hu => by rw [← hword]; exact (gateEffect_clean hu hk).trans (if_neg (hnot _))

/-- The rows of a lock that is held. -/
theorem Ready.held_lock_rows (hr : Ready s n b) (hp : predBad p = false) (hv : (s.core n).capture.pred p = true) (h : GateHere s b f)
    (hk : (s.gate f.gate.toNat).kind = .lock) {hd : Holder} (hh : (s.gate f.gate.toNat).holder = some hd) :
    Waits (.glock n p f) s n f (s.gate f.gate.toNat)
    ∧ Gives (.gtry n p f) s n f (s.gate f.gate.toNat) (statusWord gsBusy hd.fa hd.core hd.epoch) := by
  have hheld : (s.gate f.gate.toNat).holder.isSome = true := by simp [hh]
  have hword : holderWord gsBusy (s.gate f.gate.toNat) = statusWord gsBusy hd.fa hd.core hd.epoch := by simp [holderWord, hh]
  refine ⟨?_, ?_⟩
  · exact hr.waits_at hp hv h (op := 0x02) rfl h.waiters fun u hu => (gateEffect_lock (hu.gate _) hk).trans (if_pos hheld)
  · exact hr.gives_same hp hv h (op := 0x03) rfl fun u hu => by rw [← hword]; exact (gateEffect_try hu hk).trans (if_pos hheld)

/-- The rows of a lock that its issuer holds. -/
theorem Ready.own_lock_rows (hr : Ready s n b) (hp : predBad p = false) (hv : (s.core n).capture.pred p = true) (h : GateHere s b f)
    (hk : (s.gate f.gate.toNat).kind = .lock) {hd : Holder} (hh : (s.gate f.gate.toNat).holder = some hd) (hfa : hd.fa = s.fa)
    (hcore : hd.core = byte (s.logical n)) (hlife : hd.life = s.life (s.logical n)) :
    Gives (.gunlock n p f) s n f { s.gate f.gate.toNat with holder := none } (plainStatus gsOk)
    ∧ ∀ dw : DeadOwner, (s.gate f.gate.toNat).dead = some dw → dw.epoch = ((s.core n).getS f.sv.toNat).setWidth 32 →
      Gives (.gclean n p f) s n f { s.gate f.gate.toNat with dead := none } (statusWord gsOk hd.fa hd.core hd.epoch) := by
  have hmine : ∀ op : Byte, heldBy (s.gate f.gate.toNat) (gateWaiter s n op f) = true := fun op => by
    simp [heldBy, hh, gateWaiter, localWaiter, hfa, hcore, hlife]
  have hword : holderWord gsOk (s.gate f.gate.toNat) = statusWord gsOk hd.fa hd.core hd.epoch := by simp [holderWord, hh]
  refine ⟨?_, fun dw hdead hepoch => ?_⟩
  · refine hr.effect_row hp hv (op := 0x04) rfl h.own h.chiplet h.serves fun u hu => ?_
    exact ⟨_, GateSet.released u (k := { s.gate f.gate.toNat with holder := none }) h.waiters,
      (gateEffect_unlock (hu.gate _) hk).trans (if_pos (hmine _))⟩
  · refine hr.gives_set hp hv h (op := 0x05) rfl fun u hu => (gateEffect_clean hu hk).trans ?_
    rw [if_pos (hmine _), hdead, ← hword]
    exact if_pos hepoch

/-- gbar at a barrier of no gang. -/
theorem Ready.barrier_rows (hr : Ready s n b) (hp : predBad p = false) (hv : (s.core n).capture.pred p = true) (h : GateHere s b f)
    (hk : (s.gate f.gate.toNat).kind = .barrier) (hg : barrierGang s f.gate.toNat = none) :
    (barrierArrived (s.gate f.gate.toNat).value + 1 < barrierParties (s.gate f.gate.toNat).value → Waits (.gbar n p f) s n f
      (atValue (s.gate f.gate.toNat) (barrierValue (barrierParties (s.gate f.gate.toNat).value)
        (barrierArrived (s.gate f.gate.toNat).value + 1) (barrierGen (s.gate f.gate.toNat).value))))
    ∧ (barrierParties (s.gate f.gate.toNat).value ≤ barrierArrived (s.gate f.gate.toNat).value + 1 → Gives (.gbar n p f) s n f
      (atValue (s.gate f.gate.toNat) (barrierValue (barrierParties (s.gate f.gate.toNat).value) 0 (barrierGen (s.gate f.gate.toNat).value + 1)))
      (plainStatus gsOk)) := by
  refine ⟨fun hlt => ?_, fun hge => ?_⟩
  · exact hr.waits_at hp hv h (op := 0x06) rfl h.waiters fun u hu =>
      (gateEffect_barrier (hu.gate _) hk).trans (arriveBarrier_waits (hu.gate _) ((hu.barrierGang _).trans hg) hlt)
  · refine hr.effect_row hp hv (op := 0x06) rfl h.own h.chiplet h.serves fun u hu => ?_
    obtain ⟨v, hset, hv'⟩ := arriveBarrier_releases (w := gateWaiter s n 0x06 f) (hu.gate f.gate.toNat) h.waiters ((hu.barrierGang _).trans hg) hge
    exact ⟨v, hset, (gateEffect_barrier (hu.gate _) hk).trans hv'⟩

/-- The rows of an event. -/
theorem Ready.event_rows (hr : Ready s n b) (hp : predBad p = false) (hv : (s.core n).capture.pred p = true) (h : GateHere s b f)
    (hk : (s.gate f.gate.toNat).kind = .event) :
    Gives (.gsig n p f) s n f (atValue (s.gate f.gate.toNat) 1) (plainStatus gsOk)
    ∧ Gives (.gclr n p f) s n f (atValue (s.gate f.gate.toNat) 0) (plainStatus gsOk)
    ∧ ((s.gate f.gate.toNat).value ≠ 0 → Gives (.gevw n p f) s n f (s.gate f.gate.toNat) (plainStatus gsOk))
    ∧ ((s.gate f.gate.toNat).value = 0 → Waits (.gevw n p f) s n f (s.gate f.gate.toNat)) := by
  refine ⟨?_, ?_, fun hne => ?_, fun h0 => ?_⟩
  · refine hr.effect_row hp hv (op := 0x07) rfl h.own h.chiplet h.serves fun u hu => ?_
    exact ⟨_, GateSet.woken u (k := atValue (s.gate f.gate.toNat) 1) h.waiters _ _, gateEffect_signal (hu.gate _) hk⟩
  · exact hr.gives_set hp hv h (op := 0x09) rfl fun u hu => gateEffect_clear hu hk
  · exact hr.gives_same hp hv h (op := 0x08) rfl fun u hu => (gateEffect_await hu hk).trans (if_neg hne)
  · exact hr.waits_at hp hv h (op := 0x08) rfl h.waiters fun u hu => (gateEffect_await (hu.gate _) hk).trans (if_pos h0)

/-- A row of another kind fails with its word. -/
theorem Ready.wrong_kind_rows (hr : Ready s n b) (hp : predBad p = false) (hv : (s.core n).capture.pred p = true) (h : GateHere s b f) :
    ((s.gate f.gate.toNat).kind = .lock → Gives (.grd n p f) s n f (s.gate f.gate.toNat) (lockRead (s.gate f.gate.toNat)))
    ∧ ((s.gate f.gate.toNat).kind ≠ .counter → Gives (.gadd n p f) s n f (s.gate f.gate.toNat) (failWord 0 gsWrongKind))
    ∧ ((s.gate f.gate.toNat).kind ≠ .lock → Gives (.grd n p f) s n f (s.gate f.gate.toNat) (s.gate f.gate.toNat).value
      ∧ Gives (.glock n p f) s n f (s.gate f.gate.toNat) (failWord 2 gsWrongKind)) := by
  refine ⟨fun hk => ?_, fun hk => ?_, fun hk => ⟨?_, ?_⟩⟩
  · exact hr.gives_same hp hv h (op := 0x0A) rfl fun u hu => gateEffect_read_lock hu hk
  · exact hr.gives_same hp hv h (op := 0x00) rfl fun u hu => gateEffect_add_wrong hu hk
  · exact hr.gives_same hp hv h (op := 0x0A) rfl fun u hu => gateEffect_read hu hk
  · exact hr.gives_same hp hv h (op := 0x02) rfl fun u hu => gateEffect_lock_wrong hu hk

/-- A gate that does not serve the core's basin answers so. -/
theorem Ready.unserved_row (hr : Ready s n b) (hp : predBad p = false) (hv : (s.core n).capture.pred p = true) (hown : f.rem = false)
    (hsf : f.sf = 0) (hserves : gateServes s f.gate.toNat (some b) (s.basin b).tenant = false) :
    Gives (.gadd n p f) s n f (s.gate f.gate.toNat) unreachableWord := by
  obtain ⟨u, hu, heq⟩ := hr.issueGate_here (op := 0x00) hown
  have hserves' : gateServes u f.gate.toNat (some b) (s.basin b).tenant = false := (hu.serves _ _ _).trans hserves
  refine hr.answered_row hp hv (op := 0x00) rfl hown hsf hu (hu.same _) (heq.trans (congrArg _ (if_neg ?_)))
  rw [hserves']
  exact Bool.false_ne_true

end

end Sys2Proof.Machine
end

section
/-! PROOFS. The rows of the A, M, V, D and H slots take effect (R204 to R206, R236 to R246, R427 to R462). -/

namespace Sys2Proof.Machine

section
variable {s : State} {n : Fin 64} {b : Nat} {p : Pred}

theorem Ready.srcD_getS (hr : Ready s n b) (u : State) (r : BitVec 5) : srcD (rowCtx s n slotD) u r = (s.core n).getS r.toNat := by
  simp only [srcD, rowCtx_snap, rowCtx_node, hr.readS_getS]

/-! ### In-memory operations (R332, R333) -/

/-- A fill of no bytes does nothing. -/
theorem Ready.dfill_nothing (hr : Ready s n b) (hp : predBad p = false) (hv : (s.core n).capture.pred p = true) (ad : BitVec 4) (r3 : BitVec 5)
    {r2 : BitVec 5} (hlen : ((s.core n).getS r2.toNat).toNat = 0) : Steps (.dfill n p ad r3 r2) s n (fun c => c) := by
  refine hr.writes rfl hp hv rfl ?_ (fun t => ?_) ?_ .nothing ?_
  · simp only [opDfill, hr.srcD_getS, hlen]
    rfl
  · simp only [opDfill, hr.srcD_getS, hlen, if_true]
  · simp only [opDfill, hr.srcD_getS, hlen]
    exact if_neg (by simp [queueFull, sliceParts])
  · simp only [opDfill, hr.srcD_getS, hlen, if_true, atIssue_unchanged]

theorem Ready.dcopy_nothing (hr : Ready s n b) (hp : predBad p = false) (hv : (s.core n).capture.pred p = true) (ad aa : BitVec 4)
    {r2 : BitVec 5} (hlen : ((s.core n).getS r2.toNat).toNat = 0) : Steps (.dcopy n p ad aa r2) s n (fun c => c) := by
  refine hr.writes rfl hp hv rfl ?_ (fun t => ?_) ?_ .nothing ?_
  · simp only [opDcopy, hr.srcD_getS, hlen]
    rfl
  · simp only [opDcopy, hr.srcD_getS, hlen, if_true]
  · simp only [opDcopy, hr.srcD_getS, hlen]
    exact if_neg (by simp [queueFull, sliceParts])
  · simp only [opDcopy, hr.srcD_getS, hlen, if_true, atIssue_unchanged]

theorem Ready.dfill_row (hr : Ready s n b) (hp : predBad p = false) (hv : (s.core n).capture.pred p = true) {ad : BitVec 4} (r3 : BitVec 5)
    {r2 : BitVec 5} {len dst : Nat} (hlen : ((s.core n).getS r2.toNat).toNat = len) (hdst : (tget 0 (s.core n).a ad.toNat).toNat = dst)
    (hgood : lengthBad len = false) (hne : len ≠ 0) (hc : ∀ q ∈ [wideRange (tget 0 (s.core n).a ad.toNat) len true], rangeFault s n q = none)
    (hq : s.store.queues = []) : exec (.dfill n p ad r3 r2) s = .next ((startMemOp s n dst dst len ((sliceParts dst len).map (fun q =>
        (sliceOf q.1, { dst := q.1, len := q.2, work := .fill s.store.nextOp ((s.core n).getS r3.toNat) })))).setCore n
      ({ s.core n with sb := [wideRange (tget 0 (s.core n).a ad.toNat) len true].map (fun q => q.entry (.memory s.store.nextOp)) } : Core).stepped) := by
  subst hlen hdst
  refine hr.memory_row hp hv rfl rfl ?_ (fun t => ?_) hc (by simp) rfl ?_ fun c => ?_
  · simp only [opDfill, hr.srcD_getS, hgood, Bool.false_eq_true, if_false]
  · simp only [opDfill, hr.srcD_getS, hne, if_false]
    rfl
  · simp only [opDfill, hr.srcD_getS, queueFull_empty (t := atIssue s n) hq, Bool.false_eq_true, if_false]
  · simp only [opDfill, hr.srcD_getS, hne, if_false]
    rfl

theorem Ready.dcopy_row (hr : Ready s n b) (hp : predBad p = false) (hv : (s.core n).capture.pred p = true) {ad aa : BitVec 4}
    {r2 : BitVec 5} {len dst : Nat} (hlen : ((s.core n).getS r2.toNat).toNat = len) (hdst : (tget 0 (s.core n).a ad.toNat).toNat = dst)
    (hgood : lengthBad len = false) (hne : len ≠ 0)
    (hc : ∀ q ∈ [wideRange (tget 0 (s.core n).a aa.toNat) len false, wideRange (tget 0 (s.core n).a ad.toNat) len true], rangeFault s n q = none)
    (hq : s.store.queues = []) : exec (.dcopy n p ad aa r2) s = .next
      ((startMemOp s n dst (tget 0 (s.core n).a aa.toNat).toNat len ((sliceParts (tget 0 (s.core n).a aa.toNat).toNat len).map (fun q =>
        (sliceOf q.1, { dst := dst + (q.1 - (tget 0 (s.core n).a aa.toNat).toNat), len := q.2, work := .copy s.store.nextOp q.1 })))).setCore n
      ({ s.core n with
          sb := [wideRange (tget 0 (s.core n).a aa.toNat) len false, wideRange (tget 0 (s.core n).a ad.toNat) len true].map
            (fun q => q.entry (.memory s.store.nextOp)) } : Core).stepped) := by
  subst hlen hdst
  refine hr.memory_row hp hv rfl rfl ?_ (fun t => ?_) hc (by simp) rfl ?_ fun c => ?_
  · simp only [opDcopy, hr.srcD_getS, hgood, Bool.false_eq_true, if_false]
  · simp only [opDcopy, hr.srcD_getS, hne, if_false]
    rfl
  · simp only [opDcopy, hr.srcD_getS, queueFull_empty (t := atIssue s n) hq, Bool.false_eq_true, if_false]
  · simp only [opDcopy, hr.srcD_getS, hne, if_false]
    rfl

/-! ### Head rows -/

theorem Ready.loop_register_row (hr : Ready s n b) (hp : predBad p = false) (hv : (s.core n).capture.pred p = true) (level : Bool) (rb : BitVec 5)
    {stop : BitVec 14} (hlater : (s.core n).pc.toNat + 1 ≤ stop.toNat) :
    exec (.loop n p level rb stop) s = .next (s.setCore n ((s.core n).looped level (((s.core n).getS rb.toNat).setWidth 32) stop)) := by
  refine hr.loop_row hp hv rfl hlater (decide_eq_false (Nat.not_lt.mpr hlater)) ?_
  simp only [opLoop, rowCtx_snap, rowCtx_node, hr.readS_getS]
  rfl

/-- A line of the image that is neither there nor asked for is asked for. -/
theorem Ready.pref_row (hr : Ready s n b) (hp : predBad p = false) (hv : (s.core n).capture.pred p = true) {ln : BitVec 10} {i : Image}
    (hi : imageOf s n = some i) (hin : 768 * ln.toNat < i.bytes.length) (hbuf : (s.core n).ibuf.contains ln.toNat = false)
    (hfetch : (s.core n).fetching.contains ln.toNat = false) :
    Steps (.pref n p ln) s n (fun c => { c with fetching := c.fetching ++ [ln.toNat] }) := by
  have himage : imageOf (atIssue s n) n = some i := hi
  have hnew : ((s.core n).captured.ibuf.contains ln.toNat || (s.core n).captured.fetching.contains ln.toNat) = false := by
    rw [Bool.or_eq_false_iff]
    exact ⟨hbuf, hfetch⟩
  refine hr.core_row hp hv rfl ?_ (by constructor <;> intros <;> rfl)
  simp only [opPref, rowCtx_node, himage, hin, if_true, writeCore, State.modCore, atIssue_core, hnew, Bool.false_eq_true, if_false]

end

/-- Settles O59: row by row. -/
theorem otherSlotRowsTakeEffect : Obligations.OtherSlotRowsTakeEffect := by
  unfold Obligations.OtherSlotRowsTakeEffect
  intro n b sl p ms mb mt fv fg m tok ad aa rb r2 r3 sh pd kind lg imm stride i28 i25 tl qd ch typ level dir g7 stop count lead dur ln hd dw ns s
    hp hv c S R putA x clear whole sbOf idle os begins holdsAnchor takes streams types k here gives waits me grants mine parties arrived len dst span
    post lanes chan loops
  refine ⟨?_, fun hr => ?_⟩
  · intro nb hr hm hidle hclear
    obtain ⟨t, ht, hstore, hpc, hstrip⟩ := hr.mlat hp hv hm (fun j hj => ⟨⟨(hidle j hj).1, (hidle j hj).2.1, (hidle j hj).2.2.1⟩, (hidle j hj).2.2.2⟩)
      hclear
    exact ⟨t, (exec_slotRow _ _ _ _ _ s rfl).trans (congrArg _ ht), hstore, hpc, hstrip⟩
  have hfree : idle → Idle s n := fun h => ⟨h.1, h.2.1, h.2.2⟩
  have hgate : here → GateHere s b fg := fun h => ⟨h.1, h.2.1, h.2.2.1, h.2.2.2⟩
  refine ⟨?_, ?_, ?_, ?_, ?_, ?_, ?_, ?_, ?_, ?_, ?_, ?_, ?_, ?_, ?_, ?_, ?_, ?_, ?_, ?_, ?_, ?_, ?_, ?_, ?_, ?_, ?_, ?_, ?_, ?_, ?_, ?_, ?_, ?_⟩
  · exact hr.putA_row hp hv rfl rfl
  · exact hr.putA_row hp hv rfl rfl
  · exact hr.aadd_row hp hv sl ad aa rb sh
  · exact fun h8 h29 => hr.acirc_row hp hv sl h8 h29
  · exact hr.core_row hp hv rfl rfl (.setP _ _)
  · exact hr.putA_row hp hv rfl rfl
  · exact hr.core_row hp hv rfl rfl (.setS _ _)
  · exact fun hi hc hw hm => hr.mmul_row hp hv hm (hfree hi) hc hw
  · exact fun hi hc hw hm heven => hr.mmulp_row hp hv hm heven (hfree hi) hc hw rfl
  · exact fun hi hc hw hm => hr.mmul3_row hp hv hm (hfree hi) hc hw
  · exact fun hi hc hw hm => hr.mb_row hp hv rfl hm (hfree hi) hc hw
  · exact fun hi hout hc => hr.mst_row hp hv (hfree hi) hout (hc _ (List.mem_singleton.mpr rfl))
  · exact fun hi hout hsat heven hc => hr.mstp_row hp hv (hfree hi) hout hsat heven (hc _ (List.mem_singleton.mpr rfl))
  · exact fun hi => hr.mfin_row hp hv (hfree hi) tl
  · exact fun ht hn hc => hr.vbath_row hp hv ht hn hc
  · exact fun ht hn hc htok hbound => hr.vtpop_row hp hv ht hn hc htok hbound
  · exact fun hq ht hk htyp hc => hr.vred_row hp hv hq ht hk htyp hc
  · exact fun hq ht hal => hr.vred_anchor_row hp hv hq ht hal
  · exact fun hs => hr.vtclr_row hp hv hs tl
  · exact fun hs hc => ⟨hr.vtld_row hp hv hs tl hc, hr.vcfill_row hp hv ad hc⟩
  · intro h
    obtain ⟨hlock, hadd, hread⟩ := hr.wrong_kind_rows hp hv (hgate h)
    refine ⟨?_, ?_, ?_, ?_, ?_, ?_, ?_, ?_, ?_⟩
    · exact fun hk => hr.counter_rows hp hv (hgate h) hk
    · intro hk hh
      obtain ⟨hgrant, hunlock, hclean⟩ := hr.free_lock_rows hp hv (hgate h) hk hh
      exact ⟨hgrant _ (.inl rfl), hgrant _ (.inr rfl), hunlock, hclean⟩
    · exact fun hk hh => hr.held_lock_rows hp hv (hgate h) hk hh
    · intro hk hmine
      obtain ⟨hunlock, hclean⟩ := hr.own_lock_rows hp hv (hgate h) hk hmine.1 hmine.2.1 hmine.2.2.1 hmine.2.2.2
      exact ⟨hunlock, hclean dw⟩
    · exact hlock
    · exact fun hk hg => hr.barrier_rows hp hv (hgate h) hk hg
    · exact fun hk => hr.event_rows hp hv (hgate h) hk
    · exact hadd
    · exact hread
  · exact fun hown hsf hserves => hr.unserved_row hp hv hown hsf hserves
  · exact fun hrem hne hreach => hr.remote_row hp hv (op := 0x00) rfl hrem rfl hne hreach
  · exact fun hlen => ⟨hr.dfill_nothing hp hv ad r3 hlen, hr.dcopy_nothing hp hv ad aa hlen⟩
  · exact fun hgood hne hc hq => hr.dfill_row hp hv r3 rfl rfl hgood hne hc hq
  · exact fun hgood hne hc hq => hr.dcopy_row hp hv rfl rfl hgood hne hc hq
  · exact fun hr3 hlen hk hw hserves => hr.empty_post hp hv hr3 hlen hk hw hserves
  · exact fun hr3 hl hne hwhole hidle hword hreach hal hsize => hr.full_post hp hv hr3 hl.2 hne hl.1 hwhole hidle hword hreach hal hsize
  · exact fun hlater => ⟨hr.loop_register_row hp hv level rb hlater, hr.loop_row hp hv rfl hlater (decide_eq_false (Nat.not_lt.mpr hlater)) rfl⟩
  · exact hr.core_row hp hv rfl rfl (by constructor <;> intros <;> rfl)
  · exact hr.phase_row hp hv tl
  · exact fun i hi hin hbuf hfetch => hr.pref_row hp hv hi hin hbuf hfetch
  · exact hr.core_row hp hv rfl rfl (by constructor <;> intros <;> rfl)
  · exact fun hs => hr.end_row hp hv hs

end Sys2Proof.Machine
end

section
/-! PROOFS. The leat chain: frames that come in, what goes on, and the master's sweep (R522 to R538). -/

namespace Sys2Proof.Machine

/-! ### Sending (R525) -/

/-- The pair on which a chiplet in `st` sends. -/
def outPair (st : LeatState) : LeatPair := if st = .reverse then .di else .dO

/-- The pair on which a chiplet in `st` receives. -/
def backPair (st : LeatState) : LeatPair := if st = .reverse then .dO else .di

/-- A frame as it leaves. -/
def leatOut (p : LeatPair) (k a : Byte) (tag : W16) (b : List Byte) : Sent := .leat p k { addr := a, tag := tag, body := padTo 64 b, ok := true }

/-- The frames of a train as they leave. -/
def trainOut (p : LeatPair) (l : List TrainFrame) : List Sent := l.map (fun t => leatOut p t.kind t.f.addr t.f.tag t.f.body)

/-- The chiplet drives its pair in `st`. -/
structure Driving (s : State) (st : LeatState) : Prop where
  up : leatUp s = true
  state : s.leat.state = st
  found : st ≠ .search
  drives : s.leat.master = true → s.leat.drive = true

section
variable {s : State} {st : LeatState}

theorem Driving.pair (h : Driving s st) : drivenPair s = some (outPair st) := by
  have hup := h.up
  have hgo : (s.boot.rstLow || s.boot.dead || (s.leat.master && !s.leat.drive)) = false := by
    simp only [leatUp, Bool.and_eq_true, Bool.not_eq_true'] at hup
    cases hm : s.leat.master with
    | false => simp [hup]
    | true => simp [hup, h.drives hm]
  unfold drivenPair
  rw [hgo, h.state]
  cases hst : st with
  | forward => rfl
  | reverse => rfl
  | search => exact absurd hst h.found

theorem Driving.send (h : Driving s st) (k a : Byte) (tag : W16) (b : List Byte) : leatSend s k a tag b = s.emit (leatOut (outPair st) k a tag b) := by
  unfold leatSend
  rw [h.pair]
  rfl

theorem Driving.emit (h : Driving s st) (x : Sent) : Driving (s.emit x) st := ⟨h.up, h.state, h.found, h.drives⟩

/-- A train leaves frame by frame. -/
theorem Driving.sendTrains (h : Driving s st) (l : List TrainFrame) :
    l.foldl sendTrain s = { s with sent := s.sent ++ trainOut (outPair st) l } := by
  induction l generalizing s with
  | nil => simp [trainOut]
  | cons t l ih =>
    rw [List.foldl_cons, sendTrain, h.send, ih (h.emit _)]
    simp [State.emit, trainOut]

/-- A master that does not drive sends nothing. -/
theorem leatSend_quiet (hm : s.leat.master = true) (hd : s.leat.drive = false) (k a : Byte) (tag : W16) (b : List Byte) : leatSend s k a tag b = s := by
  unfold leatSend drivenPair
  simp [hm, hd]

end

/-! ### Receiving (R522, R523, R525) -/

/-- The chiplet in `st`, with no wait at the end of the line and no half of a request. -/
def heard (s : State) (st : LeatState) : State := setLeat s { s.leat with state := st, turned := false, half := none }

section
variable {s : State} {on : LeatPair} {k : Byte} {f : LeatFrame} {st : LeatState} {handle : State → State}

theorem receivingState_found (h : receivingState s.leat on = some st) : st ≠ .search := by
  unfold receivingState at h
  split at h <;> cases h <;> decide

theorem receive_silent (h : leatUp s = false) (b : Bool) : receive s on k f b handle = s := by simp [receive, h]

theorem receive_none (h : receivingState s.leat on = none) (b : Bool) : receive s on k f b handle = s := by
  unfold receive
  rw [h]
  split <;> rfl

theorem receive_bad (hup : leatUp s = true) (h : receivingState s.leat on = some st) (hf : f.ok = false) (b : Bool) :
    receive s on k f b handle = setLeat s { s.leat with discards := s.leat.discards + 1, half := none } := by
  unfold receive
  cases b <;> simp [hup, h, hf, modLeat, setLeat]

/-- An intact frame, whole in itself, finds the chiplet heard. -/
theorem receive_handled (hup : leatUp s = true) (h : receivingState s.leat on = some st) (hf : f.ok = true) (hm : s.leat.master = false) :
    receive s on k f false handle = handle (heard s st) := by
  simp [receive, hup, h, hf, modLeat, setLeat, hm, heard]

theorem receive_mastered (hup : leatUp s = true) (h : receivingState s.leat on = some st) (hf : f.ok = true) (hm : s.leat.master = true) :
    receive s on k f false handle = masterTakes (heard s st) k f := by
  simp [receive, hup, h, hf, modLeat, setLeat, hm, heard]

/-- A second half finds the first as it is. -/
theorem receive_second (hup : leatUp s = true) (h : receivingState s.leat on = some st) (hf : f.ok = true) :
    receive s on k f true handle = if s.leat.master then masterTakes (setLeat s { s.leat with state := st, turned := false }) k f
      else handle (setLeat s { s.leat with state := st, turned := false }) := by
  simp [receive, hup, h, hf, modLeat, setLeat]

theorem heard_driving (hup : leatUp s = true) (h : receivingState s.leat on = some st) (hm : s.leat.master = false) : Driving (heard s st) st :=
  ⟨hup, rfl, receivingState_found h, fun hmaster => absurd (show s.leat.master = true from hmaster) (by simp [hm])⟩

theorem heard_drives (hup : leatUp s = true) (h : receivingState s.leat on = some st) (hd : s.leat.drive = true) : Driving (heard s st) st :=
  ⟨hup, rfl, receivingState_found h, fun _ => hd⟩

end

/-! ### The rows that receive a frame -/

/-- In each of these rows a frame comes in. -/
theorem frameRows_receive {on : LeatPair} {urgent second : Bool} {f : LeatFrame} {i : Instr}
    (h : i ∈ [Instr.idle on f, .turn on f, .turned on f, .responseFrame on urgent second f, .sweepHead on f, .record on f, .sweepEnd on f,
      .image on f, .blockCheck on f, .requestFirstHalf on urgent f, .requestSecondHalf on urgent f]) (s : State) :
    ∃ k b handle, exec i s = .next (receive s on k f b handle) := by
  simp only [List.mem_cons, List.not_mem_nil, or_false] at h
  obtain rfl | rfl | rfl | rfl | rfl | rfl | rfl | rfl | rfl | rfl | rfl := h <;> exact ⟨_, _, _, rfl⟩

/-- Without the frame logic no timer of the chain does anything. -/
theorem leatTimers_silent {s : State} (h : leatUp s = false) :
    ∀ i ∈ [Instr.masteryTakeover, .masterDrivePermitted, .sweepPeriod, .sweepStall, .sweepCutTimeout, .endOfLineTimeout, .heldRecordTimer],
      exec i s = .next s := by
  have hup : (!leatUp s) = true := by rw [h]; rfl
  intro i hi
  simp only [List.mem_cons, List.not_mem_nil, or_false] at hi
  obtain rfl | rfl | rfl | rfl | rfl | rfl | rfl := hi
  · exact congrArg _ (if_pos (by simp [hup]))
  · exact congrArg _ (if_pos (by simp [hup]))
  · exact congrArg _ (if_neg (by simp [h]))
  · exact congrArg _ (if_pos (by simp [hup]))
  · exact congrArg _ (if_pos (by simp [hup]))
  · exact congrArg _ (if_pos (by simp [hup]))
  · exact congrArg _ (if_pos (by simp [hup]))

/-! ### What a chiplet that is not the master does (R525 to R534) -/

section
variable {s : State} {on : LeatPair} {f : LeatFrame} {st : LeatState}

/-- An intact frame comes in at a chiplet that is not the master. -/
structure Comes (s : State) (on : LeatPair) (f : LeatFrame) (st : LeatState) : Prop where
  up : leatUp s = true
  state : receivingState s.leat on = some st
  ok : f.ok = true
  member : s.leat.master = false

theorem Comes.receive (h : Comes s on f st) (k : Byte) (handle : State → State) : Machine.receive s on k f false handle = handle (heard s st) :=
  receive_handled h.up h.state h.ok h.member

theorem Comes.driving (h : Comes s on f st) : Driving (heard s st) st := heard_driving h.up h.state h.member

/-- A frame goes on as it is. -/
theorem Driving.forward (h : Driving s st) (k : Byte) (f : LeatFrame) : Machine.forward k f s = s.emit (leatOut (outPair st) k f.addr f.tag f.body) := h.send _ _ _ _

theorem Comes.forwards (h : Comes s on f st) (k : Byte) :
    Machine.receive s on k f false (forward k f) = (heard s st).emit (leatOut (outPair st) k f.addr f.tag f.body) := by
  rw [h.receive, h.driving.forward]

theorem outPair_opposite (h : st ≠ .search) : outPair (opposite st) = backPair st := by
  cases st with
  | forward => rfl
  | reverse => rfl
  | search => exact absurd rfl h

theorem opposite_found (h : st ≠ .search) : opposite st ≠ .search := by
  cases st with
  | forward => decide
  | reverse => decide
  | search => exact absurd rfl h

/-- TURN goes on, and the chiplet drives the pair on which it came. -/
theorem Comes.turn (h : Comes s on f st) : exec (.turn on f) s = .next
    (((setLeat (heard s st) { (heard s st).leat with state := opposite st, turned := true }).emit
      (leatOut (outPair st) 0x02 f.addr f.tag f.body)).emit (leatOut (backPair st) 0x03 (ownSlot s) 0 [])) := by
  have hfound := receivingState_found h.state
  have hback : Driving (setLeat ((heard s st).emit (leatOut (outPair st) 0x02 f.addr f.tag f.body))
      { (heard s st).leat with state := opposite st, turned := true }) (opposite st) :=
    ⟨h.up, rfl, opposite_found hfound, fun hm => absurd (show s.leat.master = true from hm) (by simp [h.member])⟩
  change Host.Outcome.next (Machine.receive s on 0x02 f false _) = _
  rw [h.receive, h.driving.forward]
  simp only [modLeat]
  exact congrArg _ ((hback.send _ _ _ _).trans (by rw [outPair_opposite hfound]; rfl))

/-- A head that names the other direction only goes on. -/
theorem Comes.head_other (h : Comes s on f st) (hn : byte (fieldAt f.body 7 1) ≠ if st = .reverse then 1 else 0) :
    exec (.sweepHead on f) s = .next ((heard s st).emit (leatOut (outPair st) 0x10 f.addr f.tag f.body)) := by
  change Host.Outcome.next (Machine.receive s on 0x10 f false _) = _
  rw [h.receive]
  simp only
  rw [if_pos (show byte (fieldAt f.body 7 1) ≠ direction (heard s st).leat from hn), h.driving.forward]

/-- The chain's part of the state as a head leaves it. -/
theorem Comes.head_own (h : Comes s on f st) (hn : byte (fieldAt f.body 7 1) = if st = .reverse then 1 else 0) :
    Completes (.sweepHead on f) s (fun t => t.sent = s.sent ++ [leatOut (outPair st) 0x10 f.addr f.tag f.body] ∧ t.leat.inTrain = true
      ∧ t.leat.lastSeq = f.tag.setWidth 32 ∧ t.leat.heldPeriods = 0 ∧ t.leat.headPeriod = fieldAt f.body 0 2
      ∧ t.leat.headSet = BitVec.ofNat 32 (fieldAt f.body 2 4) ∧ t.leat.events = 0 ∧ t.leat.discards = 0 ∧ t.leat.train = [{ kind := 0x10, f := f }]
      ∧ (∃ r, t.leat.own = some r ∧ r.kind = 0x11 ∧ r.f.addr = ownSlot s ∧ r.f.tag = f.tag)
      ∧ (tget ⟨0, 2, []⟩ t.leat.table (ownSlot s).toNat).seq = f.tag.setWidth 32
      ∧ (tget ⟨0, 2, []⟩ t.leat.table (ownSlot s).toNat).reach = if st = .reverse then 1 else 0) := by
  obtain ⟨w, hw⟩ : ∃ w, w = makeRecord (modLeat (heard s st) (fun l => { l with
      headPeriod := fieldAt f.body 0 2
      headSet := BitVec.ofNat 32 (fieldAt f.body 2 4)
      lastSeq := f.tag.setWidth 32
      heldPeriods := 0 })) (f.tag.setWidth 32) false (byte (fieldAt f.body 7 1)) := ⟨_, rfl⟩
  obtain ⟨v, hv⟩ : ∃ v, v = modLeat w.2 (fun l => { l with own := some w.1, inTrain := true, train := [{ kind := 0x10, f := f }] }) := ⟨_, rfl⟩
  have hdrive : Driving v st := by
    rw [hv, hw]
    exact ⟨h.up, rfl, receivingState_found h.state, fun hm => absurd (show s.leat.master = true from hm) (by simp [h.member])⟩
  have hexec : exec (.sweepHead on f) s = .next (v.emit (leatOut (outPair st) 0x10 f.addr f.tag f.body)) := by
    change Host.Outcome.next (Machine.receive s on 0x10 f false _) = _
    rw [h.receive]
    simp only
    rw [if_neg (not_not_intro (show byte (fieldAt f.body 7 1) = direction (heard s st).leat from hn)), ← hdrive.forward, hv, hw]
  refine ⟨_, hexec, ?_⟩
  rw [hv, hw]
  refine ⟨rfl, rfl, rfl, rfl, rfl, rfl, rfl, rfl, rfl, ⟨_, rfl, rfl, rfl, ?_⟩, ?_, ?_⟩
  · exact (BitVec.setWidth_setWidth_of_le f.tag (show 16 ≤ 32 by decide)).trans (BitVec.setWidth_eq f.tag)
  · exact congrArg SlotRecord.seq (tget_tput_same _ _ _ _)
  · exact (congrArg SlotRecord.reach (tget_tput_same _ _ _ _)).trans hn

/-- A record joins the train. -/
theorem Comes.record (h : Comes s on f st) : exec (.record on f) s = .next
    ((if s.leat.inTrain then setLeat (heard s st) { (heard s st).leat with train := s.leat.train ++ [{ kind := 0x11, f := f }] }
      else heard s st).emit (leatOut (outPair st) 0x11 f.addr f.tag f.body)) := by
  change Host.Outcome.next (Machine.receive s on 0x11 f false _) = _
  rw [h.receive]
  have hsame : (heard s st).leat.inTrain = s.leat.inTrain := rfl
  simp only [hsame]
  split
  · have hdrive : Driving (modLeat (heard s st) (fun l => { l with train := l.train ++ [{ kind := 0x11, f := f }] })) st :=
      ⟨h.driving.up, rfl, h.driving.found, h.driving.drives⟩
    rw [hdrive.forward]
    rfl
  · rw [h.driving.forward]

/-- The records of the chiplet and the end of the train leave. -/
theorem Driving.completes (h : Driving s st) (e : Nat → TrainFrame) :
    (completeTrain s e).leat.inTrain = false ∧ (completeTrain s e).leat.held = [] ∧ (completeTrain s e).leat.own = none
    ∧ (completeTrain s e).leat.dropped = false
    ∧ (completeTrain s e).sent = s.sent ++ trainOut (outPair st) (addedRecords s.leat) ++ trainOut (outPair st) [e (addedRecords s.leat).length] := by
  have hsend : sendTrain ((addedRecords s.leat).foldl sendTrain s) (e (addedRecords s.leat).length)
      = { s with sent := s.sent ++ trainOut (outPair st) (addedRecords s.leat) ++ trainOut (outPair st) [e (addedRecords s.leat).length] } := by
    rw [h.sendTrains]
    have hagain : Driving { s with sent := s.sent ++ trainOut (outPair st) (addedRecords s.leat) } st := ⟨h.up, h.state, h.found, h.drives⟩
    exact hagain.sendTrains [e (addedRecords s.leat).length]
  unfold completeTrain
  simp only [hsend]
  exact ⟨rfl, rfl, rfl, rfl, rfl⟩

end

end Sys2Proof.Machine
end

section
/-! PROOFS. The leat chain: images and requests that come in at a chiplet that is not the master (R531, R539). -/

namespace Sys2Proof.Machine

section
variable {s : State} {on : LeatPair} {f g : LeatFrame} {st : LeatState} {d : Delivery}

/-! ### The end of a train -/

/-- An end of a train of which the chiplet has no part only goes on. -/
theorem Comes.end_other (h : Comes s on f st) (ho : s.leat.inTrain = false ∨ fieldAt f.body 3 1 = 1) :
    exec (.sweepEnd on f) s = .next ((heard s st).emit (leatOut (outPair st) 0x12 f.addr f.tag f.body)) := by
  have hpass : (!(heard s st).leat.inTrain || fieldAt f.body 3 1 == 1) = true := by
    have hsame : (heard s st).leat.inTrain = s.leat.inTrain := rfl
    rw [hsame]
    rcases ho with ho | ho <;> simp [ho]
  change Host.Outcome.next (Machine.receive s on 0x12 f false _) = _
  rw [h.receive]
  exact congrArg _ ((if_pos hpass).trans (h.driving.forward _ _))

/-- Else the chiplet's records go before it. -/
theorem Comes.end_own (h : Comes s on f st) (hin : s.leat.inTrain = true) (hr : fieldAt f.body 3 1 ≠ 1) :
    Completes (.sweepEnd on f) s (fun t => t.leat.inTrain = false ∧ t.leat.held = [] ∧ t.leat.own = none ∧ t.leat.dropped = false
      ∧ t.sent = s.sent ++ trainOut (outPair st) (addedRecords s.leat)
        ++ [leatOut (outPair st) 0x12 f.addr f.tag (leBytes 2 (fieldAt f.body 0 2 + (addedRecords s.leat).length) ++ slice f.body 2 62)]) := by
  have hpass : ¬((!(heard s st).leat.inTrain || fieldAt f.body 3 1 == 1) = true) := by
    have hsame : (heard s st).leat.inTrain = s.leat.inTrain := rfl
    simp [hsame, hin, hr]
  have hexec : exec (.sweepEnd on f) s = .next (completeTrain (heard s st) (fun n =>
      { kind := 0x12, f := { f with body := leBytes 2 (fieldAt f.body 0 2 + n) ++ slice f.body 2 62 } })) := by
    change Host.Outcome.next (Machine.receive s on 0x12 f false _) = _
    rw [h.receive]
    exact congrArg _ (if_neg hpass)
  exact ⟨_, hexec, h.driving.completes _⟩

/-! ### Images (R539) -/

/-- A fragment or check value that is not for a delivery here only goes on. -/
theorem Comes.image_other (h : Comes s on f st) (hd : ∀ e, s.fw.delivery = some e → e.ep = 4 → f.addr ≠ ownSlot s ∧ f.addr ≠ 0xFF)
    (k : Byte) (take : Delivery → State → State) :
    Machine.receive s on k f false (imageFrame k f take) = (heard s st).emit (leatOut (outPair st) k f.addr f.tag f.body) := by
  have hfw : (heard s st).fw.delivery = s.fw.delivery := rfl
  have hown : ownSlot (heard s st) = ownSlot s := rfl
  rw [h.receive]
  unfold imageFrame
  rw [hfw, hown]
  cases he : s.fw.delivery with
  | none => exact h.driving.forward _ _
  | some e =>
    simp only
    split
    · obtain ⟨hne, hall⟩ := hd e he (by assumption)
      rw [if_neg hne, if_neg hall, h.driving.forward]
    · exact h.driving.forward _ _

/-- What a delivery here takes of a frame for this chiplet, or for every one. -/
theorem Comes.image_taken (h : Comes s on f st) (hd : s.fw.delivery = some d) (hep : d.ep = 4) (k : Byte) (take : Delivery → State → State) :
    (f.addr = ownSlot s → Machine.receive s on k f false (imageFrame k f take) = if d.phase = .receiving then take d (heard s st) else heard s st)
    ∧ (f.addr = 0xFF → Machine.receive s on k f false (imageFrame k f take)
      = forward k f (if d.phase = .receiving then take d (heard s st) else heard s st)) := by
  have hfw : (heard s st).fw.delivery = some d := hd
  have hown : ownSlot (heard s st) = ownSlot s := rfl
  have hslot : ownSlot s ≠ 0xFF := by
    have hlt := s.boot.pins.slotId.isLt
    intro h
    have hval := congrArg BitVec.toNat h
    rw [show (0xFF : Byte).toNat = 255 from rfl] at hval
    simp only [ownSlot, byte, BitVec.toNat_ofNat] at hval
    omega
  rw [h.receive]
  unfold imageFrame
  simp only [hfw, hown, hep, if_true]
  refine ⟨fun ha => if_pos ha, fun ha => ?_⟩
  rw [if_neg (by rw [ha]; exact fun h => hslot h.symm), if_pos ha]

/-- A delivery that receives nothing more consumes or passes on. -/
theorem Comes.image_closed (h : Comes s on f st) (hd : s.fw.delivery = some d) (hep : d.ep = 4) (hp : d.phase ≠ .receiving) (k : Byte)
    (take : Delivery → State → State) :
    (f.addr = ownSlot s → Machine.receive s on k f false (imageFrame k f take) = heard s st)
    ∧ (f.addr = 0xFF → Machine.receive s on k f false (imageFrame k f take) = (heard s st).emit (leatOut (outPair st) k f.addr f.tag f.body)) := by
  obtain ⟨hown, hall⟩ := h.image_taken hd hep k take
  rw [if_neg hp] at hown hall
  exact ⟨hown, fun ha => (hall ha).trans (h.driving.forward _ _)⟩

/-- A change of the delivery leaves the chain as it is. -/
theorem Driving.delivers (h : Driving s st) (x : Option Delivery) : Driving (setDelivery s x) st := ⟨h.up, h.state, h.found, h.drives⟩

/-- What a delivery here takes is kept; for every chiplet, it also goes on. -/
theorem Comes.image_kept (h : Comes s on f st) (hd : s.fw.delivery = some d) (hep : d.ep = 4) (hp : d.phase = .receiving) {k : Byte} {i : Instr}
    {take : Delivery → State → State} (hi : exec i s = .next (Machine.receive s on k f false (imageFrame k f take))) {x : Delivery}
    (ht : take d (heard s st) = setDelivery (heard s st) (some x)) :
    (f.addr = ownSlot s → Completes i s (fun t => (t.leat = (heard s st).leat ∧ t.fw.delivery = some x) ∧ t.sent = s.sent))
    ∧ (f.addr = 0xFF → Completes i s (fun t => (t.leat = (heard s st).leat ∧ t.fw.delivery = some x)
      ∧ t.sent = s.sent ++ [leatOut (outPair st) k f.addr f.tag f.body])) := by
  obtain ⟨hown, hall⟩ := h.image_taken hd hep k take
  rw [if_pos hp, ht] at hown hall
  refine ⟨fun ha => ⟨_, hi.trans (congrArg _ (hown ha)), ⟨rfl, rfl⟩, rfl⟩, fun ha => ⟨_, hi.trans (congrArg _ (hall ha)), ?_⟩⟩
  rw [(h.driving.delivers (some x)).forward]
  exact ⟨⟨rfl, rfl⟩, rfl⟩

/-- Without a check value no block is checked. -/
theorem checkBlock_unchecked {e : Delivery} (b : Nat) (hc : e.checks = []) : checkBlock s e b = setDelivery s (some e) := by
  unfold checkBlock
  rw [hc]
  cases e.blockData b <;> rfl

/-- A fragment of a block of which nothing else is here waits for the rest. -/
theorem takeFragment_first {b k : Nat} {x : List Byte} (hp : d.present.contains b = false) (hc : d.checks = []) (hf : d.frags = []) :
    takeFragment s d b k x = setDelivery s (some { d with frags := [(64 * b + k, x)] }) := by
  have hheld : d.frags.any (fun e => e.1 == 64 * b + k) = false := by simp [hf]
  unfold takeFragment
  simp only [hp, hheld, Bool.false_eq_true, if_false]
  have hone : tput d.frags (64 * b + k) x = [(64 * b + k, x)] := by rw [hf]; rfl
  rw [hone]
  exact checkBlock_unchecked _ hc

/-- Without a fragment no block is whole. -/
theorem checkBlock_nothing {e : Delivery} (b : Nat) (hf : e.frags = []) : checkBlock s e b = setDelivery s (some e) := by
  have hnone : e.blockData b = none := by
    unfold Delivery.blockData
    simp [hf]
  unfold checkBlock
  rw [hnone]

/-- Check values without a fragment are kept. -/
theorem takeChecks_kept (hf : d.frags = []) (first : Nat) (vs : List W32) :
    takeChecks s d first vs = setDelivery s (some { d with checks := vs.zipIdx.foldl (fun t e => tput t (first + e.2) e.1) d.checks }) := by
  obtain ⟨e, he⟩ : ∃ e : Delivery, e = { d with checks := vs.zipIdx.foldl (fun t e => tput t (first + e.2) e.1) d.checks } := ⟨_, rfl⟩
  have hfrag : e.frags = [] := by rw [he]; exact hf
  have hfold : ∀ l : List Nat, l.foldl (fun t b => match t.fw.delivery with
      | some d => if d.present.contains b then t else checkBlock t d b
      | none => t) (setDelivery s (some e)) = setDelivery s (some e) := by
    intro l
    induction l with
    | nil => rfl
    | cons b l ih =>
      have hone : (match (setDelivery s (some e)).fw.delivery with
          | some d => if d.present.contains b then setDelivery s (some e) else checkBlock (setDelivery s (some e)) d b
          | none => setDelivery s (some e)) = setDelivery s (some e) := by
        change (if e.present.contains b then setDelivery s (some e) else checkBlock (setDelivery s (some e)) e b) = _
        rw [checkBlock_nothing b hfrag]
        exact ite_self _
      rw [List.foldl_cons, hone, ih]
  unfold takeChecks
  simp only [← he]
  exact hfold _

/-! ### Requests (R531) -/

/-- A first half for this chiplet waits. -/
theorem Comes.first_own (h : Comes s on f st) (urgent : Bool) (ha : f.addr = ownSlot s) : exec (.requestFirstHalf on urgent f) s
    = .next (setLeat (heard s st) { (heard s st).leat with half := some (urgent, f) }) := by
  change Host.Outcome.next (Machine.receive s on _ f false _) = _
  rw [h.receive]
  exact congrArg _ (if_pos ha)

/-- Halves for others go on. -/
theorem Comes.halves_other (h : Comes s on f st) (urgent : Bool) (ha : f.addr ≠ ownSlot s) :
    exec (.requestFirstHalf on urgent f) s = .next ((heard s st).emit (leatOut (outPair st) (byte (0x30 + 4 * urgent.toNat)) f.addr f.tag f.body))
    ∧ exec (.requestSecondHalf on urgent f) s
      = .next ((heard s st).emit (leatOut (outPair st) (byte (0x31 + 4 * urgent.toNat)) f.addr f.tag f.body)) := by
  have hown : f.addr ≠ ownSlot (heard s st) := ha
  have hk : byte (0x30 + 4 * urgent.toNat + true.toNat) = byte (0x31 + 4 * urgent.toNat) := by cases urgent <;> rfl
  refine ⟨?_, ?_⟩
  · change Host.Outcome.next (Machine.receive s on _ f false _) = _
    rw [h.receive, requestHalf, if_neg hown, h.driving.forward]
    rfl
  · change Host.Outcome.next (Machine.receive s on _ f true _) = _
    rw [receive_second h.up h.state h.ok, if_neg (by simp [h.member])]
    change Host.Outcome.next (requestHalf _ f _ (heard s st)) = _
    rw [requestHalf, if_neg hown, h.driving.forward, halfKind, hk]

/-- A second half for this chiplet places the request whose first half came right before it. -/
theorem Comes.second_own (h : Comes s on f st) (urgent : Bool) (ha : f.addr = ownSlot s) : exec (.requestSecondHalf on urgent f) s
    = .next (match s.leat.half with
      | some (u, g) => if u = urgent ∧ g.tag = f.tag then placeRequest (heard s st) urgent f.tag (padTo 64 g.body ++ padTo 64 f.body) else heard s st
      | none => heard s st) := by
  change Host.Outcome.next (Machine.receive s on _ f true _) = _
  rw [receive_second h.up h.state h.ok, if_neg (by simp [h.member])]
  exact congrArg _ (if_pos ha)

/-- A second half without its first, or while EP4 serves no one, is consumed. -/
theorem Comes.second_alone (h : Comes s on f st) (urgent : Bool) (ha : f.addr = ownSlot s)
    (hno : transportUp s 4 = false ∨ ∀ x g, s.leat.half = some (x, g) → x = urgent → g.tag ≠ f.tag) :
    exec (.requestSecondHalf on urgent f) s = .next (heard s st) := by
  rw [h.second_own urgent ha]
  cases hh : s.leat.half with
  | none => rfl
  | some x =>
    obtain ⟨x, g⟩ := x
    simp only
    refine congrArg _ ?_
    split
    · rename_i heq
      rcases hno with hno | hno
      · have hdown : (!transportUp (heard s st) 4) = true := by
          rw [show transportUp (heard s st) 4 = transportUp s 4 from rfl, hno]
          rfl
        unfold placeRequest
        rw [if_pos hdown]
      · exact absurd heq.2 (hno x g hh heq.1)
    · rfl

/-- A request whose second half comes right after its first. -/
structure Whole (s : State) (f g : LeatFrame) (urgent : Bool) : Prop where
  half : s.leat.half = some (urgent, g)
  tag : g.tag = f.tag
  own : f.addr = ownSlot s
  serves : transportUp s 4 = true

theorem Comes.second_whole (h : Comes s on f st) {urgent : Bool} (hw : Whole s f g urgent) : exec (.requestSecondHalf on urgent f) s
    = .next (if !urgent then enqueue (heard s st) (parseSlot 4 false f.tag (padTo 64 g.body ++ padTo 64 f.body)).2 (padTo 64 g.body ++ padTo 64 f.body)
      else
        let p := (heard s st).ep 4
        if p.busy then (heard s st).setEp 4 { p with overrun := true }
        else
          let s1 := (heard s st).setEp 4 { p with busy := true, urgReq := padTo 64 g.body ++ padTo 64 f.body, urgSrc := f.tag }
          { s1 with svc := { s1.svc with urgentQ := s1.svc.urgentQ ++ [4] } }) := by
  rw [h.second_own urgent hw.own, hw.half]
  simp only [hw.tag, and_self, if_true]
  unfold placeRequest
  rw [show transportUp (heard s st) 4 = true from hw.serves]
  rfl

theorem State.ep_setEp_same (s : State) (e : Nat) (p : Endpoint) : (s.setEp e p).ep e = p := tget_tput_same _ _ _ _

/-- An urgent request takes the urgent slot of EP4. -/
theorem Comes.urgent_placed (h : Comes s on f st) (hw : Whole s f g true) (hb : (s.ep 4).busy = false) :
    Completes (.requestSecondHalf on true f) s (fun t => t.leat = (heard s st).leat ∧ t.sent = s.sent
      ∧ t.ep 4 = { s.ep 4 with
          busy := true
          urgReq := padTo 64 g.body ++ padTo 64 f.body
          urgSrc := f.tag }
      ∧ t.svc.urgentQ = s.svc.urgentQ ++ [4]) := by
  have hbusy : ((heard s st).ep 4).busy = false := hb
  have hexec := h.second_whole hw
  simp only [Bool.not_true, Bool.false_eq_true, if_false, hbusy] at hexec
  exact ⟨_, hexec, rfl, rfl, tget_tput_same _ _ _ _, rfl⟩

/-- While it is busy the request is lost. -/
theorem Comes.urgent_overrun (h : Comes s on f st) (hw : Whole s f g true) (hb : (s.ep 4).busy = true) :
    exec (.requestSecondHalf on true f) s = .next ((heard s st).setEp 4 { s.ep 4 with overrun := true }) := by
  have hbusy : ((heard s st).ep 4).busy = true := hb
  exact (h.second_whole hw).trans (congrArg _ ((if_neg (by decide)).trans (if_pos hbusy)))

/-- A normal request takes a slot of EP4's ring. -/
theorem Comes.request_placed (h : Comes s on f st) (hw : Whole s f g false) (hroom : (s.ep 4).reqCount < 32) :
    Completes (.requestSecondHalf on false f) s (fun t => t.leat = (heard s st).leat ∧ t.sent = s.sent
      ∧ t.ep 4 = { s.ep 4 with
          req := tput (s.ep 4).req ((s.ep 4).prod.toNat % 32) (padTo 64 g.body ++ padTo 64 f.body)
          src := tput (s.ep 4).src ((s.ep 4).prod.toNat % 32) f.tag
          prod := (s.ep 4).prod + 1 }) := by
  have hnot : ¬32 ≤ ((heard s st).ep 4).reqCount := Nat.not_le.mpr hroom
  refine ⟨_, (h.second_whole hw).trans (congrArg _ ((if_pos rfl).trans (if_neg hnot))), rfl, rfl, tget_tput_same _ _ _ _⟩

/-- A full ring answers ST_BUSY. -/
theorem Comes.request_refused (h : Comes s on f st) (hw : Whole s f g false) (hfull : 32 ≤ (s.ep 4).reqCount) :
    Completes (.requestSecondHalf on false f) s (fun t => t.leat = (heard s st).leat ∧ t.ep 4 = s.ep 4 ∧ t.ledger = s.ledger
      ∧ ∃ r, t.sent = s.sent ++ [leatOut (outPair st) 0x32 (ownSlot s) f.tag (r.take 64), leatOut (outPair st) 0x33 (ownSlot s) f.tag (r.drop 64)]
        ∧ fieldAt r 0 2 = fieldAt (padTo 64 g.body ++ padTo 64 f.body) 0 2 ∧ fieldAt r 6 2 = stBusy.toNat) := by
  obtain ⟨slot, hslot⟩ : ∃ slot, slot = padTo 64 g.body ++ padTo 64 f.body := ⟨_, rfl⟩
  obtain ⟨r, hr⟩ : ∃ r, r = responseSlot (BitVec.ofNat 16 (fieldAt slot 0 2)) (parseSlot 4 false f.tag slot).2 stBusy [] none := ⟨_, rfl⟩
  obtain ⟨-, hcode, -, -, hst, -⟩ := responseSlot_fields (BitVec.ofNat 16 (fieldAt slot 0 2)) (parseSlot 4 false f.tag slot).2 stBusy [] none (by decide)
  have hsend : sendLeat (heard s st) false f.tag r = { heard s st with
      sent := s.sent ++ [leatOut (outPair st) 0x32 (ownSlot s) f.tag (r.take 64), leatOut (outPair st) 0x33 (ownSlot s) f.tag (r.drop 64)] } := by
    unfold sendLeat
    simp only [Bool.false_eq_true, if_false]
    rw [h.driving.send, (h.driving.emit _).send]
    simp only [State.emit, List.append_assoc]
    rfl
  have hexec : exec (.requestSecondHalf on false f) s = .next (sendLeat (heard s st) false f.tag r) := by
    rw [h.second_whole hw, hr, ← hslot]
    exact congrArg _ ((if_pos rfl).trans ((if_pos (show 32 ≤ ((heard s st).ep 4).reqCount from hfull)).trans rfl))
  refine ⟨_, hexec.trans (congrArg _ hsend), rfl, rfl, rfl, r, rfl, ?_, ?_⟩
  · rw [hr, ← hslot]
    refine hcode.trans ?_
    rw [BitVec.toNat_ofNat]
    exact Nat.mod_eq_of_lt (fieldAt_lt _ _ _)
  · rw [hr]
    exact hst

end

end Sys2Proof.Machine
end

section
/-! PROOFS. The leat chain: the master's sweep, its timers and its configuration (R526 to R538). -/

namespace Sys2Proof.Machine

section
variable {s : State} {on : LeatPair} {f : LeatFrame} {st : LeatState}

/-! ### Frames at the master (R525, R527, R537) -/

/-- An intact frame comes in at the master. -/
structure Mastered (s : State) (on : LeatPair) (f : LeatFrame) (st : LeatState) : Prop where
  up : leatUp s = true
  state : receivingState s.leat on = some st
  ok : f.ok = true
  master : s.leat.master = true

theorem Mastered.receive (h : Mastered s on f st) (k : Byte) (handle : State → State) :
    Machine.receive s on k f false handle = masterTakes (heard s st) k f :=
  receive_mastered h.up h.state h.ok h.master

theorem Mastered.driving (h : Mastered s on f st) (hd : s.leat.drive = true) : Driving (heard s st) st := heard_drives h.up h.state hd

/-- The master consumes what has no meaning for it. -/
theorem Mastered.consumes (h : Mastered s on f st) (urgent second : Bool) :
    ∀ i ∈ [Instr.turn on f, .turned on f, .responseFrame on urgent second f, .image on f, .blockCheck on f, .requestFirstHalf on urgent f],
      exec i s = .next (heard s st) := by
  have hplain : ∀ (k : Byte) (handle : State → State), masterTakes (heard s st) k f = heard s st →
      Machine.receive s on k f false handle = heard s st := fun k handle hk => (h.receive k handle).trans hk
  intro i hi
  simp only [List.mem_cons, List.not_mem_nil, or_false] at hi
  obtain rfl | rfl | rfl | rfl | rfl | rfl := hi
  · exact congrArg _ (hplain 0x02 _ rfl)
  · exact congrArg _ (hplain 0x03 _ rfl)
  · refine congrArg _ (hplain _ _ ?_)
    cases urgent <;> cases second <;> rfl
  · exact congrArg _ (hplain 0x20 _ rfl)
  · exact congrArg _ (hplain 0x21 _ rfl)
  · refine congrArg _ (hplain _ _ ?_)
    cases urgent <;> rfl

theorem Mastered.second (h : Mastered s on f st) (urgent : Bool) :
    exec (.requestSecondHalf on urgent f) s = .next (setLeat s { s.leat with state := st, turned := false }) := by
  change Host.Outcome.next (Machine.receive s on (halfKind urgent true) f true _) = _
  rw [receive_second h.up h.state h.ok, if_pos h.master]
  cases urgent <;> rfl

/-- A master keeps its mastery at an IDLE that names no hub. -/
theorem Mastered.idle_kept (h : Mastered s on f st) (ha : f.addr.toNat < 16 ∨ 19 < f.addr.toNat) : exec (.idle on f) s = .next (heard s st) := by
  refine congrArg _ ((h.receive 0x01 _).trans ?_)
  exact if_neg (by omega)

/-- It yields to a hub. -/
theorem Mastered.idle_yields (h : Mastered s on f st) (h16 : 16 ≤ f.addr.toNat) (h19 : f.addr.toNat ≤ 19) :
    Completes (.idle on f) s (fun t => t.leat.master = false ∧ t.leat.state = .search ∧ t.leat.phase = .idle ∧ t.leat.waitSweep = false
      ∧ t.sent = s.sent) :=
  ⟨yieldMastery (heard s st), congrArg Host.Outcome.next ((h.receive 0x01 _).trans (if_pos ⟨h16, h19⟩)), rfl, rfl, rfl, rfl, rfl⟩

theorem Mastered.head (h : Mastered s on f st) : exec (.sweepHead on f) s
    = .next (setLeat (heard s st) { (heard s st).leat with
        headBack := s.leat.headBack || decide (s.leat.phase = .pass)
        train := [] }) := by
  refine congrArg _ ((h.receive 0x10 _).trans ?_)
  change (if (heard s st).leat.phase = .pass then _ else _) = _
  by_cases hp : s.leat.phase = .pass
  · rw [if_pos (show (heard s st).leat.phase = .pass from hp), hp]
    simp [modLeat]
  · rw [if_neg (show ¬(heard s st).leat.phase = .pass from hp)]
    simp [modLeat, hp]
    rfl

theorem Mastered.record (h : Mastered s on f st) : exec (.record on f) s = .next (keepRecord (heard s st) f) :=
  congrArg _ (h.receive 0x11 _)

theorem Mastered.end (h : Mastered s on f st) : exec (.sweepEnd on f) s = .next (trainIn (heard s st) f) :=
  congrArg _ (h.receive 0x12 _)

/-! ### The end of a train (R536, R537) -/

/-- The train whose end is `f` is whole: its head came back, and every record of it. -/
def WholeTrain (l : Leat) (f : LeatFrame) : Prop :=
  l.headBack = true ∧ fieldAt f.body 2 1 ≠ 1 ∧ fieldAt f.body 3 1 ≠ 1 ∧ fieldAt f.body 0 2 = l.train.length

/-- TURN leaves, and the ring turns. -/
theorem Driving.turnRing (h : Driving s st) : turnRing s = (setLeat s { s.leat with state := opposite st, drive := false, phase := .turning, train := [] }).emit
    (leatOut (outPair st) 0x02 (ownSlot s) 0 []) := by
  unfold Machine.turnRing
  rw [h.send]
  simp only [modLeat]
  rw [show (s.emit (leatOut (outPair st) 0x02 (ownSlot s) 0 [])).leat = s.leat from rfl, h.state]
  rfl

/-- SWEEP_HEAD and SWEEP_END of the master's train as they leave. -/
def launched (s : State) (q : W32) (o : LeatPair) (r : Byte) : List Sent :=
  [leatOut o 0x10 (ownSlot s) (q.setWidth 16) (leBytes 2 s.leat.period ++ leBytes 4 s.leat.set.toNat ++ [ownSlot s, r]),
    leatOut o 0x12 (ownSlot s) (q.setWidth 16) [0, 0, 0, 0, 0xFF]]

theorem direction_eq (h : s.leat.state = st) : direction s.leat = if st = .reverse then 1 else 0 := by
  rw [direction, h]

/-- A master that drives its pair launches its train. -/
theorem Driving.launch (h : Driving s st) (hd : s.leat.drive = true) : launch s = setLeat
    { s with sent := s.sent ++ launched s s.leat.seq (outPair st) (if st = .reverse then 1 else 0) }
    { s.leat with
        phase := .pass
        headBack := false
        train := [] } := by
  have hend : leatOut (outPair st) 0x12 (ownSlot s) (s.leat.seq.setWidth 16) (endFrame (ownSlot s) (s.leat.seq.setWidth 16) 0 false false 0xFF).f.body
      = leatOut (outPair st) 0x12 (ownSlot s) (s.leat.seq.setWidth 16) [0, 0, 0, 0, 0xFF] := by
    have hbody : padTo 64 (padTo 64 (leBytes 2 0 ++ [byte 0, byte 0, (0xFF : Byte)])) = padTo 64 [0, 0, 0, 0, 0xFF] := by decide
    exact congrArg (fun x => Sent.leat (outPair st) 0x12 { addr := ownSlot s, tag := s.leat.seq.setWidth 16, body := x, ok := true }) hbody
  have htwo : ∀ a b, (s.emit a).emit b = { s with sent := s.sent ++ [a, b] } := fun a b => by simp [State.emit]
  unfold Machine.launch
  dsimp only
  rw [if_neg (by simp [hd]), h.send, sendTrain, (h.emit _).send, direction_eq h.state]
  have hkind : leatOut (outPair st) (endFrame (ownSlot s) (s.leat.seq.setWidth 16) 0 false false 0xFF).kind
      (endFrame (ownSlot s) (s.leat.seq.setWidth 16) 0 false false 0xFF).f.addr (endFrame (ownSlot s) (s.leat.seq.setWidth 16) 0 false false 0xFF).f.tag
      (endFrame (ownSlot s) (s.leat.seq.setWidth 16) 0 false false 0xFF).f.body
      = leatOut (outPair st) 0x12 (ownSlot s) (s.leat.seq.setWidth 16) [0, 0, 0, 0, 0xFF] := hend
  rw [hkind, htwo]
  rfl

theorem launch_waits (hd : s.leat.drive = false) : launch s = setLeat s { s.leat with phase := .back } := by
  unfold launch
  simp [hd, modLeat]

/-- What a sweep that begins and is launched at once leaves. -/
structure SweepBegun (s t : State) (st : LeatState) : Prop where
  seq : t.leat.seq = s.leat.seq + 1
  phase : t.leat.phase = .pass
  first : t.leat.second = false
  got : t.leat.got = [(ownSlot s).toNat]
  own : (tget ⟨0, 2, []⟩ t.leat.table (ownSlot s).toNat).seq = s.leat.seq + 1
  sent : t.sent = s.sent ++ launched s (s.leat.seq + 1) (outPair st) (if st = .reverse then 1 else 0)

/-- The state in which a sweep is launched: its count has risen, and the master's own record is made. -/
def sweepStart (s : State) : State :=
  (makeRecord (modLeat s (fun l => { l with
    seq := l.seq + 1
    headSet := l.set
    second := false
    got := [(ownSlot s).toNat] })) (s.leat.seq + 1) false (direction s.leat)).2

theorem beginSweep_launch (s : State) : beginSweep s = launch (sweepStart s) := rfl

theorem Driving.begins (h : Driving s st) (hd : s.leat.drive = true) : SweepBegun s (beginSweep s) st := by
  have hstart : Driving (sweepStart s) st := ⟨h.up, h.state, h.found, h.drives⟩
  rw [beginSweep_launch, hstart.launch hd]
  exact ⟨rfl, rfl, rfl, rfl, congrArg SlotRecord.seq (tget_tput_same _ _ _ _), rfl⟩

/-- A sweep of a master that does not drive waits for its pair. -/
theorem beginSweep_waits (hd : s.leat.drive = false) : (beginSweep s).leat.seq = s.leat.seq + 1 ∧ (beginSweep s).leat.phase = .back
    ∧ (beginSweep s).sent = s.sent := by
  rw [beginSweep_launch, launch_waits (show (sweepStart s).leat.drive = false from hd)]
  exact ⟨rfl, rfl, rfl⟩

/-- The table of slots in which those of the train that came have the reach `r`. -/
def reachedTable (l : Leat) (r : Byte) : Tab SlotRecord :=
  l.table.map (fun e => (e.1, if (l.train.map (fun t => t.f.addr.toNat)).contains e.1 then { e.2 with reach := r } else e.2))

theorem reachTrain_eq (s : State) (r : Byte) : reachTrain s r = setLeat s { s.leat with table := reachedTable s.leat r } := rfl

/-- The train of a pass that comes back as returned is not that of the pass. -/
theorem trainIn_returned (hp : s.leat.phase = .pass) (hr : fieldAt f.body 3 1 = 1) : trainIn s f = s := by
  unfold trainIn
  simp [hp, hr]

/-- A train that is not whole turns the ring. -/
theorem trainIn_turns (hp : s.leat.phase = .pass) (hw : ¬WholeTrain s.leat f) (hr : fieldAt f.body 3 1 ≠ 1) : trainIn s f = turnRing s := by
  have hbroken : (fieldAt f.body 2 1 == 1 || !s.leat.headBack || fieldAt f.body 0 2 != s.leat.train.length) = true := by
    by_contra hno
    refine hw ?_
    simp only [Bool.not_eq_true, Bool.or_eq_false_iff, beq_eq_false_iff_ne, Bool.not_eq_false', bne_eq_false_iff_eq] at hno
    exact ⟨hno.1.2, hno.1.1, hr, hno.2⟩
  unfold trainIn
  simp only [hp, if_true, beq_false_of_ne hr, Bool.false_eq_true, if_false]
  exact if_pos hbroken

/-- A whole train ends the sweep. -/
theorem trainIn_whole (hp : s.leat.phase = .pass) (hw : WholeTrain s.leat f) : trainIn s f = finishSweep (reachTrain s (direction s.leat)) := by
  obtain ⟨hhead, hcut, hret, hcount⟩ := hw
  have hbroken : ¬((fieldAt f.body 2 1 == 1 || !s.leat.headBack || fieldAt f.body 0 2 != s.leat.train.length) = true) := by
    simp [hhead, hcut, hcount]
  unfold trainIn
  simp only [hp, if_true, beq_false_of_ne hret, Bool.false_eq_true, if_false]
  exact if_neg hbroken

/-- The train that comes back after a turn is what the other direction reached. -/
theorem trainIn_back (hp : s.leat.phase = .turning) (hr : fieldAt f.body 3 1 = 1) :
    trainIn s f = afterTurn (reachTrain s (if s.leat.state = .reverse then 0 else 1)) := by
  unfold trainIn
  simp [hp, hr]

/-- Any other end of a train means nothing to the master. -/
theorem trainIn_ignored (hp : s.leat.phase ≠ .pass) (h : s.leat.phase ≠ .turning ∨ fieldAt f.body 3 1 ≠ 1) : trainIn s f = s := by
  have hno : ¬(s.leat.phase = .turning ∧ (fieldAt f.body 3 1 == 1) = true) := by
    rintro ⟨h1, h2⟩
    rcases h with h | h
    · exact h h1
    · exact h (beq_iff_eq.mp h2)
  unfold trainIn
  simp only [hp, if_false]
  exact if_neg hno

/-- The first train after a turn: the sweep goes the other way as soon as the master drives. -/
theorem afterTurn_waits (h2 : s.leat.second = false) (hd : s.leat.drive = false) :
    afterTurn s = setLeat s { s.leat with second := true, phase := .back } := by
  unfold afterTurn
  rw [if_neg (by simp [h2])]
  exact launch_waits hd

theorem Driving.afterTurn (h : Driving s st) (h2 : s.leat.second = false) (hd : s.leat.drive = true) :
    (afterTurn s).leat.second = true ∧ (afterTurn s).leat.phase = .pass ∧ (afterTurn s).leat.table = s.leat.table
    ∧ (afterTurn s).sent = s.sent ++ launched s s.leat.seq (outPair st) (if st = .reverse then 1 else 0) := by
  have hstart : Driving (modLeat s (fun l => { l with second := true })) st := ⟨h.up, h.state, h.found, h.drives⟩
  unfold Machine.afterTurn
  rw [if_neg (by simp [h2]), hstart.launch hd]
  exact ⟨rfl, rfl, rfl, rfl⟩

/-- Slots of which no record came are unreached. -/
theorem markUnreached_reach {k : Nat} (hk : k < 16) (hg : s.leat.got.contains k = false) :
    (tget ⟨0, 2, []⟩ (markUnreached s).leat.table k).reach = 2 := by
  have hfold : ∀ (l : List Nat) (t : Tab SlotRecord), (k ∈ l ∨ (tget ⟨0, 2, []⟩ t k).reach = 2) →
      (tget ⟨0, 2, []⟩ (l.foldl (fun t k =>
        if s.leat.got.contains k then t else tput t k { tget ⟨0, 2, List.replicate 64 0⟩ t k with reach := 2 }) t) k).reach = 2 := by
    intro l
    induction l with
    | nil => exact fun t h => h.resolve_left (by simp)
    | cons j l ih =>
      intro t h
      rw [List.foldl_cons]
      refine ih _ ?_
      by_cases hj : k = j
      · subst hj
        rw [if_neg (by rw [hg]; exact Bool.false_ne_true)]
        exact .inr (congrArg SlotRecord.reach (tget_tput_same _ _ _ _))
      · refine (h.imp_left fun hmem => (List.mem_cons.mp hmem).resolve_left hj).imp_right fun hr => ?_
        split
        · exact hr
        · rw [tget_tput_ne _ _ hj]
          exact hr
  exact hfold _ _ (.inl (by simp [numbers, hk]))

/-- The second train after a turn ends the sweep. -/
theorem afterTurn_ends (h2 : s.leat.second = true) (hw : s.leat.waitSweep = false) :
    (afterTurn s).leat.phase = .idle ∧ (afterTurn s).leat.state = opposite s.leat.state ∧ (afterTurn s).leat.drive = false ∧ (afterTurn s).sent = s.sent
    ∧ ∀ k < 16, s.leat.got.contains k = false → (tget ⟨0, 2, []⟩ (afterTurn s).leat.table k).reach = 2 := by
  have hend : afterTurn s = modLeat (markUnreached (modLeat s (fun l => { l with state := opposite l.state, drive := false })))
      (fun l => { l with phase := .idle, train := [], waitSweep := false }) := by
    unfold afterTurn
    rw [if_pos h2]
    unfold finishSweep
    exact if_neg (by simpa [markUnreached, modLeat, setLeat] using hw)
  rw [hend]
  exact ⟨rfl, rfl, rfl, rfl, fun k hk hg => markUnreached_reach (s := modLeat s (fun l => { l with state := opposite l.state, drive := false })) hk hg⟩

end

end Sys2Proof.Machine
end

section
/-! PROOFS. The leat chain: its timers, and the rows together (R523, R526 to R538). -/

namespace Sys2Proof.Machine

section
variable {s : State} {on : LeatPair} {f : LeatFrame} {st : LeatState}

/-! ### Timers (R523, R526 to R528, R533, R536 to R538) -/

/-- A timer of the master does nothing elsewhere. -/
theorem leatTimers_member (hm : s.leat.master = false) :
    exec .leatSearchTimeout s = .next (setLeat s { s.leat with state := .search, turned := false, half := none })
    ∧ exec .masterIdleTimer s = .next s ∧ exec .sweepPeriod s = .next s ∧ exec .sweepStall s = .next s ∧ exec .masterDrivePermitted s = .next s := by
  refine ⟨?_, ?_, ?_, ?_, ?_⟩
  · exact congrArg _ (if_neg (by simp [hm]))
  · exact congrArg _ (if_neg (by simp [hm]))
  · exact congrArg _ (if_neg (by simp [hm]))
  · exact congrArg _ (if_pos (by simp [hm]))
  · exact congrArg _ (if_pos (by simp [hm]))

/-- A timer of the others does nothing at the master. -/
theorem leatTimers_master (hm : s.leat.master = true) :
    exec .leatSearchTimeout s = .next s ∧ exec .masteryTakeover s = .next s ∧ exec .endOfLineTimeout s = .next s
    ∧ exec .sweepCutTimeout s = .next s ∧ exec .heldRecordTimer s = .next s := by
  refine ⟨?_, ?_, ?_, ?_, ?_⟩
  · exact congrArg _ (if_pos hm)
  · exact congrArg _ (if_pos (by simp [hm]))
  · exact congrArg _ (if_pos (by simp [hm]))
  · exact congrArg _ (if_pos (by simp [hm]))
  · exact congrArg _ (if_pos (by simp [hm]))

theorem masterIdle_sends (h : Driving s st) (hm : s.leat.master = true) :
    exec .masterIdleTimer s = .next (s.emit (leatOut (outPair st) 0x01 (ownSlot s) 0 [])) :=
  congrArg _ ((if_pos hm).trans (h.send _ _ _ _))

theorem masterIdle_quiet (hm : s.leat.master = true) (hd : s.leat.drive = false) : exec .masterIdleTimer s = .next s :=
  congrArg _ ((if_pos hm).trans (leatSend_quiet hm hd _ _ _ _))

theorem takeover_masters (hup : leatUp s = true) (hm : s.leat.master = false) (h0 : s.boot.stage ≠ 0) (hslot : s.boot.pins.slotId = 0)
    (hcm : s.boot.pins.chainMaster = true) : Completes .masteryTakeover s (fun t => t.leat.master = true ∧ t.leat.state = .forward
      ∧ t.leat.drive = false ∧ t.leat.phase = .idle ∧ t.leat.seq = s.leat.seq ∧ t.sent = s.sent) :=
  ⟨_, congrArg Host.Outcome.next (if_neg (by simp [hup, hm, show ¬s.boot.stage = 0#8 from h0, hslot, hcm])), rfl, rfl, rfl, rfl, rfl, rfl⟩

theorem takeover_refused (h : s.boot.stage = 0 ∨ s.boot.pins.slotId ≠ 0 ∨ s.boot.pins.chainMaster = false) :
    exec .masteryTakeover s = .next s := by
  refine congrArg _ (if_pos ?_)
  rcases h with h | h | h
  · simp [h]
  · simp [show ¬s.boot.pins.slotId = 0#5 from h]
  · simp [h]

theorem drive_permitted (hup : leatUp s = true) (hm : s.leat.master = true) (hb : s.leat.phase ≠ .back)
    (h : s.leat.phase ≠ .turning ∨ s.leat.second = false) : exec .masterDrivePermitted s = .next (setLeat s { s.leat with drive := true }) := by
  refine congrArg _ ((if_neg ?_).trans (if_neg hb))
  rcases h with h | h <;> simp [hup, hm, h]

theorem drive_launches (hup : leatUp s = true) (hm : s.leat.master = true) (hst : s.leat.state = st) (hne : st ≠ .search)
    (hb : s.leat.phase = .back) : Completes .masterDrivePermitted s (fun t => t.leat.drive = true ∧ t.leat.phase = .pass ∧ t.leat.headBack = false
      ∧ t.leat.train = [] ∧ t.sent = s.sent ++ launched s s.leat.seq (outPair st) (if st = .reverse then 1 else 0)) := by
  have hdrive : Driving (modLeat s (fun l => { l with drive := true })) st := ⟨hup, hst, hne, fun _ => rfl⟩
  have hexec : exec .masterDrivePermitted s = .next (launch (modLeat s (fun l => { l with drive := true }))) :=
    congrArg _ ((if_neg (by simp [hup, hm, hb])).trans (if_pos hb))
  refine ⟨_, hexec, ?_⟩
  rw [hdrive.launch rfl]
  exact ⟨rfl, rfl, rfl, rfl, rfl⟩

theorem drive_withheld (h : s.leat.phase = .turning) (h2 : s.leat.second = true) : exec .masterDrivePermitted s = .next s :=
  congrArg _ (if_pos (by simp [h, h2]))

theorem endOfLine_returns (h : Driving s st) (hm : s.leat.master = false) (ht : s.leat.turned = true) :
    Completes .endOfLineTimeout s (fun t => t.leat.turned = false ∧ t.leat.inTrain = false
      ∧ t.sent = s.sent ++ trainOut (outPair st) (returnedTrain s)) := by
  have hexec : exec .endOfLineTimeout s = .next (modLeat ((returnedTrain s).foldl sendTrain s) (fun l =>
      { l with turned := false, inTrain := false, own := none })) := congrArg _ (if_neg (by simp [h.up, hm, ht]))
  refine ⟨_, hexec, rfl, rfl, ?_⟩
  exact congrArg State.sent (h.sendTrains (returnedTrain s))

theorem endOfLine_quiet (ht : s.leat.turned = false) : exec .endOfLineTimeout s = .next s := congrArg _ (if_pos (by simp [ht]))

theorem sweepCut_completes (h : Driving s st) (hm : s.leat.master = false) (hin : s.leat.inTrain = true) :
    Completes .sweepCutTimeout s (fun t => t.leat.inTrain = false ∧ t.leat.held = [] ∧ t.leat.own = none
      ∧ t.sent = s.sent ++ trainOut (outPair st) (addedRecords s.leat ++ [endFrame (ownSlot s) (s.leat.lastSeq.setWidth 16)
        (recordsIn s.leat + (addedRecords s.leat).length) true false (ownSlot s)])) := by
  have hexec : exec .sweepCutTimeout s = .next (completeTrain s (fun n =>
      endFrame (ownSlot s) (s.leat.lastSeq.setWidth 16) (recordsIn s.leat + n) true false (ownSlot s))) :=
    congrArg _ (if_neg (by simp [h.up, hm, hin]))
  obtain ⟨h1, h2, h3, -, hsent⟩ := h.completes (fun n => endFrame (ownSlot s) (s.leat.lastSeq.setWidth 16) (recordsIn s.leat + n) true false (ownSlot s))
  refine ⟨_, hexec, h1, h2, h3, hsent.trans ?_⟩
  rw [trainOut, trainOut, trainOut, List.map_append, List.append_assoc]

theorem sweepCut_quiet (hin : s.leat.inTrain = false) : exec .sweepCutTimeout s = .next s := congrArg _ (if_pos (by simp [hin]))

theorem sweepPeriod_none (h : s.leat.period = 0) : exec .sweepPeriod s = .next s := congrArg _ (if_neg (by simp [h]))

theorem sweepPeriod_due (hup : leatUp s = true) (hm : s.leat.master = true) (hp : s.leat.period ≠ 0) : exec .sweepPeriod s = .next (sweepDue s) :=
  congrArg _ (if_pos (by simp [hup, hm, hp]))

theorem sweepPeriod_waits (hup : leatUp s = true) (hm : s.leat.master = true) (hp : s.leat.period ≠ 0) (hi : s.leat.phase ≠ .idle) :
    exec .sweepPeriod s = .next (setLeat s { s.leat with waitSweep := true }) :=
  (sweepPeriod_due hup hm hp).trans (congrArg _ (if_neg hi))

theorem sweepPeriod_begins (hup : leatUp s = true) (hm : s.leat.master = true) (hp : s.leat.period ≠ 0) (hi : s.leat.phase = .idle) :
    exec .sweepPeriod s = .next (beginSweep s) :=
  (sweepPeriod_due hup hm hp).trans (congrArg _ (if_pos hi))

theorem sweepStall_turns (h : Driving s st) (hm : s.leat.master = true) (hp : s.leat.phase = .pass) : exec .sweepStall s = .next
    ((setLeat s { s.leat with state := opposite st, drive := false, phase := .turning, train := [] }).emit
      (leatOut (outPair st) 0x02 (ownSlot s) 0 [])) := by
  have hexec : exec .sweepStall s = .next (turnRing s) := congrArg _ ((if_neg (by simp [h.up, hm])).trans (by rw [hp]))
  rw [hexec, h.turnRing]

theorem sweepStall_waits (hup : leatUp s = true) (hm : s.leat.master = true) (hp : s.leat.phase = .turning) (h2 : s.leat.second = false)
    (hd : s.leat.drive = false) : exec .sweepStall s = .next (setLeat s { s.leat with second := true, phase := .back }) := by
  have hexec : exec .sweepStall s = .next (afterTurn s) := congrArg _ ((if_neg (by simp [hup, hm])).trans (by rw [hp]))
  rw [hexec, afterTurn_waits h2 hd]

theorem sweepStall_quiet (h : s.leat.phase = .idle ∨ s.leat.phase = .back) : exec .sweepStall s = .next s := by
  refine congrArg Host.Outcome.next ?_
  rcases h with h | h <;> simp [h]

theorem heldRecord_made (hup : leatUp s = true) (hm : s.leat.master = false) (hp : s.leat.headPeriod ≠ 0) (hstage : s.boot.stage = 2 ∨ s.boot.stage = 3) :
    Completes .heldRecordTimer s (fun t => t.leat.heldPeriods = s.leat.heldPeriods + 1
      ∧ t.leat.dropped = (s.leat.dropped || decide (8 ≤ s.leat.held.length)) ∧ t.sent = s.sent
      ∧ ∃ r, t.leat.held = (s.leat.held ++ [r]).drop (s.leat.held.length + 1 - 8) ∧ r.kind = 0x11 ∧ r.f.addr = ownSlot s
        ∧ r.f.tag = (s.leat.lastSeq + BitVec.ofNat 32 (s.leat.heldPeriods + 1)).setWidth 16) := by
  obtain ⟨w, hw⟩ : ∃ w, w = makeRecord s (s.leat.lastSeq + BitVec.ofNat 32 (s.leat.heldPeriods + 1)) true 2 := ⟨_, rfl⟩
  have hexec : exec .heldRecordTimer s = .next (modLeat w.2 (fun l => { l with
      heldPeriods := s.leat.heldPeriods + 1
      held := (l.held ++ [w.1]).drop ((l.held ++ [w.1]).length - 8)
      dropped := l.dropped || decide (8 < (l.held ++ [w.1]).length) })) := by
    rw [hw]
    refine congrArg _ (if_neg ?_)
    rcases hstage with h | h <;> simp [hup, hm, hp, h]
  refine ⟨_, hexec, rfl, ?_, by rw [hw]; rfl, w.1, ?_, by rw [hw]; rfl, by rw [hw]; rfl, by rw [hw]; rfl⟩
  · rw [hw]
    change (s.leat.dropped || decide (8 < (s.leat.held ++ [_]).length)) = _
    rw [List.length_append, List.length_singleton]
    exact congrArg _ (decide_eq_decide.mpr (by omega))
  · rw [hw]
    change (s.leat.held ++ [_]).drop ((s.leat.held ++ [_]).length - 8) = _
    rw [List.length_append]
    rfl

theorem heldRecord_quiet (h : s.leat.headPeriod = 0 ∨ (s.boot.stage ≠ 2 ∧ s.boot.stage ≠ 3)) : exec .heldRecordTimer s = .next s := by
  refine congrArg _ (if_pos ?_)
  rcases h with h | ⟨h2, h3⟩
  · simp [h]
  · simp [show ¬s.boot.stage = 2#8 from h2, show ¬s.boot.stage = 3#8 from h3]

end

end Sys2Proof.Machine
end

section
/-! PROOFS. The rows of the leat chain together (R521 to R540). -/

namespace Sys2Proof.Machine

section
variable {s : State} {on : LeatPair} {f g : LeatFrame} {st : LeatState} {d : Delivery}

/-- An image or check frame at a delivery here that takes it as `x`. -/
theorem Comes.image_fragment (h : Comes s on f st) (hd : s.fw.delivery = some d) (hep : d.ep = 4) (hp : d.phase = .receiving)
    (hin : f.tag.toNat / 64 < d.blocks) (hnew : d.present.contains (f.tag.toNat / 64) = false) (hc : d.checks = []) (hf : d.frags = []) :
    (f.addr = ownSlot s → Completes (.image on f) s (fun t => (t.leat = (heard s st).leat
        ∧ t.fw.delivery = some { d with frags := [(f.tag.toNat, padTo 64 f.body)] }) ∧ t.sent = s.sent))
    ∧ (f.addr = 0xFF → Completes (.image on f) s (fun t => (t.leat = (heard s st).leat
        ∧ t.fw.delivery = some { d with frags := [(f.tag.toNat, padTo 64 f.body)] })
      ∧ t.sent = s.sent ++ [leatOut (outPair st) 0x20 f.addr f.tag f.body])) := by
  refine h.image_kept hd hep hp rfl ?_
  have hplace : 64 * (f.tag.toNat / 64) + f.tag.toNat % 64 = f.tag.toNat := Nat.div_add_mod _ _
  refine (if_pos hin).trans ((takeFragment_first hnew hc hf).trans ?_)
  rw [hplace]

theorem Comes.image_ignored (h : Comes s on f st) (hd : s.fw.delivery = some d) (hep : d.ep = 4) (hp : d.phase = .receiving)
    (hno : d.blocks ≤ f.tag.toNat / 64 ∨ d.present.contains (f.tag.toNat / 64) = true) :
    (f.addr = ownSlot s → exec (.image on f) s = .next (heard s st))
    ∧ (f.addr = 0xFF → exec (.image on f) s = .next ((heard s st).emit (leatOut (outPair st) 0x20 f.addr f.tag f.body))) := by
  have htake : ∀ v : State, (if f.tag.toNat / 64 < d.blocks then takeFragment v d (f.tag.toNat / 64) (f.tag.toNat % 64) (padTo 64 f.body) else v) = v := by
    intro v
    rcases hno with hno | hno
    · exact if_neg (Nat.not_lt.mpr hno)
    · split
      · exact if_pos hno
      · rfl
  obtain ⟨hown, hall⟩ := h.image_taken hd hep 0x20 (fun d s =>
    let b := f.tag.toNat / 64
    if b < d.blocks then takeFragment s d b (f.tag.toNat % 64) (padTo 64 f.body) else s)
  rw [if_pos hp] at hown hall
  simp only [htake] at hown hall
  exact ⟨fun ha => congrArg _ (hown ha), fun ha => congrArg _ ((hall ha).trans (h.driving.forward _ _))⟩

theorem Comes.checks_kept (h : Comes s on f st) (hd : s.fw.delivery = some d) (hep : d.ep = 4) (hp : d.phase = .receiving) (hf : d.frags = [])
    {vs : List W32} (hvs : ((numbers 0 16).filter (fun i => f.tag.toNat + i < d.blocks)).map (fun i => BitVec.ofNat 32 (fieldAt f.body (4 * i) 4)) = vs) :
    (f.addr = ownSlot s → Completes (.blockCheck on f) s (fun t => (t.leat = (heard s st).leat
        ∧ t.fw.delivery = some { d with checks := vs.zipIdx.foldl (fun t e => tput t (f.tag.toNat + e.2) e.1) d.checks }) ∧ t.sent = s.sent))
    ∧ (f.addr = 0xFF → Completes (.blockCheck on f) s (fun t => (t.leat = (heard s st).leat
        ∧ t.fw.delivery = some { d with checks := vs.zipIdx.foldl (fun t e => tput t (f.tag.toNat + e.2) e.1) d.checks })
      ∧ t.sent = s.sent ++ [leatOut (outPair st) 0x21 f.addr f.tag f.body])) := by
  subst hvs
  exact h.image_kept hd hep hp rfl (takeChecks_kept hf _ _)

/-- A pass whose train came whole ends, and the sweep that waits begins. -/
theorem Mastered.end_begins (h : Mastered s on f st) (hp : s.leat.phase = .pass) (hw : WholeTrain s.leat f) (hwait : s.leat.waitSweep = true)
    (hd : s.leat.drive = true) : ∃ t, exec (.sweepEnd on f) s = .next t ∧ SweepBegun s t st := by
  obtain ⟨v, hv⟩ : ∃ v, v = modLeat (reachTrain (heard s st) (direction (heard s st).leat)) (fun l =>
      { l with phase := .idle, train := [], waitSweep := false }) := ⟨_, rfl⟩
  have hdrive : Driving v st := by
    rw [hv]
    exact ⟨h.up, rfl, receivingState_found h.state, fun _ => hd⟩
  have hexec : exec (.sweepEnd on f) s = .next (beginSweep v) := by
    rw [h.end, trainIn_whole (show (heard s st).leat.phase = .pass from hp) hw, hv]
    exact congrArg _ (if_pos hwait)
  have hbegun := hdrive.begins (show v.leat.drive = true by rw [hv]; exact hd)
  refine ⟨_, hexec, ?_⟩
  have hsame : v.leat.seq = s.leat.seq ∧ ownSlot v = ownSlot s ∧ v.sent = s.sent ∧ v.leat.period = s.leat.period ∧ v.leat.set = s.leat.set := by
    rw [hv]
    exact ⟨rfl, rfl, rfl, rfl, rfl⟩
  obtain ⟨hseq, hown, hsent, hperiod, hset⟩ := hsame
  have hlaunch : ∀ q o r, launched v q o r = launched s q o r := fun q o r => by simp only [launched, hown, hperiod, hset]
  refine ⟨?_, hbegun.phase, hbegun.first, ?_, ?_, ?_⟩
  · rw [hbegun.seq, hseq]
  · rw [hbegun.got, hown]
  · rw [← hown, hbegun.own, hseq]
  · rw [hbegun.sent, hsent, hseq, hlaunch]

theorem Mastered.end_over (h : Mastered s on f st) (hp : s.leat.phase = .pass) (hw : WholeTrain s.leat f) (hwait : s.leat.waitSweep = false) :
    exec (.sweepEnd on f) s = .next (setLeat (heard s st) { (heard s st).leat with
      phase := .idle
      train := []
      waitSweep := false
      table := reachedTable s.leat (if st = .reverse then 1 else 0) }) := by
  rw [h.end, trainIn_whole (show (heard s st).leat.phase = .pass from hp) hw]
  exact congrArg _ (if_neg (by rw [show (reachTrain (heard s st) _).leat.waitSweep = false from hwait]; exact Bool.false_ne_true))

theorem Mastered.end_back_waits (h : Mastered s on f st) (hp : s.leat.phase = .turning) (hr : fieldAt f.body 3 1 = 1) (h2 : s.leat.second = false)
    (hd : s.leat.drive = false) : exec (.sweepEnd on f) s = .next (setLeat (heard s st) { (heard s st).leat with
      table := reachedTable s.leat (if st = .reverse then 0 else 1)
      second := true
      phase := .back }) := by
  refine h.end.trans (congrArg _ ((trainIn_back (show (heard s st).leat.phase = .turning from hp) hr).trans ?_))
  exact afterTurn_waits (s := reachTrain (heard s st) (if st = .reverse then 0 else 1)) h2 hd

theorem Mastered.end_back_goes (h : Mastered s on f st) (hp : s.leat.phase = .turning) (hr : fieldAt f.body 3 1 = 1) (h2 : s.leat.second = false)
    (hd : s.leat.drive = true) : Completes (.sweepEnd on f) s (fun t => t.leat.second = true ∧ t.leat.phase = .pass
      ∧ t.leat.table = reachedTable s.leat (if st = .reverse then 0 else 1)
      ∧ t.sent = s.sent ++ launched s s.leat.seq (outPair st) (if st = .reverse then 1 else 0)) := by
  have hdrive : Driving (reachTrain (heard s st) (if st = .reverse then 0 else 1)) st :=
    ⟨h.up, rfl, receivingState_found h.state, fun _ => hd⟩
  have hexec : exec (.sweepEnd on f) s = .next (afterTurn (reachTrain (heard s st) (if st = .reverse then 0 else 1))) :=
    h.end.trans (congrArg _ (trainIn_back (show (heard s st).leat.phase = .turning from hp) hr))
  exact ⟨_, hexec, hdrive.afterTurn h2 hd⟩

theorem Mastered.end_back_over (h : Mastered s on f st) (hp : s.leat.phase = .turning) (hr : fieldAt f.body 3 1 = 1) (h2 : s.leat.second = true)
    (hw : s.leat.waitSweep = false) : Completes (.sweepEnd on f) s (fun t => t.leat.phase = .idle ∧ t.leat.state = opposite st
      ∧ t.leat.drive = false ∧ t.sent = s.sent ∧ ∀ k < 16, s.leat.got.contains k = false → (tget ⟨0, 2, []⟩ t.leat.table k).reach = 2) := by
  have hexec : exec (.sweepEnd on f) s = .next (afterTurn (reachTrain (heard s st) (if st = .reverse then 0 else 1))) :=
    h.end.trans (congrArg _ (trainIn_back (show (heard s st).leat.phase = .turning from hp) hr))
  exact ⟨_, hexec, afterTurn_ends (s := reachTrain (heard s st) (if st = .reverse then 0 else 1)) h2 hw⟩

theorem Mastered.end_turns (h : Mastered s on f st) (hp : s.leat.phase = .pass) (hd : s.leat.drive = true) (hw : ¬WholeTrain s.leat f)
    (hr : fieldAt f.body 3 1 ≠ 1) : exec (.sweepEnd on f) s = .next
      ((setLeat (heard s st) { (heard s st).leat with state := opposite st, drive := false, phase := .turning, train := [] }).emit
        (leatOut (outPair st) 0x02 (ownSlot s) 0 [])) := by
  rw [h.end, trainIn_turns (show (heard s st).leat.phase = .pass from hp) hw hr, (h.driving hd).turnRing]
  rfl

/-- SWEEP.CONFIG at the master sets the groups and the period. -/
theorem sweepConfig_commits {r : Request} (ha : Admitted cmdSweepConfig r s) (hm : s.leat.master = true) (hset : r.arg 16 4 < 32)
    (hflags : r.arg 22 1 = 0) : CommitsWith (.sweepConfig r) cmdSweepConfig r s stOk []
      (leBytes 4 (r.arg 16 4) ++ leBytes 2 (r.arg 20 2) ++ [0])
      (fun t => setLeat t { t.leat with set := BitVec.ofNat 32 (r.arg 16 4), period := r.arg 20 2 }) := by
  refine commitsWith_of_commit rfl ha (g := fun _ s =>
      let s1 := modLeat s (fun l => { l with set := BitVec.ofNat 32 (r.arg 16 4), period := if l.master then r.arg 20 2 else l.period })
      if r.arg 22 1 = 1 then sweepDue s1 else s1) (fun e v => ?_) rfl fun o e v l m => ?_
  · change sweepConfigBody r _ = _
    unfold sweepConfigBody
    dsimp only
    rw [if_neg (by omega), if_neg (by simp [hm]), hflags]
    rfl
  · simp only [hflags]
    rw [if_neg (by decide)]
    simp only [modLeat, hm, if_true]

end

/-- Settles O60: row by row. -/
theorem leatRowsForwardAndSweep : Obligations.LeatRowsForwardAndSweep := by
  unfold Obligations.LeatRowsForwardAndSweep
  intro on urgent second f g st d s l own out back as same frames v u rows timers came in_ inM seq dir other named added bound fragment vs checked
    half slot p member master slots reached launched turns begins whole
  refine ⟨fun hup i hi => ?_, fun hup => ?_⟩
  · rcases List.mem_append.mp hi with hi | hi
    · obtain ⟨k, b, handle, hexec⟩ := frameRows_receive hi s
      rw [hexec, receive_silent hup]
    · exact leatTimers_silent hup i hi
  have hbegins : ∀ i t, exec i s = .next t → SweepBegun s t st → begins i := fun i t ht hb =>
    ⟨t, ht, hb.seq, hb.phase, hb.first, hb.got, hb.own, hb.sent⟩
  refine ⟨?_, ?_, ?_, ?_, ?_, ?_, ?_, ?_, ?_, ?_, ?_, ?_, ?_, ?_, ?_, ?_, ?_, ?_, ?_, ?_, ?_, ?_, ?_, ?_, ?_, ?_, ?_⟩
  · intro hnone i hi
    obtain ⟨k, b, handle, hexec⟩ := frameRows_receive hi s
    rw [hexec, receive_none hnone]
  · intro hst hok i hi
    obtain ⟨k, b, handle, hexec⟩ := frameRows_receive hi s
    rw [hexec, receive_bad hup hst hok]
  · intro hin
    have h : Comes s on f st := ⟨hup, hin.1.1, hin.1.2, hin.2⟩
    refine ⟨?_, ?_, ?_, ?_, ?_, ?_, ?_, ?_, ?_, ?_, ?_, ?_, ?_, ?_, ?_, ?_, ?_, ?_, ?_, ?_, ?_⟩
    · exact congrArg _ (h.forwards 0x01)
    · exact congrArg _ (h.forwards _)
    · exact congrArg _ (h.receive 0x03 id)
    · exact h.turn
    · exact fun hn => h.head_other hn
    · exact fun hn => h.head_own hn
    · exact h.record
    · exact fun ho => h.end_other ho
    · exact fun htrain hr => h.end_own htrain hr
    · exact fun hd => ⟨congrArg _ (h.image_other hd 0x20 _), congrArg _ (h.image_other hd 0x21 _)⟩
    · intro hd hep hp
      obtain ⟨himage, hallImage⟩ := h.image_closed hd hep hp 0x20 _
      obtain ⟨hcheck, hallCheck⟩ := h.image_closed hd hep hp 0x21 _
      exact ⟨fun ha => ⟨congrArg _ (himage ha), congrArg _ (hcheck ha)⟩, fun ha => ⟨congrArg _ (hallImage ha), congrArg _ (hallCheck ha)⟩⟩
    · exact fun hb hno => h.image_ignored hb.1 hb.2.1 hb.2.2 hno
    · exact fun hb hlt hnew hc hf => h.image_fragment hb.1 hb.2.1 hb.2.2 hlt hnew hc hf
    · exact fun hb hf => h.checks_kept hb.1 hb.2.1 hb.2.2 hf rfl
    · exact fun ha => h.first_own urgent ha
    · exact fun ha => h.halves_other urgent ha
    · exact fun ha hno => h.second_alone urgent ha hno
    · rintro ⟨hhalf, htag, hown, hserves⟩ rfl hb
      exact h.urgent_placed ⟨hhalf, htag, hown, hserves⟩ hb
    · rintro ⟨hhalf, htag, hown, hserves⟩ rfl hb
      exact h.urgent_overrun ⟨hhalf, htag, hown, hserves⟩ hb
    · rintro ⟨hhalf, htag, hown, hserves⟩ rfl hb
      exact h.request_placed ⟨hhalf, htag, hown, hserves⟩ hb
    · rintro ⟨hhalf, htag, hown, hserves⟩ rfl hb
      exact h.request_refused ⟨hhalf, htag, hown, hserves⟩ hb
  · intro hin
    have h : Mastered s on f st := ⟨hup, hin.1.1, hin.1.2, hin.2⟩
    refine ⟨?_, ?_, ?_, ?_, ?_, ?_, ?_, ?_, ?_, ?_, ?_, ?_, ?_, ?_⟩
    · exact h.consumes urgent second
    · exact h.second urgent
    · exact fun ha => h.idle_kept ha
    · exact fun h16 h19 => h.idle_yields h16 h19
    · exact h.head
    · exact h.record
    · exact fun hp hr => h.end.trans (congrArg _ (trainIn_returned (show (heard s st).leat.phase = .pass from hp) hr))
    · exact fun hp hd hw hr => h.end_turns hp hd hw hr
    · exact fun hp hw hwait => h.end_over hp hw hwait
    · intro hp hw hwait hd
      obtain ⟨t, ht, hb⟩ := h.end_begins hp hw hwait hd
      exact hbegins _ t ht hb
    · exact fun hp hr h2 hd => h.end_back_waits hp hr h2 hd
    · exact fun hp hr h2 hd => h.end_back_goes hp hr h2 hd
    · exact fun hp hr h2 hw => h.end_back_over hp hr h2 hw
    · exact fun hp hr => h.end.trans (congrArg _ (trainIn_ignored (show (heard s st).leat.phase ≠ .pass from hp) hr))
  · exact fun hm => leatTimers_member hm
  · exact fun hm => leatTimers_master hm
  · exact fun hm hd => masterIdle_sends ⟨hup, hm.2.1, hm.2.2, fun _ => hd⟩ hm.1
  · exact fun hm hd => masterIdle_quiet hm hd
  · exact fun hm h0 hslot hcm => takeover_masters hup hm h0 hslot hcm
  · exact fun h => takeover_refused h
  · exact fun hm hb h => drive_permitted hup hm hb h
  · exact fun hm hb => drive_launches hup hm.1 hm.2.1 hm.2.2 hb
  · exact fun _ hp h2 => drive_withheld hp h2
  · intro hm ht
    exact endOfLine_returns ⟨hup, hm.2.1, hm.2.2, fun h => absurd h (by rw [hm.1]; exact Bool.false_ne_true)⟩ hm.1 ht
  · exact fun ht => endOfLine_quiet ht
  · intro hm hin
    exact sweepCut_completes ⟨hup, hm.2.1, hm.2.2, fun h => absurd h (by rw [hm.1]; exact Bool.false_ne_true)⟩ hm.1 hin
  · exact fun hin => sweepCut_quiet hin
  · exact fun _ hp => sweepPeriod_none hp
  · exact fun hm hp hi => sweepPeriod_waits hup hm hp hi
  · intro hm hp hi hd
    have hdrive : Driving s st := ⟨hup, hm.2.1, hm.2.2, fun _ => hd⟩
    exact hbegins _ _ (sweepPeriod_begins hup hm.1 hp hi) (hdrive.begins hd)
  · intro hm hp hi hd
    exact ⟨_, sweepPeriod_begins hup hm hp hi, beginSweep_waits hd⟩
  · exact fun hm hp hd => sweepStall_turns ⟨hup, hm.2.1, hm.2.2, fun _ => hd⟩ hm.1 hp
  · exact fun hm hp h2 hd => sweepStall_waits hup hm hp h2 hd
  · exact fun h => sweepStall_quiet h
  · exact fun hm hp hstage => heldRecord_made hup hm hp hstage
  · exact fun h => heldRecord_quiet h
  · exact fun r ha hm hset hflags => sweepConfig_commits ha hm hset hflags

end Sys2Proof.Machine
end

section
/-! PROOFS. Fetch and issue of a bundle, and the ends of what a core has in flight (R197 to R209, R212, R237, R243, R276). -/

namespace Sys2Proof.Machine

/-! ### A core that faults (R203, R563) -/

/-- The register writes of the glocks that a stop withdraws keep what the core does. -/
theorem busyWrites_run (l : List GateOp) : ∀ c : Core,
    let d := l.foldl (fun c o => { c.setS o.sd.toNat (plainStatus gsBusy) with
      gops := (c.setS o.sd.toNat (plainStatus gsBusy)).gops.filter (fun x => x.tag != o.tag) }) c
    d.run = c.run ∧ d.fault = c.fault := by
  induction l with
  | nil => exact fun _ => ⟨rfl, rfl⟩
  | cons o l ih =>
    intro c
    have hone : (c.setS o.sd.toNat (plainStatus gsBusy)).run = c.run ∧ (c.setS o.sd.toNat (plainStatus gsBusy)).fault = c.fault := by
      unfold Core.setS
      split <;> exact ⟨rfl, rfl⟩
    exact ⟨(ih _).1.trans hone.1, (ih _).2.trans hone.2⟩

theorem withdrawOps_relaying (l : List GateOp) (s : State) : Relaying s (l.foldl (fun t o => withdrawOp t o false) s) :=
  Relaying.foldl _ (fun t o => Relaying.withdrawOp t o false) l s

/-- Withdrawing a core's glocks changes neither memory nor what the core does. -/
theorem stopGates_stops (s : State) (n : Nat) : (stopGates s n).store = s.store ∧ ((stopGates s n).core n).run = (s.core n).run
    ∧ ((stopGates s n).core n).fault = (s.core n).fault := by
  have hrel := withdrawOps_relaying ((s.core n).gops.filter (fun o => o.op == 0x02 && o.result.isNone)) s
  obtain ⟨u, hu⟩ : ∃ u, u = ((s.core n).gops.filter (fun o => o.op == 0x02 && o.result.isNone)).foldl (fun t o => withdrawOp t o false) s := ⟨_, rfl⟩
  rw [← hu] at hrel
  obtain ⟨l, hl, -⟩ := hrel.core n
  have hrun : (u.core n).run = (s.core n).run ∧ (u.core n).fault = (s.core n).fault := by
    rw [hl]
    exact ⟨rfl, rfl⟩
  have hwrites := busyWrites_run ((s.core n).gops.filter (fun o => o.op == 0x02 && o.result.isNone)) (u.core n)
  unfold stopGates
  simp only [← hu, State.modCore, State.core_setCore]
  exact ⟨hrel.store, hwrites.1.trans hrun.1, hwrites.2.trans hrun.2⟩

/-- A core that faults stops on its record, and memory stays. -/
theorem faultCore_stops (s : State) (n : Nat) (f : BundleFault) (flags : Byte) (pc : BitVec 14) :
    ((faultCore s n f flags pc).core n).run = .faulted ∧ (faultCore s n f flags pc).store = s.store
    ∧ ((faultCore s n f flags pc).core n).fault = some ⟨f.cause, byte f.slot, flags, pc, f.addr, BitVec.ofNat 32 s.time.count.toNat⟩ := by
  obtain ⟨u, hu⟩ : ∃ u, u = s.modCore n (fun c => { c with
    run := .faulted
    fault := some ⟨f.cause, byte f.slot, flags, pc, f.addr, BitVec.ofNat 32 s.time.count.toNat⟩
    held := none
    staged := []
    miss := none
    edge := false }) := ⟨_, rfl⟩
  have hcore : (u.core n).run = .faulted
      ∧ (u.core n).fault = some ⟨f.cause, byte f.slot, flags, pc, f.addr, BitVec.ofNat 32 s.time.count.toNat⟩ := by
    rw [hu, State.modCore, State.core_setCore]
    exact ⟨rfl, rfl⟩
  have hstore : u.store = s.store := by rw [hu]; rfl
  obtain ⟨hs1, hr1, hf1⟩ := stopGates_stops u n
  have hend := Relaying.endLife (stopGates u n) n
  obtain ⟨v, hv⟩ : ∃ v, v = (endLife (stopGates u n) n).1 := ⟨_, rfl⟩
  rw [← hv] at hend
  obtain ⟨l, hl, -⟩ := hend.core n
  have hstep : (endStepOf v n).store = v.store ∧ (endStepOf v n).core n = v.core n := by
    unfold endStepOf
    split <;> exact ⟨rfl, rfl⟩
  have hfault : faultCore s n f flags pc = event (endStepOf v n) 0xE003
      [f.cause, byte n, byte ((basinOf s n).getD 0xFF), byte f.slot, byte pc.toNat, byte (pc.toNat / 256), byte (s.logical n), 0] := by
    rw [hv, hu]
    rfl
  obtain ⟨d, hd⟩ : ∃ d, d = [f.cause, byte n, byte ((basinOf s n).getD 0xFF), byte f.slot, byte pc.toNat, byte (pc.toNat / 256),
    byte (s.logical n), 0] := ⟨_, rfl⟩
  have hevent := Sending.event (endStepOf v n) 0xE003 d
  rw [hfault, ← hd]
  have hlast : (event (endStepOf v n) 0xE003 d).core n = v.core n := by
    rw [State.core, hevent.die]
    exact hstep.2
  have hrun : (v.core n).run = .faulted := by rw [hl]; exact hr1.trans hcore.1
  have hrec : (v.core n).fault = some ⟨f.cause, byte f.slot, flags, pc, f.addr, BitVec.ofNat 32 s.time.count.toNat⟩ := by
    rw [hl]
    exact hf1.trans hcore.2
  exact ⟨by rw [hlast, hrun], by rw [hevent.store, hstep.1, hend.store, hs1, hstore], by rw [hlast, hrec]⟩

theorem faultBundle_one (s : State) (n : Nat) (pc : BitVec 14) (f : BundleFault) :
    faultBundle s [n] pc [(n, f)] = faultCore s n f 0x02 pc := by
  simp [faultBundle]

/-! ### Fetch and issue (R197, R207 to R209) -/

section
variable {s : State} {n : Fin 64} {b l : Nat} {i : Image}

/-- The core of node `n` stops on a fault of slot 0 at its program counter. -/
def Faulted (s : State) (n : Nat) (cause : Byte) (t : State) : Prop :=
  (t.core n).run = .faulted ∧ t.store = s.store
    ∧ (t.core n).fault = some ⟨cause, 0, 0x02, (s.core n).pc, 0, BitVec.ofNat 32 s.time.count.toNat⟩

/-- A fault of slot 0, in a state with the memory and the time of `s`. -/
theorem faulted_of_bundle {u : State} (hstore : u.store = s.store) (htime : u.time = s.time) (cause : Byte) :
    Faulted s n cause (faultBundle u [(n : Nat)] (s.core n).pc [((n : Nat), ⟨cause, 0, 0⟩)]) := by
  rw [faultBundle_one]
  obtain ⟨hrun, hst, hrec⟩ := faultCore_stops u n ⟨cause, 0, 0⟩ 0x02 (s.core n).pc
  exact ⟨hrun, hst.trans hstore, hrec.trans (by rw [htime]; rfl)⟩

/-- The bundle at the program counter of a ready core is fetched and issued. -/
theorem Ready.bundleIssue (hr : Ready s n b) (hi : storeImage s n = some i) : exec (.bundleIssue n) s = .next (
    if i.bundles ≤ (s.core n).pc.toNat then faultBundle s [(n : Nat)] (s.core n).pc [((n : Nat), ⟨fcNoImage, 0, 0⟩)]
    else if !(s.core n).ibuf.contains ((s.core n).pc.toNat / 16) then
      s.modCore n (fun c => countStall .fetch { c with miss := some (c.pc.toNat / 16) })
    else
      let raw := i.bundle (s.core n).pc.toNat
      let s1 := s.modCore n (fetchAhead i (s.core n).pc.toNat)
      if !headerOk raw then faultBundle s1 [(n : Nat)] (s.core n).pc [((n : Nat), ⟨fcBadEncoding, 0, 0⟩)]
      else if serial raw && !([(n : Nat)].all (fun k => quiet (s1.core k))) then s1.modCore n (countStall .register)
      else if !([(n : Nat)].all (fun k => checksReady (s1.core k) (decodeBundle raw))) then s1.modCore n (countStall .register)
      else issueBundle s1 n [(n : Nat)] raw) := by
  have hgo : ¬((!mayIssue s n || (s.core n).held.isSome) = true) := by simp [hr.may, hr.held]
  change Host.Outcome.next (ite _ _ _) = _
  rw [if_neg hgo]
  dsimp only
  rw [hr.group, hi]

theorem Ready.bundleIssue_none (hr : Ready s n b) (hi : storeImage s n = none) :
    exec (.bundleIssue n) s = .next (faultBundle s [(n : Nat)] (s.core n).pc [((n : Nat), ⟨fcNoImage, 0, 0⟩)]) := by
  have hgo : ¬((!mayIssue s n || (s.core n).held.isSome) = true) := by simp [hr.may, hr.held]
  change Host.Outcome.next (ite _ _ _) = _
  rw [if_neg hgo]
  dsimp only
  rw [hr.group, hi]

/-- A ready core whose strip has ended is quiet, and all its checks can be made. -/
theorem Ready.fetched (hr : Ready s n b) (hs : (s.core n).strip = none) (i : Image) (pc : Nat) :
    quiet (fetchAhead i pc (s.core n)) = true ∧ ∀ l, checksReady (fetchAhead i pc (s.core n)) l = true := by
  have hkeep : ∃ l, fetchAhead i pc (s.core n) = { s.core n with fetching := l } := by
    unfold fetchAhead
    dsimp only
    split
    · exact ⟨_, rfl⟩
    · exact ⟨_, rfl⟩
  obtain ⟨l, hl⟩ := hkeep
  rw [hl]
  refine ⟨?_, fun l => ?_⟩
  · simp [quiet, hr.entries, hr.gops, hr.summaries, hs, hr.vector]
  · simp [checksReady, awaits, hr.gops]

/-- The image of a ready core's cluster, and the bundle in the buffer. -/
structure InBuffer (s : State) (n : Nat) (i : Image) : Prop where
  image : storeImage s n = some i
  within : (s.core n).pc.toNat < i.bundles
  buffer : (s.core n).ibuf.contains ((s.core n).pc.toNat / 16) = true

theorem Ready.noImage (hr : Ready s n b) (hi : storeImage s n = none) : Completes (.bundleIssue n) s (Faulted s n fcNoImage) :=
  ⟨_, hr.bundleIssue_none hi, faulted_of_bundle rfl rfl _⟩

theorem Ready.outside (hr : Ready s n b) (hi : storeImage s n = some i) (hout : i.bundles ≤ (s.core n).pc.toNat) :
    Completes (.bundleIssue n) s (Faulted s n fcNoImage) := by
  exact ⟨_, (hr.bundleIssue hi).trans (congrArg _ (if_pos hout)), faulted_of_bundle rfl rfl _⟩

theorem Ready.misses (hr : Ready s n b) (hi : storeImage s n = some i) (hin : (s.core n).pc.toNat < i.bundles)
    (hb : (s.core n).ibuf.contains ((s.core n).pc.toNat / 16) = false) :
    exec (.bundleIssue n) s = .next (s.setCore n (countStall .fetch { s.core n with miss := some ((s.core n).pc.toNat / 16) })) := by
  rw [hr.bundleIssue hi]
  exact congrArg _ ((if_neg (Nat.not_le.mpr hin)).trans (if_pos (by rw [hb]; rfl)))

theorem Ready.inBuffer (hr : Ready s n b) (h : InBuffer s n i) : exec (.bundleIssue n) s = .next (
    let raw := i.bundle (s.core n).pc.toNat
    let s1 := s.modCore n (fetchAhead i (s.core n).pc.toNat)
    if !headerOk raw then faultBundle s1 [(n : Nat)] (s.core n).pc [((n : Nat), ⟨fcBadEncoding, 0, 0⟩)]
    else if serial raw && !([(n : Nat)].all (fun k => quiet (s1.core k))) then s1.modCore n (countStall .register)
    else if !([(n : Nat)].all (fun k => checksReady (s1.core k) (decodeBundle raw))) then s1.modCore n (countStall .register)
    else issueBundle s1 n [(n : Nat)] raw) := by
  rw [hr.bundleIssue h.image]
  exact congrArg _ ((if_neg (Nat.not_le.mpr h.within)).trans (if_neg (by rw [h.buffer]; exact Bool.false_ne_true)))

theorem Ready.badHeader (hr : Ready s n b) (h : InBuffer s n i) (hh : headerOk (i.bundle (s.core n).pc.toNat) = false) :
    Completes (.bundleIssue n) s (Faulted s n fcBadEncoding) := by
  obtain ⟨u, hu⟩ : ∃ u, u = s.modCore n (fetchAhead i (s.core n).pc.toNat) := ⟨_, rfl⟩
  have hexec : exec (.bundleIssue n) s = .next (faultBundle u [(n : Nat)] (s.core n).pc [((n : Nat), ⟨fcBadEncoding, 0, 0⟩)]) := by
    rw [hr.inBuffer h]
    simp only [hh, Bool.not_false, if_true, ← hu]
  exact ⟨_, hexec, faulted_of_bundle (by rw [hu]; rfl) (by rw [hu]; rfl) _⟩

theorem Ready.bundleIssues (hr : Ready s n b) (h : InBuffer s n i) (hh : headerOk (i.bundle (s.core n).pc.toNat) = true)
    (hs : (s.core n).strip = none) : exec (.bundleIssue n) s
      = .next (issueBundle (s.setCore n (fetchAhead i (s.core n).pc.toNat (s.core n))) n [(n : Nat)] (i.bundle (s.core n).pc.toNat)) := by
  obtain ⟨hquiet, hready⟩ := hr.fetched hs i (s.core n).pc.toNat
  rw [hr.inBuffer h]
  simp only [hh, State.modCore, State.core_setCore, List.all_cons, List.all_nil, hquiet, hready, Bool.not_true, Bool.and_true, Bool.and_false,
    Bool.false_eq_true, if_false]

/-- An empty bundle only moves the program counter. -/
theorem Ready.emptyBundle (hr : Ready s n b) (h : InBuffer s n i) (hh : headerOk (i.bundle (s.core n).pc.toNat) = true)
    (hs : (s.core n).strip = none) (hv : validSlots (i.bundle (s.core n).pc.toNat) = []) :
    exec (.bundleIssue n) s = .next (s.setCore n (fetchAhead i (s.core n).pc.toNat (s.core n)).stepped) := by
  obtain ⟨l, hl⟩ : ∃ l, fetchAhead i (s.core n).pc.toNat (s.core n) = { s.core n with fetching := l } := by
    unfold fetchAhead
    dsimp only
    split
    · exact ⟨_, rfl⟩
    · exact ⟨_, rfl⟩
  rw [hr.bundleIssues h hh hs, hl]
  obtain ⟨c, hc⟩ : ∃ c : Core, c = { s.core n with fetching := l } := ⟨_, rfl⟩
  rw [← hc]
  obtain ⟨d, hd⟩ : ∃ d : Core, d = { c with held := some { raw := i.bundle (s.core n).pc.toNat, snap := c.capture } } := ⟨_, rfl⟩
  have hissue : issueBundle (s.setCore n c) n [(n : Nat)] (i.bundle (s.core n).pc.toNat) = settleReads (finishBundle (s.setCore n d) n [(n : Nat)]) := by
    have hitems : decodeBundle (i.bundle (s.core n).pc.toNat) = [] := by rw [decodeBundle, hv, List.map_nil]
    unfold issueBundle
    simp only [hitems, checkNode, List.filterMap_cons, List.filterMap_nil, List.find?_nil, dualWrite, List.findSome?_nil, Option.map_none,
      List.foldl_cons, List.foldl_nil, State.modCore, State.core_setCore, State.setCore_setCore, ← hd]
    rfl
  have hstepped : (retireStrip d).stepped = c.stepped := by
    rw [hd, hc]
    simp [retireStrip, hr.entries, Core.stepped, Core.steppedTo]
  rw [hissue, finishBundle_next s n d (by rw [hd, hc]; exact hr.running) (by rw [hd, hc]; exact hr.outer) (by rw [hd, hc]; exact hr.inner)
    (by rw [hd, hc]; exact hr.stepping) (by rw [hd]; rfl), settleReads_none (s.setCore n _) hr.reads, hstepped]

end

end Sys2Proof.Machine
end

section
/-! PROOFS. The vector operation that completes, and the other ends of what a core has in flight (R212, R237, R243, R305 to R318). -/

namespace Sys2Proof.Machine

section
variable {s : State} {n : Fin 64} {id g : Nat}

/-! ### Reads of memory that holds no error -/

theorem note_whole (h : s.mem.flips = []) (b : Option Nat) (k : Byte) (p : Nat → Bool) : s.note b k p = s := by
  have hnone : s.mem.firstFailing p = none := by
    rw [Memory.firstFailing_none, h]
    exact nofun
  unfold State.note
  rw [hnone]

theorem noteCore_whole (h : s.mem.flips = []) (m a len : Nat) : s.noteCore m a len = s := note_whole h _ _ _

theorem noteCores_whole (h : s.mem.flips = []) (m : Nat) (l : List (Nat × Nat)) : l.foldl (fun u e => u.noteCore m e.1 e.2) s = s := by
  induction l with
  | nil => rfl
  | cons e l ih => rw [List.foldl_cons, noteCore_whole h, ih]

theorem noteStreams_whole (h : s.mem.flips = []) (m : Nat) (dd : BitVec 128) (ds : List (BitVec 128)) (a z : Nat) : noteStreams s m dd ds a z = s := by
  have hfold : ∀ l : List (BitVec 128), l.foldl (fun t d => t.note (homeOf s m) 0 (fun w => (numbers w 4).any
      (streamHas d ((numbers a (z - a)).map (· % dCount d))))) s = s := by
    intro l
    induction l with
    | nil => rfl
    | cons d l ih => rw [List.foldl_cons, note_whole h, ih]
  unfold noteStreams
  dsimp only
  rw [hfold, note_whole h]

/-! ### The engine lets go of its only operation (R212, R318) -/

theorem releaseV_free {c : Core} {o : VOp} (hv : c.v.tail = []) (ha : vAnchor o.kind = none) :
    ∃ sb, releaseV c o = { c with v := [], sb := sb } := by
  unfold releaseV
  simp only [hv, ha, List.head?_nil]
  exact ⟨_, rfl⟩

theorem releaseV_anchor {c : Core} {o : VOp} {d : Nat} (hv : c.v.tail = []) (ha : vAnchor o.kind = some d) :
    ∃ sb, releaseV c o = { c with
      v := []
      sb := sb
      d := tput c.d d (dSet (tget 0 c.d d) 84 83 0) } := by
  unfold releaseV
  simp only [hv, ha, Core.setD, List.head?_nil]
  exact ⟨_, rfl⟩

/-- Memory without errors, and nothing read yet to act on. -/
structure Settled (s : State) : Prop where
  flips : s.mem.flips = []
  found : s.store.found = []

/-- The engine of a core that is not halted completes its first operation. -/
theorem vector_completes (hr : (s.core n).run ≠ .halted) : exec (.vectorOpComplete n) s = .next (settleReads (completeV s n)) := by
  change Host.Outcome.next (match (s.core n).run with
    | .halted => settleReads (quietV s n)
    | _ => settleReads (completeV s n)) = _
  cases h : (s.core n).run with
  | halted => exact absurd h hr
  | idle => rfl
  | running => rfl
  | stopped => rfl
  | faulted => rfl

/-- What a completed vector operation leaves: the engine holds nothing, and of the rest only what the operation writes changes. -/
def VectorDone (s : State) (n : Nat) (t : State) : Prop :=
  (t.core n).v = [] ∧ (t.core n).s = (s.core n).s ∧ (t.core n).pc = (s.core n).pc ∧ ∀ m, m ≠ n → t.core m = s.core m

theorem vectorDone_setCore {u : State} {c : Core} (hu : ∀ m, u.core m = s.core m) (hv : c.v = []) (hs : c.s = (s.core n).s) (hp : c.pc = (s.core n).pc) :
    VectorDone s n (u.setCore n c) := by
  refine ⟨?_, ?_, ?_, fun m hm => (State.core_setCore_ne _ hm _).trans (hu m)⟩
  · rw [State.core_setCore, hv]
  · rw [State.core_setCore, hs]
  · rw [State.core_setCore, hp]

theorem vector_idle (hr : (s.core n).run ≠ .halted) (hs : Settled s) (hv : (s.core n).v = []) : exec (.vectorOpComplete n) s = .next s := by
  have hnone : completeV s n = s := by
    unfold completeV
    rw [hv]
  rw [vector_completes hr, hnone, settleReads_none _ hs.found]

/-- A completion that writes only its core is what the command leaves. -/
theorem vector_leaves (hr : (s.core n).run ≠ .halted) (hs : Settled s) {d : Core} (hd : completeV s n = s.setCore n d) :
    exec (.vectorOpComplete n) s = .next (s.setCore n d) := by
  rw [vector_completes hr, hd, settleReads_none (s.setCore n d) hs.found]

/-! ### The operations of the engine (R305 to R318) -/

theorem dFlags_cleared (d : BitVec 128) : dFlags (dSet (dSet d 82 77 0) 84 83 0) = 0 := by
  have hd := d.isLt
  have hzero : bits (dSet (dSet d 82 77 0) 84 83 0).toNat 82 77 = 0 := by
    simp only [dSet, bits, BitVec.toNat_ofNat]
    omega
  unfold dFlags
  rw [hzero]
  rfl

theorem vclear_done (hr : (s.core n).run ≠ .halted) (hs : Settled s) {tl : BitVec 2} (hv : (s.core n).v = [⟨id, .clear tl, g⟩]) :
    Completes (.vectorOpComplete n) s (fun t => VectorDone s n t ∧ t.store = s.store ∧ (t.core n).tile tl.toNat = []) := by
  obtain ⟨c, hc⟩ : ∃ c : Core, c = { (s.core n).setTile tl.toNat [] with
    tileInt := putBit (s.core n).tileInt tl.toNat false
    tilePair := putBit (s.core n).tilePair tl.toNat false } := ⟨_, rfl⟩
  obtain ⟨sb, hsb⟩ := releaseV_free (c := c) (o := ⟨id, .clear tl, g⟩) (by rw [hc]; exact congrArg List.tail hv) rfl
  have hcomplete : completeV s n = s.setCore n (releaseV c ⟨id, .clear tl, g⟩) := by
    unfold completeV
    simp only [hv, State.modCore, State.core_setCore, State.setCore_setCore, ← hc]
  rw [hsb] at hcomplete
  refine ⟨_, vector_leaves hr hs hcomplete, ?_, rfl, ?_⟩
  · exact vectorDone_setCore (u := s) (fun _ => rfl) rfl (by rw [hc]; rfl) (by rw [hc]; rfl)
  · rw [State.core_setCore, hc]
    exact tget_tput_same _ _ _ _

theorem vload_done (hr : (s.core n).run ≠ .halted) (hs : Settled s) {tl : BitVec 2} {a : W32} (hv : (s.core n).v = [⟨id, .load tl a, g⟩]) :
    Completes (.vectorOpComplete n) s (fun t => VectorDone s n t ∧ t.store = s.store
      ∧ (t.core n).tile tl.toNat = tileOfBytes (s.mem.read a.toNat 4096)) := by
  obtain ⟨x, hx⟩ : ∃ x, x = tileOfBytes (s.mem.read a.toNat 4096) := ⟨_, rfl⟩
  obtain ⟨c, hc⟩ : ∃ c : Core, c = { (s.core n).setTile tl.toNat x with
    tileInt := putBit (s.core n).tileInt tl.toNat false
    tilePair := putBit (s.core n).tilePair tl.toNat false } := ⟨_, rfl⟩
  obtain ⟨sb, hsb⟩ := releaseV_free (c := c) (o := ⟨id, .load tl a, g⟩) (by rw [hc]; exact congrArg List.tail hv) rfl
  have hcomplete : completeV s n = s.setCore n (releaseV c ⟨id, .load tl a, g⟩) := by
    unfold completeV
    simp only [hv, noteCore_whole hs.flips, ← hx, State.modCore, State.core_setCore, State.setCore_setCore, ← hc]
  rw [hsb] at hcomplete
  refine ⟨_, vector_leaves hr hs hcomplete, ?_, rfl, ?_⟩
  · exact vectorDone_setCore (u := s) (fun _ => rfl) rfl (by rw [hc]; rfl) (by rw [hc]; rfl)
  · rw [State.core_setCore, hc, ← hx]
    exact tget_tput_same _ _ _ _

theorem vfill_done (hr : (s.core n).run ≠ .halted) (hs : Settled s) {rg : BitVec 4} {a : W32} (hv : (s.core n).v = [⟨id, .fill rg a, g⟩]) :
    Completes (.vectorOpComplete n) s (fun t => VectorDone s n t ∧ t.store = s.store
      ∧ tget [] (t.core n).cache rg.toNat = s.mem.read a.toNat 4096 ∧ tget 0 (t.core n).csrc rg.toNat = a) := by
  obtain ⟨x, hx⟩ : ∃ x, x = s.mem.read a.toNat 4096 := ⟨_, rfl⟩
  obtain ⟨c, hc⟩ : ∃ c : Core, c = { s.core n with
    cache := tput (s.core n).cache rg.toNat x
    csrc := tput (s.core n).csrc rg.toNat a } := ⟨_, rfl⟩
  obtain ⟨sb, hsb⟩ := releaseV_free (c := c) (o := ⟨id, .fill rg a, g⟩) (by rw [hc]; exact congrArg List.tail hv) rfl
  have hcomplete : completeV s n = s.setCore n (releaseV c ⟨id, .fill rg a, g⟩) := by
    unfold completeV
    simp only [hv, noteCore_whole hs.flips, ← hx, State.modCore, State.core_setCore, State.setCore_setCore]
    rw [hc, ← hv]
  rw [hsb] at hcomplete
  refine ⟨_, vector_leaves hr hs hcomplete, ?_, rfl, ?_, ?_⟩
  · exact vectorDone_setCore (u := s) (fun _ => rfl) rfl (by rw [hc]) (by rw [hc])
  · rw [State.core_setCore, hc, ← hx]
    exact tget_tput_same _ _ _ _
  · rw [State.core_setCore, hc]
    exact tget_tput_same _ _ _ _

theorem bit_putBit_false {w : Nat} (v : BitVec w) (i : Nat) : bit (putBit v i false).toNat i = false := by
  rw [bit_toNat]
  simp only [putBit, Bool.false_eq_true, if_false, BitVec.getLsbD_and, BitVec.getLsbD_not, BitVec.getLsbD_ofNat, Nat.testBit_two_pow_self]
  by_cases h : i < w <;> simp [h]

theorem bit_putBit_true {w : Nat} (v : BitVec w) (i : Nat) (h : i < w) : bit (putBit v i true).toNat i = true := by
  rw [bit_toNat]
  simp only [putBit, if_true, BitVec.getLsbD_or, BitVec.getLsbD_ofNat, Nat.testBit_two_pow_self, h, decide_true, Bool.and_true, Bool.or_true]

theorem vred_done (hr : (s.core n).run ≠ .halted) (hs : Settled s) {qd : BitVec 2} {ds : BitVec 4} {kind : BitVec 3} {float : Bool}
    (hv : (s.core n).v = [⟨id, .red qd ds kind float, g⟩]) (hk : kind ≠ 5) :
    Completes (.vectorOpComplete n) s (fun t => VectorDone s n t ∧ t.store = s.store ∧ bit (t.core n).qPend.toNat qd.toNat = false
      ∧ (t.core n).getQ qd.toNat
        = (reduceValue kind.toNat float (dElem (tget 0 (s.core n).d ds.toNat)) (reduceElems s.mem (tget 0 (s.core n).d ds.toNat))).1) := by
  obtain ⟨r, hr'⟩ : ∃ r, r = reduceValue kind.toNat float (dElem (tget 0 (s.core n).d ds.toNat)) (reduceElems s.mem (tget 0 (s.core n).d ds.toNat)) :=
    ⟨_, rfl⟩
  obtain ⟨c, hc⟩ : ∃ c : Core, c = { ((s.core n).setQ qd.toNat r.1).setD ds.toNat (addFlags (tget 0 (s.core n).d ds.toNat) r.2) with
    qPend := putBit (s.core n).qPend qd.toNat false } := ⟨_, rfl⟩
  obtain ⟨sb, hsb⟩ := releaseV_anchor (c := c) (o := ⟨id, .red qd ds kind float, g⟩) (by rw [hc]; exact congrArg List.tail hv) rfl
  have hred : finishRed s n qd ds kind float = s.setCore n c := by
    unfold finishRed
    simp only [if_neg hk, note_whole hs.flips, ← hr', State.modCore, ← hc]
  have hcomplete : completeV s n = s.setCore n (releaseV c ⟨id, .red qd ds kind float, g⟩) := by
    unfold completeV
    simp only [hv, hred, State.modCore, State.core_setCore, State.setCore_setCore]
  rw [hsb] at hcomplete
  rw [← hr']
  refine ⟨_, vector_leaves hr hs hcomplete, ?_, rfl, ?_, ?_⟩
  · exact vectorDone_setCore (u := s) (fun _ => rfl) rfl (by rw [hc]; rfl) (by rw [hc]; rfl)
  · rw [State.core_setCore, hc]
    exact bit_putBit_false _ _
  · rw [State.core_setCore, hc]
    exact tget_tput_same _ _ _ _

/-- Reading and clearing the sticky flags of a stream takes its anchor's flags away. -/
theorem vredFlags_done (hr : (s.core n).run ≠ .halted) (hs : Settled s) {qd : BitVec 2} {ds : BitVec 4} {float : Bool}
    (hv : (s.core n).v = [⟨id, .red qd ds 5 float, g⟩]) :
    Completes (.vectorOpComplete n) s (fun t => VectorDone s n t ∧ t.store = s.store
      ∧ (t.core n).getQ qd.toNat = (dFlags (tget 0 (s.core n).d ds.toNat)).setWidth 64 ∧ dFlags (tget 0 (t.core n).d ds.toNat) = 0) := by
  obtain ⟨d, hd⟩ : ∃ d, d = tget 0 (s.core n).d ds.toNat := ⟨_, rfl⟩
  obtain ⟨c, hc⟩ : ∃ c : Core, c = { ((s.core n).setQ qd.toNat ((dFlags d).setWidth 64)).setD ds.toNat (dSet d 82 77 0) with
    qPend := putBit (s.core n).qPend qd.toNat false } := ⟨_, rfl⟩
  obtain ⟨sb, hsb⟩ := releaseV_anchor (c := c) (o := ⟨id, .red qd ds 5 float, g⟩) (by rw [hc]; exact congrArg List.tail hv) rfl
  have hred : finishRed s n qd ds 5 float = s.setCore n c := by
    unfold finishRed
    simp only [if_true, State.modCore, ← hd, ← hc]
  have hcomplete : completeV s n = s.setCore n (releaseV c ⟨id, .red qd ds 5 float, g⟩) := by
    unfold completeV
    simp only [hv, hred, State.modCore, State.core_setCore, State.setCore_setCore]
  rw [hsb] at hcomplete
  rw [← hd]
  refine ⟨_, vector_leaves hr hs hcomplete, ?_, rfl, ?_, ?_⟩
  · exact vectorDone_setCore (u := s) (fun _ => rfl) rfl (by rw [hc]; rfl) (by rw [hc]; rfl)
  · rw [State.core_setCore, hc]
    exact tget_tput_same _ _ _ _
  · rw [State.core_setCore]
    have hanchor : tget 0 c.d ds.toNat = dSet d 82 77 0 := by
      rw [hc]
      exact tget_tput_same _ _ _ _
    exact (congrArg dFlags ((tget_tput_same _ _ _ _).trans (by rw [hanchor]))).trans (dFlags_cleared d)

/-! ### Streams (R306, R307) -/

/-- What the bath of format `f` writes from group `g` on, and the conditions that it notes. -/
def streamed (s : State) (n : Nat) (f : FmtV) (g : Nat) (tile : Option (Nat → Nat × Nat)) : Memory × Conds :=
  bathElems tile (kldWord (s.core n) n f) (bathOf (s.core n) n f) (tget 0 (s.core n).d f.dd.toNat) ((vSources f).map (fun d => tget 0 (s.core n).d d))
    (dCount (tget 0 (s.core n).d f.dd.toNat) - 64 * g) (64 * g) s.mem 0

theorem runStream_eq (hs : Settled s) (o : VOp) (f : FmtV) (tile : Option (Nat → Nat × Nat)) :
    runStream s n o f tile = (s.setMem (streamed s n f o.group tile).1).setCore n
      ((s.core n).setD f.dd.toNat (addFlags (tget 0 (s.core n).d f.dd.toNat) (streamed s n f o.group tile).2)) := by
  unfold runStream streamTo
  simp only [noteStreams_whole hs.flips]
  rfl

/-- A stream completes: memory has its elements, and its anchor the conditions that it noted. -/
theorem stream_done (hr : (s.core n).run ≠ .halted) (hs : Settled s) {o : VOp} {f : FmtV} (x : Memory × Conds) {c : Core}
    (ho : vAnchor o.kind = some f.dd.toNat) (hsame : c.s = (s.core n).s ∧ c.pc = (s.core n).pc) (hv : c.v.tail = [])
    (hd : tget 0 c.d f.dd.toNat = addFlags (tget 0 (s.core n).d f.dd.toNat) x.2)
    (hcomplete : completeV s n = (s.setMem x.1).setCore n (releaseV c o)) :
    Completes (.vectorOpComplete n) s (fun t => VectorDone s n t ∧ t.store.mem = x.1 ∧ (t.core n).tokens = c.tokens
      ∧ tget 0 (t.core n).d f.dd.toNat = dSet (addFlags (tget 0 (s.core n).d f.dd.toNat) x.2) 84 83 0) := by
  obtain ⟨sb, hsb⟩ := releaseV_anchor hv ho
  have hfound : (s.setMem x.1).store.found = [] := hs.found
  have hexec : exec (.vectorOpComplete n) s = .next ((s.setMem x.1).setCore n (releaseV c o)) := by
    rw [vector_completes hr, hcomplete, settleReads_none ((s.setMem x.1).setCore n _) hfound]
  rw [hsb] at hexec
  refine ⟨_, hexec, ?_, rfl, ?_, ?_⟩
  · exact vectorDone_setCore (u := s.setMem x.1) (fun _ => rfl) rfl hsame.1 hsame.2
  · rw [State.core_setCore]
  · rw [State.core_setCore]
    exact (tget_tput_same _ _ _ _).trans (by rw [hd])

theorem bath_done (hr : (s.core n).run ≠ .halted) (hs : Settled s) {f : FmtV} (hv : (s.core n).v = [⟨id, .bath f, g⟩]) :
    Completes (.vectorOpComplete n) s (fun t => VectorDone s n t ∧ t.store.mem = (streamed s n f g none).1
      ∧ tget 0 (t.core n).d f.dd.toNat = dSet (addFlags (tget 0 (s.core n).d f.dd.toNat) (streamed s n f g none).2) 84 83 0) := by
  obtain ⟨x, hx⟩ : ∃ x, x = streamed s n f g none := ⟨_, rfl⟩
  obtain ⟨c, hc⟩ : ∃ c : Core, c = (s.core n).setD f.dd.toNat (addFlags (tget 0 (s.core n).d f.dd.toNat) x.2) := ⟨_, rfl⟩
  have hcomplete : completeV s n = (s.setMem x.1).setCore n (releaseV c ⟨id, .bath f, g⟩) := by
    unfold completeV
    simp only [hv, runStream_eq hs, ← hx, ← hc, State.modCore, State.core_setCore, State.setCore_setCore]
  obtain ⟨t, ht, hdone, hmem, -, hflags⟩ := stream_done hr hs x (f := f) rfl (by rw [hc]; exact ⟨rfl, rfl⟩)
    (by rw [hc]; exact congrArg List.tail hv) (by rw [hc]; exact tget_tput_same _ _ _ _) hcomplete
  rw [← hx]
  exact ⟨t, ht, hdone, hmem, hflags⟩

theorem pop_done (hr : (s.core n).run ≠ .halted) (hs : Settled s) {f : FmtV} {k : BitVec 2} {pair : Bool} {seq : Byte}
    (hv : (s.core n).v = [⟨id, .pop f k pair seq, g⟩]) :
    Completes (.vectorOpComplete n) s (fun t => VectorDone s n t ∧ t.store.mem = (streamed s n f g (some (tileSource (s.core n) k pair))).1
      ∧ (t.core n).tokens = dropToken k seq (s.core n).tokens
      ∧ tget 0 (t.core n).d f.dd.toNat
        = dSet (addFlags (tget 0 (s.core n).d f.dd.toNat) (streamed s n f g (some (tileSource (s.core n) k pair))).2) 84 83 0) := by
  obtain ⟨x, hx⟩ : ∃ x, x = streamed s n f g (some (tileSource (s.core n) k pair)) := ⟨_, rfl⟩
  obtain ⟨c, hc⟩ : ∃ c : Core, c = { (s.core n).setD f.dd.toNat (addFlags (tget 0 (s.core n).d f.dd.toNat) x.2) with
    tokens := dropToken k seq (s.core n).tokens } := ⟨_, rfl⟩
  have hcomplete : completeV s n = (s.setMem x.1).setCore n (releaseV c ⟨id, .pop f k pair seq, g⟩) := by
    unfold completeV
    simp only [hv, runStream_eq hs, ← hx, State.modCore, State.core_setCore, State.setCore_setCore, hc]
    rfl
  obtain ⟨t, ht, hdone, hmem, htok, hflags⟩ := stream_done hr hs x (f := f) rfl (by rw [hc]; exact ⟨rfl, rfl⟩)
    (by rw [hc]; exact congrArg List.tail hv) (by rw [hc]; exact tget_tput_same _ _ _ _) hcomplete
  rw [← hx]
  exact ⟨t, ht, hdone, hmem, htok.trans (by rw [hc]), hflags⟩

end

end Sys2Proof.Machine
end

section
/-! PROOFS. Resumption, arrivals and ends at a core (R197 to R209, R237, R243, R276, R299), and the statement of the core events. -/

namespace Sys2Proof.Machine

section
variable {s : State} {n : Fin 64} {b l : Nat} {i : Image}

/-- The core issues alone: its basin is a cluster basin. -/
structure IssuesAlone (s : State) (n b : Nat) : Prop where
  basin : basinOf s n = some b
  cluster : (s.basin b).lattice = false

theorem IssuesAlone.group (h : IssuesAlone s n b) : issueGroup s n = [(n : Nat)] := by
  unfold issueGroup
  rw [h.basin]
  simp [h.cluster]

/-! ### A held split goes on (R208) -/

theorem splitResume_noImage {h : HeldBundle} (hm : mayIssue s n = true) (ha : IssuesAlone s n b) (hh : (s.core n).held = some h)
    (hi : storeImage s n = none) : Completes (.bundleSplitResume n) s (Faulted s n fcNoImage) := by
  refine ⟨_, ?_, faulted_of_bundle (u := s) rfl rfl _⟩
  change execBundleSplitResume n s = _
  unfold execBundleSplitResume
  simp only [hh, hm, if_true, hi, ha.group]

theorem splitResume_goesOn {h : HeldBundle} (hm : mayIssue s n = true) (ha : IssuesAlone s n b) (hh : (s.core n).held = some h)
    (hi : storeImage s n = some i) :
    exec (.bundleSplitResume n) s = .next (issueParts s n [(n : Nat)] (s.core n).pc (decodeBundle h.raw) h.issued) := by
  change execBundleSplitResume n s = _
  unfold execBundleSplitResume
  simp only [hh, hm, if_true, hi, ha.group]

theorem splitResume_nothing (hh : (s.core n).held = none) : exec (.bundleSplitResume n) s = .next s := by
  change execBundleSplitResume n s = _
  unfold execBundleSplitResume
  simp only [hh]

/-! ### A line arrives (R209, R212) -/

theorem line_arrives (hl : (s.core n).miss.orElse (fun _ => (s.core n).fetching.head?) = some l) (hb : badLine s n l = false) :
    exec (.ifetchMissFill n true) s = .next (s.setCore n { s.core n with
      miss := if (s.core n).miss = some l then none else (s.core n).miss
      fetching := (s.core n).fetching.filter (· != l)
      ibuf := (l :: (s.core n).ibuf.filter (· != l)).take 168 }) := by
  change execIfetchMissFill n true s = _
  unfold execIfetchMissFill
  simp only [hl, hb, Bool.not_false, Bool.and_self, if_true]
  rfl

theorem line_faults (hl : (s.core n).miss.orElse (fun _ => (s.core n).fetching.head?) = some l) (ha : IssuesAlone s n b) :
    Completes (.ifetchMissFill n false) s (Faulted s n fcStoreParity) := by
  refine ⟨_, ?_, faulted_of_bundle (s := s) (u := { s with die := { s.die with
    badLines := (clusterOf n, (basinOf s n).getD 0, l) :: s.die.badLines } }.modCore n (fun c => { c with fetching := [] })) rfl rfl _⟩
  change execIfetchMissFill n false s = _
  unfold execIfetchMissFill
  simp only [hl, Bool.false_and, Bool.false_eq_true, if_false, ha.group]

/-! ### Entries, staging and strips (R205, R237, R243) -/

theorem entry_retires {e : Nat} {x : SbEntry} (hx : (s.core n).sb[e]? = some x) (hd : x.use = .done) :
    exec (.scoreboardRetire n e) s = .next (s.setCore n { s.core n with sb := (s.core n).sb.eraseIdx e }) := by
  change execScoreboardRetire n e s = _
  unfold execScoreboardRetire
  simp only [hx, hd, if_true]
  rfl

theorem entry_stays {e : Nat} {x : SbEntry} (hx : (s.core n).sb[e]? = some x) (hd : x.use ≠ .done) :
    exec (.scoreboardRetire n e) s = .next s := by
  change execScoreboardRetire n e s = _
  unfold execScoreboardRetire
  simp only [hx, if_neg hd]

/-- The staging set of a bundle in step with its core: the panels that its matrix row reads. -/
theorem stageBundle_fills (hs : Settled s) {pc : BitVec 14} {raw : BitVec 384} (hh : (s.core n).held = none) (hstaged : (s.core n).staged = [])
    (hsome : stagesOf s n n pc raw (s.core n).capture (s.core n).capture ≠ []) :
    stageBundle s n [(n : Nat)] pc raw = s.setCore n { s.core n with staged := [⟨pc, BitVec.ofNat 48 (slotBits raw slotM),
      some ((stagesOf s n n pc raw (s.core n).capture (s.core n).capture).map (fun x => s.mem.read x.1 x.2))⟩] } := by
  obtain ⟨x, hx⟩ : ∃ x, x = stagesOf s n n pc raw (s.core n).capture (s.core n).capture := ⟨_, rfl⟩
  have hcap : capturedOf s n = (s.core n).capture := by
    unfold capturedOf
    rw [hh]
  rw [← hx] at hsome ⊢
  have hempty : x.isEmpty = false := by simpa using hsome
  unfold stageBundle
  simp only [List.foldl_cons, List.foldl_nil, hcap, ← hx, hempty, hstaged, List.length_nil, List.any_nil, Bool.false_eq_true, false_or,
    noteCores_whole hs.flips]
  rw [if_neg (by simp)]
  unfold State.modCore
  simp only [hstaged, List.nil_append]

theorem staging_completes (ha : IssuesAlone s n b) (hrun : (s.core n).run = .running) (hi : storeImage s n = some i) (hh : (s.core n).held = none)
    (hstaged : (s.core n).staged = [])
    (hsome : stagesOf s n n (s.core n).pc (i.bundle (s.core n).pc.toNat) (s.core n).capture (s.core n).capture ≠ [])
    (hfree : stagingConflict s n [(n : Nat)] (s.core n).pc (decodeSlot (i.bundle (s.core n).pc.toNat) slotM)
      ((decodeBundle (i.bundle (s.core n).pc.toNat)).filter (fun j => decide (j.slot < slotM))) = false) (hs : Settled s) :
    exec (.stripStagingComplete n) s = .next (s.setCore n { s.core n with staged := [⟨(s.core n).pc,
      BitVec.ofNat 48 (slotBits (i.bundle (s.core n).pc.toNat) slotM),
      some ((stagesOf s n n (s.core n).pc (i.bundle (s.core n).pc.toNat) (s.core n).capture (s.core n).capture).map
        (fun x => s.mem.read x.1 x.2))⟩] }) := by
  obtain ⟨raw, hraw⟩ : ∃ raw, raw = i.bundle (s.core n).pc.toNat := ⟨_, rfl⟩
  rw [← hraw] at hsome hfree ⊢
  have hstage := stageBundle_fills hs hh hstaged hsome
  refine Eq.trans ?_ (congrArg Host.Outcome.next ((congrArg settleReads hstage).trans (settleReads_none (s.setCore n _) hs.found)))
  obtain ⟨x, hx⟩ : ∃ x, x = stagesOf s n n (s.core n).pc raw (s.core n).capture (s.core n).capture := ⟨_, rfl⟩
  have hcap : capturedOf s n = (s.core n).capture := by
    unfold capturedOf
    rw [hh]
  have hempty : x.isEmpty = false := by simpa [hx] using hsome
  have hbit : ∀ k, bit 0 k = false := fun k => by simp [bit]
  change execStripStagingComplete n s = _
  unfold execStripStagingComplete
  simp only [hrun, hi, hh, ha.group, ← hraw, hcap, ← hx, hempty, hstaged, hbit, List.any_nil, Bool.not_false, Bool.or_true, Bool.and_true,
    if_true, hfree, Bool.false_eq_true, if_false, bne_self_eq_false]

/-- The strip that writes one tile ends: the tile holds its result, an integer one. -/
theorem strip_ends (ha : IssuesAlone s n b) {tl : BitVec 2} {out : Tile} (hs : (s.core n).strip = some ⟨[(tl.toNat, out)], true, false⟩) :
    Completes (.stripEnd n) s (fun t => t.store = s.store ∧ (t.core n).strip = none ∧ (t.core n).tile tl.toNat = out
      ∧ bit (t.core n).tileInt.toNat tl.toNat = true ∧ bit (t.core n).tilePair.toNat tl.toNat = false
      ∧ ∀ m, m ≠ tl.toNat → (t.core n).tile m = (s.core n).tile m) := by
  obtain ⟨d, hd⟩ : ∃ d : Core, d = { (s.core n).setTile tl.toNat out with
    tileInt := putBit (s.core n).tileInt tl.toNat true
    tilePair := putBit (s.core n).tilePair tl.toNat false
    strip := none } := ⟨_, rfl⟩
  have hend : endStrip (s.core n) = d := by
    unfold endStrip
    simp only [hs, List.foldl_cons, List.foldl_nil, Bool.false_and, hd]
  have hexec : exec (.stripEnd n) s = .next (s.setCore n d) := by
    change execStripEnd n s = _
    unfold execStripEnd
    rw [ha.group, List.foldl_cons, List.foldl_nil, State.modCore, hend]
  refine ⟨_, hexec, rfl, ?_, ?_, ?_, ?_, fun m hm => ?_⟩
  · rw [State.core_setCore, hd]
  · rw [State.core_setCore, hd]
    exact tget_tput_same _ _ _ _
  · rw [State.core_setCore, hd]
    exact bit_putBit_true _ _ tl.isLt
  · rw [State.core_setCore, hd]
    exact bit_putBit_false _ _
  · rw [State.core_setCore, hd]
    exact tget_tput_ne _ _ hm _

/-! ### A gate result reaches its register (R406) -/

section
variable {tag : W32} {o : GateOp}

theorem gateResult_waits (ho : (s.core n).gops.find? (fun q => q.tag == tag) = some o) {e : W64} (he : o.due = some e)
    (hlate : s.time.count.toNat < e.toNat) : exec (.gateResultWrite n tag) s = .next (s.setCore n (s.core n)) := by
  have hall : o.due.all (fun e => decide (e.toNat ≤ s.time.count.toNat)) = false := by
    rw [he, Option.all_some, decide_eq_false (Nat.not_le.mpr hlate)]
  change execGateResultWrite n tag s = _
  unfold execGateResultWrite State.modCore
  simp only [ho, hall, Bool.false_eq_true, if_false]

theorem gateResult_written (ho : (s.core n).gops.find? (fun q => q.tag == tag) = some o)
    (hdue : ∀ e, o.due = some e → e.toNat ≤ s.time.count.toNat) {word : W64} (hw : o.result = some word) :
    exec (.gateResultWrite n tag) s = .next (s.setCore n { (s.core n).setS o.sd.toNat word with
      gops := (s.core n).gops.filter (fun q => q.tag != tag)
      held := (s.core n).held.map (fun h => { h with snap := h.snap.resolve o.sd.toNat word }) }) := by
  have hall : o.due.all (fun e => decide (e.toNat ≤ s.time.count.toNat)) = true := by
    cases h : o.due with
    | none => rfl
    | some e => rw [Option.all_some, decide_eq_true (hdue e h)]
  have hgops : ((s.core n).setS o.sd.toNat word).gops = (s.core n).gops := by
    unfold Core.setS
    split <;> rfl
  change execGateResultWrite n tag s = _
  unfold execGateResultWrite State.modCore
  simp only [ho, hall, if_true, hw, hgops]

theorem gateResult_missing (ho : (s.core n).gops.find? (fun q => q.tag == tag) = some o) (hw : o.result = none) :
    exec (.gateResultWrite n tag) s = .next (s.setCore n (s.core n)) := by
  change execGateResultWrite n tag s = _
  unfold execGateResultWrite State.modCore
  simp only [ho, hw, ite_self]

end

/-! ### The operand caches are filled again (R299) -/

theorem cache_refilled (hf : (s.core n).refill = true) (hs : Settled s) (full : Core) (hfull : full = { s.core n with
      refill := false
      cache := (s.core n).csrc.foldl (fun t x => tput t x.1 (s.mem.read x.2.toNat 4096)) (s.core n).cache }) :
    exec (.operandCacheRefilled n) s = .next (s.setCore n (if (s.core n).run = .running then resumeV full else full)) := by
  have hnotes : ∀ l : List (Nat × W32), l.foldl (fun t e => t.noteCore n e.2.toNat 4096) s = s := by
    intro l
    induction l with
    | nil => rfl
    | cons e l ih => rw [List.foldl_cons, noteCore_whole hs.flips, ih]
  change execOperandCacheRefilled n s = _
  unfold execOperandCacheRefilled State.modCore
  simp only [hf, if_true, hnotes, ← hfull]
  rw [settleReads_none (s.setCore n _) hs.found]

theorem cache_full (hf : (s.core n).refill = false) : exec (.operandCacheRefilled n) s = .next s := by
  change execOperandCacheRefilled n s = _
  unfold execOperandCacheRefilled
  simp only [hf, Bool.false_eq_true, if_false]

end

/-- Settles O56: each event by its own lemma; memory that holds no error leaves nothing to act on (log 9). -/
theorem coreEventsEndWhatIsInFlight : Obligations.CoreEventsEndWhatIsInFlight := by
  unfold Obligations.CoreEventsEndWhatIsInFlight
  intro n b l e id g i h tag o word tl a rg f qd ds kind float s
  dsimp only
  refine ⟨?_, ?_, ?_, ?_, ?_, ?_, ?_, ?_, ?_, ?_, ?_, ?_, ?_, ?_, ?_, ?_, ?_, ?_, ?_, ?_, ?_, ?_, ?_, ?_, ?_, ?_, ?_, ?_⟩
  · exact fun hr hi => hr.noImage hi
  · exact fun ⟨hr, hi⟩ hout => hr.outside hi hout
  · exact fun ⟨hr, hi⟩ hin hb => hr.misses hi hin hb
  · exact fun ⟨⟨hr, hi⟩, hin, hb⟩ hh => hr.badHeader ⟨hi, hin, hb⟩ hh
  · exact fun ⟨⟨hr, hi⟩, hin, hb⟩ hh hs => hr.bundleIssues ⟨hi, hin, hb⟩ hh hs
  · exact fun ⟨⟨hr, hi⟩, hin, hb⟩ hh hs hv => hr.emptyBundle ⟨hi, hin, hb⟩ hh hs hv
  · exact fun hm ⟨hb, hl⟩ hh hi => splitResume_noImage hm ⟨hb, hl⟩ hh hi
  · exact fun hm ⟨hb, hl⟩ hh hi => splitResume_goesOn hm ⟨hb, hl⟩ hh hi
  · exact splitResume_nothing
  · exact line_arrives
  · exact fun hline ⟨hb, hl⟩ => line_faults hline ⟨hb, hl⟩
  · exact fun x hx hd => entry_retires hx hd
  · exact fun x hx hd => entry_stays hx hd
  · exact fun ⟨hb, hl⟩ hrun hi hh hstaged hsome hfree ⟨hfl, hfo⟩ =>
      staging_completes ⟨hb, hl⟩ hrun hi hh hstaged hsome hfree ⟨hfl, hfo⟩
  · exact fun ⟨hb, hl⟩ out hs => strip_ends ⟨hb, hl⟩ hs
  · exact fun ⟨hr, hfl, hfo⟩ hv => vector_idle hr ⟨hfl, hfo⟩ hv
  · exact fun ⟨hr, hfl, hfo⟩ hv => vclear_done hr ⟨hfl, hfo⟩ hv
  · exact fun ⟨hr, hfl, hfo⟩ hv => vload_done hr ⟨hfl, hfo⟩ hv
  · exact fun ⟨hr, hfl, hfo⟩ hv => vfill_done hr ⟨hfl, hfo⟩ hv
  · exact fun ⟨hr, hfl, hfo⟩ hv hk => vred_done hr ⟨hfl, hfo⟩ hv hk
  · exact fun ⟨hr, hfl, hfo⟩ hv => vredFlags_done hr ⟨hfl, hfo⟩ hv
  · exact fun ⟨hr, hfl, hfo⟩ hv => bath_done hr ⟨hfl, hfo⟩ hv
  · exact fun ⟨hr, hfl, hfo⟩ t pair seq hv => pop_done hr ⟨hfl, hfo⟩ hv
  · exact fun ho _ he hlate => gateResult_waits ho he hlate
  · exact fun ho hdue hw => gateResult_written ho hdue hw
  · exact gateResult_missing
  · exact fun hf ⟨hfl, hfo⟩ => cache_refilled hf ⟨hfl, hfo⟩ _ rfl
  · exact cache_full

end Sys2Proof.Machine
end

section
/-! PROOFS. Gate operations from other chiplets, their probes, answers and limits (R446 to R463). -/

namespace Sys2Proof.Machine

/-! ### An operation from another chiplet reaches its gate (R448, R451, R453) -/

/-- From `s` to `t` only gate `g` has become `k` among the gates; memory and cores stay. -/
structure GateOnly (s t : State) (g : Nat) (k : Gate) : Prop where
  gate : t.gate g = k
  others : ∀ i, i ≠ g → t.gate i = s.gate i
  store : t.store = s.store
  cores : t.die.cores = s.die.cores

/-- A requester of another chiplet marks the step of the gate's basin, and nothing else. -/
structure Touched (s u : State) : Prop where
  rest : u = { s with die := u.die }
  cores : u.die.cores = s.die.cores

theorem touchGate_touched (s : State) (g : Nat) (who : Option Nat) : Touched s (touchGate s g who) := by
  unfold touchGate
  split
  · split
    · exact ⟨rfl, rfl⟩
    · exact ⟨rfl, rfl⟩
  · exact ⟨rfl, rfl⟩

namespace Touched

variable {s u : State} (h : Touched s u)
include h

theorem gateUnit : u.gateUnit = s.gateUnit := by rw [h.rest]
theorem store : u.store = s.store := by rw [h.rest]
theorem fabric : u.fabric = s.fabric := by rw [h.rest]
theorem sent : u.sent = s.sent := by rw [h.rest]
theorem time : u.time = s.time := by rw [h.rest]
theorem gate (g : Nat) : u.gate g = s.gate g := congrArg (fun v : GateUnit => tget ({} : Gate) v.gates g) h.gateUnit
theorem fa : u.fa = s.fa := congrArg Fabric.fa h.fabric

theorem gateOnly {t v : State} {g : Nat} {k : Gate} (hset : GateSet u v g k) (hsend : Sending v t) : GateOnly s t g k where
  gate := by
    rw [State.gate, hsend.gateUnit]
    exact hset.gate
  others := fun i hi => by
    rw [State.gate, hsend.gateUnit]
    exact (hset.others i hi).trans (h.gate i)
  store := by rw [hsend.store, hset.rest, h.store]
  cores := by rw [hsend.die, hset.rest, h.cores]

/-- What the chiplet reaches and the name it sends under are those of its fabric. -/
theorem sends {t v : State} {p : Packet} {g : Nat} {k : Gate} (hset : GateSet u v g k) (hsend : Sends v t p) : Sends s t p := by
  obtain ⟨l, hl⟩ := hsend
  exact ⟨l, by rw [hl, hset.rest, h.sent]⟩

end Touched

section
variable {s : State} {src tenant life : W16} {op gate core : Byte} {sv word : W64} {session tag : W32} {h : Holder}

/-- The waiter that a gate operation of another chiplet makes. -/
def remoteWaiter (src tenant : W16) (op : Byte) (sv : W64) (core : Byte) (life : W16) (session tag : W32) : Waiter :=
  { fa := src, core := core, life := life, session := session, tag := tag, op := op, sv := sv, tenant := tenant }

/-- An operation whose requester the gate serves takes effect on the touched state. -/
theorem gateOperate_served {g : Nat} {n : Nat} {w : Waiter} (h : gateServes s g none tenant = true) :
    gateOperate s g n w none tenant = gateEffect (touchGate s g none) g n w := if_pos h

theorem gateOperate_unserved {g : Nat} {n : Nat} {w : Waiter} (h : ¬gateServes s g none tenant = true) :
    gateOperate s g n w none tenant = (s, some unreachableWord) := if_neg h

/-- An operation with a result at once sends it back. -/
theorem remoteOperate_answered {u : State} (hop : op ≠ 0x06 ∨ ¬gateServes s (gate.toNat % 128) none tenant = true)
    (h : gateOperate s (gate.toNat % 128) op.toNat (remoteWaiter src tenant op sv core life session tag) none tenant = (u, some word)) :
    exec (.remoteGateOperation src tenant op gate sv core life session tag) s = .next (sendResult u src tenant tag word) := by
  change Host.Outcome.next (remoteOperate src tenant op gate sv core life session tag s) = _
  have harrives : (op == 0x06 && (s.gate (gate.toNat % 128)).kind == .barrier && gateServes s (gate.toNat % 128) none tenant) = false := by
    rcases hop with hop | hop
    · rw [show (op == 0x06) = false from beq_false_of_ne hop]
      rfl
    · simp [hop]
  unfold remoteOperate
  rw [remoteWaiter] at h
  dsimp only
  rw [h, harrives]
  simp

/-- An operation that waits keeps its record, while the pool has one. -/
theorem remoteOperate_waits {u : State} (hroom : remoteWaiters s < remotePool)
    (h : gateOperate s (gate.toNat % 128) op.toNat (remoteWaiter src tenant op sv core life session tag) none tenant = (u, none)) :
    exec (.remoteGateOperation src tenant op gate sv core life session tag) s = .next u := by
  change Host.Outcome.next (remoteOperate src tenant op gate sv core life session tag s) = _
  unfold remoteOperate
  rw [remoteWaiter] at h
  dsimp only
  rw [h, if_neg (fun hfull => absurd hfull.1 (Nat.not_le.mpr hroom))]

theorem remoteOperate_full {u : State} (hfull : remotePool ≤ remoteWaiters s)
    (h : gateOperate s (gate.toNat % 128) op.toNat (remoteWaiter src tenant op sv core life session tag) none tenant = (u, none)) :
    exec (.remoteGateOperation src tenant op gate sv core life session tag) s
      = .next (control s src 0x45 (leBytes 4 tag.toNat ++ [gate])) := by
  change Host.Outcome.next (remoteOperate src tenant op gate sv core life session tag s) = _
  unfold remoteOperate
  rw [remoteWaiter] at h
  dsimp only
  rw [h, if_pos ⟨hfull, Or.inl rfl⟩]

theorem sendResult_sending (u : State) (dst x : W16) (t : W32) (v : W64) : Sending u (sendResult u dst x t v) := Sending.send _ _

theorem sends_sendResult {u : State} {dst x : W16} {t : W32} {v : W64} (h : Reaches u dst) :
    Sends u (sendResult u dst x t v) (packet u dst x 4 (leBytes 4 t.toNat ++ leBytes 8 v.toNat)) :=
  sends_send (p := packet u dst x 4 (leBytes 4 t.toNat ++ leBytes 8 v.toNat)) h

/-- Reach and name are those of the fabric, which a gate does not touch. -/
theorem reaches_congr {u v : State} {fa : W16} (h : v.fabric = u.fabric) : Reaches v fa ↔ Reaches u fa := by
  have hfa : v.fa = u.fa := congrArg Fabric.fa h
  have hdest : v.destEntry fa = u.destEntry fa := by rw [State.destEntry, State.destEntry, h]
  rw [Reaches, Reaches, reachable, reachable, hfa, hdest]

theorem packet_congr {u v : State} (h : v.fabric = u.fabric) (dst x : W16) (y : Byte) (c : List Byte) : packet v dst x y c = packet u dst x y c := by
  have hfa : v.fa = u.fa := congrArg Fabric.fa h
  rw [packet, packet, hfa]

/-- What `remoteGateOperation` answers after its effect on the touched state. -/
theorem result_sent {u v : State} {g : Nat} {k : Gate} {x : W64} (hu : Touched s u) (hset : GateSet u v g k) :
    GateOnly s (sendResult v src tenant tag x) g k ∧ (Reaches s src → Sends s (sendResult v src tenant tag x)
      (packet s src tenant 4 (leBytes 4 tag.toNat ++ leBytes 8 x.toNat))) := by
  have hfab : v.fabric = s.fabric := by rw [hset.rest, hu.fabric]
  refine ⟨hu.gateOnly hset (sendResult_sending _ _ _ _ _), fun hr => hu.sends hset ?_⟩
  rw [← packet_congr hfab]
  exact sends_sendResult ((reaches_congr hfab).mpr hr)

theorem remote_added (hs : gateServes s (gate.toNat % 128) none tenant = true) (hk : (s.gate (gate.toNat % 128)).kind = .counter)
    (hw : (s.gate (gate.toNat % 128)).waiters = []) :
    Completes (.remoteGateOperation src tenant 0x00 gate sv core life session tag) s (fun t =>
      GateOnly s t (gate.toNat % 128) { s.gate (gate.toNat % 128) with
        value := BitVec.ofNat 64 (((s.gate (gate.toNat % 128)).value.toNat + sv.toNat) % 2 ^ 63) }
      ∧ (Reaches s src → Sends s t (packet s src tenant 4 (leBytes 4 tag.toNat ++ leBytes 8 (s.gate (gate.toNat % 128)).value.toNat)))) := by
  generalize hg : gate.toNat % 128 = g at *
  obtain ⟨u, hu⟩ : ∃ u, u = touchGate s g none := ⟨_, rfl⟩
  have htouch : Touched s u := hu ▸ touchGate_touched s g none
  have hop := gateOperate_served (n := 0) (w := remoteWaiter src tenant 0x00 sv core life session tag) hs
  rw [← hu, gateEffect_add (htouch.gate g) hk] at hop
  rw [← hg] at hop
  refine ⟨_, remoteOperate_answered (Or.inl (by decide)) hop, ?_⟩
  rw [hg]
  exact result_sent htouch (.counted u hw)

theorem remote_unserved (hs : ¬gateServes s (gate.toNat % 128) none tenant = true) :
    Completes (.remoteGateOperation src tenant op gate sv core life session tag) s (fun t =>
      (t.gateUnit = s.gateUnit ∧ t.store = s.store ∧ t.die = s.die)
      ∧ (Reaches s src → Sends s t (packet s src tenant 4 (leBytes 4 tag.toNat ++ leBytes 8 unreachableWord.toNat)))) := by
  have hsend := sendResult_sending s src tenant tag unreachableWord
  exact ⟨_, remoteOperate_answered (Or.inr hs) (gateOperate_unserved hs), ⟨hsend.gateUnit, hsend.store, hsend.die⟩, sends_sendResult⟩

/-- A glock of a lock that is held waits. -/
theorem lock_waits {g : Nat} {w : Waiter} (hs : gateServes s g none tenant = true) (hk : (s.gate g).kind = .lock)
    (hh : (s.gate g).holder = some h) : gateOperate s g 2 w none tenant
      = ((touchGate s g none).setGate g { s.gate g with waiters := (s.gate g).waiters ++ [w] }, none) := by
  have htouch := touchGate_touched s g none
  rw [gateOperate_served hs, gateEffect_lock (htouch.gate g) hk, if_pos (by rw [hh]; rfl)]

theorem remote_registered (hs : gateServes s (gate.toNat % 128) none tenant = true) (hk : (s.gate (gate.toNat % 128)).kind = .lock)
    (hh : (s.gate (gate.toNat % 128)).holder = some h) (hroom : remoteWaiters s < remotePool) :
    Completes (.remoteGateOperation src tenant 0x02 gate sv core life session tag) s (fun t =>
      GateOnly s t (gate.toNat % 128) { s.gate (gate.toNat % 128) with
        waiters := (s.gate (gate.toNat % 128)).waiters ++ [remoteWaiter src tenant 0x02 sv core life session tag] } ∧ t.sent = s.sent) := by
  have htouch := touchGate_touched s (gate.toNat % 128) none
  exact ⟨_, remoteOperate_waits hroom (lock_waits hs hk hh), htouch.gateOnly (.setGate _ _ _) (Sending.refl _), htouch.sent⟩

theorem remote_poolFull (hs : gateServes s (gate.toNat % 128) none tenant = true) (hk : (s.gate (gate.toNat % 128)).kind = .lock)
    (hh : (s.gate (gate.toNat % 128)).holder = some h) (hfull : remotePool ≤ remoteWaiters s) :
    Completes (.remoteGateOperation src tenant 0x02 gate sv core life session tag) s (fun t =>
      (t.gateUnit = s.gateUnit ∧ t.store = s.store ∧ t.die = s.die)
      ∧ (Reaches s src → Sends s t (packet s src 0 0 (0x45 :: (leBytes 4 tag.toNat ++ [gate]))))) := by
  have hsend := Sending.control s src 0x45 (leBytes 4 tag.toNat ++ [gate])
  exact ⟨_, remoteOperate_full hfull (lock_waits hs hk hh), ⟨hsend.gateUnit, hsend.store, hsend.die⟩, fun hr => sends_control hr _ _⟩

/-! ### The last arrival at a gang barrier (R420, R462, R463) -/

theorem barrierArrived_value (x y z : Nat) : barrierArrived (barrierValue x y z) = y % 2 ^ 24 := by
  simp only [barrierArrived, barrierValue, bits, BitVec.toNat_ofNat]
  omega

/-- The last party, from another chiplet, releases the barrier of a gang: its chiplet is told at once. -/
theorem arriveBarrier_gang {u : State} {g : Nat} {w : Waiter} {k : Gate} {y : Gang} (hk : u.gate g = k) (hw : k.waiters = [])
    (hg : barrierGang u g = some y) (hy : y.suspended = false) (hlast : barrierParties k.value = barrierArrived k.value + 1)
    (hfar : w.fa ≠ u.fa) : arriveBarrier u g w
      = ((u.setGate g { k with value := barrierValue (barrierParties k.value) 0 (barrierGen k.value + 1) }).emit
          (.gang w.fa y.master y.num (.release (byte g) (edgeIn20 u))), none) := by
  have hp := barrierParties_lt k.value
  have hn : barrierArrived k.value + 1 < 2 ^ 24 := hlast ▸ hp
  have hgen : barrierValue (barrierParties k.value) 0 (barrierGen k.value % 2 ^ 16 + 1) = barrierValue (barrierParties k.value) 0 (barrierGen k.value + 1) := by
    rw [Nat.mod_eq_of_lt (barrierGen_lt k.value)]
  obtain ⟨v, hv⟩ : ∃ v : Gate, v = { k with
    value := barrierValue (barrierParties k.value) (barrierArrived k.value + 1) (barrierGen k.value)
    waiters := k.waiters ++ [w] } := ⟨_, rfl⟩
  have hgang : barrierGang (u.setGate g v) g = some y := by
    rw [barrierGang_setGate (by rw [hv, hk]), hg]
  have harrive : arriveBarrier u g w = (dueBarrier (u.setGate g v) g, none) := by
    unfold arriveBarrier
    simp only [hk, hg, Option.isNone_some, Bool.false_eq_true, and_false, if_false, hv]
  have hreleased : releasedGate v = { k with value := barrierValue (barrierParties k.value) 0 (barrierGen k.value + 1) } := by
    rw [releasedGate, hv]
    simp only [barrierParties_value, barrierGen_value, Nat.mod_eq_of_lt hp, hgen]
    rw [← hw]
  have hdone : ¬barrierArrived v.value < barrierParties v.value := by
    rw [hv]
    simp only [barrierParties_value, barrierArrived_value, Nat.mod_eq_of_lt hp, Nat.mod_eq_of_lt hn]
    omega
  have hfas : v.waiters = [w] := by rw [hv, hw, List.nil_append]
  have hfa : (u.setGate g v).fa = u.fa := rfl
  have hhere : (w.fa == u.fa) = false := by simpa using hfar
  have haway : (w.fa != u.fa) = true := by simpa using hfar
  rw [harrive]
  unfold dueBarrier
  simp only [hgang, hy, State.gate_setGate, hdone, Bool.false_eq_true, decide_false, if_false, hfas, hfa, hreleased,
    List.filter_cons, hhere, haway, if_true, List.filter_nil, List.map_cons, List.map_nil, List.foldl_nil, State.setGate_setGate]
  rfl

theorem remote_releases {y : Gang} (hs : gateServes s (gate.toNat % 128) none tenant = true)
    (hk : (s.gate (gate.toNat % 128)).kind = .barrier) (hw : (s.gate (gate.toNat % 128)).waiters = [])
    (hg : barrierGang s (gate.toNat % 128) = some y) (hy : y.suspended = false)
    (hlast : barrierParties (s.gate (gate.toNat % 128)).value = barrierArrived (s.gate (gate.toNat % 128)).value + 1)
    (hroom : remoteWaiters s < remotePool) (hfar : src ≠ s.fa) :
    Completes (.remoteGateOperation src tenant 0x06 gate sv core life session tag) s (fun t =>
      GateOnly s t (gate.toNat % 128) { s.gate (gate.toNat % 128) with
        value := barrierValue (barrierParties (s.gate (gate.toNat % 128)).value) 0 (barrierGen (s.gate (gate.toNat % 128)).value + 1) }
      ∧ t.sent = s.sent ++ [.gang src y.master y.num (.release (byte (gate.toNat % 128)) (edgeIn20 s))]) := by
  generalize hgate : gate.toNat % 128 = g at *
  obtain ⟨u, hu⟩ : ∃ u, u = touchGate s g none := ⟨_, rfl⟩
  have htouch : Touched s u := hu ▸ touchGate_touched s g none
  have hgang : barrierGang u g = some y := by
    rw [← hg]
    simp only [barrierGang, htouch.gate, htouch.fabric, htouch.fa]
  have hedge : edgeIn20 u = edgeIn20 s := by rw [edgeIn20, htouch.time, edgeIn20]
  have hop := gateOperate_served (n := 6) (w := remoteWaiter src tenant 0x06 sv core life session tag) hs
  rw [← hu, gateEffect_barrier (htouch.gate g) hk, arriveBarrier_gang (htouch.gate g) hw hgang hy hlast (by rw [htouch.fa]; exact hfar),
    hedge] at hop
  rw [← hgate] at hop
  refine ⟨_, remoteOperate_waits hroom hop, ?_, ?_⟩
  · rw [hgate]
    exact htouch.gateOnly (.setGate _ _ _) (Sending.emit _ _)
  · rw [hgate, State.emit]
    exact congrArg (· ++ _) htouch.sent

end

end Sys2Proof.Machine
end

section
/-! PROOFS. What a chiplet asks and answers of gates, and what marks an outstanding operation (R451 to R460). -/

namespace Sys2Proof.Machine

section
variable {s : State} {src tenant life : W16} {op gate core : Byte} {sv word : W64} {session tag : W32} {g : Fin 128} {h : Holder} {o : GateOp}

/-- From `s` to `t` gates, memory, cores and basins stay. -/
def GatesQuiet (s t : State) : Prop := t.gateUnit = s.gateUnit ∧ t.store = s.store ∧ t.die = s.die

theorem control_quiet (s : State) (dst : W16) (c : Byte) (b : List Byte) : GatesQuiet s (control s dst c b) :=
  have hsend := Sending.control s dst c b
  ⟨hsend.gateUnit, hsend.store, hsend.die⟩

/-! ### Probes and their answers (R454, R460) -/

theorem holdProbeTimer_idle (hl : remoteHeld s = []) : exec .holdProbeTimer s = .next s := by
  change execHoldProbeTimer s = _
  rw [execHoldProbeTimer, hl]
  rfl

theorem holdProbeTimer_asks (hl : remoteHeld s = [(g : Nat)]) (hh : (s.gate g).holder = some h) : Completes .holdProbeTimer s (fun t =>
    GatesQuiet s t ∧ (Reaches s h.fa → Sends s t (packet s h.fa 0 0
      (0x40 :: ([byte g, h.core] ++ leBytes 2 h.life.toNat ++ leBytes 4 h.session.toNat))))) := by
  have hexec : exec .holdProbeTimer s
      = .next (control s h.fa 0x40 ([byte g, h.core] ++ leBytes 2 h.life.toNat ++ leBytes 4 h.session.toNat)) := by
    change execHoldProbeTimer s = _
    rw [execHoldProbeTimer, hl, List.foldl_cons, List.foldl_nil, hh]
  exact ⟨_, hexec, control_quiet _ _ _ _, fun hr => sends_control hr _ _⟩

theorem holdProbe_answered : Completes (.holdProbe src gate core life session) s (fun t => GatesQuiet s t
    ∧ (Reaches s src → Sends s t (packet s src 0 0
      [0x41, gate, if s.life core.toNat = life ∧ s.fabric.session = session then 1 else 0]))) := by
  have halive : (if alive s core life session then (1 : Byte) else 0) = if s.life core.toNat = life ∧ s.fabric.session = session then 1 else 0 := by
    simp [alive]
  refine ⟨_, rfl, control_quiet _ _ _ _, fun hr => ?_⟩
  rw [← halive]
  exact sends_control hr 0x41 _

theorem holdAnswer_alive : exec (.holdAnswer src gate true) s = .next s := rfl

/-- A lock without waiters that is orphaned keeps its dead owner's name. -/
theorem orphan_alone {i : Nat} (hh : (s.gate i).holder = some h) (hw : (s.gate i).waiters = []) :
    GateSet s (orphan s i) i { s.gate i with
      holder := none
      dead := some ⟨h.fa, h.core, h.epoch⟩ } := by
  have horphan : orphan s i = grantNext (s.setGate i { s.gate i with
      holder := none
      dead := some ⟨h.fa, h.core, h.epoch⟩ }) i := by
    unfold orphan
    dsimp only
    rw [hh]
  rw [horphan]
  exact .released s hw

theorem GateSet.gateOnly {u v : State} {i : Nat} {k : Gate} (hset : GateSet u v i k) : GateOnly u v i k :=
  ⟨hset.gate, hset.others, by rw [hset.rest], by rw [hset.rest]⟩

theorem holdAnswer_dead (hk : (s.gate (gate.toNat % 128)).kind = .lock) (hh : (s.gate (gate.toNat % 128)).holder = some h)
    (hw : (s.gate (gate.toNat % 128)).waiters = []) (hsrc : h.fa = src) : Completes (.holdAnswer src gate false) s (fun t =>
      GateOnly s t (gate.toNat % 128) { s.gate (gate.toNat % 128) with
        holder := none
        dead := some ⟨h.fa, h.core, h.epoch⟩ }) := by
  have hexec : exec (.holdAnswer src gate false) s = .next (orphan s (gate.toNat % 128)) := by
    change Host.Outcome.next (holdAnswerBy src gate false s) = _
    simp [holdAnswerBy, heldFrom, hk, hh, hsrc]
  exact ⟨_, hexec, (orphan_alone hh hw).gateOnly⟩

theorem holdAnswer_other (hh : (s.gate (gate.toNat % 128)).holder = some h) (hsrc : h.fa ≠ src) :
    exec (.holdAnswer src gate false) s = .next s := by
  change Host.Outcome.next (holdAnswerBy src gate false s) = _
  simp [holdAnswerBy, heldFrom, hh, hsrc]

theorem waitProbeTimer_idle (hl : remoteOps s = []) : exec .waitProbeTimer s = .next s := by
  change execWaitProbeTimer s = _
  rw [execWaitProbeTimer, hl]
  rfl

theorem waitProbeTimer_young (hl : remoteOps s = [o]) (hp : probed s o = false) : exec .waitProbeTimer s = .next s := by
  change execWaitProbeTimer s = _
  rw [execWaitProbeTimer, hl, List.filter_cons, hp]
  rfl

theorem waitProbeTimer_asks (hl : remoteOps s = [o]) (hp : probed s o = true) : Completes .waitProbeTimer s (fun t => GatesQuiet s t
    ∧ (Reaches s o.fa → Sends s t (packet s o.fa 0 0 (0x42 :: (leBytes 4 o.tag.toNat ++ [byte o.gate.toNat]))))) := by
  have hexec : exec .waitProbeTimer s = .next (control s o.fa 0x42 (leBytes 4 o.tag.toNat ++ [byte o.gate.toNat])) := by
    change execWaitProbeTimer s = _
    rw [execWaitProbeTimer, hl, List.filter_cons, hp]
    rfl
  exact ⟨_, hexec, control_quiet _ _ _ _, fun hr => sends_control hr _ _⟩

theorem waitProbe_answered : Completes (.waitProbe src tag gate) s (fun t => GatesQuiet s t
    ∧ (Reaches s src → Sends s t (packet s src 0 0 (0x43 :: (leBytes 4 tag.toNat
      ++ [if waits (s.gate (gate.toNat % 128)) src tag then 1 else 0]))))) :=
  ⟨_, rfl, control_quiet _ _ _ _, fun hr => sends_control hr 0x43 _⟩

/-! ### Outstanding operations are marked (R451, R453, R454) -/

/-- From `s` to `t` the outstanding operations of the tag are changed by `f`, at every core; memory and gates stay. -/
structure OpsMarked (s t : State) (tag : W32) (f : GateOp → GateOp) : Prop where
  core : ∀ n, t.core n = { s.core n with gops := (s.core n).gops.map (fun q => if q.tag = tag then f q else q) }
  store : t.store = s.store
  gates : t.gateUnit.gates = s.gateUnit.gates

theorem modOp_marked (s : State) (tag : W32) (f : GateOp → GateOp) : OpsMarked s (modOp s tag f) tag f where
  core := fun n => tget_map_values (g := fun c : Core => { c with gops := c.gops.map (fun o => if o.tag = tag then f o else o) }) rfl s.die.cores n
  store := rfl
  gates := rfl

theorem OpsMarked.sending {t u : State} {f : GateOp → GateOp} (hm : OpsMarked s t tag f) (hu : Sending t u) : OpsMarked s u tag f where
  core := fun n => by
    rw [State.core, hu.die]
    exact hm.core n
  store := hu.store.trans hm.store
  gates := by rw [hu.gateUnit, hm.gates]

theorem gateResult_marks (ho : remoteOp s tag = some o) (hsrc : o.fa = src) :
    Completes (.gateResult src tag word) s (fun t => OpsMarked s t tag (fun q => { q with result := some word })) := by
  have hexec : exec (.gateResult src tag word) s = .next (modOp s tag (fun q => { q with result := some word })) := by
    change Host.Outcome.next (gateResultBy src tag word s) = _
    unfold gateResultBy
    simp only [ho, hsrc, if_true]
  exact ⟨_, hexec, modOp_marked _ _ _⟩

theorem gateResult_unknown (ho : remoteOp s tag = none) (hl : s.gateUnit.late = []) : exec (.gateResult src tag word) s = .next s := by
  change Host.Outcome.next (gateResultBy src tag word s) = _
  unfold gateResultBy
  simp only [ho, hl, List.find?_nil]

theorem failRemote_marked (ho : remoteOp s tag = some o) :
    OpsMarked s (failRemote s tag) tag (fun q => { q with result := some unreachableWord }) := by
  have hm := modOp_marked s tag (fun q => { q with result := some unreachableWord })
  unfold failRemote
  rw [ho]
  exact ⟨hm.core, hm.store, hm.gates⟩

theorem waitSilence_unknown (ho : remoteOp s tag = none) : exec (.waitSilenceTimeout tag) s = .next s := by
  change Host.Outcome.next (failRemote s tag) = _
  unfold failRemote
  rw [ho]

theorem waitAnswer_waiting : exec (.waitAnswer src tag true) s = .next s := rfl

theorem waitAnswer_gone (ho : remoteOp s tag = some o) (hsrc : o.fa = src) :
    Completes (.waitAnswer src tag false) s (fun t => OpsMarked s t tag (fun q => { q with result := some unreachableWord })) := by
  have hexec : exec (.waitAnswer src tag false) s = .next (failRemote s tag) := by
    change Host.Outcome.next (waitAnswerBy src tag false s) = _
    simp [waitAnswerBy, ho, hsrc]
  exact ⟨_, hexec, failRemote_marked ho⟩

theorem poolFull_marks (ho : remoteOp s tag = some o) (hsrc : o.fa = src) (hg : o.gate.toNat = gate.toNat) :
    Completes (.poolFull src tag gate) s (fun t => OpsMarked s t tag (fun q => { q with poolFull := true })) := by
  have hexec : exec (.poolFull src tag gate) s = .next (modOp s tag (fun q => { q with poolFull := true })) := by
    change Host.Outcome.next (poolFullBy src tag gate s) = _
    simp [poolFullBy, ho, hsrc, hg]
  exact ⟨_, hexec, modOp_marked _ _ _⟩

theorem poolFull_unknown (ho : remoteOp s tag = none) :
    exec (.poolFull src tag gate) s = .next s ∧ exec (.poolFullRetry tag) s = .next s := by
  constructor
  · change Host.Outcome.next (poolFullBy src tag gate s) = _
    simp [poolFullBy, ho]
  · change execPoolFullRetry tag s = _
    unfold execPoolFullRetry
    rw [ho]

theorem poolFullRetry_sends (ho : remoteOp s tag = some o) (hf : o.poolFull = true) : Completes (.poolFullRetry tag) s (fun t =>
    OpsMarked s t tag (fun q => { q with poolFull := false })
    ∧ (Reaches s o.fa → Sends s t (gatePacket s o.fa o.tenant o.op o.gate o.sv o.core o.life tag))) := by
  obtain ⟨u, hu⟩ : ∃ u, u = modOp s tag (fun q => { q with poolFull := false }) := ⟨_, rfl⟩
  have hmarked : OpsMarked s u tag (fun q => { q with poolFull := false }) := hu ▸ modOp_marked _ _ _
  have hfab : u.fabric = s.fabric := by rw [hu]; rfl
  have hexec : exec (.poolFullRetry tag) s = .next (u.send (gatePacket s o.fa o.tenant o.op o.gate o.sv o.core o.life tag)) := by
    change execPoolFullRetry tag s = _
    unfold execPoolFullRetry
    simp only [ho, hf, if_true, ← hu]
  refine ⟨_, hexec, hmarked.sending (Sending.send _ _), fun hr => ?_⟩
  obtain ⟨l, hl⟩ := sends_send (s := u) (p := gatePacket s o.fa o.tenant o.op o.gate o.sv o.core o.life tag) ((reaches_congr hfab).mpr hr)
  exact ⟨l, by rw [hl, hu]; rfl⟩

/-! ### Withdrawals, leases and limits (R456 to R459) -/

theorem withdraw_removes : Completes (.withdraw src tag gate) s (fun t => ((∀ i, i ≠ gate.toNat % 128 → t.gate i = s.gate i) ∧ t.store = s.store
      ∧ t.die.cores = s.die.cores)
    ∧ waits (t.gate (gate.toNat % 128)) src tag = false
    ∧ (t.gate (gate.toNat % 128)).waiters = (s.gate (gate.toNat % 128)).waiters.filter (fun x => !(x.fa == src && x.tag == tag))
    ∧ (t.gate (gate.toNat % 128)).value = if waits (s.gate (gate.toNat % 128)) src tag ∧ (s.gate (gate.toNat % 128)).kind = .barrier then
        barrierValue (barrierParties (s.gate (gate.toNat % 128)).value) (barrierArrived (s.gate (gate.toNat % 128)).value - 1)
          (barrierGen (s.gate (gate.toNat % 128)).value)
      else (s.gate (gate.toNat % 128)).value) := by
  refine ⟨_, rfl, ⟨fun i hi => State.gate_setGate_ne _ hi _, rfl, rfl⟩, ?_, ?_, ?_⟩
  · rw [withdrawBy, removeWaiter, State.gate_setGate, waits, List.any_filter]
    exact List.any_eq_false.mpr (fun x _ => by cases x.fa == src <;> cases x.tag == tag <;> simp)
  · rw [withdrawBy, removeWaiter, State.gate_setGate]
  · rw [withdrawBy, removeWaiter, State.gate_setGate]
    simp [waits]

/-- A lock is orphaned by a limit: with the device event that the chiplet would append before it. -/
theorem orphanByLimit_lock {i : Nat} {cause : Byte} (hh : (s.gate i).holder = some h) (hw : (s.gate i).waiters = []) (hf : s.fw.hand = none) :
    GateOnly s (orphanByLimit s i cause) i { s.gate i with
      holder := none
      dead := some ⟨h.fa, h.core, h.epoch⟩ }
    ∧ (orphanByLimit s i cause).ledger = (event s 0xE050 ([byte i, cause] ++ leBytes 2 h.fa.toNat ++ leBytes 4 h.epoch.toNat)).ledger := by
  have hset := orphan_alone hh hw
  obtain ⟨u, hu⟩ : ∃ u, u = orphan s i := ⟨_, rfl⟩
  obtain ⟨d, hd⟩ : ∃ d, d = [byte i, cause] ++ leBytes 2 h.fa.toNat ++ leBytes 4 h.epoch.toNat := ⟨_, rfl⟩
  rw [← hu] at hset
  have hlimit : orphanByLimit s i cause = event u 0xE050 d := by
    unfold orphanByLimit
    rw [hh, hu, hd]
  have hsend := Sending.event u 0xE050 d
  have hledger : (event u 0xE050 d).ledger = (event s 0xE050 d).ledger := by
    rw [event_eq (inPause_none (by rw [hset.rest]; exact hf)), event_eq (inPause_none hf), hset.rest, append_ledger, append_ledger]
    rfl
  rw [← hd, hlimit]
  refine ⟨⟨?_, fun j hj => ?_, ?_, ?_⟩, hledger⟩
  · rw [State.gate, hsend.gateUnit]
    exact hset.gate
  · rw [State.gate, hsend.gateUnit]
    exact hset.others j hj
  · rw [hsend.store, hset.rest]
  · rw [hsend.die, hset.rest]

theorem leaseExpiry_orphans (hk : (s.gate g).kind = .lock) (hh : (s.gate g).holder = some h) (hw : (s.gate g).waiters = [])
    (hl : (s.gate g).lease.isSome = true) (hf : s.fw.hand = none) : Completes (.leaseExpiry g) s (fun t =>
      GateOnly s t g { s.gate g with
        holder := none
        dead := some ⟨h.fa, h.core, h.epoch⟩ }
      ∧ t.ledger = (event s 0xE050 ([byte g, 1] ++ leBytes 2 h.fa.toNat ++ leBytes 4 h.epoch.toNat)).ledger) := by
  have hexec : exec (.leaseExpiry g) s = .next (orphanByLimit s g 1) := by
    change execLeaseExpiry g s = _
    simp [execLeaseExpiry, hk, hl]
  exact ⟨_, hexec, orphanByLimit_lock hh hw hf⟩

theorem leaseExpiry_none (hl : (s.gate g).lease = none) : exec (.leaseExpiry g) s = .next s := by
  change execLeaseExpiry g s = _
  simp [execLeaseExpiry, hl]

theorem reachLimit_orphans (hk : (s.gate g).kind = .lock) (hh : (s.gate g).holder = some h) (hw : (s.gate g).waiters = [])
    (hfar : h.fa ≠ s.fa) (hf : s.fw.hand = none) : Completes (.reachabilityLimit g) s (fun t =>
      GateOnly s t g { s.gate g with
        holder := none
        dead := some ⟨h.fa, h.core, h.epoch⟩ }
      ∧ t.ledger = (event s 0xE050 ([byte g, 2] ++ leBytes 2 h.fa.toNat ++ leBytes 4 h.epoch.toNat)).ledger) := by
  have hexec : exec (.reachabilityLimit g) s = .next (orphanByLimit s g 2) := by
    change execReachabilityLimit g s = _
    simp [execReachabilityLimit, hk, hh, hfar]
  exact ⟨_, hexec, orphanByLimit_lock hh hw hf⟩

theorem reachLimit_here (hh : (s.gate g).holder = some h) (hhere : h.fa = s.fa) : exec (.reachabilityLimit g) s = .next s := by
  change execReachabilityLimit g s = _
  simp [execReachabilityLimit, hh, hhere]

end

theorem GateOnly.others_stay {s t : State} {i : Nat} {k : Gate} (h : GateOnly s t i k) :
    t.gate i = k ∧ (∀ j, j ≠ i → t.gate j = s.gate j) ∧ t.store = s.store ∧ t.die.cores = s.die.cores :=
  ⟨h.gate, h.others, h.store, h.cores⟩

theorem Completes.imp {i : Instr} {s : State} {p q : State → Prop} (h : Completes i s p) (hpq : ∀ t, p t → q t) : Completes i s q := by
  obtain ⟨t, ht, hp⟩ := h
  exact ⟨t, ht, hpq t hp⟩

theorem OpsMarked.parts {s t : State} {tag : W32} {f : GateOp → GateOp} (h : OpsMarked s t tag f) :
    (∀ n, t.core n = { s.core n with gops := (s.core n).gops.map (fun q => if q.tag = tag then f q else q) })
    ∧ t.store = s.store ∧ t.gateUnit.gates = s.gateUnit.gates := ⟨h.core, h.store, h.gates⟩

/-- Settles O54: each row by its own lemma; a requester of another chiplet marks at most a running step (log 56). -/
theorem remoteGatesFollowTheProtocol : Obligations.RemoteGatesFollowTheProtocol := by
  unfold Obligations.RemoteGatesFollowTheProtocol
  intro src tenant life op gate core sv word session tag g h o s
  dsimp only
  refine ⟨?_, ?_, ?_, ?_, ?_, ?_, ?_, ?_, ?_, ?_, ?_, ?_, ?_, ?_, ?_, ?_, ?_, ?_, ?_, ?_, ?_, ?_, ?_, ?_, ?_, ?_, ?_, ?_, ?_⟩
  · rintro rfl hs hk hw
    exact (remote_added hs hk hw).imp fun t ⟨hg, ha⟩ => ⟨hg.gate, ⟨hg.others, hg.store, hg.cores⟩, ha⟩
  · exact fun hs => remote_unserved hs
  · rintro rfl hs hk hh hroom
    exact (remote_registered hs hk hh hroom).imp fun t ⟨hg, ha⟩ => ⟨hg.gate, ⟨hg.others, hg.store, hg.cores⟩, ha⟩
  · rintro rfl hs hk hh hfull
    exact remote_poolFull hs hk hh hfull
  · rintro y rfl hs hk hw hy hsus hlast hroom hfar
    exact (remote_releases hs hk hw hy hsus hlast hroom hfar).imp fun t ⟨hg, ha⟩ => ⟨hg.gate, ⟨hg.others, hg.store, hg.cores⟩, ha⟩
  · exact fun ho hsrc => (gateResult_marks ho hsrc).imp fun _ hm => hm.parts
  · exact gateResult_unknown
  · exact holdProbeTimer_idle
  · exact holdProbeTimer_asks
  · exact holdProbe_answered
  · exact holdAnswer_alive
  · exact fun ⟨hk, hh, hw⟩ hsrc => (holdAnswer_dead hk hh hw hsrc).imp fun _ hg => hg.others_stay
  · exact fun ⟨_, hh, _⟩ hsrc => holdAnswer_other hh hsrc
  · exact waitProbeTimer_idle
  · exact waitProbeTimer_young
  · exact waitProbeTimer_asks
  · exact waitProbe_answered
  · exact waitAnswer_waiting
  · exact fun ho => ⟨_, rfl, (failRemote_marked ho).parts⟩
  · exact waitSilence_unknown
  · exact fun ho hsrc => (waitAnswer_gone ho hsrc).imp fun _ hm => hm.parts
  · exact withdraw_removes
  · exact fun ho hsrc hg => (poolFull_marks ho hsrc hg).imp fun _ hm => hm.parts
  · exact poolFull_unknown
  · exact fun ho hf => (poolFullRetry_sends ho hf).imp fun _ ⟨hm, hs⟩ => ⟨hm.parts, hs⟩
  · exact fun ⟨hk, hh, hw⟩ hl hf => (leaseExpiry_orphans hk hh hw hl hf).imp fun _ ⟨hg, he⟩ => ⟨hg.gate, ⟨hg.others, hg.store, hg.cores⟩, he⟩
  · exact leaseExpiry_none
  · exact fun ⟨hk, hh, hw⟩ hfar hf => (reachLimit_orphans hk hh hw hfar hf).imp
      fun _ ⟨hg, he⟩ => ⟨hg.gate, ⟨hg.others, hg.store, hg.cores⟩, he⟩
  · exact fun ⟨_, hh, _⟩ hhere => reachLimit_here hh hhere

end Sys2Proof.Machine
end

section
/-! PROOFS. The phases of a seizure before its commit (R212, R365, R417, R442, R480). -/

namespace Sys2Proof.Machine

section
variable {s : State} {z : Seizure}

/-! ### One phase after the other (R480) -/

theorem advance_none (h : s.seize = none) (p : Nat) (f : Seizure → State → State) : advance s p f = s := by
  unfold advance
  rw [h]

theorem advance_other (h : s.seize = some z) {p : Nat} (hp : z.phase ≠ p) (f : Seizure → State → State) : advance s p f = s := by
  unfold advance
  simp only [h, if_neg hp]

theorem advance_at (h : s.seize = some z) {p : Nat} (hp : z.phase = p) (f : Seizure → State → State) :
    advance s p f = f z { s with seize := some { z with phase := p + 1 } } := by
  unfold advance
  simp only [h, if_pos hp]

theorem seizureCommit_none (h : s.seize = none) : exec .seizureCommit s = .next s := by
  change execSeizureCommit s = _
  unfold execSeizureCommit
  simp only [h]

theorem seizureCommit_other (h : s.seize = some z) (hp : z.phase ≠ 3) : exec .seizureCommit s = .next s := by
  change execSeizureCommit s = _
  unfold execSeizureCommit
  simp only [h, ne_eq, hp, not_false_iff, if_true]

/-! ### The basin is quiet (R212, R442) -/

/-- A transfer of basin `b` stands suspended, without credits. -/
def Transfer.stopped (b : Nat) (x : Transfer) : Transfer := if x.basin = b then { x with suspended := true, credits := 0 } else x

/-- One channel of the seized basin is suspended. -/
def suspendOne (t : State) (c : Nat) : State :=
  match (t.chan c).xfer with
  | some x => setXfer (releaseCredits t c x) c { x with suspended := true, credits := 0 }
  | none => t

theorem suspendChannels_eq (s : State) (b : Nat) : suspendChannels s b = (channelsOf s b).foldl suspendOne s := rfl

theorem releaseCredits_sending (t : State) (c : Nat) (x : Transfer) : Sending t (releaseCredits t c x) := Sending.ite (.refl t) (.control _ _ _ _)

theorem releaseCredits_chan (t : State) (c : Nat) (x : Transfer) (j : Nat) : (releaseCredits t c x).chan j = t.chan j := by
  rw [State.chan, (releaseCredits_sending t c x).dma_eq]
  rfl

theorem suspendOne_keeps (t : State) (c : Nat) : (suspendOne t c).seize = t.seize ∧ (suspendOne t c).store = t.store
    ∧ (suspendOne t c).gateUnit = t.gateUnit ∧ (suspendOne t c).die = t.die := by
  unfold suspendOne
  split
  next x _ =>
    have h := releaseCredits_sending t c x
    exact ⟨h.seize, h.store, h.gateUnit, h.die⟩
  next => exact ⟨rfl, rfl, rfl, rfl⟩

theorem suspendOne_xfer (t : State) (c j : Nat) : ((suspendOne t c).chan j).xfer
    = if j = c then (t.chan c).xfer.map (fun x => { x with suspended := true, credits := 0 }) else (t.chan j).xfer := by
  unfold suspendOne
  split
  next x hx =>
    by_cases hj : j = c
    · rw [if_pos hj, hj, hx, setXfer, State.chan_setChan]
      rfl
    · rw [if_neg hj, setXfer, State.chan_setChan_ne _ hj, releaseCredits_chan]
  next hx =>
    by_cases hj : j = c
    · rw [if_pos hj, hj, hx]
      rfl
    · rw [if_neg hj]

theorem mem_channelsOf {b c : Nat} : c ∈ channelsOf s b ↔ c < 32 ∧ (s.chan c).xfer.any (fun x => x.basin == b) = true := by
  rw [channelsOf, List.mem_filter, List.mem_range]

/-- Every transfer of the basin is suspended, and no other. -/
theorem suspendChannels_xfer (s : State) (b : Nat) (c : Fin 32) :
    ((suspendChannels s b).chan c).xfer = (s.chan c).xfer.map (Transfer.stopped b) := by
  rw [suspendChannels_eq, walk_get (fun t j => (t.chan j).xfer) suspendOne (fun _ x => x.map (fun x => { x with suspended := true, credits := 0 }))
    (fun _ => True) (channelsOf s b) (fun _ _ _ _ => trivial) (fun t k _ j _ => suspendOne_xfer t k j)
    (List.Nodup.filter _ List.nodup_range) s trivial c]
  cases hx : (s.chan c).xfer with
  | none => split <;> rfl
  | some x =>
    have hmem : (c : Nat) ∈ channelsOf s b ↔ x.basin = b := by
      rw [mem_channelsOf, hx]
      simp [c.isLt]
    by_cases hb : x.basin = b
    · rw [if_pos (hmem.mpr hb), Option.map_some, Option.map_some, Transfer.stopped, if_pos hb]
    · rw [if_neg (hmem.not.mpr hb), Option.map_some, Transfer.stopped, if_neg hb]

theorem seizureQuiesced_busy (h : s.seize = some z) (hp : z.phase = 0)
    (hb : (s.basin z.basin).rect.nodes.any (fun m => (s.core m).sb.any inMemory) = true) : exec .seizureQuiesced s = .next s := by
  change Host.Outcome.next (advance s 0 _) = _
  rw [advance_at h hp]
  exact congrArg _ (if_pos hb)

/-- With nothing in memory in flight the seized cores have no entries, and the basin's transfers stand. -/
theorem seizureQuiesced_rests (h : s.seize = some z) (hp : z.phase = 0)
    (hb : ¬(s.basin z.basin).rect.nodes.any (fun m => (s.core m).sb.any inMemory) = true) : Completes .seizureQuiesced s (fun t =>
      t.seize = some { z with phase := z.phase + 1 } ∧ t.store = s.store ∧ t.gateUnit = s.gateUnit
      ∧ (∀ m ∈ (s.basin z.basin).rect.nodes, (t.core m).sb = [])
      ∧ ∀ c : Fin 32, (t.chan c).xfer = (s.chan c).xfer.map (Transfer.stopped z.basin)) := by
  obtain ⟨l, hl⟩ : ∃ l, l = (s.basin z.basin).rect.nodes := ⟨_, rfl⟩
  obtain ⟨v, hv⟩ : ∃ v : State, v = { s with seize := some { z with phase := 0 + 1 } } := ⟨_, rfl⟩
  obtain ⟨u, hu⟩ : ∃ u, u = l.foldl (fun t n => t.modCore n (fun c => { c with sb := [] })) v := ⟨_, rfl⟩
  obtain ⟨d, hd⟩ : CoresOnly v u := hu ▸ foldl_modCore_only _ _ _
  have hexec : exec .seizureQuiesced s = .next (suspendChannels u z.basin) := by
    change Host.Outcome.next (advance s 0 _) = _
    rw [advance_at h hp, hu, hv, hl]
    exact congrArg _ (if_neg hb)
  have hseize : (suspendChannels u z.basin).seize = u.seize := by
    rw [suspendChannels_eq]
    exact foldl_keeps _ State.seize (fun t c => (suspendOne_keeps t c).1) _ _
  have hstore : (suspendChannels u z.basin).store = u.store := by
    rw [suspendChannels_eq]
    exact foldl_keeps _ State.store (fun t c => (suspendOne_keeps t c).2.1) _ _
  have hgates : (suspendChannels u z.basin).gateUnit = u.gateUnit := by
    rw [suspendChannels_eq]
    exact foldl_keeps _ State.gateUnit (fun t c => (suspendOne_keeps t c).2.2.1) _ _
  have hdie : (suspendChannels u z.basin).die = u.die := by
    rw [suspendChannels_eq]
    exact foldl_keeps _ State.die (fun t c => (suspendOne_keeps t c).2.2.2) _ _
  refine ⟨_, hexec, ?_, ?_, ?_, fun m hm => ?_, fun c => ?_⟩
  · rw [hseize, hd, hv, hp]
  · rw [hstore, hd, hv]
  · rw [hgates, hd, hv]
  · rw [State.core, hdie, ← State.core, hu, foldl_modCore_core (fun c => { c with sb := [] }) (fun _ => rfl), if_pos (hl ▸ hm)]
  · rw [suspendChannels_xfer, State.chan, hd, hv]
    rfl

/-! ### The flume fence (R365, R417) -/

/-- From `s` to `t` packets have at most left: nothing new waits, and a port that has nothing to send still has nothing. -/
structure Draining (s t : State) : Prop where
  waiting : t.fabric.waiting = s.fabric.waiting
  reads : t.dma.reads = s.dma.reads
  queue : ∀ k, (s.port k).queue = [] → (t.port k).queue = []

theorem Draining.refl (s : State) : Draining s s := ⟨rfl, rfl, fun _ => id⟩

theorem Draining.trans {t u : State} (h : Draining s t) (k : Draining t u) : Draining s u :=
  ⟨k.waiting.trans h.waiting, k.reads.trans h.reads, fun q hq => k.queue q (h.queue q hq)⟩

theorem Draining.setPort {q : Nat} {p : Port} (h : (s.port q).queue = [] → p.queue = []) : Draining s (s.setPort q p) where
  waiting := rfl
  reads := rfl
  queue := fun k hk => by
    rcases eq_or_ne k q with rfl | hne
    · rw [State.port_setPort]
      exact h hk
    · rw [State.port_setPort_ne _ hne]
      exact hk

theorem Draining.oweFor (s : State) (o : OutPacket) (n : Nat) : Draining s (oweFor s o n) := by
  unfold Machine.oweFor
  split
  · exact .setPort id
  · exact .refl s

theorem readSent_nothing (h : s.dma.reads = []) (p : Packet) : readSent s p = s := by
  have hnone : readOf s p = none := by
    unfold readOf
    rw [h]
    exact ite_self _
  unfold readSent
  rw [hnone]

/-- A frame that leaves a port takes nothing into another; with no read data to come it completes no read. -/
theorem Draining.sendFrame {q : Nat} {o : OutPacket} (hq : (s.port q).queue ≠ []) (hr : s.dma.reads = []) : Draining s (sendFrame s q o) := by
  obtain ⟨p, m, -, h⟩ := Sending.sendFrame_eq s q o
  have hset : Draining s (s.setPort q p) := .setPort (fun hempty => absurd hempty hq)
  have hport : Draining s ((s.setPort q p).emit m) := ⟨hset.waiting, hset.reads, hset.queue⟩
  have howe : Draining s (if o.abort then (s.setPort q p).emit m else Machine.oweFor ((s.setPort q p).emit m) o 1) := by
    split
    · exact hport
    · exact hport.trans (.oweFor _ _ _)
  rw [h]
  split
  · rw [readSent_nothing (howe.reads.trans hr)]
    exact howe
  · exact howe

/-- Ports that send while nothing waits. -/
theorem Draining.flushN (n : Nat) : ∀ s : State, s.fabric.waiting = [] → s.dma.reads = [] → Draining s (flushN n s) := by
  induction n with
  | zero => exact fun s _ _ => .refl s
  | succ n ih =>
    intro s hw hr
    unfold Machine.flushN
    split
    next t ht =>
      obtain ⟨q, -, hq⟩ := List.exists_of_findSome?_eq_some ht
      split at hq
      next hgo =>
        obtain ⟨o, -, rfl⟩ := Option.map_eq_some_iff.mp hq
        have hsome : (s.port q).queue ≠ [] := by
          intro hempty
          simp [hempty] at hgo
        have hone := Draining.sendFrame (o := o) hsome hr
        exact hone.trans (ih _ (hone.waiting.trans hw) (hone.reads.trans hr))
      next => cases hq
    next =>
      rw [startOne, hw]
      exact .refl s

/-! What the fence returns goes back to its transfer or its core. -/

theorem returnPacket_keeps (b : Nat) (t : State) (o : OutPacket) : (returnPacket b t o).seize = t.seize ∧ (returnPacket b t o).store = t.store
    ∧ (returnPacket b t o).fabric = t.fabric ∧ (returnPacket b t o).links = t.links ∧ (returnPacket b t o).dma.reads = t.dma.reads := by
  unfold returnPacket
  dsimp only
  split
  · split
    · split <;> exact ⟨rfl, rfl, rfl, rfl, rfl⟩
    · exact ⟨rfl, rfl, rfl, rfl, rfl⟩
  · obtain ⟨cs, hcs⟩ := foldl_modCore_only (fun k => { k with gops := k.gops.map (fun g =>
        if some g.tag = (o.origin t).tag then { g with returned := true } else g) }) (t.basin b).rect.nodes t
    rw [hcs]
    exact ⟨rfl, rfl, rfl, rfl, rfl⟩

/-- A packet of a channel goes back to its transfer, and no core has it. -/
theorem returnPacket_die {b : Nat} {t : State} {o : OutPacket} (h : (o.origin t).chan ≠ none) : (returnPacket b t o).die = t.die := by
  unfold returnPacket
  dsimp only
  split
  · split
    · split <;> rfl
    · rfl
  next hnone => exact absurd hnone h

theorem origin_congr {t u : State} (h : u.fabric = t.fabric) (o : OutPacket) : o.origin u = o.origin t := by
  have hfa : u.fa = t.fa := congrArg Fabric.fa h
  simp only [OutPacket.origin, hfa]

theorem returnPackets_keep (b : Nat) (l : List OutPacket) : ∀ t : State, (l.foldl (returnPacket b) t).seize = t.seize
    ∧ (l.foldl (returnPacket b) t).store = t.store ∧ (l.foldl (returnPacket b) t).fabric = t.fabric
    ∧ (l.foldl (returnPacket b) t).links = t.links ∧ (l.foldl (returnPacket b) t).dma.reads = t.dma.reads
    ∧ ((∀ o ∈ l, (o.origin t).chan ≠ none) → (l.foldl (returnPacket b) t).die = t.die) := by
  induction l with
  | nil => exact fun _ => ⟨rfl, rfl, rfl, rfl, rfl, fun _ => rfl⟩
  | cons o l ih =>
    intro t
    obtain ⟨hz, hs, hf, hl, hr⟩ := returnPacket_keeps b t o
    obtain ⟨iz, is, if_, il, ir, id_⟩ := ih (returnPacket b t o)
    refine ⟨iz.trans hz, is.trans hs, if_.trans hf, il.trans hl, ir.trans hr, fun h => ?_⟩
    refine (id_ fun o' ho' => ?_).trans (returnPacket_die (h o List.mem_cons_self))
    rw [origin_congr hf]
    exact h o' (List.mem_cons_of_mem _ ho')

/-- The ports without the packets that a fence takes out: those that have begun end with an abort frame. -/
def fencePorts (p : OutPacket → Bool) (s : State) : State :=
  (List.range 20).foldl (fun t q => t.modPort q (fun v => { v with queue := v.queue.filterMap (fun o =>
    if !p o then some o else if o.begun then some { o with abort := true } else none) })) s

theorem fencePorts_keeps (p : OutPacket → Bool) (s : State) : ∃ l, fencePorts p s = { s with links := l } := by
  have h : ∀ (l : List Nat) (t : State), ∃ m, l.foldl (fun t q => t.modPort q (fun v => { v with queue := v.queue.filterMap (fun o =>
      if !p o then some o else if o.begun then some { o with abort := true } else none) })) t = { t with links := m } := by
    intro l
    induction l with
    | nil => exact fun t => ⟨_, rfl⟩
    | cons q l ih => exact fun t => ih _
  exact h _ s

theorem fencePorts_port (p : OutPacket → Bool) (s : State) (q : Fin 20) : ((fencePorts p s).port q).queue = (s.port q).queue.filterMap (fun o =>
    if !p o then some o else if o.begun then some { o with abort := true } else none) := by
  have h := walk_get State.port (fun t q => t.modPort q (fun v => { v with queue := v.queue.filterMap (fun o =>
    if !p o then some o else if o.begun then some { o with abort := true } else none) }))
    (fun _ v => { v with queue := v.queue.filterMap (fun o => if !p o then some o else if o.begun then some { o with abort := true } else none) })
    (fun _ => True) (List.range 20) (fun _ _ _ _ => trivial) (fun t k _ j _ => ?_) List.nodup_range s trivial q
  · rw [if_pos (List.mem_range.mpr q.isLt)] at h
    exact congrArg Port.queue h
  · by_cases hj : j = k
    · rw [hj, if_pos rfl, State.modPort, State.port_setPort]
    · rw [if_neg hj, State.modPort, State.port_setPort_ne _ hj]

/-- The packet comes from a channel or a core of basin `b`, and none of its frames has left. -/
def FencedWhole (s : State) (b : Nat) (o : OutPacket) : Prop :=
  (o.origin s).isFor (channelsOf s b) (opsOf s b) = true ∧ o.begun = false ∧ o.abort = false

theorem fencePackets_spec (s : State) (b : Nat) (hr : s.dma.reads = []) (hw : ∀ o ∈ s.fabric.waiting, FencedWhole s b o) :
    (fencePackets s b).seize = s.seize ∧ (fencePackets s b).store = s.store ∧ (opsOf s b = [] → (fencePackets s b).die = s.die)
    ∧ (fencePackets s b).fabric.waiting = [] ∧ ∀ q : Fin 20, (∀ o ∈ (s.port q).queue, FencedWhole s b o) → ((fencePackets s b).port q).queue = [] := by
  obtain ⟨p, hp⟩ : ∃ p : OutPacket → Bool, p = fun o => !o.abort && (o.origin s).isFor (channelsOf s b) (opsOf s b) := ⟨_, rfl⟩
  obtain ⟨go, hgo⟩ : ∃ go, go = s.fabric.waiting.filter p ++ (List.range 20).flatMap (fun q => (s.port q).queue.filter p) := ⟨_, rfl⟩
  obtain ⟨s1, hs1⟩ : ∃ s1 : State, s1 = { s with fabric := { s.fabric with waiting := s.fabric.waiting.filter (fun o => !p o) } } := ⟨_, rfl⟩
  have hwhole : ∀ o, FencedWhole s b o → p o = true ∧ o.begun = false := fun o ⟨hf, hb, ha⟩ => ⟨by rw [hp]; simp [hf, ha], hb⟩
  have hwaiting : s1.fabric.waiting = [] := by
    rw [hs1]
    exact List.filter_eq_nil_iff.mpr (fun o ho => by simp [(hwhole o (hw o ho)).1])
  obtain ⟨l, hl⟩ := fencePorts_keeps p s1
  obtain ⟨hz, hst, hf, hli, hre, hdie⟩ := returnPackets_keep b go (fencePorts p s1)
  obtain ⟨u, hu⟩ : ∃ u, u = go.foldl (returnPacket b) (fencePorts p s1) := ⟨_, rfl⟩
  rw [← hu] at hz hst hf hli hre hdie
  have hfence : fencePackets s b = flush u := by
    rw [hu, hgo, hs1, hp]
    rfl
  have hport : ∀ q : Nat, u.port q = (fencePorts p s1).port q := fun q => by rw [State.port, State.port, hli]
  have hsend := Sending.flush u
  have hdrain : Draining u (flush u) := .flushN _ u (by rw [hf, hl]; exact hwaiting) (by rw [hre, hl, hs1]; exact hr)
  rw [hfence]
  refine ⟨?_, ?_, fun hops => ?_, ?_, fun q hq => hdrain.queue q ?_⟩
  · rw [hsend.seize, hz, hl, hs1]
  · rw [hsend.store, hst, hl, hs1]
  · rw [hsend.die, hdie, hl, hs1]
    intro o ho hnone
    have hpo : p o = true := by
      rw [hgo] at ho
      rcases List.mem_append.mp ho with ho | ho
      · exact (List.mem_filter.mp ho).2
      · obtain ⟨q, -, hq⟩ := List.mem_flatMap.mp ho
        exact (List.mem_filter.mp hq).2
    have horigin : o.origin (fencePorts p s1) = o.origin s := by
      have hfa : (fencePorts p s1).fa = s.fa := by
        rw [hl, hs1]
        rfl
      simp only [OutPacket.origin, hfa]
    rw [horigin] at hnone
    rw [hp, hops] at hpo
    have hnot : ∀ x : Option W32, x.any ([] : List W32).contains = false := fun x => by cases x <;> rfl
    simp [FrameOf.isFor, hnone, hnot] at hpo
  · rw [hdrain.waiting, hf, hl]
    exact hwaiting
  · rw [hport, fencePorts_port]
    refine List.filterMap_eq_nil_iff.mpr fun o ho => ?_
    have hmem : o ∈ (s.port q).queue := by
      rw [hs1] at ho
      exact ho
    obtain ⟨hpo, hbegun⟩ := hwhole o (hq o hmem)
    simp [hpo, hbegun]

theorem flumeFence_open (h : s.seize = some z) (hp : z.phase = 1) (ho : ∃ c ∈ channelsOf s z.basin, flumeQuiet s c = false) :
    exec .flumeFenceDone s = .next s := by
  obtain ⟨c, hc, hq⟩ := ho
  have hnot : ¬(channelsOf s z.basin).all (flumeQuiet s) = true := fun hall => by
    rw [List.all_eq_true.mp hall c hc] at hq
    cases hq
  change Host.Outcome.next (advance s 1 _) = _
  rw [advance_at h hp]
  exact congrArg _ (if_neg hnot)

theorem flumeFence_done (h : s.seize = some z) (hp : z.phase = 1) (hq : ∀ c ∈ channelsOf s z.basin, flumeQuiet s c = true)
    (hr : s.dma.reads = []) (hw : ∀ o ∈ s.fabric.waiting, FencedWhole s z.basin o) : Completes .flumeFenceDone s (fun t =>
      t.seize = some { z with phase := z.phase + 1 } ∧ t.store = s.store ∧ (opsOf s z.basin = [] → t.die = s.die) ∧ t.fabric.waiting = []
      ∧ ∀ q : Fin 20, (∀ o ∈ (s.port q).queue, FencedWhole s z.basin o) → (t.port q).queue = []) := by
  obtain ⟨v, hv⟩ : ∃ v : State, v = { s with seize := some { z with phase := 1 + 1 } } := ⟨_, rfl⟩
  have hexec : exec .flumeFenceDone s = .next (fencePackets v z.basin) := by
    change Host.Outcome.next (advance s 1 _) = _
    rw [advance_at h hp, hv]
    exact congrArg _ (if_pos (List.all_eq_true.mpr hq))
  obtain ⟨hz, hst, hdie, hwait, hport⟩ := fencePackets_spec v z.basin (by rw [hv]; exact hr) (by rw [hv]; exact hw)
  refine ⟨_, hexec, ?_, ?_, fun hops => ?_, hwait, fun q hq => hport q ?_⟩
  · rw [hz, hv, hp]
  · rw [hst, hv]
  · rw [hdie (by rw [hv]; exact hops), hv]
  · rw [hv]
    exact hq

/-! ### The fabric fence (R417) -/

theorem fabricFence_done (h : s.seize = some z) (hp : z.phase = 2) (hq : fabricQuiet s z.basin = true) :
    exec .fabricFenceDone s = .next { s with seize := some { z with phase := 3 } } := by
  change Host.Outcome.next (advance s 2 _) = _
  rw [advance_at h hp]
  exact congrArg _ (if_pos hq)

theorem fabricFence_open (h : s.seize = some z) (hp : z.phase = 2) (hq : fabricQuiet s z.basin = false) : exec .fabricFenceDone s = .next s := by
  change Host.Outcome.next (advance s 2 _) = _
  rw [advance_at h hp]
  exact congrArg _ (if_neg (by rw [hq]; exact Bool.false_ne_true))

end

end Sys2Proof.Machine
end

section
/-! PROOFS. The windows of a seized basin stay revoked, and what the commit of a seizure captures (R170, R171, R444, R481). -/

namespace Sys2Proof.Machine

/-! ### What changes no window's state (R362, R364, R433) -/

/-- From `s` to `t` windows have changed at most in their queues. -/
def SameWindows (s t : State) : Prop := ∀ k, (s.window k).SameBut (t.window k)

theorem State.setPort_windows (s : State) (q : Nat) (p : Port) : (s.setPort q p).dma.windows = s.dma.windows := rfl

namespace SameWindows

variable {s t u : State}

theorem refl (s : State) : SameWindows s s := fun _ => .refl _

theorem trans (h : SameWindows s t) (k : SameWindows t u) : SameWindows s u := fun j => (h j).trans (k j)

/-- The later step first: what it begins from is known from what it ends in. -/
theorem after (k : SameWindows t u) (h : SameWindows s t) : SameWindows s u := h.trans k

theorem of_eq (h : t.dma.windows = s.dma.windows) : SameWindows s t := fun k => by
  rw [State.window, State.window, h]
  exact .refl _

theorem sending (h : Sending s t) : SameWindows s t := h.window

theorem foldl {α : Type} (f : State → α → State) (hf : ∀ s a, SameWindows s (f s a)) (l : List α) (s : State) : SameWindows s (l.foldl f s) := by
  induction l generalizing s with
  | nil => exact refl s
  | cons a l ih => exact (hf s a).trans (ih _)

theorem state (h : SameWindows s t) (k : Nat) : (t.window k).state = (s.window k).state := by
  obtain ⟨_, _, hk⟩ := h k
  rw [hk]

theorem basin (h : SameWindows s t) (k : Nat) : (t.window k).basin = (s.window k).basin := by
  obtain ⟨_, _, hk⟩ := h k
  rw [hk]

theorem packetDone (s : State) (fa : W16) (w o : Byte) (x : W16) (c : Byte) (i : W16) (g : Byte) : SameWindows s (packetDone s fa w o x c i g) :=
  sending ((Sending.postDone _ _ _ _ _ _ _ _).trans (Sending.flush _))

theorem event (s : State) (c : W16) (d : List Byte) : SameWindows s (event s c d) := sending (Sending.event _ _ _)

theorem noteRead (s : State) (b : Option Nat) (c : Byte) (a n : Nat) : SameWindows s (s.noteRead b c a n) := by
  refine of_eq ?_
  simp only [State.noteRead, State.note]
  split <;> rfl

theorem ackAdds (s : State) (a : Nat) (p : AddPkt → Bool) (b : Bool) : SameWindows s (ackAdds s a p b) :=
  (foldl _ (fun _ _ => packetDone _ _ _ _ _ _ _ _) _ _).after (of_eq rfl)

theorem abortEntry (s : State) (e : RedEntry) (c : Option Byte) : SameWindows s (abortEntry s e c) := by
  have h : SameWindows s (Machine.ackAdds (dropEntry s e) e.granule (joinedEntry e) true) := (ackAdds _ _ _ _).after (of_eq rfl)
  unfold Machine.abortEntry
  dsimp only
  split
  · exact h.trans (event _ _ _)
  · exact h

theorem finishEntry (s : State) (e : RedEntry) : SameWindows s (finishEntry s e) := by
  unfold Machine.finishEntry
  split
  · exact (noteRead _ _ _ _ _).trans (abortEntry _ _ _)
  · exact (ackAdds _ _ _ _).after (of_eq rfl)

theorem acceptAdd {w : AddWrite} (h : acceptAdd s w = some t) : SameWindows s t := by
  unfold Machine.acceptAdd at h
  dsimp only at h
  split at h
  · cases h
    exact (ackAdds _ _ _ _).after (of_eq rfl)
  · split at h
    · split at h
      · cases h
      · split at h
        · cases h
          exact (abortEntry _ _ _).after (of_eq rfl)
        · split at h
          · cases h
            exact (finishEntry _ _).after (of_eq rfl)
          · cases h
            exact of_eq rfl
    · split at h
      · cases h
        exact (abortEntry _ _ _).after (of_eq rfl)
      · split at h
        · cases h
          exact (finishEntry _ _).after (of_eq rfl)
        · cases h
          exact of_eq rfl

theorem retryLoop (n : Nat) (s : State) : SameWindows s (retryLoop n s) := by
  induction n generalizing s with
  | zero => exact refl s
  | succ n ih =>
    unfold Machine.retryLoop
    split
    next t ht =>
      obtain ⟨w, -, hw⟩ := List.exists_of_findSome?_eq_some ht
      exact (acceptAdd hw).after (of_eq rfl) |>.trans (ih t)
    next => exact refl s

theorem abortReds (s : State) (p : RedEntry → Bool) : SameWindows s (abortReds s p) :=
  (foldl _ (fun _ _ => abortEntry _ _ _) _ s).trans (retryLoop _ _)

/-- The frames that come in for window `k` on one port are cut. -/
theorem revokeIncoming (k : Nat) (l : List Nat) (s : State) : SameWindows s
    (l.foldl (fun t q => t.modPort q (fun p => { p with incoming := p.incoming.map (fun e => (e.1, e.2.revoke k)) })) s) := by
  induction l generalizing s with
  | nil => exact refl s
  | cons q l ih =>
    rw [List.foldl_cons]
    exact (of_eq (State.setPort_windows s q _)).trans (ih _)

theorem revokePackets (s : State) (k : Nat) : SameWindows s (revokePackets s k) := by
  unfold Machine.revokePackets
  have hports := revokeIncoming k (List.range 20) s
  dsimp only
  generalize List.foldl _ s (List.range 20) = u at hports ⊢
  refine hports.trans (SameWindows.trans (t := { u with dma := { u.dma with reads := u.dma.reads.filter (fun e => gaWindow e.1.ga != k) } }) (of_eq rfl) ?_)
  exact foldl (fun t (e : XferHdr × Byte) => Machine.postDone t e.1.src (byte k) dcRevoked e.1.xfer e.1.chan e.1.index 0)
    (fun _ _ => sending (Sending.postDone _ _ _ _ _ _ _ _)) _ _

theorem sendRevocation (s : State) (fa : W16) (a b m : Nat) : SameWindows s (sendRevocation s fa a b m) :=
  (sending (Sending.send _ _)).after (of_eq rfl)

end SameWindows

/-! ### The windows of the seized basin (R444, R445) -/

/-- A window that is revoked is revoked, and no other changes its state. -/
theorem stopWindow_revoked (s : State) (k : Nat) (c : Byte) : ((stopWindow s k .revoked c).window k).state = .revoked
    ∧ ∀ j, j ≠ k → ((stopWindow s k .revoked c).window j).state = (s.window j).state := by
  obtain ⟨v, hv⟩ : ∃ v : Window, v = { s.window k with
    state := .revoked
    queue := []
    ended := ((s.window k).queue.filter (fun g => g.held != 0)).map (fun g => (g.fa, g.chan, c)) ++ (s.window k).ended } := ⟨_, rfl⟩
  have hrest : SameWindows (s.setWindow k v) (stopWindow s k .revoked c) := by
    rw [hv]
    exact (SameWindows.sending (Sending.flush _)).after
      ((SameWindows.foldl _ (fun _ _ => .sending (Sending.postDone _ _ _ _ _ _ _ _)) _ _).after
        ((SameWindows.abortReds _ _).after (SameWindows.revokePackets _ _)))
  refine ⟨?_, fun j hj => ?_⟩
  · rw [hrest.state, State.window_setWindow, hv]
  · rw [hrest.state, State.window_setWindow_ne _ hj]

theorem stopWindows_state (b : Nat) (ks : List Nat) (s : State) : (∀ k ∈ ks, ((stopWindows s b ks 1).1.window k).state = .revoked)
    ∧ ∀ k, k ∉ ks → ((stopWindows s b ks 1).1.window k).state = (s.window k).state := by
  have hstop : ∀ (l : List Nat) (t : State),
      (∀ k ∈ l, ((l.foldl (fun t k => if (1 : Nat) = 1 then stopWindow t k .revoked dcRevoked else stopWindow t k .closed dcNoWindow) t).window k).state
        = .revoked)
      ∧ ∀ k, k ∉ l → ((l.foldl (fun t k => if (1 : Nat) = 1 then stopWindow t k .revoked dcRevoked else stopWindow t k .closed dcNoWindow) t).window
        k).state = (t.window k).state := by
    intro l
    induction l with
    | nil => exact fun t => ⟨nofun, fun _ _ => rfl⟩
    | cons j l ih =>
      intro t
      obtain ⟨hone, hothers⟩ := stopWindow_revoked t j dcRevoked
      obtain ⟨hin, hout⟩ := ih (stopWindow t j .revoked dcRevoked)
      simp only [List.foldl_cons, if_true] at hin hout ⊢
      refine ⟨fun k hk => ?_, fun k hk => ?_⟩
      · by_cases hl : k ∈ l
        · exact hin k hl
        · obtain rfl : k = j := (List.mem_cons.mp hk).resolve_right hl
          rw [hout k hl, hone]
      · obtain ⟨hne, hl⟩ := not_or.mp (List.mem_cons.not.mp hk)
        rw [hout k hl, hothers k hne]
  obtain ⟨hin, hout⟩ := hstop ks s
  have hsend : SameWindows _ (stopWindows s b ks 1).1 := SameWindows.foldl _ (fun _ _ => .sendRevocation _ _ _ _ _) _ _
  exact ⟨fun k hk => (hsend.state k).trans (hin k hk), fun k hk => (hsend.state k).trans (hout k hk)⟩

end Sys2Proof.Machine
end

section
/-! PROOFS. The commit of a seizure (R170, R171, R221, R444, R455, R481, R482). -/

namespace Sys2Proof.Machine

/-! ### What the parts of a commit leave alone -/

/-- From `s` to `t` the basins keep their state and their rectangle, windows theirs, and the seizure goes on. -/
structure Freeing (s t : State) : Prop where
  seize : t.seize = s.seize
  windows : SameWindows s t
  basin : ∀ j, ∃ l p k, t.basin j = { s.basin j with saved := l, preferNow := p, step := k }

/-- From `s` to `t` no idle core has begun to run. -/
def IdleStays (s t : State) : Prop := ∀ m, (s.core m).run = .idle → (t.core m).run = .idle

namespace Freeing

variable {s t u : State}

theorem refl (s : State) : Freeing s s := ⟨rfl, .refl s, fun _ => ⟨_, _, _, rfl⟩⟩

theorem trans (h : Freeing s t) (k : Freeing t u) : Freeing s u where
  seize := k.seize.trans h.seize
  windows := h.windows.trans k.windows
  basin := fun j => by
    obtain ⟨_, _, _, hj⟩ := h.basin j
    obtain ⟨_, _, _, kj⟩ := k.basin j
    exact ⟨_, _, _, by rw [kj, hj]⟩

theorem foldl {α : Type} (f : State → α → State) (hf : ∀ s a, Freeing s (f s a)) (l : List α) (s : State) : Freeing s (l.foldl f s) := by
  induction l generalizing s with
  | nil => exact refl s
  | cons a l ih => exact (hf s a).trans (ih _)

theorem ofRelaying (h : Relaying s t) : Freeing s t where
  seize := h.seize
  windows := h.window
  basin := fun j => by
    obtain ⟨l, hl⟩ := h.basin j
    exact ⟨l, _, _, hl⟩

theorem modCore (s : State) (n : Nat) (f : Core → Core) : Freeing s (s.modCore n f) := ⟨rfl, .refl s, fun _ => ⟨_, _, _, rfl⟩⟩

/-- A basin that changes only what it has saved, the phases it prefers now, and its step. -/
theorem modBasin (s : State) (b : Nat) {f : Basin → Basin} (hf : ∀ v : Basin, ∃ l p k, f v = { v with saved := l, preferNow := p, step := k }) :
    Freeing s (s.modBasin b f) where
  seize := rfl
  windows := .refl s
  basin := fun j => by
    rcases eq_or_ne j b with rfl | hne
    · obtain ⟨l, p, k, h⟩ := hf (s.basin j)
      exact ⟨l, p, k, (State.basin_modBasin _ _ _).trans h⟩
    · exact ⟨_, _, _, State.basin_setBasin_ne _ hne _⟩

theorem resetGates (s : State) (n : Nat) : Freeing s (resetGates s n) := by
  unfold Machine.resetGates
  have hwithdraw := Relaying.foldl _ (fun t o => Relaying.withdrawOp t o true) ((s.core n).gops.filter (fun o => o.result.isNone)) s
  exact (ofRelaying hwithdraw).trans (modCore _ _ _)

theorem startCore (s : State) (b n : Nat) (arg : W64) : Freeing s (startCore s b n arg) :=
  ((resetGates s n).trans (modCore _ _ _)).trans (modBasin _ _ (f := fun v => { v with preferNow := v.prefer }) fun _ => ⟨_, _, _, rfl⟩)

theorem state (h : Freeing s t) (j : Nat) : (t.basin j).state = (s.basin j).state ∧ (t.basin j).rect = (s.basin j).rect
    ∧ (t.basin j).former = (s.basin j).former := by
  obtain ⟨_, _, _, hj⟩ := h.basin j
  rw [hj]
  exact ⟨rfl, rfl, rfl⟩

end Freeing

namespace IdleStays

variable {s t u : State}

theorem refl (s : State) : IdleStays s s := fun _ => id

theorem trans (h : IdleStays s t) (k : IdleStays t u) : IdleStays s u := fun m hm => k m (h m hm)

theorem ofRelaying (h : Relaying s t) : IdleStays s t := fun m hm => by
  obtain ⟨l, hl, -⟩ := h.core m
  rw [hl]
  exact hm

theorem ofDie (h : t.die.cores = s.die.cores) : IdleStays s t := fun m hm => by
  rw [State.core, h]
  exact hm

end IdleStays

section
variable {s : State} {z : Seizure}

/-! ### Its parts (R221, R444, R455) -/

/-- From `s` to `t` the die and the seizure are as they were. -/
def Steady (s t : State) : Prop := t.die = s.die ∧ t.seize = s.seize

theorem Steady.trans {t u : State} (h : Steady s t) (k : Steady t u) : Steady s u := ⟨k.1.trans h.1, k.2.trans h.2⟩

theorem Steady.foldl {α : Type} (f : State → α → State) (hf : ∀ s a, Steady s (f s a)) (l : List α) (s : State) : Steady s (l.foldl f s) := by
  induction l generalizing s with
  | nil => exact ⟨rfl, rfl⟩
  | cons a l ih => exact (hf s a).trans (ih _)

theorem Sending.steady {t : State} (h : Sending s t) : Steady s t := ⟨h.die, h.seize⟩

theorem Steady.revokeIncoming (k : Nat) (l : List Nat) (s : State) : Steady s
    (l.foldl (fun t q => t.modPort q (fun p => { p with incoming := p.incoming.map (fun e => (e.1, e.2.revoke k)) })) s) := by
  induction l generalizing s with
  | nil => exact ⟨rfl, rfl⟩
  | cons q l ih =>
    rw [List.foldl_cons]
    exact Steady.trans ⟨State.setPort_die s q _, State.setPort_seize s q _⟩ (ih _)

theorem Steady.revokePackets (s : State) (k : Nat) : Steady s (revokePackets s k) := by
  unfold Machine.revokePackets
  have hports := Steady.revokeIncoming k (List.range 20) s
  dsimp only
  generalize List.foldl _ s (List.range 20) = u at hports ⊢
  refine hports.trans (Steady.trans (t := { u with dma := { u.dma with reads := u.dma.reads.filter (fun e => gaWindow e.1.ga != k) } }) ⟨rfl, rfl⟩ ?_)
  exact Steady.foldl (fun t (e : XferHdr × Byte) => Machine.postDone t e.1.src (byte k) dcRevoked e.1.xfer e.1.chan e.1.index 0)
    (fun _ _ => (Sending.postDone _ _ _ _ _ _ _ _).steady) _ _

theorem Steady.stopWindow (s : State) (k : Nat) (c : Byte) : Steady s (stopWindow s k .revoked c) := by
  unfold Machine.stopWindow
  dsimp only
  rw [if_pos rfl]
  obtain ⟨v, hv⟩ : ∃ v, v = s.setWindow k { s.window k with
    state := .revoked
    queue := []
    ended := ((s.window k).queue.filter (fun g => g.held != 0)).map (fun g => (g.fa, g.chan, c)) ++ (s.window k).ended } := ⟨_, rfl⟩
  rw [← hv]
  have hset : Steady s v := by
    rw [hv]
    exact ⟨rfl, rfl⟩
  have hreds := Reducing.abortReds (Machine.revokePackets v k) (fun e => e.window == k)
  have hflush := fun t : State => (Sending.flush t).steady
  exact (((hset.trans (.revokePackets v k)).trans ⟨hreds.die, hreds.seize⟩).trans
    (Steady.foldl _ (fun _ _ => (Sending.postDone _ _ _ _ _ _ _ _).steady) _ _)).trans (hflush _)

theorem Steady.stopWindows (s : State) (b : Nat) (ks : List Nat) : Steady s (stopWindows s b ks 1).1 := by
  have hstop : ∀ t : State, Steady t (ks.foldl (fun t k => if (1 : Nat) = 1 then Machine.stopWindow t k .revoked dcRevoked
      else Machine.stopWindow t k .closed dcNoWindow) t) :=
    Steady.foldl _ (fun t k => by rw [if_pos rfl]; exact Steady.stopWindow t k dcRevoked) ks
  have hsend : ∀ (t : State) (fa : W16) (m : Nat), Steady t (sendRevocation t fa 1 b m) := fun t fa m =>
    Steady.trans (t := { t with dma := { t.dma with revNo := t.dma.revNo + 1 } }) ⟨rfl, rfl⟩ (Sending.send _ _).steady
  exact (hstop s).trans (Steady.foldl _ (fun t fa => hsend t fa _) _ _)

/-! ### The cores are captured (R221, R456, R481) -/

theorem captureCore_freeing (b : Nat) (s : State) (n : Nat) : Freeing s (captureCore b s n) := by
  unfold captureCore
  dsimp only
  generalize hw : s.write _ _ = w
  have hwrite : Freeing s w := by
    rw [← hw]
    exact ⟨rfl, .refl s, fun _ => ⟨_, _, _, rfl⟩⟩
  exact (hwrite.trans (.modBasin _ _ fun _ => ⟨_, _, _, rfl⟩)).trans (.modCore _ _ _)

theorem captureCore_idle (b : Nat) (s : State) (n : Nat) : IdleStays s (captureCore b s n) ∧ ((captureCore b s n).core n).run = .idle := by
  unfold captureCore
  dsimp only
  generalize hu : State.modBasin _ _ _ = u
  have hcores : u.die.cores = s.die.cores := by
    rw [← hu]
    rfl
  refine ⟨fun m hm => ?_, ?_⟩
  · rcases eq_or_ne m n with rfl | hne
    · rw [State.core_modCore_same]
      rfl
    · rw [State.core_modCore_ne _ hne, State.core, hcores]
      exact hm
  · rw [State.core_modCore_same]
    rfl

theorem captureCores_idle (b : Nat) (l : List Nat) : ∀ s : State, IdleStays s (l.foldl (captureCore b) s)
    ∧ ∀ n ∈ l, ((l.foldl (captureCore b) s).core n).run = .idle := by
  induction l with
  | nil => exact fun s => ⟨.refl s, nofun⟩
  | cons a l ih =>
    intro s
    obtain ⟨hstay, hidle⟩ := captureCore_idle b s a
    obtain ⟨ihstay, ihidle⟩ := ih (captureCore b s a)
    rw [List.foldl_cons]
    refine ⟨hstay.trans ihstay, fun n hn => ?_⟩
    rcases List.mem_cons.mp hn with rfl | hn
    · exact ihstay n hidle
    · exact ihidle n hn

theorem endLives_relaying (s : State) (l : List Nat) : Relaying s (endLives s l).1 := by
  have h : ∀ (l : List Nat) (a : State × Nat), Relaying a.1 (l.foldl (fun a n => let r := endLife a.1 n; (r.1, a.2 + r.2)) a).1 := by
    intro l
    induction l with
    | nil => exact fun a => .refl a.1
    | cons n l ih =>
      intro a
      rw [List.foldl_cons]
      exact (Relaying.endLife a.1 n).trans (ih ((endLife a.1 n).1, a.2 + (endLife a.1 n).2))
  exact h l (s, 0)

theorem lateEntry_frame (s : State) (u : Bool) (o : Origin) (d : List Byte) :
    ∃ v l m, lateEntry s u o d = { s with svc := v, ledger := l, sent := m } := by
  unfold lateEntry
  dsimp only
  rw [append_frame]
  exact ⟨_, _, _, rfl⟩

theorem enlarge_spec (s : State) (z : Seizure) (k : Nat) (added : List Nat) (former : Rect) :
    Freeing (s.setBasin k { s.basin k with rect := (s.basin k).rect.union former }) (enlarge s z k added former)
    ∧ (z.start = false → enlarge s z k added former = s.setBasin k { s.basin k with rect := (s.basin k).rect.union former }) := by
  unfold enlarge
  dsimp only
  obtain ⟨u, hu⟩ : ∃ u, u = s.setBasin k { s.basin k with rect := (s.basin k).rect.union former } := ⟨_, rfl⟩
  rw [← hu]
  cases z.start with
  | false => exact ⟨.refl u, fun _ => rfl⟩
  | true =>
    refine ⟨?_, nofun⟩
    exact (Freeing.foldl (fun t n => startCore t k n (s.basin k).arg) (fun t n => .startCore t k n _) _ u).trans
      (.modBasin _ _ fun _ => ⟨_, _, _, rfl⟩)

/-! ### The commit (R170, R482) -/

/-- What a commit gives: the seizure is over, its basin is seized and has no rectangle, and its open windows are revoked. -/
structure Seized (s t : State) (b : Nat) : Prop where
  seize : t.seize = none
  state : (t.basin b).state = .seized
  former : (t.basin b).former = (s.basin b).rect
  rect : (t.basin b).rect = {}
  windows : ∀ j : Fin 64, (s.window j).basin = b → (s.window j).state = .opened → (t.window j).state = .revoked

/-- The state in which the seized cores are captured and their lives have ended. -/
def seizedCores (z : Seizure) (s : State) : State :=
  (endLives ((s.basin z.basin).rect.nodes.foldl (captureCore z.basin) (stopWindows s z.basin (windowsOf s z.basin (· == .opened)) 1).1)
    ((s.basin z.basin).rect.nodes.filter (hasCore s))).1

theorem seizedCores_spec (z : Seizure) (s : State) : (∀ j, ∃ l p k, (seizedCores z s).basin j = { s.basin j with saved := l, preferNow := p, step := k })
    ∧ (∀ m ∈ (s.basin z.basin).rect.nodes, ((seizedCores z s).core m).run = .idle)
    ∧ ∀ j : Fin 64, (s.window j).basin = z.basin → (s.window j).state = .opened → ((seizedCores z s).window j).state = .revoked := by
  obtain ⟨ws, hws⟩ : ∃ ws, ws = windowsOf s z.basin (· == .opened) := ⟨_, rfl⟩
  have hsteady := Steady.stopWindows s z.basin ws
  obtain ⟨hrevoked, -⟩ := stopWindows_state z.basin ws s
  unfold seizedCores
  rw [← hws]
  generalize (stopWindows s z.basin ws 1).1 = t at *
  have hfree := Freeing.foldl (captureCore z.basin) (captureCore_freeing z.basin) (s.basin z.basin).rect.nodes t
  obtain ⟨-, hidle⟩ := captureCores_idle z.basin (s.basin z.basin).rect.nodes t
  generalize (s.basin z.basin).rect.nodes.foldl (captureCore z.basin) t = u at *
  have hend := endLives_relaying u ((s.basin z.basin).rect.nodes.filter (hasCore s))
  generalize (endLives u ((s.basin z.basin).rect.nodes.filter (hasCore s))).1 = v at *
  refine ⟨fun j => ?_, fun m hm => IdleStays.ofRelaying hend m (hidle m hm), fun j hb ho => ?_⟩
  · obtain ⟨l, p, k, hj⟩ := (hfree.trans (.ofRelaying hend)).basin j
    exact ⟨l, p, k, by rw [hj, State.basin, hsteady.1]; rfl⟩
  · have hmem : (j : Nat) ∈ ws := by
      rw [hws, mem_windowsOf]
      exact ⟨j.isLt, hb, by rw [ho]; rfl⟩
    rw [(hfree.trans (.ofRelaying hend)).windows.state]
    exact hrevoked j hmem

/-- ... with its gang suspended and its basin seized. -/
def freedBasin (z : Seizure) (s : State) : State :=
  (suspendGang (seizedCores z s) z.basin true).modBasin z.basin (fun w => { w with
    state := .seized
    former := w.rect
    rect := {}
    revoked := (stopWindows s z.basin (windowsOf s z.basin (· == .opened)) 1).2 })

/-- The recipient, if there is one, takes the rectangle that the basin had in `s`. -/
def recipientTakes (z : Seizure) (s t : State) : State :=
  match z.recipient with
  | some k => enlarge t z k ((s.basin z.basin).rect.nodes.filter (goodNode s)) (s.basin z.basin).rect
  | none => t

theorem commitSeizure_shape (z : Seizure) (s : State) : ∃ d r, commitSeizure z s
    = finishLate { recipientTakes z s (lateEntry (freedBasin z s) z.urgent z.origin d) with seize := none } z.urgent stOk r := ⟨_, _, rfl⟩

theorem freedBasin_spec (z : Seizure) (s : State) : ((freedBasin z s).basin z.basin).state = .seized
    ∧ ((freedBasin z s).basin z.basin).former = (s.basin z.basin).rect ∧ ((freedBasin z s).basin z.basin).rect = {}
    ∧ (∀ j, j ≠ z.basin → ((freedBasin z s).basin j).rect = (s.basin j).rect)
    ∧ (freedBasin z s).die.cores = (seizedCores z s).die.cores ∧ (freedBasin z s).dma = (seizedCores z s).dma := by
  obtain ⟨hbasin, -, -⟩ := seizedCores_spec z s
  obtain ⟨u, hu⟩ : ∃ u, u = suspendGang (seizedCores z s) z.basin true := ⟨_, rfl⟩
  have hsame : u.die = (seizedCores z s).die ∧ u.dma = (seizedCores z s).dma := by
    rw [hu]
    exact ⟨rfl, rfl⟩
  have hrect : ∀ j, (u.basin j).rect = (s.basin j).rect := fun j => by
    obtain ⟨_, _, _, hj⟩ := hbasin j
    rw [State.basin, hsame.1, ← State.basin, hj]
  unfold freedBasin
  rw [← hu]
  refine ⟨?_, ?_, ?_, fun j hj => ?_, ?_, ?_⟩
  · rw [State.basin_modBasin]
  · rw [State.basin_modBasin]
    exact hrect z.basin
  · rw [State.basin_modBasin]
  · rw [State.modBasin, State.basin_setBasin_ne _ hj]
    exact hrect j
  · rw [← hsame.1]
    rfl
  · rw [← hsame.2]
    rfl

/-- What follows the recipient's part touches neither the die, nor memory, nor a window's state. -/
theorem commitSeizure_after (z : Seizure) (s : State) : ∃ v, (∃ a l m, v = { freedBasin z s with svc := a, ledger := l, sent := m })
    ∧ (commitSeizure z s).seize = none ∧ (commitSeizure z s).die = (recipientTakes z s v).die
    ∧ (commitSeizure z s).store = (recipientTakes z s v).store ∧ SameWindows (recipientTakes z s v) (commitSeizure z s) := by
  obtain ⟨d, r, hshape⟩ := commitSeizure_shape z s
  obtain ⟨v, hv⟩ : ∃ v, v = lateEntry (freedBasin z s) z.urgent z.origin d := ⟨_, rfl⟩
  obtain ⟨a, l, m, hlate⟩ := lateEntry_frame (freedBasin z s) z.urgent z.origin d
  rw [← hv] at hshape hlate
  refine ⟨v, ⟨a, l, m, hlate⟩, ?_⟩
  generalize recipientTakes z s v = w at *
  obtain ⟨e, y, hsend⟩ := finishLate_sending { w with seize := none } z.urgent stOk r
  rw [← hshape] at hsend
  exact ⟨hsend.seize, hsend.die, hsend.store, fun k => hsend.window k⟩

theorem seizureCommit_commits (h : s.seize = some z) (hp : z.phase = 3) (hr : z.recipient.all (fun k => recipientOk s z.basin k) = true) :
    exec .seizureCommit s = .next (commitSeizure z s) := by
  change execSeizureCommit s = _
  unfold execSeizureCommit
  simp only [h, ne_eq, hp, not_true, if_false, hr, if_true]

/-- The commit of a seizure without recipient: the rectangle is free. -/
theorem commit_unclaimed (h : s.seize = some z) (hp : z.phase = 3) (hr : z.recipient = none) : Completes .seizureCommit s (fun t =>
    Seized s t z.basin ∧ ∀ m ∈ (s.basin z.basin).rect.nodes, (t.core m).run = .idle) := by
  obtain ⟨v, ⟨a, l, m, hv⟩, hseize, hdie, -, hwin⟩ := commitSeizure_after z s
  have htakes : recipientTakes z s v = v := by
    unfold recipientTakes
    rw [hr]
  rw [htakes] at hdie hwin
  obtain ⟨hstate, hformer, hrect, -, hcores, hdma⟩ := freedBasin_spec z s
  obtain ⟨-, hidle, hrevoked⟩ := seizedCores_spec z s
  have hvdie : v.die = (freedBasin z s).die := by rw [hv]
  refine ⟨_, seizureCommit_commits h hp (by rw [hr]; rfl), ⟨hseize, ?_, ?_, ?_, fun j hb ho => ?_⟩, fun m hm => ?_⟩
  · rw [State.basin, hdie, hvdie]
    exact hstate
  · rw [State.basin, hdie, hvdie]
    exact hformer
  · rw [State.basin, hdie, hvdie]
    exact hrect
  · rw [hwin.state, State.window, hv]
    exact (congrArg (fun d : Dma => (tget ({} : Window) d.windows j).state) hdma).trans (hrevoked j hb ho)
  · rw [State.core, hdie, hvdie, hcores]
    exact hidle m hm

/-- The commit of a seizure for a recipient that still qualifies: it has the rectangle. -/
theorem commit_claimed {r : Nat} (h : s.seize = some z) (hp : z.phase = 3) (hr : z.recipient = some r) (hok : recipientOk s z.basin r = true) :
    Completes .seizureCommit s (fun t => Seized s t z.basin ∧ (t.basin r).rect = (s.basin r).rect.union (s.basin z.basin).rect
      ∧ (z.start = false → ∀ m ∈ (s.basin z.basin).rect.nodes, (t.core m).run = .idle)) := by
  obtain ⟨v, ⟨a, l, m, hv⟩, hseize, hdie, -, hwin⟩ := commitSeizure_after z s
  have hne : r ≠ z.basin := by
    intro heq
    simp [recipientOk, heq] at hok
  obtain ⟨added, hadded⟩ : ∃ added, added = (s.basin z.basin).rect.nodes.filter (goodNode s) := ⟨_, rfl⟩
  have htakes : recipientTakes z s v = enlarge v z r added (s.basin z.basin).rect := by
    unfold recipientTakes
    rw [hr, hadded]
  rw [htakes] at hdie hwin
  obtain ⟨hfree, hstill⟩ := enlarge_spec v z r added (s.basin z.basin).rect
  obtain ⟨hstate, hformer, hrect, hothers, hcores, hdma⟩ := freedBasin_spec z s
  obtain ⟨-, hidle, hrevoked⟩ := seizedCores_spec z s
  have hvdie : v.die = (freedBasin z s).die := by rw [hv]
  have hvbasin : ∀ j, v.basin j = (freedBasin z s).basin j := fun j => by rw [State.basin, hvdie]; rfl
  obtain ⟨w, hw⟩ : ∃ w, w = v.setBasin r { v.basin r with rect := (v.basin r).rect.union (s.basin z.basin).rect } := ⟨_, rfl⟩
  rw [← hw] at hfree hstill
  obtain ⟨fstate, frect, fformer⟩ := hfree.state z.basin
  obtain ⟨-, rrect, -⟩ := hfree.state r
  have hwz : w.basin z.basin = (freedBasin z s).basin z.basin := by
    rw [hw, State.basin_setBasin_ne _ hne.symm, hvbasin]
  have hwr : (w.basin r).rect = (s.basin r).rect.union (s.basin z.basin).rect := by
    rw [hw, State.basin_setBasin, hvbasin, hothers r hne]
  have hbasin : ∀ j, (commitSeizure z s).basin j = (enlarge v z r added (s.basin z.basin).rect).basin j := fun j => by
    rw [State.basin, hdie]
    rfl
  refine ⟨_, seizureCommit_commits h hp (by rw [hr]; exact hok), ⟨hseize, ?_, ?_, ?_, fun j hb ho => ?_⟩, ?_, fun hs m hm => ?_⟩
  · rw [hbasin, fstate, hwz, hstate]
  · rw [hbasin, fformer, hwz, hformer]
  · rw [hbasin, frect, hwz, hrect]
  · rw [hwin.state, hfree.windows.state, hw, State.window, hv]
    exact (congrArg (fun d : Dma => (tget ({} : Window) d.windows j).state) hdma).trans (hrevoked j hb ho)
  · rw [hbasin, rrect, hwr]
  · have hwcores : w.die.cores = (seizedCores z s).die.cores := by
      rw [hw, ← hcores, ← hvdie]
      rfl
    rw [State.core, hdie, hstill hs, hwcores]
    exact hidle m hm

/-- The record of the only core of a seized basin (R221). -/
theorem commit_record {n : Nat} (h : s.seize = some z) (hp : z.phase = 3) (hr : z.recipient = none) (hn : (s.basin z.basin).rect.nodes = [n])
    (hsaved : ∃ e, (s.basin z.basin).saved = [e] ∧ e.pos = (s.basin z.basin).rect.position n ∧ validCond e.cond = true)
    (hgood : goodNode s n = true) (hwin : s.dma.windows = []) : Completes .seizureCommit s (fun t =>
      t.store.mem = s.store.mem.write (recordAddress (s.basin z.basin) ((s.basin z.basin).rect.position n))
        (coreRecord (s.core n) true n ((s.basin z.basin).rect.position n))) := by
  obtain ⟨v, ⟨a, l, m, hv⟩, -, -, hstore, -⟩ := commitSeizure_after z s
  have htakes : recipientTakes z s v = v := by
    unfold recipientTakes
    rw [hr]
  have hnone : windowsOf s z.basin (· == .opened) = [] := by
    refine List.eq_nil_iff_forall_not_mem.mpr fun k hk => ?_
    obtain ⟨-, -, hopen⟩ := mem_windowsOf.mp hk
    rw [State.window, hwin] at hopen
    simp [tget] at hopen
  have hvalid : ((s.basin z.basin).saved.any (fun e => e.pos == (s.basin z.basin).rect.position n && validCond e.cond) && goodNode s n) = true := by
    obtain ⟨e, he, hpos, hcond⟩ := hsaved
    rw [he, hgood]
    simp [hpos, hcond]
  have hcapture : (captureCore z.basin s n).store.mem = s.store.mem.write (recordAddress (s.basin z.basin) ((s.basin z.basin).rect.position n))
      (coreRecord (s.core n) true n ((s.basin z.basin).rect.position n)) := by
    unfold captureCore
    simp only [hvalid, if_true]
    rfl
  have hseized : (seizedCores z s).store = (captureCore z.basin s n).store := by
    unfold seizedCores
    rw [hnone, stopWindows_nil, hn, List.foldl_cons, List.foldl_nil]
    exact (endLives_relaying _ _).store
  have hfreed : (freedBasin z s).store = (seizedCores z s).store := by
    unfold freedBasin
    generalize seizedCores z s = u
    rfl
  have hclaimed : z.recipient.all (fun k => recipientOk s z.basin k) = true := by rw [hr, Option.all_none]
  have hmem : (commitSeizure z s).store.mem = s.store.mem.write (recordAddress (s.basin z.basin) ((s.basin z.basin).rect.position n))
      (coreRecord (s.core n) true n ((s.basin z.basin).rect.position n)) := by
    rw [hstore, htakes, hv, hfreed, hseized, hcapture]
  exact ⟨_, seizureCommit_commits h hp hclaimed, hmem⟩

end

end Sys2Proof.Machine
end

section
/-! PROOFS. Gates, transfers and cores that go on: what a release and a seizure that gives up leave alone (R65, R114, R172, R420, R435,
R443). -/

namespace Sys2Proof.Machine

/-- From `s` to `t` memory is as it was, and so are the seizure, the state of each window, and what each basin is. -/
structure Going (s t : State) : Prop where
  store : t.store = s.store
  seize : t.seize = s.seize
  windows : SameWindows s t
  basin : ∀ j, ∃ l p k m, t.basin j = { s.basin j with saved := l, preferNow := p, step := k, rerunMark := m } ∧ ((s.basin j).saved = [] → l = [])

namespace Going

variable {s t u : State}

theorem refl (s : State) : Going s s := ⟨rfl, rfl, .refl s, fun _ => ⟨_, _, _, _, rfl, id⟩⟩

theorem trans (h : Going s t) (k : Going t u) : Going s u where
  store := k.store.trans h.store
  seize := k.seize.trans h.seize
  windows := h.windows.trans k.windows
  basin := fun j => by
    obtain ⟨l, _, _, _, hj, hl⟩ := h.basin j
    obtain ⟨_, _, _, _, kj, hk⟩ := k.basin j
    rw [hj] at kj hk
    exact ⟨_, _, _, _, kj, fun hs => hk (hl hs)⟩

/-- The later step first: what it begins from is known from what it ends in. -/
theorem after (k : Going t u) (h : Going s t) : Going s u := h.trans k

theorem ite {p : Prop} [Decidable p] (h : Going s t) (k : Going s u) : Going s (if p then t else u) := by
  split
  · exact h
  · exact k

theorem foldl {α : Type} (f : State → α → State) (hf : ∀ s a, Going s (f s a)) (l : List α) (s : State) : Going s (l.foldl f s) := by
  induction l generalizing s with
  | nil => exact refl s
  | cons a l ih => exact (hf s a).trans (ih _)

theorem sending (h : Sending s t) : Going s t :=
  ⟨h.store, h.seize, .sending h, fun j => ⟨_, _, _, _, by rw [State.basin, h.die]; rfl, id⟩⟩

/-- A change of cores, lives and nodes, of gates, of the fabric and of transfers. -/
theorem of_parts (hstore : t.store = s.store) (hseize : t.seize = s.seize) (hw : t.dma.windows = s.dma.windows) (hb : t.die.basins = s.die.basins) :
    Going s t :=
  ⟨hstore, hseize, .of_eq hw, fun j => ⟨_, _, _, _, by rw [State.basin, hb]; rfl, id⟩⟩

theorem modCore (s : State) (n : Nat) (f : Core → Core) : Going s (s.modCore n f) := of_parts rfl rfl rfl rfl
theorem setCore (s : State) (n : Nat) (c : Core) : Going s (s.setCore n c) := of_parts rfl rfl rfl rfl
theorem setGate (s : State) (g : Nat) (v : Gate) : Going s (s.setGate g v) := of_parts rfl rfl rfl rfl
theorem setChan (s : State) (c : Nat) (v : Channel) : Going s (s.setChan c v) := of_parts rfl rfl rfl rfl
theorem setXfer (s : State) (c : Nat) (x : Transfer) : Going s (setXfer s c x) := setChan _ _ _
theorem send (s : State) (p : Packet) : Going s (s.send p) := sending (Sending.send _ _)
theorem control (s : State) (d : W16) (c : Byte) (b : List Byte) : Going s (control s d c b) := sending (Sending.control _ _ _ _)
theorem emit (s : State) (m : Sent) : Going s (s.emit m) := sending (Sending.emit _ _)
theorem event (s : State) (c : W16) (d : List Byte) : Going s (event s c d) := sending (Sending.event _ _ _)
theorem background (s : State) (o : Origin) (r : W16) (d : List Byte) : Going s (background s o r d) := sending (Acting.appendLater _ _)

theorem modBasin (s : State) (b : Nat) {f : Basin → Basin}
    (hf : ∀ v : Basin, ∃ l p k m, f v = { v with saved := l, preferNow := p, step := k, rerunMark := m } ∧ (v.saved = [] → l = [])) :
    Going s (s.modBasin b f) where
  store := rfl
  seize := rfl
  windows := .refl s
  basin := fun j => by
    rcases eq_or_ne j b with rfl | hne
    · obtain ⟨l, p, k, m, h, hl⟩ := hf (s.basin j)
      exact ⟨l, p, k, m, (State.basin_modBasin _ _ _).trans h, hl⟩
    · exact ⟨_, _, _, _, State.basin_setBasin_ne _ hne _, id⟩

/-! ### Gates -/

theorem deliverHere (s : State) (tag : W32) (w : W64) (d : Option W64) : Going s (deliverHere s tag w d) where
  store := rfl
  seize := rfl
  windows := .refl s
  basin := fun j => ⟨_, _, _, _, tget_map_values (d := ({} : Basin))
      (g := fun e => { e with saved := e.saved.map (fun v => { v with core := v.core.deliver tag w d }) }) rfl s.die.basins j, fun h => by
    change (s.basin j).saved.map _ = []
    rw [h]
    rfl⟩

theorem deliver (s : State) (w : Waiter) (v : W64) : Going s (deliver s w v) := ite (deliverHere _ _ _ _) (send _ _)

theorem wake (s : State) (g : Nat) (p : Waiter → Bool) (word : Waiter → W64) : Going s (wake s g p word) := by
  unfold Machine.wake
  exact (foldl (fun t w => Machine.deliver t w (word w)) (fun t w => deliver t w _) _ _).after (setGate _ _ _)

theorem touchGate (s : State) (g : Nat) (who : Option Nat) : Going s (touchGate s g who) := by
  unfold Machine.touchGate
  split
  · exact ite (refl s) (modBasin _ _ fun _ => ⟨_, _, _, _, rfl, id⟩)
  · exact refl s

/-- An addition to a gate: to its counter, or, where it is none, to nothing. -/
theorem gateAdd (s : State) (g : Nat) (w : Waiter) (own : Option Nat) (x : W16) : Going s (gateOperate s g 0 w own x).1 := by
  unfold gateOperate
  split
  · refine (touchGate s g own).trans ?_
    generalize Machine.touchGate s g own = t
    by_cases hk : (t.gate g).kind = .counter
    · rw [gateEffect_add rfl hk]
      exact (setGate _ _ _).trans (wake _ _ _ _)
    · rw [gateEffect_add_wrong rfl hk]
      exact refl t
  · exact refl s

theorem gateIncrement (s : State) (fa : W16) (g : BitVec 7) (b : Nat) (x : W16) (c : Bool) (v : W64) : Going s (gateIncrement s fa g b x c v) := by
  unfold Machine.gateIncrement
  exact ite (gateAdd _ _ _ _ _) (ite (refl s) ((send _ _).after (of_parts rfl rfl rfl rfl)))

theorem dueBarrier (s : State) (g : Nat) : Going s (dueBarrier s g) := by
  unfold Machine.dueBarrier
  split
  next k _ =>
    split
    · exact refl s
    · refine (foldl (fun t (w : Waiter) => Machine.deliverHere t w.tag (plainStatus gsOk) (some (edgeIn20 s))) (fun _ _ => deliverHere _ _ _ _) _ _).after ?_
      exact (foldl (fun t (f : W16) => t.emit (.gang f k.master k.num (.release (byte g) (edgeIn20 s)))) (fun _ _ => emit _ _) _ _).after
        (setGate _ _ _)
  · exact refl s

theorem resumeGang (s : State) (b : Nat) : Going s (suspendGang s b false) := by
  unfold suspendGang
  dsimp only
  rw [if_neg Bool.false_ne_true]
  exact (foldl Machine.dueBarrier dueBarrier _ _).after (of_parts rfl rfl rfl rfl)

theorem resendGates (s : State) (n : Nat) : Going s (resendGates s n) := by
  unfold Machine.resendGates
  dsimp only
  exact (foldl _ (fun _ _ => send _ _) _ _).after (modCore _ _ _)

theorem withdrawOp (s : State) (o : GateOp) (b : Bool) : Going s (withdrawOp s o b) := by
  unfold Machine.withdrawOp
  dsimp only
  have hcontrol := control s o.fa 0x44 (leBytes 4 o.tag.toNat ++ [byte o.gate.toNat])
  exact ite (hcontrol.trans (of_parts rfl rfl rfl rfl)) (setGate _ _ _)

theorem resetGates (s : State) (n : Nat) : Going s (resetGates s n) := by
  unfold Machine.resetGates
  have hwithdraw := foldl _ (fun t o => withdrawOp t o true) ((s.core n).gops.filter (fun o => o.result.isNone)) s
  exact hwithdraw.trans (modCore _ _ _)

/-! ### Transfers (R428, R432, R435, R443) -/

theorem retireDma (s : State) (c : Nat) (n : Option Nat) : Going s (retireDma s c n) := by
  unfold Machine.retireDma
  split
  · exact modCore _ _ _
  · exact refl s

theorem releaseCredits (s : State) (c : Nat) (x : Transfer) : Going s (releaseCredits s c x) := sending (releaseCredits_sending s c x)

theorem endTransfer (s : State) (c : Nat) (x : Transfer) (cause : Byte) : Going s (endTransfer s c x cause) := by
  unfold Machine.endTransfer
  dsimp only
  have hrelease := releaseCredits s c x
  generalize Machine.releaseCredits s c x = t at hrelease ⊢
  obtain ⟨v, hv⟩ : ∃ v : Channel, v = if cause = 0 then { t.chan c with xfer := none } else { { t.chan c with xfer := none } with
    cause := cause, causeXfer := x.xfer } := ⟨_, rfl⟩
  rw [← hv]
  have hretire := (hrelease.trans (setChan t c v)).trans (retireDma _ c x.node)
  generalize Machine.retireDma (t.setChan c v) c x.node = w at hretire ⊢
  cases x.gate with
  | none =>
    cases x.origin with
    | none => exact hretire
    | some o => exact hretire.trans (background _ _ _ _)
  | some g =>
    have hgate := fun y => hretire.trans (gateIncrement w g.1 g.2 x.basin x.tenant y (if cause = 0 then 0x1 else 0x100000001))
    cases x.origin with
    | none => exact hgate _
    | some o => exact (hgate _).trans (background _ _ _ _)

theorem settle (s : State) (c : Nat) : Going s (settle s c) := by
  unfold Machine.settle
  split
  · exact refl s
  · exact ite (refl s) (ite (ite (refl s) (endTransfer _ _ _ _)) (ite (endTransfer _ _ _ _) (refl s)))

theorem requestCredits (s : State) (c : Nat) (x : Transfer) : Going s (requestCredits s c x) := (control _ _ _ _).after (setXfer _ _ _)

theorem resumeCore (s : State) (n : Nat) (b : Bool) : Going s (resumeCore s n b) := modCore _ _ _

end Going

/-- A read notes nothing where no word fails. -/
theorem noteRead_sound {s : State} (h : s.store.mem.flips = []) (b : Option Nat) (c : Byte) (a n : Nat) : s.noteRead b c a n = s := note_whole h _ _ _

theorem loadBuffer_sound {s : State} (h : s.store.mem.flips = []) (x : Transfer) : (loadBuffer s x).1 = s := by
  have hfold : ∀ l : List Nat, l.foldl (fun u k => u.noteRead (if x.node.isSome then some x.basin else none) (if x.node.isSome then 0 else 3)
      (x.laddr + x.unit * k) (x.bytesOf k)) s = s := by
    intro l
    induction l with
    | nil => rfl
    | cons k l ih => rw [List.foldl_cons, noteRead_sound h, ih]
  exact hfold _

/-- A transfer as its basin's release lets it go on. -/
def resumedXfer (move : Nat → Nat) (x0 : Transfer) : Transfer :=
  let x : Transfer := { x0 with node := x0.node.map move }
  if x.cause = 0 then { x with
    suspended := false
    first := x.heldFirst
    pkts := x.pkts.map (fun p => match p with
      | .sent => if x.isAdd then PktState.sent else .todo
      | .doneOk => .todo
      | q => q) }
  else { x with suspended := false }

/-- One channel of the released basin goes on. -/
def resumeOne (move : Nat → Nat) (t : State) (c : Nat) : State :=
  match (t.chan c).xfer with
  | some x0 =>
    let x := resumedXfer move x0
    if x.cause != 0 || x.isAdd then settle (run (setXfer t c x) c) c
    else if x.pkts.any (fun p => p == .todo) then requestCredits (setXfer t c x) c x else settle (setXfer t c x) c
  | none => t

theorem resumeChannels_eq (s : State) (b : Nat) (move : Nat → Nat) : resumeChannels s b move = (channelsOf s b).foldl (resumeOne move) s := rfl

namespace Going

variable {s t u : State}

theorem pump (n : Nat) (c : Nat) : ∀ s : State, s.store.mem.flips = [] → Going s (pump n s c) := by
  induction n with
  | zero => exact fun s _ => refl s
  | succ n ih =>
    intro s h
    unfold Machine.pump
    split
    · exact refl s
    · dsimp only
      rw [loadBuffer_sound h]
      split
      · exact refl s
      · split
        · exact setXfer _ _ _
        · split
          · have hsend : ∀ (p : Packet) (x : Transfer), Going s (Machine.setXfer (s.send p) c x) := fun p x => (send s p).trans (setXfer _ _ _)
            exact (hsend _ _).trans (ih _ (by rw [(hsend _ _).store]; exact h))
          · exact setXfer _ _ _

theorem run (h : s.store.mem.flips = []) (c : Nat) : Going s (run s c) := by
  unfold Machine.run
  dsimp only
  have hpump := fun n => pump n c s h
  split
  · exact ite ((hpump _).trans (retireDma _ _ _)) (hpump _)
  · exact hpump _

theorem resumeOne (h : s.store.mem.flips = []) (move : Nat → Nat) (c : Nat) : Going s (resumeOne move s c) := by
  unfold Machine.resumeOne
  split
  · dsimp only
    generalize resumedXfer move _ = x
    have hset := setXfer s c x
    exact ite (hset.trans ((run (by rw [hset.store]; exact h) c).trans (settle _ _))) (ite (hset.trans (requestCredits _ _ _)) (hset.trans (settle _ _)))
  · exact refl s

theorem resumeChannels (h : s.store.mem.flips = []) (b : Nat) (move : Nat → Nat) : Going s (resumeChannels s b move) := by
  rw [resumeChannels_eq]
  generalize channelsOf s b = l
  induction l generalizing s with
  | nil => exact refl s
  | cons c l ih =>
    rw [List.foldl_cons]
    have hone := resumeOne h move c
    exact hone.trans (ih (by rw [hone.store]; exact h))

end Going

end Sys2Proof.Machine
end

section
/-! PROOFS. A seizure that gives up, its begin, the release of a basin, and the statement of the seizure rows (R114, R169 to R172,
R443, R480 to R485). -/

namespace Sys2Proof.Machine

/-! ### A seizure that cannot commit (R65, R114, R347) -/

/-- From `s` to `t` memory is as it was, no seizure has begun, and the basins keep their state and their rectangle. -/
structure Undone (s t : State) : Prop where
  store : t.store = s.store
  seize : t.seize = s.seize
  state : ∀ j, (t.basin j).state = (s.basin j).state ∧ (t.basin j).rect = (s.basin j).rect

namespace Undone

variable {s t u : State}

theorem refl (s : State) : Undone s s := ⟨rfl, rfl, fun _ => ⟨rfl, rfl⟩⟩

theorem trans (h : Undone s t) (k : Undone t u) : Undone s u :=
  ⟨k.store.trans h.store, k.seize.trans h.seize, fun j => ⟨(k.state j).1.trans (h.state j).1, (k.state j).2.trans (h.state j).2⟩⟩

theorem ofGoing (h : Going s t) : Undone s t where
  store := h.store
  seize := h.seize
  state := fun j => by
    obtain ⟨_, _, _, _, hj, -⟩ := h.basin j
    rw [hj]
    exact ⟨rfl, rfl⟩

theorem ofClearing (h : Clearing s t) : Undone s t where
  store := h.store
  seize := (congrArg State.seize h.rest :)
  state := fun j => by
    obtain ⟨_, _, _, hj⟩ := h.basin j
    rw [hj]
    exact ⟨rfl, rfl⟩

theorem modBasin (s : State) (b : Nat) {f : Basin → Basin} (hf : ∀ v : Basin, (f v).state = v.state ∧ (f v).rect = v.rect) : Undone s (s.modBasin b f) where
  store := rfl
  seize := rfl
  state := fun j => by
    rcases eq_or_ne j b with rfl | hne
    · rw [State.basin_modBasin]
      exact hf _
    · rw [State.modBasin, State.basin_setBasin_ne _ hne]
      exact ⟨rfl, rfl⟩

theorem startCore (s : State) (b n : Nat) (arg : W64) : Undone s (startCore s b n arg) :=
  (ofGoing ((Going.resetGates s n).trans (.modCore _ _ _))).trans (modBasin _ _ (f := fun v => { v with preferNow := v.prefer }) fun _ => ⟨rfl, rfl⟩)

theorem foldl {α : Type} (f : State → α → State) (hf : ∀ s a, Undone s (f s a)) (l : List α) (s : State) : Undone s (l.foldl f s) := by
  induction l generalizing s with
  | nil => exact refl s
  | cons a l ih => exact (hf s a).trans (ih _)

theorem restartStep (s : State) (b : Nat) (k : Step) : Undone s (restartStep s b k) := by
  unfold Machine.restartStep
  dsimp only
  generalize k.gates.filter _ = gs
  have hgates := Going.foldl (fun t (e : Nat × Gate) => restoreGate t e.1 e.2) (fun _ _ => .setGate _ _ _) gs s
  generalize gs.foldl (fun t (e : Nat × Gate) => restoreGate t e.1 e.2) s = t at hgates ⊢
  have hcores := foldl (fun t n => Machine.startCore t b n k.arg) (fun _ _ => startCore _ _ _ _) (basinCores s b) t
  exact ((ofGoing hgates).trans hcores).trans (modBasin _ _ fun _ => ⟨rfl, rfl⟩)

theorem rerunStep (s : State) (b : Nat) (k : Step) : Undone s (rerunStep s b k) := by
  unfold Machine.rerunStep
  dsimp only
  have hstop : Undone s (stopStep s b) := by
    unfold stopStep
    exact foldl _ (fun t n => ofGoing ((Going.resetGates t n).trans (.modCore _ _ _))) _ s
  split
  · exact hstop.trans ⟨rfl, rfl, fun _ => ⟨rfl, rfl⟩⟩
  · exact hstop.trans (restartStep _ _ _)

end Undone

section
variable {s : State} {z : Seizure}

/-- A seized core goes on where it ran at the stop. -/
def resumeSeized (v : Basin) (t : State) (n : Nat) : State :=
  if v.saved.any (fun e => e.pos == v.rect.position n && e.cond == .running) && (t.core n).run == .stopped then resumeCore t n false else t

/-- A basin whose seizure has given up acts on what a detection has marked meanwhile. -/
def actOnMarks (b : Nat) (v : Basin) (t : State) : State :=
  if v.savedVoid then basinReset t b 3
  else match v.rerunMark, v.step with
    | true, some k => rerunStep t b k
    | _, _ => t

theorem undoSeizure_eq (z : Seizure) (s : State) : undoSeizure z s = settleReads (actOnMarks z.basin (s.basin z.basin)
    (resumeChannels ((s.basin z.basin).rect.nodes.foldl resendGates ((s.basin z.basin).rect.nodes.foldl (resumeSeized (s.basin z.basin))
      ({ s with seize := none }.modBasin z.basin (fun v => { v with saved := [], savedVoid := false, rerunMark := false })))) z.basin id)) := rfl

theorem actOnMarks_undone (b : Nat) (v : Basin) (t : State) : Undone t (actOnMarks b v t) := by
  unfold actOnMarks
  split
  · exact .ofClearing (.basinReset _ _ _)
  · split
    · exact .rerunStep _ _ _
    · exact .refl t

/-- A seizure that gives up leaves the basin active where it was, and memory as it was. -/
theorem undoSeizure_undone (hs : Sound s) (z : Seizure) : Undone { s with seize := none } (undoSeizure z s) := by
  rw [undoSeizure_eq]
  generalize s.basin z.basin = v
  obtain ⟨u, hu⟩ : ∃ u, u = ({ s with seize := none }.modBasin z.basin (fun v => { v with saved := [], savedVoid := false, rerunMark := false }) : State) :=
    ⟨_, rfl⟩
  have hbase : Undone { s with seize := none } u := hu ▸ Undone.modBasin _ _ fun _ => ⟨rfl, rfl⟩
  have hstore : u.store = s.store := by rw [hu]; rfl
  rw [← hu]
  have hresume : Going u (v.rect.nodes.foldl (resumeSeized v) u) :=
    Going.foldl _ (fun t n => by unfold resumeSeized; exact Going.ite (.resumeCore _ _ _) (.refl t)) _ u
  have hresend := hresume.trans (Going.foldl resendGates Going.resendGates v.rect.nodes _)
  generalize v.rect.nodes.foldl resendGates (v.rect.nodes.foldl (resumeSeized v) u) = w at hresend ⊢
  have hchans := hresend.trans (.resumeChannels (by rw [hresend.store, hstore]; exact hs.flips) z.basin id)
  generalize resumeChannels w z.basin id = x at hchans ⊢
  have hall := (hbase.trans (.ofGoing hchans)).trans (actOnMarks_undone z.basin v x)
  rw [settleReads_none _ (by rw [hall.store]; exact hs.found)]
  exact hall

theorem commit_givesUp {r : Nat} (h : s.seize = some z) (hp : z.phase = 3) (hr : z.recipient = some r) (hbad : recipientOk s z.basin r = false)
    (hs : Sound s) : Completes .seizureCommit s (fun t => t.seize = none ∧ (t.basin z.basin).state = (s.basin z.basin).state
      ∧ (t.basin z.basin).rect = (s.basin z.basin).rect ∧ t.store = s.store) := by
  have hundone := undoSeizure_undone hs z
  obtain ⟨e, v, hsend⟩ := finishLate_sending (undoSeizure z s) z.urgent stConflict (some [])
  have hexec : exec .seizureCommit s = .next (finishLate (undoSeizure z s) z.urgent stConflict (some [])) := by
    change execSeizureCommit s = _
    unfold execSeizureCommit
    simp only [h, ne_eq, hp, not_true, if_false, hr, Option.all_some, hbad, Bool.false_eq_true]
  have hbasin : (finishLate (undoSeizure z s) z.urgent stConflict (some [])).basin z.basin = (undoSeizure z s).basin z.basin := by
    rw [State.basin, hsend.die]
    rfl
  obtain ⟨hstate, hrect⟩ := hundone.state z.basin
  refine ⟨_, hexec, hsend.seize.trans hundone.seize, ?_, ?_, hsend.store.trans hundone.store⟩
  · rw [hbasin]
    exact hstate
  · rw [hbasin]
    exact hrect

/-! ### WINDOW_CLOSE_DRAINED (R180) -/

theorem closeDrained_busy {w : Fin 64} (hb : windowBusy s w = true) : exec (.windowCloseDrained w) s = .next s := by
  change execWindowCloseDrained w s = _
  unfold execWindowCloseDrained
  simp only [hb, Bool.not_true, Bool.and_false, Bool.false_eq_true, if_false]
  split <;> rfl

theorem closeDrained_answers {w : Fin 64} {k : InService} (hb : windowBusy s w = false) (hk : s.svc.normal = some k) (hw : k.waiting = true)
    (hc : k.cmd = 0x1203) (ha : k.req.arg 16 1 = (w : Nat)) : exec (.windowCloseDrained w) s
      = .next (respond { s with svc := { s.svc with normal := none } } k.cmd k.req stOk k.result k.ledger) := by
  have hcode : (k.cmd == cmdWindowClose.code) = true := by
    rw [hc]
    rfl
  change execWindowCloseDrained w s = _
  unfold execWindowCloseDrained
  simp only [hb, hk, hw, hcode, ha, beq_self_eq_true, Bool.not_false, Bool.and_self, if_true]
  unfold finishLate
  simp only [Bool.false_eq_true, if_false, hk, Option.getD_none]

theorem closeDrained_other {w : Fin 64} (h : ∀ k, s.svc.normal = some k → ¬(k.waiting = true ∧ k.cmd = 0x1203 ∧ k.req.arg 16 1 = (w : Nat))) :
    exec (.windowCloseDrained w) s = .next s := by
  change execWindowCloseDrained w s = _
  unfold execWindowCloseDrained
  cases hk : s.svc.normal with
  | none => rfl
  | some k =>
    have hnot := h k hk
    have hcond : ¬(k.waiting && k.cmd == cmdWindowClose.code && k.req.arg 16 1 == (w : Nat) && !windowBusy s w) = true := by
      intro hall
      simp only [Bool.and_eq_true, beq_iff_eq] at hall
      exact hnot ⟨hall.1.1.1, hall.1.1.2, hall.1.2⟩
    exact congrArg _ (if_neg hcond)

/-! ### BASIN.SEIZE (R170, R220) -/

/-- From `s` to `t` memory is as it was, no core has begun to run, and no engine has taken an operation. -/
structure Stilling (s t : State) : Prop where
  store : t.store = s.store
  engine : ∀ m, (s.core m).v = [] → (t.core m).v = []
  run : ∀ m, (s.core m).run ≠ .running → (t.core m).run ≠ .running

namespace Stilling

variable {s t u : State}

theorem refl (s : State) : Stilling s s := ⟨rfl, fun _ => id, fun _ => id⟩

theorem trans (h : Stilling s t) (k : Stilling t u) : Stilling s u :=
  ⟨k.store.trans h.store, fun m hm => k.engine m (h.engine m hm), fun m hm => k.run m (h.run m hm)⟩

/-- A core that changes neither its engine nor, but for ceasing to run, what it does. -/
theorem modCore (s : State) (n : Nat) {f : Core → Core} (hv : ∀ c : Core, c.v = [] → (f c).v = [])
    (hr : ∀ c : Core, c.run ≠ .running → (f c).run ≠ .running) : Stilling s (s.modCore n f) where
  store := rfl
  engine := fun m hm => by
    rcases eq_or_ne m n with rfl | hne
    · rw [State.core_modCore_same]
      exact hv _ hm
    · rw [State.core_modCore_ne _ hne]
      exact hm
  run := fun m hm => by
    rcases eq_or_ne m n with rfl | hne
    · rw [State.core_modCore_same]
      exact hr _ hm
    · rw [State.core_modCore_ne _ hne]
      exact hm

theorem ofRelaying (h : Relaying s t) : Stilling s t where
  store := h.store
  engine := fun m hm => by
    obtain ⟨l, hl, -⟩ := h.core m
    rw [hl]
    exact hm
  run := fun m hm => by
    obtain ⟨l, hl, -⟩ := h.core m
    rw [hl]
    exact hm

end Stilling

theorem endStrip_keeps (c : Core) : (endStrip c).v = c.v ∧ (endStrip c).run = c.run := by
  unfold endStrip
  split
  · exact ⟨rfl, rfl⟩
  next r _ =>
    constructor
    · change (List.foldl _ c r.out).v = c.v
      refine foldl_keeps _ Core.v ?_ r.out c
      exact fun _ _ => rfl
    · change (List.foldl _ c r.out).run = c.run
      refine foldl_keeps _ Core.run ?_ r.out c
      exact fun _ _ => rfl

/-- An engine that holds nothing is quiet. -/
theorem quietV_nothing {n : Nat} (h : (s.core n).v = []) : ∃ f : Core → Core, quietV s n = s.modCore n f ∧ (∀ c, (f c).v = []) ∧ ∀ c, (f c).run = c.run := by
  have habandon : abandonV s n = s := by
    unfold abandonV
    rw [h]
  unfold quietV
  simp only [h, habandon, List.filter_nil, List.foldl_nil]
  exact ⟨_, rfl, fun _ => rfl, fun _ => rfl⟩

theorem busyWrites_engine (l : List GateOp) : ∀ c : Core, (l.foldl (fun c o => { c.setS o.sd.toNat (plainStatus gsBusy) with
    gops := (c.setS o.sd.toNat (plainStatus gsBusy)).gops.filter (fun x => x.tag != o.tag) }) c).v = c.v := by
  refine foldl_keeps _ Core.v (fun c o => ?_) l
  change (c.setS o.sd.toNat (plainStatus gsBusy)).v = c.v
  unfold Core.setS
  split <;> rfl

theorem stopGates_stills (s : State) (n : Nat) : Stilling s (stopGates s n) := by
  unfold stopGates
  dsimp only
  have hrel := withdrawOps_relaying ((s.core n).gops.filter (fun o => o.op == 0x02 && o.result.isNone)) s
  refine (Stilling.ofRelaying hrel).trans (.modCore _ _ (fun c hc => ?_) fun c hc => ?_)
  · exact (busyWrites_engine _ c).trans hc
  · rw [(busyWrites_run _ c).1]
    exact hc

/-- A core whose engine holds nothing comes to rest. -/
theorem restCore_rests {n : Nat} (hv : (s.core n).v = []) : Stilling s (restCore s n) ∧ ((restCore s n).core n).run ≠ .running := by
  have hstrip : Stilling s (s.modCore n endStrip) := .modCore s n (fun c hc => (endStrip_keeps c).1.trans hc) fun c hc => by
    rw [(endStrip_keeps c).2]
    exact hc
  have hrun : ((s.modCore n endStrip).core n).run = (s.core n).run := by rw [State.core_modCore_same, (endStrip_keeps _).2]
  obtain ⟨f, hquiet, hfv, hfr⟩ := quietV_nothing (hstrip.engine n hv)
  have hstill : Stilling s ((s.modCore n endStrip).modCore n f) := hstrip.trans (.modCore _ _ (fun c _ => hfv c) fun c hc => by
    rw [hfr]
    exact hc)
  have hother : (s.core n).run ≠ .running → (s.core n).run ≠ .halted → restCore s n = s.modCore n endStrip := fun h1 h2 => by
    unfold restCore
    rw [hv]
    split
    next h => exact absurd h h1
    next h => exact absurd h h2
    next => rfl
  by_cases h1 : (s.core n).run = .running
  · have hrest : restCore s n = stopGates (((s.modCore n endStrip).modCore n f).modCore n (fun c => { c with
        run := .stopped, staged := [], miss := none, fetching := [], stepping := false })) n := by
      unfold restCore stopCore
      simp only [h1, hquiet]
    rw [hrest]
    generalize (s.modCore n endStrip).modCore n f = t at hstill ⊢
    have hstop : Stilling t (t.modCore n (fun c => { c with run := .stopped, staged := [], miss := none, fetching := [], stepping := false })) :=
      .modCore _ _ (fun _ => id) fun _ _ => nofun
    refine ⟨(hstill.trans hstop).trans (stopGates_stills _ _), (stopGates_stills _ n).run n ?_⟩
    rw [State.core_modCore_same]
    exact nofun
  · by_cases h2 : (s.core n).run = .halted
    · have hrest : restCore s n = (s.modCore n endStrip).modCore n f := by
        unfold restCore
        simp only [h2, hquiet]
      rw [hrest]
      refine ⟨hstill, ?_⟩
      rw [State.core_modCore_same, hfr, hrun]
      exact h1
    · rw [hother h1 h2]
      exact ⟨hstrip, by rw [hrun]; exact h1⟩

theorem restCores_rest (l : List Nat) : ∀ s : State, (∀ m ∈ l, (s.core m).v = []) → Stilling s (l.foldl restCore s)
    ∧ ∀ m ∈ l, ((l.foldl restCore s).core m).run ≠ .running := by
  induction l with
  | nil => exact fun s _ => ⟨.refl s, nofun⟩
  | cons n l ih =>
    intro s hv
    obtain ⟨hone, hrun⟩ := restCore_rests (hv n List.mem_cons_self)
    obtain ⟨hall, hruns⟩ := ih (restCore s n) (fun m hm => hone.engine m (hv m (List.mem_cons_of_mem _ hm)))
    rw [List.foldl_cons]
    refine ⟨hone.trans hall, fun m hm => ?_⟩
    rcases List.mem_cons.mp hm with rfl | hm
    · exact hall.run m hrun
    · exact hruns m hm

/-- The begin of a seizure: its cores rest, and memory is as it was. -/
theorem beginSeizure_spec (z : Seizure) (hf : s.store.found = []) (hv : ∀ m ∈ (s.basin z.basin).rect.nodes, (s.core m).v = []) :
    (beginSeizure z s).store = s.store ∧ (beginSeizure z s).seize = some z
    ∧ ∀ m ∈ (s.basin z.basin).rect.nodes, ((beginSeizure z s).core m).run ≠ .running := by
  obtain ⟨hstill, hruns⟩ := restCores_rest (s.basin z.basin).rect.nodes s hv
  unfold beginSeizure
  dsimp only
  generalize (s.basin z.basin).rect.nodes.foldl restCore s = t at hstill hruns ⊢
  rw [settleReads_none _ (by exact (congrArg Store.found hstill.store).trans hf)]
  exact ⟨hstill.store, rfl, hruns⟩

/-- The seizure that a request without recipient begins. -/
def seizureOf (r : Request) (o : Origin) : Seizure where
  basin := r.arg 16 1
  recipient := none
  start := bit (r.arg 18 1) 0
  urgent := r.urgent
  phase := 0
  locks := 0
  flags := 0
  origin := o

theorem seizeBody_ok {r : Request} (hb : r.arg 16 1 ≤ 31) (hk : r.arg 17 1 = 0xFF) (hs : r.arg 18 1 ≤ 1) (hq : seizable s (r.arg 16 1) = true) :
    seizeBody r s = { late := true, commit := fun o s => beginSeizure (seizureOf r o) s } := by
  have h1 : ¬(31 < r.arg 16 1 ∨ (31 < r.arg 17 1 ∧ r.arg 17 1 ≠ 0xFF) ∨ 1 < r.arg 18 1) := by omega
  have h2 : ¬((!seizable s (r.arg 16 1)) = true ∨ (r.arg 17 1 ≠ 0xFF ∧ (!recipientOk s (r.arg 16 1) (r.arg 17 1)) = true)) := by
    rw [hq, hk]
    simp
  unfold seizeBody
  dsimp only
  rw [if_neg h1, if_neg h2, if_pos hk]
  rfl

theorem seize_begins {r : Request} (ha : Admitted cmdBasinSeize r s) (hb : r.arg 16 1 ≤ 31) (hk : r.arg 17 1 = 0xFF) (hs : r.arg 18 1 ≤ 1)
    (hq : seizable s (r.arg 16 1) = true) (hv : ∀ m ∈ (s.basin (r.arg 16 1)).rect.nodes, (s.core m).v = []) (hf : s.store.found = []) :
    Completes (.basinSeize r) s (fun t => t.store = s.store ∧ (∀ m ∈ (s.basin (r.arg 16 1)).rect.nodes, (t.core m).run ≠ .running)
      ∧ ∃ y, t.seize = some y ∧ y.basin = r.arg 16 1 ∧ y.recipient = none ∧ y.start = bit (r.arg 18 1) 0 ∧ y.phase = 0) := by
  obtain ⟨hat, hgen, hcheck⟩ := ha
  obtain ⟨u, hu⟩ : ∃ u, u = serviceStart cmdBasinSeize r s := ⟨_, rfl⟩
  have hframe : ∃ e v, u = { s with eps := e, svc := v } := ⟨_, _, hu.trans (serviceStart_frame _ _ _)⟩
  obtain ⟨e, v, hframe⟩ := hframe
  obtain ⟨f, hf'⟩ : ∃ f : Origin → State → State, f = fun o s => beginSeizure (seizureOf r o) s := ⟨_, rfl⟩
  have hreply : replyTo cmdBasinSeize r u = { late := true, commit := f } := by
    unfold replyTo
    rw [hu, hgen, ← hu, hf']
    exact seizeBody_ok hb hk hs (by rw [hframe]; exact hq)
  have hserve := serve_of_passes (c := cmdBasinSeize) (r := r) (u := u) (by rw [hreply]; rfl) hcheck
  rw [hreply] at hserve
  have hexec : exec (.basinSeize r) s = .next (keepWaiting (f (originOf u cmdBasinSeize r) u) cmdBasinSeize r { late := true, commit := f } none) := by
    rw [exec_servedAtOnce rfl hat, ← hu]
    exact congrArg _ hserve
  obtain ⟨z, hz⟩ : ∃ z : Seizure, z = seizureOf r (originOf u cmdBasinSeize r) := ⟨_, rfl⟩
  have hbegin : f (originOf u cmdBasinSeize r) u = beginSeizure z u := by rw [hf', hz]
  obtain ⟨hstore, hseize, hruns⟩ := beginSeizure_spec (s := u) z (by rw [hframe]; exact hf) (by rw [hframe, hz]; exact hv)
  rw [hbegin] at hexec
  refine ⟨_, hexec, ?_, fun m hm => ?_, z, hseize, by rw [hz]; rfl, by rw [hz]; rfl, by rw [hz]; rfl, by rw [hz]; rfl⟩
  · exact hstore.trans (by rw [hframe])
  · exact hruns m (by rw [hframe, hz]; exact hm)

/-! ### BASIN.RELEASE (R172, R222, R443) -/

/-- A window of the released basin opens again. -/
def openWindow (u : State) (w : Nat) : State := u.setWindow w { u.window w with state := .opened }

/-- The windows that a release names are open, and the others are as they were. -/
theorem openWindows_state (l : List Nat) : ∀ u : State, (∀ w ∈ l, ((l.foldl openWindow u).window w).state = .opened)
    ∧ ∀ w, w ∉ l → ((l.foldl openWindow u).window w).state = (u.window w).state := by
  induction l with
  | nil => exact fun u => ⟨nofun, fun _ _ => rfl⟩
  | cons k l ih =>
    intro u
    obtain ⟨hin, hout⟩ := ih (openWindow u k)
    rw [List.foldl_cons]
    refine ⟨fun w hw => ?_, fun w hw => ?_⟩
    · by_cases hl : w ∈ l
      · exact hin w hl
      · obtain rfl : w = k := (List.mem_cons.mp hw).resolve_right hl
        rw [hout w hl, openWindow, State.window_setWindow]
    · obtain ⟨hne, hl⟩ := not_or.mp (List.mem_cons.not.mp hw)
      rw [hout w hl, openWindow, State.window_setWindow_ne _ hne]

theorem Going.sendRevocation (s : State) (fa : W16) (a b m : Nat) : Going s (sendRevocation s fa a b m) :=
  (Going.send _ _).after (.of_parts rfl rfl rfl rfl)

theorem Going.restoreCore (s : State) (v : Basin) (t : Rect) (e : Saved) : Going s (restoreCore false v t s e) := by
  unfold Machine.restoreCore
  dsimp only
  split
  · exact .refl s
  · rw [if_neg (fun h => Bool.false_ne_true h.1)]
    exact (Going.setCore _ _ _).trans (.resendGates _ _)

/-- The basin that a release leaves: active at the target, with nothing saved. -/
def releasedBasin (t : Rect) (w : Basin) : Basin := { w with
  state := .active
  rect := t
  former := {}
  saved := []
  savedVoid := false
  rerunMark := false
  revoked := []
  master := nodeAt t (w.former.position w.master)
  step := w.step.map (moveStep w t) }

theorem releaseBasin_eq (b : Nat) (t : Rect) (s : State) : releaseBasin b false t false false s = settleReads (resumeChannels
    ((s.basin b).saved.foldl (restoreCore false (s.basin b) t) (suspendGang (((s.basin b).revoked.foldl (fun u fa =>
      sendRevocation u fa 0 b (maskOf (windowsOf s b (· == .revoked)))) ((windowsOf s b (· == .revoked)).foldl openWindow s)).modBasin b
        (releasedBasin t)) b false)) b (moveNode (s.basin b) t)) := by
  rfl

/-- A basin that returns whole is active at the target; its windows are open, and memory is as it was. -/
theorem releaseBasin_spec (b : Nat) (t : Rect) (hs : Sound s) : let u := releaseBasin b false t false false s
    (u.basin b).state = .active ∧ (u.basin b).rect = t ∧ (u.basin b).saved = [] ∧ u.store = s.store
    ∧ ∀ j : Fin 64, (s.window j).basin = b → (s.window j).state = .revoked → (u.window j).state = .opened := by
  obtain ⟨ws, hws⟩ : ∃ ws, ws = windowsOf s b (· == .revoked) := ⟨_, rfl⟩
  rw [releaseBasin_eq, ← hws]
  generalize s.basin b = v
  obtain ⟨hopen, -⟩ := openWindows_state ws s
  have hstore1 : (ws.foldl openWindow s).store = s.store := foldl_keeps openWindow State.store (fun _ _ => rfl) ws s
  generalize ws.foldl openWindow s = s1 at *
  have hsend := Going.foldl (fun u fa => sendRevocation u fa 0 b (maskOf ws)) (fun _ _ => .sendRevocation _ _ _ _ _) v.revoked s1
  generalize v.revoked.foldl (fun u fa => sendRevocation u fa 0 b (maskOf ws)) s1 = s2 at hsend ⊢
  obtain ⟨w, hw⟩ : ∃ w, w = s2.modBasin b (releasedBasin t) := ⟨_, rfl⟩
  have hwb : w.basin b = releasedBasin t (s2.basin b) := by rw [hw, State.basin_modBasin]
  have hwstore : w.store = s.store := by
    rw [hw]
    exact hsend.store.trans hstore1
  have hwwin : ∀ k, w.window k = s2.window k := fun k => by rw [hw]; rfl
  rw [← hw]
  have hcores := (Going.resumeGang w b).trans (Going.foldl (restoreCore false v t) (fun _ _ => .restoreCore _ _ _ _) v.saved _)
  generalize v.saved.foldl (restoreCore false v t) (suspendGang w b false) = x at hcores ⊢
  have hgo := hcores.trans (.resumeChannels (by rw [hcores.store, hwstore]; exact hs.flips) b (moveNode v t))
  generalize resumeChannels x b (moveNode v t) = y at hgo ⊢
  have hystore := hgo.store.trans hwstore
  dsimp only
  rw [settleReads_none _ (by rw [hystore]; exact hs.found)]
  obtain ⟨l, _, _, _, hb, hl⟩ := hgo.basin b
  rw [hwb] at hb hl
  rw [hb]
  refine ⟨rfl, rfl, hl rfl, hystore, fun j hj hr => ?_⟩
  rw [hgo.windows.state, hwwin, hsend.windows.state]
  refine hopen j ?_
  rw [hws, mem_windowsOf]
  exact ⟨j.isLt, hj, by rw [hr]; rfl⟩

/-- The reply to a release to the basin's former rectangle, without START. -/
theorem releaseBody_ok {r : Request} {b : Nat} (hb : r.arg 16 1 = b) (hle : b ≤ 31) (h17 : r.arg 17 1 = 0) (h18 : r.arg 18 1 = 0xFF)
    (h19 : r.arg 19 1 = 0xFF) (hstate : (s.basin b).state = .seized) (ht : targetBad s (s.basin b) (s.basin b).former = false)
    (hrec : recordBad s (s.basin b) = none) (hvoid : (s.basin b).savedVoid = false) (hmark : (s.basin b).rerunMark = false)
    (hload : (s.basin b).load = none) : ∃ d, releaseBody r s = { detail := some d
                                                                 commit := fun _ s' => releaseBasin b false (s.basin b).former false false s' } := by
  have htarget : releaseTarget r (s.basin b) = (s.basin b).former := by
    unfold releaseTarget
    rw [if_pos h18]
  have hbit : bit 0 0 = false := rfl
  unfold releaseBody
  simp only [hb, h17, h18, h19, htarget, ht, hrec, hvoid, hmark, hload, hstate, hbit, beq_self_eq_true, bne_self_eq_false, Bool.and_self,
    Bool.not_true, Bool.false_eq_true, false_and, ne_eq, not_true, if_false, Option.isSome_none, Bool.or_self, Bool.false_and,
    Nat.not_lt.mpr hle, show ¬(1 < 0) by omega, or_self]
  exact ⟨_, rfl⟩

theorem release_returns {r : Request} {b : Nat} (ha : Admitted cmdBasinRelease r s) (hb : r.arg 16 1 = b) (hle : b ≤ 31) (h17 : r.arg 17 1 = 0)
    (h18 : r.arg 18 1 = 0xFF) (h19 : r.arg 19 1 = 0xFF) (hstate : (s.basin b).state = .seized)
    (ht : targetBad s (s.basin b) (s.basin b).former = false) (hrec : recordBad s (s.basin b) = none) (hvoid : (s.basin b).savedVoid = false)
    (hmark : (s.basin b).rerunMark = false) (hload : (s.basin b).load = none) (hs : Sound s) :
    AnsweredAfter (.basinRelease r) cmdBasinRelease r s stOk [] (some s.ledger.head) (fun t => (t.basin b).state = .active
      ∧ (t.basin b).rect = (s.basin b).former ∧ (t.basin b).saved = [] ∧ t.store = s.store
      ∧ ∀ j : Fin 64, (s.window j).basin = b → (s.window j).state = .revoked → (t.window j).state = .opened) := by
  obtain ⟨d, hbody⟩ := releaseBody_ok hb hle h17 h18 h19 hstate ht hrec hvoid hmark hload
  refine answeredAfter_of_commit (a := { detail := some d, commit := fun _ s' => releaseBasin b false (s.basin b).former false false s' })
    rfl ha (fun e v => ?_) rfl rfl rfl fun o e v l m _ => ?_
  · have hsame : releaseBody r { s with eps := e, svc := v } = releaseBody r s := rfl
    exact hsame.trans hbody
  · exact releaseBasin_spec (s := { s with eps := e, svc := v, ledger := l, sent := m }) b (s.basin b).former ⟨hs.flips, hs.found⟩

end

/-- Settles O55: each row in each of its phases by its own lemma; what a detection has marked meanwhile ends with the seizure
(log 90). -/
theorem seizureRowsGoThroughTheirPhases : Obligations.SeizureRowsGoThroughTheirPhases := by
  unfold Obligations.SeizureRowsGoThroughTheirPhases
  intro z w k n s
  dsimp only
  refine ⟨fun h => ?_, fun h => ?_, ?_, ?_, ?_, ?_, ?_, ?_, ?_, ?_, ?_, ?_, ?_, ?_, ?_, fun r => ⟨?_, ?_⟩⟩
  · exact ⟨congrArg _ (advance_none h _ _), congrArg _ (advance_none h _ _), congrArg _ (advance_none h _ _), seizureCommit_none h⟩
  · exact ⟨fun hp => congrArg _ (advance_other h hp _), fun hp => congrArg _ (advance_other h hp _), fun hp => congrArg _ (advance_other h hp _),
      fun hp => seizureCommit_other h hp⟩
  · exact fun ⟨h, hp⟩ hb => seizureQuiesced_busy h hp hb
  · exact fun ⟨h, hp⟩ hb => seizureQuiesced_rests h hp hb
  · exact fun ⟨h, hp⟩ ho => flumeFence_open h hp ho
  · exact fun ⟨h, hp⟩ hq hr hw => flumeFence_done h hp hq hr hw
  · exact fun ⟨h, hp⟩ hq => fabricFence_done h hp hq
  · exact fun ⟨h, hp⟩ hq => fabricFence_open h hp hq
  · intro ⟨h, hp⟩ hr
    obtain ⟨t, ht, hfree, hidle⟩ := commit_unclaimed h hp hr
    exact ⟨t, ht, ⟨hfree.seize, hfree.state, hfree.former, hfree.rect, hfree.windows⟩, hidle⟩
  · exact fun ⟨h, hp⟩ hr hn hsaved hgood hwin _ => commit_record h hp hr hn hsaved hgood hwin
  · intro r ⟨h, hp⟩ hr hok
    obtain ⟨t, ht, hfree, hrect, hidle⟩ := commit_claimed h hp hr hok
    exact ⟨t, ht, ⟨hfree.seize, hfree.state, hfree.former, hfree.rect, hfree.windows⟩, hrect, hidle⟩
  · exact fun r ⟨h, hp⟩ hr hbad hs => commit_givesUp h hp hr hbad hs
  · exact closeDrained_busy
  · exact fun hb hk hw hc ha => closeDrained_answers hb hk hw hc ha
  · exact closeDrained_other
  · exact fun ha hb hk hs hq hv hf => seize_begins ha hb hk hs hq hv hf
  · exact fun ha hle h17 h18 h19 hstate ht hrec hvoid hmark hload hs =>
      release_returns ha rfl hle h17 h18 h19 hstate ht hrec hvoid hmark hload hs

end Sys2Proof.Machine
end

section
/-! PROOFS. What a link row leaves of the ports: one port set, the others as they were, and a chiplet with nothing on its way out
(R376 to R388). -/

namespace Sys2Proof.Machine

@[simp] theorem State.setPort_setPort (s : State) (q : Nat) (p v : Port) : (s.setPort q p).setPort q v = s.setPort q v := by
  simp [State.setPort]

/-! ### Nothing waits to leave -/

/-- No port and no place of the fabric holds a packet. -/
def NothingOut (s : State) : Prop := (∀ q < 20, (s.port q).queue = []) ∧ s.fabric.waiting = []

theorem Calm.nothingOut {s : State} (h : Calm s) : NothingOut s := ⟨fun q hq => h.queues ⟨q, hq⟩, h.waiting⟩

namespace NothingOut

variable {s t : State}

theorem sendOne (h : NothingOut s) : sendOne s = none := by
  refine List.findSome?_eq_none_iff.mpr fun q hq => ?_
  rw [h.1 q (List.mem_range.mp hq)]
  simp

theorem startOne (h : NothingOut s) : startOne s = none := by
  rw [Machine.startOne, h.2]
  rfl

/-- With nothing to leave a flush does nothing. -/
theorem flush (h : NothingOut s) : flush s = s := by
  obtain ⟨n, hn⟩ : ∃ n, 10000 + s.fabric.waiting.length = n + 1 := ⟨9999 + s.fabric.waiting.length, by omega⟩
  rw [Machine.flush, hn, flushN, h.sendOne, h.startOne]

theorem setPort (h : NothingOut s) (q : Nat) {p : Port} (hp : p.queue = []) : NothingOut (s.setPort q p) := by
  refine ⟨fun j hj => ?_, h.2⟩
  by_cases hjq : j = q
  · rw [hjq, State.port_setPort]
    exact hp
  · rw [State.port_setPort_ne _ hjq]
    exact h.1 j hj

theorem of_eq (h : NothingOut s) (hl : t.links = s.links) (hw : t.fabric = s.fabric) : NothingOut t := by
  refine ⟨fun j hj => ?_, ?_⟩
  · rw [State.port, hl]
    exact h.1 j hj
  · rw [hw]
    exact h.2

theorem emit (h : NothingOut s) (m : Sent) : NothingOut (s.emit m) := h.of_eq rfl rfl

theorem event (h : NothingOut s) (c : W16) (d : List Byte) : NothingOut (event s c d) :=
  h.of_eq (congrArg State.links (event_frame s c d) :) (congrArg State.fabric (event_frame s c d) :)

end NothingOut

/-! ### One port set -/

/-- From `s` to `t` port `q` has become `v`, and no other has changed. -/
def PortSet (s t : State) (q : Nat) (v : Port) : Prop := t.port q = v ∧ ∀ r : Nat, r ≠ q → t.port r = s.port r

theorem PortSet.setPort (s : State) (q : Nat) (v : Port) : PortSet s (s.setPort q v) q v :=
  ⟨State.port_setPort _ _ _, fun _ hr => State.port_setPort_ne _ hr _⟩

theorem PortSet.of_links {s t u : State} {q : Nat} {v : Port} (h : PortSet s t q v) (hl : u.links = t.links) : PortSet s u q v := by
  obtain ⟨hq, hr⟩ := h
  exact ⟨by rw [State.port, hl]; exact hq, fun r hne => by rw [State.port, hl]; exact hr r hne⟩

/-- From `s` to `t` cores, store and gates stay. -/
def DieStays (s t : State) : Prop := t.die = s.die ∧ t.store = s.store ∧ t.gateUnit = s.gateUnit

namespace DieStays

variable {s t u : State}

theorem refl (s : State) : DieStays s s := ⟨rfl, rfl, rfl⟩
theorem trans (h : DieStays s t) (k : DieStays t u) : DieStays s u :=
  ⟨k.1.trans h.1, k.2.1.trans h.2.1, k.2.2.trans h.2.2⟩
theorem losing (h : Losing s t) : DieStays s t := ⟨h.die, h.store, h.gateUnit⟩
theorem sending (h : Sending s t) : DieStays s t := ⟨h.die, h.store, h.gateUnit⟩

end DieStays

/-! ### A port that does not serve holds its frames -/

/-- From `s` to `t` port `q`, not being UP, has sent no frame. -/
def Unsent (q : Nat) (s t : State) : Prop :=
  (t.port q).state = (s.port q).state ∧ (portUp s q = false → (t.port q).replay = (s.port q).replay)

namespace Unsent

variable {q : Nat} {s t u : State}

theorem refl (q : Nat) (s : State) : Unsent q s s := ⟨rfl, fun _ => rfl⟩

theorem trans (h : Unsent q s t) (k : Unsent q t u) : Unsent q s u := by
  obtain ⟨hst, hr⟩ := h
  obtain ⟨kst, kr⟩ := k
  refine ⟨kst.trans hst, fun hp => (kr ?_).trans (hr hp)⟩
  rwa [portUp, hst]

theorem ite {p : Prop} [Decidable p] (h : Unsent q s t) (k : Unsent q s u) : Unsent q s (if p then t else u) := by
  split
  · exact h
  · exact k

theorem foldl {α : Type} (f : State → α → State) (hf : ∀ s a, Unsent q s (f s a)) (l : List α) (s : State) : Unsent q s (l.foldl f s) := by
  induction l generalizing s with
  | nil => exact refl q s
  | cons a l ih => exact (hf s a).trans (ih _)

theorem ofLinks (h : t.links = s.links) : Unsent q s t := by
  have hp : t.port q = s.port q := by rw [State.port, h, State.port]
  exact ⟨by rw [hp], fun _ => by rw [hp]⟩

theorem modPort (q : Nat) (s : State) (r : Nat) {f : Port → Port} (hs : ∀ p : Port, (f p).state = p.state)
    (hr : ∀ p : Port, (f p).replay = p.replay) : Unsent q s (s.modPort r f) := by
  by_cases h : q = r
  · subst h
    rw [Unsent, State.modPort, State.port_setPort]
    exact ⟨hs _, fun _ => hr _⟩
  · rw [Unsent, State.modPort, State.port_setPort_ne _ h]
    exact ⟨rfl, fun _ => rfl⟩

theorem event (s : State) (c : W16) (d : List Byte) : Unsent q s (event s c d) := ofLinks (congrArg State.links (event_frame s c d) :)

theorem oweFor (s : State) (o : OutPacket) (n : Nat) : Unsent q s (oweFor s o n) := by
  unfold Machine.oweFor
  split
  · exact modPort q _ _ (fun _ => rfl) (fun _ => rfl)
  · exact refl q s

theorem bindTo (s : State) (o : OutPacket) (r vc : Nat) : Unsent q s (bindTo s o r vc) := modPort q _ _ (fun _ => rfl) (fun _ => rfl)

theorem place {o : OutPacket} (h : place s o = some t) : Unsent q s t := by
  unfold Machine.place at h
  dsimp only at h
  split at h
  · cases h
  · split at h
    · obtain ⟨r, -, rfl⟩ := Option.map_eq_some_iff.mp h
      exact bindTo _ _ _ _
    · split at h
      · obtain ⟨r, -, rfl⟩ := Option.map_eq_some_iff.mp h
        exact bindTo _ _ _ _
      · cases h
        exact ofLinks rfl

theorem post (s : State) (p : Packet) : Unsent q s (s.post p) := by
  have hemit : Unsent q s (s.emit (.packet p)) := ofLinks rfl
  unfold State.post
  refine ite (refl q s) (ite hemit (hemit.trans ?_))
  cases h : Machine.place (s.emit (.packet p)) { vc := 0, pkt := p } with
  | none => exact event _ _ _
  | some t => exact place h

theorem postDone (s : State) (fa : W16) (w o : Byte) (x : W16) (c : Byte) (i : W16) (g : Byte) : Unsent q s (postDone s fa w o x c i g) :=
  post _ _

theorem sendGrants (s : State) (k : Nat) (l : List Grant) : Unsent q s (sendGrants s k l) := foldl _ (fun _ _ => post _ _) _ _

theorem setWindow (s : State) (k : Nat) (w : Window) : Unsent q s (s.setWindow k w) := ofLinks rfl

theorem regrant (s : State) (k : Nat) : Unsent q s (regrant s k) := (setWindow s k _).trans (sendGrants _ _ _)

theorem finishPacket (s : State) (h : XferHdr) (o : Byte) (b : Bool) : Unsent q s (finishPacket s h o b) := by
  have hdone : ∀ w g, Unsent q s (Machine.postDone (s.setWindow (gaWindow h.ga) w) h.src (byte (gaWindow h.ga)) o h.xfer h.chan h.index g) :=
    fun w g => (setWindow s _ w).trans (postDone _ _ _ _ _ _ _ _)
  unfold Machine.finishPacket
  dsimp only
  split
  · exact ite ((hdone _ _).trans (regrant _ _)) ((hdone _ _).trans (sendGrants _ _ _))
  · exact hdone _ _

theorem readSent (s : State) (p : Packet) : Unsent q s (readSent s p) := by
  unfold Machine.readSent
  split
  next e he =>
    have hreads : Unsent q s { s with dma := { s.dma with reads := s.dma.reads.erase e } } := ofLinks rfl
    exact hreads.trans (finishPacket _ _ _ _)
  next => exact refl q s

theorem loseUse (s : State) (h : XferHdr) : Unsent q s (loseUse s h) := (setWindow s _ _).trans (regrant _ _)

theorem loseRead (s : State) (p : Packet) : Unsent q s (loseRead s p) := by
  unfold Machine.loseRead
  split
  next e _ =>
    have hreads : Unsent q s { s with dma := { s.dma with reads := s.dma.reads.erase e } } := ofLinks rfl
    exact hreads.trans (loseUse _ _)
  · exact refl q s

theorem tellUnreachable (s : State) (p : Packet) : Unsent q s (tellUnreachable s p) := by
  unfold Machine.tellUnreachable
  dsimp only
  exact ite (ite (refl q s) (postDone _ _ _ _ _ _ _ _)) (ite (ite (refl q s) (postDone _ _ _ _ _ _ _ _)) (refl q s))

/-- A port that is UP alone sends frames. -/
theorem sendFrame (s : State) (r : Nat) (o : OutPacket) (hup : portUp s r = true) : Unsent q s (sendFrame s r o) := by
  obtain ⟨p, m, hp, h⟩ := Sending.sendFrame_eq s r o
  have hset : Unsent q s (s.setPort r p) := by
    by_cases hr : q = r
    · subst hr
      rw [Unsent, State.port_setPort, hp]
      exact ⟨rfl, fun hf => by rw [hup] at hf; cases hf⟩
    · rw [Unsent, State.port_setPort_ne _ hr]
      exact ⟨rfl, fun _ => rfl⟩
  have h1 : Unsent q s ((s.setPort r p).emit m) := hset.trans (ofLinks rfl)
  have h2 := ite (p := o.abort = true) h1 (h1.trans (oweFor _ o 1))
  rw [h]
  exact ite (h2.trans (readSent _ _)) h2

theorem sendOne (h : sendOne s = some t) : Unsent q s t := by
  obtain ⟨r, -, hr⟩ := List.exists_of_findSome?_eq_some h
  split at hr
  next hup =>
    obtain ⟨o, -, rfl⟩ := Option.map_eq_some_iff.mp hr
    simp only [Bool.and_eq_true] at hup
    exact sendFrame _ _ _ hup.1.1
  · cases hr

theorem offer {o : OutPacket} (h : offer s o = some t) : Unsent q s t := by
  have hwait : Unsent q s { s with fabric := { s.fabric with waiting := s.fabric.waiting.erase o } } := ofLinks rfl
  unfold Machine.offer at h
  dsimp only at h
  split at h
  next e _ =>
    cases h
    exact (hwait.trans (modPort q _ e.1 (f := fun p => { p with deficit := e.2 }) (fun _ => rfl) (fun _ => rfl))).trans (bindTo _ o e.1 o.vc)
  next =>
    split at h
    · cases h
      exact hwait.trans (bindTo _ _ _ _)
    · cases h

theorem startOne (h : startOne s = some t) : Unsent q s t := by
  obtain ⟨o, -, ho⟩ := List.exists_of_findSome?_eq_some h
  exact offer ho

theorem flush (s : State) : Unsent q s (flush s) := by
  unfold Machine.flush
  generalize 10000 + s.fabric.waiting.length = n
  induction n generalizing s with
  | zero => exact refl q s
  | succ n ih =>
    unfold flushN
    split
    next t ht => exact (sendOne ht).trans (ih t)
    next =>
      split
      next t ht => exact (startOne ht).trans (ih t)
      next => exact refl q s

theorem offerAll (s : State) (l : List OutPacket) : Unsent q s (offerAll s l) := by
  unfold Machine.offerAll
  dsimp only
  generalize hf : (fun (t : State × List OutPacket) o => match Machine.offerAgain t.1 o with
    | some s' => (s', t.2)
    | none => (Machine.tellUnreachable (Machine.oweFor t.1 o o.kept) o.pkt, t.2 ++ [o])) = f
  have hstep : ∀ t o, Unsent q t.1 (f t o).1 := by
    intro t o
    rw [← hf]
    dsimp only
    split
    next s' hs => exact place hs
    next => exact (oweFor _ _ _).trans (tellUnreachable _ _)
  have hwalk : ∀ (l : List OutPacket) (t : State × List OutPacket), Unsent q t.1 (l.foldl f t).1 := by
    intro l
    induction l with
    | nil => exact fun t => refl q _
    | cons o l ih => exact fun t => (hstep t o).trans (ih _)
  split
  · exact hwalk l (s, [])
  · exact (hwalk l (s, [])).trans (event _ _ _)

end Unsent

/-- A port that has lost its link, as it enters a state without one, keeps no frame. -/
theorem loseLink_unsent (s : State) (q : Nat) (st : Byte) : Unsent q (cutOff s q st) (loseLink s q st) :=
  (((Unsent.event _ _ _).trans (Unsent.foldl _ (fun t o => (Unsent.oweFor t o _).trans (Unsent.loseRead _ _)) _ _)).trans
    (Unsent.offerAll _ _)).trans (Unsent.flush _)

end Sys2Proof.Machine
end

section
/-! PROOFS. Link resets and their causes, REPLAY and its timers, STOP, and the steps of training (R379 to R387, R395). -/

namespace Sys2Proof.Machine

/-! ### A link reset (R383, R384, R391) -/

/-- A port as a link reset begins. -/
def resetPort (s : State) (q : Nat) : Port :=
  { s.port q with state := lnTraining, since := s.time.elapsed, step := 1, resume := (s.port q).resume || portUp s q, reset := true
                  retrains := up16 (s.port q).retrains, naks := 0, nakTimes := [] }

theorem linkReset_eq {s : State} {q : Nat} (h : (s.port q).reset = false) (c : Nat) :
    linkReset s q c = (event s 0xE001 [5, byte c, byte q, 0]).setPort q (resetPort s q) := by
  have hport : (event s 0xE001 [5, byte c, byte q, 0]).port q = s.port q := by rw [State.port, (event_fields _ _ _).1, State.port]
  have htime : (event s 0xE001 [5, byte c, byte q, 0]).time = s.time := (congrArg State.time (event_frame s _ _) :)
  simp only [linkReset, h, Bool.false_eq_true, if_false, attempt, enter, State.modPort, State.port_setPort, State.setPort_setPort, hport,
    htime]
  rfl

/-- What a link reset leaves. -/
theorem linkReset_spec {s : State} {q : Nat} (hh : s.fw.hand = none) (h : (s.port q).reset = false) (c : Nat) :
    PortSet s (linkReset s q c) q (resetPort s q) ∧ (linkReset s q c).ledger.head = s.ledger.head + 1 ∧ DieStays s (linkReset s q c) := by
  rw [linkReset_eq h]
  have hf := event_frame s 0xE001 [5, byte c, byte q, 0]
  have hlinks : (event s 0xE001 [5, byte c, byte q, 0]).links = s.links := (event_fields _ _ _).1
  refine ⟨⟨State.port_setPort _ _ _, fun r hr => ?_⟩, event_head (inPause_none hh) _ _, (congrArg State.die hf :), (congrArg State.store hf :),
    (congrArg State.gateUnit hf :)⟩
  rw [State.port_setPort_ne _ hr, State.port, hlinks, State.port]

section
variable {s : State} {q : Fin 20} (hh : s.fw.hand = none)

/-- The link reset of a port that was UP. -/
def ResetUp (s : State) (q : Fin 20) (t : State) : Prop :=
  PortSet s t q { s.port q with
    state := lnTraining
    since := s.time.elapsed
    step := 1
    resume := true
    reset := true
    retrains := up16 (s.port q).retrains
    naks := 0
    nakTimes := [] } ∧ t.ledger.head = s.ledger.head + 1 ∧ DieStays s t

include hh in
theorem linkReset_up (hup : portUp s q = true) (h : (s.port q).reset = false) (c : Nat) : ResetUp s q (linkReset s q c) := by
  have hspec := linkReset_spec hh h c
  rw [resetPort, hup, Bool.or_true] at hspec
  exact hspec

include hh in
theorem linkSilence_resets (hup : portUp s q = true) (h : (s.port q).reset = false) : Completes (.linkSilence q) s (ResetUp s q) :=
  ⟨_, congrArg Host.Outcome.next (if_pos hup), linkReset_up hh hup h 6⟩

/-- The cause is one of the port's kind. -/
def phyFits (c : PhyCause) (q : Nat) : Bool :=
  match c with
  | .mainband => isD q
  | .fecOrAlignment => !isD q

include hh in
theorem phyError_resets {c : PhyCause} (hup : portUp s q = true) (h : (s.port q).reset = false) (hc : phyFits c q = true) : Completes (.linkPhyError q c) s (ResetUp s q) := by
  refine ⟨_, congrArg Host.Outcome.next (if_pos ?_), linkReset_up hh hup h _⟩
  rw [hup, Bool.true_and]
  exact hc

theorem phyError_ignored {c : PhyCause} (h : (portUp s q && phyFits c q) = false) :
    exec (.linkPhyError q c) s = .next s :=
  congrArg Host.Outcome.next (if_neg (Bool.eq_false_iff.mp h))

theorem isD_of_lt {r : Nat} (h : r < 8) : isD r = true := decide_eq_true h
theorem isD_of_le {r : Nat} (h : 8 ≤ r) : isD r = false := decide_eq_false (by omega)

include hh in
theorem partnerDetected_resets (hl : linksLive s = true) (hup : portUp s q = true) (h : (s.port q).reset = false) :
    Completes (.partnerTrainingDetected q) s (ResetUp s q) := by
  refine ⟨_, ?_, linkReset_up hh hup h 7⟩
  change execPartnerTrainingDetected q s = _
  have hst : (s.port q).state = lnUp := beq_iff_eq.mp hup
  simp only [execPartnerTrainingDetected, hl, hst, Bool.not_true, Bool.false_eq_true, if_false, if_true]

theorem partnerDetected_attempts (hl : linksLive s = true)
    (h : (s.port q).state = lnDown ∨ (s.port q).state = lnMarked ∨ (s.port q).state = lnStopped) : exec (.partnerTrainingDetected q) s
      = .next (s.setPort q { s.port q with state := lnTraining, since := s.time.elapsed, step := 1 }) := by
  have hup : (s.port q).state ≠ lnUp := by
    intro hup
    rw [hup] at h
    revert h
    decide
  change execPartnerTrainingDetected q s = _
  simp only [execPartnerTrainingDetected, hl, hup, h, Bool.not_true, Bool.false_eq_true, if_false, if_true, attempt, enter, State.modPort,
    State.port_setPort, State.setPort_setPort]

/-! ### A port that is not UP, a chiplet whose links do not serve -/

theorem down_ignores (h : portUp s q = false) (raw : List Byte) (fec : Bool) (n : Nat) (seq : BitVec 10) (pkt : Packet) :
    exec (.frameReceive q raw fec n) s = .next s ∧ exec (.replay q seq) s = .next s ∧ exec (.replayResendTimer q) s = .next s
    ∧ exec (.ackTimer q) s = .next s ∧ exec (.linkSilence q) s = .next s ∧ exec (.packetHeaderArrival q pkt) s = .next s
    ∧ ∀ c, exec (.linkPhyError q c) s = .next s := by
  refine ⟨congrArg Host.Outcome.next (if_pos ?_), congrArg Host.Outcome.next (if_neg ?_), congrArg Host.Outcome.next (if_neg ?_),
    congrArg Host.Outcome.next (if_neg ?_), congrArg Host.Outcome.next (if_neg ?_), congrArg Host.Outcome.next (if_neg ?_),
    fun c => phyError_ignored ?_⟩
  all_goals simp [h]

theorem notLive_ignores (h : linksLive s = false) (lanes : W64) (i : Identity) : exec (.trainingStepComplete q lanes) s = .next s
    ∧ exec (.identityExchange q i) s = .next s ∧ exec (.partnerTrainingDetected q) s = .next s := by
  refine ⟨congrArg Host.Outcome.next (if_pos ?_), congrArg Host.Outcome.next (if_pos ?_), congrArg Host.Outcome.next (if_pos ?_)⟩
  all_goals simp [h]

/-! ### REPLAY and the timers (R379, R381, R382) -/

/-- The frame of the replay buffer as it leaves again. -/
def againFrame (p : Port) (q : Nat) (e : SentFrame) : Sent :=
  .frame q (frameBytes { seq := e.seq, ack := p.rxExp, vc := BitVec.ofNat 2 e.vc, kind := e.kind, cvc := e.cvc, ccnt := e.ccnt, body := e.body })

theorem foldl_emit (f : SentFrame → Sent) (l : List SentFrame) (s : State) :
    l.foldl (fun t e => t.emit (f e)) s = { s with sent := s.sent ++ l.map f } := by
  induction l generalizing s with
  | nil => simp
  | cons e l ih =>
    rw [List.foldl_cons, ih, List.map_cons]
    simp [State.emit]

theorem resendFrom_eq (s : State) (q : Nat) (seq : BitVec 10) : resendFrom s q seq = { s with
    sent := s.sent ++ ((s.port q).replay.filter (fun f => !seqBefore f.seq seq)).map (againFrame (s.port q) q) } :=
  foldl_emit (againFrame (s.port q) q) _ s

theorem replay_resends (hup : portUp s q = true) (seq : BitVec 10) : Completes (.replay q seq) s (fun t => t = { s with sent := t.sent }
    ∧ ∀ e ∈ (s.port q).replay, seqBefore e.seq seq = false → againFrame (s.port q) q e ∈ t.sent) := by
  refine ⟨_, (congrArg Host.Outcome.next (if_pos hup)).trans (congrArg _ (resendFrom_eq s q seq)), rfl, fun e he hs => ?_⟩
  refine List.mem_append_right _ (List.mem_map_of_mem (List.mem_filter.mpr ⟨he, ?_⟩))
  rw [hs]
  rfl

theorem sendReplay_eq {q : Nat} (hn : (s.port q).nakTimes = []) : sendReplay s q = { s.setPort q { s.port q with
    naks := (s.port q).naks + 1, nakTimes := [s.time.elapsed], retry := up32' (s.port q).retry } with
      sent := s.sent ++ [.replay q (s.port q).rxExp] } := by
  simp only [sendReplay, hn, List.filter_nil, List.length_singleton, show ¬ 64 ≤ 1 by decide, if_false]
  rfl

theorem replayTimer_asks (hup : portUp s q = true) (hn : (s.port q).naks ≠ 0) (ht : (s.port q).nakTimes = []) :
    exec (.replayResendTimer q) s = .next { s.setPort q { s.port q with
      naks := (s.port q).naks + 1, nakTimes := [s.time.elapsed], retry := up32' (s.port q).retry } with
        sent := s.sent ++ [.replay q (s.port q).rxExp] } := by
  rw [← sendReplay_eq ht]
  refine congrArg Host.Outcome.next (if_pos ?_)
  simp [hup, hn]

theorem ackTimer_answers (hup : portUp s q = true) (h : (s.port q).ackDue = true ∨ (s.port q).owed.any (· != 0) = true) :
    exec (.ackTimer q) s = .next { s.setPort q { s.port q with ackDue := false, heard := 0, owed := [0, 0, 0, 0, 0, 0] } with
      sent := s.sent ++ [.ack q (s.port q).rxExp (s.port q).owed] } := by
  refine congrArg Host.Outcome.next (if_pos ?_)
  rw [hup, Bool.true_and, Bool.or_eq_true]
  exact h

theorem ackTimer_idle (ha : (s.port q).ackDue = false) (ho : (s.port q).owed.any (· != 0) = false) : exec (.ackTimer q) s = .next s := by
  refine congrArg Host.Outcome.next (if_neg ?_)
  rw [ha, ho, Bool.or_self, Bool.and_false]
  exact Bool.false_ne_true

end

end Sys2Proof.Machine
end

section
/-! PROOFS. Ports that lose their link: STOP, and attempts that fail (R387, R393, R395). -/

namespace Sys2Proof.Machine

/-- A port whose packets that come in may have ended, and that has sent. -/
def Port.Kin (p p' : Port) : Prop := ({ p with incoming := p'.incoming } : Port).Alike p'

theorem Port.Alike.kin {p p' : Port} (h : p.Alike p') : p.Kin p' := by
  unfold Port.Kin Port.Alike at *
  rw [h]

theorem Port.Kin.trans {p p' p'' : Port} (h : p.Kin p') (k : p'.Kin p'') : p.Kin p'' := by
  unfold Port.Kin Port.Alike at *
  rw [k, h]

theorem cutIncoming_kin (s : State) (q vc : Nat) : (s.port q).Kin ((cutIncoming s q vc).port q) := by
  unfold cutIncoming
  split
  · exact (Port.Alike.refl _).kin
  next x _ =>
    have h : (s.port q).Kin ((s.modPort q (fun p => { p with incoming := tdel p.incoming vc })).port q) := by
      rw [State.modPort, State.port_setPort]
      exact rfl
    dsimp only
    split
    · exact h.trans (Portwise.cutForward _ _ _ q).kin
    · split
      · exact h.trans ((Granting.loseUse _ _).port q).kin
      · exact h
    · exact h

/-- The port that is cut off is otherwise the one it was. -/
theorem cutOff_kin (s : State) (q : Nat) (st : Byte) : ∃ p, (s.port q).Kin p ∧ (cutOff s q st).port q = p.unlinked st s.time.elapsed := by
  have hwalk : ∀ (l : List Nat) (t : State), (t.port q).Kin ((l.foldl (fun t vc => cutIncoming t q vc) t).port q) := by
    intro l
    induction l with
    | nil => exact fun t => (Port.Alike.refl _).kin
    | cons vc l ih => exact fun t => (cutIncoming_kin t q vc).trans (ih _)
  have hports : ∀ t : State, ∀ j, (forgetPartner t q).port j = t.port j := fun _ _ => rfl
  exact ⟨_, hwalk _ s, (hports _ _).trans (State.port_setPort _ _ _)⟩

/-- A port that has lost its link: its state, nothing kept for replay, and what it records of before. -/
structure Parted (p p' : Port) (st : Byte) : Prop where
  state : p'.state = st
  replay : p'.replay = []
  stopCause : p'.stopCause = p.stopCause
  refusal : p'.refusal = p.refusal
  retrain : p'.retrain = p.retrain

/-- A link that is lost leaves cores, store and gates, and its port without it. -/
theorem loseLink_parted {st : Byte} (hst : st ≠ lnUp) (s : State) (q : Nat) : Parted (s.port q) ((loseLink s q st).port q) st := by
  obtain ⟨p, hp, hcut⟩ := cutOff_kin s q st
  obtain ⟨hstate, hreplay⟩ := loseLink_unsent s q st
  have halike := loseLink_portwise s q st q
  have hst' : ((cutOff s q st).port q).state = st := by
    rw [hcut]
    rfl
  have hdown : portUp (cutOff s q st) q = false := by
    rw [portUp, hst']
    exact beq_false_of_ne hst
  rw [hcut] at halike
  unfold Port.Kin Port.Alike at hp
  refine ⟨hstate.trans hst', (hreplay hdown).trans (by rw [hcut]; rfl), ?_, ?_, ?_⟩
  all_goals
    rw [halike, hp]
    rfl

theorem portDown_parted {st : Byte} (hst : st ≠ lnUp) (s : State) (q : Nat) :
    ((portDown s q st).port q).state = st ∧ ((portDown s q st).port q).refusal = (s.port q).refusal
    ∧ ((portDown s q st).port q).retrain = (s.port q).retrain := by
  unfold portDown
  dsimp only
  split
  · have h := loseLink_parted hst s q
    exact ⟨h.state, h.refusal, h.retrain⟩
  · rw [State.port_setPort]
    exact ⟨rfl, rfl, rfl⟩

section
variable {s : State} {q : Fin 20} {cause : Byte}

/-- A port that a STOP has stopped. -/
def StoppedBy (s : State) (q : Fin 20) (cause : Byte) (t : State) : Prop :=
  (t.port q).state = lnStopped ∧ (t.port q).stopCause = cause ∧ (t.port q).replay = [] ∧ DieStays s t

theorem stopBy_stops (hup : portUp s q = true) (cause : Byte) : StoppedBy s q cause (stopBy q cause s) := by
  have hstop : stopBy q cause s = loseLink (s.modPort q (fun p => { p with stopCause := cause })) q lnStopped := if_pos hup
  have hlose := loseLink_parted (st := lnStopped) (by decide) (s.modPort q (fun p => { p with stopCause := cause })) q
  have hdie := (Losing.modPort s q (fun p => { p with stopCause := cause })).trans (Losing.loseLink _ q lnStopped)
  have hcause := hlose.stopCause
  rw [State.modPort, State.port_setPort] at hcause
  rw [StoppedBy, hstop]
  exact ⟨hlose.state, hcause, hlose.replay, .losing hdie⟩

theorem stopFrame_stops (hup : portUp s q = true) (cause : Byte) : Completes (.stopFrame q cause) s (StoppedBy s q cause) :=
  ⟨_, rfl, stopBy_stops hup cause⟩

theorem stopFrame_recorded (hst : (s.port q).state = lnDown) (hs : stopped s = true) (cause : Byte) : exec (.stopFrame q cause) s
    = .next (s.setPort q { s.port q with state := lnStopped, since := s.time.elapsed, stopCause := cause }) := by
  have hdown : ¬ portUp s q = true := by
    rw [portUp, hst]
    decide
  refine congrArg Host.Outcome.next ((if_neg hdown).trans ((if_pos ⟨hst, hs⟩).trans ?_))
  simp only [enter, State.modPort, State.port_setPort, State.setPort_setPort]
  rfl

theorem attempt_fails (h : (s.port q).state = lnTraining) : Completes (.trainingAttemptFail q) s (fun t =>
    (t.port q).state = lnDown ∧ DieStays s t) :=
  ⟨_, congrArg Host.Outcome.next (if_pos h), (portDown_parted (by decide) s q).1, .losing (Losing.portDown _ _ _)⟩

theorem attempt_none (h : (s.port q).state ≠ lnTraining) : exec (.trainingAttemptFail q) s = .next s :=
  congrArg Host.Outcome.next (if_neg h)

/-! ### The steps of training (R385, R386) -/

variable {lanes : W64}

theorem training_steps (hl : linksLive s = true) (hst : (s.port q).state = lnTraining) (h3 : (s.port q).step < 3) :
    exec (.trainingStepComplete q lanes) s = .next (s.setPort q { s.port q with
      step := (s.port q).step + 1, lanes := if q.val < 8 ∧ (s.port q).step = 2 then lanes else (s.port q).lanes }) := by
  have hgo : ¬ ((!linksLive s) = true ∨ (s.port q).state ≠ lnTraining ∨ 4 ≤ (s.port q).step) := by
    simp [hl, hst]
    omega
  refine congrArg Host.Outcome.next ((if_neg hgo).trans ((if_neg (by omega)).trans ?_))
  simp only [isD, decide_eq_true_eq]
  rfl

theorem leNat_bytes_bits (f : Nat → Byte) (l : List Nat) (k : Nat) (hk : k < l.length) :
    leNat (l.map f) / 2 ^ (8 * k) % 256 = (f l[k]).toNat := by
  induction l generalizing k with
  | nil => exact absurd hk (Nat.not_lt_zero _)
  | cons a l ih =>
    have hb := (f a).isLt
    rw [List.map_cons, leNat]
    cases k with
    | zero =>
      rw [Nat.mul_zero, Nat.pow_zero, Nat.div_one]
      simp only [List.getElem_cons_zero]
      omega
    | succ k =>
      have hstep : ((f a).toNat + 256 * leNat (l.map f)) / 2 ^ (8 * (k + 1)) = leNat (l.map f) / 2 ^ (8 * k) := by
        rw [Nat.mul_succ, Nat.add_comm (8 * k), Nat.pow_add, ← Nat.div_div_eq_div_mul, show 2 ^ 8 = 256 from rfl,
          Nat.add_mul_div_left _ _ (by decide), Nat.div_eq_of_lt hb, Nat.zero_add]
      rw [hstep]
      exact ih k (Nat.lt_of_succ_lt_succ hk)

theorem poolSize_lt (k : Nat) : poolSize k < 256 := by
  unfold poolSize
  split
  · decide
  · split <;> decide

theorem freePlaces_lt (s : State) (q k : Nat) : freePlaces s q k < 256 := Nat.lt_of_le_of_lt (Nat.sub_le _ _) (poolSize_lt k)

/-- The identity frame grants the free places of each place (R379, R386). -/
theorem grantOf_ownIdentity (s : State) (q : Nat) {k : Nat} (hk : k < 6) : grantOf (ownIdentity s q) k = freePlaces s q k := by
  have hlen : leNat (pools.map (fun k => byte (freePlaces s q k))) < 2 ^ 48 := by
    have h := leNat_lt (pools.map (fun k => byte (freePlaces s q k)))
    simpa [pools] using h
  have hbits := leNat_bytes_bits (fun k => byte (freePlaces s q k)) pools k (by simpa [pools] using hk)
  have hget : pools[k]'(by simpa [pools] using hk) = k := by simp [pools]
  rw [hget, byte, BitVec.toNat_ofNat, Nat.mod_eq_of_lt (freePlaces_lt s q k)] at hbits
  have hcred : (ownIdentity s q).credits.toNat = leNat (pools.map (fun k => byte (freePlaces s q k))) := by
    rw [ownIdentity, BitVec.toNat_ofNat, Nat.mod_eq_of_lt hlen]
  rw [grantOf, hcred, bits, ← hbits]
  rw [show 8 * k + 7 + 1 - 8 * k = 8 by omega, show 2 ^ 8 = 256 from rfl]

theorem keptFrames_of_queues {s t : State} (hq : ∀ r, (t.port r).queue = (s.port r).queue) (hw : t.fabric.waiting = s.fabric.waiting)
    (q k : Nat) : keptFrames t q k = keptFrames s q k := by
  simp only [keptFrames, hq, hw]

theorem training_identity (hl : linksLive s = true) (hst : (s.port q).state = lnTraining) (h3 : (s.port q).step = 3) :
    Completes (.trainingStepComplete q lanes) s (fun t =>
      PortSet s t q { s.port q with
        step := 4
        owed := [0, 0, 0, 0, 0, 0]
        replay := (s.port q).replay.map (fun e => { e with ccnt := 0 }) }
      ∧ ∃ j : Identity, t.sent = s.sent ++ [.identity q j] ∧ j.part = 0xAB41 ∧ j.dieId = s.fuses.dieId ∧ j.slotId = s.boot.pins.slotId
        ∧ j.fa = s.fa ∧ j.port = byte q ∧ j.session = s.fabric.session ∧ j.expSeq = (if (s.port q).resume then (s.port q).rxExp else 0)
        ∧ ∀ j' < 6, grantOf j j' = freePlaces s q j') := by
  have hgo : ¬ ((!linksLive s) = true ∨ (s.port q).state ≠ lnTraining ∨ 4 ≤ (s.port q).step) := by
    simp [hl, hst]
    omega
  obtain ⟨u, hu⟩ : ∃ u, u = s.modPort q (fun p => { p with
    step := p.step + 1, lanes := if isD q ∧ p.step = 2 then lanes else p.lanes }) := ⟨_, rfl⟩
  have hexec : exec (.trainingStepComplete q lanes) s = .next (sendIdentity u q) := by
    rw [hu]
    exact congrArg Host.Outcome.next ((if_neg hgo).trans (if_pos h3))
  have hport : u.port q = { s.port q with step := 4 } := by
    rw [hu, State.modPort, State.port_setPort, h3]
    simp
  have hqueue : ∀ r, (u.port r).queue = (s.port r).queue := by
    intro r
    by_cases hr : r = q
    · rw [hr, hport]
    · rw [hu, State.modPort, State.port_setPort_ne _ hr]
  have hu' : u = s.setPort q { s.port q with step := 4 } := by
    rw [← hport]
    rw [hu, State.modPort, State.port_setPort]
  refine ⟨_, hexec, ⟨?_, fun r hr => ?_⟩, ownIdentity u q, ?_, rfl, ?_, ?_, ?_, rfl, ?_, ?_, fun k hk => ?_⟩
  · refine Eq.trans (State.port_setPort u q _) ?_
    rw [hport]
  · have hs := State.port_setPort_ne u hr { u.port q with
      owed := [0, 0, 0, 0, 0, 0], replay := (u.port q).replay.map (fun f => { f with ccnt := 0 }) }
    refine Eq.trans hs ?_
    rw [hu', State.port_setPort_ne _ hr]
  · change u.sent ++ _ = _
    rw [hu']
    rfl
  · rw [ownIdentity, hu']
    rfl
  · rw [ownIdentity, hu']
    rfl
  · rw [ownIdentity, hu']
    rfl
  · rw [ownIdentity, hu']
    rfl
  · rw [ownIdentity, hport]
  · rw [grantOf_ownIdentity u q hk, freePlaces, freePlaces, keptFrames_of_queues hqueue (by rw [hu']; rfl)]

end

end Sys2Proof.Machine
end

section
/-! PROOFS. The identity exchange: a partner that is refused, a new session, and the same session (R371, R384, R386). -/

namespace Sys2Proof.Machine

/-! ### A link that is lost with nothing in it -/

theorem cutIncoming_nothing {s : State} {q : Nat} (h : (s.port q).incoming = []) (vc : Nat) : cutIncoming s q vc = s := by
  rw [cutIncoming, h]
  rfl

theorem loseLink_empty {s : State} {q : Nat} (hq : q < 20) (hc : NothingOut s) (hi : (s.port q).incoming = []) (st : Byte) :
    loseLink s q st = event (forgetPartner (s.setPort q ((s.port q).unlinked st s.time.elapsed)) q) 0xE030
      ([byte q, st] ++ leBytes 2 (s.port q).replay.length ++ leBytes 2 0) := by
  have hcut : (List.range 4).foldl (fun t vc => cutIncoming t q vc) s = s := by
    generalize List.range 4 = l
    induction l with
    | nil => rfl
    | cons vc l ih => rw [List.foldl_cons, cutIncoming_nothing hi, ih]
  have hrest := ((hc.setPort q (p := (s.port q).unlinked st s.time.elapsed) rfl).of_eq
    (t := forgetPartner (s.setPort q ((s.port q).unlinked st s.time.elapsed)) q) rfl rfl).event 0xE030
      ([byte q, st] ++ leBytes 2 (s.port q).replay.length ++ leBytes 2 0)
  refine Eq.trans ?_ hrest.flush
  rw [loseLink]
  simp only [hcut, hc.1 q hq, hi, List.filter_nil, List.foldl_nil]
  rfl

/-- The acknowledgement of frames that no channel of this chiplet sent only shortens the replay buffer. -/
theorem takeAck_quiet {s : State} {q : Nat} (h : ∀ e ∈ (s.port q).replay, e.by_.chan = none) (n : BitVec 10) :
    takeAck s q n = s.setPort q ((s.port q).acked n) := by
  have hwalk : ∀ (l : List SentFrame) (t : State), (∀ e ∈ l, e.by_.chan = none) → l.foldl (fun t f =>
      match f.by_.chan with
      | some c => if f.by_.last then leaveBuffer t c f.by_.xfer f.by_.index else t
      | none => t) t = t := by
    intro l
    induction l with
    | nil => exact fun _ _ => rfl
    | cons e l ih =>
      intro t hl
      rw [List.foldl_cons, hl e List.mem_cons_self]
      exact ih t fun x hx => hl x (List.mem_cons_of_mem _ hx)
  exact hwalk _ _ fun e he => h e (List.mem_filter.mp he).1

/-! ### The exchange -/

/-- The port as it becomes UP with partner `i`. -/
def Port.risen (p : Port) (now : Nat) (i : Identity) : Port :=
  { p with state := lnUp, since := now, resume := false, reset := false, refusal := 0, partnerPort := i.port, partnerFa := i.fa
           session := some i.session, step := 0 }

/-- The port becomes UP with partner `i`. -/
def bringUp (q : Nat) (i : Identity) (t : State) : State :=
  (enter t q lnUp).modPort q (fun p => { p with
    resume := false, reset := false, refusal := 0, partnerPort := i.port, partnerFa := i.fa, session := some i.session, step := 0 })

theorem bringUp_eq (q : Nat) (i : Identity) (t : State) : bringUp q i t = t.setPort q ((t.port q).risen t.time.elapsed i) := by
  simp only [bringUp, enter, State.modPort, State.port_setPort, State.setPort_setPort]
  rfl

section
variable {s : State} {q : Fin 20} {i : Identity} (hl : linksLive s = true) (hst : (s.port q).state = lnTraining) (h4 : (s.port q).step = 4)
include hl hst h4

theorem exchange_exec : exec (.identityExchange q i) s = .next (
    if refusalOf s q i ≠ 0 then
      event (portDown (s.modPort q (fun p => { p with refusal := refusalOf s q i })) q lnDown) 0xE031
        ([byte q, byte (refusalOf s q i)] ++ leBytes 2 i.fa.toNat)
    else flush (if (s.port q).resume && (s.port q).session == some i.session then resumeLink (bringUp q i s) q i
      else bringUp q i (newLink s q i))) := by
  have hgo : ¬ ((!linksLive s) = true ∨ (s.port q).state ≠ lnTraining ∨ (s.port q).step ≠ 4) := by simp [hl, hst, h4]
  exact congrArg Host.Outcome.next (if_neg hgo)

/-- A partner that is refused: the port is DOWN, with two entries. -/
theorem exchange_refuses (hh : s.fw.hand = none) (hi : (s.port q).incoming = []) (hc : Calm s) (hr : refusalOf s q i ≠ 0) :
    Completes (.identityExchange q i) s (fun t => (t.port q).state = lnDown ∧ (t.port q).refusal = refusalOf s q i
      ∧ t.ledger.head = s.ledger.head + 2 ∧ DieStays s t) := by
  generalize hw : refusalOf s q i = w at hr
  obtain ⟨u, hu⟩ : ∃ u, u = s.modPort q (fun p => { p with refusal := w }) := ⟨_, rfl⟩
  have hport : u.port q = { s.port q with refusal := w } := by rw [hu, State.modPort, State.port_setPort]
  have hcalm : NothingOut u := by
    rw [hu]
    exact hc.nothingOut.setPort q (hc.queues q)
  have hdown : portDown u q lnDown = loseLink u q lnDown := if_pos (.inr (by rw [hport]; exact hst))
  have hpart := loseLink_parted (st := lnDown) (by decide) u q
  have hlose := Losing.loseLink u q lnDown
  have hhead : (loseLink u q lnDown).ledger.head = s.ledger.head + 1 := by
    rw [loseLink_empty q.isLt hcalm (by rw [hport]; exact hi), event_head (inPause_none (by rw [hu]; exact hh)), hu]
    rfl
  have hhand : (loseLink u q lnDown).fw.hand = none := by
    rw [hlose.fw, hu]
    exact hh
  have hdie : DieStays s (loseLink u q lnDown) := by
    rw [hu] at hlose ⊢
    exact .losing ((Losing.modPort _ _ _).trans hlose)
  have hexec := exchange_exec (i := i) hl hst h4
  rw [hw, if_pos hr, ← hu, hdown] at hexec
  refine ⟨_, hexec, ?_⟩
  generalize loseLink u q lnDown = v at *
  have hv : ∀ d, (event v 0xE031 d).port q = v.port q := fun d => by rw [State.port, (event_fields _ _ _).1, State.port]
  refine ⟨(congrArg Port.state (hv _)).trans hpart.state, (congrArg Port.refusal (hv _)).trans (hpart.refusal.trans (by rw [hport])), ?_,
    hdie.trans (.sending (Sending.event _ _ _))⟩
  rw [event_head (inPause_none hhand), hhead]
  bv_omega

/-- The port is UP with partner `i`, and no core, store or gate has changed. -/
def RisenTo (s : State) (q : Fin 20) (i : Identity) (t : State) : Prop :=
  (t.port q).state = lnUp ∧ (t.port q).partnerPort = i.port ∧ (t.port q).partnerFa = i.fa ∧ (t.port q).session = some i.session
  ∧ (t.port q).resume = false ∧ (t.port q).reset = false ∧ DieStays s t

/-- The port's link layer begins anew. -/
def FreshPort (q : Fin 20) (i : Identity) (t : State) : Prop :=
  (t.port q).sessionKept = false ∧ (t.port q).credits = pools.map (grantOf i) ∧ (t.port q).txSeq = 0 ∧ (t.port q).rxExp = 0
  ∧ (t.port q).replay = []

omit hl hst h4 in
/-- What a new session brings up from a state whose port is cut off. -/
theorem newSession_spec {u : State} {p : Port} (hu : DieStays s u) (hc : NothingOut u) (hp : (u.port q) = p) (hq : p.queue = [])
    (htx : p.txSeq = 0) (hrx : p.rxExp = 0) (hre : p.replay = []) (l : List Nat) :
    let v := bringUp q i (u.modPort q (fun p => { p with
      credits := pools.map (grantOf i), owed := List.zipWith (· + ·) p.owed l, sessionKept := false }))
    flush v = v ∧ RisenTo s q i v ∧ FreshPort q i v ∧ v.ledger = u.ledger := by
  intro v
  have hv : v = u.setPort q (Port.risen { p with
      credits := pools.map (grantOf i), owed := List.zipWith (· + ·) p.owed l, sessionKept := false } u.time.elapsed i) := by
    refine (bringUp_eq _ _ _).trans ?_
    simp only [State.modPort, State.port_setPort, State.setPort_setPort, hp]
    rfl
  clear_value v
  have hport := (congrArg (fun x : State => x.port q) hv).trans (State.port_setPort _ _ _)
  have hdie : DieStays s v := hu.trans (by rw [hv]; exact .losing (Losing.setPort _ _ _))
  refine ⟨?_, ?_, ?_, ?_⟩
  · rw [hv]
    refine (hc.setPort q ?_).flush
    exact hq
  · rw [RisenTo, hport]
    exact ⟨rfl, rfl, rfl, rfl, rfl, rfl, hdie⟩
  · rw [FreshPort, hport]
    exact ⟨rfl, rfl, htx, hrx, hre⟩
  · rw [hv]
    rfl

/-- A port that comes up for the first time. -/
theorem exchange_first (hc : Calm s) (hr : refusalOf s q i = 0) (hres : (s.port q).resume = false) :
    Completes (.identityExchange q i) s (fun t => RisenTo s q i t ∧ FreshPort q i t ∧ t.ledger = s.ledger) := by
  have hnew : newLink s q i = (s.setPort q (s.port q).fresh).modPort q (fun p => { p with
      credits := pools.map (grantOf i), owed := List.zipWith (· + ·) p.owed (s.port q).owed, sessionKept := false }) := by
    rw [newLink, hres]
    rfl
  obtain ⟨hflush, hrisen, hfresh, hled⟩ := newSession_spec (s := s) (q := q) (i := i) (u := s.setPort q (s.port q).fresh)
    (.losing (Losing.setPort _ _ _)) (hc.nothingOut.setPort q rfl) (State.port_setPort _ _ _) rfl rfl rfl rfl (s.port q).owed
  have hexec := exchange_exec (i := i) hl hst h4
  rw [hr, if_neg (not_not_intro rfl), hres, Bool.false_and, if_neg Bool.false_ne_true, hnew, hflush] at hexec
  exact ⟨_, hexec, hrisen, hfresh, hled⟩

/-- A port that was UP and whose partner has begun a new session. -/
theorem exchange_new (hh : s.fw.hand = none) (hi : (s.port q).incoming = []) (hc : Calm s) (hr : refusalOf s q i = 0)
    (hres : (s.port q).resume = true) (hses : (s.port q).session ≠ some i.session) :
    Completes (.identityExchange q i) s (fun t => RisenTo s q i t ∧ FreshPort q i t ∧ t.ledger.head = s.ledger.head + 1) := by
  have hlose := loseLink_empty q.isLt hc.nothingOut hi lnUp
  generalize [byte q, lnUp] ++ leBytes 2 (s.port q).replay.length ++ leBytes 2 0 = d at hlose
  obtain ⟨u, hu⟩ : ∃ u, u = forgetPartner (s.setPort q ((s.port q).unlinked lnUp s.time.elapsed)) q := ⟨_, rfl⟩
  have huport : u.port q = (s.port q).unlinked lnUp s.time.elapsed := by
    rw [hu]
    exact State.port_setPort _ _ _
  have hucalm : NothingOut u := by
    rw [hu]
    exact (hc.nothingOut.setPort q (p := (s.port q).unlinked lnUp s.time.elapsed) rfl).of_eq rfl rfl
  have hudie : DieStays s u := by
    rw [hu]
    exact .losing ((Losing.setPort _ _ _).trans (Losing.forgetPartner _ _))
  have hport : (event u 0xE030 d).port q = (s.port q).unlinked lnUp s.time.elapsed := by
    rw [State.port, (event_fields _ _ _).1, ← State.port, huport]
  have hhead : (event u 0xE030 d).ledger.head = s.ledger.head + 1 := by
    rw [event_head (inPause_none (by rw [hu]; exact hh)), hu]
    rfl
  have hnew : newLink s q i = (event u 0xE030 d).modPort q (fun p => { p with
      credits := pools.map (grantOf i), owed := List.zipWith (· + ·) p.owed (s.port q).owed, sessionKept := false }) := by
    rw [hu, ← hlose, newLink]
    simp only [hres, if_true]
  obtain ⟨hflush, hrisen, hfresh, hled⟩ := newSession_spec (s := s) (q := q) (i := i) (u := event u 0xE030 d)
    (hudie.trans (.sending (Sending.event _ _ _))) (hucalm.event _ _) hport rfl rfl rfl rfl (s.port q).owed
  have hexec := exchange_exec (i := i) hl hst h4
  rw [hr, if_neg (not_not_intro rfl), hres, beq_false_of_ne hses, Bool.and_false, if_neg Bool.false_ne_true, hnew, hflush] at hexec
  exact ⟨_, hexec, hrisen, hfresh, (congrArg Ledger.head hled).trans hhead⟩

/-- A port that was UP and whose partner is in the same session: no frame is lost. -/
theorem exchange_same (hc : Calm s) (hr : refusalOf s q i = 0) (hres : (s.port q).resume = true)
    (hses : (s.port q).session = some i.session) (hnone : ∀ e ∈ (s.port q).replay, e.by_.chan = none) :
    Completes (.identityExchange q i) s (fun t => RisenTo s q i t ∧ (t.port q).sessionKept = true ∧ (t.port q).txSeq = (s.port q).txSeq
      ∧ (t.port q).rxExp = (s.port q).rxExp ∧ (t.port q).replay = (s.port q).replay.filter (fun e => !seqBefore e.seq i.expSeq)
      ∧ t.ledger = s.ledger ∧ ∀ e ∈ (t.port q).replay, againFrame (s.port q) q e ∈ t.sent) := by
  obtain ⟨p, hp⟩ : ∃ p, p = { (s.port q).risen s.time.elapsed i with
    credits := pools.map (fun k => grantOf i k - (((s.port q).acked i.expSeq).replay.filter (fun f : SentFrame => f.pool == k)).length)
    sessionKept := true } := ⟨_, rfl⟩
  have hreplay : p.replay = (s.port q).replay := by rw [hp]; rfl
  have hagain : againFrame p q = againFrame (s.port q) q := by rw [hp]; rfl
  have hs1 : (bringUp q i s).modPort q (fun p =>
      let left := (p.acked i.expSeq).replay
      { p with credits := pools.map (fun k => grantOf i k - (left.filter (fun f : SentFrame => f.pool == k)).length), sessionKept := true })
      = s.setPort q p := by
    rw [bringUp_eq, State.modPort, State.port_setPort, State.setPort_setPort, hp]
    rfl
  obtain ⟨v, hv⟩ : ∃ v, v = resendFrom (s.setPort q p) q i.expSeq := ⟨_, rfl⟩
  have hvport : v.port q = p := by
    rw [hv, resendFrom_eq]
    exact State.port_setPort _ _ _
  have hresume : resumeLink (bringUp q i s) q i = v.setPort q (p.acked i.expSeq) := by
    have hack := takeAck_quiet (s := v) (q := q) (by rw [hvport, hreplay]; exact hnone) i.expSeq
    rw [hvport] at hack
    rw [← hack, hv, ← hs1]
    rfl
  have hvcalm : NothingOut v := by
    rw [hv, resendFrom_eq]
    refine (hc.nothingOut.setPort q (p := p) ?_).of_eq rfl rfl
    rw [hp]
    exact hc.queues q
  have hflush : flush (v.setPort q (p.acked i.expSeq)) = v.setPort q (p.acked i.expSeq) := by
    refine (hvcalm.setPort q ?_).flush
    rw [hp]
    exact hc.queues q
  have hexec := exchange_exec (i := i) hl hst h4
  rw [hr, if_neg (not_not_intro rfl), hres, hses, beq_self_eq_true, Bool.and_self, if_pos rfl, hresume, hflush] at hexec
  have hport : (v.setPort q (p.acked i.expSeq)).port q = p.acked i.expSeq := State.port_setPort _ _ _
  have hdie : DieStays s (v.setPort q (p.acked i.expSeq)) := by
    rw [hv, resendFrom_eq]
    exact ⟨rfl, rfl, rfl⟩
  refine ⟨_, hexec, ?_, ?_, ?_, ?_, ?_, ?_, fun e he => ?_⟩
  · rw [RisenTo, hport, hp]
    exact ⟨rfl, rfl, rfl, rfl, rfl, rfl, hp ▸ hdie⟩
  · rw [hport, hp]
    rfl
  · rw [hport, hp]
    rfl
  · rw [hport, hp]
    rfl
  · rw [hport, Port.acked, hreplay]
  · rw [hv, resendFrom_eq]
    rfl
  · rw [hport] at he
    have hsent : (v.setPort q (p.acked i.expSeq)).sent
        = s.sent ++ (p.replay.filter (fun f => !seqBefore f.seq i.expSeq)).map (againFrame p q) := by
      rw [hv, resendFrom_eq, State.port_setPort]
      rfl
    rw [hsent, hagain]
    exact List.mem_append_right _ (List.mem_map_of_mem he)

end

end Sys2Proof.Machine
end

section
/-! PROOFS. Frames: those that are discarded, and what an intact one carries (R376 to R383, R391, R411). -/

namespace Sys2Proof.Machine

section
variable {s : State} {q : Fin 20} {raw : List Byte} {fec : Bool} {n : Nat} {f : Frame}

/-- The corrected symbols that the port has counted, this frame's among them. -/
def fixedCorr (s : State) (q : Fin 20) (n : Nat) : W32 :=
  if q.val < 8 then (s.port q).corr else BitVec.ofNat 32 (satTo 32 ((s.port q).corr.toNat + n))

theorem countFixed_port (s : State) (q : Fin 20) (n : Nat) : (countFixed s q n).port q = { s.port q with corr := fixedCorr s q n } := by
  by_cases hq : q.val < 8
  · rw [countFixed, isD_of_lt hq, if_pos rfl, fixedCorr, if_pos hq]
  · rw [countFixed, isD_of_le (Nat.le_of_not_lt hq), if_neg Bool.false_ne_true, State.modPort, State.port_setPort, fixedCorr, if_neg hq]

theorem countFixed_setPort (s : State) (q : Fin 20) (n : Nat) (p : Port) : (countFixed s q n).setPort q p = s.setPort q p := by
  unfold countFixed
  split
  · rfl
  · rw [State.modPort, State.setPort_setPort]

theorem NothingOut.countFixed (h : NothingOut s) (q : Fin 20) (n : Nat) : NothingOut (countFixed s q n) := by
  unfold Machine.countFixed
  split
  · exact h
  · exact h.setPort q (h.1 q q.isLt)

theorem Losing.countFixed (s : State) (q n : Nat) : Losing s (countFixed s q n) := by
  unfold Machine.countFixed
  exact ite (refl s) (modPort _ _ _)

/-- The state after a frame has been counted as corrected or discarded, before what follows. -/
theorem frame_bad (hup : portUp s q = true) (h : parseFrame raw = none ∨ fec = false ∧ 8 ≤ q.val) :
    exec (.frameReceive q raw fec n) s = .next (flush (discardFrame (countFixed s q n) q true)) := by
  refine congrArg Host.Outcome.next ((if_neg (by simp [hup])).trans (congrArg flush ?_))
  rcases h with h | ⟨hf, hq⟩
  · simp only [h]
  · cases parseFrame raw with
    | none => rfl
    | some f => simp [hf, isD_of_le hq]

theorem frame_ok (hup : portUp s q = true) (h : parseFrame raw = some f ∧ (fec = true ∨ q.val < 8)) :
    exec (.frameReceive q raw fec n) s = .next (flush (serveFrame (countFixed s q n) q f)) := by
  obtain ⟨hp, hq⟩ := h
  refine congrArg Host.Outcome.next ((if_neg (by simp [hup])).trans (congrArg flush ?_))
  have hgood : (fec || isD q) = true := by
    rcases hq with hf | hq
    · rw [hf, Bool.true_or]
    · rw [isD_of_lt hq, Bool.or_true]
  simp only [hp, hgood, if_true]

/-! ### Frames that are discarded (R382, R383) -/

/-- The state that has asked for a frame again, its port else as `v`. -/
def askedAgain (s : State) (q : Fin 20) (n : Nat) (v : Port) : State :=
  { s.setPort q { v with corr := fixedCorr s q n, naks := 1, nakTimes := [s.time.elapsed], retry := up32' (s.port q).retry } with
      sent := s.sent ++ [.replay q (s.port q).rxExp] }

theorem NothingOut.sendReplay (h : NothingOut s) {q : Fin 20} (hn : (s.port q).nakTimes = []) : NothingOut (sendReplay s q) := by
  rw [sendReplay_eq hn]
  refine (h.setPort q (p := { s.port q with
    naks := (s.port q).naks + 1, nakTimes := [s.time.elapsed], retry := up32' (s.port q).retry }) ?_).of_eq rfl rfl
  exact h.1 q q.isLt

section
variable (hc : Calm s) (h0 : (s.port q).naks = 0) (ht : (s.port q).nakTimes = [])
include hc h0 ht

theorem discard_counted : flush (discardFrame (countFixed s q n) q true)
    = askedAgain s q n { s.port q with uncorr := up32' (s.port q).uncorr } := by
  obtain ⟨u, hu⟩ : ∃ u, u = (countFixed s q n).modPort q (fun p => { p with uncorr := up32' p.uncorr }) := ⟨_, rfl⟩
  have hport : u.port q = { s.port q with corr := fixedCorr s q n, uncorr := up32' (s.port q).uncorr } := by
    rw [hu, State.modPort, State.port_setPort, countFixed_port]
  have hset : ∀ p, u.setPort q p = s.setPort q p := by
    intro p
    rw [hu, State.modPort, State.setPort_setPort, countFixed_setPort]
  have hframe : u.sent = s.sent ∧ u.time = s.time := by
    rw [hu, State.modPort, countFixed_setPort]
    exact ⟨rfl, rfl⟩
  have hcalm : NothingOut u := by
    rw [hu, State.modPort, countFixed_setPort]
    refine hc.nothingOut.setPort q ?_
    rw [countFixed_port]
    exact hc.queues q
  have hnaks : (u.port q).naks = 0 := by
    rw [hport]
    exact h0
  have htimes : (u.port q).nakTimes = [] := by
    rw [hport]
    exact ht
  have hdiscard : discardFrame (countFixed s q n) q true = sendReplay u q := by
    rw [discardFrame, if_pos rfl, ← hu]
    simp only [hnaks, if_true]
  rw [hdiscard, (hcalm.sendReplay htimes).flush, sendReplay_eq htimes, hset, hport, hframe.1, hframe.2]
  simp only [h0, Nat.zero_add]
  rfl

theorem discard_uncounted : flush (discardFrame (countFixed s q n) q false) = askedAgain s q n (s.port q) := by
  have hport := countFixed_port s q n
  have hcalm := hc.nothingOut.countFixed q n
  have hframe : (countFixed s q n).sent = s.sent ∧ (countFixed s q n).time = s.time := by
    unfold countFixed
    split <;> exact ⟨rfl, rfl⟩
  have hset := countFixed_setPort s q n
  generalize countFixed s q n = u at *
  have hnaks : (u.port q).naks = 0 := by
    rw [hport]
    exact h0
  have htimes : (u.port q).nakTimes = [] := by
    rw [hport]
    exact ht
  have hdiscard : discardFrame u q false = sendReplay u q := by
    rw [discardFrame, if_neg Bool.false_ne_true]
    simp only [hnaks, if_true]
  rw [hdiscard, (hcalm.sendReplay htimes).flush, sendReplay_eq htimes, hset, hport, hframe.1, hframe.2]
  simp only [h0, Nat.zero_add]
  rfl

theorem bad_asks (hup : portUp s q = true) (h : parseFrame raw = none ∨ fec = false ∧ 8 ≤ q.val) :
    exec (.frameReceive q raw fec n) s = .next (askedAgain s q n { s.port q with uncorr := up32' (s.port q).uncorr }) :=
  (frame_bad hup h).trans (congrArg _ (discard_counted hc h0 ht))

theorem reserved_asks (hup : portUp s q = true) (h : parseFrame raw = some f ∧ (fec = true ∨ q.val < 8)) (hk : f.kind = 7) :
    exec (.frameReceive q raw fec n) s = .next (askedAgain s q n { s.port q with uncorr := up32' (s.port q).uncorr }) := by
  rw [frame_ok hup h, serveFrame, if_pos hk, discard_counted hc h0 ht]

end

theorem serveFrame_late {u : State} (h1 : 1 ≤ f.kind.toNat) (h5 : f.kind.toNat ≤ 5) (hseq : f.seq ≠ (u.port q).rxExp) :
    serveFrame u q f = discardFrame u q false := by
  have h7 : f.kind ≠ 7 := fun h => absurd h5 (by rw [h]; decide)
  have h0 : f.kind ≠ 0 := fun h => absurd h1 (by rw [h]; decide)
  have h6 : f.kind ≠ 6 := fun h => absurd h5 (by rw [h]; decide)
  rw [serveFrame, if_neg h7, if_neg h0, if_neg h6, if_neg hseq]

theorem late_asks (hc : Calm s) (h0 : (s.port q).naks = 0) (ht : (s.port q).nakTimes = []) (hup : portUp s q = true)
    (h : parseFrame raw = some f ∧ (fec = true ∨ q.val < 8)) (h1 : 1 ≤ f.kind.toNat) (h5 : f.kind.toNat ≤ 5)
    (hseq : f.seq ≠ (s.port q).rxExp) : exec (.frameReceive q raw fec n) s = .next (askedAgain s q n (s.port q)) := by
  rw [frame_ok hup h, serveFrame_late h1 h5 (by rw [countFixed_port]; exact hseq), discard_uncounted hc h0 ht]

theorem late_ignored (hc : Calm s) (h0 : (s.port q).naks ≠ 0) (hup : portUp s q = true)
    (h : parseFrame raw = some f ∧ (fec = true ∨ q.val < 8)) (h1 : 1 ≤ f.kind.toNat) (h5 : f.kind.toNat ≤ 5)
    (hseq : f.seq ≠ (s.port q).rxExp) : exec (.frameReceive q raw fec n) s = .next (countFixed s q n) := by
  have hport := countFixed_port s q n
  have hcalm := hc.nothingOut.countFixed q n
  rw [frame_ok hup h, serveFrame_late h1 h5 (by rw [hport]; exact hseq)]
  generalize countFixed s q n = u at *
  have hnaks : (u.port q).naks ≠ 0 := by
    rw [hport]
    exact h0
  have hdiscard : discardFrame u q false = u := by
    rw [discardFrame, if_neg Bool.false_ne_true]
    simp only [hnaks, if_false, Bool.not_false, if_true]
  rw [hdiscard, hcalm.flush]

/-- The fifth damaged frame in a row resets the link. -/
theorem bad_resets (hh : s.fw.hand = none) (hc : Calm s) (hup : portUp s q = true) (h : parseFrame raw = none ∨ fec = false ∧ 8 ≤ q.val)
    (h4 : 4 ≤ (s.port q).naks) (hr : (s.port q).reset = false) : Completes (.frameReceive q raw fec n) s (fun t =>
      (t.port q).state = lnTraining ∧ (t.port q).uncorr = up32' (s.port q).uncorr ∧ (t.port q).retrains = up16 (s.port q).retrains
      ∧ (t.port q).credits = (s.port q).credits ∧ t.ledger.head = s.ledger.head + 1 ∧ DieStays s t) := by
  obtain ⟨u, hu⟩ : ∃ u, u = s.setPort q { s.port q with corr := fixedCorr s q n, uncorr := up32' (s.port q).uncorr } := ⟨_, rfl⟩
  have hu' : (countFixed s q n).modPort q (fun p => { p with uncorr := up32' p.uncorr }) = u := by
    rw [State.modPort, countFixed_setPort, countFixed_port, hu]
  have hport : u.port q = { s.port q with corr := fixedCorr s q n, uncorr := up32' (s.port q).uncorr } := by
    rw [hu, State.port_setPort]
  have hureset : (u.port q).reset = false := by
    rw [hport]
    exact hr
  have hnaks : (u.port q).naks = (s.port q).naks := by rw [hport]
  have hdiscard : discardFrame (countFixed s q n) q true = linkReset u q 2 := by
    rw [discardFrame, if_pos rfl, hu']
    simp only [hnaks, show (s.port q).naks ≠ 0 by omega, h4, Bool.not_true, Bool.false_eq_true, if_false, if_true]
  have hcalm : NothingOut u := by
    rw [hu]
    exact hc.nothingOut.setPort q (hc.queues q)
  obtain ⟨⟨hq, -⟩, hhead, hdie⟩ := linkReset_spec (s := u) (q := q) (by rw [hu]; exact hh) hureset 2
  have hflush : flush (linkReset u q 2) = linkReset u q 2 := by
    rw [linkReset_eq hureset]
    refine ((hcalm.event _ _).setPort q ?_).flush
    exact hcalm.1 q q.isLt
  refine ⟨_, (frame_bad hup h).trans (congrArg _ (by rw [hdiscard, hflush])), ?_, ?_, ?_, ?_, ?_, ?_⟩
  · rw [hq]
    rfl
  · rw [hq, resetPort, hport]
  · rw [hq, resetPort, hport]
  · rw [hq, resetPort, hport]
  · rw [hhead, hu]
    rfl
  · rw [hu] at hdie ⊢
    exact hdie

/-! ### What an intact frame carries (R376, R381, R411) -/

/-- The port with the credits that the frame returns. -/
def headed (s : State) (q : Fin 20) (n : Nat) (f : Frame) : Port :=
  { s.port q with corr := fixedCorr s q n
                  credits := (s.port q).credits.set f.cvc.toNat (creditOf (s.port q) f.cvc.toNat + f.ccnt.toNat) }

theorem takeHeader_eq (hre : (s.port q).replay = []) : takeHeader (countFixed s q n) q f = s.setPort q (headed s q n f) := by
  have hport := countFixed_port s q n
  have hset := countFixed_setPort s q n
  generalize countFixed s q n = u at hport hset ⊢
  have hreplay : (u.port q).replay = [] := by
    rw [hport]
    exact hre
  have hacked : (u.port q).acked f.ack = u.port q := by
    rw [Port.acked, hreplay, List.filter_nil, ← hreplay]
  have hquiet : takeAck u q f.ack = u.setPort q (u.port q) := by
    rw [takeAck_quiet (by rw [hreplay]; exact fun e he => absurd he List.not_mem_nil), hacked]
  rw [takeHeader, hquiet, State.modPort, State.port_setPort, State.setPort_setPort, hset, hport]
  rfl

/-- A link control frame returns credits. -/
theorem control_returns (hc : Calm s) (hup : portUp s q = true) (h : parseFrame raw = some f ∧ (fec = true ∨ q.val < 8)) (hk : f.kind = 0)
    (hb : fieldAt f.body 0 1 = 0) (hre : (s.port q).replay = []) : Completes (.frameReceive q raw fec n) s (fun t =>
      t = { s with links := t.links } ∧ PortSet s t q { s.port q with
        corr := fixedCorr s q n
        credits := pools.map (fun j => ((s.port q).credits.set f.cvc.toNat (creditOf (s.port q) f.cvc.toNat + f.ccnt.toNat)).getD j 0
          + fieldAt f.body (1 + j) 1) }) := by
  have h7 : f.kind ≠ 7 := fun h => absurd (hk.symm.trans h) (by decide)
  have hserve : serveFrame (countFixed s q n) q f = s.setPort q { s.port q with
      corr := fixedCorr s q n
      credits := pools.map (fun j => ((s.port q).credits.set f.cvc.toNat (creditOf (s.port q) f.cvc.toNat + f.ccnt.toNat)).getD j 0
        + fieldAt f.body (1 + j) 1) } := by
    rw [serveFrame, if_neg h7, if_pos hk, takeHeader_eq hre]
    simp only [controlFrame, hb, State.modPort, State.port_setPort, State.setPort_setPort]
    rfl
  refine ⟨_, (frame_ok hup h).trans (congrArg _ ((congrArg flush hserve).trans (hc.nothingOut.setPort q ?_).flush)), rfl, .setPort s q _⟩
  exact hc.queues q

/-- A STOP that comes in a frame. -/
theorem stop_comes (hup : portUp s q = true) (h : parseFrame raw = some f ∧ (fec = true ∨ q.val < 8)) (hk : f.kind = 6)
    (hre : (s.port q).replay = []) : Completes (.frameReceive q raw fec n) s (StoppedBy s q (byte (fieldAt f.body 0 1))) := by
  have h7 : f.kind ≠ 7 := fun h => absurd (hk.symm.trans h) (by decide)
  have h0 : f.kind ≠ 0 := fun h => absurd (hk.symm.trans h) (by decide)
  obtain ⟨u, hu⟩ : ∃ u, u = s.setPort q (headed s q n f) := ⟨_, rfl⟩
  have hserve : serveFrame (countFixed s q n) q f = stopBy q (byte (fieldAt f.body 0 1)) u := by
    rw [serveFrame, if_neg h7, if_neg h0, if_pos hk, takeHeader_eq hre, hu]
  have huup : portUp u q = true := by
    rw [portUp, hu, State.port_setPort]
    exact hup
  obtain ⟨hst, hcause, hreplay, hdie⟩ := stopBy_stops huup (byte (fieldAt f.body 0 1))
  refine ⟨_, (frame_ok hup h).trans (congrArg _ (congrArg flush hserve)), ?_⟩
  generalize stopBy q (byte (fieldAt f.body 0 1)) u = v at *
  have hsend := Sending.flush v
  obtain ⟨hstate, hrep⟩ := Unsent.flush (q := q) v
  have hcause' : ((flush v).port q).stopCause = (v.port q).stopCause := by rw [hsend.port q]
  refine ⟨hstate.trans hst, hcause'.trans hcause, (hrep ?_).trans hreplay, (DieStays.trans ?_ hdie).trans (.sending hsend)⟩
  · rw [portUp, hst]
    decide
  · rw [hu]
    exact .losing (Losing.setPort _ _ _)

end

end Sys2Proof.Machine
end

section
/-! PROOFS. The frames of an admitted write: its header opens it, its data are written as they come, its last frame completes it (R376,
R425, R433 to R435). -/

namespace Sys2Proof.Machine

/-- The packet that says that one of a transfer has come (R433). -/
def donePacket (s : State) (h : XferHdr) (outcome grant : Byte) : Packet :=
  packet s h.src 0 0 (0x22 :: ([byte (gaWindow h.ga), outcome] ++ leBytes 2 h.xfer.toNat ++ [h.chan] ++ leBytes 2 h.index.toNat ++ [grant]))

theorem postDone_sends {s : State} (h : XferHdr) (o g : Byte) (hr : Reaches s h.src) :
    Sends s (postDone s h.src (byte (gaWindow h.ga)) o h.xfer h.chan h.index g) (donePacket s h o g) :=
  sends_post (p := donePacket s h o g) hr

/-- The sender of a packet that is finished is told so, first of all. -/
theorem finishPacket_sends {s : State} (h : XferHdr) (o : Byte) (b : Bool) (hr : Reaches s h.src) :
    ∃ g, Sends s (finishPacket s h o b) (donePacket s h o g) := by
  have hdone : ∀ w g, Sends s (postDone (s.setWindow (gaWindow h.ga) w) h.src (byte (gaWindow h.ga)) o h.xfer h.chan h.index g)
      (donePacket s h o g) := fun w g => postDone_sends (s := s.setWindow (gaWindow h.ga) w) h o g hr
  unfold finishPacket
  dsimp only
  split
  next w g _ =>
    split
    · exact ⟨1, sends_of_prefix (hdone w 1) (Granting.regrant _ _).sent⟩
    · exact ⟨0, sends_of_prefix (hdone w 0) (Sending.sendGrants _ _ _).sent⟩
  next w _ => exact ⟨0, hdone w 0⟩

theorem Sends.mem {s t : State} {p : Packet} (h : Sends s t p) : Sent.packet p ∈ t.sent := by
  obtain ⟨l, hl⟩ := h
  rw [hl]
  exact List.mem_append_right _ List.mem_cons_self

section
variable {s : State} {q : Fin 20} {raw : List Byte} {fec : Bool} {n : Nat} {f : Frame}

/-- The port after a frame of its sequence has come. -/
def takenPort (s : State) (q : Fin 20) (n : Nat) (f : Frame) : Port :=
  { headed s q n f with rxExp := (s.port q).rxExp + 1, naks := 0, ackDue := true, heard := (s.port q).heard + 1 }

/-- A frame of its sequence, of one of the kinds that are kept in order. -/
theorem frame_taken (hup : portUp s q = true) (h : parseFrame raw = some f ∧ (fec = true ∨ q.val < 8)) (h1 : 1 ≤ f.kind.toNat)
    (h5 : f.kind.toNat ≤ 5) (hseq : f.seq = (s.port q).rxExp) (hre : (s.port q).replay = []) :
    exec (.frameReceive q raw fec n) s = .next (flush (takeFrame (s.setPort q (headed s q n f)) q f)) := by
  have h7 : f.kind ≠ 7 := fun h => absurd h5 (by rw [h]; decide)
  have h0 : f.kind ≠ 0 := fun h => absurd h1 (by rw [h]; decide)
  have h6 : f.kind ≠ 6 := fun h => absurd h5 (by rw [h]; decide)
  rw [frame_ok hup h, serveFrame, if_neg h7, if_neg h0, if_neg h6, if_pos (by rw [countFixed_port]; exact hseq), takeHeader_eq hre]

theorem takeFrame_header (hk : f.kind = 1) (hi : (s.port q).incoming = []) (hheard : (s.port q).heard < 63) {u : State}
    (hu : openPacket q f.vc.toNat (poolOf f.vc.toNat (bit (headerOf f.body).hdr.flags.toNat 1)) (headerOf f.body)
      (s.setPort q (takenPort s q n f)) = u) (hport : (u.port q).heard = (s.port q).heard + 1) :
    takeFrame (s.setPort q (headed s q n f)) q f = u := by
  have hs1 : (s.setPort q (headed s q n f)).modPort q (fun p => { p with
      rxExp := p.rxExp + 1, naks := 0, ackDue := true, heard := p.heard + 1 }) = s.setPort q (takenPort s q n f) := by
    rw [State.modPort, State.port_setPort, State.setPort_setPort]
    rfl
  have hcut : cutIncoming (s.setPort q (takenPort s q n f)) q f.vc.toNat = s.setPort q (takenPort s q n f) :=
    cutIncoming_nothing (by rw [State.port_setPort]; exact hi) _
  unfold takeFrame
  simp only [hs1, hk, if_true, hcut, hu]
  rw [if_neg (by omega)]

/-- The header of an admitted write opens it: its place is taken and its credit in use. -/
theorem header_opens (hc : Calm s) (hup : portUp s q = true) (h : parseFrame raw = some f ∧ (fec = true ∨ q.val < 8))
    (hseq : f.seq = (s.port q).rxExp) (hre : (s.port q).replay = []) (hheard : (s.port q).heard < 63) (hk : f.kind = 1)
    (hi : (s.port q).incoming = []) (htyp : (headerOf f.body).hdr.typ = 5) (hhops : (headerOf f.body).hdr.hops.toNat < 32)
    (hsrc : (headerOf f.body).hdr.src ≠ 0xFFFF) (hdst : (headerOf f.body).hdr.dst = s.fa) (hfa : s.fa ≠ 0xFFFF)
    (hadm : admission s (xferHdr (headerOf f.body)) .write = none) : Completes (.frameReceive q raw fec n) s (fun t =>
      PortSet s t q { takenPort s q n f with
        owed := (s.port q).owed.set (poolOf f.vc.toNat (bit (headerOf f.body).hdr.flags.toNat 1))
          ((s.port q).owed.getD (poolOf f.vc.toNat (bit (headerOf f.body).hdr.flags.toNat 1)) 0 + 1)
        incoming := [(f.vc.toNat, ⟨poolOf f.vc.toNat (bit (headerOf f.body).hdr.flags.toNat 1),
          .write (xferHdr (headerOf f.body)) (windowAddress s (xferHdr (headerOf f.body))) 0 true⟩)] }
      ∧ t = { s with links := t.links, dma := (useCredit s (xferHdr (headerOf f.body))).dma }) := by
  have hexec := frame_taken (n := n) hup h (by rw [hk]; decide) (by rw [hk]; decide) hseq hre
  have htake := fun u => takeFrame_header (s := s) (q := q) (f := f) (n := n) (u := u) hk hi hheard
  generalize headerOf f.body = p at *
  generalize poolOf f.vc.toNat (bit p.hdr.flags.toNat 1) = k at *
  obtain ⟨v, hv⟩ : ∃ v, v = s.setPort q ((takenPort s q n f).owe k 1) := ⟨_, rfl⟩
  have hleft : (s.setPort q (takenPort s q n f)).modPort q (·.owe k 1) = v := by
    rw [State.modPort, State.port_setPort, State.setPort_setPort, hv]
  have hfate : fateOf (s.setPort q (takenPort s q n f)) p.hdr = .here := by
    have hfa' : (s.setPort q (takenPort s q n f)).fa = s.fa := rfl
    have hdst' : p.hdr.dst ≠ 0xFFFF := by
      rw [hdst]
      exact hfa
    rw [fateOf, htyp, if_neg (by decide), if_neg (by omega), if_neg (by decide), if_neg (not_or.mpr ⟨hsrc, hdst'⟩), hfa', if_pos hdst]
  have hvadm : admission v (xferHdr p) .write = none := by
    rw [hv]
    exact hadm
  have hopen : openHere q p v = (useCredit v (xferHdr p), .write (xferHdr p) (windowAddress v (xferHdr p)) 0 true) := by
    simp only [openHere, htyp, if_true, hvadm]
  have haddr : windowAddress v (xferHdr p) = windowAddress s (xferHdr p) := by
    rw [hv]
    rfl
  obtain ⟨w, hw⟩ : ∃ w, w = useCredit v (xferHdr p) := ⟨_, rfl⟩
  have hwport : w.port q = (takenPort s q n f).owe k 1 := by
    rw [hw, hv]
    exact State.port_setPort s q _
  have hpacket : openPacket q f.vc.toNat k p (s.setPort q (takenPort s q n f)) = w.setPort q { (takenPort s q n f).owe k 1 with
      incoming := [(f.vc.toNat, ⟨k, .write (xferHdr p) (windowAddress s (xferHdr p)) 0 true⟩)] } := by
    have hincoming : ((takenPort s q n f).owe k 1).incoming = [] := hi
    simp only [openPacket, hleft, hfate, hopen, ← hw]
    simp only [State.modPort, hwport, hincoming, haddr]
    rfl
  rw [htake _ hpacket (by rw [State.port_setPort]; rfl)] at hexec
  have hcalm : NothingOut w := by
    rw [hw, hv]
    refine (hc.nothingOut.setPort q (p := (takenPort s q n f).owe k 1) ?_).of_eq rfl rfl
    exact hc.queues q
  have hflush : ∀ i, flush (w.setPort q { (takenPort s q n f).owe k 1 with incoming := i })
      = w.setPort q { (takenPort s q n f).owe k 1 with incoming := i } := by
    intro i
    refine (hcalm.setPort q ?_).flush
    exact hc.queues q
  rw [hflush] at hexec
  refine ⟨_, hexec, ⟨State.port_setPort _ _ _, fun r hr => ?_⟩, ?_⟩
  · rw [State.port_setPort_ne _ hr, hw, hv]
    exact State.port_setPort_ne s hr _
  · rw [hw, hv]
    rfl

/-! ### Data frames (R377, R425) -/

/-- The scratchpad after a data frame of a write. -/
def storedFrame (s : State) (a j : Nat) (live : Bool) (body : List Byte) : Memory :=
  if live then s.store.mem.write (a + 256 * j) (padTo 256 body) else s.store.mem

/-- The state in which a data frame of a write has been stored and its place given back. -/
def frameStored (s : State) (q : Fin 20) (n l a j : Nat) (live : Bool) (f : Frame) (i : Tab Rx) : State :=
  (s.setMem (storedFrame s a j live f.body)).setPort q { (takenPort s q n f).owe l 1 with incoming := i }

theorem dataFrame_write {l a j : Nat} {live : Bool} {x : XferHdr} (hi : (s.port q).incoming = [(f.vc.toNat, ⟨l, .write x a j live⟩)])
    (hj : j < x.granules.toNat) (last : Bool) : dataFrame q f.vc.toNat f.body last (s.setPort q (takenPort s q n f))
      = if last then endHere (.write x a (if live then j + 1 else j) live) (frameStored s q n l a j live f [])
        else frameStored s q n l a j live f [(f.vc.toNat, ⟨l, .write x a (if live then j + 1 else j) live⟩)] := by
  have hport : (s.setPort q (takenPort s q n f)).port q = takenPort s q n f := State.port_setPort _ _ _
  have hincoming : (takenPort s q n f).incoming = [(f.vc.toNat, ⟨l, .write x a j live⟩)] := hi
  have howed : ((takenPort s q n f).owe l 1).incoming = [(f.vc.toNat, ⟨l, .write x a j live⟩)] := hi
  have hfind : [(f.vc.toNat, (⟨l, .write x a j live⟩ : Rx))].find? (fun e => e.1 == f.vc.toNat) = some (f.vc.toNat, ⟨l, .write x a j live⟩) := by
    simp
  have hsame : s.setMem s.store.mem = s := rfl
  have hwrite : ∀ v b, (s.setPort q v).write (a + 256 * j) b = (s.setMem (s.store.mem.write (a + 256 * j) b)).setPort q v := fun _ _ => rfl
  cases live
  · cases last <;> simp [dataFrame, hport, hincoming, hfind, frameStored, storedFrame, State.modPort, howed, tput, tdel, hsame]
  · cases last <;> simp [dataFrame, hport, hincoming, hfind, frameStored, storedFrame, State.modPort, howed, tput, tdel, hj, hwrite]

theorem takeFrame_data (h3 : f.kind = 3 ∨ f.kind = 4) {u : State}
    (hu : dataFrame q f.vc.toNat f.body (decide (f.kind = 4)) (s.setPort q (takenPort s q n f)) = u) :
    takeFrame (s.setPort q (headed s q n f)) q f = if 64 ≤ (u.port q).heard then sendAck u q else u := by
  have hs1 : (s.setPort q (headed s q n f)).modPort q (fun p => { p with
      rxExp := p.rxExp + 1, naks := 0, ackDue := true, heard := p.heard + 1 }) = s.setPort q (takenPort s q n f) := by
    rw [State.modPort, State.port_setPort, State.setPort_setPort]
    rfl
  have hkind : f.kind ≠ 1 ∧ f.kind ≠ 2 ∧ f.kind ≠ 5 := by
    rcases h3 with h | h <;> rw [h] <;> decide
  unfold takeFrame
  simp only [hs1, hkind, if_false, hu]

theorem Sending.sendAck (s : State) (q : Nat) : Sending s (sendAck s q) := by
  have hset : (s.port q).Alike { s.port q with ackDue := false, heard := 0, owed := [0, 0, 0, 0, 0, 0] } := rfl
  exact (Sending.setPort s q hset).trans (Sending.emit _ _)

/-- A data frame of a write that does not end it. -/
theorem data_stored {l a j : Nat} {live : Bool} {x : XferHdr} (hc : Calm s) (hup : portUp s q = true)
    (h : parseFrame raw = some f ∧ (fec = true ∨ q.val < 8)) (hseq : f.seq = (s.port q).rxExp) (hre : (s.port q).replay = [])
    (hheard : (s.port q).heard < 63) (hi : (s.port q).incoming = [(f.vc.toNat, ⟨l, .write x a j live⟩)]) (hj : j < x.granules.toNat)
    (hk : f.kind = 3) : Completes (.frameReceive q raw fec n) s (fun t =>
      t.store = { s.store with mem := storedFrame s a j live f.body }
      ∧ PortSet s t q { takenPort s q n f with
        owed := (s.port q).owed.set l ((s.port q).owed.getD l 0 + 1)
        incoming := [(f.vc.toNat, ⟨l, .write x a (if live then j + 1 else j) live⟩)] }
      ∧ t = { s with links := t.links, store := t.store }) := by
  have hdata := dataFrame_write (n := n) hi hj false
  rw [if_neg Bool.false_ne_true] at hdata
  have hlast : decide (f.kind = 4) = false := decide_eq_false (by rw [hk]; decide)
  have hfew : ∀ i, ¬ 64 ≤ ((frameStored s q n l a j live f i).port q).heard := by
    intro i
    have hport : ((frameStored s q n l a j live f i).port q).heard = (s.port q).heard + 1 := congrArg Port.heard (State.port_setPort _ _ _)
    omega
  have htake := takeFrame_data (n := n) (.inl hk) (Eq.trans (by rw [hlast]) hdata)
  have hexec := frame_taken (n := n) hup h (by rw [hk]; decide) (by rw [hk]; decide) hseq hre
  rw [htake, if_neg (hfew _)] at hexec
  have hflush : ∀ i, flush (frameStored s q n l a j live f i) = frameStored s q n l a j live f i := by
    intro i
    have hcalm : NothingOut (s.setMem (storedFrame s a j live f.body)) := hc.nothingOut.of_eq rfl rfl
    refine (hcalm.setPort q ?_).flush
    exact hc.queues q
  rw [hflush] at hexec
  exact ⟨_, hexec, rfl, ⟨State.port_setPort _ _ _, fun r hr => State.port_setPort_ne _ hr _⟩, rfl⟩

/-- The last data frame of a write completes it, and its sender is told. -/
theorem data_ends {l a j : Nat} {live : Bool} {x : XferHdr} (hup : portUp s q = true)
    (h : parseFrame raw = some f ∧ (fec = true ∨ q.val < 8)) (hseq : f.seq = (s.port q).rxExp) (hre : (s.port q).replay = [])
    (hi : (s.port q).incoming = [(f.vc.toNat, ⟨l, .write x a j live⟩)]) (hj : j < x.granules.toNat) (hk : f.kind = 4) :
    Completes (.frameReceive q raw fec n) s (fun t =>
      t.store = { s.store with mem := storedFrame s a j live f.body } ∧ t.die = s.die ∧ (t.port q).incoming = []
      ∧ (Reaches s x.src → ∃ g, Sent.packet (donePacket s x (if live then 0 else dcRevoked) g) ∈ t.sent)) := by
  obtain ⟨v, hv⟩ : ∃ v, v = frameStored s q n l a j live f [] := ⟨_, rfl⟩
  have hvspec : v.store = { s.store with mem := storedFrame s a j live f.body } ∧ v.die = s.die ∧ (v.port q).incoming = []
      ∧ v.fabric = s.fabric := by
    rw [hv]
    exact ⟨rfl, rfl, congrArg Port.incoming (State.port_setPort _ _ _), rfl⟩
  obtain ⟨hstore, hdie, hincoming, hfab⟩ := hvspec
  have hdata := dataFrame_write (n := n) hi hj true
  rw [if_pos rfl, ← hv] at hdata
  have hlast : decide (f.kind = 4) = true := decide_eq_true hk
  obtain ⟨w, hw⟩ : ∃ w, w = endHere (.write x a (if live then j + 1 else j) live) v := ⟨_, rfl⟩
  have hgrant : Granting v w ∧ (Reaches s x.src → ∃ g, Sent.packet (donePacket s x (if live then 0 else dcRevoked) g) ∈ w.sent) := by
    rw [hw]
    have hreach : Reaches s x.src → Reaches v x.src := (reaches_congr hfab).mpr
    have hpacket : ∀ o g, donePacket v x o g = donePacket s x o g := fun o g => packet_congr hfab _ _ _ _
    cases live
    · refine ⟨(Sending.postDone _ _ _ _ _ _ _ _).toGranting, fun hr => ⟨0, ?_⟩⟩
      rw [← hpacket]
      exact (postDone_sends (s := v) x dcRevoked 0 (hreach hr)).mem
    · refine ⟨Granting.finishPacket _ _ _ _, fun hr => ?_⟩
      obtain ⟨g, hg⟩ := finishPacket_sends (s := v) x 0 true (hreach hr)
      refine ⟨g, ?_⟩
      rw [← hpacket]
      exact hg.mem
  have htake := takeFrame_data (n := n) (.inr hk) (u := w) (by rw [hlast, hw]; exact hdata)
  have hsend : Sending w (flush (takeFrame (s.setPort q (headed s q n f)) q f)) := by
    rw [htake]
    exact (Sending.ite (Sending.sendAck _ _) (Sending.refl _)).trans (Sending.flush _)
  refine ⟨_, frame_taken hup h (by rw [hk]; decide) (by rw [hk]; decide) hseq hre, ?_⟩
  generalize flush (takeFrame (s.setPort q (headed s q n f)) q f) = t at hsend ⊢
  have hall := hgrant.1.trans hsend.toGranting
  refine ⟨hall.store.trans hstore, hall.die.trans hdie, ?_, fun hr => ?_⟩
  · rw [hall.port q]
    exact hincoming
  · obtain ⟨g, hg⟩ := hgrant.2 hr
    exact ⟨g, hsend.sent.subset hg⟩

end

end Sys2Proof.Machine
end

section
/-! PROOFS. Packets that arrive: discarded, told, waiting or forwarded; combining records; and LINK.RETRAIN (R152, R378, R397, R410, R413,
R416, R439). -/

namespace Sys2Proof.Machine

/-! ### Flushes that send nothing, and one that sends one frame -/

/-- Ports of which none can send now, and no packet that waits. -/
theorem flush_stuck {s : State} (hq : ∀ j < 20, (s.port j).queue = [] ∨ nextOut s j = none) (hw : startOne s = none) : flush s = s := by
  have hsend : sendOne s = none := by
    refine List.findSome?_eq_none_iff.mpr fun j hj => ?_
    rcases hq j (List.mem_range.mp hj) with h | h
    · rw [h]
      simp
    · rw [h]
      simp
  obtain ⟨n, hn⟩ : ∃ n, 10000 + s.fabric.waiting.length = n + 1 := ⟨9999 + s.fabric.waiting.length, by omega⟩
  rw [flush, hn, flushN, hsend, hw]

theorem startOne_nothing {s : State} (hw : s.fabric.waiting = []) : startOne s = none := by
  rw [startOne, hw]
  rfl

/-- With one port that can send, and nothing after it, a flush sends its frame. -/
theorem flush_one {s : State} {r : Nat} {o : OutPacket} (hr : r < 20) (hq : ∀ j < 20, j ≠ r → (s.port j).queue = [])
    (hup : portUp s r = true) (hlen : (s.port r).replay.length < 512) (hne : (s.port r).queue ≠ []) (hn : nextOut s r = some o)
    (hafter : NothingOut (sendFrame s r o)) : flush s = sendFrame s r o := by
  have hsend : sendOne s = some (sendFrame s r o) := by
    have hstep : ∀ j < 20, (if portUp s j && (s.port j).replay.length < 512 && !(s.port j).queue.isEmpty
        then (nextOut s j).map (sendFrame s j) else none) = if j = r then some (sendFrame s r o) else none := by
      intro j hj
      by_cases hjr : j = r
      · subst hjr
        simp [hup, hlen, hne, hn]
      · rw [hq j hj hjr, if_neg hjr]
        simp
    have hfind : ∀ l : List Nat, (∀ j ∈ l, j < 20) → r ∈ l → l.findSome? (fun j =>
        if portUp s j && (s.port j).replay.length < 512 && !(s.port j).queue.isEmpty then (nextOut s j).map (sendFrame s j) else none)
        = some (sendFrame s r o) := by
      intro l
      induction l with
      | nil => exact fun _ h => absurd h List.not_mem_nil
      | cons j l ih =>
        intro hl hmem
        rw [List.findSome?_cons, hstep j (hl j List.mem_cons_self)]
        by_cases hjr : j = r
        · rw [if_pos hjr]
        · rw [if_neg hjr]
          exact ih (fun k hk => hl k (List.mem_cons_of_mem _ hk)) ((List.mem_cons.mp hmem).resolve_left fun h => hjr h.symm)
    exact hfind _ (fun j hj => List.mem_range.mp hj) (List.mem_range.mpr hr)
  obtain ⟨n, hlen'⟩ : ∃ n, 10000 + s.fabric.waiting.length = n + 1 + 1 := ⟨9998 + s.fabric.waiting.length, by omega⟩
  rw [flush, hlen', flushN, hsend]
  simp only [flushN, hafter.sendOne, hafter.startOne]

/-! ### The fate of a packet (R378, R397) -/

section
variable {s : State} {q : Fin 20} {pkt : Packet}

theorem arrival_exec (hup : portUp s q = true) : exec (.packetHeaderArrival q pkt) s = .next (flush (arrive q none pkt s)) :=
  congrArg Host.Outcome.next (if_pos hup)

theorem fateOf_onward (htyp : pkt.hdr.typ.toNat < 9) (hsrc : pkt.hdr.src ≠ 0xFFFF) (hdst : pkt.hdr.dst ≠ 0xFFFF) (hfa : pkt.hdr.dst ≠ s.fa)
    (hlost : ¬ (31 ≤ pkt.hdr.hops.toNat ∨ reachable s pkt.hdr.dst = false)) : fateOf s pkt.hdr = .onward := by
  obtain ⟨hhops, hr⟩ := not_or.mp hlost
  have h9 : pkt.hdr.typ ≠ 9 := fun h => absurd htyp (by rw [h]; decide)
  rw [fateOf, if_neg (by omega), if_neg (by omega), if_neg h9, if_neg (not_or.mpr ⟨hsrc, hdst⟩), if_neg hfa, if_neg (by omega),
    if_neg (by simp [Bool.eq_true_of_not_eq_false hr])]

theorem fateOf_lost (htyp : pkt.hdr.typ.toNat < 9) (hsrc : pkt.hdr.src ≠ 0xFFFF) (hdst : pkt.hdr.dst ≠ 0xFFFF) (hfa : pkt.hdr.dst ≠ s.fa)
    (hlost : 31 ≤ pkt.hdr.hops.toNat ∨ reachable s pkt.hdr.dst = false) : ∃ r, fateOf s pkt.hdr = .discard r := by
  have h9 : pkt.hdr.typ ≠ 9 := fun h => absurd htyp (by rw [h]; decide)
  rw [fateOf, if_neg (by omega), if_neg h9, if_neg (not_or.mpr ⟨hsrc, hdst⟩), if_neg hfa]
  by_cases h32 : 32 ≤ pkt.hdr.hops.toNat
  · exact ⟨1, if_pos h32⟩
  · by_cases h31 : 32 ≤ pkt.hdr.hops.toNat + 1
    · exact ⟨1, by rw [if_neg h32, if_pos h31]⟩
    · refine ⟨4, ?_⟩
      rw [if_neg h32, if_neg h31, if_pos (by rw [hlost.resolve_left (by omega)]; rfl)]

theorem arrive_discarded {r : Byte} (h : fateOf s pkt.hdr = .discard r) : arrive q none pkt s = discardTell s r q pkt := by
  simp only [arrive, h]

/-- A packet whose sender is not told is discarded with one entry. -/
theorem discarded_alone (hh : s.fw.hand = none) (hc : Calm s) (hup : portUp s q = true) {r : Byte} (h : fateOf s pkt.hdr = .discard r)
    (ht : pkt.hdr.typ = 3 ∨ 11 ≤ pkt.hdr.typ.toNat) : Completes (.packetHeaderArrival q pkt) s (fun t =>
      t.ledger.head = s.ledger.head + 1 ∧ t.links = s.links ∧ DieStays s t) := by
  have htypes : ¬ (pkt.hdr.typ = 5 ∨ pkt.hdr.typ = 6 ∨ pkt.hdr.typ = 7) ∧ pkt.hdr.typ ≠ 8 := by
    rcases ht with h3 | h11
    · rw [h3]
      decide
    · refine ⟨?_, fun h => absurd h11 (by rw [h]; decide)⟩
      rintro (h | h | h) <;> exact absurd h11 (by rw [h]; decide)
  have hsame : arrive q none pkt s = discarded s r (byte q) pkt.hdr 1 := by
    rw [arrive_discarded h, discardTell, tellUnreachable]
    simp only [htypes, if_false]
  refine ⟨_, (arrival_exec hup).trans (congrArg _ (by rw [hsame])), ?_⟩
  unfold discarded
  rw [(hc.nothingOut.event _ _).flush]
  exact ⟨event_head (inPause_none hh) _ _, (event_fields _ _ _).1, .sending (Sending.event _ _ _)⟩

/-- The sender of a packet of a transfer that is discarded is told so. -/
theorem discarded_told (hup : portUp s q = true) {r : Byte} (h : fateOf s pkt.hdr = .discard r) (ht : pkt.hdr.typ = 5)
    (hr : Reaches s pkt.hdr.src) (hne : pkt.hdr.src ≠ s.fa) : Completes (.packetHeaderArrival q pkt) s (fun t =>
      DieStays s t ∧ Sent.packet (donePacket s (xferHdr pkt) dcUnreachable 0) ∈ t.sent) := by
  obtain ⟨u, hu⟩ : ∃ u, u = discarded s r (byte q) pkt.hdr 1 := ⟨_, rfl⟩
  have hsend : Sending s u := by
    rw [hu]
    exact Sending.discarded _ _ _ _ _
  have hfab : u.fabric = s.fabric := by
    rw [hu]
    exact (congrArg State.fabric (event_frame s _ _) :)
  have htold : arrive q none pkt s = postDone u pkt.hdr.src (byte (gaWindow (xferHdr pkt).ga)) dcUnreachable (xferHdr pkt).xfer
      (xferHdr pkt).chan (xferHdr pkt).index 0 := by
    have hfa : u.fa = s.fa := congrArg Fabric.fa hfab
    rw [arrive_discarded h, discardTell, tellUnreachable, ← hu]
    simp only [ht, true_or, if_true, hfa, hne, if_false]
  have hpost := postDone_sends (s := u) (xferHdr pkt) dcUnreachable 0 ((reaches_congr hfab).mpr hr)
  have hpacket : donePacket u (xferHdr pkt) dcUnreachable 0 = donePacket s (xferHdr pkt) dcUnreachable 0 := packet_congr hfab _ _ _ _
  rw [hpacket] at hpost
  have hdone := Sending.postDone u pkt.hdr.src (byte (gaWindow (xferHdr pkt).ga)) dcUnreachable (xferHdr pkt).xfer
      (xferHdr pkt).chan (xferHdr pkt).index 0
  refine ⟨_, (arrival_exec hup).trans (congrArg _ (by rw [htold])), .sending ((hsend.trans hdone).trans (Sending.flush _)), ?_⟩
  exact (Sending.flush _).sent.subset hpost.mem

/-! ### Packets that go on (R377, R410) -/

/-- The packet as it goes on from port `q`. -/
def onwardPacket (q : Fin 20) (pkt : Packet) : OutPacket := { vc := 0, pkt := hopped pkt, arrival := some (q : Nat) }

theorem arrive_onward (htyp : pkt.hdr.typ ≠ 6) (h : fateOf s pkt.hdr = .onward) {t : State} (ht : place s (onwardPacket q pkt) = some t) :
    arrive q none pkt s = t := by
  have hwhole : forwardWhole s (onwardPacket q pkt) = some t := by
    have hnone : partnerFor s (onwardPacket q pkt) = none := if_pos (.inl htyp)
    rw [forwardWhole, hnone]
    exact ht
  simp only [arrive, h]
  rw [onwardPacket] at hwhole
  rw [hwhole]

theorem entryValid_of_reachable {fa : W16} (hr : reachable s fa = true) (hne : fa ≠ s.fa) : entryValid (s.destEntry fa) = true := by
  rw [reachable, beq_false_of_ne hne, Bool.false_or] at hr
  simp only [Bool.and_eq_true] at hr
  exact hr.2

/-- A bulk packet that no port serves waits. -/
theorem bulk_waits (hc : Calm s) (hup : portUp s q = true) (hsrc : pkt.hdr.src ≠ 0xFFFF) (hdst : pkt.hdr.dst ≠ 0xFFFF)
    (hfa : pkt.hdr.dst ≠ s.fa) (htyp : pkt.hdr.typ = 5) (hlost : ¬ (31 ≤ pkt.hdr.hops.toNat ∨ reachable s pkt.hdr.dst = false))
    (hflag : pkt.hdr.flags.getLsbD 0 = false) (hports : ∀ r : Fin 20, usable s r = false) : exec (.packetHeaderArrival q pkt) s
      = .next { s with fabric := { s.fabric with waiting := [{ vc := 2, pkt := hopped pkt, arrival := some (q : Nat) }] } } := by
  have hr : reachable s pkt.hdr.dst = true := Bool.eq_true_of_not_eq_false (not_or.mp hlost).2
  have hbit : bit pkt.hdr.flags.toNat 0 = false := by
    rw [bit, BitVec.testBit_toNat]
    exact hflag
  have hvalid : entryValid (s.destEntry (hopped pkt).hdr.dst) = true := entryValid_of_reachable hr hfa
  have hplace : place s (onwardPacket q pkt) = some { s with fabric := { s.fabric with
      waiting := [{ vc := 2, pkt := hopped pkt, arrival := some (q : Nat) }] } } := by
    have hvc : vcOfType (hopped pkt).hdr.typ = 2 := by
      change vcOfType pkt.hdr.typ = 2
      rw [htyp]
      rfl
    have hbit' : bit (hopped pkt).hdr.flags.toNat 0 = false := hbit
    simp only [place, onwardPacket, hvalid, hvc, hbit', hc.waiting, Bool.not_true, Bool.false_eq_true, if_false, OfNat.ofNat_ne_zero,
      List.nil_append]
  rw [arrival_exec hup, arrive_onward (by rw [htyp]; decide) (fateOf_onward (by rw [htyp]; decide) hsrc hdst hfa hlost) hplace]
  refine congrArg Host.Outcome.next (flush_stuck (fun j hj => .inl (hc.queues ⟨j, hj⟩)) ?_)
  obtain ⟨u, hu⟩ : ∃ u : State, u = { s with fabric := { s.fabric with
      waiting := [{ vc := 2, pkt := hopped pkt, arrival := some (q : Nat) }] } } := ⟨_, rfl⟩
  have huse : ∀ j < 20, usable u j = false := fun j hj => by
    rw [hu]
    exact hports ⟨j, hj⟩
  have hoffer : ∀ o, offer u o = none := by
    intro o
    have hmin : (entryMin (u.destEntry o.pkt.hdr.dst)).filterMap (fun q => (startAt u q o).map (fun d => (q, d))) = [] := by
      refine List.filterMap_eq_nil_iff.mpr fun j hj => ?_
      have hj20 : j < 20 := List.mem_range.mp (List.mem_filter.mp hj).1
      have hstart : startAt u j o = none := by
        unfold startAt
        dsimp only
        rw [if_pos]
        rw [huse j hj20]
        rfl
      rw [hstart]
      rfl
    have hesc : ∀ j < 20, escapeUsable u j = false := fun j hj => by rw [escapeUsable, huse j hj, Bool.false_and]
    unfold offer
    dsimp only
    rw [hmin]
    refine if_neg ?_
    intro hgo
    simp only [Bool.and_eq_true, decide_eq_true_eq] at hgo
    rw [hesc _ hgo.1.1] at hgo
    exact absurd hgo.1.2 Bool.false_ne_true
  have hwait : u.fabric.waiting = [{ vc := 2, pkt := hopped pkt, arrival := some (q : Nat) }] := by rw [hu]
  rw [← hu, startOne, hwait, List.findSome?_cons, hoffer]
  rfl

end

end Sys2Proof.Machine
end

section
/-! PROOFS. A control packet that goes on, combining records that time out, and LINK.RETRAIN (R152, R377, R380, R410, R416). -/

namespace Sys2Proof.Machine

section
variable {s : State} {q : Fin 20} {pkt : Packet}

/-! ### The last frame of a packet (R376, R380) -/

/-- The port after the last frame of packet `o`. -/
def lastSentPort (s : State) (q : Nat) (o : OutPacket) : Port :=
  { s.port q with
    queue := (s.port q).queue.erase o, txSeq := (s.port q).txSeq + 1
    credits := (s.port q).credits.set o.pool (creditOf (s.port q) o.pool - 1)
    replay := (s.port q).replay ++ [{ seq := (s.port q).txSeq, vc := o.vc, pool := o.pool, kind := o.frame.1, body := o.frame.2
                                      cvc := (returned (s.port q)).1, ccnt := (returned (s.port q)).2.1, by_ := o.origin s }]
    owed := (returned (s.port q)).2.2, ackDue := false, heard := 0
    spaced := if o.vc = 0 then (if othersWait s q then 0 else (s.port q).spaced) else min 3 ((s.port q).spaced + 1) }

/-- The frame as it leaves. -/
def outFrame (s : State) (q : Nat) (o : OutPacket) : Frame :=
  { seq := (s.port q).txSeq, ack := (s.port q).rxExp, vc := BitVec.ofNat 2 o.vc, kind := o.frame.1, cvc := (returned (s.port q)).1
    ccnt := (returned (s.port q)).2.1, body := o.frame.2 }

theorem sendFrame_last {q : Nat} {o : OutPacket} (hl : o.atLast = true) (ha : o.abort = false) : sendFrame s q o
    = readSent (oweFor ((s.setPort q (lastSentPort s q o)).emit (.frame q (frameBytes (outFrame s q o)))) o 1) o.pkt := by
  simp only [sendFrame, hl, ha, Bool.not_false, Bool.and_self, Bool.false_eq_true, if_false, if_true]
  rfl

/-! ### A control packet on its way (R377, R380, R410) -/

/-- The packet as it stands in the queue of port `r`. -/
def queuedOn (s : State) (q : Fin 20) (pkt : Packet) (r : Fin 20) : OutPacket :=
  { vc := 0, pkt := hopped pkt, arrival := some (q : Nat), flags := leaveFlags s (some q) (hopped pkt) r 0 }

/-- The place that it takes at the partner of port `r`. -/
def queuedPlace (s : State) (q : Fin 20) (pkt : Packet) (r : Fin 20) : Nat :=
  poolOf 0 (bit (leaveFlags s (some q) (hopped pkt) r 0).toNat 1)

/-- The state in which it stands there. -/
def queuedState (s : State) (q : Fin 20) (pkt : Packet) (r : Fin 20) : State :=
  s.setPort r { s.port r with queue := [queuedOn s q pkt r] }

section
variable {r : Fin 20} (hc : Calm s) (hup : portUp s q = true) (hsrc : pkt.hdr.src ≠ 0xFFFF) (hdst : pkt.hdr.dst ≠ 0xFFFF)
  (hfa : pkt.hdr.dst ≠ s.fa) (htyp : pkt.hdr.typ = 3) (hlost : ¬ (31 ≤ pkt.hdr.hops.toNat ∨ reachable s pkt.hdr.dst = false))
  (hesc : escChoice s (s.destEntry pkt.hdr.dst) = some (r : Nat))
include hc hup hsrc hdst hfa htyp hlost hesc

theorem control_queued : exec (.packetHeaderArrival q pkt) s = .next (flush (queuedState s q pkt r)) := by
  have hr : reachable s pkt.hdr.dst = true := Bool.eq_true_of_not_eq_false (not_or.mp hlost).2
  have hvalid : entryValid (s.destEntry (hopped pkt).hdr.dst) = true := entryValid_of_reachable hr hfa
  have hesc' : escChoice s (s.destEntry (hopped pkt).hdr.dst) = some (r : Nat) := hesc
  have hvc : vcOfType (hopped pkt).hdr.typ = 0 := by
    change vcOfType pkt.hdr.typ = 0
    rw [htyp]
    rfl
  have hbind : bindTo s (onwardPacket q pkt) r 0 = queuedState s q pkt r := by
    have hqueue := hc.queues r
    unfold bindTo State.modPort queuedState queuedOn onwardPacket
    simp only [hqueue, List.nil_append]
  have hplace : place s (onwardPacket q pkt) = some (queuedState s q pkt r) := by
    have hpkt : (onwardPacket q pkt).pkt = hopped pkt := rfl
    simp only [place, hpkt, hvalid, hvc, hesc', Bool.not_true, Bool.false_eq_true, if_false, if_true, Option.map_some, hbind]
  rw [arrival_exec hup, arrive_onward (by rw [htyp]; decide) (fateOf_onward (by rw [htyp]; decide) hsrc hdst hfa hlost) hplace]

omit hup hsrc hdst hfa htyp hlost hesc in
theorem queued_others (j : Nat) (hj : j < 20) (hjr : j ≠ r) : ((queuedState s q pkt r).port j).queue = [] := by
  rw [queuedState, State.port_setPort_ne _ hjr]
  exact hc.queues ⟨j, hj⟩

omit hc hup hsrc hdst hfa htyp hlost hesc in
theorem queued_port : (queuedState s q pkt r).port r = { s.port r with queue := [queuedOn s q pkt r] } := State.port_setPort _ _ _

omit hc hup hsrc hdst hfa htyp hlost hesc in
/-- What of it can leave: its frame, if the port holds a credit. -/
theorem pick_queued (vc : Nat) : pick { s.port r with queue := [queuedOn s q pkt r] } vc
    = if vc = 0 ∧ creditOf (s.port r) (queuedPlace s q pkt r) ≠ 0 then some (queuedOn s q pkt r) else none := by
  have hbegun : (queuedOn s q pkt r).begun = false := rfl
  have hvc : ((queuedOn s q pkt r).vc == vc) = decide (vc = 0) := by
    by_cases h : vc = 0
    · rw [h]
      rfl
    · rw [decide_eq_false h]
      exact beq_false_of_ne fun h' => h h'.symm
  have hsend : sendable { s.port r with queue := [queuedOn s q pkt r] } (queuedOn s q pkt r)
      = decide (creditOf (s.port r) (queuedPlace s q pkt r) ≠ 0) := by
    have hready : (queuedOn s q pkt r).ready = true := rfl
    rw [sendable, hready, Bool.true_and]
    exact decide_eq_decide.mpr Nat.pos_iff_ne_zero
  rw [pick, find?_only, hbegun, Bool.and_false, if_neg Bool.false_ne_true]
  simp only [find?_only, hvc, hsend, Bool.and_eq_true, decide_eq_true_eq]

omit hup hsrc hdst hfa htyp hlost hesc in
theorem nextOut_queued : nextOut (queuedState s q pkt r) r
    = if creditOf (s.port r) (queuedPlace s q pkt r) ≠ 0 then some (queuedOn s q pkt r) else none := by
  have hother : nextOther ((queuedState s q pkt r).port r) = none := by
    rw [nextOther, queued_port, pick_queued, pick_queued, pick_queued]
    rfl
  have hwait : othersWait (queuedState s q pkt r) r = false := by
    have hw : (queuedState s q pkt r).fabric.waiting = [] := hc.waiting
    rw [othersWait, hother, hw]
    rfl
  have h0 : pick ((queuedState s q pkt r).port r) 0
      = if creditOf (s.port r) (queuedPlace s q pkt r) ≠ 0 then some (queuedOn s q pkt r) else none := by
    rw [queued_port, pick_queued]
    simp only [true_and]
  unfold nextOut
  simp only [h0, hwait, hother]
  by_cases hcr : creditOf (s.port r) (queuedPlace s q pkt r) = 0
  · simp only [hcr, ne_eq, not_true, if_false]
  · simp only [hcr, ne_eq, not_false_iff, if_true, Bool.and_false, Bool.false_eq_true, if_false]

/-- Without a credit it stays in the queue of its port. -/
theorem control_stays (hcr : creditOf (s.port r) (queuedPlace s q pkt r) = 0) :
    exec (.packetHeaderArrival q pkt) s = .next (queuedState s q pkt r) := by
  rw [control_queued hc hup hsrc hdst hfa htyp hlost hesc]
  refine congrArg Host.Outcome.next (flush_stuck (fun j hj => ?_) (startOne_nothing hc.waiting))
  by_cases hjr : j = r
  · rw [hjr]
    exact .inr ((nextOut_queued hc).trans (if_neg (not_not_intro hcr)))
  · exact .inl (queued_others hc j hj hjr)

/-- With one credit it leaves as one frame. -/
theorem control_leaves (hrup : portUp s r = true) (hre : (s.port r).replay = []) (hdata : pkt.data = [])
    (hcr : creditOf (s.port r) (queuedPlace s q pkt r) = 1) : Completes (.packetHeaderArrival q pkt) s (fun t =>
      (t.port r).queue = [] ∧ creditOf (t.port r) (queuedPlace s q pkt r) = 0 ∧ DieStays s t
      ∧ ∃ g : Frame, Sent.frame r (frameBytes g) ∈ t.sent ∧ g.kind = 2 ∧ g.seq = (s.port r).txSeq ∧ g.vc = 0
          ∧ g.body = padTo 256 (netHeader { (hopped pkt).hdr with flags := leaveFlags s (some q) (hopped pkt) r 0 } ++ (hopped pkt).content)) := by
  obtain ⟨o, ho⟩ : ∃ o, o = queuedOn s q pkt r := ⟨_, rfl⟩
  obtain ⟨u, hu⟩ : ∃ u, u = queuedState s q pkt r := ⟨_, rfl⟩
  have huport : u.port r = { s.port r with queue := [o] } := by rw [hu, queued_port, ho]
  have hlast : o.atLast = true := by
    have hd : (hopped pkt).data.length = 0 := by
      rw [show (hopped pkt).data = pkt.data from rfl, hdata]
      rfl
    rw [ho]
    simp [OutPacket.atLast, queuedOn, hd]
  have habort : o.abort = false := by rw [ho]; rfl
  have hplace : ∀ v : State, oweFor v o 1 = v := by
    intro v
    rw [ho]
    rfl
  have hread : ∀ v : State, readSent v o.pkt = v := by
    intro v
    have hnone : readOf v o.pkt = none := by
      refine if_pos (.inl ?_)
      rw [ho, show (queuedOn s q pkt r).pkt.hdr.typ = pkt.hdr.typ from rfl, htyp]
      decide
    rw [readSent, hnone]
  have hpool : o.pool = queuedPlace s q pkt r := by rw [ho]; rfl
  have herase : (u.port r).queue.erase o = [] := by
    rw [huport]
    exact List.erase_cons_head ..
  have hframe : o.frame = (2, padTo 256 (netHeader { (hopped pkt).hdr with flags := leaveFlags s (some q) (hopped pkt) r 0 }
      ++ (hopped pkt).content)) := by
    have hsent : o.sent = 0 := by rw [ho]; rfl
    simp only [OutPacket.frame, habort, hsent, hlast, if_true, Bool.false_eq_true, if_false]
    rw [ho]
    rfl
  have hleaves : sendFrame u r o = (u.setPort r (lastSentPort u r o)).emit (.frame r (frameBytes (outFrame u r o))) := by
    rw [sendFrame_last hlast habort, hplace, hread]
  have hqueue : (lastSentPort u r o).queue = [] := herase
  have hcredits : (lastSentPort u r o).credits = (s.port r).credits.set (queuedPlace s q pkt r) 0 := by
    have hone : creditOf (u.port r) o.pool = 1 := by
      rw [huport, hpool]
      exact hcr
    rw [lastSentPort, hone, hpool, huport]
  have hflush : flush u = sendFrame u r o := by
    refine flush_one r.isLt (fun j hj hjr => ?_) ?_ ?_ ?_ ?_ ?_
    · rw [hu]
      exact queued_others hc j hj hjr
    · rw [portUp, huport]
      exact hrup
    · rw [huport, hre]
      decide
    · rw [huport]
      exact List.cons_ne_nil _ _
    · rw [hu, ho, nextOut_queued hc, if_pos (by rw [hcr]; decide)]
    · rw [hleaves]
      refine ⟨fun j hj => ?_, by rw [hu]; exact hc.waiting⟩
      by_cases hjr : j = r
      · rw [hjr]
        exact (congrArg Port.queue (State.port_setPort _ _ _)).trans hqueue
      · refine (congrArg Port.queue (State.port_setPort_ne _ hjr _)).trans ?_
        rw [hu]
        exact queued_others hc j hj hjr
  have hport : ((u.setPort r (lastSentPort u r o)).emit (.frame r (frameBytes (outFrame u r o)))).port r = lastSentPort u r o :=
    State.port_setPort _ _ _
  have hexec := control_queued hc hup hsrc hdst hfa htyp hlost hesc
  rw [← hu, hflush, hleaves] at hexec
  refine ⟨_, hexec, ?_, ?_, ?_, outFrame u r o, List.mem_append_right _ List.mem_cons_self, ?_, ?_, ?_, ?_⟩
  · rw [hport]
    exact hqueue
  · rw [creditOf, hport, hcredits, List.getD_eq_getElem?_getD]
    by_cases hlen : queuedPlace s q pkt r < (s.port r).credits.length
    · rw [List.getElem?_set_self hlen]
      rfl
    · rw [List.set_eq_of_length_le (Nat.le_of_not_lt hlen), List.getElem?_eq_none (Nat.le_of_not_lt hlen)]
      rfl
  · rw [hu]
    exact ⟨rfl, rfl, rfl⟩
  · exact congrArg Prod.fst hframe
  · rw [outFrame, huport]
  · rw [outFrame, ho]
    rfl
  · exact congrArg Prod.snd hframe

end

/-! ### Combining records (R416) -/

theorem packetDone_mem {u : State} {v : State} (hfab : u.fabric.fa = v.fabric.fa ∧ u.fabric.active = v.fabric.active) (h : XferHdr) (w o : Byte)
    (hr : Reaches v h.src) : Sent.packet (packet v h.src 0 0 (0x22 :: ([w, o] ++ leBytes 2 h.xfer.toNat ++ [h.chan] ++ leBytes 2 h.index.toNat
      ++ [0]))) ∈ (packetDone u h.src w o h.xfer h.chan h.index 0).sent := by
  obtain ⟨hfa, hact⟩ := hfab
  have hdest : u.destEntry h.src = v.destEntry h.src := by rw [State.destEntry, State.destEntry, hact]
  have hfa' : u.fa = v.fa := hfa
  have hreach : Reaches u h.src := by
    rw [Reaches, reachable, hfa', hdest]
    exact hr
  have hpacket : ∀ c, packet u h.src 0 0 c = packet v h.src 0 0 c := fun c => by rw [packet, packet, hfa']
  rw [← hpacket]
  exact (sends_control hreach _ _).mem

/-- A record without an outcome ends, and both sources are told. -/
theorem record_lost {n : Nat} {e : CombineRecord} (he : s.fabric.records.find? (fun r => r.num == n) = some e) :
    Completes (.combineRecordTimeout n) s (fun t => t.fabric.records = s.fabric.records.filter (fun r => r != e) ∧ t.die = s.die
      ∧ t.store = s.store ∧ ∀ x ∈ [e.fst, e.snd], Reaches s x.src → Sent.packet (packet s x.src 0 0 (0x22 :: ([byte e.window, dcLost]
        ++ leBytes 2 x.xfer.toNat ++ [x.chan] ++ leBytes 2 x.index.toNat ++ [0]))) ∈ t.sent) := by
  obtain ⟨u, hu⟩ : ∃ u : State, u = { s with fabric := { s.fabric with records := s.fabric.records.filter (fun r => r != e) } } := ⟨_, rfl⟩
  have hexec : exec (.combineRecordTimeout n) s = .next (finishRecord s e dcLost) := by
    change execCombineRecordTimeout n s = _
    simp only [execCombineRecordTimeout, he]
  have hend : finishRecord s e dcLost = packetDone (packetDone u e.fst.src (byte e.window) dcLost e.fst.xfer e.fst.chan e.fst.index 0)
      e.snd.src (byte e.window) dcLost e.snd.xfer e.snd.chan e.snd.index 0 := by
    rw [finishRecord, hu]
  have h1 : Sending u (packetDone u e.fst.src (byte e.window) dcLost e.fst.xfer e.fst.chan e.fst.index 0) := Sending.control _ _ _ _
  have hmem1 := packetDone_mem (u := u) (v := s) (by rw [hu]; exact ⟨rfl, rfl⟩) e.fst (byte e.window) dcLost
  obtain ⟨v, hv⟩ : ∃ v, v = packetDone u e.fst.src (byte e.window) dcLost e.fst.xfer e.fst.chan e.fst.index 0 := ⟨_, rfl⟩
  rw [← hv] at h1 hmem1 hend
  have hmem2 := packetDone_mem (u := v) (v := s) (by rw [h1.fabric, hu]; exact ⟨rfl, rfl⟩) e.snd (byte e.window) dcLost
  have h2 : Sending v (packetDone v e.snd.src (byte e.window) dcLost e.snd.xfer e.snd.chan e.snd.index 0) := Sending.control _ _ _ _
  have hall := h1.trans h2
  refine ⟨_, hexec.trans (congrArg _ hend), ?_, ?_, ?_, fun x hx hr => ?_⟩
  · rw [hall.fabric, hu]
  · rw [hall.die, hu]
  · rw [hall.store, hu]
  · rcases List.mem_pair.mp hx with rfl | rfl
    · exact h2.sent.subset (hmem1 hr)
    · exact hmem2 hr

theorem record_none (n : Nat) (h : s.fabric.records = []) : exec (.combineRecordTimeout n) s = .next s := by
  change execCombineRecordTimeout n s = _
  simp only [execCombineRecordTimeout, h, List.find?_nil]

/-! ### The end of a retrain (R67, R152) -/

theorem backgrounds_frame {d : List Byte} (l : List Origin) (u : State) :
    (l.foldl (fun t o => background t o stOk d) u).links = u.links ∧ DieStays u (l.foldl (fun t o => background t o stOk d) u) := by
  induction l generalizing u with
  | nil => exact ⟨rfl, .refl u⟩
  | cons o l ih =>
    have hf := background_frame u o stOk d
    obtain ⟨hlinks, hdie⟩ := ih (background u o stOk d)
    exact ⟨hlinks.trans (congrArg State.links hf :), DieStays.trans ⟨(congrArg State.die hf :), (congrArg State.store hf :),
      (congrArg State.gateUnit hf :)⟩ hdie⟩

theorem backgrounds_head {d : List Byte} (l : List Origin) (u : State) (hh : u.fw.hand = none) :
    (l.foldl (fun t o => background t o stOk d) u).ledger.head = u.ledger.head + BitVec.ofNat 32 l.length := by
  induction l generalizing u with
  | nil => simp
  | cons o l ih =>
    have hhand : (background u o stOk d).fw.hand = none := by
      rw [background_frame]
      exact hh
    rw [List.foldl_cons, ih _ hhand, background_head (inPause_none hh), List.length_cons]
    bv_omega

theorem endRetrain_spec (s : State) (q us : Nat) :
    PortSet s (endRetrain s q us) q { s.port q with retrain := [] } ∧ DieStays s (endRetrain s q us) := by
  obtain ⟨hlinks, hdie⟩ := backgrounds_frame (d := [byte q, (s.port q).state, 0, 0] ++ leBytes 4 us) (s.port q).retrain
    (s.setPort q { s.port q with retrain := [] })
  exact ⟨(PortSet.setPort s q _).of_links hlinks, (DieStays.losing (Losing.setPort _ _ _)).trans hdie⟩

theorem endRetrain_head (hh : s.fw.hand = none) (us : Nat) :
    (endRetrain s q us).ledger.head = s.ledger.head + BitVec.ofNat 32 (s.port q).retrain.length :=
  backgrounds_head (s.port q).retrain (s.setPort q { s.port q with retrain := [] }) hh

theorem retrain_completes (hh : s.fw.hand = none) (us : W32)
    (h : (s.port q).state = lnUp ∨ (s.port q).state = lnDown ∨ (s.port q).state = lnMarked) : Completes (.linkRetrainComplete q us) s (fun t =>
      PortSet s t q { s.port q with retrain := [] } ∧ t.ledger.head = s.ledger.head + BitVec.ofNat 32 (s.port q).retrain.length
      ∧ DieStays s t) :=
  ⟨_, congrArg Host.Outcome.next (if_pos h), (endRetrain_spec s q _).1, endRetrain_head hh _, (endRetrain_spec s q _).2⟩

theorem retrain_waits (us : W32) (h1 : (s.port q).state ≠ lnUp) (h2 : (s.port q).state ≠ lnDown) (h3 : (s.port q).state ≠ lnMarked) :
    exec (.linkRetrainComplete q us) s = .next s :=
  congrArg Host.Outcome.next (if_neg (by simp [h1, h2, h3]))

end

/-! ### LINK.RETRAIN (R152, R388) -/

/-- A command whose commit uses the origin of its request. -/
theorem answeredAfter_of_origin {i : Instr} {c : Cmd} {r : Request} {s : State} {a : Reply} {d : List Byte} (h : mailRow i = some (c, r))
    (ha : Admitted c r s) (hb : ∀ e v, c.body r { s with eps := e, svc := v } = a) (hl : a.late = false) (hd : a.detail = some d)
    (hp : passes a.status = true) {p : State → Prop} (hf : ∀ e v l m, l.head = s.ledger.head + 1 →
      p (a.commit (originOf s c r) { s with eps := e, svc := v, ledger := l, sent := m })) :
    AnsweredAfter i c r s a.status a.result (some s.ledger.head) p := by
  refine answeredAfter_of_body i c r s h ha a d p (by rw [serviceStart_frame]; exact hb _ _) hl hd hp ?_
  obtain ⟨e, v, l, m, heq, hl⟩ := committing_eq c r s a d
  have ho : originOf (serviceStart c r s) c r = originOf s c r := by
    rw [serviceStart_frame]
    rfl
  rw [← committing, heq, ho]
  exact hf e v l m hl

/-- The request of one more retrain of the port. -/
def addRetrain (q : Nat) (o : Origin) (u : State) : State := u.modPort q (fun p => { p with retrain := p.retrain ++ [o] })

/-- What LINK.RETRAIN of port `q` answers where it has an effect. -/
def retrainReply (q a : Nat) : Reply :=
  { status := stAccepted, detail := some [byte q, byte a]
    commit := fun o t => if a = 1 then endRetrain (addRetrain q o (disablePort t q)) q 0 else linkReset (addRetrain q o t) q 1 }

theorem retrainReply_off (q : Nat) (o : Origin) (w : State) :
    (retrainReply q 1).commit o w = endRetrain (addRetrain q o (disablePort w q)) q 0 := by
  simp only [retrainReply, if_true]

theorem retrainReply_train {a : Nat} (h : a ≠ 1) (q : Nat) (o : Origin) (w : State) :
    (retrainReply q a).commit o w = linkReset (addRetrain q o w) q 1 := by
  simp only [retrainReply, h, if_false]

theorem linkReset_joins {s : State} {q : Nat} (h : (s.port q).reset = true) (c : Nat) : linkReset s q c = event s 0xE001 [5, byte c, byte q, 5] := by
  simp only [linkReset, h, if_true]

section
variable {s : State} {q : Fin 20} {r : Request}

theorem linkRetrainBody_acts (hq : r.arg 16 1 = (q : Nat)) (ha : r.arg 17 1 ≤ 2) (h0 : ¬ (r.arg 17 1 = 0 ∧ (s.port q).state = lnDisabled))
    (h12 : ¬ ((r.arg 17 1 = 1 ∧ (s.port q).state = lnDisabled) ∨ (r.arg 17 1 = 2 ∧ (s.port q).state ≠ lnDisabled))) :
    linkRetrainBody r s = retrainReply q (r.arg 17 1) := by
  have hsome : ¬ (20 ≤ (q : Nat) ∨ 2 < r.arg 17 1) := not_or.mpr ⟨by omega, by omega⟩
  simp only [linkRetrainBody, hq, hsome, if_false, Bool.not_eq_true', beq_iff_eq, beq_eq_false_iff_ne, h0, h12]
  rfl

theorem linkRetrainBody_conflict (hq : r.arg 16 1 = (q : Nat)) (ha : r.arg 17 1 = 0) (h : (s.port q).state = lnDisabled) :
    linkRetrainBody r s = Reply.no stConflict := by
  have hsome : ¬ (20 ≤ (q : Nat) ∨ 2 < 0) := not_or.mpr ⟨by omega, by omega⟩
  simp only [linkRetrainBody, hq, ha, hsome, if_false, h, beq_self_eq_true, and_self, if_true]

theorem linkRetrainBody_already (hq : r.arg 16 1 = (q : Nat))
    (h : (r.arg 17 1 = 1 ∧ (s.port q).state = lnDisabled) ∨ (r.arg 17 1 = 2 ∧ (s.port q).state ≠ lnDisabled)) : linkRetrainBody r s = {} := by
  have hsome : ¬ (20 ≤ (q : Nat) ∨ 2 < r.arg 17 1) := not_or.mpr ⟨by omega, by omega⟩
  have h0 : ¬ (r.arg 17 1 = 0 ∧ (s.port q).state = lnDisabled) := by omega
  simp only [linkRetrainBody, hq, hsome, if_false, Bool.not_eq_true', beq_iff_eq, beq_eq_false_iff_ne, h0, h, if_true]

theorem linkRetrainBody_bad (h : 2 < r.arg 17 1) : linkRetrainBody r s = Reply.no stBadArg := if_pos (.inr h)

variable (ha : Admitted cmdLinkRetrain r s) (hq : r.arg 16 1 = (q : Nat))
include ha

/-- An action that LINK.RETRAIN does not know. -/
theorem retrain_unknown (h : 2 < r.arg 17 1) : AnswersOnly (.linkRetrain r) cmdLinkRetrain r s stBadArg [] :=
  answersOnly_of_reading rfl ha fun _ _ => linkRetrainBody_bad h

include hq

/-- A port that is already as asked. -/
theorem retrain_already (h : (r.arg 17 1 = 1 ∧ (s.port q).state = lnDisabled) ∨ (r.arg 17 1 = 2 ∧ (s.port q).state ≠ lnDisabled)) :
    AnswersOnly (.linkRetrain r) cmdLinkRetrain r s stOk [] :=
  answersOnly_of_reading rfl ha fun e v => linkRetrainBody_already (s := { s with eps := e, svc := v }) hq h

/-- A disabled port does not train. -/
theorem retrain_conflict (h0 : r.arg 17 1 = 0) (h : (s.port q).state = lnDisabled) :
    AnswersOnly (.linkRetrain r) cmdLinkRetrain r s stConflict [] :=
  answersOnly_of_reading rfl ha fun e v => linkRetrainBody_conflict (s := { s with eps := e, svc := v }) hq h0 h

/-- A port that is disabled ends the retrains that wait for it. -/
theorem retrain_disables (h1 : r.arg 17 1 = 1) (h : (s.port q).state ≠ lnDisabled) :
    AnsweredAfter (.linkRetrain r) cmdLinkRetrain r s stAccepted [] (some s.ledger.head) (fun t =>
      (t.port q).state = lnDisabled ∧ (t.port q).retrain = [] ∧ t.die = s.die) := by
  refine answeredAfter_of_origin rfl ha (a := retrainReply q 1) (fun e v => ?_) rfl rfl rfl fun e v l m _ => ?_
  · rw [← h1]
    exact linkRetrainBody_acts (s := { s with eps := e, svc := v }) hq (by omega) (by omega) (not_or.mpr ⟨fun hx => h hx.2, by omega⟩)
  · generalize originOf s cmdLinkRetrain r = o
    obtain ⟨w, hw⟩ : ∃ w : State, w = { s with eps := e, svc := v, ledger := l, sent := m } := ⟨_, rfl⟩
    rw [← hw, retrainReply_off]
    have hdown := portDown_parted (st := lnDisabled) (by decide) w q
    have hlose := Losing.portDown w q lnDisabled
    obtain ⟨⟨hoff, -⟩, hoffdie⟩ := endRetrain_spec (portDown w q lnDisabled) q 0
    obtain ⟨⟨hend, -⟩, henddie⟩ := endRetrain_spec (addRetrain q o (disablePort w q)) q 0
    have hadd : (addRetrain q o (disablePort w q)).port q = { (disablePort w q).port q with
        retrain := ((disablePort w q).port q).retrain ++ [o] } := State.port_setPort _ _ _
    have hadddie : (addRetrain q o (disablePort w q)).die = (disablePort w q).die := rfl
    refine ⟨?_, ?_, ?_⟩
    · rw [hend, hadd]
      exact (congrArg Port.state hoff).trans hdown.1
    · rw [hend]
    · rw [henddie.1, hadddie, disablePort, hoffdie.1, hlose.die, hw]

section
variable (hh : s.fw.hand = none)
include hh

/-- A port trains anew. -/
theorem retrain_trains (ha2 : r.arg 17 1 = 0 ∧ (s.port q).state ≠ lnDisabled ∨ r.arg 17 1 = 2 ∧ (s.port q).state = lnDisabled)
    (hr : (s.port q).reset = false) :
    AnsweredAfter (.linkRetrain r) cmdLinkRetrain r s stAccepted [] (some s.ledger.head) (fun t => t.die = s.die
      ∧ (t.port q).state = lnTraining ∧ (t.port q).step = 1 ∧ (t.port q).retrains = up16 (s.port q).retrains
      ∧ (t.port q).retrain = (s.port q).retrain ++ [originOf s cmdLinkRetrain r] ∧ t.ledger.head = s.ledger.head + 2) := by
  refine answeredAfter_of_origin rfl ha (a := retrainReply q (r.arg 17 1)) (fun e v => ?_) rfl rfl rfl fun e v l m hl => ?_
  · refine linkRetrainBody_acts (s := { s with eps := e, svc := v }) hq ?_ ?_ ?_
    · omega
    · rintro ⟨h0, h⟩
      rcases ha2 with ⟨-, h'⟩ | ⟨h', -⟩
      · exact h' h
      · omega
    · rintro (⟨h1, -⟩ | ⟨h2, h⟩)
      · omega
      · rcases ha2 with ⟨h', -⟩ | ⟨-, h'⟩
        · omega
        · exact h h'
  · generalize originOf s cmdLinkRetrain r = o
    obtain ⟨w, hw⟩ : ∃ w : State, w = { s with eps := e, svc := v, ledger := l, sent := m } := ⟨_, rfl⟩
    obtain ⟨u, hu⟩ : ∃ u, u = addRetrain q o w := ⟨_, rfl⟩
    have hcommit : (retrainReply q (r.arg 17 1)).commit o w = linkReset u q 1 := by
      rw [hu]
      exact retrainReply_train (by omega) _ _ _
    have hport : u.port q = { s.port q with retrain := (s.port q).retrain ++ [o] } := by
      rw [hu, hw]
      exact State.port_setPort _ _ _
    obtain ⟨⟨hset, -⟩, hhead, hdie⟩ := linkReset_spec (s := u) (q := q) (by rw [hu, hw]; exact hh) (by rw [hport]; exact hr) 1
    rw [← hw, hcommit]
    refine ⟨?_, ?_, ?_, ?_, ?_, ?_⟩
    · rw [hdie.1, hu, hw]
      rfl
    · rw [hset]
      rfl
    · rw [hset]
      rfl
    · rw [hset, resetPort, hport]
    · rw [hset, resetPort, hport]
    · have huhead : u.ledger.head = s.ledger.head + 1 := by
        rw [hu, hw]
        exact hl
      rw [hhead, huhead]
      bv_omega

/-- A retrain that is asked for during a link reset joins it. -/
theorem retrain_joins (h0 : r.arg 17 1 = 0) (h : (s.port q).state ≠ lnDisabled) (hr : (s.port q).reset = true) :
    AnsweredAfter (.linkRetrain r) cmdLinkRetrain r s stAccepted [] (some s.ledger.head) (fun t =>
      t.port q = { s.port q with retrain := (s.port q).retrain ++ [originOf s cmdLinkRetrain r] } ∧ t.ledger.head = s.ledger.head + 2
      ∧ t.die = s.die) := by
  refine answeredAfter_of_origin rfl ha (a := retrainReply q 0) (fun e v => ?_) rfl rfl rfl fun e v l m hl => ?_
  · rw [← h0]
    exact linkRetrainBody_acts (s := { s with eps := e, svc := v }) hq (by omega) (fun hx => h hx.2) (by omega)
  · generalize originOf s cmdLinkRetrain r = o
    obtain ⟨w, hw⟩ : ∃ w : State, w = { s with eps := e, svc := v, ledger := l, sent := m } := ⟨_, rfl⟩
    obtain ⟨u, hu⟩ : ∃ u, u = addRetrain q o w := ⟨_, rfl⟩
    have hport : u.port q = { s.port q with retrain := (s.port q).retrain ++ [o] } := by
      rw [hu, hw]
      exact State.port_setPort _ _ _
    have hureset : (u.port q).reset = true := by
      rw [hport]
      exact hr
    have hcommit : (retrainReply q 0).commit o w = event u 0xE001 [5, byte 1, byte q, 5] := by
      rw [retrainReply_train (by decide), ← hu, linkReset_joins hureset]
    rw [← hw, hcommit]
    refine ⟨?_, ?_, ?_⟩
    · rw [State.port, (event_fields _ _ _).1]
      exact hport
    · have huhead : u.ledger.head = s.ledger.head + 1 := by
        rw [hu, hw]
        exact hl
      rw [event_head (inPause_none (by rw [hu, hw]; exact hh)), huhead]
      bv_omega
    · rw [(event_fields _ _ _).2.1, hu, hw]
      rfl

end
end

end Sys2Proof.Machine
end

section
/-! PROOFS. The rows of the link layer together (R371 to R397, R409 to R416). -/

namespace Sys2Proof.Machine

/-! ### Why a partner is refused (R371) -/

section
variable {s : State} {q : Fin 20} {i : Identity}

theorem kinds_agree : (isD i.port.toNat != isD q) = false ↔ (i.port.toNat < 8 ↔ q.val < 8) := by
  by_cases h : i.port.toNat < 8
  · by_cases hq : q.val < 8
    · simp [isD_of_lt h, isD_of_lt hq, h, hq]
    · simp [isD_of_lt h, isD_of_le (Nat.le_of_not_lt hq), h, hq]
  · by_cases hq : q.val < 8
    · simp [isD_of_le (Nat.le_of_not_lt h), isD_of_lt hq, h, hq]
    · simp [isD_of_le (Nat.le_of_not_lt h), isD_of_le (Nat.le_of_not_lt hq), h, hq]

theorem refusalOf_part (h : i.part ≠ 0xAB41) : refusalOf s q i = 1 := if_pos h

theorem refusalOf_kind (h : i.part = 0xAB41) (hk : ¬ (i.port.toNat < 8 ↔ q.val < 8)) : refusalOf s q i = 2 :=
  (if_neg (not_not_intro h)).trans (if_pos (Bool.eq_true_of_not_eq_false fun hf => hk (kinds_agree.mp hf)))

theorem refusalOf_self (h : i.part = 0xAB41) (hk : i.port.toNat < 8 ↔ q.val < 8) (hd : i.dieId = s.fuses.dieId) : refusalOf s q i = 3 := by
  rw [refusalOf, if_neg (not_not_intro h), kinds_agree.mpr hk, if_neg Bool.false_ne_true, if_pos hd]

theorem refusalOf_none (h : i.part = 0xAB41) (hk : i.port.toNat < 8 ↔ q.val < 8) (hd : i.dieId ≠ s.fuses.dieId) : refusalOf s q i = 0 := by
  rw [refusalOf, if_neg (not_not_intro h), kinds_agree.mpr hk, if_neg Bool.false_ne_true, if_neg hd]

/-- A partner that is refused for reason `w`. -/
theorem exchange_refused (hl : linksLive s = true) (hst : (s.port q).state = lnTraining) (h4 : (s.port q).step = 4) (hh : s.fw.hand = none)
    (hi : (s.port q).incoming = []) (hc : Calm s) {w : Nat} (hw : refusalOf s q i = w) (h0 : w ≠ 0) :
    Completes (.identityExchange q i) s (fun t => (t.port q).state = lnDown ∧ (t.port q).refusal = w
      ∧ t.ledger.head = s.ledger.head + 2 ∧ DieStays s t) := by
  subst hw
  exact exchange_refuses hl hst h4 hh hi hc h0

/-- A packet of a type that is reserved. -/
theorem fateOf_reserved {h : NetHdr} (ht : 11 ≤ h.typ.toNat) : fateOf s h = .discard 2 := if_pos ht

end

/-- Settles O52: each row by what its own lemma says, from the frames that come to what LINK.RETRAIN leaves. -/
theorem linkRowsFollowTheProtocol : Obligations.LinkRowsFollowTheProtocol := by
  unfold Obligations.LinkRowsFollowTheProtocol
  intro q raw fec n f seq lanes i cause pkt us s hh
  dsimp only
  refine ⟨fun hup hc => ⟨fun hb h0 ht => bad_asks hc h0 ht hup hb, fun hb h4 hr => bad_resets hh hc hup hb h4 hr,
      fun ho hk h0 ht => reserved_asks hc h0 ht hup ho hk,
      fun ho h1 h5 hseq => ⟨fun h0 ht => late_asks hc h0 ht hup ho h1 h5 hseq, fun h0 => late_ignored hc h0 hup ho h1 h5 hseq⟩,
      fun ho hk hb hre => control_returns hc hup ho hk hb hre, fun ho hk hre => stop_comes hup ho hk hre,
      fun ho hseq hre hheard => ⟨fun hk hi htyp hhops hsrc hdst hfa hadm => header_opens hc hup ho hseq hre hheard hk hi htyp hhops hsrc hdst hfa hadm,
        fun l a j live x hi hj => ⟨fun hk => data_stored hc hup ho hseq hre hheard hi hj hk, fun hk => data_ends hup ho hseq hre hi hj hk⟩⟩⟩,
    fun h => down_ignores h raw fec n seq pkt, fun hup => replay_resends hup seq, fun hup hn ht => replayTimer_asks hup hn ht,
    fun hup h => ackTimer_answers hup h, fun ha ho => ackTimer_idle ha ho, fun hup hr => ⟨linkSilence_resets hh hup hr, fun hq => ⟨?_, ?_⟩,
      fun hq => ⟨?_, ?_⟩, fun hl => partnerDetected_resets hh hl hup hr⟩, fun hup => stopFrame_stops hup cause,
    fun hst hs => stopFrame_recorded hst hs cause, fun h => notLive_ignores h lanes i, fun hl hst h3 => training_steps hl hst h3,
    fun hl hst h3 => training_identity hl hst h3, fun hl hst h4 hi hc => ⟨fun hpart hkind hdie => ⟨fun hres => ?_, fun hres hses => ?_,
      fun hres hses hnone => ?_⟩, fun hpart => ?_, fun hpart hkind => ?_, fun hpart hkind hdie => ?_⟩, fun h => attempt_fails h,
    fun h => attempt_none h, fun hl h => partnerDetected_attempts hl h, fun hup hc => ⟨fun h11 => ?_, fun hsrc hdst hfa => ⟨fun ht hlost => ?_,
      fun ht hlost hr hne => ?_, fun ht hlost hflag hports => bulk_waits hc hup hsrc hdst hfa ht hlost hflag hports,
      fun r ht hlost hesc => ⟨fun hcr => control_stays hc hup hsrc hdst hfa ht hlost hesc hcr,
        fun hrup hre hdata hcr => control_leaves hc hup hsrc hdst hfa ht hlost hesc hrup hre hdata hcr⟩⟩⟩, fun e he => record_lost he,
    fun h => record_none _ h, fun h => retrain_completes hh us h, fun h1 h2 h3 => retrain_waits us h1 h2 h3, fun r ha hq =>
      ⟨fun h1 h => retrain_disables ha hq h1 h, fun h2 h => retrain_already ha hq (.inr ⟨h2, h⟩), fun h1 h => retrain_already ha hq (.inl ⟨h1, h⟩),
        fun h2 h hr => retrain_trains ha hq hh (.inr ⟨h2, h⟩) hr, fun h0 h => retrain_conflict ha hq h0 h,
        fun h0 h hr => retrain_trains ha hq hh (.inl ⟨h0, h⟩) hr, fun h0 h hr => retrain_joins ha hq hh h0 h hr, fun h => retrain_unknown ha h⟩⟩
  · exact phyError_resets hh hup hr (isD_of_lt hq)
  · refine phyError_ignored ?_
    rw [phyFits, isD_of_lt hq, Bool.not_true, Bool.and_false]
  · refine phyError_resets hh hup hr ?_
    rw [phyFits, isD_of_le hq, Bool.not_false]
  · refine phyError_ignored ?_
    rw [phyFits, isD_of_le hq, Bool.and_false]
  · exact exchange_first hl hst h4 hc (refusalOf_none hpart hkind hdie) hres
  · exact exchange_new hl hst h4 hh hi hc (refusalOf_none hpart hkind hdie) hres hses
  · exact exchange_same hl hst h4 hc (refusalOf_none hpart hkind hdie) hres hses hnone
  · exact exchange_refused hl hst h4 hh hi hc (refusalOf_part hpart) (by decide)
  · exact exchange_refused hl hst h4 hh hi hc (refusalOf_kind hpart hkind) (by decide)
  · exact exchange_refused hl hst h4 hh hi hc (refusalOf_self hpart hkind hdie) (by decide)
  · exact discarded_alone hh hc hup (fateOf_reserved h11) (.inr h11)
  · obtain ⟨w, hw⟩ := fateOf_lost (by rw [ht]; decide) hsrc hdst hfa hlost
    exact discarded_alone hh hc hup hw (.inl ht)
  · obtain ⟨w, hw⟩ := fateOf_lost (by rw [ht]; decide) hsrc hdst hfa hlost
    exact discarded_told hup hw ht hr hne

end Sys2Proof.Machine
end

section
/-! PROOFS. What windows answer: requests for credits, releases, reclaims, and packets that are admitted or refused (R423 to R426, R432 to
R434, R440). -/

namespace Sys2Proof.Machine

/-! ### Answers -/

/-- Between `s` and `t` PACKET_DONE has left for chiplet `fa`, if it is in reach. -/
def Told (s t : State) (fa : W16) (wn o : Byte) (xn : W16) (cn : Byte) (i : W16) : Prop := Reaches s fa → ∃ g : Byte,
  Sent.packet (packet s fa 0 0 (0x22 :: ([wn, o] ++ leBytes 2 xn.toNat ++ [cn] ++ leBytes 2 i.toNat ++ [g]))) ∈ t.sent

/-- The packet of header `x` has been answered with outcome `o`. -/
def DoneTold (s t : State) (x : XferHdr) (o : Byte) : Prop := Told s t x.src (byte (gaWindow x.ga)) o x.xfer x.chan x.index

/-- Neither the store nor the die has changed. -/
def QuietDie (s t : State) : Prop := t.store = s.store ∧ t.die = s.die

namespace QuietDie

variable {s t u : State}

theorem refl (s : State) : QuietDie s s := ⟨rfl, rfl⟩
theorem trans (h : QuietDie s t) (k : QuietDie t u) : QuietDie s u := ⟨k.1.trans h.1, k.2.trans h.2⟩
theorem granting (h : Granting s t) : QuietDie s t := ⟨h.store, h.die⟩
theorem sending (h : Sending s t) : QuietDie s t := ⟨h.store, h.die⟩

end QuietDie

theorem reaches_of {u v : State} (hfa : u.fabric.fa = v.fabric.fa) (hact : u.fabric.active = v.fabric.active) {fa : W16} (h : Reaches v fa) :
    Reaches u fa := by
  have hdest : u.destEntry fa = v.destEntry fa := by rw [State.destEntry, State.destEntry, hact]
  have hfa' : u.fa = v.fa := hfa
  rw [Reaches, reachable, hfa', hdest]
  exact h

theorem Told.of_sends {s u t : State} {fa : W16} {wn o : Byte} {xn : W16} {cn : Byte} {i : W16} (hfa : u.fabric.fa = s.fabric.fa)
    (hact : u.fabric.active = s.fabric.active) (h : Reaches u fa → ∃ g : Byte,
      Sends u t (packet u fa 0 0 (0x22 :: ([wn, o] ++ leBytes 2 xn.toNat ++ [cn] ++ leBytes 2 i.toNat ++ [g])))) : Told s t fa wn o xn cn i := by
  intro hr
  obtain ⟨g, hg⟩ := h (reaches_of hfa hact hr)
  have hfa' : u.fa = s.fa := hfa
  have hpacket : ∀ c, packet u fa 0 0 c = packet s fa 0 0 c := fun c => by rw [packet, packet, hfa']
  refine ⟨g, ?_⟩
  rw [← hpacket]
  exact hg.mem

theorem Told.later {s t u : State} {fa : W16} {wn o : Byte} {xn : W16} {cn : Byte} {i : W16} (h : Told s t fa wn o xn cn i)
    (k : t.sent <+: u.sent) : Told s u fa wn o xn cn i := fun hr => by
  obtain ⟨g, hg⟩ := h hr
  exact ⟨g, k.subset hg⟩

theorem postDone_told {s u : State} (hfa : u.fabric.fa = s.fabric.fa) (hact : u.fabric.active = s.fabric.active) (fa : W16) (wn o : Byte)
    (xn : W16) (cn : Byte) (i : W16) (g : Byte) : Told s (postDone u fa wn o xn cn i g) fa wn o xn cn i :=
  .of_sends hfa hact fun hr => ⟨g, sends_post (p := packet u fa 0 0 (0x22 :: ([wn, o] ++ leBytes 2 xn.toNat ++ [cn] ++ leBytes 2 i.toNat ++ [g])))
    hr⟩

theorem finishPacket_told {s u : State} (hfa : u.fabric.fa = s.fabric.fa) (hact : u.fabric.active = s.fabric.active) (h : XferHdr) (o : Byte)
    (b : Bool) : DoneTold s (finishPacket u h o b) h o :=
  .of_sends hfa hact fun hr => finishPacket_sends h o b hr

section
variable {s : State} {h : XferHdr} {data : List (List Byte)}

/-! ### Packets at the window (R425, R434, R440) -/

/-- A refused packet is answered with its cause. -/
theorem refused_told (acc : Access) (e : Byte) : Granting s (refusePacket s h acc e) ∧ DoneTold s (refusePacket s h acc e) h e := by
  cases acc
  · exact ⟨Granting.finishPacket _ _ _ _, finishPacket_told rfl rfl _ _ _⟩
  · exact ⟨Granting.finishPacket _ _ _ _, finishPacket_told rfl rfl _ _ _⟩
  · exact ⟨(Sending.postDone _ _ _ _ _ _ _ _).toGranting, postDone_told rfl rfl _ _ _ _ _ _ _⟩

theorem refused_flushed (acc : Access) (e : Byte) : QuietDie s (flush (refusePacket s h acc e)) ∧ DoneTold s (flush (refusePacket s h acc e)) h e := by
  obtain ⟨hg, ht⟩ := refused_told (s := s) (h := h) acc e
  exact ⟨(QuietDie.granting hg).trans (.sending (Sending.flush _)), ht.later (Sending.flush _).sent⟩

theorem write_stored (ha : admission s h .write = none) : Completes (.writePacket h data) s (fun t => DoneTold s t h 0 ∧ t.die = s.die
    ∧ t.store = { s.store with mem := s.store.mem.write (windowAddress s h) (padTo (hdrBytes h) (data.flatMap (padTo 256))) }) := by
  obtain ⟨u, hu⟩ : ∃ u, u = s.write (windowAddress s h) (padTo (hdrBytes h) (data.flatMap (padTo 256))) := ⟨_, rfl⟩
  have hexec : exec (.writePacket h data) s = .next (flush (finishPacket u h 0 false)) := by
    change execWritePacket h data s = _
    rw [hu]
    simp only [execWritePacket, ha]
  have hall := (Granting.finishPacket u h 0 false).trans (Sending.flush _).toGranting
  have htold : DoneTold s (finishPacket u h 0 false) h 0 := finishPacket_told (by rw [hu]; rfl) (by rw [hu]; rfl) _ _ _
  refine ⟨_, hexec, htold.later (Sending.flush _).sent, hall.die.trans ?_, hall.store.trans ?_⟩
  · rw [hu]
    rfl
  · rw [hu]
    rfl

theorem write_refused {e : Byte} (ha : admission s h .write = some e) :
    Completes (.writePacket h data) s (fun t => QuietDie s t ∧ DoneTold s t h e) := by
  refine ⟨_, ?_, refused_flushed .write e⟩
  change execWritePacket h data s = _
  simp only [execWritePacket, ha]

theorem read_refused {e : Byte} (ha : admission s h .read = some e) :
    Completes (.readRequest h) s (fun t => QuietDie s t ∧ DoneTold s t h e) := by
  refine ⟨_, ?_, refused_flushed .read e⟩
  change execReadRequest h s = _
  simp only [execReadRequest, ha]

theorem add_admitted (ha : admission s h .add = none) : exec (.addPacket h data) s = .next { s with dma := { s.dma with adds := s.dma.adds
    ++ [{ hdr := h, left := (List.range (hdrBytes h / 256)).map (fun i => windowAddress s h + 256 * i) }] } } := by
  change execAddPacket h data s = _
  simp only [execAddPacket, ha]
  rfl

theorem add_refused {e : Byte} (hr : s.dma.reads = []) (ha : admission s h .add = some e) :
    Completes (.addPacket h data) s (fun t => QuietDie s t ∧ t.dma = s.dma ∧ DoneTold s t h e) := by
  have hsend := (Sending.postDone s h.src (byte (gaWindow h.ga)) e h.xfer h.chan h.index 0).trans (Sending.flush _)
  obtain ⟨hq, ht⟩ := refused_flushed (s := s) (h := h) .add e
  refine ⟨_, ?_, hq, hsend.dma hr, ht⟩
  change execAddPacket h data s = _
  simp only [execAddPacket, ha]

/-! ### Reads -/

/-- The request of `h` is still being answered, or has been answered. -/
def Answering (s : State) (h : XferHdr) (u : State) : Prop := u.fabric.fa = s.fabric.fa ∧ u.fabric.active = s.fabric.active
  ∧ (u.dma.reads = [(h, 0)] ∨ u.dma.reads = [] ∧ DoneTold s u h 0)

theorem Answering.step {u v : State} (hu : Answering s h u) (hv : Sending u v) (hd : v.dma.reads = u.dma.reads) : Answering s h v := by
  obtain ⟨hfa, hact, hans⟩ := hu
  refine ⟨hv.fabric ▸ hfa, hv.fabric ▸ hact, ?_⟩
  rw [hd]
  exact hans.imp id fun ⟨hr, ht⟩ => ⟨hr, ht.later hv.sent⟩

theorem oweFor_reads (s : State) (o : OutPacket) (n : Nat) : (oweFor s o n).dma = s.dma := by
  unfold oweFor
  split <;> rfl

theorem Answering.readSent {u : State} (hu : Answering s h u) (p : Packet) : Answering s h (readSent u p) := by
  unfold Machine.readSent
  split
  next e he =>
    have hmem : e ∈ u.dma.reads := by
      unfold readOf at he
      split at he
      · cases he
      · exact List.mem_of_find?_eq_some he
    obtain ⟨hfa, hact, hans⟩ := hu
    rcases hans with hone | ⟨hnone, -⟩
    · have heq : e = (h, 0) := by
        rw [hone] at hmem
        exact List.mem_singleton.mp hmem
      subst heq
      obtain ⟨v, hv⟩ : ∃ v : State, v = { u with dma := { u.dma with reads := u.dma.reads.erase (h, 0) } } := ⟨_, rfl⟩
      rw [← hv]
      have hvreads : v.dma.reads = [] := by
        rw [hv, hone]
        exact List.erase_cons_head ..
      have hg := Granting.finishPacket v h 0 true
      have hvfa : v.fabric = u.fabric := by rw [hv]
      have hfin : (finishPacket v h 0 true).dma.reads = [] := by
        have hset : ∀ w, (v.setWindow (gaWindow h.ga) w).dma.reads = [] := fun _ => hvreads
        have hdone : ∀ w g, (postDone (v.setWindow (gaWindow h.ga) w) h.src (byte (gaWindow h.ga)) 0 h.xfer h.chan h.index g).dma.reads = [] :=
          fun w g => (congrArg Dma.reads ((Sending.postDone _ _ _ _ _ _ _ _).dma (hset w))).trans (hset w)
        unfold finishPacket
        dsimp only
        split
        · split
          · have hre := hdone
            unfold regrant
            dsimp only
            refine (congrArg Dma.reads ((Sending.sendGrants _ _ _).dma ?_)).trans ?_
            · exact hre _ _
            · exact hre _ _
          · exact (congrArg Dma.reads ((Sending.sendGrants _ _ _).dma (hdone _ _))).trans (hdone _ _)
        · exact hdone _ _
      refine ⟨?_, ?_, .inr ⟨hfin, ?_⟩⟩
      · rw [hg.fabric, hvfa]
        exact hfa
      · rw [hg.fabric, hvfa]
        exact hact
      · exact finishPacket_told (by rw [hvfa]; exact hfa) (by rw [hvfa]; exact hact) _ _ _
    · rw [hnone] at hmem
      exact absurd hmem List.not_mem_nil
  next => exact hu

theorem Answering.flush {u : State} (hu : Answering s h u) : Answering s h (flush u) := by
  unfold Machine.flush
  generalize 10000 + u.fabric.waiting.length = n
  induction n generalizing u with
  | zero => exact hu
  | succ n ih =>
    unfold flushN
    split
    next t ht =>
      refine ih ?_
      obtain ⟨q, -, hq⟩ := List.exists_of_findSome?_eq_some ht
      split at hq
      · obtain ⟨o, -, rfl⟩ := Option.map_eq_some_iff.mp hq
        obtain ⟨p, m, hp, hframe⟩ := Sending.sendFrame_eq u q o
        have hset : Answering s h ((u.setPort q p).emit m) := hu.step ((Sending.setPort _ _ hp).trans (Sending.emit _ _)) rfl
        have hs2 : Answering s h (if o.abort then (u.setPort q p).emit m else oweFor ((u.setPort q p).emit m) o 1) := by
          split
          · exact hset
          · exact hset.step (Sending.oweFor _ _ _) (congrArg Dma.reads (oweFor_reads _ _ _))
        rw [hframe]
        split
        · exact hs2.readSent _
        · exact hs2
      · cases hq
    next =>
      split
      next t ht =>
        refine ih (hu.step (Sending.startOne ht) ?_)
        obtain ⟨o, -, ho⟩ := List.exists_of_findSome?_eq_some ht
        unfold offer at ho
        dsimp only at ho
        split at ho
        · cases ho
          rfl
        · split at ho
          · cases ho
            rfl
          · cases ho
      next => exact hu

theorem readRequest_exec (ha : admission s h .read = none) : exec (.readRequest h) s = .next (flush (serveRead s h)) := by
  change execReadRequest h s = _
  simp only [execReadRequest, ha]

/-- An admitted read request: the data go back, and the request is answered when they have left. -/
theorem read_served (hreads : s.dma.reads = []) (ha : admission s h .read = none) (hfa : s.fa ≠ 0xFFFF) (hr : reachable s h.src = true)
    (hb : firstBad s.mem (windowAddress s h) (hdrBytes h) = none) : Completes (.readRequest h) s (fun t => QuietDie s t
      ∧ Sent.packet (readData s h) ∈ t.sent ∧ (h.src = s.fa → DoneTold s t h 0)
      ∧ (h.src ≠ s.fa → t.dma.reads = [(h, 0)] ∨ t.dma.reads = [] ∧ DoneTold s t h 0)) := by
  obtain ⟨u, hu⟩ : ∃ u, u = s.post (readData s h) := ⟨_, rfl⟩
  have hpost : Sending s u := by
    rw [hu]
    exact Sending.post _ _
  have hdata : Sent.packet (readData s h) ∈ u.sent := by
    rw [hu]
    exact (sends_post (p := readData s h) ⟨hfa, hr⟩).mem
  have hserve : serveRead s h = if h.src = s.fa ∨ !reachable s h.src then finishPacket u h 0 false
      else useCredit { u with dma := { u.dma with reads := u.dma.reads ++ [(h, 0)] } } h := by
    simp only [serveRead, hb, ← hu]
    rfl
  refine ⟨_, readRequest_exec ha, ?_⟩
  have hflush := Sending.flush (serveRead s h)
  have hufa : u.fabric.fa = s.fabric.fa := by rw [hpost.fabric]
  have huact : u.fabric.active = s.fabric.active := by rw [hpost.fabric]
  by_cases hself : h.src = s.fa
  · have hserve' := hserve.trans (if_pos (.inl hself))
    have hg := Granting.finishPacket u h 0 false
    have ht : DoneTold s (finishPacket u h 0 false) h 0 := finishPacket_told hufa huact _ _ _
    rw [hserve'] at hflush ⊢
    exact ⟨(QuietDie.sending hpost).trans ((QuietDie.granting hg).trans (.sending hflush)), (hg.sent.trans hflush.sent).subset hdata,
      fun _ => ht.later hflush.sent, fun hne => absurd hself hne⟩
  · have hserve' := hserve.trans (if_neg (by simp [hself, hr]))
    obtain ⟨v, hv⟩ : ∃ v, v = useCredit { u with dma := { u.dma with reads := u.dma.reads ++ [(h, 0)] } } h := ⟨_, rfl⟩
    rw [← hv] at hserve'
    rw [hserve'] at hflush ⊢
    have hvspec : v.store = u.store ∧ v.die = u.die ∧ v.sent = u.sent ∧ v.fabric = u.fabric ∧ v.dma.reads = u.dma.reads ++ [(h, 0)] := by
      rw [hv]
      exact ⟨rfl, rfl, rfl, rfl, rfl⟩
    obtain ⟨hstore, hdie, hsent, hfab, hvreads⟩ := hvspec
    have hans : Answering s h v := by
      refine ⟨by rw [hfab]; exact hufa, by rw [hfab]; exact huact, .inl ?_⟩
      rw [hvreads, hpost.dma hreads, hreads]
      rfl
    obtain ⟨-, -, hfin⟩ := hans.flush
    refine ⟨(QuietDie.sending hpost).trans (QuietDie.trans ⟨hstore, hdie⟩ (.sending hflush)), hflush.sent.subset ?_,
      fun h' => absurd h' hself, fun _ => hfin⟩
    rw [hsent]
    exact hdata

/-! ### A read that meets a detection (R337, R440) -/

theorem escalate_fa (s : State) (w b : Nat) (r : Byte) : (escalate s w b r).fa = s.fa := by
  have hevent : ∀ (v : State) c m, (parityEvent v c w b m).fa = v.fa := fun v c m => (Acting.event _ _ _).fa
  unfold escalate
  split
  · exact hevent _ _ _
  · exact (Acting.basinReset _ _ _).fa.trans (hevent _ _ _)

theorem recordRetired_fa (s : State) (k : Nat) : (recordRetired s k).fa = s.fa := by
  unfold recordRetired
  split <;> rfl

theorem segOff_fa (s : State) (k : Nat) : (segOff s k).fa = s.fa := by
  refine (Acting.abortReds _ _).fa.trans ?_
  split <;> rfl

theorem retireSeg_fa (s : State) (k : Nat) : (retireSeg s k).fa = s.fa := by
  have hrec : (recordRetired (s.modSeg k (fun g => { g with retired := true })) k).fa = s.fa := recordRetired_fa _ _
  generalize hu : recordRetired (s.modSeg k (fun g => { g with retired := true })) k = u at hrec
  unfold retireSeg
  simp only [hu]
  split
  · exact (segOff_fa _ _).trans ((Acting.event _ _ _).fa.trans hrec)
  · exact (Acting.abortReds _ _).fa.trans ((Acting.event _ _ _).fa.trans hrec)

theorem upset_fa (s : State) (w : Nat) : (upset s w).fa = s.fa := by
  unfold upset
  split <;> rfl

theorem countHit_fa (s : State) (w : Nat) : (countHit s w).fa = s.fa := by
  have hup := upset_fa s w
  unfold countHit
  dsimp only
  split
  · exact hup
  · split
    · exact (retireSeg_fa _ _).trans hup
    · exact hup

/-- A detection leaves the chiplet its FA. -/
theorem detect_fa (s : State) (w : Nat) (c : Byte) : (detect s w none c).fa = s.fa := by
  unfold detect
  dsimp only
  refine (countHit_fa _ _).trans ?_
  split
  · split
    · exact escalate_fa _ _ _ _
    · rfl
  · split
    · exact escalate_fa _ _ _ _
    · contradiction
    · exact (Acting.event _ _ _).fa

/-- A read for this chiplet itself that meets a detection is answered with it. -/
theorem read_fails (ha : admission s h .read = none) {e : Nat} (hb : firstBad s.mem (windowAddress s h) (hdrBytes h) = some e)
    (hself : h.src = s.fa) : Completes (.readRequest h) s (fun t => DoneTold s t h dcParity) := by
  obtain ⟨u, hu⟩ : ∃ u, u = detect (s.post (readData s h)) e none 4 := ⟨_, rfl⟩
  have hufa : u.fa = s.fa := by
    rw [hu, detect_fa]
    exact (Sending.post _ _).toGranting.fa
  have hserve : serveRead s h = finishPacket u h dcParity false := by
    simp only [serveRead, hb, ← hu, Option.isSome_some, if_true, hself, true_or]
  refine ⟨_, (readRequest_exec ha).trans (congrArg _ (by rw [hserve])), fun hr => ?_⟩
  have hreach : Reaches u h.src := ⟨hufa ▸ hr.1, by rw [reachable, hself, hufa, beq_self_eq_true, Bool.true_or]⟩
  obtain ⟨g, hg⟩ := finishPacket_sends h dcParity false hreach
  refine ⟨g, (Sending.flush _).sent.subset ?_⟩
  have hpacket : ∀ c, packet u h.src 0 0 c = packet s h.src 0 0 c := fun c => by rw [packet, packet, hufa]
  rw [← hpacket]
  exact hg.mem

end

end Sys2Proof.Machine
end

section
/-! PROOFS. Credits of a window: granted to a request, returned by a release, taken back by a reclaim (R432 to R434). -/

namespace Sys2Proof.Machine

/-- With nothing wanted nothing is granted. -/
theorem grantAll_unwanted {w : Window} (h : ∀ g ∈ w.queue, g.wanted = 0) (n : Nat) (l : List Grant) : Window.grantAll n w l = (w, l) := by
  have hfind : w.queue.find? (fun g => 0 < g.wanted && g.held < 4) = none := by
    refine List.find?_eq_none.mpr fun g hg => ?_
    simp [h g hg]
  have hone : w.grantOne = (w, none) := by
    unfold Window.grantOne
    split
    · rfl
    · simp only [hfind]
  cases n with
  | zero => rfl
  | succ n => simp only [Window.grantAll, hone]

/-- A window whose one channel wants one credit, and has one free, grants it. -/
theorem grantAll_single {w : Window} {fa : W16} {chan : Byte} {x : W16} (hq : w.queue = [⟨fa, chan, x, 0, 1, 0⟩]) (hc : 1 ≤ w.credits) :
    ∃ v l, Window.grantAll w.credits w [] = (v, l) ∧ v.queue = [⟨fa, chan, x, 1, 0, 0⟩] := by
  have hfree : w.freeCredits ≠ 0 := by
    rw [Window.freeCredits, hq]
    simp
    omega
  obtain ⟨v, hone, hvq⟩ : ∃ v, w.grantOne = (v, some ⟨fa, chan, x, 1, 0, 0⟩) ∧ v.queue = [⟨fa, chan, x, 1, 0, 0⟩] := by
    refine ⟨{ w with
      queue := [⟨fa, chan, x, 1, 0, 0⟩]
      ended := w.ended.filter (fun e => !(e.1 == fa && e.2.1 == chan)) }, ?_, rfl⟩
    unfold Window.grantOne
    rw [if_neg hfree, hq]
    simp
  obtain ⟨n, hn⟩ : ∃ n, w.credits = n + 1 := ⟨w.credits - 1, by omega⟩
  refine ⟨v, [⟨fa, chan, x, 1, 0, 0⟩], ?_, hvq⟩
  rw [hn]
  simp only [Window.grantAll, hone, List.nil_append]
  refine grantAll_unwanted (fun g hg => ?_) n _
  rw [hvq] at hg
  rw [List.mem_singleton.mp hg]

/-- What a window has free is granted, and no other window changes. -/
theorem regrant_window {s : State} (hr : s.dma.reads = []) {k : Nat} {w v : Window} {l : List Grant}
    (hg : Window.grantAll w.credits w [] = (v, l)) : (flush (regrant (s.setWindow k w) k)).window k = v
      ∧ QuietDie s (flush (regrant (s.setWindow k w) k)) ∧ ∀ j, j ≠ k → (flush (regrant (s.setWindow k w) k)).window j = s.window j := by
  have hre : regrant (s.setWindow k w) k = sendGrants ((s.setWindow k w).setWindow k v) k l := by
    unfold regrant
    dsimp only
    rw [State.window_setWindow, hg]
  have hsend := (Sending.sendGrants ((s.setWindow k w).setWindow k v) k l).trans (Sending.flush _)
  rw [hre]
  have hdma := hsend.dma hr
  refine ⟨?_, ⟨hsend.store, hsend.die⟩, fun j hj => ?_⟩
  · rw [State.window, hdma]
    exact State.window_setWindow _ _ _
  · rw [State.window, hdma]
    exact (State.window_setWindow_ne _ hj _).trans (State.window_setWindow_ne _ hj _)

section
variable {s : State} {src : W16} {win n kind cb : Byte} {xf idx : W16} {k : Nat} (hr : s.dma.reads = [])
include hr

/-- A request is granted the credit that it asks for. -/
theorem creditReq_grants (hw : (s.window win.toNat).state = .opened) (hq : (s.window win.toNat).queue = [])
    (hc : 1 ≤ (s.window win.toNat).credits) : Completes (.creditReq src win kind 1 xf n) s (fun t =>
      (t.window win.toNat).queue = [⟨src, n, xf, 1, 0, 0⟩] ∧ QuietDie s t ∧ ∀ j, j ≠ win.toNat → t.window j = s.window j) := by
  obtain ⟨w, hw'⟩ : ∃ w : Window, w = { s.window win.toNat with
    queue := [{ fa := src, chan := n, xfer := xf, held := 0, wanted := 1 }] } := ⟨_, rfl⟩
  have hentry : (s.window win.toNat).entry src n = none := by rw [Window.entry, hq]; rfl
  have hexec : exec (.creditReq src win kind 1 xf n) s = .next (flush (regrant (s.setWindow win.toNat w) win.toNat)) := by
    change execCreditReq src win kind 1 xf n s = _
    rw [hw']
    simp [execCreditReq, hw, hentry, hq]
  obtain ⟨v, l, hg, hvq⟩ := grantAll_single (w := w) (fa := src) (chan := n) (x := xf) (by rw [hw']) (by rw [hw']; exact hc)
  obtain ⟨hwin, hquiet, hrest⟩ := regrant_window hr (k := win.toNat) hg
  exact ⟨_, hexec, by rw [hwin]; exact hvq, hquiet, hrest⟩

/-- A window that is not open answers a request as it answers a packet. -/
theorem creditReq_refused (hw : (s.window win.toNat).state ≠ .opened) : Completes (.creditReq src win kind idx xf n) s (fun t =>
    QuietDie s t ∧ t.dma = s.dma
    ∧ Told s t src win (if (s.window win.toNat).state = .closed then dcNoWindow else dcRevoked) xf n 0) := by
  obtain ⟨o, ho⟩ : ∃ o, o = (if (s.window win.toNat).state = .closed then dcNoWindow else dcRevoked) := ⟨_, rfl⟩
  have hexec : exec (.creditReq src win kind idx xf n) s = .next (packetDone s src win o xf n 0 0) := by
    change execCreditReq src win kind idx xf n s = _
    rw [ho]
    unfold execCreditReq
    dsimp only
    generalize (s.window win.toNat).state = st at hw ⊢
    cases st with
    | opened => exact absurd rfl hw
    | closed => rfl
    | revoked => rfl
  have hsend := (Sending.postDone s src win o xf n 0 0).trans (Sending.flush _)
  rw [← ho]
  exact ⟨_, hexec, .sending hsend, hsend.dma hr, (postDone_told rfl rfl _ _ _ _ _ _ _).later (Sending.flush _).sent⟩

/-- A release of all the credits of a channel takes it from the queue. -/
theorem creditRelease_all (hq : (s.window win.toNat).queue = [⟨src, cb, xf, n.toNat, k, 0⟩]) :
    Completes (.creditRelease src win n xf cb) s (fun t =>
      (t.window win.toNat).queue = [] ∧ QuietDie s t ∧ ∀ j, j ≠ win.toNat → t.window j = s.window j) := by
  have hmod : ((s.window win.toNat).modEntry src cb (fun g => { g with held := g.held - min n.toNat (g.held - g.used), wanted := 0 })).queue = [] := by
    simp [Window.modEntry, hq]
  generalize hwv : (s.window win.toNat).modEntry src cb (fun g => { g with held := g.held - min n.toNat (g.held - g.used), wanted := 0 }) = w at hmod
  have hexec : exec (.creditRelease src win n xf cb) s = .next (flush (regrant (s.setWindow win.toNat w) win.toNat)) := by
    rw [← hwv]
    rfl
  obtain ⟨hwin, hquiet, hrest⟩ := regrant_window hr (k := win.toNat) (grantAll_unwanted (w := w)
    (by rw [hmod]; exact fun g hg => absurd hg List.not_mem_nil) w.credits [])
  exact ⟨_, hexec, by rw [hwin]; exact hmod, hquiet, hrest⟩

/-- A release keeps the credit that is in use. -/
theorem creditRelease_used (hq : (s.window win.toNat).queue = [⟨src, cb, xf, n.toNat + 1, k, 1⟩]) :
    Completes (.creditRelease src win n xf cb) s (fun t =>
      (t.window win.toNat).queue = [⟨src, cb, xf, 1, 0, 1⟩] ∧ QuietDie s t ∧ ∀ j, j ≠ win.toNat → t.window j = s.window j) := by
  have hmod : ((s.window win.toNat).modEntry src cb (fun g => { g with held := g.held - min n.toNat (g.held - g.used), wanted := 0 })).queue
      = [⟨src, cb, xf, 1, 0, 1⟩] := by
    simp [Window.modEntry, hq]
  generalize hwv : (s.window win.toNat).modEntry src cb (fun g => { g with held := g.held - min n.toNat (g.held - g.used), wanted := 0 }) = w at hmod
  have hexec : exec (.creditRelease src win n xf cb) s = .next (flush (regrant (s.setWindow win.toNat w) win.toNat)) := by
    rw [← hwv]
    rfl
  have hnone : ∀ g ∈ w.queue, g.wanted = 0 := by
    intro g hg
    rw [hmod] at hg
    rw [List.mem_singleton.mp hg]
  obtain ⟨hwin, hquiet, hrest⟩ := regrant_window hr (k := win.toNat) (grantAll_unwanted hnone w.credits [])
  exact ⟨_, hexec, by rw [hwin]; exact hmod, hquiet, hrest⟩

/-- A credit whose packet has not come is taken back. -/
theorem creditReclaim_takes {v : Fin 64} (hq : (s.window v).queue = [⟨src, cb, xf, 1, 0, 0⟩]) :
    Completes (.creditReclaim v src cb) s (fun t =>
      (t.window v).queue = [] ∧ (src, cb, dcExpired) ∈ (t.window v).ended ∧ QuietDie s t) := by
  obtain ⟨w, hw⟩ : ∃ w : Window, w = { (s.window v).modEntry src cb (·.freed false) with
    ended := (src, cb, dcExpired) :: ((s.window v).modEntry src cb (·.freed false)).ended } := ⟨_, rfl⟩
  have hwq : w.queue = [] := by
    rw [hw]
    simp [Window.modEntry, hq, Grant.freed]
  have hany : ((s.window v).entry src cb).any (fun g => g.used < g.held) = true := by
    simp [Window.entry, hq]
  have hexec : exec (.creditReclaim v src cb) s = .next (flush (regrant (s.setWindow v w) v)) := by
    rw [hw]
    exact congrArg Host.Outcome.next (if_pos hany)
  obtain ⟨hwin, hquiet, -⟩ := regrant_window hr (k := v) (grantAll_unwanted (w := w)
    (by rw [hwq]; exact fun g hg => absurd hg List.not_mem_nil) w.credits [])
  refine ⟨_, hexec, by rw [hwin]; exact hwq, ?_, hquiet⟩
  rw [hwin, hw]
  exact List.mem_cons_self

omit hr in
/-- One whose packet has come is not. -/
theorem creditReclaim_used {v : Fin 64} (hq : (s.window v).queue = [⟨src, cb, xf, 1, 0, 1⟩]) :
    exec (.creditReclaim v src cb) s = .next s := by
  refine congrArg Host.Outcome.next (if_neg ?_)
  simp [Window.entry, hq]

end

end Sys2Proof.Machine
end

section
/-! PROOFS. Add writes at the reduction units, and reductions that end (R359 to R364, R434). -/

namespace Sys2Proof.Machine

/-! ### The contributors learn of the end (R434) -/

/-- Several packets are answered, one after another. -/
theorem answers_told {s : State} (o : AddPkt → Byte) (l : List AddPkt) (u : State) (hu : u.dma.reads = [])
    (hfa : u.fabric.fa = s.fabric.fa) (hact : u.fabric.active = s.fabric.active) :
    let t := l.foldl (fun t p => packetDone t p.hdr.src (byte (gaWindow p.hdr.ga)) (o p) p.hdr.xfer p.hdr.chan p.hdr.index 0) u
    Sending u t ∧ t.dma = u.dma ∧ ∀ p ∈ l, DoneTold s t p.hdr (o p) := by
  induction l generalizing u with
  | nil => exact ⟨.refl u, rfl, fun p hp => absurd hp List.not_mem_nil⟩
  | cons a l ih =>
    have hone := (Sending.postDone u a.hdr.src (byte (gaWindow a.hdr.ga)) (o a) a.hdr.xfer a.hdr.chan a.hdr.index 0).trans (Sending.flush _)
    have htold : DoneTold s (packetDone u a.hdr.src (byte (gaWindow a.hdr.ga)) (o a) a.hdr.xfer a.hdr.chan a.hdr.index 0) a.hdr (o a) :=
      (postDone_told hfa hact _ _ _ _ _ _ _).later (Sending.flush _).sent
    have hdma := hone.dma hu
    obtain ⟨hsend, hd, hall⟩ := ih (packetDone u a.hdr.src (byte (gaWindow a.hdr.ga)) (o a) a.hdr.xfer a.hdr.chan a.hdr.index 0)
      ((congrArg Dma.reads hdma).trans hu) (by rw [packetDone, hone.fabric]; exact hfa) (by rw [packetDone, hone.fabric]; exact hact)
    refine ⟨hone.trans hsend, hd.trans hdma, fun p hp => ?_⟩
    rcases List.mem_cons.mp hp with rfl | hp
    · exact htold.later hsend.sent
    · exact hall p hp

/-- What the end of a reduction does to the packets that have been admitted. -/
def endedAdds (s : State) (a : Nat) (joined : AddPkt → Bool) (aborted : Bool) : List AddPkt :=
  s.dma.adds.map (fun p => if joined p then p.ended a aborted else p)

theorem ackAdds_spec {s v : State} (hr : v.dma.reads = []) (hfa : v.fabric.fa = s.fabric.fa) (hact : v.fabric.active = s.fabric.active) (a : Nat)
    (joined : AddPkt → Bool) (b : Bool) : QuietDie v (ackAdds v a joined b)
      ∧ (ackAdds v a joined b).dma = { v.dma with adds := (endedAdds v a joined b).filter (fun p => !p.left.isEmpty) }
      ∧ (ackAdds v a joined b).fw.hand = v.fw.hand ∧ (ackAdds v a joined b).dma.reads = []
      ∧ ((endedAdds v a joined b).filter (fun p => p.left.isEmpty) = [] → (ackAdds v a joined b).ledger = v.ledger)
      ∧ ∀ p ∈ endedAdds v a joined b, p.left = [] → DoneTold s (ackAdds v a joined b) p.hdr (if p.aborted then 0x08 else 0x00) := by
  obtain ⟨u, hu⟩ : ∃ u : State, u = { v with dma := { v.dma with adds := (endedAdds v a joined b).filter (fun p => !p.left.isEmpty) } } := ⟨_, rfl⟩
  have hureads : u.dma.reads = [] := by
    rw [hu]
    exact hr
  obtain ⟨hsend, hdma, htold⟩ := answers_told (fun p => if p.aborted then 0x08 else 0x00)
    ((endedAdds v a joined b).filter (fun p => p.left.isEmpty)) u hureads rfl rfl
  have hack : ackAdds v a joined b = ((endedAdds v a joined b).filter (fun p => p.left.isEmpty)).foldl (fun t p =>
      packetDone t p.hdr.src (byte (gaWindow p.hdr.ga)) (if p.aborted then 0x08 else 0x00) p.hdr.xfer p.hdr.chan p.hdr.index 0) u := by
    rw [hu]
    rfl
  rw [← hack] at hsend hdma htold
  have hufa : u.fabric.fa = s.fabric.fa ∧ u.fabric.active = s.fabric.active := by
    rw [hu]
    exact ⟨hfa, hact⟩
  refine ⟨⟨?_, ?_⟩, ?_, ?_, ?_, fun hnone => ?_, fun p hp hleft hreach => ?_⟩
  · rw [hsend.store, hu]
  · rw [hsend.die, hu]
  · rw [hdma, hu]
  · rw [hsend.fw, hu]
  · rw [hdma]
    exact hureads
  · rw [hack, hnone, hu]
    rfl
  · have hmem : p ∈ (endedAdds v a joined b).filter (fun p => p.left.isEmpty) := List.mem_filter.mpr ⟨hp, by rw [hleft]; rfl⟩
    obtain ⟨g, hg⟩ := htold p hmem (reaches_of hufa.1 hufa.2 hreach)
    have hfa' : u.fa = s.fa := hufa.1
    have hpacket : ∀ c, packet u p.hdr.src 0 0 c = packet s p.hdr.src 0 0 c := fun c => by rw [packet, packet, hfa']
    rw [hpacket] at hg
    exact ⟨g, hg⟩

section
variable {s : State} (hr : s.dma.reads = [])

theorem retryAdds_nothing {t : State} (h : t.dma.redWait = []) : retryAdds t = t := by
  rw [retryAdds, h]
  rfl

/-! ### A reduction that times out (R364) -/

include hr in
theorem reduction_aborted (hh : s.fw.hand = none) {e : RedEntry} (he : s.dma.reds = [e]) (hw : s.dma.redWait = []) :
    Completes (.reductionTimeout 0) s (fun t => QuietDie s t ∧ t.dma.reds = [] ∧ (s.dma.adds = [] → t.ledger.head = s.ledger.head + 1)
      ∧ ∀ p ∈ s.dma.adds, joinedEntry e p = true → p.left = [e.granule] → DoneTold s t p.hdr 0x08) := by
  obtain ⟨hquiet, hdma, hhand, -, hled, htold⟩ := ackAdds_spec (s := s) (v := dropEntry s e) hr rfl rfl e.granule (joinedEntry e) true
  obtain ⟨u, hu⟩ : ∃ u, u = ackAdds (dropEntry s e) e.granule (joinedEntry e) true := ⟨_, rfl⟩
  obtain ⟨d, hd⟩ : ∃ d, abortEntry s e (some 1) = event u 0xE014 d := by
    rw [hu]
    exact ⟨_, rfl⟩
  rw [← hu] at hquiet hdma hhand hled htold
  have hevent := event_frame u 0xE014 d
  have hedma : (event u 0xE014 d).dma = u.dma := (congrArg State.dma hevent :)
  have hwait : (event u 0xE014 d).dma.redWait = [] := by
    rw [hedma, hdma]
    exact hw
  have hexec : exec (.reductionTimeout 0) s = .next (event u 0xE014 d) := by
    change execReductionTimeout 0 s = _
    have hget : s.dma.reds[0]? = some e := by rw [he]; rfl
    simp only [execReductionTimeout, hget, hd, retryAdds_nothing hwait]
  have hsend := Sending.event u 0xE014 d
  refine ⟨_, hexec, QuietDie.trans ⟨hquiet.1, hquiet.2⟩ (.sending hsend), ?_, fun hnone => ?_, fun p hp hj hl => ?_⟩
  · rw [hedma, hdma]
    change s.dma.reds.erase e = []
    rw [he]
    exact List.erase_cons_head ..
  · have hend : endedAdds (dropEntry s e) e.granule (joinedEntry e) true = [] := by
      rw [endedAdds, show (dropEntry s e).dma.adds = s.dma.adds from rfl, hnone]
      rfl
    rw [event_head (inPause_none (hhand.trans hh)), hled (by rw [hend]; rfl)]
    rfl
  · have hended : p.ended e.granule true ∈ endedAdds (dropEntry s e) e.granule (joinedEntry e) true := by
      refine List.mem_map.mpr ⟨p, hp, ?_⟩
      rw [if_pos hj]
    have hleft : (p.ended e.granule true).left = [] := by
      rw [AddPkt.ended, hl]
      simp
    have ht := htold _ hended hleft
    rw [show (p.ended e.granule true).aborted = true by simp [AddPkt.ended], if_pos rfl] at ht
    exact ht.later hsend.sent

theorem reduction_none (k : Nat) (he : s.dma.reds = []) : exec (.reductionTimeout k) s = .next s := by
  change execReductionTimeout k s = _
  simp only [execReductionTimeout, he, List.getElem?_nil]

end

/-! ### An add write that opens its reduction (R361, R362) -/

/-- The entry that an add write of header `h` to granule `a` opens. -/
def newEntry (h : XferHdr) (a : Nat) (d : List Byte) : RedEntry :=
  ⟨a, gaWindow h.ga, h.tag, h.addType.toNat, h.count.toNat, [⟨(hdrRanks h).1, (hdrRanks h).2, redElems h.addType.toNat d⟩]⟩

/-- The state in which it stands in its unit. -/
def entryOpened (s : State) (h : XferHdr) (a : Nat) (d : List Byte) : State :=
  { giveAdds s a (broughtBy s a h) with dma := { (giveAdds s a (broughtBy s a h)).dma with reds := [newEntry h a d] } }

/-- A granule is written and its entry, the only one, leaves its unit. -/
theorem dropped_spec {u : State} {e : RedEntry} {a : Nat} {l : List Byte} (he : u.dma.reds = [e]) :
    (dropEntry (u.write a l) e).store = { u.store with mem := u.store.mem.write a l } ∧ (dropEntry (u.write a l) e).die = u.die
    ∧ (dropEntry (u.write a l) e).fabric = u.fabric ∧ (dropEntry (u.write a l) e).dma.reds = []
    ∧ (dropEntry (u.write a l) e).dma.reads = u.dma.reads ∧ (dropEntry (u.write a l) e).dma.redWait = u.dma.redWait
    ∧ (dropEntry (u.write a l) e).dma.adds = u.dma.adds := by
  refine ⟨rfl, rfl, rfl, ?_, rfl, rfl, rfl⟩
  change u.dma.reds.erase e = []
  rw [he]
  exact List.erase_cons_head ..

/-- A reduction of one rank has its add write's elements. -/
theorem treeValue_one (h : XferHdr) (a : Nat) (d : List Byte) (hc : h.count = 1) (hlt : (hdrRanks h).1 < h.count.toNat) :
    (hdrRanks h).2 = 1 ∧ (hdrRanks h).1 = 0
    ∧ treeValue (newEntry h a d).typ (newEntry h a d).count (newEntry h a d).parts (Nat.log2 (newEntry h a d).count + 1) 0
      = redElems h.addType.toNat d := by
  have hone : h.count.toNat = 1 := by rw [hc]; rfl
  have hlo : (hdrRanks h).1 = 0 := by omega
  have hhi : (hdrRanks h).2 = 1 := by
    have hfirst : h.first.toNat = 0 := hlo
    have hpos : 0 < 2 ^ h.level.toNat := Nat.two_pow_pos _
    rw [hdrRanks, hone, hfirst, Nat.zero_add]
    exact Nat.min_eq_right hpos
  have hlog : Nat.log2 1 = 0 := by decide
  refine ⟨hhi, hlo, ?_⟩
  simp [newEntry, hone, hlog, treeValue, hlo, hhi]

section
variable {s : State} {h : XferHdr} {gr : Nat} {d : List Byte} {a : Nat} (ha : addAddress s ⟨h, gr, d⟩ = a)
  (hw : (s.window (gaWindow h.ga)).state = .opened) (hseg : (s.seg (segOf a)).power = .on) (hreds : s.dma.reds = [])
  (hwait : s.dma.redWait = []) (hlo : (hdrRanks h).1 % 2 ^ h.level.toNat = 0) (hlt : (hdrRanks h).1 < h.count.toNat)
include ha hw hseg hreds hlo hlt

/-- It is accepted, and finished at once if it is whole. -/
theorem acceptAdd_opens : acceptAdd s ⟨h, gr, d⟩ = some (
    if h.count.toNat ≤ (hdrRanks h).2 - (hdrRanks h).1 then finishEntry (entryOpened s h a d) (newEntry h a d) else entryOpened s h a d) := by
  have hbad : ¬ ((s.window (gaWindow h.ga)).state ≠ .opened ∨ (s.seg (segOf a)).power ≠ .on) := by simp [hw, hseg]
  have hshaped : ((hdrRanks h).1 % 2 ^ h.level.toNat == 0 && decide ((hdrRanks h).1 < h.count.toNat)) = true := by simp [hlo, hlt]
  unfold acceptAdd
  simp only [ha, hbad, if_false, hreds, List.find?_nil, List.filter_nil, List.length_nil, show ¬ 64 ≤ 0 by decide, List.nil_append, hshaped,
    Bool.not_true, Bool.false_eq_true]
  split <;> rfl

include hwait in
/-- An add write that is not the whole of its reduction opens the entry. -/
theorem arrival_opens (hfound : s.store.found = []) (hmore : h.count.toNat > (hdrRanks h).2 - (hdrRanks h).1) :
    exec (.addWriteArrival h gr d) s = .next (entryOpened s h a d) := by
  have hacc := acceptAdd_opens ha hw hseg hreds hlo hlt
  rw [if_neg (Nat.not_le.mpr hmore)] at hacc
  have hretry : retryAdds (entryOpened s h a d) = entryOpened s h a d := retryAdds_nothing hwait
  have hsettle : settleReads (entryOpened s h a d) = entryOpened s h a d := settleReads_none _ hfound
  change execAddWriteArrival h gr d s = _
  unfold execAddWriteArrival
  simp only [hacc, hretry, hsettle]

include hwait in
/-- One that is the whole of its reduction is added into its granule, and its packet completes. -/
theorem arrival_finishes (hr : s.dma.reads = []) (hfound : s.store.found = []) (hc : h.count = 1) (hb : firstBad s.mem a 256 = none) :
    Completes (.addWriteArrival h gr d) s (fun t =>
      t.store.mem = s.store.mem.write a (redGranule h.addType.toNat (s.mem.read a 256) (redElems h.addType.toNat d))
      ∧ t.dma.reds = [] ∧ t.die = s.die ∧ (s.dma.adds = [{ hdr := h, left := [a] }] → t.dma.adds = [] ∧ DoneTold s t h 0)) := by
  obtain ⟨hhi, hzero, htree⟩ := treeValue_one h a d hc hlt
  have hacc := acceptAdd_opens ha hw hseg hreds hlo hlt
  have hone : h.count.toNat = 1 := by rw [hc]; rfl
  rw [if_pos (by omega)] at hacc
  obtain ⟨v, hv⟩ : ∃ v, v = dropEntry ((entryOpened s h a d).write a (redGranule h.addType.toNat (s.mem.read a 256)
    (redElems h.addType.toNat d))) (newEntry h a d) := ⟨_, rfl⟩
  have hfinish : finishEntry (entryOpened s h a d) (newEntry h a d) = ackAdds v a (joinedEntry (newEntry h a d)) false := by
    have hbad : firstBad (entryOpened s h a d).mem (newEntry h a d).granule 256 = none := hb
    rw [hv]
    unfold finishEntry
    simp only [hbad, htree]
    rfl
  have hvspec := dropped_spec (u := entryOpened s h a d) (a := a) (e := newEntry h a d) (l := redGranule h.addType.toNat (s.mem.read a 256)
    (redElems h.addType.toNat d)) rfl
  rw [← hv, show (entryOpened s h a d).store = s.store from rfl, show (entryOpened s h a d).die = s.die from rfl,
    show (entryOpened s h a d).fabric = s.fabric from rfl, show (entryOpened s h a d).dma.reads = s.dma.reads from rfl,
    show (entryOpened s h a d).dma.redWait = s.dma.redWait from rfl, hr, hwait,
    show (entryOpened s h a d).dma.adds = (giveAdds s a (broughtBy s a h)).dma.adds from rfl] at hvspec
  obtain ⟨hstore, hdie, hfab, hvreds, hvreads, hvwait, hvadds⟩ := hvspec
  obtain ⟨⟨hqstore, hqdie⟩, hdma, -, -, -, htold⟩ := ackAdds_spec (s := s) (v := v) hvreads (by rw [hfab]) (by rw [hfab]) a
    (joinedEntry (newEntry h a d)) false
  generalize hu : ackAdds v a (joinedEntry (newEntry h a d)) false = u at *
  have hretry : retryAdds u = u := retryAdds_nothing (by rw [hdma]; exact hvwait)
  have hsettle : settleReads u = u := settleReads_none _ (by rw [hqstore, hstore]; exact hfound)
  have hexec : exec (.addWriteArrival h gr d) s = .next u := by
    change execAddWriteArrival h gr d s = _
    unfold execAddWriteArrival
    simp only [hacc, hfinish, hretry, hsettle]
  refine ⟨_, hexec, by rw [hqstore, hstore], by rw [hdma]; exact hvreds, hqdie.trans hdie, fun hadds => ?_⟩
  have hgiven : v.dma.adds = [{ hdr := h, left := [a], given := [a] }] := by
    rw [hvadds]
    simp [giveAdds, broughtBy, hadds]
  have hended : endedAdds v a (joinedEntry (newEntry h a d)) false = [{ hdr := h, left := [], given := [], aborted := false }] := by
    have hjoin : joinedEntry (newEntry h a d) { hdr := h, left := [a], given := [a] } = true := by
      simp [joinedEntry, newEntry, sameReduction]
    rw [endedAdds, hgiven, List.map_singleton, if_pos hjoin]
    simp [AddPkt.ended]
  refine ⟨?_, ?_⟩
  · rw [hdma, hended]
    rfl
  · exact htold { hdr := h, left := [], given := [], aborted := false } (by rw [hended]; exact List.mem_singleton_self _) rfl

end

end Sys2Proof.Machine
end

section
/-! PROOFS. Channels: grants, FULL, outcomes, losses and revocations (R428, R431, R432, R435 to R437, R439, R445). -/

namespace Sys2Proof.Machine

/-! ### What leaves the channels alone -/

/-- From `s` to `t` no channel has changed. -/
def KeepsChans (s t : State) : Prop := t.dma.chans = s.dma.chans

namespace KeepsChans

variable {s t u : State}

theorem refl (s : State) : KeepsChans s s := rfl
theorem trans (h : KeepsChans s t) (k : KeepsChans t u) : KeepsChans s u := Eq.trans k h

theorem ite {p : Prop} [Decidable p] (h : KeepsChans s t) (k : KeepsChans s u) : KeepsChans s (if p then t else u) := by
  split
  · exact h
  · exact k

theorem foldl {α : Type} (f : State → α → State) (hf : ∀ s a, KeepsChans s (f s a)) (l : List α) (s : State) : KeepsChans s (l.foldl f s) := by
  induction l generalizing s with
  | nil => exact refl s
  | cons a l ih => exact (hf s a).trans (ih _)

theorem sending (h : Sending s t) : KeepsChans s t := by
  rw [KeepsChans, h.dma_eq]

theorem chan (h : KeepsChans s t) (c : Nat) : t.chan c = s.chan c := by rw [State.chan, h, State.chan]

theorem deliver (s : State) (w : Waiter) (v : W64) : KeepsChans s (deliver s w v) := ite rfl (sending (Sending.send _ _))

theorem wake (s : State) (g : Nat) (p : Waiter → Bool) (word : Waiter → W64) : KeepsChans s (wake s g p word) := by
  unfold Machine.wake
  exact KeepsChans.trans rfl (foldl (fun t w => Machine.deliver t w (word w)) (fun t w => deliver t w _) _ _)

theorem gateAdd (s : State) (g : Nat) (w : Waiter) (own : Option Nat) (x : W16) : KeepsChans s (gateOperate s g 0 w own x).1 := by
  have htouch : KeepsChans s (touchGate s g own) := by
    unfold touchGate
    split
    · exact ite (refl s) rfl
    · exact refl s
  unfold gateOperate
  split
  · refine htouch.trans ?_
    generalize touchGate s g own = t
    by_cases hk : (t.gate g).kind = .counter
    · rw [gateEffect_add rfl hk]
      exact KeepsChans.trans rfl (wake _ _ _ _)
    · rw [gateEffect_add_wrong rfl hk]
      exact refl t
  · exact refl s

theorem gateIncrement (s : State) (fa : W16) (g : BitVec 7) (b : Nat) (x : W16) (c : Bool) (v : W64) :
    KeepsChans s (gateIncrement s fa g b x c v) := by
  have hsend : ∀ (u : State) p, u.dma.chans = s.dma.chans → KeepsChans s (u.send p) := fun u p hu =>
    KeepsChans.trans hu (sending (Sending.send u p))
  unfold Machine.gateIncrement
  exact ite (gateAdd _ _ _ _ _) (ite (refl s) (hsend _ _ rfl))

theorem retireDma (s : State) (c : Nat) (n : Option Nat) : KeepsChans s (retireDma s c n) :=
  congrArg Dma.chans (retireDma_frame s c n).2.1

theorem background (s : State) (o : Origin) (r : W16) (d : List Byte) : KeepsChans s (background s o r d) := sending (Acting.appendLater _ _)

end KeepsChans

/-! ### The end of a transfer (R435, R436) -/

/-- The channel without its transfer. -/
def Channel.ended (k : Channel) (x : Transfer) (cause : Byte) : Channel :=
  if cause = 0 then { k with xfer := none } else { k with xfer := none, cause := cause, causeXfer := x.xfer }

theorem endTransfer_chan (s : State) (c : Nat) (x : Transfer) (cause : Byte) : (endTransfer s c x cause).chan c = (s.chan c).ended x cause
    ∧ ∀ j, j ≠ c → (endTransfer s c x cause).chan j = s.chan j := by
  have hrelease := releaseCredits_chan s c x
  obtain ⟨v, hv⟩ : ∃ v : Channel, v = (s.chan c).ended x cause := ⟨_, rfl⟩
  have hkeep : KeepsChans ((releaseCredits s c x).setChan c v) (endTransfer s c x cause) := by
    have hvset : v = if cause = 0 then { (releaseCredits s c x).chan c with xfer := none } else
        { { (releaseCredits s c x).chan c with xfer := none } with cause := cause, causeXfer := x.xfer } := by
      rw [hv, hrelease]
      rfl
    unfold Machine.endTransfer
    dsimp only
    rw [← hvset]
    generalize Machine.releaseCredits s c x = t
    have hretire := KeepsChans.retireDma (t.setChan c v) c x.node
    generalize Machine.retireDma (t.setChan c v) c x.node = w at hretire ⊢
    cases x.gate with
    | none =>
      cases x.origin with
      | none => exact hretire
      | some o => exact hretire.trans (.background _ _ _ _)
    | some g =>
      have hgate := fun y => hretire.trans (.gateIncrement w g.1 g.2 x.basin x.tenant y (if cause = 0 then 0x1 else 0x100000001))
      cases x.origin with
      | none => exact hgate _
      | some o => exact (hgate _).trans (.background _ _ _ _)
  refine ⟨?_, fun j hj => ?_⟩
  · rw [hkeep.chan, State.chan_setChan, hv]
  · rw [hkeep.chan, State.chan_setChan_ne _ hj, hrelease]

section
variable {s : State} {c : Nat} {x : Transfer}

/-- The channel's transfer has ended with `cause`. -/
def EndedWith (s t : State) (c : Nat) (x : Transfer) (cause : Byte) : Prop :=
  (t.chan c).xfer = none ∧ (t.chan c).cause = cause ∧ (t.chan c).causeXfer = x.xfer ∧ t.store.mem = s.store.mem

/-- A failure of a transfer with nothing outstanding ends it. -/
theorem failXfer_ends {cause : Byte} (hs : x.suspended = false) (hc : x.cause = 0) (h0 : cause ≠ 0)
    (hp : x.pkts.any PktState.outstanding = false) : EndedWith s (failXfer s c x cause) c x cause
      ∧ ∀ j, j ≠ c → (failXfer s c x cause).chan j = s.chan j := by
  obtain ⟨y, hy⟩ : ∃ y : Transfer, y = { x with cause := if x.cause = 0 then cause else x.cause, credits := 0 } := ⟨_, rfl⟩
  have hycause : y.cause = cause := by
    rw [hy]
    exact if_pos hc
  obtain ⟨u, hu⟩ : ∃ u, u = setXfer (releaseCredits s c x) c y := ⟨_, rfl⟩
  have hux : (u.chan c).xfer = some y := by
    rw [hu, setXfer, State.chan_setChan]
  have hfail : failXfer s c x cause = endTransfer u c y cause := by
    have hys : y.suspended = false := by
      rw [hy]
      exact hs
    have hyp : y.pkts.any PktState.outstanding = false := by
      rw [hy]
      exact hp
    have hsettle : settle u c = endTransfer u c y cause := by
      simp only [settle, hux, hys, Bool.false_eq_true, if_false, hycause, bne_iff_ne, ne_eq, h0, not_false_iff, if_true, hyp]
    rw [failXfer, ← hy, ← hu, hsettle]
  obtain ⟨hchan, hothers⟩ := endTransfer_chan u c y cause
  have hgo : Going s (endTransfer u c y cause) := by
    rw [hu]
    exact (Going.releaseCredits s c x).trans ((Going.setXfer _ c y).trans (Going.endTransfer _ c y cause))
  rw [hfail]
  refine ⟨⟨?_, ?_, ?_, ?_⟩, fun j hj => ?_⟩
  · rw [hchan, Channel.ended, if_neg h0]
  · rw [hchan, Channel.ended, if_neg h0]
  · rw [hchan, Channel.ended, if_neg h0, hy]
  · rw [hgo.store]
  · rw [hothers j hj, hu, setXfer, State.chan_setChan_ne _ hj, releaseCredits_chan]

/-! ### FULL and its timer (R432) -/

theorem grant_unnamed {src : W16} {win n cb : Byte} {xf : W16} (h : namedXfer s src win.toNat cb.toNat xf = none) :
    exec (.creditGrant src win n xf cb) s = .next s ∧ exec (.full src win xf cb) s = .next s := by
  refine ⟨?_, ?_⟩
  · change execCreditGrant src win n xf cb s = _
    simp only [execCreditGrant, h]
  · change execFull src win xf cb s = _
    simp only [execFull, h]

theorem full_noted {src : W16} {win cb : Byte} {xf : W16} (h : namedXfer s src win.toNat cb.toNat xf = some x) :
    exec (.full src win xf cb) s
      = .next (s.setChan cb.toNat { s.chan cb.toNat with xfer := some { x with asked := false, full := true } }) := by
  change execFull src win xf cb s = _
  simp only [execFull, h]
  rfl

theorem fullRetry_asks {ch : Fin 32} (hx : (s.chan ch).xfer = some x) (hs : x.suspended = false) (hc : x.cause = 0) (hf : x.full = true) :
    Completes (.fullRetryTimer ch) s (fun t => (t.chan ch).xfer = some { x with asked := true, full := false } ∧ QuietDie s t) := by
  have hexec : exec (.fullRetryTimer ch) s = .next (requestCredits s ch x) := by
    change execFullRetryTimer ch s = _
    simp only [execFullRetryTimer, hx, hf, hs, hc, Bool.not_false, beq_self_eq_true, Bool.and_self, if_true]
  have hsend : Sending (setXfer s ch { x with asked := true, full := false }) (requestCredits s ch x) := Sending.control _ _ _ _
  refine ⟨_, hexec, ?_, hsend.store, hsend.die⟩
  rw [(KeepsChans.sending hsend).chan, setXfer, State.chan_setChan]

theorem timers_idle {ch : Fin 32} (hx : (s.chan ch).xfer = none) :
    exec (.fullRetryTimer ch) s = .next s ∧ exec (.lossLimit ch) s = .next s := by
  refine ⟨?_, ?_⟩
  · change execFullRetryTimer ch s = _
    simp only [execFullRetryTimer, hx]
  · change execLossLimit ch s = _
    simp only [execLossLimit, hx]

/-! ### Outcomes (R435, R437, R439) -/

theorem chanByte (ch : Fin 32) : (byte (ch : Nat)).toNat = ch := by
  have := ch.isLt
  simp [byte]
  omega

/-- A packet that fails ends its transfer with its outcome. -/
theorem packetDone_fails {ch : Fin 32} {src : W16} {win oc : Byte} (hx : (s.chan ch).xfer = some x) (hw : gaWindow x.ga = win.toNat)
    (hs : x.suspended = false) (hc : x.cause = 0) (hp : x.pkts = [.sent]) (h0 : oc ≠ 0) (hfrom : gaFa x.ga = src ∨ oc = dcUnreachable) :
    Completes (.packetDone src win oc x.xfer (byte (ch : Nat)) 0 0) s (fun t => EndedWith s t ch x oc) := by
  have hans : answeredXfer s src win oc ch x.xfer = some x := by
    rw [answeredXfer, hx]
    exact if_pos ⟨rfl, hw, hfrom.imp id .inr⟩
  obtain ⟨y, hy⟩ : ∃ y : Transfer, y = { x with
    pkts := x.pkts.set 0 (outcomeOf x (x.pkts.getD 0 .ok) oc)
    buffer := x.buffer.filter (fun e => e.1 != 0)
    held := x.held.erase 0
    credits := x.credits + 0 } := ⟨_, rfl⟩
  have hexec : exec (.packetDone src win oc x.xfer (byte (ch : Nat)) 0 0) s = .next (failXfer (setXfer s ch y) ch y oc) := by
    change execPacketDone src win oc x.xfer (byte (ch : Nat)) 0 0 s = _
    unfold execPacketDone
    dsimp only
    rw [chanByte, hans, hy]
    exact congrArg Host.Outcome.next (if_pos (.inl h0))
  have hpkts : y.pkts = [.failed oc] := by
    have hfailed : outcomeOf x .sent oc = .failed oc := if_pos h0
    rw [hy, hp, ← hfailed]
    rfl
  obtain ⟨⟨h1, h2, h3, h4⟩, -⟩ := failXfer_ends (s := setXfer s ch y) (c := ch) (x := y) (cause := oc) (by rw [hy]; exact hs) (by rw [hy]; exact hc)
    h0 (by rw [hpkts]; rfl)
  exact ⟨_, hexec, h1, h2, h3.trans (by rw [hy]), h4⟩

/-- A packet without an outcome at the limit fails the transfer. -/
theorem lossLimit_fails {ch : Fin 32} (hx : (s.chan ch).xfer = some x) (hs : x.suspended = false) (hc : x.cause = 0) (hp : x.pkts = [.sent]) :
    Completes (.lossLimit ch) s (fun t => EndedWith s t ch x dcLost) := by
  obtain ⟨y, hy⟩ : ∃ y : Transfer, y = { x with pkts := x.pkts.set 0 (.failed dcLost) } := ⟨_, rfl⟩
  have hfind : (List.range x.pkts.length).find? (fun k => (x.pkts.getD k .ok).outstanding) = some 0 := by
    rw [hp]
    rfl
  have hexec : exec (.lossLimit ch) s = .next (failXfer s ch y dcLost) := by
    change execLossLimit ch s = _
    rw [hy]
    simp only [execLossLimit, hx, hs, Bool.false_eq_true, if_false, hfind]
  obtain ⟨⟨h1, h2, h3, h4⟩, -⟩ := failXfer_ends (s := s) (c := ch) (x := y) (cause := dcLost) (by rw [hy]; exact hs) (by rw [hy]; exact hc)
    (by decide) (by rw [hy, hp]; rfl)
  exact ⟨_, hexec, h1, h2, h3.trans (by rw [hy]), h4⟩

/-- With nothing to send a channel's pump does nothing. -/
theorem pump_done (n : Nat) (hx : (s.chan c).xfer = some x) (hs : x.suspended = false) (hc : x.cause = 0) (ht : x.todo = []) :
    pump (n + 1) s c = setXfer s c x := by
  have hload : toLoad x = [] := by
    unfold toLoad
    split
    · rw [ht, List.filter_nil, List.take_nil]
    · rfl
  have hbuffer : loadBuffer s x = (s, x) := by
    unfold loadBuffer
    simp only [hload, List.filter_nil, List.foldl_nil, List.map_nil, List.append_nil]
  simp only [pump, hx, hs, hc, bne_self_eq_false, Bool.or_self, Bool.false_eq_true, if_false, hbuffer, ht, List.head?_nil]

theorem todo_nil (h : x.pkts.all (fun p => p != .todo) = true) : x.todo = [] := by
  have hnone : (List.range x.pkts.length).filter (fun k => x.pkts.getD k .ok == .todo) = [] := by
    refine List.filter_eq_nil_iff.mpr fun k hk => ?_
    have hlt := List.mem_range.mp hk
    have hmem := List.all_eq_true.mp h x.pkts[k] (List.getElem_mem hlt)
    rw [List.getD_eq_getElem _ _ hlt]
    simpa using hmem
  unfold Transfer.todo
  rw [hnone]
  simp

/-- The last packet that succeeds ends its transfer. -/
theorem packetDone_succeeds {ch : Fin 32} {src : W16} {win : Byte} (hx : (s.chan ch).xfer = some x) (hw : gaWindow x.ga = win.toNat)
    (hs : x.suspended = false) (hc : x.cause = 0) (hp : x.pkts = [.sent]) (hrem : x.toRemote = true) (hfrom : gaFa x.ga = src ∨ x.kind ≠ 0)
    (hfound : s.store.found = []) : Completes (.packetDone src win 0 x.xfer (byte (ch : Nat)) 0 0) s (fun t =>
      (t.chan ch).xfer = none ∧ (t.chan ch).cause = (s.chan ch).cause ∧ t.store.mem = s.store.mem) := by
  have hans : answeredXfer s src win 0 ch x.xfer = some x := by
    rw [answeredXfer, hx]
    refine if_pos ⟨rfl, hw, hfrom.imp id fun hk => .inl ?_⟩
    simpa [Transfer.isAdd] using hk
  obtain ⟨y, hy⟩ : ∃ y : Transfer, y = { x with
    pkts := x.pkts.set 0 (outcomeOf x (x.pkts.getD 0 .ok) 0)
    buffer := x.buffer.filter (fun e => e.1 != 0)
    held := x.held.erase 0
    credits := x.credits + 0 } := ⟨_, rfl⟩
  have hys : y.suspended = false := by
    rw [hy]
    exact hs
  have hyc : y.cause = 0 := by
    rw [hy]
    exact hc
  have hypkts : y.pkts = [.ok] := by
    rw [hy, hp]
    simp [outcomeOf, hrem]
  obtain ⟨u, hu⟩ : ∃ u, u = setXfer s ch y := ⟨_, rfl⟩
  have hux : (u.chan ch).xfer = some y := by rw [hu, setXfer, State.chan_setChan]
  have hexec : exec (.packetDone src win 0 x.xfer (byte (ch : Nat)) 0 0) s = .next (settleReads (settle (run u ch) ch)) := by
    change execPacketDone src win 0 x.xfer (byte (ch : Nat)) 0 0 s = _
    unfold execPacketDone
    dsimp only
    rw [chanByte, hans]
    have hgo : ¬ ((0 : Byte) ≠ 0 ∨ x.cause ≠ 0) := by simp [hc]
    refine congrArg Host.Outcome.next ((if_neg hgo).trans ((if_neg (by simp [hs])).trans ?_))
    rw [hu, hy]
    rfl
  obtain ⟨v, hv⟩ : ∃ v, v = run u ch := ⟨_, rfl⟩
  have hrun : (v.chan ch) = { s.chan ch with xfer := some y } ∧ v.store = s.store := by
    have hpump : pump (y.pkts.length + 1) u ch = setXfer u ch y := pump_done _ hux hys hyc (todo_nil (by rw [hypkts]; rfl))
    have hpx : ((setXfer u ch y).chan ch) = { s.chan ch with xfer := some y } := by
      rw [setXfer, State.chan_setChan, hu, setXfer, State.chan_setChan]
    have hcase : v = retireDma (setXfer u ch y) ch y.node ∨ v = setXfer u ch y := by
      rw [hv, Machine.run]
      simp only [hux, hpump, hpx]
      split
      · exact .inl rfl
      · exact .inr rfl
    have hstore : (setXfer u ch y).store = s.store := by
      rw [hu]
      rfl
    rcases hcase with h | h
    · rw [h, (KeepsChans.retireDma _ _ _).chan, (retireDma_frame _ _ _).1]
      exact ⟨hpx, hstore⟩
    · rw [h]
      exact ⟨hpx, hstore⟩
  have hsettle : settle v ch = endTransfer v ch y 0 := by
    have hvx : (v.chan ch).xfer = some y := by rw [hrun.1]
    simp only [settle, hvx, hys, hyc, bne_self_eq_false, Bool.false_eq_true, if_false, hypkts, List.all_cons, List.all_nil, beq_self_eq_true,
      Bool.and_self, if_true]
  have hend := (endTransfer_chan v ch y 0).1
  have hstore : (endTransfer v ch y 0).store = s.store := (Going.endTransfer v ch y 0).store.trans hrun.2
  have hdone : settleReads (endTransfer v ch y 0) = endTransfer v ch y 0 := settleReads_none _ (by rw [hstore]; exact hfound)
  rw [← hv, hsettle, hdone] at hexec
  refine ⟨_, hexec, ?_, ?_, by rw [hstore]⟩
  · rw [hend, Channel.ended, if_pos rfl]
  · rw [hend, Channel.ended, if_pos rfl, hrun.1]

end

end Sys2Proof.Machine
end

section
/-! PROOFS. Channels: sending on a grant, read data, revocations and DMA.POST (R181, R428, R430, R432, R435, R445). -/

namespace Sys2Proof.Machine

theorem namedXfer_eq {s : State} {src : W16} {w c : Nat} {xf : W16} {x : Transfer} (h : namedXfer s src w c xf = some x) :
    (s.chan c).xfer = some x ∧ x.xfer = xf ∧ gaFa x.ga = src ∧ gaWindow x.ga = w := by
  unfold namedXfer at h
  split at h
  · next t ht =>
    split at h
    · next hall =>
      obtain ⟨hxf, hfa, hwin⟩ := hall
      cases h
      exact ⟨ht, hxf, hfa, hwin⟩
    · cases h
  · cases h

section
variable {s : State} {c : Nat} {x : Transfer}

/-! ### A transfer that sends on a grant (R428, R432) -/

/-- A transfer whose first packet may go sends it, and goes on. -/
theorem pump_sends (n : Nat) {y z : Transfer} (hx : (s.chan c).xfer = some y) (hs : y.suspended = false) (hc : y.cause = 0)
    (hload : loadBuffer s y = (s, z)) (hfirst : z.todo.head? = some 0) (hadd : z.isAdd = false) (hcr : 0 < z.credits)
    (hheld : z.toRemote = true → z.held.contains 0 = true) :
    pump (n + 1) s c
      = pump n (setXfer (s.send (xferPacket s z c 0)) c { z with pkts := z.pkts.set 0 .sent, credits := z.credits - 1 }) c := by
  have hgo : ((false || decide (0 < z.credits)) && (!z.toRemote || z.held.contains 0)) = true := by
    rw [decide_eq_true hcr]
    cases hrem : z.toRemote
    · rfl
    · exact hheld hrem
  simp only [pump, hx, hs, hc, bne_self_eq_false, Bool.or_self, Bool.false_eq_true, if_false, hload, hfirst, hadd, hgo, if_true]

theorem todo_single (hp : x.pkts = [.todo]) (hf : x.first = []) : x.todo = [0] := by
  simp [Transfer.todo, hp, hf, List.range_succ]

/-- The one packet of a transfer is sent on a credit. -/
theorem run_sends {y z : Transfer} (hx : (s.chan c).xfer = some y) (hs : y.suspended = false) (hc : y.cause = 0) (hk : y.kind = 0)
    (hcr : 0 < y.credits) (hp : y.pkts = [.todo]) (hf : y.first = []) {l : List (Nat × List Byte)} {h : List Nat}
    (hz : z = { y with buffer := l, held := h }) (hload : loadBuffer s y = (s, z)) (hheld : y.toRemote = true → h.contains 0 = true) :
    ((run s c).chan c).xfer = some { z with pkts := [.sent], credits := y.credits - 1 } ∧ (run s c).store = s.store
      ∧ (Reaches s (gaFa y.ga) → Sent.packet (xferPacket s z c 0) ∈ (run s c).sent) := by
  obtain ⟨e, he⟩ : ∃ e : Transfer, e = { z with pkts := [.sent], credits := y.credits - 1 } := ⟨_, rfl⟩
  obtain ⟨p, hpacket⟩ : ∃ p, p = xferPacket s z c 0 := ⟨_, rfl⟩
  have hfirst : z.todo.head? = some 0 := by
    rw [todo_single (x := z) (by rw [hz]; exact hp) (by rw [hz]; exact hf)]
    rfl
  have hset : { z with pkts := z.pkts.set 0 .sent, credits := z.credits - 1 } = e := by
    rw [he, hz]
    simp only [hp, List.set_cons_zero]
  have hux : ((setXfer (s.send p) c e).chan c).xfer = some e := by rw [setXfer, State.chan_setChan]
  have hpump : pump (y.pkts.length + 1) s c = setXfer (setXfer (s.send p) c e) c e := by
    rw [hp, pump_sends _ hx hs hc hload hfirst (by rw [hz]; simp [Transfer.isAdd, hk]) (by rw [hz]; exact hcr) (by rw [hz]; exact hheld), hset,
      ← hpacket]
    exact pump_done 0 hux (by rw [he, hz]; exact hs) (by rw [he, hz]; exact hc) (todo_nil (by rw [he]; rfl))
  obtain ⟨v, hv⟩ : ∃ v, v = setXfer (setXfer (s.send p) c e) c e := ⟨_, rfl⟩
  have hvx : (v.chan c).xfer = some e := by rw [hv, setXfer, State.chan_setChan]
  have hvstore : v.store = s.store := by
    rw [hv]
    exact (Sending.send s p).store
  have hvsent : v.sent = (s.send p).sent := by
    rw [hv]
    rfl
  have hsent : Reaches s (gaFa y.ga) → Sent.packet p ∈ v.sent := by
    intro hr
    have hdst : p.hdr.dst = gaFa y.ga := by rw [hpacket, hz]; rfl
    rw [hvsent]
    exact (sends_send (hdst ▸ hr)).mem
  have hrun : run s c = retireDma v c e.node ∨ run s c = v := by
    rw [Machine.run]
    simp only [hx, hpump, ← hv, hvx]
    split
    · exact .inl rfl
    · exact .inr rfl
  rw [← he, ← hpacket]
  rcases hrun with h | h
  · rw [h, (KeepsChans.retireDma _ _ _).chan, (retireDma_frame _ _ _).1]
    refine ⟨hvx, hvstore, fun hr => ?_⟩
    have hkeep : (retireDma v c e.node).sent = v.sent := by
      unfold retireDma
      split <;> rfl
    rw [hkeep]
    exact hsent hr
  · rw [h]
    exact ⟨hvx, hvstore, hsent⟩

/-- The transfer with one credit more, no longer waiting for one. -/
def Transfer.granted (x : Transfer) : Transfer := { x with credits := x.credits + 1, asked := false, full := false }

section
variable {src : W16} {win cb : Byte} {xf : W16} (hn : namedXfer s src win.toNat cb.toNat xf = some x) (hs : x.suspended = false)
  (hc : x.cause = 0) (hsound : Sound s) (hk : x.kind = 0) (hp : x.pkts = [.todo]) (hf : x.first = [])
include hn hs hc hsound hk hp hf

/-- A grant of one credit sends the one packet. -/
theorem grant_sends {l : List (Nat × List Byte)} {h : List Nat}
    (hload : (loadBuffer (setXfer s cb.toNat x.granted) x.granted).2 = { x.granted with buffer := l, held := h })
    (hheld : x.toRemote = true → h.contains 0 = true) : Completes (.creditGrant src win 1 xf cb) s (fun t =>
      (t.chan cb.toNat).xfer = some { x with pkts := [.sent], asked := false, full := false, buffer := l, held := h } ∧ t.store = s.store
      ∧ (Reaches s src → Sent.packet (xferPacket s { x.granted with buffer := l, held := h } cb.toNat 0) ∈ t.sent)) := by
  obtain ⟨-, -, hfa, -⟩ := namedXfer_eq hn
  obtain ⟨u, hu⟩ : ∃ u, u = setXfer s cb.toNat x.granted := ⟨_, rfl⟩
  have hux : (u.chan cb.toNat).xfer = some x.granted := by rw [hu, setXfer, State.chan_setChan]
  have hustore : u.store = s.store := by
    rw [hu]
    rfl
  have hwhole : loadBuffer u x.granted = (u, { x.granted with buffer := l, held := h }) :=
    Prod.ext (loadBuffer_sound (by rw [hustore]; exact hsound.flips) _) (by rw [hu]; exact hload)
  obtain ⟨hxfer, hstore, hsent⟩ := run_sends (y := x.granted) hux hs hc hk (Nat.succ_pos _) hp hf rfl hwhole hheld
  have hdone : settleReads (run u cb.toNat) = run u cb.toNat := settleReads_none _ (by rw [hstore, hustore]; exact hsound.found)
  have hexec : exec (.creditGrant src win 1 xf cb) s = .next (run u cb.toNat) := by
    change execCreditGrant src win 1 xf cb s = _
    have hgo : ¬(x.suspended || x.cause != 0) = true := by simp [hs, hc]
    rw [← hdone, hu, execCreditGrant, hn]
    exact congrArg Host.Outcome.next (if_neg hgo)
  refine ⟨_, hexec, hxfer, hstore.trans hustore, fun hr => ?_⟩
  have hr' : Reaches u (gaFa x.granted.ga) := by
    rw [show gaFa x.granted.ga = src from hfa]
    exact reaches_of (by rw [hu]; rfl) (by rw [hu]; rfl) hr
  have := hsent hr'
  rw [hu] at this ⊢
  exact this

theorem grant_asksRead (hrem : x.toRemote = false) : Completes (.creditGrant src win 1 xf cb) s (fun t =>
    (t.chan cb.toNat).xfer = some { x with pkts := [.sent], asked := false, full := false } ∧ t.store = s.store
    ∧ (Reaches s src → ∃ p : Packet, Sent.packet p ∈ t.sent ∧ p.hdr.typ = 7 ∧ p.hdr.dst = src ∧ p.content = xferContent x cb.toNat 0)) := by
  obtain ⟨-, -, hfa, -⟩ := namedXfer_eq hn
  have hload : toLoad x.granted = [] := if_neg (by rw [show x.granted.toRemote = x.toRemote from rfl, hrem]; exact Bool.false_ne_true)
  obtain ⟨t, ht, hx, hstore, hsent⟩ := grant_sends hn hs hc hsound hk hp hf (l := x.buffer) (h := x.held)
    (by simp only [loadBuffer, hload, List.filter_nil, List.map_nil, List.append_nil]; rfl)
    (fun h => absurd (h.symm.trans hrem) (by decide))
  refine ⟨t, ht, hx, hstore, fun hr => ⟨_, hsent hr, ?_, hfa, rfl⟩⟩
  simp [xferPacket, Transfer.granted, hrem]

theorem grant_writes (hrem : x.toRemote = true) (hh : x.held = []) (hb : x.buffer = []) : Completes (.creditGrant src win 1 xf cb) s (fun t =>
    (t.chan cb.toNat).xfer
      = some { x with pkts := [.sent], asked := false, full := false, held := [0], buffer := [(0, readPacket s.mem x 0)] }
    ∧ t.store = s.store ∧ (Reaches s src → ∃ p : Packet, Sent.packet p ∈ t.sent ∧ p.hdr.typ = 5 ∧ p.hdr.dst = src
      ∧ p.content = xferContent x cb.toNat 0 ∧ p.data = chunks 256 (x.frames 0) (readPacket s.mem x 0))) := by
  obtain ⟨-, -, hfa, -⟩ := namedXfer_eq hn
  have hload : toLoad x.granted = [0] := by
    have htodo : x.granted.todo = [0] := todo_single (x := x.granted) hp hf
    have hrem' : x.granted.toRemote = true := hrem
    have hheld' : x.granted.held = [] := hh
    simp [toLoad, htodo, hrem', hheld']
  have hbuffer : x.granted.buffer = [] := hb
  have hheld : x.granted.held = [] := hh
  obtain ⟨t, ht, hx, hstore, hsent⟩ := grant_sends hn hs hc hsound hk hp hf (l := [(0, readPacket s.mem x 0)]) (h := [0])
    (by
      simp only [loadBuffer, hload, hbuffer, hheld, List.any_nil, Bool.not_false, List.filter_cons_of_pos, List.filter_nil, List.map_cons,
        List.map_nil, List.nil_append]
      rfl)
    (fun _ => rfl)
  refine ⟨t, ht, hx, hstore, fun hr => ⟨_, hsent hr, ?_, hfa, rfl, ?_⟩⟩
  · simp [xferPacket, Transfer.granted, Transfer.isAdd, hrem, hk]
  · simp [xferPacket, Transfer.granted, hrem]
    rfl

end

/-! ### Read data (R435) -/

theorem readData_lands {h : XferHdr} {data : List (List Byte)} (hn : namedXfer s h.src (gaWindow h.ga) h.chan.toNat h.xfer = some x)
    (hs : x.suspended = false) (hc : x.cause = 0) (hrem : x.toRemote = false) (hp : x.pkts = [.sent]) (hi : h.index = 0)
    (hpk : x.packets = 1) : Completes (.readData h data) s (fun t =>
      t.store.mem = s.store.mem.write x.laddr (padTo (x.bytesOf 0) (data.flatMap (padTo 256)))
      ∧ (t.chan h.chan.toNat).xfer = some { x with pkts := [.dataIn] }) := by
  have hreading : ∀ u : State, u.dma.chans = s.dma.chans → readingXfer u h = some x := by
    intro u hu
    have hnamed : namedXfer u h.src (gaWindow h.ga) h.chan.toNat h.xfer = some x := by
      rw [← hn, namedXfer, namedXfer, State.chan, hu, State.chan]
    unfold readingXfer
    simp only [hnamed, hs, hrem, hi, hpk]
    rfl
  obtain ⟨u, hu⟩ : ∃ u, u = s.write x.laddr (padTo (x.bytesOf 0) (data.flatMap (padTo 256))) := ⟨_, rfl⟩
  have humem : u.store.mem = s.store.mem.write x.laddr (padTo (x.bytesOf 0) (data.flatMap (padTo 256))) := by
    rw [hu]
    rfl
  obtain ⟨y, hy⟩ : ∃ y : Transfer, y = { x with pkts := [.dataIn] } := ⟨_, rfl⟩
  obtain ⟨v, hv⟩ : ∃ v, v = setXfer (retireDma u h.chan.toNat x.node) h.chan.toNat y := ⟨_, rfl⟩
  have hvx : (v.chan h.chan.toNat).xfer = some y := by rw [hv, setXfer, State.chan_setChan]
  have hsettle : settle v h.chan.toNat = v := by
    have hys : y.suspended = false := by rw [hy]; exact hs
    have hyc : y.cause = 0 := by rw [hy]; exact hc
    have hyp : y.pkts = [.dataIn] := by rw [hy]
    simp [settle, hvx, hys, hyc, hyp]
  have hin : readIn u h = settle v h.chan.toNat := by
    unfold readIn
    rw [hreading u (by rw [hu]; rfl), hv, hy]
    simp only [hi, hp]
    rfl
  have hexec : exec (.readData h data) s = .next v := by
    change execReadData h data s = _
    unfold execReadData
    rw [hreading s rfl]
    simp only [hi]
    change Host.Outcome.next (readIn (s.write (x.laddr + x.unit * 0) _) h) = _
    rw [Nat.mul_zero, Nat.add_zero]
    exact congrArg _ ((congrArg (readIn · h) hu.symm).trans (hin.trans hsettle))
  refine ⟨v, hexec, ?_, by rw [hvx, hy]⟩
  rw [hv, ← humem]
  exact congrArg Store.mem (retireDma_frame _ _ _).1

end

end Sys2Proof.Machine
end

section
/-! PROOFS. Revocations of a window's owner, and DMA.POST (R181, R430, R445). -/

namespace Sys2Proof.Machine

section
variable {s : State} {src : W16} {a b : Byte} {num : W32} {mask : W64}

/-! ### Revocations (R445) -/

/-- One channel learns of a revocation. -/
def revokeOne (src : W16) (mask : W64) (cause : Byte) (t : State) (c : Nat) : State :=
  match (t.chan c).xfer with
  | some x => if gaFa x.ga = src ∧ bit mask.toNat (gaWindow x.ga) ∧ !x.isAdd then failXfer t c x cause else t
  | none => t

theorem revokeOne_none {cause : Byte} {c : Nat} (h : (s.chan c).xfer = none) : revokeOne src mask cause s c = s := by
  simp only [revokeOne, h]

theorem revoke_nothing {cause : Byte} {l : List Nat} (h : ∀ j ∈ l, (s.chan j).xfer = none) : l.foldl (revokeOne src mask cause) s = s := by
  induction l with
  | nil => rfl
  | cons j l ih =>
    rw [List.foldl_cons, revokeOne_none (h j List.mem_cons_self)]
    exact ih fun k hk => h k (List.mem_cons_of_mem _ hk)

/-- The one transfer that a revocation names fails. -/
theorem revoke_ends {cause : Byte} (h0 : cause ≠ 0) {c : Nat} {x : Transfer} {l : List Nat} (hmem : c ∈ l) (hnodup : l.Nodup)
    (hx : (s.chan c).xfer = some x) (hs : x.suspended = false) (hc : x.cause = 0) (hk : x.kind = 0) (hp : x.pkts = [.todo])
    (hfa : gaFa x.ga = src) (hm : mask.getLsbD (gaWindow x.ga) = true) (hnone : ∀ j, j ≠ c → (s.chan j).xfer = none) :
    EndedWith s (l.foldl (revokeOne src mask cause) s) c x cause := by
  obtain ⟨before, after, rfl⟩ := List.append_of_mem hmem
  have hsplit := (List.nodup_append.mp hnodup)
  have hbefore : ∀ j ∈ before, (s.chan j).xfer = none := fun j hj => hnone j (hsplit.2.2 j hj c List.mem_cons_self)
  have hafter : ∀ j ∈ after, j ≠ c := fun j hj h => (List.nodup_cons.mp hsplit.2.1).1 (h ▸ hj)
  have hone : revokeOne src mask cause s c = failXfer s c x cause := by
    have hnamed : gaFa x.ga = src ∧ bit mask.toNat (gaWindow x.ga) ∧ !x.isAdd := ⟨hfa, hm, by simp [Transfer.isAdd, hk]⟩
    simp only [revokeOne, hx]
    exact if_pos hnamed
  obtain ⟨hend, hothers⟩ := failXfer_ends (s := s) (c := c) (cause := cause) hs hc h0 (by rw [hp]; rfl)
  rw [List.foldl_append, List.foldl_cons, revoke_nothing hbefore, hone, revoke_nothing fun j hj => by rw [hothers j (hafter j hj)]; exact hnone j (hafter j hj)]
  exact hend

/-- A revocation that is not newer than the last one of its chiplet is ignored. -/
theorem revocation_stale (h : ∃ e ∈ s.dma.lastRev.find? (fun e => e.1 == src.toNat), num.toNat ≤ e.2.toNat) :
    exec (.revocation src a b num mask) s = .next s := by
  obtain ⟨e, he, hle⟩ := h
  refine if_pos ?_
  rw [Option.mem_def.mp he]
  exact decide_eq_true hle

/-- The state that has noted a revocation. -/
def revocationNoted (s : State) (src : W16) (num : W32) : State :=
  { s with dma := { s.dma with lastRev := tput s.dma.lastRev src.toNat num } }

/-- Action 0 only records. -/
theorem revocation_records (hh : s.fw.hand = none) (h : s.dma.lastRev.find? (fun e => e.1 == src.toNat) = none) :
    Completes (.revocation src 0 b num mask) s (fun t => t.dma = { s.dma with lastRev := tput s.dma.lastRev src.toNat num }
      ∧ t.ledger.head = s.ledger.head + 1 ∧ QuietDie s t) := by
  obtain ⟨d, hexec⟩ : ∃ d, exec (.revocation src 0 b num mask) s = .next (event (revocationNoted s src num) 0xE042 d) := by
    refine ⟨[0, b] ++ leBytes 2 src.toNat ++ leBytes 4 num.toNat, ?_⟩
    change execRevocation src 0 b num mask s = _
    unfold execRevocation
    rw [h]
    rfl
  have hsend := Sending.event (revocationNoted s src num) 0xE042 d
  have hframe := event_frame (revocationNoted s src num) 0xE042 d
  refine ⟨_, hexec, (congrArg State.dma hframe :), ?_, hsend.store, hsend.die⟩
  exact event_head (inPause_none (s := revocationNoted s src num) hh) _ _

/-- Action 1 ends the transfers whose window it names. -/
theorem revocation_revokes {c : Fin 32} {x : Transfer} (h : s.dma.lastRev.find? (fun e => e.1 == src.toNat) = none)
    (hx : (s.chan c).xfer = some x) (hs : x.suspended = false) (hc : x.cause = 0) (hk : x.kind = 0) (hp : x.pkts = [.todo])
    (hfa : gaFa x.ga = src) (hm : mask.getLsbD (gaWindow x.ga) = true) (hnone : ∀ j, j ≠ (c : Nat) → (s.chan j).xfer = none) :
    Completes (.revocation src 1 b num mask) s (fun t => EndedWith s t c x dcRevoked) := by
  obtain ⟨u, hu⟩ : ∃ u, u = (List.range 32).foldl (revokeOne src mask dcRevoked) (revocationNoted s src num) := ⟨_, rfl⟩
  obtain ⟨d, hexec⟩ : ∃ d, exec (.revocation src 1 b num mask) s = .next (event u 0xE042 d) := by
    refine ⟨[1, b] ++ leBytes 2 src.toNat ++ leBytes 4 num.toNat, ?_⟩
    change execRevocation src 1 b num mask s = _
    unfold execRevocation
    rw [h, hu]
    rfl
  obtain ⟨hgone, hcause, hnum, hmem⟩ : EndedWith (revocationNoted s src num) u c x dcRevoked := by
    rw [hu]
    exact revoke_ends (by decide) (List.mem_range.mpr c.isLt) List.nodup_range hx hs hc hk hp hfa hm hnone
  have hsend := Sending.event u 0xE042 d
  have hchan := (KeepsChans.sending hsend).chan (c : Nat)
  refine ⟨_, hexec, ?_, ?_, ?_, ?_⟩
  · rw [hchan, hgone]
  · rw [hchan, hcause]
  · rw [hchan, hnum]
  · rw [hsend.store, hmem]
    rfl

end

/-! ### DMA.POST (R181, R430) -/

section
variable {s : State} {r : Request} {v : Nat}

/-- What DMA.POST answers where it has an effect. -/
def postReply (r : Request) : Reply :=
  { status := stAccepted
    detail := some ([byte (r.arg 16 1), byte (r.arg 17 1), byte (r.arg 18 1), byte (r.arg 19 1)] ++ leBytes 4 (r.arg 32 4))
    commit := fun o s => settleReads (startTransfer s (r.arg 17 1) (postTransfer r s o
      ([byte (r.arg 16 1), byte (r.arg 17 1), byte (r.arg 18 1), byte (r.arg 19 1)] ++ leBytes 4 (r.arg 32 4))) false) }

theorem postBody_accepts (hb : r.arg 16 1 ≤ 31) (hv : r.arg 17 1 ≤ 31) (hdir : r.arg 18 1 ≤ 1) (hg : r.arg 19 1 ≤ 127)
    (ha : r.arg 20 4 % 256 = 0) (hn : r.arg 32 4 % 256 = 0) (hpos : 0 < r.arg 32 4) (hmax : r.arg 32 4 ≤ 0x4000000)
    (hend : r.arg 20 4 + r.arg 32 4 ≤ Memory.size) (hset : settled s (r.arg 16 1) = true)
    (hclus : (s.basin (r.arg 16 1)).rect.clusters.contains (r.arg 17 1 / 4) = true)
    (hseg : ∀ j ∈ segsOf (r.arg 20 4) (r.arg 20 4 + r.arg 32 4),
      (s.seg j).owner = some (r.arg 16 1) ∧ (s.seg j).power = .on ∧ (s.seg j).busy = false)
    (hx : (s.chan (r.arg 17 1)).xfer = none) : postBody r s = postReply r := by
  have hargs : ¬(31 < r.arg 16 1 ∨ 31 < r.arg 17 1 ∨ 1 < r.arg 18 1 ∨ 127 < r.arg 19 1 ∨ r.arg 20 4 % 256 ≠ 0 ∨ r.arg 32 4 % 256 ≠ 0
      ∨ 0x4000000 < r.arg 32 4 ∨ Memory.size ≤ r.arg 20 4 ∨ Memory.size < r.arg 20 4 + r.arg 32 4) := by omega
  have hown : (segsOf (r.arg 20 4) (r.arg 20 4 + r.arg 32 4)).any (fun k => (s.seg k).owner != some (r.arg 16 1) || (s.seg k).power == .off)
      = false := by
    refine List.any_eq_false.mpr fun j hj => ?_
    obtain ⟨ho, hp, -⟩ := hseg j hj
    simp [ho, hp]
  have hfree : (segsOf (r.arg 20 4) (r.arg 20 4 + r.arg 32 4)).any (fun k => (s.seg k).power == .waking || (s.seg k).busy) = false := by
    refine List.any_eq_false.mpr fun j hj => ?_
    obtain ⟨-, hp, hbusy⟩ := hseg j hj
    simp [hp, hbusy]
  have hconflict : ¬((!settled s (r.arg 16 1)) = true ∨ (!(s.basin (r.arg 16 1)).rect.clusters.contains (r.arg 17 1 / 4)) = true
      ∨ (segsOf (r.arg 20 4) (r.arg 20 4 + r.arg 32 4)).any (fun k => (s.seg k).owner != some (r.arg 16 1) || (s.seg k).power == .off) = true) := by
    simp only [hset, hclus, hown, Bool.not_true, Bool.false_eq_true, or_self, not_false_iff]
  have hbusy : ¬((s.chan (r.arg 17 1)).xfer.isSome = true
      ∨ (segsOf (r.arg 20 4) (r.arg 20 4 + r.arg 32 4)).any (fun k => (s.seg k).power == .waking || (s.seg k).busy) = true) := by
    simp only [hx, hfree, Option.isSome_none, Bool.false_eq_true, or_self, not_false_iff]
  unfold postBody
  exact (if_neg hargs).trans ((if_neg hconflict).trans (if_neg hbusy))

/-- A transfer that DMA.POST starts asks for its credits. -/
theorem post_starts {u : State} (hsound : Sound u) (o : Origin) (d : List Byte) (hlen : r.arg 32 4 ≠ 0)
    (hreach : reachable u (gaFa (BitVec.ofNat 64 (r.arg 24 8))) = true) (hal : gaOffset (BitVec.ofNat 64 (r.arg 24 8)) % 256 = 0)
    (hsize : gaOffset (BitVec.ofNat 64 (r.arg 24 8)) + r.arg 32 4 ≤ 2 ^ 42) :
    let t := settleReads (startTransfer u v (postTransfer r u o d) false)
    t.store = u.store ∧ t.die = u.die ∧ ∃ e, (t.chan v).xfer = some e ∧ e.basin = r.arg 16 1 ∧ e.ga = BitVec.ofNat 64 (r.arg 24 8)
      ∧ e.len = r.arg 32 4 ∧ e.laddr = r.arg 20 4 ∧ e.asked = true ∧ e.toRemote = (r.arg 18 1 == 0) ∧ e.xfer = (u.chan v).number + 1
      ∧ ∀ q ∈ e.pkts, q = .todo := by
  obtain ⟨t0, ht0⟩ : ∃ t0, t0 = postTransfer r u o d := ⟨_, rfl⟩
  have hcause : originCause u (startedXfer u v t0) false = 0 := by
    have hfits : ¬(gaOffset (BitVec.ofNat 64 (r.arg 24 8)) % 256 ≠ 0
        ∨ 2 ^ 42 < gaOffset (BitVec.ofNat 64 (r.arg 24 8)) + r.arg 32 4) := by omega
    rw [ht0]
    unfold originCause
    simp only [startedXfer, postTransfer, hreach, hfits, Bool.not_true, Bool.false_eq_true, if_false]
  have hwhole : firstBad u.mem t0.laddr t0.len = none := by
    have hflips : u.mem.flips = [] := hsound.flips
    rw [firstBad, Memory.firstFailing_none, hflips]
    exact fun w hw => absurd hw List.not_mem_nil
  obtain ⟨l, h, hx, hstore, hdie, -⟩ := startTransfer_asks hcause (by rw [ht0]; exact hlen) (by rw [ht0]; rfl) (by rw [ht0]; rfl)
    (by rw [ht0]; rfl) (by rw [ht0]; rfl) hwhole
  have hdone : settleReads (startTransfer u v t0 false) = startTransfer u v t0 false :=
    settleReads_none _ ((congrArg Store.found hstore).trans hsound.found)
  intro t
  have ht : t = startTransfer u v t0 false := by
    rw [← hdone, ht0]
  rw [ht]
  refine ⟨hstore, hdie (by rw [ht0]; rfl), _, hx, ?_⟩
  rw [ht0]
  exact ⟨rfl, rfl, rfl, rfl, rfl, rfl, rfl, fun q hq => List.eq_of_mem_replicate hq⟩

theorem dmaPost_starts (hadm : Admitted cmdDmaPost r s) (hsound : Sound s) (hb : r.arg 16 1 ≤ 31) (hv : r.arg 17 1 ≤ 31) (hdir : r.arg 18 1 ≤ 1)
    (hg : r.arg 19 1 ≤ 127) (ha : r.arg 20 4 % 256 = 0) (hn : r.arg 32 4 % 256 = 0) (hpos : 0 < r.arg 32 4) (hmax : r.arg 32 4 ≤ 0x4000000)
    (hend : r.arg 20 4 + r.arg 32 4 ≤ Memory.size) (hset : settled s (r.arg 16 1) = true)
    (hclus : (s.basin (r.arg 16 1)).rect.clusters.contains (r.arg 17 1 / 4) = true)
    (hseg : ∀ j ∈ segsOf (r.arg 20 4) (r.arg 20 4 + r.arg 32 4),
      (s.seg j).owner = some (r.arg 16 1) ∧ (s.seg j).power = .on ∧ (s.seg j).busy = false)
    (hx : (s.chan (r.arg 17 1)).xfer = none) (hreach : reachable s (gaFa (BitVec.ofNat 64 (r.arg 24 8))) = true)
    (hal : gaOffset (BitVec.ofNat 64 (r.arg 24 8)) % 256 = 0)
    (hsize : gaOffset (BitVec.ofNat 64 (r.arg 24 8)) + r.arg 32 4 ≤ 2 ^ 42) :
    AnsweredAfter (.dmaPost r) cmdDmaPost r s stAccepted [] (some s.ledger.head) (fun t => t.store = s.store ∧ t.die = s.die
      ∧ ∃ e, (t.chan (r.arg 17 1)).xfer = some e ∧ e.basin = r.arg 16 1 ∧ e.ga = BitVec.ofNat 64 (r.arg 24 8) ∧ e.len = r.arg 32 4
        ∧ e.laddr = r.arg 20 4 ∧ e.asked = true ∧ e.toRemote = (r.arg 18 1 == 0) ∧ e.xfer = (s.chan (r.arg 17 1)).number + 1
        ∧ ∀ q ∈ e.pkts, q = .todo) := by
  refine answeredAfter_of_commit (a := postReply r) rfl hadm (fun e v => ?_) rfl rfl rfl fun o e v l m _ => ?_
  · exact postBody_accepts hb hv hdir hg ha hn hpos hmax hend hset hclus hseg hx
  · exact post_starts (u := { s with eps := e, svc := v, ledger := l, sent := m }) ⟨hsound.flips, hsound.found⟩ o _ hpos.ne' hreach hal hsize

end

end Sys2Proof.Machine
end

section
/-! PROOFS. O53: the rows of transfers. -/

namespace Sys2Proof.Machine

/-- Settles O53: each row by what the window, the reduction unit or the channel does with what comes. -/
theorem transfersReadWriteAndEnd : Obligations.TransfersReadWriteAndEnd := by
  unfold Obligations.TransfersReadWriteAndEnd
  intro h data gr d src win n kind oc xf idx ch num mask k x s hh hr
  have hch := chanByte ch
  have hnamed : namedXfer s src win.toNat ch xf = some x → namedXfer s src win.toNat (byte (ch : Nat)).toNat xf = some x := fun hn => by
    rw [hch]
    exact hn
  dsimp only
  refine ⟨fun ha => write_stored ha, fun e ha => write_refused ha, fun ha hfa hreach => ⟨fun hb => ?_, fun e hb hself => ?_⟩,
    fun e ha => read_refused ha, fun ha => add_admitted ha, fun e ha => add_refused hr ha,
    fun hw hseg hfound hreds hwait hlo hlt => ⟨fun hmore => ?_, fun hc hb => ?_⟩, fun e he hw => reduction_aborted hr hh he hw,
    fun he => reduction_none k he, fun hw hq hc => creditReq_grants hr hw hq hc, fun hw => creditReq_refused hr hw,
    fun hq => creditRelease_all hr hq, fun hq => creditRelease_used hr hq,
    fun v => ⟨fun hq => creditReclaim_takes hr hq, fun hq => creditReclaim_used hq⟩, fun hn => ?_, fun hn => ?_,
    fun hn hm hsound hk hp hcr hf hheld hbuf => ⟨fun hrem => ?_, fun hrem => ?_⟩, fun hx hxf hw hm hp => ⟨fun hrem hfrom hfound => ?_,
      fun hfa h0 => ?_, ?_, lossLimit_fails hx hm.1 hm.2 hp⟩, fun hn hcb hm hrem hp hi hpk => ?_, fun hx hm hf => fullRetry_asks hx hm.1 hm.2 hf,
    fun hx => timers_idle hx, fun he => revocation_stale he, fun hnone => ⟨revocation_records hh hnone,
      fun hx hm hk hp hfa hmask hothers => revocation_revokes hnone hx hm.1 hm.2 hk hp hfa hmask hothers⟩,
    fun r hadm hsound hb hv hdir hg ha hn hpos hmax hend hset hclus hseg hx hreach hal hsize =>
      dmaPost_starts hadm hsound hb hv hdir hg ha hn hpos hmax hend hset hclus hseg hx hreach hal hsize⟩
  · exact read_served hr ha hfa hreach hb
  · exact read_fails ha hb hself
  · exact arrival_opens rfl hw hseg hreds hwait hlo hlt hfound hmore
  · exact arrival_finishes rfl hw hseg hreds hwait hlo hlt hr hfound hc hb
  · exact grant_unnamed (by rw [hch]; exact hn)
  · have := full_noted (hnamed hn)
    rw [hch] at this
    exact this
  · have := grant_asksRead (hnamed hn) hm.1 hm.2 hsound hk hp hf hrem
    rw [hch] at this
    exact this
  · have := grant_writes (hnamed hn) hm.1 hm.2 hsound hk hp hf hrem hheld hbuf
    rw [hch] at this
    exact this
  · rw [← hxf]
    exact packetDone_succeeds hx hw hm.1 hm.2 hp hrem hfrom hfound
  · rw [← hxf]
    exact packetDone_fails hx hw hm.1 hm.2 hp h0 (.inl hfa)
  · rw [← hxf]
    exact packetDone_fails hx hw hm.1 hm.2 hp (by decide) (.inr rfl)
  · have := readData_lands (data := data) (by rw [hcb, hch]; exact hn) hm.1 hm.2 hrem hp hi hpk
    rw [hcb, hch] at this
    exact this

end Sys2Proof.Machine
end
